-- ==== Sys2Proof/Word.lean ====
section
/-!
DEFINITION. The word types of the part and their plainest field arithmetic: a register is 32 bits (R58), a DPA and every
count is a plain number, and a field is read and replaced by its bit range [hi:lo] (the notation table of 00_scope.md).
-/
namespace Sys2Proof

/-- A byte of memory, little-endian within every field (R5). -/
abbrev Byte := BitVec 8
/-- A register word (R58). -/
abbrev Word := BitVec 32
/-- A 64-bit access, an instruction or an argument. -/
abbrev DWord := BitVec 64

/-- The number held in bits [hi:lo] of `n`. -/
def bitsOf (n hi lo : Nat) : Nat := (n >>> lo) % 2 ^ (hi + 1 - lo)

/-- Bit `i` of `n`. -/
def bitOf (n i : Nat) : Bool := n.testBit i

/-- `n` with bits [hi:lo] replaced by `v` (taken modulo the field's width). -/
def putBits (n hi lo v : Nat) : Nat :=
  n - (bitsOf n hi lo) * 2 ^ lo + (v % 2 ^ (hi + 1 - lo)) * 2 ^ lo

/-- The field [hi:lo] of a register word. -/
def fld (w : Word) (hi lo : Nat) : Nat := bitsOf w.toNat hi lo

/-- A register word with its field [hi:lo] replaced. -/
def setFld (w : Word) (hi lo v : Nat) : Word := BitVec.ofNat 32 (putBits w.toNat hi lo v)

/-- A one-bit field as a truth value. -/
def flag (w : Word) (i : Nat) : Bool := bitOf w.toNat i

/-- The mask of bits [hi:lo]. -/
def maskBits (hi lo : Nat) : Nat := (2 ^ (hi + 1 - lo) - 1) * 2 ^ lo

/-- 0 or 1. -/
def b2n (b : Bool) : Nat := if b then 1 else 0

/-- `n` read as a signed two's complement number of `w` bits. -/
def toSigned (w n : Nat) : Int :=
  let m := n % 2 ^ w
  if m < 2 ^ (w - 1) then (m : Int) else (m : Int) - 2 ^ w

/-- The two's complement number of `w` bits that stands for `i`. -/
def ofSigned (w : Nat) (i : Int) : Nat := (i % (2 ^ w : Int)).toNat

/-- The nearer of the two limits, or the value itself between them. -/
def clampI (lo hi x : Int) : Int := if x < lo then lo else if hi < x then hi else x

/-- A count that stops at `2^w - 1`. -/
def satN (w n : Nat) : Nat := min n (2 ^ w - 1)

end Sys2Proof
end

