-- ==== Sys2Proof/Syntax.lean ====
section
/-!
DEFINITION. The commands of the block: the operand types, and one constructor of `Instr` per row of spec/opcode_table.json.
A command that a host port makes carries the port and what it writes; a command that the outside of the part decides (a
sensor sample, a received frame, a temperature reading, an arisen bit error) carries what the outside gives it.
-/
namespace Sys2Proof

/-- The two host ports (R93). -/
inductive Port where
  | a | b
deriving DecidableEq, Repr

/-- The other port. -/
def Port.other : Port → Port
  | .a => .b
  | .b => .a

/-- 0 for port A, 1 for port B. -/
def Port.num : Port → Nat
  | .a => 0
  | .b => 1

/-- Port A for 0, port B for anything else. -/
def Port.ofNum (n : Nat) : Port := if n = 0 then .a else .b

/-- A hardware update decided in the same instant as a software write of the same page (R67 to R71). -/
inductive HwUpdate where
  /-- hardware sets the EVT bits of `mask` of the register at `off` -/
  | setEvt (off : Nat) (mask : Word)
  /-- `n` increments of the counter at `off` (of the pair, where `off` is its `_LO`) -/
  | count (off n : Nat)
  /-- hardware clears the CFGH bits of `mask` of the register at `off` -/
  | clear (off : Nat) (mask : Word)
deriving DecidableEq, Repr

/-- What has happened to the bits of one memory word since it was last written (R194 to R200), or to a transfer that link ECC
corrected (R177, `DMC_LINK_CORR`). -/
inductive Upset where
  | none | correctable | uncorrectable | link
deriving DecidableEq, Repr

/-- A register access as it reaches a host port (R75): BAR0 offset, width in bits, byte enables, a write with its data or a
read. -/
structure Access where
  offset : Nat
  width : Nat
  enables : Nat
  write : Bool
  data : Nat
deriving DecidableEq, Repr

/-- An access of a host to the configuration space of its port (R93): the fields the model keeps of it, and a read of one word
of the Type 0 header. -/
inductive CfgAccess where
  /-- memory space enable and bus master enable -/
  | command (memory busMaster : Bool)
  /-- the base of BAR0/1 (0), BAR2/3 (1) or BAR4/5 (2) -/
  | bar (n : Fin 3) (base : Nat)
  /-- MSI-X enable and function mask -/
  | msix (enable functionMask : Bool)
  /-- the power state: D3hot, or D0 -/
  | power (d3hot : Bool)
  /-- ASPM L1 -/
  | aspm (l1 : Bool)
  /-- Max Payload Size in bytes -/
  | payload (bytes : Nat)
  /-- ECRC generation and checking (AER) -/
  | ecrc (generate check : Bool)
  /-- a read of the word at an offset of the header -/
  | read (offset : Nat)
deriving DecidableEq, Repr

/-- A TLP type a host port receives that is no memory access (R93). -/
inductive TlpKind where
  | ioRead | ioWrite | lockedRead | cfgRead1 | cfgWrite1 | atomicOp | vendorType0 | vendorType1
deriving DecidableEq, Repr

/-- How the verification of one trim slot ended (R135). -/
inductive TrimOutcome where
  | valid | unreadable | signature | foreign
deriving DecidableEq, Repr

/-- What a trim slot held and how its verification ended: version, CRC-32, repairs applied and failed, and the time the
boot took, which the spec leaves to the module (R134, R160). -/
structure TrimResult where
  slot0 : TrimOutcome
  slot1 : TrimOutcome
  version : Nat
  crc : Nat
  repairs : Nat
  failed : Nat
deriving DecidableEq, Repr

/-- Which supervisor protection trips (R647). -/
inductive Protection where
  | overcurrent | overvoltage | undervoltage
deriving DecidableEq, Repr

/-- What the supervisor reports at its 1 ms measurement (R161): none where it does not answer. -/
structure SupReport where
  vinMv : Nat
  vcoreMv : Nat
  icoreCa : Nat
  moduleMw : Nat
deriving DecidableEq, Repr

/-- A semaphore signal decided in the same instant as a restore (R269): pair, side (E where true), count. -/
structure SemSignal where
  pair : Nat
  side : Bool
  k : Nat
deriving DecidableEq, Repr

/-- What the header ECC of a CSI-2 packet found (R359). -/
inductive HeaderEcc where
  | good | corrected | uncorrectable
deriving DecidableEq, Repr

/-- A received CAN frame (R383): the TB of its start-of-frame sample point (R57), and the controller's error counters as they
stand after it. -/
structure CanFrame where
  id : Nat
  ide : Bool
  fdf : Bool
  brs : Bool
  rtr : Bool
  esi : Bool
  dlc : Nat
  data : List Byte
  stamp : Nat
  tec : Nat
  recv : Nat
deriving DecidableEq, Repr

/-- What the compartment finds at power-up (R536, R538, R563, R594): the recomputed firmware CRC, the parameter copies that
changed in FRAM (offset, copy 1, value, CRC), whether the calendar's check code holds, and how many whole milliseconds of the
crystal have passed since the last second boundary. -/
structure MetPowerUp where
  fwCrc : Word
  damage : List (Nat × Bool × Nat × Nat)
  calCodeOk : Bool
  phaseMs : Fin 1000
deriving DecidableEq, Repr

/-- The error codes of the verification port (R553). -/
inductive VerError where
  | seal | range | incons | journey | full | syn | tag
deriving DecidableEq, Repr

/-- Who makes a DRAM request (R187, R188): a stream unit, or one of the sources that `MREG_SRCMAP` gives a class; a record
is a completion record, an event record or a last-resort replay. -/
inductive ReqSource where
  | stream (u : Fin 32) | hostA | hostB | vision | goshawk | fusion | fishhawk | generation | intake | dexvor | record
deriving DecidableEq, Repr

/-- A DRAM request as it is presented to the regulator: its source, its DPA and its bytes (at most 64). -/
structure PresentedReq where
  source : ReqSource
  dpa : Nat
  bytes : Nat
deriving DecidableEq, Repr

/-- The commands: one constructor per row of spec/opcode_table.json, in the table's order. -/
inductive Instr where
  | pd0PowerGood (straps : Nat)
  | trimVerifyDone (r : TrimResult)
  | pageReady (page : Nat)
  | paceWindowEnd (page handshakes : Nat)
  | tbSlew (q : Port) (value : Word)
  | slewDone
  | tbRateSetWrite (q : Port) (value : Word)
  | tbSrcChange (q : Port) (src : Fin 4)
  | tbNowLoRead (q : Port) (wide : Bool)
  | ppsEdge (rising : Bool)
  | ppsEdgeMissed
  | tbGptpKeep (q : Port)
  | gptpTimeout
  | holdBoundExceeded
  | regWrite (q : Port) (acc : Access) (hw : List HwUpdate)
  | pageLock (q : Port) (page : Nat)
  | evtTest (q : Port) (page : Nat) (bits : Word)
  | pgFaultClear (q : Port) (page : Nat) (fault : Option (Nat × Nat × Nat))
  | pageEnable (q : Port) (page : Nat) (on : Bool)
  | pageQuiesce (q : Port) (page : Nat) (on : Bool)
  | pageFence (q : Port) (page : Nat)
  | pageUnfence (q : Port) (page : Nat)
  | fenceComplete (page : Nat)
  | fenceSlow (page : Nat)
  | regTimeout (q : Port) (page off : Nat) (write : Bool)
  | eventPost
  | msixModerationTimeout (q : Port) (ring : Fin 4)
  | lreReplay
  | lreDiscard (q : Port) (n : Nat)
  | linkDown (q : Port)
  | linkUp (q : Port) (speed width : Nat) (cfg : List CfgAccess)
  | perst (q : Port) (cfg : List CfgAccess)
  | flr (q : Port) (cfg : List CfgAccess)
  | unsupportedRequest (q : Port) (kind : TlpKind)
  | apertureRead (q : Port) (offset len : Nat)
  | apertureWrite (q : Port) (offset : Nat) (data : List (Option Byte))
  | crDoorbell (q : Port) (ring : Fin 16) (tail : Nat)
  | crEnable (q : Port) (ring : Fin 16)
  | erEnable (q : Port) (ring : Fin 4)
  | crEntryTake (q : Port)
  | heldJobDeadline (page : Nat)
  | jobCompletion (page : Nat)
  | voteCast (q : Port)
  | jointTimeout
  | setOwner (q : Port)
  | domain (q : Port)
  | vcore (q : Port)
  | unlock (q : Port)
  | dmcMap (q : Port)
  | fusXform (q : Port)
  | fusMode (q : Port)
  | metJourney (q : Port)
  | consent (q : Port)
  | window (q : Port)
  | domainOnDone (d : Nat)
  | domainOffDone (d : Nat)
  | vcoreDone
  | supMeasurement (r : Option SupReport)
  | vcoreLost (critAction : Bool)
  | vcoreReturn
  | thmSample (readings : List (Option Int))
  | thmPeakClr (q : Port)
  | dmcTrainDone (ctl : Fin 12) (failStep : Nat)
  | trainTimeout (ctl : Fin 12)
  | retrain (q : Port) (ctl : Fin 12)
  | dmcEccInit (q : Port) (region : Fin 32)
  | eccInitDone
  | mr4Read (ctl : Fin 12) (aboveNominal : Bool) (code : Nat)
  | selfRefreshEntry (ctl : Fin 12)
  | requestAdmit (present : List PresentedReq) (done : List (Nat × Fin 12)) (count : Nat)
  | regulatorInterval
  | mregClassWrite (q : Port) (index : Option (Fin 8)) (value : Word)
  | mregTagminWrite (q : Port) (value : Word)
  | memRead (dpa len : Nat) (upset : Upset)
  | memWrite (dpa : Nat) (data : List Byte) (upset : Upset)
  | patrolScrub (ctl : Option (Fin 12)) (upset : Upset)
  | resInitDone (bistFail repairFail : List Nat)
  | flgSet (q : Port) (flag : Nat) (same : List (Nat × Bool))
  | flgClr (q : Port) (flag : Nat) (same : List (Nat × Bool))
  | flgRangeClr (q : Port) (first count : Nat)
  | rangeClrDone
  | flgGroupRead (q : Port) (high : Bool)
  | alloc (q : Port)
  | free (q : Port)
  | transfer (q : Port)
  | reclaim (q : Port)
  | reclaimDone
  | cancel (q : Port)
  | tentative (u : Fin 32)
  | allocGranted
  | mewsFenceWrite (q : Port) (high : Bool) (value : Word)
  | poolOn (q : Port) (n : Fin 8)
  | poolOff (q : Port) (n : Fin 8)
  | runJobStart (u : Fin 32)
  | launch (u : Fin 32)
  | seta (u : Fin 32)
  | adda (u : Fin 32)
  | setc (u : Fin 32)
  | loop (u : Fin 32)
  | xfer (u : Fin 32)
  | pref (u : Fin 32)
  | waits (u : Fin 32)
  | sigs (u : Fin 32)
  | waitf (u : Fin 32)
  | setf (u : Fin 32) (same : List (Nat × Bool))
  | clrf (u : Fin 32) (same : List (Nat × Bool))
  | swap (u : Fin 32)
  | mark (u : Fin 32)
  | markDeadlineMiss (u : Fin 32)
  | drain (u : Fin 32)
  | agEnd (u : Fin 32)
  | agPcOverrun (u : Fin 32)
  | runaheadIssue (u : Fin 32)
  | strmFence (q : Port) (u : Fin 32)
  | fenceDone (u : Fin 32)
  | semaSig (q : Port) (k : Fin 4) (value : Word)
  | semaRestore (q : Port) (k : Fin 4) (value : Word) (same : List SemSignal)
  | trigClr (q : Port) (page : Nat) (value : Word)
  | stall (page : Nat)
  | layersJobStart (c : Fin 4)
  | layerStart (c : Fin 4)
  | chainHalfArrive (c : Fin 4)
  | outputBlock (c : Fin 4)
  | layerEnd (c : Fin 4)
  | genBind
  | seq
  | draft
  | stop
  | stepPlanning
  | actionDeliver
  | kvLoad
  | kvStore
  | sampleToken
  | stepEnd
  | csiFrameStart (r : Fin 8) (vc : Fin 4) (frameNo : Nat) (corrected : Bool)
  | csiLongPacket (r : Fin 8) (vc : Fin 4) (dt : Nat) (line : List Nat) (ecc : HeaderEcc) (crcOk : Bool)
  | csiFrameEnd (r : Fin 8) (vc : Fin 4) (corrected : Bool)
  | syncLost (r : Fin 8)
  | fstLookupRead (q : Port)
  | fstCamFlush (q : Port) (cam : Fin 16)
  | fstCamEnable (q : Port) (cam : Fin 16) (value : Word)
  | intakeRingEnable (q : Port) (page : Nat) (transmit : Bool) (value : Word)
  | ethFrameReceive (m : Fin 2) (frame : List Byte) (fcsOk : Bool) (stamp : Nat)
  | lidarBlockClose (m x : Fin 2)
  | ethTxDoorbell (q : Port) (m : Fin 2) (tail : Nat)
  | ethTransmit (m : Fin 2)
  | linkChange (m : Fin 2) (up anDone : Bool)
  | canFrameReceive (c : Fin 2) (frame : CanFrame)
  | busOff (c : Fin 2) (tec recv : Nat)
  | errorPassive (c : Fin 2) (tec recv : Nat)
  | canRecover (q : Port) (c : Fin 2)
  | spiTransactionStart (c : Fin 2) (edge : Option (Fin 16 × Bool))
  | spiTransactionEnd (c : Fin 2) (rx : List Byte)
  | uartRxByte (u : Fin 2) (byte : Byte) (start : Nat) (afterIdle framing parity : Bool)
  | uartIdleTimeout (u : Fin 2)
  | uartTx (q : Port) (u : Fin 2) (byte : Byte)
  | gpioEdge (pin : Fin 16) (rising : Bool)
  | visionFrameStart (e : Fin 5)
  | tileDone (e : Fin 5)
  | setup
  | fusFrame
  | grid
  | solve
  | load
  | gshFree
  | gshExport
  | fshBind
  | search
  | append
  | delete
  | merge
  | epochSwitch
  | epochRetired
  | metPowerUp (r : MetPowerUp)
  | metVinLoss
  | metCycle (vbatMv : Nat) (framFail : Bool)
  | sealChange (toOpen : Bool)
  | statusBlockSend
  | startJourney
  | stopJourney
  | readRecord
  | readAudit
  | readIdentity
  | tbSync
  | mailboxFrameReject (arrived : Option (List Byte))
  | tbSyncSend
  | mbrBlockReceive (arrived : Option (List Byte))
  | tileAbsent
  | absentSample
  | mbrReadRecord (q : Port)
  | mbrReadAudit (q : Port)
  | mbrReadIdentity (q : Port)
  | verId (crc : Word)
  | verStat
  | verRd (offset : Nat)
  | verWr (offset value : Nat)
  | verAud (n : Nat)
  | verJrn (n : Nat)
  | verGap (n : Nat)
  | verify (record : List Byte)
  | calStage (text : List Byte)
  | calCommit
  | calRead
  | calSecondBoundary
  | fastSample (b0 b1 b2 b3 : BitVec 16)
  | fastSampleRelease
  | fineSample
  | fineSampleRelease
  | plkEnable (q : Port)
  | plkTrainingDone (peerId : Byte) (reversed : Bool)
  | trainSlow
  | send (c : Fin 4)
  | dataFrameSend
  | dataFrameReceive (frame : List Byte)
  | ack (seq : Nat) (crcOk : Bool)
  | nak (seq : Nat) (crcOk : Bool)
  | credit (credits : Fin 65) (crcOk : Bool)
  | delivered (msg : Nat) (crcOk : Bool)
  | refuse (msg reason : Nat) (crcOk : Bool)
  | abandon (msg : Nat) (crcOk : Bool)
  | down (crcOk : Bool)
  | retxTimeout
  | laneLockLoss (lane : Fin 4)
  | controlBlockTimeout
  | plkRxDoorbell (q : Port) (c : Fin 4) (tail : Nat)
  | fmClr (q : Port) (page : Nat)
  | fmFence (q : Port) (page : Nat)
  | modEnRise (flProgLow : Bool) (vinMv : Nat)
  | modulePowerDown
  | flashProgMode (vinMv : Nat)
  | supProtection (p : Protection)
  | supCritEval (writes : List (Nat × Nat))
  | supRestore (value : Nat)
  | busRecoveryComplete (c : Fin 2)
  | uartTxByteSent (u : Fin 2)
  | vbatBrownOut
  | msixTableWrite (q : Port) (offset : Nat) (value : Option Word)
  | supCauseClear (bits : Nat)
  | jtagBoundaryScan (tms tdi trst : Bool)
  | verLineInvalid (line : List Byte)
  | runJobDeadline (u : Fin 32)
  | mergeDeadline
deriving DecidableEq, Repr

end Sys2Proof
end

