-- ==== Sys2Proof/Decode.lean ====
section
/-!
DEFINITION. The decoding of a word of the command table. spec/opcode_table.json gives no bits to any of its rows: the commands
of this block are register accesses, events of its interfaces and steps of its engines, and no word spells one. What a register
write spells is read by Machine/RegWrite.lean.
-/
namespace Sys2Proof

/-- The command a word of `nbits` bits spells: none, for no row of the table has bits. -/
def decodeTableWord (_nbits _w : Nat) : Option Instr := none

end Sys2Proof
end

