-- ==== Sys2Proof/Config.lean ====
section
/-!
DEFINITION. What an implementation fixes and the spec leaves open: free values without a body, which nothing in the model
can evaluate. A value that is fresh at each use is applied to the counter `State.freeCtr`.
-/
namespace Sys2Proof.Config

/-- The Vendor ID register of the ports and their revision ID, which R93 names without a value. -/
opaque vendorId : BitVec 16
opaque revisionId : BitVec 8

/-- What a byte of DRAM holds where the spec leaves it undefined: after a map change (R169), an abandoned ECC
initialisation (R175), and after PD2 was off; by the counter and the address. -/
opaque freeByte : Nat → Nat → Byte

/-- Whether such a word reads good (0), with a correctable error (1), an uncorrectable one (2) or as the poison code (3). -/
opaque freeMark : Nat → Nat → Nat

/-- One less than the probe handshakes of a page in one window at P = 1.00 (N1 of R37): a constant of each block, measured at
manufacture and held in the trim image. -/
opaque paceNorm : Nat → Nat

/-- A result that the spec states no value for (a flow beyond INT16, a reserved result), fresh at each use. -/
opaque freeNat : Nat → Nat

/-- Which of the FP32 values within 2 units in the last place of the exact function a result of ACTFN 3 to 6 is (R318), the same on
every part; and the result itself where the spec states none. -/
opaque gelu : Nat → Nat
opaque silu : Nat → Nat
opaque sigmoid : Nat → Nat
opaque tanh : Nat → Nat

/-- The same for sin and cos (R324, R439, R472) and atan2 (R439, R472). -/
opaque sin : Nat → Nat
opaque cos : Nat → Nat
opaque atan2 : Nat → Nat → Nat

/-- The sampler's E(z) (R349) where z is a NaN: the spec defines E for z ≤ 0 only. -/
opaque sampleE : Nat → Nat

/-- The same for the square root where the spec asks for 2 units in the last place only (R439, R472). -/
opaque sqrt : Nat → Nat

/-- wrap(a) of R439 for an angle so large that taking 2π away leaves it as it is: the spec's loop gives no value. -/
opaque wrapOpen : Nat → Nat

/-- T_OLDEST (0) and T_NEWEST (1) of an ego record written with no valid source group (R455): by the job's descriptor and the
frame number, so that the record stays a function of the job's inputs and the workspace. -/
opaque egoTime : List Byte → Nat → Nat → Nat

/-- The compartment's serial number and its 256-bit key (R550), and its hardware issue (R553): each compartment's own, made
at manufacture. -/
opaque metSerial : BitVec 64
opaque metKey : BitVec 256
opaque metIssue : Nat

/-- The JTAG port beyond R638: the instruction register's captured bits above the two of the standard, the codes of IDCODE (0),
SAMPLE/PRELOAD (1) and EXTEST (2), the number of boundary cells, and what each cell sees of its pin at a capture. -/
opaque jtagIrRest : List Bool
opaque jtagCode : Nat → List Bool
opaque jtagCells : Nat
opaque jtagPin : Nat → Nat → Bool

end Sys2Proof.Config
end

