-- ==== Sys2Proof/Machine/RegTable.lean ====
section
/-!
DEFINITION. The register-page map (R58, R60, R666), the layout of every page by its type (R2, the field tables of the
chapters, the offsets of 23_page_index.md), the seven field types (R67) and every register's reset value.
-/
namespace Sys2Proof.Machine

/-- The block types of the page map (R666). -/
inductive PageKind where
  | mgt | tb | fm | lre | hp | jnt | pwr | thm | dmc | mreg | res | flg | mews | strm | sema | tc | gen
  | wrp | pyr | hwk | owl | kes | gsh | fus | fsh | csi | eth | can | spi | uart | gpio | fst | mbr | plk
deriving DecidableEq, Repr

/-- One row of the page map: the first page of a block type, how many instances, its power domain. -/
structure PageRow where
  first : Nat
  count : Nat
  kind : PageKind
  domain : Nat
deriving DecidableEq, Repr

/-- The page map of R666. -/
def pageMap : List PageRow :=
  [⟨0x000, 1, .mgt, 0⟩, ⟨0x001, 1, .tb, 0⟩, ⟨0x002, 1, .fm, 0⟩, ⟨0x003, 1, .lre, 0⟩, ⟨0x004, 2, .hp, 1⟩,
   ⟨0x006, 1, .jnt, 0⟩, ⟨0x008, 1, .pwr, 0⟩, ⟨0x009, 1, .thm, 0⟩, ⟨0x010, 12, .dmc, 2⟩, ⟨0x01C, 1, .mreg, 2⟩,
   ⟨0x01D, 1, .res, 2⟩, ⟨0x01E, 1, .flg, 2⟩, ⟨0x020, 1, .mews, 2⟩, ⟨0x040, 32, .strm, 2⟩, ⟨0x060, 4, .sema, 2⟩] ++
  [⟨0x080, 2, .tc, 3⟩, ⟨0x082, 2, .tc, 4⟩, ⟨0x084, 1, .gen, 4⟩, ⟨0x090, 1, .wrp, 5⟩, ⟨0x091, 1, .pyr, 5⟩,
   ⟨0x092, 1, .hwk, 5⟩, ⟨0x093, 1, .owl, 5⟩, ⟨0x094, 1, .kes, 5⟩, ⟨0x0A0, 1, .gsh, 6⟩, ⟨0x0B0, 1, .fus, 6⟩,
   ⟨0x0C0, 1, .fsh, 7⟩, ⟨0x0D0, 8, .csi, 8⟩, ⟨0x0D8, 2, .eth, 8⟩, ⟨0x0DA, 2, .can, 8⟩, ⟨0x0DC, 2, .spi, 8⟩,
   ⟨0x0DE, 2, .uart, 8⟩, ⟨0x0E0, 1, .gpio, 8⟩, ⟨0x0E1, 1, .fst, 8⟩, ⟨0x0F0, 1, .mbr, 8⟩, ⟨0x0F8, 1, .plk, 1⟩]

/-- The row of the page map that a page number lies in; none for an unassigned page (R60). -/
def pageRow (p : Nat) : Option PageRow := pageMap.find? (fun r => decide (r.first ≤ p) && decide (p < r.first + r.count))

/-- The block type of a page. -/
def kindOf (p : Nat) : Option PageKind := (pageRow p).map (·.kind)

/-- Page Index assigns a block to the page (R60, R666). -/
def assigned (p : Nat) : Bool := (pageRow p).isSome

/-- The power domain of a page; 0 (PD0) where the page is unassigned. -/
def domainOf (p : Nat) : Nat := match pageRow p with | some r => r.domain | none => 0

/-- Page number of instance 0 of the page's block type (`PG_ID.TYPE`; TC2 and TC3 are instances of the type at 0x080). -/
def typePage (p : Nat) : Nat :=
  match pageRow p with
  | some r => if r.kind = .tc then 0x080 else r.first
  | none => p

/-- Every assigned page, ascending. -/
def allPages : List Nat := pageMap.flatMap (fun r => (List.range r.count).map (r.first + ·))

/-- The seven field types of R67. -/
inductive FType where
  | cfg | cfgh | sts | evt | cnt | cmd | lck
deriving DecidableEq, Repr

/-- One field of a register: bits [hi:lo] and its type. Bits in no field are reserved (R7). -/
structure Field where
  hi : Nat
  lo : Nat
  type : FType
deriving DecidableEq, Repr

/-- One register, or `n` registers `stride` bytes apart with one layout. -/
structure RegSpec where
  off : Nat
  n : Nat
  stride : Nat
  reset : Nat
  fields : List Field
deriving DecidableEq, Repr

def cfg (hi lo : Nat) : Field := ⟨hi, lo, .cfg⟩
def cfgh (hi lo : Nat) : Field := ⟨hi, lo, .cfgh⟩
def sts (hi lo : Nat) : Field := ⟨hi, lo, .sts⟩
def evt (hi lo : Nat) : Field := ⟨hi, lo, .evt⟩
def cnt (hi lo : Nat) : Field := ⟨hi, lo, .cnt⟩
def cmd (hi lo : Nat) : Field := ⟨hi, lo, .cmd⟩
def lck (hi lo : Nat) : Field := ⟨hi, lo, .lck⟩

/-- A single register. -/
def reg (off reset : Nat) (fs : List Field) : RegSpec := ⟨off, 1, 4, reset, fs⟩
/-- `n` registers from `off`, `stride` apart. -/
def regs (off n stride reset : Nat) (fs : List Field) : RegSpec := ⟨off, n, stride, reset, fs⟩

/-- Pages whose `PG_CNT_JOBS` and `PG_CNT_ERR` read 0 whatever is written (R201, R221, R287, R355, R556). -/
def noJobCounts (k : PageKind) : Bool :=
  decide (k ∈ [.dmc, .mreg, .res, .flg, .mews, .sema]) || decide (k ∈ [.csi, .eth, .can, .spi, .uart, .gpio, .fst, .mbr])

/-- The two job counters of the header: counters, or words that read 0. -/
def jobCount (k : PageKind) : Field := if noJobCounts k then sts 31 0 else cnt 31 0

/-- The common header of every assigned page (R59 to R66, R37 for `PG_PACE`). -/
def headerRegs (k : PageKind) : List RegSpec :=
  [reg 0x000 0 [sts 11 0, sts 19 12, sts 24 20], reg 0x004 0 [sts 7 0, sts 15 8, sts 19 16],
   reg 0x008 0 [sts 0 0, sts 1 1, sts 2 2, sts 3 3, sts 4 4],
   reg 0x00C 0 [cfgh 0 0, cfg 1 1, cfg 2 2],
   reg 0x010 0 [sts 0 0, sts 1 1, sts 2 2, sts 15 8, sts 31 16],
   reg 0x014 0 [evt 12 0, evt 31 16], reg 0x018 0xFFFF1FFE [cfg 12 0, cfg 31 16], reg 0x01C 0 [cmd 12 0, cmd 31 16],
   reg 0x020 0 [sts 11 0, sts 15 12, evt 16 16, evt 17 17], reg 0x024 0 [sts 31 0],
   reg 0x028 0 [sts 0 0, sts 31 16], reg 0x02C 0 [sts 19 0, sts 20 20, sts 27 24],
   reg 0x030 0 [jobCount k], reg 0x034 0 [jobCount k], reg 0x038 0x32 [lck 9 0], reg 0x03C 0 [lck 0 0]]

/-- MGT (R160). The fuse, ROM and pin values are read from `State.fuses` and the straps. -/
def mgtRegs : List RegSpec :=
  [reg 0x080 0 [sts 3 0, sts 15 8], reg 0x084 0 [sts 2 0, sts 5 4, sts 15 8, sts 31 16], reg 0x088 0 [sts 31 0],
   reg 0x08C 0 [sts 15 0], reg 0x090 0 [sts 31 0], reg 0x094 0 [sts 15 0, sts 31 16]]

/-- TB (R43 to R56). -/
def tbRegs : List RegSpec :=
  [regs 0x080 2 4 0 [sts 31 0], reg 0x088 0x07D00420 [cfg 1 0, cfg 2 2, cfg 7 4, cfg 11 8, cfg 27 16],
   reg 0x08C 0 [sts 0 0, sts 1 1, sts 2 2, sts 3 3, sts 5 4], reg 0x090 0 [cfg 31 0], reg 0x094 0 [sts 31 0],
   reg 0x098 0 [cmd 31 0], reg 0x09C 0 [sts 31 0], reg 0x0A0 0x32 [cfg 9 0], regs 0x0A4 2 4 0 [sts 31 0],
   reg 0x0AC 0 [sts 31 0], regs 0x0B0 2 4 0 [cnt 31 0], regs 0x0B8 2 4 0 [sts 31 0], reg 0x0C0 0 [sts 31 0],
   reg 0x0C4 0x2710 [cfg 31 0], reg 0x0C8 0 [cmd 0 0]]

/-- FM (R622). -/
def fmRegs : List RegSpec :=
  [reg 0x080 0 [sts 3 0, sts 4 4, sts 5 5, sts 23 16], regs 0x0A0 8 4 0 [sts 31 0], regs 0x0C0 8 4 0 [sts 31 0],
   reg 0x0E0 0 [cmd 11 0], reg 0x0E4 0 [cmd 11 0], regs 0x400 256 4 0 [sts 11 0, sts 15 12, sts 16 16, sts 17 17,
     sts 22 18, sts 23 23, sts 24 24]]

/-- LRE (R623 to R626). -/
def lreRegs : List RegSpec :=
  [reg 0x080 0 [sts 6 0, sts 13 8, sts 16 16], reg 0x084 0 [cnt 31 0], reg 0x088 0 [cmd 6 0], reg 0x08C 0 [cnt 31 0],
   regs 0x400 256 4 0 [sts 31 0], regs 0x800 64 4 0 [sts 1 0]]

/-- HPA and HPB (chapter 4, HPA and HPB). -/
def hpRegs : List RegSpec :=
  [reg 0x080 0 [sts 0 0, sts 3 1, sts 7 4], reg 0x084 0 [sts 31 0], reg 0x088 0 [cfg 31 16], reg 0x08C 0 [cfg 7 0],
   reg 0x090 0 [cfg 11 0], regs 0x094 4 4 0 [cfg 11 0, cfg 13 12, cfg 15 15], reg 0x0A4 0 [cnt 31 0],
   regs 0x100 16 0x20 0 [cfg 31 6], regs 0x104 16 0x20 0 [cfg 7 0], regs 0x108 16 0x20 4 [cfg 3 0, cfg 19 8, cfgh 31 31],
   regs 0x10C 16 0x20 0 [sts 11 0], regs 0x110 16 0x20 0 [cmd 11 0],
   regs 0x114 16 0x20 2 [sts 0 0, sts 1 1, sts 15 8, sts 27 16], regs 0x118 16 0x20 0 [cnt 31 0],
   regs 0x300 4 0x20 0 [cfg 31 4], regs 0x304 4 0x20 0 [cfg 7 0],
   regs 0x308 4 0x20 0x00010006 [cfg 4 0, cfg 13 8, cfg 23 16, cfgh 31 31], regs 0x30C 4 0x20 0 [cfg 15 0],
   regs 0x310 4 0x20 0 [sts 15 0], regs 0x314 4 0x20 0 [cnt 31 0], regs 0x318 4 0x20 0 [cfg 15 0],
   regs 0x31C 4 0x20 0 [cnt 31 0]]

/-- JNT (chapter 4, JNT). -/
def jntRegs : List RegSpec :=
  [regs 0x080 2 0x10 0 [cfg 7 0], regs 0x084 2 0x10 0 [cfg 31 0], regs 0x088 2 0x10 0 [cfg 31 0],
   regs 0x08C 2 0x10 0 [cmd 0 0], reg 0x0A0 0 [sts 0 0, sts 1 1, sts 31 16], reg 0x0A4 0x32 [sts 9 0],
   regs 0x0A8 2 4 0 [sts 31 0], reg 0x0B0 0 [sts 7 0, sts 11 8, sts 23 16], regs 0x0B4 4 4 0 [cnt 31 0],
   regs 0x0D0 2 4 0 [sts 15 0, sts 16 16], regs 0x0E0 2 0x10 0 [sts 7 0, sts 8 8], regs 0x0E4 2 0x10 0 [sts 31 0],
   regs 0x0E8 2 0x10 0 [sts 31 0]]

/-- PWR (R161). -/
def pwrRegs : List RegSpec :=
  [reg 0x080 1 [sts 8 0, sts 24 16], reg 0x084 0x320 [sts 9 0], reg 0x088 0 [sts 9 0, sts 16 16],
   reg 0x08C 0 [sts 0 0, sts 1 1, sts 2 2, sts 3 3], reg 0x090 0 [sts 15 0], reg 0x094 0 [sts 15 0],
   reg 0x098 0 [sts 7 0, sts 8 8, sts 11 9, sts 19 12], reg 0x09C 0 [cnt 31 0]]

/-- THM (R162). -/
def thmRegs : List RegSpec :=
  [regs 0x080 8 4 0x80008000 [sts 15 0, sts 31 16], reg 0x0A0 0x8000 [sts 15 0, sts 19 16, sts 20 20],
   reg 0x0A4 0x26E [lck 7 0, lck 11 8], reg 0x0A8 0 [sts 0 0, sts 1 1], reg 0x0AC 0 [sts 15 0],
   reg 0x0B0 0x8000 [sts 15 0], reg 0x0B4 0 [cmd 0 0], reg 0x0B8 0 [cnt 31 0]]

/-- DMC0 to DMC11; the registers from 0x100 exist on DMC0 only (chapter 6). -/
def dmcRegs : List RegSpec :=
  [reg 0x080 0 [sts 1 0, sts 2 2, sts 3 3, sts 4 4, sts 15 8], reg 0x084 0 [cmd 0 0, cfg 31 16],
   regs 0x088 4 4 0 [cnt 31 0], reg 0x098 0 [sts 30 0, sts 31 31], reg 0x09C 0 [sts 9 0], regs 0x0A0 2 4 0 [cnt 31 0],
   reg 0x0A8 0 [cfg 15 0]]

def dmc0Regs : List RegSpec :=
  [reg 0x100 0xFF [sts 3 0, sts 7 4, sts 8 8], reg 0x104 0 [cfg 31 0], reg 0x108 0 [sts 31 0], reg 0x10C 0 [cmd 4 0],
   reg 0x110 0 [sts 0 0, sts 12 8, sts 31 16]]

/-- MREG (chapter 6). -/
def mregRegs : List RegSpec :=
  [reg 0x080 0x1000 [lck 12 0], regs 0x084 8 4 0 [lck 12 0, lck 28 16],
   reg 0x0A4 0 [lck 3 0, lck 7 4, lck 11 8, lck 15 12, lck 19 16, lck 23 20, lck 27 24, lck 31 28],
   reg 0x0A8 0x36DB6DB [lck 2 0, lck 5 3, lck 8 6, lck 11 9, lck 14 12, lck 17 15, lck 20 18, lck 23 21, lck 26 24],
   reg 0x0AC 0 [sts 12 0], reg 0x0B0 0 [sts 7 0, sts 15 8], regs 0x0C0 8 4 0 [cnt 31 0]]

/-- RES (chapter 6). -/
def resRegs : List RegSpec :=
  [reg 0x080 0 [sts 0 0, sts 1 1], reg 0x084 0 [sts 31 0], reg 0x088 0 [sts 15 0], regs 0x08C 3 4 0 [cnt 31 0],
   reg 0x098 0 [sts 23 0, sts 31 31], reg 0x09C 0 [cfg 15 0]]

/-- FLG (R206). -/
def flgRegs : List RegSpec :=
  [reg 0x080 0 [cmd 18 0], reg 0x084 0 [cmd 18 0], reg 0x088 0 [cfg 12 0, sts 31 31], regs 0x08C 2 4 0 [sts 31 0],
   reg 0x094 0 [cmd 12 0, cmd 29 16], reg 0x098 0 [sts 15 0], reg 0x09C 0 [cnt 31 0]]

/-- MEWS (chapter 7). -/
def mewsRegs : List RegSpec :=
  [reg 0x080 0 [cfg 31 0], reg 0x084 0 [cfg 5 0, cfg 8 8, cfg 9 9, cfg 10 10], reg 0x088 0 [cmd 2 0],
   reg 0x08C 0 [sts 3 0, sts 6 4, sts 15 8], reg 0x090 0 [sts 31 0], regs 0x0A0 2 4 0 [cfg 31 0],
   reg 0x0A8 0 [sts 0 0, sts 13 8], reg 0x0AC 0 [sts 19 0], reg 0x0B0 0 [cfg 31 0],
   reg 0x0B4 0 [sts 5 0, sts 8 8, sts 9 9, sts 10 10, sts 28 16],
   regs 0x100 8 0x20 0 [cfg 31 16], regs 0x104 8 0x20 0 [cfg 7 0], regs 0x108 8 0x20 0x200000 [cfg 16 0, cfg 23 20],
   regs 0x10C 8 0x20 0 [cmd 0 0, cmd 1 1], regs 0x110 8 0x20 0 [sts 16 0, sts 31 31],
   regs 0x114 8 0x20 0 [sts 15 0, sts 31 16], regs 0x118 8 0x20 0 [sts 16 0], regs 0x11C 8 0x20 0 [cnt 31 0],
   regs 0x200 64 4 0 [sts 16 0]]

/-- STRM0 to STRM31 (R262). -/
def strmRegs : List RegSpec :=
  [reg 0x080 0 [sts 3 0, sts 14 8, sts 16 16, sts 23 20, sts 31 24], reg 0x084 0 [cfg 2 0, cfg 18 8],
   reg 0x088 0 [cfg 11 0, cfg 15 12, cfg 16 16], reg 0x08C 0 [cfg 31 0], regs 0x090 2 4 0 [sts 31 0],
   reg 0x098 0 [cmd 0 0], reg 0x09C 0 [sts 15 0], reg 0x0A0 0 [cnt 31 0], regs 0x0A4 2 4 0 [cnt 31 0],
   regs 0x0C0 8 8 0 [sts 31 0], regs 0x0C4 8 8 0 [sts 7 0], regs 0x100 8 4 0 [sts 23 0], regs 0x200 64 4 0 [sts 31 0],
   regs 0x400 256 4 0 [sts 31 0]]

/-- SEMA0 to SEMA3 (chapter 9). -/
def semaRegs : List RegSpec :=
  [reg 0x080 0 [cmd 5 0, cmd 8 8], reg 0x084 0 [cmd 5 0, cmd 8 8, cmd 15 12], regs 0x088 2 4 0 [evt 31 0],
   reg 0x090 0 [cnt 31 0], regs 0x0A0 8 4 0 [sts 15 0, evt 19 16], reg 0x0C0 0 [cmd 2 0, cmd 5 4],
   regs 0x100 64 8 0 [cfg 7 0, cfg 15 8], regs 0x104 64 8 0 [sts 7 0, sts 15 8, sts 23 16, sts 31 24]]

/-- TC0 to TC3 (R328). -/
def tcRegs : List RegSpec :=
  [reg 0x080 0 [sts 3 0, sts 15 4, sts 31 16], reg 0x084 0 [sts 1 0, sts 3 2, sts 4 4],
   reg 0x088 0 [sts 1 0, sts 3 2, sts 5 4, sts 7 6], reg 0x08C 0 [sts 15 0, evt 19 16], reg 0x090 0 [cmd 1 0],
   regs 0x094 3 4 0 [cnt 31 0], regs 0x0A0 3 4 0 [cnt 31 0]]

/-- GEN (chapter 11). -/
def genRegs : List RegSpec :=
  [reg 0x080 0 [sts 3 0, sts 8 8, sts 31 16], reg 0x084 0x01000200 [cfg 9 0, cfg 25 16], reg 0x088 0 [sts 31 0],
   regs 0x08C 4 4 0 [cnt 31 0], reg 0x09C 0 [sts 9 0, sts 14 10, sts 31 15],
   regs 0x100 16 0x10 0 [sts 1 0, sts 2 2, sts 13 8, sts 31 16], regs 0x104 16 0x10 0 [cnt 31 0],
   regs 0x108 16 0x10 0 [sts 20 0], regs 0x10C 16 0x10 0 [sts 3 0]]

/-- The registers every vision page has (R425). -/
def visRegs : List RegSpec :=
  [reg 0x080 0 [sts 3 0, sts 31 16], reg 0x084 0 [sts 15 0, evt 19 16], reg 0x088 0 [cmd 1 0], reg 0x08C 0 [cnt 31 0],
   reg 0x090 0 [sts 15 0, sts 19 16, sts 20 20], reg 0x094 0 [cnt 31 0]]

def wrpRegs : List RegSpec := [reg 0x0A0 0 [sts 31 0]]
def hwkRegs : List RegSpec :=
  [reg 0x0A0 0x00080914 [cfg 7 0, cfg 11 8, cfg 21 16], reg 0x0A4 0x00084018 [cfg 6 0, cfg 15 8, cfg 23 16],
   reg 0x0A8 0x1000 [cfg 12 0], reg 0x0AC 0 [cnt 31 0], regs 0x400 256 4 0 [cfg 4 0, cfg 9 5, cfg 14 10, cfg 19 15]]
def owlRegs : List RegSpec := [reg 0x0A0 0x3E8 [cfg 31 0], reg 0x0A4 0 [sts 31 0], reg 0x0A8 0 [sts 31 0]]

/-- GSH (R490). -/
def gshRegs : List RegSpec :=
  [reg 0x080 0 [sts 3 0, sts 15 8, sts 17 16], reg 0x084 0 [sts 15 0, evt 19 16], reg 0x088 0 [cmd 1 0],
   regs 0x08C 5 4 0 [cnt 31 0], regs 0x0C0 4 8 0 [sts 0 0, sts 2 1, sts 14 8, sts 23 16], regs 0x0C4 4 8 0 [sts 31 0]]

/-- FUS (R460). -/
def fusRegs : List RegSpec :=
  [reg 0x080 0 [sts 3 0, sts 8 8], reg 0x084 0xC81E01 [sts 23 0], reg 0x088 0 [sts 15 0, evt 19 16],
   reg 0x08C 0 [cmd 1 0],
   reg 0x090 0 [sts 9 0, sts 25 16], reg 0x094 0 [sts 31 0], reg 0x098 0 [sts 15 0],
   reg 0x0A0 0x553 [lck 3 0, lck 7 4, lck 15 8], reg 0x0A4 0x41135C29 [lck 31 0], reg 0x0A8 0x41C80000 [lck 31 0],
   reg 0x0AC 0x3F800000 [lck 31 0], reg 0x0B0 0x41800000 [lck 31 0], reg 0x0B4 0x3E800000 [lck 31 0],
   reg 0x0C0 0x1E [lck 11 0], reg 0x0C4 0x3E99999A [lck 31 0], reg 0x0C8 0x00C80008 [lck 3 0, lck 27 16]] ++
  [reg 0x0CC 0x3F000000 [lck 31 0], reg 0x0D0 0x3F800000 [lck 31 0], reg 0x0D4 0x3E99999A [lck 31 0],
   reg 0x0D8 0x40200000 [lck 31 0], reg 0x0DC 0 [lck 5 0, lck 13 8, lck 21 16, lck 29 24],
   reg 0x0E0 0xA5 [lck 3 0, lck 7 4], reg 0x0E4 0x3FCCCCCD [lck 31 0], reg 0x0F0 0 [cfg 5 0], reg 0x0F4 0 [cnt 31 0],
   regs 0x100 24 4 0 [sts 31 0], regs 0x180 6 4 0 [cnt 31 0]]

/-- FSH (R519). -/
def fshRegs : List RegSpec :=
  [reg 0x080 0 [sts 3 0, sts 7 4, sts 8 8], regs 0x084 2 4 0 [sts 31 0], regs 0x08C 2 4 0 [sts 20 0],
   reg 0x094 0 [sts 15 0, sts 16 16], reg 0x098 0 [sts 31 0], reg 0x09C 0 [sts 7 0], reg 0x0A0 0 [sts 31 0],
   reg 0x0A4 0 [sts 0 0], reg 0x0A8 0xC0000 [cfg 20 0], reg 0x0AC 0 [sts 15 0, evt 19 16], reg 0x0B0 0 [cmd 1 0],
   reg 0x0B4 0 [cnt 31 0], regs 0x0B8 2 4 0 [cnt 31 0], reg 0x0C0 0 [cnt 31 0]]

/-- The intake ring registers of the ETH, CAN, SPI and UART pages (R357). -/
def rxRegs : List RegSpec :=
  [reg 0x080 0 [cfg 31 6], reg 0x084 0 [cfg 7 0], reg 0x088 6 [cfg 4 0, cfgh 31 31], reg 0x08C 0 [cfg 15 0],
   reg 0x090 0 [sts 15 0], regs 0x094 2 4 0 [cnt 31 0]]

def csiRegs : List RegSpec :=
  [reg 0x080 4 [cfg 2 0], reg 0x084 0 [sts 0 0, sts 4 1, sts 8 8], regs 0x088 4 4 0 [cnt 31 0],
   regs 0x0A0 8 4 0 [sts 31 0]]

def ethRegs : List RegSpec :=
  [reg 0x0A0 0 [cfg 1 0, cfg 4 4, cfg 5 5], reg 0x0A4 0 [sts 0 0, sts 1 1], reg 0x0A8 0 [cfg 31 0],
   reg 0x0AC 0 [cfg 15 0], reg 0x0C0 0 [cfg 31 11], reg 0x0C4 0 [cfg 7 0], reg 0x0C8 4 [cfg 3 0, cfgh 31 31],
   reg 0x0CC 0 [sts 9 0], reg 0x0D0 0 [cmd 9 0], regs 0x0E0 2 4 0 [cnt 31 0],
   regs 0x100 2 0x40 0 [cfg 15 0, cfg 21 16, cfg 31 31], regs 0x104 2 0x40 0 [cfg 31 0],
   regs 0x108 2 0x40 0 [cfg 10 0, cfg 18 11, cfg 31 20],
   regs 0x10C 4 4 0 [cfg 7 0, cfg 9 8, cfg 10 10, cfg 11 11, cfg 15 15],
   regs 0x14C 4 4 0 [cfg 7 0, cfg 9 8, cfg 10 10, cfg 11 11, cfg 15 15], regs 0x11C 4 4 0 [cfg 31 0],
   regs 0x15C 4 4 0 [cfg 31 0], regs 0x12C 2 0x40 0x06400100 [cfg 17 0, cfg 29 20], regs 0x130 2 0x40 0 [cfg 15 0],
   regs 0x134 2 0x40 0 [cnt 31 0], regs 0x138 2 0x40 0 [cnt 31 0], regs 0x13C 2 0x40 0 [cnt 31 0]]

def canRegs : List RegSpec :=
  [reg 0x0A0 0 [cfg 1 0], reg 0x0A4 0 [cfg 7 0, cfg 15 8, cfg 22 16, cfg 30 24],
   reg 0x0A8 0 [cfg 4 0, cfg 12 8, cfg 19 16, cfg 27 24, cfg 31 31], reg 0x0AC 0 [sts 1 0, sts 15 8, sts 23 16],
   reg 0x0B0 0 [cmd 0 0], regs 0x100 16 8 0 [cfg 28 0, cfg 29 29, cfg 31 31], regs 0x104 16 8 0 [cfg 28 0]]

def spiRegs : List RegSpec :=
  [reg 0x0A0 0x00010004 [cfg 7 0, cfg 9 8, cfg 10 10, cfg 22 16], reg 0x0A4 0 [cfg 1 0, cfg 7 4, cfg 9 8],
   reg 0x0A8 0x3E8 [cfg 19 0], reg 0x0AC 0 [cnt 31 0], regs 0x100 16 4 0 [cfg 31 0]]

def uartRegs : List RegSpec :=
  [reg 0x0A0 0x2580 [cfg 21 0, cfg 23 22, cfg 24 24, cfg 25 25], reg 0x0A4 0 [cmd 7 0], reg 0x0A8 0 [sts 6 0],
   reg 0x0AC 0 [cnt 31 0]]

def gpioRegs : List RegSpec :=
  [reg 0x080 0 [cfg 15 0], reg 0x084 0 [cfg 15 0], reg 0x088 0 [sts 15 0, sts 16 16], reg 0x08C 0 [cfg 31 0],
   reg 0x090 0 [evt 15 0], reg 0x094 0 [cnt 31 0], regs 0x100 32 4 0 [sts 31 0]]

def fstRegs : List RegSpec :=
  [reg 0x080 0 [cfg 3 0, cfg 31 16], reg 0x084 0 [sts 0 0, sts 3 1, sts 6 4],
   regs 0x100 16 0x40 0 [cfg 2 0, cfg 5 4, cfg 13 8, cfgh 31 31], regs 0x104 16 0x40 0 [cfg 12 0, cfg 28 16],
   regs 0x108 16 0x40 0 [cfg 31 12], regs 0x10C 16 0x40 0 [cfg 7 0], regs 0x110 16 0x40 0 [cfg 23 0],
   regs 0x114 16 0x40 0 [cfg 15 0], regs 0x118 16 0x40 0 [cfg 15 0], regs 0x11C 16 0x40 0xFFFF [sts 15 0, sts 16 16],
   regs 0x120 16 0x40 0 [sts 7 0, sts 15 8, sts 23 16], regs 0x124 16 0x40 0 [cnt 31 0],
   regs 0x128 16 0x40 0 [cnt 31 0], regs 0x12C 16 0x40 0 [cmd 0 0]]

/-- MBR (R556). -/
def mbrRegs : List RegSpec :=
  [reg 0x080 2 [sts 0 0, sts 1 1, sts 2 2, sts 3 3, sts 4 4, sts 15 8], reg 0x084 1 [cfg 0 0], reg 0x088 0 [cfg 31 5],
   reg 0x08C 0 [cfg 7 0], reg 0x090 0x0A [cfg 4 0, cfgh 31 31], reg 0x094 0 [cfg 15 0], reg 0x098 0 [sts 15 0],
   reg 0x09C 0 [cnt 31 0], reg 0x0A0 0 [cmd 3 0], regs 0x0A4 2 4 0 [cfg 31 0], reg 0x0AC 0 [cfg 31 7],
   reg 0x0B0 0 [cfg 7 0], reg 0x0B4 0 [sts 0 0, sts 15 8, sts 23 16], regs 0x0B8 3 4 0 [cnt 31 0]]

/-- PLK (R616). -/
def plkRegs : List RegSpec :=
  [reg 0x080 0 [sts 0 0, sts 4 1, sts 5 5, sts 6 6, sts 15 8], reg 0x084 0 [lck 7 0], reg 0x088 0 [sts 6 0],
   regs 0x08C 4 4 0 [cnt 31 0], regs 0x100 4 0x20 0 [cfg 31 5], regs 0x104 4 0x20 0 [cfg 7 0],
   regs 0x108 4 0x20 4 [cfg 3 0, cfgh 31 31], regs 0x10C 4 0x20 0 [sts 9 0], regs 0x110 4 0x20 0 [cmd 9 0],
   regs 0x114 4 0x20 0 [cnt 31 0]]

/-- The block-specific registers of a page. -/
def blockRegs (k : PageKind) (p : Nat) : List RegSpec :=
  match k with
  | .mgt => mgtRegs | .tb => tbRegs | .fm => fmRegs | .lre => lreRegs | .hp => hpRegs | .jnt => jntRegs
  | .pwr => pwrRegs | .thm => thmRegs
  | .dmc => if p = 0x010 then dmcRegs ++ dmc0Regs else dmcRegs
  | .mreg => mregRegs | .res => resRegs | .flg => flgRegs | .mews => mewsRegs | .strm => strmRegs | .sema => semaRegs
  | .tc => tcRegs | .gen => genRegs
  | .wrp => visRegs ++ wrpRegs | .pyr => visRegs | .hwk => visRegs ++ hwkRegs | .owl => visRegs ++ owlRegs | .kes => visRegs
  | .gsh => gshRegs | .fus => fusRegs | .fsh => fshRegs | .csi => csiRegs | .eth => rxRegs ++ ethRegs
  | .can => rxRegs ++ canRegs | .spi => rxRegs ++ spiRegs | .uart => rxRegs ++ uartRegs
  | .gpio => gpioRegs | .fst => fstRegs | .mbr => mbrRegs | .plk => plkRegs

/-- The row holds the register at `off`. -/
def RegSpec.covers (r : RegSpec) (off : Nat) : Bool :=
  decide (r.off ≤ off) && (decide ((off - r.off) % r.stride = 0) && decide ((off - r.off) / r.stride < r.n))

/-- The register at an offset of a page; none for a reserved offset or an unassigned page (R667). -/
def regSpec (p off : Nat) : Option RegSpec :=
  match kindOf p with
  | none => none
  | some k => if off < 0x080 then (headerRegs k).find? (·.covers off) else (blockRegs k p).find? (·.covers off)

/-- The fields of the register at an offset. -/
def fieldsAt (p off : Nat) : List Field := match regSpec p off with | some r => r.fields | none => []

/-- The value a register takes when its domain switches on (R79). -/
def resetWord (p off : Nat) : Word := match regSpec p off with | some r => BitVec.ofNat 32 r.reset | none => 0

/-- The mask of the bits of one type in a register. -/
def typeMask (t : FType) (fs : List Field) : Word :=
  BitVec.ofNat 32 ((fs.filter (·.type = t)).foldl (fun m f => m ||| maskBits f.hi f.lo) 0)

/-- Key of a register in the register file. -/
def regKey (p off : Nat) : Nat := p * 0x1000 + off

/-- The reset value by key. -/
def resetByKey (k : Nat) : Word := resetWord (k / 0x1000) (k % 0x1000)

end Sys2Proof.Machine
end

