-- ==== Sys2Proof/Machine/SMap.lean ====
section
/-!
DEFINITION. The one sparse map of the model: a list of (key, value) pairs in canonical form, keys strictly rising and no
entry equal to what an unlisted key is known to read as. The register file, the memory, the marks of memory words and the per-unit
states are kept in it, so that equal machines are equal data.
-/
namespace Sys2Proof

/-- Pairs of a key and a value. -/
abbrev SMap (α : Type) := List (Nat × α)

namespace SMap

variable {α : Type}

/-- The value at `k`, or `d` where `k` is not listed. -/
def get (d : α) (k : Nat) : SMap α → α
  | [] => d
  | (k', v) :: t => if k' = k then v else get d k t

/-- The map without the keys that `p` selects. -/
def dropKeys (p : Nat → Bool) (m : SMap α) : SMap α := m.filter (fun e => !p e.1)

/-- Lists `v` at `k`, in the place its key has. -/
def insert (k : Nat) (v : α) : SMap α → SMap α
  | [] => [(k, v)]
  | (k', v') :: t =>
    if k < k' then (k, v) :: (k', v') :: t
    else if k = k' then (k, v) :: t
    else (k', v') :: insert k v t

/-- Sets the value at `k`; writing the value `d` an unlisted key reads as takes the entry out. -/
def put [DecidableEq α] (d : α) (k : Nat) (v : α) (m : SMap α) : SMap α :=
  if v = d then m.dropKeys (fun j => j == k) else insert k v m

/-- The same where what an unlisted key reads as may be unknown (`none`): there a written value is always listed. -/
def putKnown [DecidableEq α] (d : Option α) (k : Nat) (v : α) (m : SMap α) : SMap α :=
  match d with
  | some x => m.put x k v
  | none => m.insert k v

/-- Every listed key is at least `lo`, keys rise strictly, and no entry equals what its key is known to read as unlisted. -/
def wfFrom [DecidableEq α] (d : Nat → Option α) : Nat → SMap α → Bool
  | _, [] => true
  | lo, (k, v) :: t => decide (lo ≤ k) && (decide (d k ≠ some v) && wfFrom d (k + 1) t)

/-- The canonical form. -/
def wf [DecidableEq α] (d : Nat → Option α) (m : SMap α) : Bool := wfFrom d 0 m

end SMap

end Sys2Proof
end

