-- ==== Sys2Proof/Machine/State.lean ====
section
/-!
DEFINITION. The state of the part as plain data: the register file, the time base, the ports and rings, the event records
on their way, the last-resort store, power and domains, memory with its error marks, the queues and jobs of every page, and
the private state of every block; the queue of waiting commands; `Fault`, `Refusal` and `State.reset`.
-/
namespace Sys2Proof.Machine

/-! ### What the part is made with -/

/-- Fuse and ROM values (R160, `PG_VER.ISSUE`), which no command changes. [DESIGN CHOICE, log entry 4] -/
structure Fuses where
  variantE : Bool
  issue : Nat
  romVersion : Nat
deriving DecidableEq, Repr

/-! ### The time base (chapter 2) -/

/-- The time base behind the TB registers: the count and its increment per TCXO tick in units of 2^-32 ns (R45), the slew
under way with what it still has to gain or lose in those units (R55), the shadows of R56 and what the discipline of R47 to R53
remembers between edges. -/
structure TimeBase where
  count : Nat
  inc : Nat
  slewReq : Int
  slewRest : Nat
  shadowA : Word
  shadowB : Word
  edgeSeen : Bool
  edgeCount : Nat
  missRun : Nat
  keepAt : Nat
  boundTold : Bool
  paceStart : SMap Nat
deriving DecidableEq, Repr

/-! ### Events and ports (chapters 3, 4, 21) -/

/-- An event record (R91), before it is laid out in 16 bytes. -/
structure EvRec where
  tb : Nat
  page : Nat
  code : Nat
  sev : Nat
  both : Bool
  replay : Bool
  detail : Nat
deriving DecidableEq, Repr

/-- A record decided and not yet written, with the ports it still goes to. -/
structure Posting where
  record : EvRec
  toA : Bool
  toB : Bool
deriving DecidableEq, Repr

/-- What a command ring latched at its enable (R113), its doorbell TAIL and what it waits for. -/
structure CmdRing where
  base : Nat
  depth : Nat
  target : Nat
  tail : Nat
  barrier : Bool
  told : Bool
  running : Nat
deriving DecidableEq, Repr

/-- What an event ring latched at its enable, and its drop and moderation state (R116, R118). -/
structure EvtRing where
  base : Nat
  depth : Nat
  dropped : Nat
  unsent : Nat
  oldest : Nat
deriving DecidableEq, Repr

/-- One MSI-X table entry (R95). -/
structure MsixEntry where
  addr : Nat
  data : Nat
  masked : Bool
deriving DecidableEq, Repr

/-- What software sets in the configuration space of a port (R93, R102): memory and bus-master enable, the bases of the three
BARs, MSI-X enable and function mask, D3hot, ASPM L1, Max Payload Size, ECRC generation and checking.
[PRESUMED, log entries 37, 230] -/
structure PortConfig where
  memory : Bool
  busMaster : Bool
  bar0 : Nat
  bar2 : Nat
  bar4 : Nat
  msixEnable : Bool
  msixMask : Bool
  d3hot : Bool
  aspmL1 : Bool
  payload : Nat
  ecrcGen : Bool
  ecrcCheck : Bool
deriving DecidableEq, Repr

/-- An aperture access that was decided while its memory was held (R98, R169, R175): its BAR2 offset, its DPA at the base of
that instant, its length, and the bytes of a write (none: a read). [DESIGN CHOICE, log entry 231] -/
structure HeldAccess where
  offset : Nat
  dpa : Nat
  len : Nat
  data : Option (List (Option Byte))
deriving DecidableEq, Repr

/-- A host port: its link (up, down since a DL_Down, the TB of the last DL_Down and DL_Up), its configuration space, its rings,
its MSI-X table and pending bits, its aperture accesses held, what its last read returned. -/
structure PortState where
  up : Bool
  down : Bool
  downAt : Nat
  upAt : Nat
  speed : Nat
  width : Nat
  config : PortConfig
  cmd : SMap CmdRing
  evt : SMap EvtRing
  msix : SMap MsixEntry
  pending : SMap Bool
  sent : SMap Nat
  held : List HeldAccess
  nextRing : Nat
  readData : Nat
  readBytes : List Byte
  readEP : Bool
  unsupported : Nat
deriving DecidableEq, Repr

/-- The last-resort event store: its entries from the oldest, the slot of the oldest, and the counts behind LRE_OVERFLOW
and LRE_EMPTY. -/
structure LreState where
  entries : List Posting
  oldest : Nat
  dropped : Nat
  delivered : Nat
  discarded : Nat
deriving DecidableEq, Repr

/-- The joint-order window (R125): its end, latched when it opened. -/
structure JointState where
  windowEnd : Nat
deriving DecidableEq, Repr

/-! ### Jobs (chapter 3, common job header) -/

/-- A job: the descriptor as copied into the queue (R108), the port and ring that submitted it (ring 16: the part itself,
by LAUNCH or an action table), whether WAIT_DEP was raised for it, and the TB of its acceptance. -/
structure Job where
  desc : List Byte
  port : Port
  ring : Nat
  told : Bool
  accepted : Nat
deriving DecidableEq, Repr

/-- A job whose last output is committed and whose completion record, triggers and counters are still to come (R87); the
number of its start on its page, 0 where it never started. -/
structure DoneJob where
  job : Job
  status : Nat
  detail : Nat
  tEnd : Nat
  noTrig : Bool
  noRecord : Bool
  reported : Bool
  serial : Nat
deriving DecidableEq, Repr

/-- The queue of a page, the jobs it runs (one on most pages) and the jobs it has finished, oldest first; the TB of its last
progress; how many jobs it has started. -/
structure PageJobs where
  queue : List Job
  running : List Job
  done : List DoneJob
  progress : Nat
  started : Nat
deriving DecidableEq, Repr

/-- A fence under way on a page (R629 to R632). -/
structure FenceState where
  active : Bool
  since : Nat
  release : Bool
  slow : Bool
  lost : Nat
deriving DecidableEq, Repr

/-! ### Power and heat (chapter 5), the supervisor (chapter 22) -/

/-- Power: whether the trim image was looked for and a valid one is applied, the domain switches still to make, in order
(R147), whether VCORE is there, the lowest set point of a ramp (R152), since when VCORE deviates and whether that was told
(R161), whether the supervisor's silence was told, and the TB at which each domain came on. -/
structure PowerState where
  trimTried : Bool
  trimValid : Bool
  switching : List (Nat × Bool)
  vcoreOn : Bool
  rampFloor : Nat
  devSince : Option Nat
  devTold : Bool
  supLost : Bool
  domainOnAt : SMap Nat
deriving DecidableEq, Repr

/-- Heat: the first sample was taken, the TB of the last one, and the blindness of R158. -/
structure HeatState where
  sampled : Bool
  lastAt : Nat
  blind : Bool
deriving DecidableEq, Repr

/-! ### Memory (chapter 6) -/

/-- What is wrong with a memory word, if anything: a correctable error, an uncorrectable error nobody has read yet, or the
poison code (R194 to R199). -/
inductive Mark where
  | good | correctable | uncorrectable | poison
deriving DecidableEq, Repr

/-- What a range of DRAM bytes that nothing is listed for reads as: zeros since its initialisation (R175); the contents number `n`
the spec leaves undefined, codes and all (R169, R175, R673); what an engine left of its own work there (R479), whose codes are
good. -/
inductive Fill where
  | zero
  | free (n : Nat)
  | work (n : Nat)
deriving DecidableEq, Repr

/-- The DRAM bytes from `lo` up to `hi` read as `fill` where nothing is listed. -/
structure FillRange where
  lo : Nat
  hi : Nat
  fill : Fill
deriving DecidableEq, Repr

/-- Memory: its listed bytes by address, and what the rest of DRAM reads as, by ranges, the newest first. The resident store and
flag space read as zeros where nothing is listed (R179). -/
structure Memory where
  cells : SMap Byte
  fills : List FillRange
deriving DecidableEq, Repr

/-- A DRAM request waiting for admission (R185 to R190). -/
structure DramReq where
  cls : Nat
  ctl : Nat
  bytes : Nat
deriving DecidableEq, Repr

/-- The regulator's interval (R189, R190): bytes admitted per class and in all, the interval's start, tags held per class
and per controller, the requests that wait, and the instant of the last admission with the bytes admitted before it. -/
structure RegulatorState where
  start : Nat
  admitted : SMap Nat
  remainder : SMap Nat
  total : Nat
  tagsClass : SMap Nat
  tagsCtl : SMap Nat
  waiting : List DramReq
  instant : Nat
  admitted0 : SMap Nat
  total0 : Nat
deriving DecidableEq, Repr

/-- DRAM: the TB of each controller's last request, the ECC initialisation under way with the ECC state it ends in and the regions
owed after a map change (R169, R175), the next word each patrol scrub reads, and what the last memory read returned (R196). -/
structure DramState where
  lastReq : SMap Nat
  trainAt : SMap Nat
  initRegion : Option Nat
  initOn : Bool
  initAt : Nat
  owed : List Nat
  scrubNext : SMap Nat
  lastData : List Byte
  lastPoison : Bool
deriving DecidableEq, Repr

/-- The flag page: the range clear under way (first group and count). -/
structure FlagState where
  range : Option (Nat × Nat)
  rangeAt : Nat
deriving DecidableEq, Repr

/-! ### The supervisor and the module pins (chapter 22) -/

/-- The supervisor's own registers (R650) and the pins it serves. -/
structure SupState where
  modEn : Bool
  modPg : Bool
  flashMode : Bool
  vinMv : Nat
  vcoreMv : Nat
  icoreCa : Nat
  setMv : Nat
  critAction : Bool
  critDelay : Nat
  critMs : Nat
  cause : Nat
  removals : Nat
deriving DecidableEq, Repr

/-- The states of the IEEE 1149.1 test access port. -/
inductive TapState where
  | testLogicReset | runTestIdle | selectDr | captureDr | shiftDr | exit1Dr | pauseDr | exit2Dr | updateDr
  | selectIr | captureIr | shiftIr | exit1Ir | pauseIr | exit2Ir | updateIr
deriving DecidableEq, Repr

/-- The instructions of the JTAG port (R638); every other code acts as BYPASS. -/
inductive JtagInsn where
  | bypass | idcode | sample | extest
deriving DecidableEq, Repr

/-- The JTAG port (R638): the controller's state, the instruction in force, the shift stages of the instruction and the data
register (the bit next to TDO first), TDO, and the boundary cells as last updated, which EXTEST drives. -/
structure JtagState where
  tap : TapState
  insn : JtagInsn
  ir : List Bool
  dr : List Bool
  tdo : Bool
  boundary : List Bool
deriving DecidableEq, Repr

/-! ### The Mews (chapter 7) -/

/-- Who asks the Mews: the host, a stream unit at commit or for its `n`th run-ahead allocation, a generation slot, a lidar
extractor. -/
inductive MewsSrc where
  | host (q : Port) | stream (u : Nat) | ahead (u n : Nat) | gen (slot : Nat) | lidar (m x : Nat)
deriving DecidableEq, Repr

/-- A buffer entry: its generation, whether it is allocated, whether the allocation is tentative, its owner (R211, R214). -/
structure Buf where
  gen : Nat
  held : Bool
  tent : Bool
  owner : Nat
deriving DecidableEq, Repr

/-- A waiting request (R218). -/
structure MewsReq where
  src : MewsSrc
  owner : Nat
  size : Nat
  recov : Bool
deriving DecidableEq, Repr

/-- A pool as latched at its switch-on (R208). -/
structure MewsPool where
  on : Bool
  base : Nat
  count : Nat
  reserve : Nat
deriving DecidableEq, Repr

/-- The answer an engine has not taken yet. -/
structure MewsAnswer where
  src : MewsSrc
  status : Nat
  handle : Nat
deriving DecidableEq, Repr

/-- The Mews: pools, buffer entries by pool * 2^16 + index, queues by pool * 2 (recovery) and pool * 2 + 1 (ordinary), and
the answers given to engines that waited. -/
structure MewsState where
  pools : SMap MewsPool
  bufs : SMap Buf
  queues : SMap (List MewsReq)
  answers : List MewsAnswer
deriving DecidableEq, Repr

/-! ### Semaphores and stream units (chapters 8, 9) -/

/-- Who waits on a semaphore side: a stream unit, a tensor core at an endpoint port, the KV mover, the sampler. -/
inductive SemWho where
  | stream (u : Nat) | tc (core port : Nat) | kv (core port : Nat) | sampler
deriving DecidableEq, Repr

/-- A wait of count `k` (R267). -/
structure SemWaiter where
  who : SemWho
  k : Nat
deriving DecidableEq, Repr

/-- The waiters of each side, by pair * 2 + side, in arrival order, and the waits granted and not yet taken. -/
structure SemaState where
  waiters : SMap (List SemWaiter)
  granted : List SemWho
deriving DecidableEq, Repr

/-- A prefetched line of 64 bytes (R278): its address, the bytes it was read as, its words that were poisoned. -/
structure PfLine where
  addr : Nat
  bytes : List Byte
  bad : List Nat
deriving DecidableEq, Repr

/-- The run-ahead of a stream unit: the path position it has reached and the instructions it is ahead of the commit; by address
register, one more than the BUF transfer whose buffer's address is still to be added to it (0: none). -/
structure RunAhead where
  pc : Nat
  hs : Bool
  a : SMap Nat
  c : SMap Nat
  ahead : Nat
  bufs : Nat
  pend : SMap Nat
deriving DecidableEq, Repr

/-- A stream unit (R231, R233): its store, shapes (8 words each), registers, what its job latched, what it waits for, the
marks missed and the pairs signalled, its BUF transfers committed, its prefetched lines and run-ahead, a fence under way. -/
structure StreamUnit where
  prog : SMap Nat
  shapes : SMap Nat
  a : SMap Nat
  c : SMap Nat
  hs : Bool
  pc : Nat
  progLen : Nat
  cfg : Word
  bind : Word
  halfOfs : Nat
  waitKind : Nat
  waitSem : Nat
  draining : Bool
  waitFlag : Option (Nat × Bool)
  released : Bool
  missed : List Nat
  signalled : List Nat
  bufs : Nat
  asked : Bool
  launched : Nat
  lines : List PfLine
  ra : Option RunAhead
  paused : Bool
  fencing : Bool
deriving DecidableEq, Repr

/-- An engine endpoint (R237): the bytes of its halves, by half * 2^20 + offset, the length of the block last written to
each half, and the buffer handles delivered to it. -/
structure Endpoint where
  bytes : SMap Byte
  lens : SMap Nat
  handles : List Nat
deriving DecidableEq, Repr

/-! ### Tensor cores (chapter 10) -/

/-- A weight half of a core: held full, used by the core, received in full by its successor (R303). -/
structure TcHalf where
  full : Bool
  used : Bool
  sent : Bool
deriving DecidableEq, Repr

/-- A tensor core's job: the layer under way with its descriptor, the layer flags so far, the output block to come, the
halves held, the half of each port that comes next, the weight halves the layer has taken and the half the core forwards
next, one more than the pair of its latest output half (0: none) and that half, the layer's parameter block, the candidates
of a SAMPLE_PREP (row, value, index), what it waits for, and since when it waits on the chain. -/
structure TcCore where
  active : Bool
  layer : Nat
  desc : List Byte
  flags : Nat
  blk : Nat
  w : SMap TcHalf
  wNext : Nat
  wTaken : Nat
  wSend : Nat
  aNext : Nat
  oNext : Nat
  xNext : Nat
  wHeld : Bool
  aHeld : Bool
  oHeld : Bool
  xHeld : Bool
  oPair : Nat
  oLast : Nat
  params : List Byte
  cands : List (Nat × Nat × Nat)
  st : Nat
  chainSince : Option Nat
deriving DecidableEq, Repr

/-! ### Generation (chapter 11) -/

/-- A slot (R331, R332): 0 free, 1 running, 2 kept; its SEQ job, the next position, the prompt tokens fed, the token to feed
next, the tokens emitted, a stop asked for, whether KV_DEFER was raised, its KV pages by layer * 2048 + page, its pending
drafts, and the end reason it has reached (0 none). -/
structure GenSlot where
  st : Nat
  owner : Nat
  job : Option Job
  next : Nat
  fed : Nat
  pend : Nat
  emitted : Nat
  stop : Bool
  deferred : Bool
  pages : SMap Nat
  drafts : List Nat
  fromPos : Nat
  ending : Nat
deriving DecidableEq, Repr

/-- A slot's part of a step (R341): first batch row and rows, first sampled row and sampled rows, the first row's position,
the drafts used. -/
structure GenPlan where
  slot : Nat
  row0 : Nat
  nrows : Nat
  srow0 : Nat
  ns : Nat
  pos : Nat
  drafts : List Nat
deriving DecidableEq, Repr

/-- A KV action of the mover (R344) and how far it has got: the head and position of a load, the rows stored. -/
structure KvAct where
  load : Bool
  core : Nat
  values : Bool
  layer : Nat
  sem : Nat
  nbTok : Nat
  slot : Option Nat
  action : Nat
  head : Nat
  tok : Nat
  hs : Bool
  rows : Nat
deriving DecidableEq, Repr

/-- The sequencer: the bound image and workspace, the slots, the step under way with its plan, the next action to deliver,
the jobs delivered and not completed (completion address, action), the mover's queue. -/
structure GenState where
  bound : Bool
  ws : Nat
  semCand : Nat
  actions : Nat
  actionCount : Nat
  kvLayers : Nat
  kvHeads : Nat
  headDim : Nat
  vocab : Nat
  slots : SMap GenSlot
  step : Bool
  plan : List GenPlan
  nextAct : Nat
  nextPlan : Nat
  seq : Nat
  sent : List (Nat × Nat)
  mover : List KvAct
  sampled : Bool
  startAt : Nat
  retryAt : Nat
deriving DecidableEq, Repr

/-! ### Intake (chapter 12) -/

/-- A ring of records the part writes, or of frames it sends, as latched at its enable: its base and depth, the records
generated, the records dropped and not yet reported. -/
structure InRing where
  base : Nat
  depth : Nat
  seq : Nat
  lost : Nat
deriving DecidableEq, Repr

/-- A frame slot (R361 to R366): the frame last given to it, whether it is valid, whether a flush invalidated it or waits for
its last pin, the reason its last frame was lost (R362), and the jobs that pin it (page, number of the start). -/
structure FstSlot where
  id : Nat
  valid : Bool
  flushed : Bool
  hidden : Bool
  lost : Nat
  pins : List (Nat × Nat)
deriving DecidableEq, Repr

/-- A camera: its configuration latched at enable (R372) and the frame being received. -/
structure FstCam where
  rx : Nat
  vc : Nat
  dt : Nat
  width : Nat
  height : Nat
  base : Nat
  slotBytes : Nat
  trig0 : Nat
  trig1 : Nat
  active : Bool
  id : Nat
  tbFs : Nat
  frameNo : Nat
  lines : Nat
  bad : Nat
  miss : Bool
  corrected : Bool
  flushing : Bool
  slots : SMap FstSlot
deriving DecidableEq, Repr

/-- A lidar extractor's open block (R378) and whether packets were dropped since the last. -/
structure LidarBlk where
  opened : Bool
  handle : Nat
  cap : Nat
  tbFirst : Nat
  tbLast : Nat
  points : Nat
  packets : Nat
  srcIp : Nat
  gap : Bool
  told : Bool
deriving DecidableEq, Repr

/-- A MAC: its transmit doorbell, the frame it last sent, its extractors. -/
structure EthState where
  tail : Nat
  last : List Byte
  lx : SMap LidarBlk
deriving DecidableEq, Repr

/-- An SPI master: a transaction under way (its stamp, length and transmitted bytes), the last start by period, whether an
overrun was told of, the starts missed since the last was. -/
structure SpiState where
  active : Bool
  start : Nat
  len : Nat
  sent : List Byte
  lastTick : Nat
  told : Bool
  missed : Nat
deriving DecidableEq, Repr

/-- A UART: the record being gathered with its stamp and flags, the latest start bit after idle, the transmit FIFO. -/
structure UartState where
  buf : List Byte
  tb : Nat
  fresh : Bool
  err : Bool
  mark : Nat
  fifo : List Byte
deriving DecidableEq, Repr

/-! ### Vision (chapter 13) -/

/-- A vision engine's job: the next tile and their number, the status and detail it has reached, whether it writes the
no-information outputs, whether Hawk marks RESTART and reads a previous list, its pin (camera, frame), the registers latched
at its start, its input images (header address, width, height), the data type of a stored frame, the camera, frame and TB_FS
of its outputs, Owl's path states from band to band, the band computed and not wholly written, Kestrel's vectors of level 1. -/
structure VisEng where
  tile : Nat
  tiles : Nat
  status : Nat
  detail : Nat
  absent : Bool
  restart : Bool
  prev : Bool
  pin : Option (Nat × Nat)
  cfg : List Nat
  imgs : List (Nat × Nat × Nat)
  dt : Nat
  camera : Nat
  frame : Nat
  tbFs : Nat
  carry : List (List (List Nat))
  band : List (List Nat)
  vecs : List (Int × Int)
deriving DecidableEq, Repr

/-! ### Fusion (chapter 14) -/

/-- One plane axis of a track: position, velocity and the covariance P_pp, P_pv, P_vv (FP32 words). -/
structure Axis where
  p : Nat
  v : Nat
  pp : Nat
  pv : Nat
  vv : Nat
deriving DecidableEq, Repr

/-- A track (R449, R459): its ID, STATE 1 to 3, life-cycle counters, class, support of this frame, axes, the z, length,
width, height and yaw, confidence, the times of its latest update, and this frame's flags and detections. -/
structure Track where
  id : Nat
  st : Nat
  cls : Nat
  hist : Nat
  misses : Nat
  age : Nat
  support : Nat
  x : Axis
  y : Axis
  z : Nat
  l : Nat
  w : Nat
  h : Nat
  yaw : Nat
  conf : Nat
  tOld : Nat
  tNew : Nat
  flags : Nat
  detV : Nat
  detL : Nat
deriving DecidableEq, Repr

/-- The state the engine keeps in a workspace (R430): tracks, the frame at which each released track ID was released, the
frame number, the next ID, T_PREV and the previous fused ego-motion, the previous scan and each camera's previous TB_FS; and
the header bytes the engine last wrote at the workspace's start. -/
structure FusWs where
  units : Nat
  tracks : List Track
  released : SMap (Option Nat)
  frameNo : Nat
  nextId : Nat
  tPrev : Nat
  vx : Nat
  vy : Nat
  w : Nat
  scan : Option (List (Nat × Nat))
  camPrev : SMap (Option Nat)
  header : List Byte
deriving DecidableEq, Repr

/-- A fusion job under way, which has read its inputs (R431, R433): the phases before its output that have not ended (R432), what
it will write, the flag it will set, the workspace it will commit, the words its commit counts, and how it ends. -/
structure FusRun where
  left : Nat
  writes : List (Nat × List Byte)
  flag : Option Nat
  ws : Option (Nat × FusWs)
  flags : Nat
  dropped : Nat
  refused : Nat
  noMaj : Bool
  status : Nat
  detail : Nat
deriving DecidableEq, Repr

/-- The fusion engine: the workspace named, the workspaces kept by address / 64 KiB, the transform table (R433), which PD0 holds,
and the job under way. -/
structure FusState where
  named : Option Nat
  kept : SMap FusWs
  xforms : SMap (List Byte)
  run : Option FusRun
deriving DecidableEq, Repr

/-! ### Goshawk (chapter 15) -/

/-- A problem: kind, start x and rows of DENSE_LS (b, w, coefficients), cameras, poses (QW QX QY QZ TX TY TZ and FIXED),
landmarks (X Y Z and FIXED), observations and edges as their words lie in an image. -/
structure GshProb where
  kind : Nat
  xs : List Nat
  rows : List (List Nat)
  cams : List (List Nat)
  poses : List (List Nat)
  lms : List (List Nat)
  obs : List (List Nat)
  edges : List (List Nat)
deriving DecidableEq, Repr

/-- A handle (R480): loaded, its region in 64 KiB units, its problem, the commits to it. -/
structure GshRes where
  loaded : Bool
  base : Nat
  size : Nat
  epoch : Nat
  prob : GshProb
deriving DecidableEq, Repr

/-- A flagged pivot: global index, non-positive, its value before replacement (R474). -/
structure Pivot where
  idx : Nat
  nonpos : Bool
  value : Nat
deriving DecidableEq, Repr

/-- A solve under way or ended: the point, counts and flags of the result header, the first flagged pivot, the pairs F0 and
F, ‖g‖∞, μ, the exclusions at the point, the STOP reason, the unknown with a non-finite d. -/
structure GshRun where
  prob : GshProb
  iters : Nat
  accepted : Nat
  steps : Nat
  flags : Nat
  small : Nat
  nonpos : Nat
  first : Option Pivot
  f0 : Nat × Nat
  f : Nat × Nat
  gInf : Nat
  mu : Nat
  excl : Nat
  stop : Nat
  bad : Option Nat
deriving DecidableEq, Repr

/-- A piece of a SOLVE: the STATE the page shows during it (R490), whether a block boundary ends it, where the deadline is checked
(R477), and the solve as it stands at its end. -/
structure GshMark where
  state : Nat
  check : Bool
  run : GshRun
deriving DecidableEq, Repr

/-- A SOLVE under way, which has read and checked its problem: the pieces before its output that have not ended, the problem its
deltas leave until they are committed (R483), the solve as it ends, the status and detail it aborts with, and whether GSH_PIVOT
was raised. -/
structure GshActive where
  marks : List GshMark
  fin : Option GshProb
  run : GshRun
  stop : Option (Nat × Nat)
  told : Bool
deriving DecidableEq, Repr

/-! ### Fishhawk (chapter 16) -/

/-- A side entry: its ID, list, code and the sequence number of its commit (R501, R513). -/
structure SideEntry where
  id : Nat
  list : Nat
  code : List Nat
  seq : Nat
deriving DecidableEq, Repr

/-- An epoch: its number, base sequence, directory and number of main-list vectors (R501, R515). -/
structure FshEpoch where
  num : Nat
  base : Nat
  dir : Nat
  nvec : Nat
deriving DecidableEq, Repr

/-- A side area as its index leaves it (R498): the dimensions it was written for, epoch and base, the side sequence, entries,
tombstones (ID, sequence number), and the header bytes last written at its start. -/
structure FshSide where
  dims : List Nat
  epoch : Nat
  base : Nat
  seq : Nat
  entries : List SideEntry
  tombs : List (Nat × Nat)
  header : List Byte
deriving DecidableEq, Repr

/-- The bound index (R495): its fields, the current epoch and the previous one while it is not retired, the side area's
address. -/
structure FshBound where
  d : Nat
  m : Nat
  nlist : Nat
  cent : Nat
  book : Nat
  tscale : Nat
  header : List Byte
  cur : FshEpoch
  prev : Option FshEpoch
  side : Nat
deriving DecidableEq, Repr

/-- A SEARCH under way, which has read its queries and its view: the pieces before its writing that have not ended, each with the
state shown and whether the deadline is checked at its end (R512); the results, the entries scanned, the flags of all queries. -/
structure FshSearch where
  left : List (Nat × Bool)
  writes : List (Nat × List Byte)
  scanned : Nat
  flags : Nat
deriving DecidableEq, Repr

/-- A MERGE under way: its destination, its snapshot S_m, the new directory and number of vectors, and the lists it has not
written; with none left it waits to switch (R515, R516). -/
structure FshMerge where
  dst : Nat
  size : Nat
  snap : Nat
  dir : Nat
  nvec : Nat
  left : List (Nat × List Byte)
deriving DecidableEq, Repr

/-- What a maintenance job under way will commit: a BIND the index and the side area, an APPEND its entries (ID, list, code), a
DELETE its IDs; or the MERGE. -/
inductive FshMaint where
  | bind (b : FshBound) (v : FshSide)
  | append (new : List (Nat × Nat × List Nat))
  | delete (ids : List Nat)
  | merge (m : FshMerge)
deriving DecidableEq, Repr

/-- Fishhawk: the bound index, the side areas by address / 64 KiB, the snapshot of the running SEARCH, and the work under way of
the search unit and of the maintenance unit. -/
structure FshState where
  bound : Option FshBound
  sides : SMap FshSide
  snap : Option (FshEpoch × Nat)
  search : Option FshSearch
  maint : Option FshMaint
deriving DecidableEq, Repr

/-! ### The sealed compartment (chapters 17 to 19) -/

/-- A date and time as its six fields hold it (R581, R587); a staged one may be impossible. -/
structure CalTime where
  year : Nat
  month : Nat
  day : Nat
  hour : Nat
  minute : Nat
  second : Nat
deriving DecidableEq, Repr

/-- The compartment's calendar (R581 to R596). -/
structure Calendar where
  live : CalTime
  staged : CalTime
  pending : Option CalTime
  unset : Bool
  ended : Bool
  invalid : Bool
  rejField : Nat
  ovf : Nat
  commits : Nat
  brownOut : Bool
deriving DecidableEq, Repr

/-- A fast or fine sample held until its release (R567, R571): its number since power-up, its code and its marks. -/
structure Sample where
  n : Nat
  val : Int
  invalid : Bool
  settling : Bool
deriving DecidableEq, Repr

/-- One wheel channel (chapter 18): the bits and stage outputs its filters still need (oldest first), the samples held, the
open-wire detector, the pulse detector, and what it counts by millisecond. -/
structure WheelCh where
  bits : List Int
  cic : List Int
  half : List Int
  fast : List Sample
  fine : List Sample
  beyond : Nat
  within : Nat
  isOpen : Bool
  fineBadTo : Nat
  switchAt : Nat
  below : Option Bool
  hyst : Nat
  level : Int
  hits : List Nat
  badMs : List Nat
  levelMs : List Nat
  remainder : Nat
  pulses : Nat
  opens : Nat
  satJ : Nat
  satP : Nat
  fastSettling : Bool
  fineSettling : Bool
  levelFault : Bool
  valid : Bool
deriving DecidableEq, Repr

/-- A parameter (R538): the value in force and the two FRAM copies, each with its CRC-32. -/
structure Param where
  value : Nat
  copy0 : Nat × Nat
  copy1 : Nat × Nat
deriving DecidableEq, Repr

/-- A calendar stamp and a TB stamp of one event. -/
structure Stamp where
  cal : List Byte
  tb : Nat
deriving DecidableEq, Repr

/-- What the compartment keeps of the open journey between two rewrites of its record (R543 to R547, R559). -/
structure Journey where
  no : Nat
  flags : Nat
  gapCount : Nat
  hostRef : Nat
  eventCtr : Nat
  start : Stamp
  startMs : Nat
  dist : Nat
  gapMs : Nat
  gapFirst : Nat
  gaps : SMap (Option Stamp)
deriving DecidableEq, Repr

/-- A mailbox frame on its way, with the crystal time at which the bridge sent it. -/
structure MboxFrame where
  bytes : List Byte
  sentAt : Nat
deriving DecidableEq, Repr

/-- What the verification port last answered (R553). -/
inductive VerAnswer where
  | none
  | ok
  | err (code : VerError)
  /-- `ID`: the firmware text, the CRC in two groups, the serial number, the hardware issue -/
  | identity (name crc serial : List Byte) (issue : Nat)
  /-- `STAT`: seal open, journey open, event counter, audit count, alert causes -/
  | status (sealOpen journey : Bool) (eventCtr audits causes : Nat)
  /-- `RD` of MET_FW_CRC: the CRC in two groups -/
  | crc (text : List Byte)
  /-- `RD`: the value of another register -/
  | value (v : Nat)
  /-- a record in hex, in groups of 8 digits -/
  | record (text : List Byte)
  /-- `CAL` with no argument -/
  | calendar (text : List Byte)
deriving DecidableEq, Repr

/-- The compartment: its supplies, its crystal time, FRAM contents, seal, calendar, channels, links and port. -/
structure Met where
  vin : Bool
  vbatMv : Nat
  ms : Nat
  secs : Nat
  fastN : Nat
  fineN : Nat
  cycles : Nat
  sealOpen : Bool
  sealLog : List (Bool × List Byte)
  cal : Calendar
  fwCrc : Nat
  fwFault : Bool
  paramFault : Bool
  framFault : Bool
  eventCtr : Nat
  audit : List (List Byte)
  journeyNo : Nat
  journeyCount : Nat
  journeys : SMap (List Byte)
  gapNext : Nat
  gapLog : SMap (List Byte)
  params : SMap Param
  odo : Nat
  legalRem : Nat
  journey : Option Journey
  lossMs : Nat
  loss : Stamp
  chans : SMap WheelCh
  mailbox : List MboxFrame
  toServe : Nat
  mbxRej : Nat
  wheelBlock : Option (List Byte)
  replies : List (List Byte)
  statusAt : Nat
  blockSeq : Nat
  dataPath : List (List Byte)
  sync : Option (Nat × Nat)
  answer : VerAnswer
  idShown : Bool
deriving DecidableEq, Repr

/-- The metrology bridge behind its registers (R530, R531, R552, R557): the sequence of its next mailbox frame, the last
block's sequence and the run of consecutive ones, the TB of the last correct block, TB_SYNC and absent sample, the
requests still unanswered, and whether TILE_ABSENT has been raised since the last correct block. -/
structure Bridge where
  txSeq : Nat
  lastSeq : Option Nat
  run : Nat
  lastBlock : Nat
  lastSync : Nat
  lastAbsent : Nat
  readSeq : Option Nat
  journeySeq : Option Nat
  absentTold : Bool
deriving DecidableEq, Repr

/-! ### The Dexvor link (chapter 20) -/

/-- A frame sent and not yet acknowledged: its sequence, the TB of its last sending, its 4,132 bytes. -/
structure LinkFrame where
  seq : Nat
  sentAt : Nat
  bytes : List Byte
deriving DecidableEq, Repr

/-- The message a channel is sending: its ID, source, length and TAG, the next frame, and its frames acknowledged. -/
structure TxMsg where
  id : Nat
  src : Nat
  len : Nat
  tag : Nat
  next : Nat
  acked : Nat
deriving DecidableEq, Repr

/-- The message a channel is receiving: the sender's ID, its length, the next frame, the posted entry (none where its frames
are discarded) as buffer, completion address and RX_ID, the TB of frame 0 and the bytes written. -/
structure RxMsg where
  id : Nat
  len : Nat
  next : Nat
  entry : Option (Nat × Nat × Nat)
  start : Nat
  written : Nat
deriving DecidableEq, Repr

/-- What a posting ring latched at its enable, and its doorbell TAIL. -/
structure PostRing where
  base : Nat
  depth : Nat
  tail : Nat
deriving DecidableEq, Repr

/-- The Dexvor link behind its registers (R600 to R612). -/
structure Link where
  trainAt : Nat
  slowTold : Bool
  clashTold : Bool
  nextSeq : Nat
  nextMsg : Nat
  unacked : List LinkFrame
  sends : Nat
  resend : Nat
  lastSlot : Nat
  lastControl : Nat
  tx : SMap (Option TxMsg)
  rxSeq : Nat
  rx : SMap (Option RxMsg)
  post : SMap PostRing
  wire : List Byte
  ack : Option Nat
  nak : Option Nat
  control : List Byte
deriving DecidableEq, Repr

/-- The state of the part. -/
structure State where
  fuses : Fuses
  pd0 : Bool
  tb : TimeBase
  regs : SMap Word
  portA : PortState
  portB : PortState
  joint : JointState
  jobs : SMap PageJobs
  fences : SMap FenceState
  outbox : List Posting
  timeouts : SMap Bool
  lre : LreState
  power : PowerState
  heat : HeatState
  mem : Memory
  marks : SMap Mark
  dram : DramState
  regul : RegulatorState
  flg : FlagState
  sup : SupState
  jtag : JtagState
  mews : MewsState
  sema : SemaState
  strm : SMap StreamUnit
  endpoints : SMap Endpoint
  tc : SMap TcCore
  gen : GenState
  rings : SMap InRing
  fst : SMap FstCam
  eth : SMap EthState
  spi : SMap SpiState
  uart : SMap UartState
  canRecover : SMap Bool
  vis : SMap VisEng
  fus : FusState
  gsh : SMap GshRes
  gshRun : Option GshActive
  fsh : FshState
  met : Met
  mbr : Bridge
  plk : Link
  freeCtr : Nat
  pending : List Instr
deriving DecidableEq, Repr

/-- Why the machine stops. No command of the spec stops the part: a fault is raised only for an access the spec gives no
place to. -/
inductive Fault where
  /-- MEM_READ and MEM_WRITE raise it for a DPA that R81 leaves unmapped or gives to register space: no memory word exists
  there. Safe: the model stops where the spec names no effect. -/
  | unmapped (dpa : Nat)
deriving DecidableEq, Repr

/-- Why a command has no meaning. -/
inductive Refusal where
  /-- A command whose meaning is not written. Safe: the model stops. -/
  | notModelled (mnemonic : String)
deriving DecidableEq, Repr

/-! ### Reset -/

/-- Configuration space at its PCIe defaults. -/
def PortConfig.reset : PortConfig := ⟨false, false, 0, 0, 0, false, false, false, false, 128, false, false⟩

/-- A host port before its domain has come on. [DEDUCED, log entry 70] -/
def PortState.reset : PortState :=
  ⟨false, false, 0, 0, 0, 0, PortConfig.reset, [], [], [], [], [], [], 0, 0, [], false, 0⟩

/-- The compartment as it leaves manufacture, before MET_VIN: cover closed and sealed, no journey, its calendar not set.
[DESIGN CHOICE, log entries 183, 185] -/
def Met.reset : Met :=
  { vin := false, vbatMv := 3000, ms := 0, secs := 0, fastN := 0, fineN := 0, cycles := 0, sealOpen := false, sealLog := [],
    cal := ⟨⟨2000, 1, 1, 0, 0, 0⟩, ⟨0, 0, 0, 0, 0, 0⟩, none, true, false, false, 0, 0, 0, false⟩,
    fwCrc := 0x5A3C91E7, fwFault := false, paramFault := false, framFault := false, eventCtr := 0, audit := [], journeyNo := 0,
    journeyCount := 0, journeys := [], gapNext := 0, gapLog := [], params := [], odo := 0, legalRem := 0, journey := none,
    lossMs := 0, loss := ⟨[], 0⟩, chans := [], mailbox := [], toServe := 0, mbxRej := 0, wheelBlock := none, replies := [],
    statusAt := 0, blockSeq := 0, dataPath := [], sync := none, answer := .none, idShown := false }

/-- The machine at reset: a module without its supplies. Every register holds its reset value (an empty register file), every
memory byte reads as nothing has written it, nothing waits. MOD_EN_RISE and PD0_POWER_GOOD start it (R134, R642).
[DESIGN CHOICE, log entries 3, 4] -/
def State.reset : State :=
  { fuses := ⟨false, 2, 2⟩, pd0 := false,
    tb := ⟨0, 40 * 2 ^ 32, 0, 0, 0, 0, false, 0, 0, 0, false, []⟩,
    regs := [], portA := PortState.reset, portB := PortState.reset, joint := ⟨0⟩, jobs := [], fences := [], outbox := [],
    timeouts := [], lre := ⟨[], 0, 0, 0, 0⟩, power := ⟨false, false, [], false, 800, none, false, false, []⟩,
    heat := ⟨false, 0, false⟩, mem := ⟨[], []⟩, marks := [], dram := ⟨[], [], none, false, 0, [], [], [], false⟩,
    regul := ⟨0, [], [], 0, [], [], [], 0, [], 0⟩, flg := ⟨none, 0⟩,
    sup := ⟨false, false, false, 0, 0, 0, 800, false, 10, 0, 0, 0⟩, jtag := ⟨.testLogicReset, .idcode, [], [], false, []⟩,
    mews := ⟨[], [], [], []⟩, sema := ⟨[], []⟩, strm := [], endpoints := [], tc := [],
    gen := ⟨false, 0, 0, 0, 0, 0, 0, 0, 0, [], false, [], 0, 0, 0, [], [], false, 0, 0⟩,
    rings := [], fst := [], eth := [], spi := [], uart := [], canRecover := [], vis := [], fus := ⟨none, [], [], none⟩, gsh := [], gshRun := none,
    fsh := ⟨none, [], none, none, none⟩, met := Met.reset, mbr := ⟨0, none, 0, 0, 0, 0, none, none, false⟩,
    plk := ⟨0, false, false, 0, 0, [], 0, 0, 0, 0, [], 0, [], [], [], none, none, []⟩, freeCtr := 1, pending := [] }

end Sys2Proof.Machine
end

