-- ==== Sys2Proof/Machine/Ops.lean ====
section
/-!
DEFINITION. The named operations every command is written over: the time base's reading, the register file, the ports, the
pages' domains and readiness bits, and the queues of jobs. Events and counters stand in Machine/Flags.lean, memory in
Machine/Mem.lean.
-/
namespace Sys2Proof.Machine

/-! ### The end of a command -/

/-- A command has its effect: what it made of the state stands, but for the queue, which is the step's alone, and for the fuses
and the ROM, which are made with the part (R160, R638, R646). [DESIGN CHOICE, log entry 8] -/
def settle (s t : State) : Host.Outcome State Fault Refusal := .next { t with fuses := s.fuses, pending := s.pending }

/-! ### Page numbers named by the rules (R666) -/

def pgMGT : Nat := 0x000
def pgTB : Nat := 0x001
def pgFM : Nat := 0x002
def pgLRE : Nat := 0x003
def pgHP (p : Port) : Nat := 0x004 + p.num
def pgJNT : Nat := 0x006
def pgPWR : Nat := 0x008
def pgTHM : Nat := 0x009
def pgDMC (c : Nat) : Nat := 0x010 + c
def pgMREG : Nat := 0x01C
def pgRES : Nat := 0x01D
def pgFLG : Nat := 0x01E
def pgMEWS : Nat := 0x020
def pgSTRM (u : Nat) : Nat := 0x040 + u
def pgSEMA (k : Nat) : Nat := 0x060 + k
def pgTC (c : Nat) : Nat := 0x080 + c
def pgGEN : Nat := 0x084
def pgGSH : Nat := 0x0A0
def pgFUS : Nat := 0x0B0
def pgFSH : Nat := 0x0C0
def pgCSI (r : Nat) : Nat := 0x0D0 + r
def pgETH (m : Nat) : Nat := 0x0D8 + m
def pgCAN (c : Nat) : Nat := 0x0DA + c
def pgSPI (c : Nat) : Nat := 0x0DC + c
def pgUART (u : Nat) : Nat := 0x0DE + u
def pgGPIO : Nat := 0x0E0
def pgFST : Nat := 0x0E1
def pgMBR : Nat := 0x0F0
def pgPLK : Nat := 0x0F8

/-! ### Time (R43, R45) -/

/-- The TB value in whole nanoseconds. -/
def now (s : State) : Nat := s.tb.count / 2 ^ 32

/-- TB milliseconds between an earlier TB value and now. -/
def msSince (s : State) (t : Nat) : Nat := (now s - t) / 1000000

/-! ### Registers -/

/-- The register at an offset of a page, as its storage holds it. [DESIGN CHOICE, log entry 216] -/
def rd (s : State) (p off : Nat) : Word := s.regs.get (resetWord p off) (regKey p off)

/-- Hardware writes a whole register. [DESIGN CHOICE, log entry 216] -/
def wr (p off : Nat) (v : Word) (s : State) : State :=
  { s with regs := s.regs.put (resetWord p off) (regKey p off) v }

/-- The field [hi:lo] of a register. -/
def rdF (s : State) (p off hi lo : Nat) : Nat := fld (rd s p off) hi lo

/-- Hardware writes the field [hi:lo] of a register. -/
def wrF (p off hi lo v : Nat) (s : State) : State := wr p off (setFld (rd s p off) hi lo v) s

/-- Hardware writes a whole register from a number. -/
def wrN (p off v : Nat) (s : State) : State := wr p off (BitVec.ofNat 32 v) s

/-- One bit of a register. -/
def rdB (s : State) (p off i : Nat) : Bool := flag (rd s p off) i

/-- Hardware writes one bit of a register. -/
def wrB (p off i : Nat) (b : Bool) (s : State) : State := wrF p off i i (b2n b) s

/-- The 64-bit value of a `_LO`, `_HI` pair at `off`. -/
def rd64 (s : State) (p off : Nat) : Nat := (rd s p off).toNat + (rd s p (off + 4)).toNat * 2 ^ 32

/-- Hardware writes both halves of a pair in one instant. -/
def wr64 (p off v : Nat) (s : State) : State := wrN p (off + 4) (v / 2 ^ 32) (wrN p off v s)

/-! ### Ports -/

def State.port (s : State) (p : Port) : PortState := match p with | .a => s.portA | .b => s.portB

def State.setPort (s : State) (p : Port) (v : PortState) : State :=
  match p with | .a => { s with portA := v } | .b => { s with portB := v }

def State.modPort (s : State) (p : Port) (f : PortState → PortState) : State := s.setPort p (f (s.port p))

/-! ### Domains, pages and owners -/

/-- Domain `d` is on: PD0 while it has power, PD1 to PD8 by `PWR_DOM_STATE.ON`. -/
def domOn (s : State) (d : Nat) : Bool := s.pd0 && (decide (d = 0) || rdB s pgPWR 0x080 d)

/-- The page is assigned and its domain is on. -/
def pageOn (s : State) (p : Nat) : Bool := assigned p && domOn s (domainOf p)

/-- An applied order is about to switch the domain of a page off: the page accepts no job (R146). [DEDUCED, log entry 66] -/
def goingOff (s : State) (p : Nat) : Bool := s.power.switching.contains (domainOf p, false)

/-- The owner of a page (`PG_OWNER.PORT`, R119). -/
def owner (s : State) (p : Nat) : Port := Port.ofNum (rdF s p 0x028 0 0)

/-- `PG_READY` bits. -/
def ready (s : State) (p : Nat) : Bool := pageOn s p && rdB s p 0x008 0
def fenced (s : State) (p : Nat) : Bool := rdB s p 0x008 2
/-- `PG_CTRL.ENABLE` and QUIESCE. -/
def enabled (s : State) (p : Nat) : Bool := rdB s p 0x00C 0
def quiesce (s : State) (p : Nat) : Bool := rdB s p 0x00C 2

def FenceState.none : FenceState := ⟨false, 0, false, false, 0⟩

def fenceOf (s : State) (p : Nat) : FenceState := s.fences.get FenceState.none p

def setFence (p : Nat) (f : FenceState) (s : State) : State := { s with fences := s.fences.put FenceState.none p f }

/-- The page is fenced: from the write of FENCE 1 until a write of 0 takes effect (R629, R632). -/
def fenceBit (s : State) (p : Nat) : Bool := (fenceOf s p).active
/-- `PG_LOCK.LOCK`. -/
def locked (s : State) (p : Nat) : Bool := rdB s p 0x03C 0

/-! ### Jobs -/

def PageJobs.none : PageJobs := ⟨[], [], [], 0, 0⟩

/-- The queue, running job and finished jobs of a page. -/
def pageJobs (s : State) (p : Nat) : PageJobs := s.jobs.get PageJobs.none p

def setJobs (p : Nat) (j : PageJobs) (s : State) : State := { s with jobs := s.jobs.put PageJobs.none p j }

def modJobs (p : Nat) (f : PageJobs → PageJobs) (s : State) : State := setJobs p (f (pageJobs s p)) s

/-- The job a single-job page runs. -/
def running (s : State) (p : Nat) : Option Job := (pageJobs s p).running.head?

/-- A queued job of a page starts: it leaves the queue and runs, accepted by the engine now (R57, R87). -/
def startIf (p : Nat) (f : Job → Bool) (s : State) : State :=
  modJobs p (fun j => match j.queue.find? f with
    | some r =>
      { j with
        queue := j.queue.eraseP f, running := j.running ++ [{ r with accepted := now s }]
        progress := now s, started := j.started + 1 }
    | none => j) s

/-- The job at the head of a page's queue starts. -/
def startHead (p : Nat) (s : State) : State := startIf p (fun _ => true) s

/-- A job that is not the running one ends with a status, refused before it starts (R88). -/
def finishJob (p : Nat) (r : Job) (status detail : Nat) (s : State) : State :=
  modJobs p (fun j => { j with done := j.done ++ [⟨{ r with accepted := now s }, status, detail, now s, false, false, false, 0⟩] }) s

/-- The next free value of the spec's undefined results: advances the counter that picks it. [DESIGN CHOICE, log entry 7] -/
def nextFree (s : State) : State := { s with freeCtr := s.freeCtr + 1 }

end Sys2Proof.Machine
end

