-- ==== Sys2Proof/Machine/Operands.lean ====
section
/-!
DEFINITION. The operand forms of the spec: little-endian fields of descriptors and records (R5), the common job header
(R83), trigger targets (R84), the device physical address map (R81), and record layouts (R87, R91).
-/
namespace Sys2Proof.Machine

/-! ### Little-endian bytes -/

/-- The number a little-endian list of bytes spells. -/
def leNat : List Byte → Nat
  | [] => 0
  | b :: t => b.toNat + 256 * leNat t

/-- `n` little-endian bytes of `v`. -/
def leBytes : Nat → Nat → List Byte
  | 0, _ => []
  | n + 1, v => BitVec.ofNat 8 v :: leBytes n (v / 256)

/-- The number in `n` bytes at offset `o` of a record. -/
def leAt (bs : List Byte) (o n : Nat) : Nat := leNat ((bs.drop o).take n)

/-- Byte `o` of a record. -/
def byteAt (bs : List Byte) (o : Nat) : Nat := ((bs.drop o).headD 0).toNat

/-- Every byte of [o, o + n) is zero. -/
def zerosAt (bs : List Byte) (o n : Nat) : Bool := ((bs.drop o).take n).all (· == 0)

/-- Replaces the bytes from offset `o` on by `v`. -/
def patch (bs : List Byte) (o : Nat) (v : List Byte) : List Byte := bs.take o ++ v ++ bs.drop (o + v.length)

/-- `n` zero bytes. -/
def zeros (n : Nat) : List Byte := List.replicate n 0

/-- `f` applied `n` times. -/
def iter {α : Type} (f : α → α) : Nat → α → α
  | 0, x => x
  | n + 1, x => iter f n (f x)

/-! ### The common job header (R83) -/

def Job.id (j : Job) : Nat := leAt j.desc 0 4
/-- Descriptor byte 4: [5:0] OWNER, [7:6] ENGINE. -/
def Job.byte4 (j : Job) : Nat := byteAt j.desc 4
def Job.owner (j : Job) : Nat := bitsOf j.byte4 5 0
def Job.engine (j : Job) : Nat := bitsOf j.byte4 7 6
def Job.op (j : Job) : Nat := bitsOf (leAt j.desc 5 2) 9 0
def Job.flags (j : Job) : Nat := leAt j.desc 5 2
/-- FLAGS.RECOVERY, NOTIFY and TRIG_ON_ERROR. -/
def Job.recovery (j : Job) : Bool := bitOf j.flags 10
def Job.notify (j : Job) : Bool := bitOf j.flags 11
def Job.trigOnError (j : Job) : Bool := bitOf j.flags 12
def Job.deadline (j : Job) : Nat := leAt j.desc 8 8
def Job.complAddr (j : Job) : Nat := leAt j.desc 16 8
/-- Trigger target `i`: [7:0] page, [11:8] input, [12] VALID, [15:13] reserved. -/
def Job.trigger (j : Job) (i : Nat) : Nat := leAt j.desc (24 + 2 * i) 2

/-! ### The device physical address map (R81, R174) -/

/-- What lies at a device physical address. -/
inductive Space where
  | dram | resident | flags | registers | unmapped
deriving DecidableEq, Repr

def residentBase : Nat := 0x4000000000
def flagBase : Nat := 0x4005FF0000
def registerBase : Nat := 0x5000000000

/-- ECC is in force in the region of a DRAM address (`DMC_ECC_ON`, R170, R174). -/
def eccOn (s : State) (a : Nat) : Bool := rdB s (pgDMC 0) 0x108 (a / 2 ^ 31)

/-- The device physical address map, with the top 128 MiB of each 2 GiB region unmapped where ECC is in force. -/
def spaceOf (s : State) (a : Nat) : Space :=
  if a < 0x1000000000 then (if eccOn s a && decide (a % 2 ^ 31 ≥ 0x78000000) then .unmapped else .dram)
  else if a < residentBase then .unmapped
  else if a < flagBase then .resident
  else if a < 0x4006000000 then .flags
  else if a < registerBase then .unmapped
  else if a < 0x5004000000 then .registers
  else .unmapped

/-- [a, a + n) lies wholly in DRAM or wholly in resident-store data: first and last byte do, and so does the region the
bytes cross into. A range that would cross an unmapped hole has an end in the hole or on its other side.
[DEDUCED, log entry 39] -/
def isData (s : State) (a n : Nat) : Bool :=
  let e := a + (n - 1)
  match spaceOf s a, spaceOf s e with
  | .resident, .resident => true
  | .dram, .dram => ((List.range (e / 2 ^ 31 - a / 2 ^ 31)).all (fun i => !eccOn s ((a / 2 ^ 31 + i) * 2 ^ 31)))
  | _, _ => false

/-- The address is a data address: DRAM or resident-store data. -/
def dataAddr (s : State) (a : Nat) : Bool := isData s a 1

/-! ### Trigger targets (R84, R258, R273) -/

/-- The trigger inputs a page's chapter defines: four of a stream unit, of a tensor core, and of every vision page, of
fusion, Goshawk and Fishhawk. -/
def trigInputs (p : Nat) : Nat :=
  match kindOf p with
  | some k => if k = .strm ∨ k = .tc ∨ k = .wrp ∨ k = .pyr ∨ k = .hwk ∨ k = .owl ∨ k = .kes ∨ k = .gsh ∨ k = .fus ∨ k = .fsh
      then 4 else 0
  | none => 0

/-- A trigger target field is well formed: all zero, or valid and naming an input that exists, with no reserved bit. -/
def trigOk (t : Nat) : Bool :=
  if bitOf t 12 then decide (bitsOf t 15 13 = 0) && decide (bitsOf t 11 8 < trigInputs (bitsOf t 7 0))
  else decide (t = 0)

/-! ### Records -/

/-- The 32-byte completion record (R87). -/
def completionRecord (d : DoneJob) : List Byte :=
  leBytes 4 d.job.id ++ leBytes 2 d.status ++ leBytes 1 d.job.byte4 ++ [0] ++ leBytes 8 d.detail ++
    leBytes 8 d.job.accepted ++ leBytes 8 d.tEnd

/-- The 16-byte event record (R91). -/
def eventRecord (r : EvRec) : List Byte :=
  leBytes 8 r.tb ++ leBytes 4 (r.page % 2 ^ 12 + r.code % 2 ^ 12 * 2 ^ 12 + r.sev % 16 * 2 ^ 24 + b2n r.both * 2 ^ 28
    + b2n r.replay * 2 ^ 29) ++ leBytes 4 r.detail

end Sys2Proof.Machine
end

