-- ==== Sys2Proof/Machine/Flags.lean ====
section
/-!
DEFINITION. Every status flag the pages share: raising an event (the `PG_EVT` bits, the fault latch, the hardware clear of
ENABLE, the ports each record goes to), the counters and their wrap, the readiness bits, FAULT_N and the other pins.
-/
namespace Sys2Proof.Machine

/-! ### Severities and common codes (chapter 3) -/

def sevINFO : Nat := 1
def sevCORRECTED : Nat := 2
def sevDEGRADED : Nat := 3
def sevJOB : Nat := 4
def sevBLOCK : Nat := 5
def sevDEVICE : Nat := 6

def cJOB_END : Nat := 0x001
def cJOB_ABORT : Nat := 0x002
def cSTALL : Nat := 0x004
def cWAIT_DEP : Nat := 0x005
def cDEADLINE_MISS : Nat := 0x006
def cCMD_REJ : Nat := 0x007
def cNOT_OWNER : Nat := 0x008
def cLOCKED : Nat := 0x009
def cHW_CLEAR : Nat := 0x00A
def cBAD_ACCESS : Nat := 0x00B
def cREADY_CHANGE : Nat := 0x00C
def cCNT_WRAP : Nat := 0x00D
def cREG_TIMEOUT : Nat := 0x00E
def cEVT_TEST : Nat := 0x00F
def cTRIG_OVF : Nat := 0x010
def cTRIG_LOST : Nat := 0x011
def cSTALL_END : Nat := 0x012
def cFENCE_SLOW : Nat := 0x013

/-- The `PG_EVT` bit of a common code that has one. -/
def commonEvtBit (code : Nat) : Option Nat :=
  if code = 0x001 ∨ code = 0x002 then some (code - 1)
  else if 0x004 ≤ code ∧ code ≤ 0x00D then some (code - 1)
  else none

/-- The `PG_EVT` bit of a block code that its chapter gives one: GEN, FST and PLK (LINK_FAULT of PLK has none). -/
def blockEvtBit (k : PageKind) (code : Nat) : Option Nat :=
  match k with
  | .gen => if 0x100 ≤ code ∧ code ≤ 0x105 then some (16 + (code - 0x100)) else none
  | .fst => if 0x100 ≤ code ∧ code ≤ 0x103 then some (16 + (code - 0x100)) else none
  | .plk => if code = 0x100 then some 16 else if 0x102 ≤ code ∧ code ≤ 0x106 then some (16 + (code - 0x101)) else none
  | _ => none

/-- The `PG_EVT` bit that an event sets and that enables its record (R672): its own bit, or bit [2] for a fault without
one; none for an event below DEGRADED without a bit of its own, whose record is always posted. -/
def evtBit (p code sev : Nat) : Option Nat :=
  let own := if code < 0x100 then commonEvtBit code
    else match kindOf p with | some k => blockEvtBit k code | none => none
  match own with
  | some b => some b
  | none => if sevDEGRADED ≤ sev then some 2 else none

/-! ### Posting records -/

/-- A port's page holds a latched fault of BLOCK_FAULT or above (R619), or its link is down (R104): its records are also
posted to the other port. -/
def divertPort (s : State) (q : Port) : Bool :=
  (s.port q).down || (rdB s (pgHP q) 0x020 16 && decide (sevBLOCK ≤ rdF s (pgHP q) 0x020 15 12))

/-- Queues a record for its ports, widened by R104 and R619, stamped with the TB of the decision (R57). -/
def post (p code sev detail : Nat) (toA toB : Bool) (s : State) : State :=
  let a := toA || (toB && divertPort s .b)
  let b := toB || (toA && divertPort s .a)
  if a || b then
    { s with outbox := s.outbox ++ [⟨⟨now s, p, code, sev, a && b, false, detail % 2 ^ 32⟩, a, b⟩] }
  else s

/-- A record for one port. -/
def postTo (q : Port) (p code sev detail : Nat) (s : State) : State :=
  post p code sev detail (decide (q = .a)) (decide (q = .b)) s

/-- Sets an event's `PG_EVT` bit on a page whose domain is on (R671, R672). -/
def setEvt (p : Nat) (b : Option Nat) (s : State) : State :=
  match b with
  | none => s
  | some i => if pageOn s p then wrB p 0x014 i true s else s

/-- The event's record may be posted to the owner: its bit of `PG_EVT_EN` is 1, or it has none; a page whose domain is off
acts as if `PG_EVT_EN` held its reset value (R671, R672). -/
def evtEnabled (s : State) (p : Nat) (b : Option Nat) : Bool :=
  match b with
  | none => true
  | some i => if pageOn s p then rdB s p 0x018 i else bitOf 0xFFFF1FFE i

/-- Latches a fault in `PG_FAULT` and `PG_FAULT_INFO` of an assigned page, or sets MORE, which software alone clears (R67); a
strictly higher severity replaces the latched one (R64, R620). -/
def latch (p code sev detail : Nat) (s : State) : State :=
  if sev < sevDEGRADED || !assigned p then s
  else
    let v := rd s p 0x020
    let new : Nat := code % 2 ^ 12 + sev * 2 ^ 12 + 2 ^ 16
    if !flag v 16 then wrN p 0x024 detail (wrN p 0x020 (new + fld v 17 17 * 2 ^ 17) s)
    else if fld v 15 12 < sev then wrN p 0x024 detail (wrN p 0x020 (new + 2 ^ 17) s)
    else wrB p 0x020 17 true s

/-- The ports of an event's record (R62, R102, R120, R121, R557, R624, R672). LINK_DOWN and LINK_UP go to both ports whatever
`PG_EVT_EN` holds; R120 does not say whether bit [2] still gates LINK_DOWN. [DEDUCED, log entry 229] -/
def destOf (s : State) (p code sev : Nat) (b : Option Nat) : Bool × Bool :=
  if sevBLOCK ≤ sev then (true, true)
  else match kindOf p with
    | some .hp =>
      if code = 0x102 ∨ code = 0x103 then (true, true)
      else if evtEnabled s p b then (decide (p = 0x004), decide (p = 0x005)) else (false, false)
    | some .jnt =>
      if 0x100 ≤ code then (true, true)
      else if evtEnabled s p b then (decide (owner s p = .a), decide (owner s p = .b)) else (false, false)
    | some .mbr =>
      if 0x100 ≤ code ∧ code ≤ 0x102 then (true, true)
      else if evtEnabled s p b then (decide (owner s p = .a), decide (owner s p = .b)) else (false, false)
    | some .lre =>
      if code = 0x101 then (true, true)
      else if evtEnabled s p b then (decide (owner s p = .a), decide (owner s p = .b)) else (false, false)
    | _ => if evtEnabled s p b then (decide (owner s p = .a), decide (owner s p = .b)) else (false, false)

/-- The bookkeeping every event shares: its bit, its latch, its record; without the hardware clear of ENABLE. -/
def raiseOnly (p code sev detail : Nat) (s : State) : State :=
  let b := evtBit p code sev
  let d := destOf s p code sev b
  post p code sev detail d.1 d.2 (latch p code sev detail (setEvt p b s))

/-- A clearing condition meets a CFGH bit: it changes 1 to 0 and raises HW_CLEAR, or changes nothing (R68).
[DEDUCED, log entry 17] -/
def hwClear (p off i : Nat) (s : State) : State :=
  if rdB s p off i then raiseOnly p cHW_CLEAR sevINFO (off + i * 2 ^ 12) (wrB p off i false s) else s

/-- A clearing condition meets a CFGH bit that a software write of this instant has set: the write is lost (R68). -/
def hwClearLost (p off i : Nat) (s : State) : State :=
  if rdB s p off i then raiseOnly p cHW_CLEAR sevINFO (off + i * 2 ^ 12 + 2 ^ 21) (wrB p off i false s) else s

/-- Raises an event: at BLOCK_FAULT or above, hardware also clears `PG_CTRL.ENABLE` of the page (R64, `PG_CTRL`). -/
def raise (p code sev detail : Nat) (s : State) : State :=
  let t := raiseOnly p code sev detail s
  if sevBLOCK ≤ sev && pageOn t p then hwClear p 0x00C 0 t else t

/-- An access refusal (NOT_OWNER, LOCKED, CMD_REJ, BAD_ACCESS): sets its bit and posts to the accessing port, whatever
`PG_EVT_EN` holds (R62). -/
def refuse (q : Port) (p code detail : Nat) (s : State) : State :=
  postTo q p code sevINFO detail (setEvt p (commonEvtBit code) s)

/-- CMD_REJ for the command field whose lowest bit is `i` of the register at `off`. -/
def cmdRej (q : Port) (p off i : Nat) (s : State) : State := refuse q p cCMD_REJ (off + i * 2 ^ 12 + q.num * 2 ^ 20) s

/-! ### Counters (R71) -/

/-- `n` increments of the 32-bit counter at `off`; a wrap raises CNT_WRAP. -/
def incCnt (p off n : Nat) (s : State) : State :=
  let v := (rd s p off).toNat + n
  let t := wrN p off v s
  if 2 ^ 32 ≤ v then raise p cCNT_WRAP sevINFO off t else t

/-- `n` increments of the 64-bit counter over the pair at `off`; only its own wrap raises CNT_WRAP, naming `_LO`. -/
def incCnt64 (p off n : Nat) (s : State) : State :=
  let v := rd64 s p off + n
  let t := wr64 p off v s
  if 2 ^ 64 ≤ v then raise p cCNT_WRAP sevINFO off t else t

/-! ### Readiness -/

/-- `PG_READY` as a page reads it: DOMAIN_OFF alone while the domain is off (R79). -/
def readyWord (s : State) (p : Nat) : Nat := if pageOn s p then (rd s p 0x008).toNat else 0x10

/-- Changes `PG_READY` of a page; every change raises READY_CHANGE with the new value, once (R139). -/
def setReady (p v : Nat) (s : State) : State :=
  if (rd s p 0x008).toNat = v then s else raise p cREADY_CHANGE sevINFO v (wrN p 0x008 v s)

/-- Sets or clears one bit of `PG_READY`. -/
def setReadyBit (p i : Nat) (b : Bool) (s : State) : State :=
  setReady p (putBits (rd s p 0x008).toNat i i (b2n b)) s

/-! ### Progress and the end of a job (R628, `PG_READY.QUIESCED`) -/

/-- A stalled page makes progress again: STALLED clears and STALL_END gives the milliseconds since its last progress.
[DEDUCED, log entry 28] -/
def stallEnd (p : Nat) (s : State) : State :=
  if rdB s p 0x010 2 then raise p cSTALL_END sevINFO (satN 32 (msSince s (pageJobs s p).progress)) (wrB p 0x010 2 false s) else s

/-- The running job of a page makes progress: its stall timer starts again (R627). [DEDUCED, log entry 32] -/
def touch (p : Nat) (s : State) : State := modJobs p (fun j => { j with progress := now s }) (stallEnd p s)

/-- `PG_READY.QUIESCED` follows QUIESCE and the running jobs of a page that runs jobs. [DEDUCED, log entry 31] -/
def syncQuiesced (p : Nat) (s : State) : State :=
  let q := quiesce s p && (pageJobs s p).running.isEmpty
  if pageOn s p && rdB s p 0x008 3 != q then setReadyBit p 3 q s else s

/-- What the end of a page's last running job does: it is its last progress, and a quiesced page becomes QUIESCED. -/
def jobEnded (p : Nat) (s : State) : State :=
  if (pageJobs s p).running.isEmpty then syncQuiesced p (stallEnd p s) else s

/-- The first running job of a page that `f` selects ends with a status: it joins the finished jobs of the page, whose
completion follows (R87). -/
def finishIf (p : Nat) (f : Job → Bool) (status detail : Nat) (s : State) : State :=
  jobEnded p (modJobs p (fun j => match j.running.find? f with
    | some r => { j with running := j.running.eraseP f, done := j.done ++ [⟨r, status, detail, now s, false, false, false, j.started⟩] }
    | none => j) s)

/-- The running job of a single-job page ends with a status. -/
def finish (p status detail : Nat) (s : State) : State := finishIf p (fun _ => true) status detail s

/-! ### Pins -/

/-- A page's latched fault is severe (R618). -/
def severe (s : State) (p : Nat) : Bool := rdB s p 0x020 16 && decide (sevBLOCK ≤ rdF s p 0x020 15 12)

/-- FAULT_N is asserted: a severe latch on some page, or an entry in the last-resort store (R618). -/
def faultN (s : State) : Bool := s.pd0 && (allPages.any (severe s) || !s.lre.entries.isEmpty)

/-- THERM_ALERT_N and CRIT_N (R156, R157). -/
def thermAlertN (s : State) : Bool := rdB s pgTHM 0x0A8 0
def critN (s : State) : Bool := rdB s pgTHM 0x0A8 1

/-- SUP_ALERT_N (R650). -/
def supAlertN (s : State) : Bool := decide (s.sup.cause ≠ 0)

end Sys2Proof.Machine
end

