-- ==== Sys2Proof/Machine/Mem.lean ====
section
/-!
DEFINITION. Memory: the interleave over the DRAM controllers (R164, R165), when DRAM and the resident store can be used
(R140, R141, R169), reading and writing words with their error marks (R193 to R199), the bytes of wide accesses in one
place (R5), and the flags of flag space (R181 to R184).
-/
namespace Sys2Proof.Machine

/-! ### Controllers -/

/-- The map in force: 0xF the 12-way map, 0 to 11 the 11-way map without that controller (`DMC_MAP.IN_FORCE`). -/
def mapInForce (s : State) : Nat := rdF s (pgDMC 0) 0x100 3 0

/-- The controllers of a map, ascending (R164, R165). -/
def mapMembers (m : Nat) : List Nat := (List.range 12).filter (fun c => decide (m = 0xF ∨ c ≠ m))

/-- The controller that serves a DRAM address under map `m`: granule a / 256 taken over its members. -/
def controllerIn (m a : Nat) : Nat :=
  let l := mapMembers m
  l.getD ((a / 256) % l.length) 0

/-- The local address at that controller. -/
def localIn (m a : Nat) : Nat := (a / 256) / (mapMembers m).length * 256 + a % 256

def controllerOf (s : State) (a : Nat) : Nat := controllerIn (mapInForce s) a

/-- DRAM is ready: PD2 is on, every controller of the map in force reports READY, and no map change is in progress (R140,
R167, R169). -/
def dramReady (s : State) : Bool :=
  domOn s 2 && (mapMembers (mapInForce s)).all (fun c => ready s (pgDMC c)) && !rdB s (pgDMC 0) 0x100 8

/-- The region of the address is being initialised, so accesses to it are held (R175). -/
def regionBusy (s : State) (a : Nat) : Bool := decide (s.dram.initRegion = some (a / 2 ^ 31))

/-- An access to [a, a + n) can be served now. -/
def memUsable (s : State) (a n : Nat) : Bool :=
  match spaceOf s a with
  | .dram => isData s a n && dramReady s && !regionBusy s a && !regionBusy s (a + (n - 1))
  | .resident => isData s a n && ready s pgRES
  | _ => false

/-- A data address whose memory is ready, or no memory at all; used for the held jobs of R141. -/
def addrReady (s : State) (a : Nat) : Bool :=
  match spaceOf s a with
  | .dram => dramReady s
  | .resident => ready s pgRES
  | _ => true

/-! ### Words -/

/-- The bank of a resident-store address is bad (R178, R180). -/
def bankOf (a : Nat) : Nat := ((a - residentBase) / 64) % 48

def bankBad (s : State) (a : Nat) : Bool :=
  decide (residentBase ≤ a) && decide (a < 0x4006000000) && bitOf (rd64 s pgRES 0x084) (bankOf a)

/-- How a memory page reports a word: its page, the offsets of its CE, UE and poison counters, its codes and the word's
index (R201, R202, R205). -/
structure WordPage where
  page : Nat
  cnt : Nat
  codes : Nat
  scrub : Nat
  index : Nat
deriving DecidableEq, Repr

/-- The memory page of the word at `a`: the granule's controller, or RES. -/
def wordPage (s : State) (a : Nat) : WordPage :=
  if a < 0x1000000000 then ⟨pgDMC (controllerOf s a), 0x088, 0x102, 0x109, a / 32⟩
  else ⟨pgRES, 0x08C, 0x100, 0x104, (a - residentBase) / 8⟩

/-- The size of a word with a code: a granule of 32 bytes or a resident-store word of 8. -/
def wordSize (a : Nat) : Nat := if a < 0x1000000000 then 32 else 8

/-- The words with a code that [a, a + n) touches, ascending: granules of regions with ECC in force, words of the resident
store. An empty range touches none. -/
def codedWords (s : State) (a n : Nat) : List Nat :=
  let z := wordSize a
  let ws := (List.range (if n = 0 then 0 else (a + (n - 1)) / z + 1 - a / z)).map (fun i => (a / z + i) * z)
  if a < 0x1000000000 then ws.filter (eccOn s) else ws

/-- The fill of a DRAM address: that of the newest range that holds it; undefined until its first initialisation (R673). -/
def fillIn (a : Nat) : List FillRange → Fill
  | [] => .free 0
  | r :: t => if r.lo ≤ a ∧ a < r.hi then r.fill else fillIn a t

def Memory.fillOf (m : Memory) (a : Nat) : Fill := fillIn a m.fills

/-- What an unlisted byte reads as: 0, or a free value where the spec leaves DRAM undefined (R169, R175, R673).
[DESIGN CHOICE, log entry 5] -/
def Memory.unlisted (m : Memory) (a : Nat) : Byte :=
  if a < 0x1000000000 then (match m.fillOf a with | .zero => 0 | .free n | .work n => Config.freeByte n a) else 0

/-- The same where it is known. -/
def Memory.known (m : Memory) (a : Nat) : Option Byte :=
  if a < 0x1000000000 then (match m.fillOf a with | .zero => some 0 | _ => none) else some 0

/-- The byte at an address. [DESIGN CHOICE, log entry 5] -/
def getByte (s : State) (a : Nat) : Byte := s.mem.cells.get (s.mem.unlisted a) a

/-- Stores a byte. -/
def setByte (a : Nat) (b : Byte) (s : State) : State :=
  { s with mem := { s.mem with cells := s.mem.cells.putKnown (s.mem.known a) a b } }

/-- Stores bytes at ascending addresses; a byte that is not enabled keeps its place. -/
def setEnabled : Nat → List (Option Byte) → State → State
  | _, [], s => s
  | a, some b :: t, s => setEnabled (a + 1) t (setByte a b s)
  | a, none :: t, s => setEnabled (a + 1) t s

def setBytes (a : Nat) (bs : List Byte) (s : State) : State := setEnabled a (bs.map some) s

def getBytes (s : State) (a n : Nat) : List Byte := (List.range n).map (fun i => getByte s (a + i))

/-- What is wrong with a word that nothing is listed for: nothing, or, where the contents are undefined, whatever its code finds
(R175). -/
def unlistedMark (m : Memory) (w : Nat) : Mark :=
  if w < 0x1000000000 then
    (match m.fillOf w with
    | .zero | .work _ => .good
    | .free n => (match Config.freeMark n w with | 1 => .correctable | 2 => .uncorrectable | 3 => .poison | _ => .good))
  else .good

/-- The same where it is known. -/
def knownMark (m : Memory) (w : Nat) : Option Mark :=
  if w < 0x1000000000 then (match m.fillOf w with | .free _ => none | _ => some .good) else some .good

def markOf (s : State) (w : Nat) : Mark := s.marks.get (unlistedMark s.mem w) w

def setMark (w : Nat) (m : Mark) (s : State) : State := { s with marks := s.marks.putKnown (knownMark s.mem w) w m }

/-- Rewrites a word with the poison code (R199): zero data and a code no data has. -/
def poisonWord (w : Nat) (s : State) : State := setMark w .poison (setBytes w (zeros (wordSize w)) s)

/-- `DMC_LAST_ERR` or `RES_LAST_ERR` records a word (R195, R196). -/
def lastErr (g : WordPage) (ue : Bool) (s : State) : State :=
  wrN g.page 0x098 (g.index % 2 ^ 31 + b2n ue * 2 ^ 31) s

/-- A correctable error is corrected, written back, counted and reported (R194, R196). -/
def correctWord (w : Nat) (s : State) : State :=
  let g := wordPage s w
  raise g.page g.codes sevCORRECTED g.index (lastErr g false (incCnt g.page g.cnt 1 (setMark w .good s)))

/-- A fresh uncorrectable error becomes the poison code and is counted; the caller raises its event. -/
def condemnWord (w : Nat) (s : State) : State :=
  let g := wordPage s w
  lastErr g true (incCnt g.page (g.cnt + 8) 1 (incCnt g.page (g.cnt + 4) 1 (poisonWord w s)))

/-- The DRAM bytes from `lo` up to `hi` forget what is listed for them and their words' codes, and read as `v`. -/
def fillRange (lo hi : Nat) (v : Fill) (s : State) : State :=
  let hit (a : Nat) : Bool := decide (lo ≤ a) && decide (a < hi)
  { s with
    mem := ⟨s.mem.cells.dropKeys hit, ⟨lo, hi, v⟩ :: s.mem.fills.filter (fun r => !(decide (lo ≤ r.lo) && decide (r.hi ≤ hi)))⟩
    marks := s.marks.dropKeys hit }

/-- Reads one coded word: whether it returns POISON status, and what the read changes (R180, R196, R197). -/
def readWord (w : Nat) (s : State) : Bool × State :=
  if bankBad s w then (true, s)
  else match markOf s w with
    | .good => (false, s)
    | .correctable => (false, correctWord w s)
    | .uncorrectable =>
      let g := wordPage s w
      (true, raise g.page (g.codes + 1) sevJOB g.index (condemnWord w s))
    | .poison => (true, s)

/-- Reads words in ascending order; the first poisoned one is kept. -/
def readWords : List Nat → State → Option Nat × State
  | [], s => (none, s)
  | w :: t, s =>
    let r := readWord w s
    let q := readWords t r.2
    (if r.1 then some w else q.1, q.2)

/-! ### What every DRAM access counts (R173, `DMC_BYTES`) -/

/-- One access of `n` bytes at one controller: the bytes are counted, the controller leaves self-refresh.
[DEDUCED, log entry 89] -/
def countCtl (c n : Nat) (s : State) : State :=
  incCnt64 (pgDMC c) 0x0A0 n (wrB (pgDMC c) 0x080 3 false
    { s with dram := { s.dram with lastReq := s.dram.lastReq.put 0 c (now s) } })

/-- One interleave granule `g` of an access to [a, a + n), counted at its controller. -/
def countGranule (a n g : Nat) (s : State) : State :=
  let lo := max a (g * 256)
  countCtl (controllerOf s lo) (min (a + n) (g * 256 + 256) - lo) s

/-- The interleave granules of a DRAM access, each counted at its controller. -/
def countDram (a n : Nat) (s : State) : State :=
  if a < 0x1000000000 ∧ 0 < n then
    ((List.range ((a + (n - 1)) / 256 + 1 - a / 256)).map (fun (i : Nat) => a / 256 + i)).foldl
      (fun (t : State) (g : Nat) => countGranule a n g t) s
  else s

/-! ### Reading and writing bytes -/

/-- Reads `n` bytes at `a`: the bytes (a poisoned word reads zero), the DPA of the first poisoned word, the state after. -/
def readMem (a n : Nat) (s : State) : List Byte × Option Nat × State :=
  let r := readWords (codedWords s a n) (countDram a n s)
  (getBytes r.2 a n, r.1, r.2)

/-- The bytes of a write at `a` that fall in the word at `w` of size `z`: their first address and themselves. -/
def slice (a : Nat) (bs : List (Option Byte)) (w z : Nat) : Nat × List (Option Byte) :=
  let lo := max a w
  (lo, (bs.drop (lo - a)).take (w + z - lo))

/-- A write covers the whole word with every byte enabled (R193, R198). -/
def wholeWord (c : List (Option Byte)) (z : Nat) : Bool := decide (c.length = z) && c.all (·.isSome)

/-- Prepares one coded word for the bytes `c` of a write: whether they may be stored, and what the read-merge-write changes
(R180, R194, R195, R198). A word that no byte of the write touches is not read. -/
def prepWord (w : Nat) (c : List (Option Byte)) (s : State) : Bool × State :=
  let g := wordPage s w
  if c.all (·.isNone) then (true, s)
  else if bankBad s w then (false, raise g.page (g.codes + 2) sevJOB g.index s)
  else if wholeWord c (wordSize w) then (true, setMark w .good s)
  else match markOf s w with
    | .good => (true, s)
    | .correctable => (true, correctWord w s)
    | .uncorrectable => (false, raise g.page (g.codes + 2) sevJOB g.index (condemnWord w s))
    | .poison => (false, raise g.page (g.codes + 2) sevJOB g.index s)

/-- Writes coded words in ascending order. A job's write (`job`) stops at the first that cannot be written (R195); any other
writer's goes on, each refused word raising its own report (R180, R195). The DPA of the first refused word, and the state
after. -/
def writeWords (job : Bool) (a : Nat) (bs : List (Option Byte)) : List Nat → State → Option Nat × State
  | [], s => (none, s)
  | w :: t, s =>
    let c := slice a bs w (wordSize w)
    let r := prepWord w c.2 s
    if r.1 then writeWords job a bs t (setEnabled c.1 c.2 r.2)
    else if job then (some w, r.2)
    else (some w, (writeWords job a bs t r.2).2)

/-- Writes enabled bytes at `a`, ascending: byte by byte where no code is in force (R177), word by word where one is. The
DPA of the first word that could not be written, if any. A range that runs from a region without a code into one with a code
stores its uncoded bytes first. -/
def writeEnabled (job : Bool) (a : Nat) (bs : List (Option Byte)) (s : State) : Option Nat × State :=
  let t := countDram a bs.length s
  match codedWords t a bs.length with
  | [] => (none, setEnabled a bs t)
  | w :: ws => writeWords job a bs (w :: ws) (setEnabled a (bs.take (w - a)) t)

/-- A job writes bytes at `a`. -/
def writeMem (a : Nat) (bs : List Byte) (s : State) : Option Nat × State := writeEnabled true a (bs.map some) s

/-- Writes a record the part itself makes; nothing happens to a word that cannot be written but its own report. -/
def storeRecord (a : Nat) (bs : List Byte) (s : State) : State := (writeEnabled false a (bs.map some) s).2

/-! ### Flags (R181 to R184) -/

/-- The address of flag group `g`, and of the byte of flag `f`. -/
def groupAddr (g : Nat) : Nat := flagBase + 8 * g

/-- Flag `f` as its bit stands. -/
def flagValue (s : State) (f : Nat) : Bool := (getByte s (flagBase + f / 8)).toNat.testBit (f % 8)

/-- The word of flag `f` returns POISON status when read. -/
def flagPoisoned (s : State) (f : Nat) : Bool :=
  let w := groupAddr (f / 64)
  bankBad s w || decide (markOf s w = .poison) || decide (markOf s w = .uncorrectable)

/-- FLAG_POISON on the FLG page with the flag index (R184). -/
def flagPoison (f : Nat) (s : State) : State := raise pgFLG 0x100 sevJOB f s

/-- Sets or clears one flag: a partial write of its word. True where it was done; a refused one raises FLAG_POISON and
counts in `FLG_POISON_CNT` (R183, R195, R180). [DEDUCED, log entry 84] -/
def writeFlag (f : Nat) (v : Bool) (s : State) : Bool × State :=
  let w := groupAddr (f / 64)
  let a := flagBase + f / 8
  let r := prepWord w [some 0] s
  if r.1 then
    (true, setByte a (BitVec.ofNat 8 (putBits (getByte r.2 a).toNat (f % 8) (f % 8) (b2n v))) r.2)
  else (false, incCnt pgFLG 0x09C 1 (flagPoison f r.2))

end Sys2Proof.Machine
end

