-- ==== Sys2Proof/Machine/Regul.lean ====
section
/-!
DEFINITION. The memory regulator and its tags (R185 to R192): the classes, the intervals and the instants of admission, and every
access of a source to DRAM, which is admitted and counted in its class.
-/
namespace Sys2Proof.Machine

/-! ### Settings (R186, R191) -/

def guarOf (s : State) (n : Nat) : Nat := rdF s pgMREG (0x084 + 4 * n) 12 0
def capOf (s : State) (n : Nat) : Nat := rdF s pgMREG (0x084 + 4 * n) 28 16
def budgetOf (s : State) : Nat := rdF s pgMREG 0x080 12 0
def tagMin (s : State) (n : Nat) : Nat := rdF s pgMREG 0x0A4 (4 * n + 3) (4 * n)

/-- Settings honoured in descending class order within a limit: class 7 first; the class that would pass the limit receives
what remains, and every lower one 0 (R186, R191). -/
def honour (limit : Nat) (want : Nat → Nat) : List Nat → Nat → List (Nat × Nat)
  | [], _ => []
  | c :: t, used =>
    if used + want c ≤ limit then (c, want c) :: honour limit want t (used + want c)
    else (c, limit - used) :: t.map (fun (d : Nat) => (d, 0))

def classesDown : List Nat := [7, 6, 5, 4, 3, 2, 1, 0]

/-- The effective guarantees and reserves by class. -/
def effGuar (s : State) : List (Nat × Nat) := honour (budgetOf s) (guarOf s) classesDown 0
def effReserve (s : State) : List (Nat × Nat) := honour 3072 (fun c => 64 * tagMin s c) classesDown 0
def classVal (l : List (Nat × Nat)) (c : Nat) : Nat := match l.find? (fun e => e.1 = c) with | some e => e.2 | none => 0

/-- The highest class whose effective value lies below its setting. -/
def shortClass (l : List (Nat × Nat)) (want : Nat → Nat) : Option Nat := (l.find? (fun e => e.2 < want e.1)).map (·.1)
def guarShort (s : State) : Option Nat := shortClass (effGuar s) (guarOf s)
def tagShort (s : State) : Option Nat := shortClass (effReserve s) (fun c => 64 * tagMin s c)

/-! ### Classes and tags (R185, R187, R188) -/

def modRegul (f : RegulatorState → RegulatorState) (s : State) : State := { s with regul := f s.regul }

/-- The class of a source (R187): of a stream, the queue priority its running job latched (R233); 8 stands for the records of
R188. [DEDUCED, log entry 87] -/
def classOf (s : State) (r : ReqSource) : Nat :=
  let m (i : Nat) : Nat := rdF s pgMREG 0x0A8 (3 * i + 2) (3 * i)
  match r with
  | .stream u => streamClass u.val
  | .hostA => m 0 | .hostB => m 1 | .vision => m 2 | .goshawk => m 3 | .fusion => m 4 | .fishhawk => m 5
  | .generation => m 6 | .intake => m 7 | .dexvor => m 8 | .record => 8
where
  /-- `STRM_CFG.PRIO` as latched, or as it stands while no job runs. -/
  streamClass (u : Nat) : Nat :=
    match s.strm.find? (fun e => decide (e.1 = u)), (pageJobs s (pgSTRM u)).running with
    | some e, _ :: _ => fld e.2.cfg 2 0
    | _, _ => rdF s (pgSTRM u) 0x084 2 0

def heldBy (s : State) (c : Nat) : Nat := s.regul.tagsClass.get 0 c
def tagsUsed (s : State) : Nat := ((List.range 9).map (heldBy s)).foldl (· + ·) 0

/-- A tag is to be had for a request (R185). -/
def tagFree (s : State) (r : DramReq) : Bool :=
  let res := effReserve s
  let sum : Nat := (res.map (fun (e : Nat × Nat) => e.2)).foldl (· + ·) 0
  let unreserved : Nat := ((List.range 9).map (fun (c : Nat) => heldBy s c - classVal res c)).foldl (· + ·) 0
  decide (s.regul.tagsCtl.get 0 r.ctl < 512) && (decide (heldBy s r.cls < classVal res r.cls) || decide (unreserved < 4096 - sum))

/-! ### Intervals and instants (R189, R190) -/

/-- Bytes carried into the `m`th interval after one that ended with `n` bytes admitted against a limit (R190).
[DEDUCED, log entry 88] -/
def carryOver (limit n m : Nat) : Nat := min 768 (n - limit) - (m - 1) * limit

/-- The regulator at the interval of this instant: the counts start again, with what is carried. [DEDUCED, log entry 88] -/
def regulInterval (s : State) : RegulatorState :=
  let r := s.regul
  let m := now s / 1000 - r.start / 1000
  if m = 0 then r
  else
    { r with
      start := now s / 1000 * 1000, total := carryOver (100 * budgetOf s) r.total m
      admitted := classesDown.foldl (fun (a : SMap Nat) (c : Nat) =>
        a.put 0 c (if capOf s c = 0 then 0 else carryOver (100 * capOf s c) (r.admitted.get 0 c) m)) [] }

/-- The regulator at this instant: every admission of one instant is decided on the counts before it, so that together they may
cross a limit (R190). -/
def regulNow (s : State) : RegulatorState :=
  let r := regulInterval s
  if r.instant = s.tb.count then r else { r with instant := s.tb.count, admitted0 := r.admitted, total0 := r.total }

/-- The regulator moves to this instant; a new interval stops no class yet. -/
def openInstant (s : State) : State :=
  let t := modRegul (fun _ => regulNow s) s
  if now s / 1000 = s.regul.start / 1000 then t else wrF pgMREG 0x0B0 7 0 0 t

/-- Bytes a class, and all classes, have admitted in this interval before this instant. -/
def admittedBy (s : State) (c : Nat) : Nat := (regulNow s).admitted0.get 0 c
def totalBy (s : State) : Nat := (regulNow s).total0

/-- A class admits by its guarantee, or by the budget within its cap (R189). -/
def underGuar (s : State) (c : Nat) : Bool := decide (admittedBy s c < 100 * classVal (effGuar s) c)
def underCap (s : State) (c : Nat) : Bool :=
  decide (totalBy s < 100 * budgetOf s) && (decide (capOf s c = 0) || decide (admittedBy s c < 100 * capOf s c))

/-- The first waiting request of a class that has a tag. -/
def firstOf (s : State) (c : Nat) : Option DramReq := s.regul.waiting.find? (fun r => decide (r.cls = c) && tagFree s r)

/-- The request the regulator admits (R188, R189). -/
def pickRequest (s : State) : Option DramReq :=
  match firstOf s 8 with
  | some r => some r
  | none =>
    match classesDown.findSome? (fun c => if underGuar s c then firstOf s c else none) with
    | some r => some r
    | none => classesDown.findSome? (fun c => if underCap s c then firstOf s c else none)

/-- Bytes admitted to a class are counted (R189, `MREG_BYTESn`); records count nowhere (R188). -/
def countClass (c n : Nat) (s : State) : State :=
  if c = 8 then s
  else
    let sum := s.regul.remainder.get 0 c + n
    let t := modRegul (fun g =>
      { g with
        admitted := g.admitted.put 0 c (g.admitted.get 0 c + n), total := g.total + n
        remainder := g.remainder.put 0 c (sum % 4096) }) s
    if sum / 4096 = 0 then t else incCnt pgMREG (0x0C0 + 4 * c) (sum / 4096) t

/-- `MREG_STATUS`, `MREG_TAGS_USED` and `DMC_TAGS` as they follow from the regulator's state. -/
def regulStatus (s : State) : State :=
  let waits (c : Nat) : Bool := s.regul.waiting.any (fun r => decide (r.cls = c))
  let g := effGuar s
  let adm (c : Nat) : Nat := s.regul.admitted.get 0 c
  let atCap (c : Nat) : Bool := waits c && !decide (adm c < 100 * classVal g c) &&
    (!decide (s.regul.total < 100 * budgetOf s) || (decide (capOf s c ≠ 0) && !decide (adm c < 100 * capOf s c)))
  let below (c : Nat) : Bool := waits c && decide (adm c < 100 * classVal g c)
  let word (f : Nat → Bool) : Nat := ((List.range 8).map (fun (c : Nat) => b2n (f c) * 2 ^ c)).foldl (· + ·) 0
  let cap := rdF s pgMREG 0x0B0 7 0 ||| word atCap
  let t := wrN pgMREG 0x0AC (tagsUsed s) (wrN pgMREG 0x0B0 (cap + word below * 2 ^ 8) s)
  (List.range 12).foldl (fun (a : State) (c : Nat) => wrN (pgDMC c) 0x09C (s.regul.tagsCtl.get 0 c) a) t

/-! ### Accesses of the part's own sources -/

/-- The controllers that serve the bytes [a, a + n) of DRAM. -/
def controllersOf (s : State) (a n : Nat) : List Nat :=
  ((List.range (min 12 ((a + (n - 1)) / 256 + 1 - a / 256))).map (fun i => controllerOf s (a + 256 * i))).eraseDups

/-- The regulator picks a request of class `c`, whatever its controller, before what waits (R188, R189). -/
def classAdmits (s : State) (c : Nat) : Bool :=
  decide (c = 8) ||
    (if s.regul.waiting.isEmpty then underCap s c || underGuar s c
     else decide (pickRequest (modRegul (fun g => { g with waiting := g.waiting ++ [⟨c, 12, 0⟩] }) s) = some ⟨c, 12, 0⟩))

/-- The requests of an access of class `c` to DRAM are admitted in this instant: each of its controllers has a tag for it, and
the class admits (R185 to R190). [DESIGN CHOICE, log entry 86] -/
def admits (s : State) (c a n : Nat) : Bool :=
  (s.regul.tagsClass.isEmpty || (controllersOf s a n).all (fun k => tagFree s ⟨c, k, 0⟩)) && classAdmits s c

/-- A source can use the memory at [a, a + n) now. [DESIGN CHOICE, log entry 86] -/
def canUse (s : State) (src : ReqSource) (a n : Nat) : Bool :=
  memUsable s a n && (decide (0x1000000000 ≤ a) || admits s (classOf s src) a n)

/-- An access of a source is admitted: its DRAM bytes count in its class, as requested. Its tags come back with its end, in this
instant. -/
def useMem (src : ReqSource) (a n : Nat) (s : State) : State :=
  if 0x1000000000 ≤ a ∨ n = 0 then s else countClass (classOf s src) n (openInstant s)

/-- A source reads, and writes as a job or as a record does. -/
def readAs (src : ReqSource) (a n : Nat) (s : State) : List Byte × Option Nat × State := readMem a n (useMem src a n s)
def writeAs (src : ReqSource) (a : Nat) (bs : List Byte) (s : State) : Option Nat × State :=
  writeMem a bs (useMem src a bs.length s)
def storeAs (src : ReqSource) (a : Nat) (bs : List Byte) (s : State) : State := storeRecord a bs (useMem src a bs.length s)

/-- The source a host port is, and the source of the descriptor and list reads of a job: its port, or the sequencer that
submitted it (R290). -/
def srcPort (q : Port) : ReqSource := match q with | .a => .hostA | .b => .hostB
/-- [DEDUCED, log entry 87] -/
def srcJob (j : Job) : ReqSource := if j.ring = 17 then .generation else srcPort j.port

/-- The source stream unit `u` is, and the source the engine of page `p` is. -/
def srcUnit (u : Nat) : ReqSource := .stream (Fin.ofNat 32 u)
def srcPage (p : Nat) : ReqSource :=
  match kindOf p with
  | some .gsh => .goshawk
  | some .fus => .fusion
  | some .fsh => .fishhawk
  | _ => .vision

end Sys2Proof.Machine
end

