-- ==== Sys2Proof/Machine/RegFile.lean ====
section
/-!
DEFINITION. A host's access to the register file: the tests of R670 in their order, the field-by-field landing of one word
(R67 to R74), and what a read returns (R75 to R79).
-/
namespace Sys2Proof.Machine

/-- A host port can make accesses: PD1 is on and its link is up. [DEDUCED, log entry 38] -/
def portLive (s : State) (q : Port) : Bool := domOn s 1 && (s.port q).up

/-- The port that may write the register at an offset: the per-port pages and registers of R120 and R121, else the owner. -/
def writerOf (s : State) (p off : Nat) : Port :=
  match kindOf p with
  | some .hp => if p = 0x004 then .a else .b
  | some .jnt =>
    if 0x080 ≤ off ∧ off < 0x090 then .a else if 0x090 ≤ off ∧ off < 0x0A0 then .b else owner s p
  | _ => owner s p

/-- BAD_ACCESS with its reason (R75, R60, R79). [DESIGN CHOICE, log entry 14] -/
def badAccess (q : Port) (p off reason : Nat) (s : State) : State :=
  refuse q (p % 2 ^ 12) cBAD_ACCESS (off + reason * 2 ^ 12 + q.num * 2 ^ 20) s

/-- The tests of R670 after the form of the access: assignment, ownership, domain; then `k`. -/
def gateWrite (q : Port) (p off : Nat) (k : State → State) (s : State) : State :=
  if !portLive s q then s
  else if !assigned p then badAccess q p off 0x3 s
  else if writerOf s p off ≠ q then refuse q p cNOT_OWNER (off + q.num * 2 ^ 20) s
  else if !pageOn s p then badAccess q p off 0x4 s
  else k s

/-- LOCKED for a write to LCK fields of a locked page (R73). [DEDUCED, log entry 13] -/
def refuseLocked (q : Port) (p off : Nat) (s : State) : State := refuse q p cLOCKED (off + q.num * 2 ^ 20) s

/-- The value a register takes from a software write of `w`, field by field (R67, R70, R71, R73); CMD and STS bits and
reserved bits keep their stored value. -/
def landWord (fs : List Field) (lockedNow : Bool) (old w : Word) : Word :=
  let m := typeMask .cfg fs ||| typeMask .cfgh fs ||| typeMask .cnt fs ||| (if lockedNow then 0 else typeMask .lck fs)
  let e := typeMask .evt fs
  ((old &&& ~~~m) ||| (w &&& m)) &&& ~~~(w &&& e)

/-- Lands a software write of one word in the register file; LOCKED where its LCK fields are dropped. -/
def landAt (q : Port) (p off : Nat) (lockedNow : Bool) (w : Word) (s : State) : State :=
  let fs := fieldsAt p off
  let t := wr p off (landWord fs lockedNow (rd s p off) w) s
  if lockedNow && decide (typeMask .lck fs ≠ 0) then refuseLocked q p off t else t

/-- Writes the LCK fields of one register from a host, where the page is not locked. -/
def landLck (q : Port) (p off : Nat) (w : Word) (s : State) : State := landAt q p off (locked s p) w s

end Sys2Proof.Machine
end

