-- ==== Sys2Proof/Machine/Events.lean ====
section
/-!
DEFINITION. Event records on their way to the hosts: the event rings (R114 to R117), MSI-X (R95, R118), the last-resort event
store (R623 to R626), and the links, PERST and Function Level Reset of the ports (R102 to R104).
-/
namespace Sys2Proof.Machine

/-! ### Private state of the rings -/

def CmdRing.fresh : CmdRing := ⟨0, 16, 0, 0, false, false, 0⟩
def EvtRing.fresh : EvtRing := ⟨0, 64, 0, 0, 0⟩
/-- A vector is masked by default, as the PCIe standard has it (R102). [PRESUMED, log entry 214] -/
def MsixEntry.fresh : MsixEntry := ⟨0, 0, true⟩

def cmdRing (s : State) (q : Port) (n : Nat) : CmdRing := (s.port q).cmd.get CmdRing.fresh n
def evtRing (s : State) (q : Port) (m : Nat) : EvtRing := (s.port q).evt.get EvtRing.fresh m
def setCmdRing (q : Port) (n : Nat) (r : CmdRing) (s : State) : State :=
  s.modPort q (fun p => { p with cmd := p.cmd.put CmdRing.fresh n r })
def setEvtRing (q : Port) (m : Nat) (r : EvtRing) (s : State) : State :=
  s.modPort q (fun p => { p with evt := p.evt.put EvtRing.fresh m r })

/-- Offsets of the registers of command ring `n` and event ring `m`. -/
def crOff (n o : Nat) : Nat := 0x100 + 0x20 * n + o
def erOff (m o : Nat) : Nat := 0x300 + 0x20 * m + o

def crEnabled (s : State) (q : Port) (n : Nat) : Bool := rdB s (pgHP q) (crOff n 0x08) 31
def erEnabled (s : State) (q : Port) (m : Nat) : Bool := rdB s (pgHP q) (erOff m 0x08) 31
def erHead (s : State) (q : Port) (m : Nat) : Nat := rdF s (pgHP q) (erOff m 0x0C) 15 0 % (evtRing s q m).depth
def erTail (s : State) (q : Port) (m : Nat) : Nat := rdF s (pgHP q) (erOff m 0x10) 15 0

/-! ### MSI-X -/

def msixEntry (s : State) (q : Port) (v : Nat) : MsixEntry := (s.port q).msix.get MsixEntry.fresh v

/-- The function may send messages: MSI-X is enabled and it masters the bus in D0. [PRESUMED, log entry 37] -/
def msixLive (c : PortConfig) : Bool := c.msixEnable && c.busMaster && !c.d3hot

/-- Sends a vector's message, or sets its pending bit while it or the function is masked (R118); a port whose host has not
enabled MSI-X sends nothing. -/
def sendMsix (q : Port) (v : Nat) (s : State) : State :=
  if !msixLive (s.port q).config then s
  else if (msixEntry s q v).masked || (s.port q).config.msixMask then s.modPort q (fun p => { p with pending := p.pending.put false v true })
  else s.modPort q (fun p => { p with sent := p.sent.put 0 v (p.sent.get 0 v + 1) })

/-- The vectors of `vs` that are pending and not masked send their messages. -/
def sendPending (q : Port) (vs : List Nat) (s : State) : State :=
  vs.foldl (fun t v =>
    if (t.port q).pending.get false v && !(msixEntry t q v).masked && msixLive (t.port q).config && !(t.port q).config.msixMask then
      sendMsix q v (t.modPort q (fun p => { p with pending := p.pending.put false v false }))
    else t) s

/-- A ring sends its vector and counts no record as unsignalled (R118). [DEDUCED, log entry 35] -/
def signalRing (q : Port) (m : Nat) (s : State) : State :=
  sendMsix q (rdF s (pgHP q) (erOff m 0x08) 13 8) (setEvtRing q m { evtRing s q m with unsent := 0 } s)

/-- A record written while the link is up counts as unsignalled, and the MOD_COUNT-th sends the vector (R103, R118). -/
def countUnsent (q : Port) (m : Nat) (s : State) : State :=
  if !(s.port q).up then s
  else
    let r := evtRing s q m
    let n := r.unsent + 1
    let t := setEvtRing q m { r with unsent := n, oldest := if r.unsent = 0 then now s else r.oldest } s
    if atLeast n (rdF s (pgHP q) (erOff m 0x08) 23 16) then signalRing q m t else t
where
  /-- MOD_COUNT reached; 0 acts as 1. -/
  atLeast (n c : Nat) : Bool := decide (max 1 c ≤ n)

/-! ### Event rings -/

/-- The lowest-numbered enabled override of a port that names a page (R114). -/
def overrideRing (s : State) (q : Port) (page : Nat) : Option Nat :=
  ((List.range 4).find? (fun i => rdB s (pgHP q) (0x094 + 4 * i) 15 && decide (rdF s (pgHP q) (0x094 + 4 * i) 11 0 = page))).map
    (fun i => rdF s (pgHP q) (0x094 + 4 * i) 13 12)

/-- The ring of a port that a record goes to (R114). -/
def selectRing (s : State) (q : Port) (r : EvRec) : Nat :=
  let byRoute := rdF s (pgHP q) 0x090 (2 * (r.sev - 1) + 1) (2 * (r.sev - 1))
  if r.sev ≤ sevDEGRADED then (overrideRing s q r.page).getD byRoute else byRoute

/-- The ring is full (R116). -/
def erFull (s : State) (q : Port) (m : Nat) : Bool :=
  decide ((erTail s q m + 1) % (evtRing s q m).depth = erHead s q m)

/-- The slot of the next record can be written (R117). -/
def erUsable (s : State) (q : Port) (m : Nat) : Bool :=
  canUse s .record ((evtRing s q m).base + 16 * erTail s q m) 16

/-- A record that finds its ring full or disabled is dropped and counted (R116). -/
def dropRecord (q : Port) (m : Nat) (s : State) : State :=
  let r := evtRing s q m
  incCnt (pgHP q) (erOff m 0x14) 1 (setEvtRing q m { r with dropped := r.dropped + 1 } s)

/-- Writes a record at TAIL and advances TAIL (R115); true where the memory took it. -/
def writeRecord (q : Port) (m : Nat) (r : EvRec) (s : State) : Bool × State :=
  let w := writeAs .record ((evtRing s q m).base + 16 * erTail s q m) (eventRecord r) s
  match w.1 with
  | some _ => (false, w.2)
  | none =>
    (true, countUnsent q m (incCnt (pgHP q) (erOff m 0x1C) 1
      (wrN (pgHP q) (erOff m 0x10) ((erTail s q m + 1) % (evtRing s q m).depth) w.2)))

/-- RING_OVERFLOW with the number dropped, written ahead of the first record after drops (R116), with BOTH where the port's
records also go to the other one (R104, R619). [DEDUCED, log entry 34] -/
def overflowRecord (s : State) (q : Port) (m : Nat) : EvRec :=
  ⟨now s, pgHP q, 0x101, sevINFO, divertPort s q, false, satN 28 (evtRing s q m).dropped + m * 2 ^ 28⟩

/-- Delivers a record to its ring: dropped, written, or not taken by the memory (false, R117). -/
def toRing (q : Port) (r : EvRec) (s : State) : Bool × State :=
  let m := selectRing s q r
  if !erEnabled s q m || erFull s q m then (true, dropRecord q m s)
  else if !erUsable s q m then (false, s)
  else if (evtRing s q m).dropped = 0 then writeRecord q m r s
  else
    let o := overflowRecord s q m
    let w := writeRecord q m o s
    if !w.1 then w
    else
      let t := setEvtRing q m { evtRing w.2 q m with dropped := 0 } w.2
      let t := if divertPort s q then copyOverflow q o t else t
      if erFull t q m then (true, dropRecord q m t)
      else if !erUsable t q m then (false, t)
      else writeRecord q m r t
where
  /-- A port that R104 or R619 diverts: the other port gets the record as well. -/
  copyOverflow (q : Port) (o : EvRec) (t : State) : State :=
    { t with outbox := t.outbox ++ [⟨o, decide (q = .b), decide (q = .a)⟩] }

/-! ### The last-resort event store -/

/-- The store holds an entry for a port. -/
def lreHolds (s : State) (q : Port) : Bool :=
  s.lre.entries.any (fun e => match q with | .a => e.toA | .b => e.toB)

/-- Stores a record for the ports given, or drops it when the store is full; LRE_ENTERED when it leaves empty (R623, R624). -/
def lreStore (r : EvRec) (toA toB : Bool) (s : State) : State :=
  if 64 ≤ s.lre.entries.length then
    incCnt pgLRE 0x084 1 { s with lre := { s.lre with dropped := s.lre.dropped + 1 } }
  else
    let t := incCnt pgLRE 0x08C 1 { s with lre := { s.lre with entries := s.lre.entries ++ [⟨r, toA, toB⟩] } }
    if s.lre.entries.isEmpty then
      raise pgLRE 0x100 sevDEGRADED (b2n toA + 2 * b2n toB) { t with lre := { t.lre with delivered := 0, discarded := 0 } }
    else t

/-- Posts a record to one port if it is for it: true where it must go to the last-resort store (R117, R623). -/
def postPort (q : Port) (want : Bool) (r : EvRec) (s : State) : Bool × State :=
  if !want then (false, s)
  else if lreHolds s q then (true, s)
  else
    let t := toRing q r s
    (!t.1, t.2)

/-- Posts one decided record to its ports. -/
def postRecord (e : Posting) (s : State) : State :=
  let a := postPort .a e.toA e.record s
  let b := postPort .b e.toB e.record a.2
  if a.1 || b.1 then lreStore e.record a.1 b.1 b.2 else b.2

/-- EVENT_POST (R115): the oldest decided record. -/
def execEventPost (s : State) : Host.Outcome State Fault Refusal :=
  settle s (match s.outbox with
    | [] => s
    | e :: t => postRecord e { s with outbox := t })

/-- MSIX_MODERATION_TIMEOUT (R118); with MOD_US 0 the oldest unsignalled record has waited long enough at once.
[DEDUCED, log entry 35] -/
def execMsixModerationTimeout (q : Port) (ring : Fin 4) (s : State) : Host.Outcome State Fault Refusal :=
  let us := rdF s (pgHP q) (erOff ring.val 0x18) 15 0
  let r := evtRing s q ring.val
  settle s (if portLive s q && erEnabled s q ring.val && decide (r.unsent ≠ 0) &&
      decide (r.oldest + us * 1000 ≤ now s) then signalRing q ring.val s else s)

/-- The ring of a stored record can take a delivery: it is disabled, or its memory can be written (R625). -/
def canReplay (s : State) (q : Port) (want : Bool) (r : EvRec) : Bool :=
  !want || (let m := selectRing s q r; !erEnabled s q m || erFull s q m || erUsable s q m)

/-- Delivers a record to a port that can take it; true where it stays to deliver. -/
def replayPort (q : Port) (want : Bool) (r : EvRec) (s : State) : Bool × State :=
  if want && canReplay s q want r then
    let t := toRing q { r with replay := true } s
    (!t.1, t.2)
  else (want, s)

/-- LRE_EMPTY's detail: entries delivered and discarded since LRE_ENTERED, saturating (R625). -/
def lreEmpty (s : State) : State :=
  raise pgLRE 0x102 sevINFO (satN 16 s.lre.delivered + satN 16 s.lre.discarded * 2 ^ 16) s

/-- LRE_OVERFLOW ahead of the first delivery after drops (R624), to both ports; a port whose ring memory cannot be written
gets it through the store. [DEDUCED, log entry 34] -/
def lreOverflow (s : State) : State :=
  if s.lre.dropped = 0 then s
  else
    let r : EvRec := ⟨now s, pgLRE, 0x101, sevINFO, true, false, satN 32 s.lre.dropped⟩
    let t := { s with lre := { s.lre with dropped := 0 } }
    let a := replayFresh .a r t
    let b := replayFresh .b r a.2
    if a.1 || b.1 then lreStore r a.1 b.1 b.2 else b.2
where
  /-- The record itself, not a replayed copy. -/
  replayFresh (q : Port) (r : EvRec) (s : State) : Bool × State :=
    if canReplay s q true r then let t := toRing q r s; (!t.1, t.2) else (true, s)

/-- The oldest entry leaves the store; OLDEST advances. -/
def lrePop (s : State) : State :=
  { s with lre := { s.lre with entries := s.lre.entries.tail, oldest := (s.lre.oldest + 1) % 64 } }

/-- Delivers entries in order, at most `n`, until one cannot be delivered to a port it is still for (R625). -/
def lreDeliver : Nat → State → State
  | 0, s => s
  | n + 1, s =>
    match s.lre.entries with
    | [] => s
    | e :: t =>
      let a := replayPort .a e.toA e.record s
      let b := replayPort .b e.toB e.record a.2
      if a.1 || b.1 then { b.2 with lre := { b.2.lre with entries := { e with toA := a.1, toB := b.1 } :: t } }
      else
        let u := lrePop b.2
        let v := { u with lre := { u.lre with delivered := u.lre.delivered + 1 } }
        if v.lre.entries.isEmpty then lreEmpty v else lreDeliver n v

/-- LRE_REPLAY (R625): nothing while the oldest entry's ring holds the store back. -/
def execLreReplay (s : State) : Host.Outcome State Fault Refusal :=
  settle s (match s.lre.entries with
    | [] => s
    | e :: _ =>
      if (e.toA && canReplay s .a e.toA e.record) || (e.toB && canReplay s .b e.toB e.record) then
        lreDeliver s.lre.entries.length (lreOverflow s)
      else s)

/-- A write of `LRE_DISCARD` (R626). -/
def effLreDiscard (q : Port) (n : Nat) (s : State) : State :=
  if n = 0 ∨ s.lre.entries.length < n then cmdRej q pgLRE 0x088 0 s
  else
    let t := { s with lre := { s.lre with entries := s.lre.entries.drop n, oldest := (s.lre.oldest + n) % 64,
                                          discarded := s.lre.discarded + n } }
    if t.lre.entries.isEmpty then lreEmpty t else t

/-- LRE_DISCARD (R626). -/
def execLreDiscard (q : Port) (n : Nat) (s : State) : Host.Outcome State Fault Refusal :=
  settle s (gateWrite q pgLRE 0x088 (effLreDiscard q (n % 128)) s)

/-! ### Links and resets of a port -/

/-- A port's configuration space, MSI-X table and Pending Bit Array return to their PCIe defaults (R102). -/
def portDefaults (q : Port) (s : State) : State :=
  s.modPort q (fun p => { p with config := PortConfig.reset, msix := [], pending := [] })

/-! ### Configuration space (R93) -/

/-- `Device ID` of a port, the class code, and the sizes of the three BARs. -/
def deviceId (q : Port) : Nat := 0x7360 + q.num
def classCode : Nat := 0x120000
def barSize (n : Fin 3) : Nat := if n = 0 then 2 ^ 26 else if n = 1 then 2 ^ 32 else 2 ^ 14

/-- A 64-bit BAR as it reads: its base, 64-bit memory space, prefetchable for BAR2. -/
def barWord (c : PortConfig) (n : Fin 3) : Nat :=
  (if n = 0 then c.bar0 else if n = 1 then c.bar2 else c.bar4) + (if n = 1 then 0xC else 0x4)

/-- A word of the Type 0 header; the words the spec gives no value to are 0. [PRESUMED, log entry 230] -/
def cfgWord (c : PortConfig) (q : Port) (off : Nat) : Nat :=
  if off = 0x00 then Config.vendorId.toNat + deviceId q * 2 ^ 16
  else if off = 0x04 then b2n c.memory * 2 + b2n c.busMaster * 4 + 2 ^ 20
  else if off = 0x08 then Config.revisionId.toNat + classCode * 2 ^ 8
  else if off = 0x10 ∨ off = 0x14 then barWord c 0 / 2 ^ (8 * (off - 0x10)) % 2 ^ 32
  else if off = 0x18 ∨ off = 0x1C then barWord c 1 / 2 ^ (8 * (off - 0x18)) % 2 ^ 32
  else if off = 0x20 ∨ off = 0x24 then barWord c 2 / 2 ^ (8 * (off - 0x20)) % 2 ^ 32
  else 0

/-- What a host sets in configuration space; a base loses the bits below its BAR's size, a payload is at most 256 bytes. -/
def setConfig (c : PortConfig) : CfgAccess → PortConfig
  | .command m b => { c with memory := m, busMaster := b }
  | .bar n a =>
    let v := a % 2 ^ 64 / barSize n * barSize n
    if n = 0 then { c with bar0 := v } else if n = 1 then { c with bar2 := v } else { c with bar4 := v }
  | .msix e m => { c with msixEnable := e, msixMask := m }
  | .power d => { c with d3hot := d }
  | .aspm l => { c with aspmL1 := l }
  | .payload n => { c with payload := min n 256 }
  | .ecrc g k => { c with ecrcGen := g, ecrcCheck := k }
  | .read _ => c

/-- One access of a host to its port's configuration space; pending messages go out where it lifts what held them. -/
def cfgAccess (q : Port) (a : CfgAccess) (s : State) : State :=
  let c := (s.port q).config
  let t := s.modPort q (fun p => { p with config := setConfig c a })
  match a with
  | .read off => t.modPort q (fun p => { p with readData := cfgWord c q off, readEP := false })
  | _ => sendPending q (List.range 64) t

/-- The accesses a host makes to configure its port, in order. -/
def configure (q : Port) (l : List CfgAccess) (s : State) : State := l.foldl (fun t a => cfgAccess q a t) s

/-- LINK_DOWN (R102, R104): the port enters DL_Down. [DEDUCED, log entry 36] -/
def execLinkDown (q : Port) (s : State) : Host.Outcome State Fault Refusal :=
  settle s (if portLive s q then
    let t := portDefaults q (s.modPort q (fun p => { p with
      up := false, down := true, downAt := now s, speed := 0, width := 0, held := p.held.filter (·.data.isSome) }))
    raise (pgHP q) 0x102 sevDEGRADED 0 (incCnt (pgHP q) 0x0A4 1 (wrN (pgHP q) 0x080 0 t))
  else s)

/-- The link speed a port trains to: Gen3 at most with the PCIE_GEN3 strap (R637). -/
def trainedSpeed (s : State) (speed : Nat) : Nat := if rdB s pgMGT 0x08C 1 then min speed 3 else speed

/-- `HPx_DOWN_MS`: milliseconds since DL_Down, saturating; 0 while up and before the first (R104). [DEDUCED, log entry 36] -/
def downMs (s : State) (q : Port) : Nat := if (s.port q).down then satN 32 (msSince s (s.port q).downAt) else 0

/-- LINK_UP (R104): the link returns to DL_Up, and the host configures the port. -/
def execLinkUp (q : Port) (speed width : Nat) (cfg : List CfgAccess) (s : State) : Host.Outcome State Fault Refusal :=
  settle s (if domOn s 1 && !(s.port q).up then
    let g := trainedSpeed s speed
    let ms := downMs s q
    let t := s.modPort q (fun p => { p with up := true, down := false, upAt := if p.down then now s else 0, speed := g, width := width })
    configure q cfg (raise (pgHP q) 0x103 sevINFO ms (wrN (pgHP q) 0x080 (1 + g * 2 + width * 16) t))
  else s)

/-- The ENABLE fields of all rings of a port are cleared (R102), each from 1 to 0 with HW_CLEAR (R68).
[PRESUMED, log entry 214] -/
def clearRings (q : Port) (s : State) : State :=
  let t := (List.range 16).foldl (fun u n => hwClear (pgHP q) (crOff n 0x08) 31 u) s
  (List.range 4).foldl (fun u m => hwClear (pgHP q) (erOff m 0x08) 31 u) t

/-- PERST (R102); the host then configures the port where its link is up. -/
def execPerst (q : Port) (cfg : List CfgAccess) (s : State) : Host.Outcome State Fault Refusal :=
  settle s (if domOn s 1 then
    let t := clearRings q (portDefaults q s)
    if (s.port q).up then configure q cfg t else t
  else s)

/-- FLR (R102); the host then configures the port. -/
def execFlr (q : Port) (cfg : List CfgAccess) (s : State) : Host.Outcome State Fault Refusal :=
  settle s (if portLive s q then configure q cfg (raise (pgHP q) 0x105 sevINFO 0 (clearRings q (portDefaults q s))) else s)

/-- UNSUPPORTED_REQUEST (R93, R10): a Type 1 vendor message is discarded silently, everything else completes as an
Unsupported Request, which the port's error reporting counts. -/
def execUnsupportedRequest (q : Port) (kind : TlpKind) (s : State) : Host.Outcome State Fault Refusal :=
  settle s (if portLive s q && decide (kind ≠ .vendorType1) then
    s.modPort q (fun p => { p with unsupported := p.unsupported + 1 })
  else s)

/-- An MSI-X table entry with the word at `offset` of BAR4 written: address low, address high, data, vector control ([0]
mask). -/
def msixWritten (e : MsixEntry) (offset w : Nat) : MsixEntry :=
  if offset % 16 = 0 then { e with addr := e.addr / 2 ^ 32 * 2 ^ 32 + w }
  else if offset % 16 = 4 then { e with addr := e.addr % 2 ^ 32 + w * 2 ^ 32 }
  else if offset % 16 = 8 then { e with data := w }
  else { e with masked := bitOf w 0 }

/-- A word of BAR4 (R95): the table at 0x0000, the Pending Bit Array at 0x2000, 0 elsewhere. -/
def bar4Word (s : State) (q : Port) (offset : Nat) : Nat :=
  let e := msixEntry s q (offset / 16)
  if offset < 1024 then
    (if offset % 16 = 0 then e.addr % 2 ^ 32
     else if offset % 16 = 4 then e.addr / 2 ^ 32 % 2 ^ 32
     else if offset % 16 = 8 then e.data % 2 ^ 32
     else b2n e.masked)
  else if 0x2000 ≤ offset ∧ offset < 0x2008 then
    ((List.range 32).map (fun i => b2n ((s.port q).pending.get false (8 * (offset - 0x2000) + i)) * 2 ^ i)).foldl (· + ·) 0
  else 0

/-- MSIX_TABLE_WRITE (R95): a 32-bit access at `offset` of BAR4: a write of the table, where unmasking a vector whose pending
bit is set sends its message, or a read. The Pending Bit Array and the rest of BAR4 are not written. -/
def execMsixTableWrite (q : Port) (offset : Nat) (value : Option Word) (s : State) : Host.Outcome State Fault Refusal :=
  settle s (if portLive s q && decide (offset < 2 ^ 14) && decide (offset % 4 = 0) then
    match value with
    | none => s.modPort q (fun p => { p with readData := bar4Word s q offset, readEP := false })
    | some w =>
      if offset < 1024 then
        let e := msixWritten (msixEntry s q (offset / 16)) offset w.toNat
        sendPending q [offset / 16] (s.modPort q (fun p => { p with msix := p.msix.put MsixEntry.fresh (offset / 16) e }))
      else s
  else s)

end Sys2Proof.Machine
end

