-- ==== Sys2Proof/Machine/Aperture.lean ====
section
/-!
DEFINITION. The data aperture of a host port (R96 to R101): what an access does once its memory can be used, and the accesses
that are held until then.
-/
namespace Sys2Proof.Machine

/-- `HPx_AP_BASE`. -/
def apBase (s : State) (q : Port) : Nat :=
  rdF s (pgHP q) 0x088 31 16 * 2 ^ 16 + rdF s (pgHP q) 0x08C 7 0 * 2 ^ 32

/-- BAR2_POISON with the 64-byte line of the word at `a`. -/
def bar2Poison (q : Port) (a : Nat) (s : State) : State :=
  let line := if a < 0x1000000000 then a / 64 else (a - residentBase) / 64 + 2 ^ 31
  raise (pgHP q) 0x104 sevINFO line s

/-- BAD_ACCESS of an aperture access, on the port's own page, with the low bits of its BAR2 offset (R97).
[DEDUCED, log entries 39, 40] -/
def apRefuse (q : Port) (offset : Nat) (s : State) : State := badAccess q (pgHP q) (offset % 4096) 0x3 s

/-- An aperture read is served: its bytes, EP and BAR2_POISON where a word is poisoned (R99). -/
def apRead (q : Port) (a len : Nat) (s : State) : State :=
  let r := readAs (srcPort q) a len s
  let t := r.2.2.modPort q (fun p => { p with readBytes := r.1, readEP := r.2.1.isSome })
  match r.2.1 with
  | some w => bar2Poison q w t
  | none => t

/-- An aperture write is served under the partial-write rules; a word that cannot be written is told to the port, and the
others are written (R99, R180, R195). -/
def apWrite (q : Port) (a : Nat) (data : List (Option Byte)) (s : State) : State :=
  let w := writeEnabled false a data (useMem (srcPort q) a data.length s)
  match w.1 with
  | some x => bar2Poison q x w.2
  | none => w.2

/-- A decided aperture access: refused outside data memory (R97), held while its memory is (R169, R175) or until the regulator
admits it (R189), else served. The answer
says whether it stays held. -/
def apServe (q : Port) (h : HeldAccess) (s : State) : Bool × State :=
  if !isData s h.dpa h.len then
    (false, apRefuse q h.offset (if h.data.isNone then s.modPort q (fun p => { p with readBytes := zeros h.len, readEP := false }) else s))
  else if !canUse s (srcPort q) h.dpa h.len then (true, s)
  else match h.data with
    | none => (false, apRead q h.dpa h.len s)
    | some d => (false, apWrite q h.dpa d s)

/-- The held accesses of a port, in the order decided: those whose memory can be used are served, the others stay. -/
def serveHeld (q : Port) (s : State) : State :=
  (s.port q).held.foldl (fun t h =>
    let r := apServe q h t
    if r.1 then t.modPort q (fun p => { p with held := p.held ++ [h] }) else r.2)
    (s.modPort q (fun p => { p with held := [] }))

/-- An aperture access that its port decides now, at the base of this instant (R98), after those held before it that can be
served (R100). -/
def apDecide (q : Port) (offset len : Nat) (data : Option (List (Option Byte))) (s : State) : State :=
  let t := serveHeld q s
  let h : HeldAccess := ⟨offset, apBase s q + offset, len, data⟩
  let r := apServe q h t
  if r.1 then t.modPort q (fun p => { p with held := p.held ++ [h] }) else r.2

/-- Memory has become usable: the aperture accesses held for it are served (R98, R100, R169, R175).
[DESIGN CHOICE, log entry 231] -/
def serveApertures (s : State) : State := serveHeld .b (serveHeld .a s)

/-- APERTURE_READ (R97 to R99). [DESIGN CHOICE, log entry 211] -/
def execApertureRead (q : Port) (offset len : Nat) (s : State) : Host.Outcome State Fault Refusal :=
  settle s (if !portLive s q || decide (len = 0) || decide (4096 < len) || decide (2 ^ 32 < offset + len) then s
    else apDecide q offset len none s)

/-- APERTURE_WRITE (R97 to R100). -/
def execApertureWrite (q : Port) (offset : Nat) (data : List (Option Byte)) (s : State) : Host.Outcome State Fault Refusal :=
  settle s (if !portLive s q || decide (data.length = 0) || decide (256 < data.length) || decide (2 ^ 32 < offset + data.length) then s
    else apDecide q offset data.length (some data) s)

end Sys2Proof.Machine
end

