-- ==== Sys2Proof/Machine/Calendar.lean ====
section
/-!
DEFINITION. Calendar arithmetic of the compartment (chapter 19): the Gregorian rule, the step of one second, the check of a
staged value, stamps, and the digits of the port's lines.
-/
namespace Sys2Proof.Machine

/-- A leap year (R581). -/
def leapYear (y : Nat) : Bool := decide (y % 4 = 0) && (decide (y % 100 ≠ 0) || decide (y % 400 = 0))

/-- The days of a month (R581). -/
def monthDays (y m : Nat) : Nat :=
  if m = 2 then (if leapYear y then 29 else 28) else if m = 4 ∨ m = 6 ∨ m = 9 ∨ m = 11 then 30 else 31

/-- The calendar after a lost battery (R594). -/
def CalTime.epoch : CalTime := ⟨2000, 1, 1, 0, 0, 0⟩

/-- The upper bound (R585). -/
def CalTime.top : CalTime := ⟨2399, 12, 31, 23, 59, 59⟩

/-- One second later, carrying as R581 requires (R583). -/
def CalTime.next (t : CalTime) : CalTime :=
  if t.second < 59 then { t with second := t.second + 1 }
  else if t.minute < 59 then { t with minute := t.minute + 1, second := 0 }
  else if t.hour < 23 then { t with hour := t.hour + 1, minute := 0, second := 0 }
  else if t.day < monthDays t.year t.month then ⟨t.year, t.month, t.day + 1, 0, 0, 0⟩
  else if t.month < 12 then ⟨t.year, t.month + 1, 1, 0, 0, 0⟩
  else ⟨t.year + 1, 1, 1, 0, 0, 0⟩

/-- Days from 2000-01-01 (R584). -/
def CalTime.days (t : CalTime) : Nat :=
  let y := t.year - 2000
  let leaps := if y = 0 then 0 else (y - 1) / 4 + 1 - ((y - 1) / 100) + (y - 1) / 400
  365 * y + leaps + ((List.range (t.month - 1)).map (fun (i : Nat) => monthDays t.year (i + 1))).foldl (· + ·) 0 + (t.day - 1)

/-- The day of the week, 1 Monday to 7 Sunday (R584). -/
def CalTime.dow (t : CalTime) : Nat := (t.days + 5) % 7 + 1

/-- The first failing check of R588; 0 where all hold. -/
def CalTime.failing (t : CalTime) : Nat :=
  if t.year < 2000 ∨ 2399 < t.year then 1
  else if t.month < 1 ∨ 12 < t.month then 2
  else if t.day < 1 ∨ monthDays t.year t.month < t.day then 3
  else if 23 < t.hour then 4
  else if 59 < t.minute then 5
  else if 59 < t.second then 6
  else 0

/-- A calendar stamp's eight bytes. -/
def CalTime.stamp (t : CalTime) (ended : Bool) : List Byte :=
  leBytes 2 t.year ++ [t.month, t.day, t.hour, t.minute, t.second, b2n ended].map (BitVec.ofNat 8)

/-- The ASCII bytes of a text. -/
def ascii (t : String) : List Byte := t.toList.map (fun (c : Char) => BitVec.ofNat 8 c.toNat)

/-- A number in `n` decimal digits. -/
def decDigits : Nat → Nat → List Byte
  | 0, _ => []
  | n + 1, v => decDigits n (v / 10) ++ [BitVec.ofNat 8 (0x30 + v % 10)]

/-- A hex digit, upper case. -/
def hexAscii (v : Nat) : Byte := BitVec.ofNat 8 (if v < 10 then 0x30 + v else 0x37 + v)

/-- A CRC-32 in the two-group form of R9, bits [31:16] first. -/
def crcText (v : Nat) : List Byte :=
  let d (i : Nat) : Byte := hexAscii (v / 16 ^ i % 16)
  [d 7, d 6, d 5, d 4, 0x20, d 3, d 2, d 1, d 0]

/-- Bytes in hex, in groups of 8 digits (R553). -/
def hexGroups : List Byte → List Byte
  | a :: b :: c :: d :: t =>
    let g := [a, b, c, d].flatMap (fun (x : Byte) => [hexAscii (x.toNat / 16), hexAscii (x.toNat % 16)])
    if t.isEmpty then g else g ++ [0x20] ++ hexGroups t
  | xs => xs.flatMap (fun (x : Byte) => [hexAscii (x.toNat / 16), hexAscii (x.toNat % 16)])

/-- The number a run of decimal digits stands for; none where a byte is no digit. -/
def digitsVal : List Byte → Nat → Option Nat
  | [], acc => some acc
  | b :: t, acc => if 0x30 ≤ b.toNat ∧ b.toNat ≤ 0x39 then digitsVal t (10 * acc + (b.toNat - 0x30)) else none

/-- The six fields of `YYYY-MM-DDThh:mm:ss`; none where the line is malformed (R587). -/
def parseStage (t : List Byte) : Option CalTime :=
  let f (o n : Nat) : Option Nat := digitsVal ((t.drop o).take n) 0
  let sepsOk := t.length == 19 && t.getD 4 0 == 0x2D && t.getD 7 0 == 0x2D && t.getD 10 0 == 0x54 && t.getD 13 0 == 0x3A &&
    t.getD 16 0 == 0x3A
  if !sepsOk then none
  else match f 0 4, f 5 2, f 8 2, f 11 2, f 14 2, f 17 2 with
    | some y, some mo, some d, some h, some mi, some se => some ⟨y, mo, d, h, mi, se⟩
    | _, _, _, _, _, _ => none

/-- A date and time in ISO 8601 extended form. -/
def CalTime.iso (t : CalTime) : List Byte :=
  decDigits 4 t.year ++ [0x2D] ++ decDigits 2 t.month ++ [0x2D] ++ decDigits 2 t.day ++ [0x54] ++ decDigits 2 t.hour ++
    [0x3A] ++ decDigits 2 t.minute ++ [0x3A] ++ decDigits 2 t.second

/-- `MET_CAL_STATE`. [DEDUCED, log entry 191] -/
def Calendar.stateWord (c : Calendar) : Nat :=
  b2n c.unset + 2 * b2n c.ended + 4 * b2n c.pending.isSome + 8 * b2n c.invalid + 16 * (c.rejField % 8)

end Sys2Proof.Machine
end

