-- ==== Sys2Proof/Machine/WheelMath.lean ====
section
/-!
DEFINITION. The arithmetic of the wheel channels' decimation chain (chapter 18): the CIC, halfband and FIR stages with their
rounding and saturation, over integers.
-/
namespace Sys2Proof.Machine

/-- Sums of every `n` consecutive elements, oldest first: one stage of (1 + z^-1 + … + z^-(n-1)). -/
def boxSums (n : Nat) : List Int → List Int
  | [] => []
  | x :: t => if (x :: t).length < n then [] else ((x :: t).take n).foldl (· + ·) 0 :: boxSums n t

/-- Σ c_i x_i of two lists of one length. -/
def dot : List Int → List Int → Int
  | c :: cs, x :: xs => c * x + dot cs xs
  | _, _ => 0

/-- The newest `n` elements of a list kept oldest first. -/
def newest {α : Type} (n : Nat) (xs : List α) : List α := xs.drop (xs.length - n)

/-- Arithmetic shift right after adding half of the divisor (R568). -/
def roundShift (k : Nat) (x : Int) : Int := (x + 2 ^ (k - 1)) / 2 ^ k

/-- The 24-bit range of the fine stages (R568). -/
def sat24 (x : Int) : Int := clampI (-8388608) 8388607 x

/-- The bits' values: b taken as 2b − 1 (R562); bit 0 of the sixteen is the oldest. -/
def bitVals (b : BitVec 16) : List Int := (List.range 16).map (fun (i : Nat) => if b.getLsbD i then (1 : Int) else -1)

/-- The raw fast sample: the CIC of R565 over the 46 newest bits. -/
def fastRaw (bits : List Int) : Int := ((boxSums 16 (boxSums 16 (boxSums 16 (newest 46 bits)))).headD 0)

/-- The saturated fast sample. -/
def fastSat (x : Int) : Int := clampI (-4096) 4095 x

/-- The four raw CIC5 outputs of one fine period, oldest first: the fifth-order CIC over the 508 newest bits, at every 64th. -/
def cic5Raw (bits : List Int) : List Int :=
  let y := boxSums 64 (boxSums 64 (boxSums 64 (boxSums 64 (boxSums 64 (newest 508 bits)))))
  [y.getD 0 0, y.getD 64 0, y.getD 128 0, y.getD 192 0]

/-- The halfband coefficients by offset from the centre (R569). -/
def halfSide : List Int := [41209, 0, -12308, 0, 5964, 0, -2975, 0, 1350, 0, -472]
def halfCoef : List Int := halfSide.reverse ++ [65536] ++ halfSide

/-- The FIR coefficients by offset from the centre (R570). -/
def firSide : List Int :=
  [39281, 11854, -7594, -8710, 0, 4916, 2328, -1781, -2189, 0, 1206, 536, -377, -421, 0, 217, 115]
def firCoef : List Int := firSide.reverse ++ [52310] ++ firSide

/-- The unsaturated halfband and FIR outputs over the newest inputs. -/
def halfRaw (xs : List Int) : Int := roundShift 17 (dot halfCoef (newest 23 xs))
def firRaw (xs : List Int) : Int := roundShift 17 (dot firCoef (newest 35 xs))

/-- One fine period of a channel's fine path: the new stage histories, the fine sample, and which of the stages CIC5,
halfband and FIR saturated (R568, R573). -/
def finePath (bits cic half : List Int) : List Int × List Int × Int × Bool × Bool × Bool :=
  let raw := (cic5Raw bits).map (roundShift 7)
  let x := raw.map sat24
  let c2 := newest 23 (cic ++ x.take 2)
  let c4 := newest 23 (c2 ++ x.drop 2)
  let h1 := halfRaw c2
  let h2 := halfRaw c4
  let half' := newest 35 (half ++ [sat24 h1, sat24 h2])
  let f := firRaw half'
  (c4, half', sat24 f, decide (x ≠ raw), decide (sat24 h1 ≠ h1 ∨ sat24 h2 ≠ h2), decide (sat24 f ≠ f))

end Sys2Proof.Machine
end

