-- ==== Sys2Proof/Machine/Compartment.lean ====
section
/-!
DEFINITION. The sealed measuring compartment (chapters 17 to 19): its crystal time and cycle, FRAM records and their tags,
seal, parameters, journeys, wheel channels, calendar, mailbox, data path and verification port.
-/
namespace Sys2Proof.Machine

/-! ### State and time -/

/-- A wheel channel right after power-up. [DESIGN CHOICE, log entry 184] -/
def WheelCh.fresh : WheelCh :=
  { bits := List.replicate 508 0, cic := List.replicate 23 0, half := List.replicate 35 0, fast := [], fine := [],
    beyond := 0, within := 0, isOpen := false, fineBadTo := 0, switchAt := 0, below := none, hyst := 12, level := 0,
    hits := [], badMs := [], levelMs := [], remainder := 0, pulses := 0, opens := 0, satJ := 0, satP := 0,
    fastSettling := false, fineSettling := false, levelFault := false, valid := false }

def Calendar.fresh : Calendar := ⟨CalTime.epoch, ⟨0, 0, 0, 0, 0, 0⟩, none, true, false, false, 0, 0, 0, false⟩

/-- What FRAM holds for a parameter before anything was written: the values of the worked case of chapter 17, inputs off
(DESIGN CHOICE). [DESIGN CHOICE, log entry 183] -/
def paramInit (off : Nat) : Nat :=
  if 0x20 ≤ off ∧ off < 0x30 then 4000 else if 0x30 ≤ off ∧ off < 0x40 then 8 else if 0x40 ≤ off ∧ off < 0x50 then 2000
  else if off = 0x50 then 3 else 0

/-- The CRC-32 kept with a parameter copy. -/
def paramCrc (v : Nat) : Nat := Crypto.crc32 (leBytes 4 v)

def Param.of (v : Nat) : Param := ⟨v, (v, paramCrc v), (v, paramCrc v)⟩

/-- The offsets of the parameters (R538). -/
def paramOffs : List Nat :=
  [0x20, 0x24, 0x28, 0x2C, 0x30, 0x34, 0x38, 0x3C, 0x40, 0x44, 0x48, 0x4C, 0x50, 0x54, 0x58, 0x5C, 0x60]

def Met.param (m : Met) (off : Nat) : Param := m.params.get (Param.of (paramInit off)) off
def Met.setParam (off : Nat) (v : Param) (m : Met) : Met := { m with params := m.params.put (Param.of (paramInit off)) off v }
def Met.k (m : Met) (c : Nat) : Nat := (m.param (0x20 + 4 * c)).value
def Met.teeth (m : Met) (c : Nat) : Nat := (m.param (0x30 + 4 * c)).value
def Met.circ (m : Met) (c : Nat) : Nat := (m.param (0x40 + 4 * c)).value
def Met.mask (m : Met) : Nat := (m.param 0x50).value
def Met.input (m : Met) (c : Nat) : Nat := (m.param (0x54 + 4 * c)).value
def Met.inMask (m : Met) (c : Nat) : Bool := bitOf m.mask c

def Met.chan (m : Met) (c : Nat) : WheelCh := m.chans.get WheelCh.fresh c
def Met.setChan (c : Nat) (w : WheelCh) (m : Met) : Met := { m with chans := m.chans.put WheelCh.fresh c w }
/-- Every channel goes through `f`. -/
def Met.mapChans (f : Nat → WheelCh → WheelCh) (m : Met) : Met :=
  (List.range 4).foldl (fun (a : Met) (c : Nat) => a.setChan c (f c (a.chan c))) m

def modMet (f : Met → Met) (s : State) : State := { s with met := f s.met }
def modCal (f : Calendar → Calendar) (s : State) : State := modMet (fun m => { m with cal := f m.cal }) s

/-- Crystal time in fast periods of 3.90625 µs (R563). [DESIGN CHOICE, log entry 167] -/
def Met.ct (m : Met) : Nat := m.ms * 256 + m.fastN % 256

/-- A second boundary of the crystal has come that the calendar has not yet acted on (R583). [DEDUCED, log entry 172] -/
def Met.secDue (m : Met) : Bool := decide (m.secs < m.ms / 1000)

/-- The calendar stamp of this instant. -/
def calStamp (s : State) : List Byte := s.met.cal.live.stamp s.met.cal.ended

/-- The TB of crystal time `t`: the last synchronised TB plus the crystal time since (R552); none was ever given: a free
value. [DEDUCED, log entry 173] -/
def tbStamp (s : State) (t : Nat) : Nat :=
  match s.met.sync with
  | some y => (y.1 + (t - y.2) * 15625 / 4) % 2 ^ 64
  | none => Config.freeNat s.freeCtr % 2 ^ 64

/-- No sync has arrived for 1 s (R552). [DEDUCED, log entry 173] -/
def Met.tbStale (m : Met) : Bool := match m.sync with | some y => decide (256000 ≤ m.ct - y.2) | none => true

/-- The stamp of this instant. -/
def stampNow (s : State) : Stamp := ⟨calStamp s, tbStamp s s.met.ct⟩

/-! ### Records (R550, R559) -/

/-- A record with its tag: HMAC-SHA-256 over the serial number and every byte before the tag, leftmost 128 bits (R550).
[DESIGN CHOICE, log entry 210] -/
def tagOf (body : List Byte) : List Byte :=
  (Crypto.hmac (leBytes 32 Config.metKey.toNat) (leBytes 8 Config.metSerial.toNat ++ body)).take 16

def signed (body : List Byte) : List Byte := body ++ tagOf body

/-- The audit trail is full (R541). -/
def Met.auditFull (m : Met) : Bool := decide (1024 ≤ m.audit.length)

/-- Writes an audit record and counts it (R542, R559); where the trail is full, nothing. -/
def auditRecord (kind off : Nat) (cal old new : List Byte) (s : State) : State :=
  if s.met.auditFull then s
  else
    let ctr := satN 32 (s.met.eventCtr + 1)
    let body := leBytes 4 ctr ++ leBytes 1 kind ++ leBytes 1 off ++ zeros 2 ++ cal ++ old ++ new ++
      leBytes 8 (tbStamp s s.met.ct) ++ zeros 8
    nextFree (modMet (fun m => { m with eventCtr := ctr, audit := m.audit ++ [signed body] }) s)

/-- The old and new values of an audit record to which the spec gives none: free values. [DESIGN CHOICE, log entry 176] -/
def freeOld (s : State) : List Byte := leBytes 8 (Config.freeNat (s.freeCtr + 1))
/-- [DESIGN CHOICE, log entry 176] -/
def freeNew (s : State) : List Byte := leBytes 8 (Config.freeNat (s.freeCtr + 2))

/-- An audit record of a kind whose old and new values the spec does not state. -/
def auditPlain (kind : Nat) (cal : List Byte) (s : State) : State :=
  iter nextFree 2 (auditRecord kind 0 cal (freeOld s) (freeNew s) s)

def jfOPEN : Nat := 0
def jfSEAL_OPENED : Nat := 1
def jfGAP : Nat := 2
def jfTB_STALE : Nat := 3
def jfPOWER_GAP : Nat := 4
def jfCAL_END : Nat := 5
def jfSAT : Nat := 6

def Journey.flag (i : Nat) (j : Journey) : Journey := { j with flags := j.flags ||| 2 ^ i }
def modJourney (f : Journey → Journey) (s : State) : State := modMet (fun m => { m with journey := m.journey.map f }) s

/-- The flags a stamp taken now gives the open journey's record: TB_STALE and CAL_END (R552, R585). -/
def stampFlags (s : State) : State :=
  modJourney (fun j =>
    let a := if s.met.tbStale then j.flag jfTB_STALE else j
    if s.met.cal.ended then a.flag jfCAL_END else a) s

/-- The 96 bytes of a journey record as they stand now (R559). -/
def journeyBytes (s : State) (j : Journey) (stop : Stamp) : List Byte :=
  signed (leBytes 4 j.no ++ leBytes 2 j.flags ++ leBytes 2 (satN 16 j.gapCount) ++ leBytes 4 j.hostRef ++ leBytes 4 j.eventCtr ++
    j.start.cal ++ stop.cal ++ leBytes 8 j.start.tb ++ leBytes 8 stop.tb ++ leBytes 4 (j.dist / 10000) ++
    leBytes 4 ((s.met.ms - j.startMs) / 1000) ++ leBytes 4 (s.met.odo / 10000) ++ leBytes 4 (satN 32 j.gapMs) ++
    leBytes 4 j.gapFirst ++ leBytes 4 s.met.fwCrc ++ zeros 8)

/-- Rewrites the open journey's record in FRAM with its running values (R546, R549). [DEDUCED, log entry 175] -/
def rewriteJourney (s : State) : State :=
  let t := stampFlags s
  match t.met.journey with
  | none => s
  | some j => nextFree (modMet (fun m => { m with journeys := m.journeys.put [] (j.no % 1024) (journeyBytes t j (stampNow t)) }) t)

/-- Writes one gap entry (R547, R548, R559) and marks the open journey. [DEDUCED, log entries 174, 192] -/
def writeGap (ch cause : Nat) (start stop : Stamp) (s : State) : State :=
  match s.met.journey with
  | none => s
  | some j =>
    let n := s.met.gapNext
    let body := leBytes 4 n ++ leBytes 4 j.no ++ leBytes 1 ch ++ leBytes 1 cause ++ zeros 6 ++ start.cal ++ stop.cal ++
      leBytes 8 start.tb ++ leBytes 8 stop.tb
    modJourney (fun j =>
        { ((j.flag jfGAP).flag (8 + ch)) with
          gapCount := j.gapCount + 1
          gapFirst := if j.gapFirst = 0xFFFFFFFF then n else j.gapFirst })
      (modMet (fun m => { m with gapNext := n + 1, gapLog := m.gapLog.put [] (n % 512) (signed body) }) s)

/-! ### Seal (R532 to R535) -/

/-- An accepted change of the jumper is audited, or counted where the trail is full, and marks an open journey. -/
def recordSeal (toOpen : Bool) (cal : List Byte) (s : State) : State :=
  let t := if s.met.auditFull then modMet (fun m => { m with eventCtr := satN 32 (m.eventCtr + 1) }) s
    else auditPlain (if toOpen then 1 else 2) cal s
  if toOpen then modJourney (Journey.flag jfSEAL_OPENED) t else t

/-- SEAL_CHANGE: a position stable for 20 ms is accepted; under MET_VIN it acts as the seal step of a cycle.
[DEDUCED, log entry 171] -/
def execSealChange (toOpen : Bool) (s : State) : Host.Outcome State Fault Refusal :=
  if s.met.sealOpen = toOpen then .next s
  else if !s.met.vin then
    settle s (modMet (fun m => { m with sealOpen := toOpen, sealLog := m.sealLog ++ [(toOpen, calStamp s)] }) s)
  else if s.met.secDue || decide (s.met.toServe ≠ 0) then .next s
  else
    let t := modMet (fun m => { m with sealOpen := toOpen }) s
    let t := if toOpen then t else modCal (fun c => { c with pending := none }) t
    settle s (recordSeal toOpen (calStamp s) t)

/-! ### Causes, alert, LED (R534, R536, R538, R555, R576) -/

/-- A channel of the mask has an open wire. -/
def Met.wireBreak (m : Met) : Bool := (List.range 4).any (fun c => m.inMask c && (m.chan c).isOpen)

/-- CAUSES of the status block. [DEDUCED, log entry 182] -/
def Met.causes (m : Met) : Nat :=
  b2n m.sealOpen + 2 * b2n m.wireBreak + 4 * b2n m.fwFault + 8 * b2n m.paramFault + 16 * b2n m.auditFull + 32 * b2n m.framFault +
    64 * b2n (decide (m.vbatMv < 2600))

/-- MET_ALERT_N is asserted. [DEDUCED, log entry 182] -/
def Met.alert (m : Met) : Bool := m.vin && decide (m.causes ≠ 0)

/-- SEAL_SENSE is driven low. -/
def Met.sealSense (m : Met) : Bool := !m.sealOpen

/-- What the seal LED shows (R555): a blink of 4 Hz or 1 Hz, the identity blink by the flashes of its groups, or steady light. -/
inductive LedShow where
  | blink (hz : Nat)
  | identity (flashes : List Nat)
  | steady
deriving DecidableEq, Repr

/-- The flashes of the identity blink: one group for each hex digit n of the CRC, n + 1 flashes, in the order of its two-group
form, bits [31:16] first (R9, R555). -/
def idFlashes (crc : Nat) : List Nat := (List.range 8).map (fun i => crc / 16 ^ (7 - i) % 16 + 1)

/-- The state the seal LED shows, by the rows of R555 from the first. -/
def Met.led (m : Met) : LedShow :=
  if m.fwFault || m.paramFault || m.framFault then .blink 4 else if m.sealOpen then .blink 1
  else if m.idShown then .identity (idFlashes m.fwCrc) else .steady

/-- `MET_STATE`. -/
def Met.stateWord (m : Met) : Nat :=
  b2n (!m.sealOpen) + 2 * b2n m.journey.isSome + 4 * b2n m.fwFault + 8 * b2n m.paramFault + 16 * b2n m.auditFull +
    32 * b2n m.framFault

/-! ### Power (R529, R536, R538, R546, R592, R594) -/

/-- The firmware CRC of GOI-MET 2.03 (R536). [DEDUCED, log entry 178] -/
def fwGood : Nat := 0x5A3C91E7

/-- The recomputed firmware CRC: a mismatch sets FW_FAULT, audited when it is set; only power-up (`clear`) takes it back.
[DEDUCED, log entry 178] -/
def checkFw (crc : Nat) (clear : Bool) (s : State) : State :=
  let t := modMet (fun m => { m with fwCrc := crc }) s
  if crc = fwGood then (if clear then modMet (fun m => { m with fwFault := false }) t else t)
  else if s.met.fwFault then t
  else auditPlain 5 (calStamp s) (modMet (fun m => { m with fwFault := true }) t)

/-- Bits of the field of a parameter's register, and of the counting registers beside them (R558). -/
def metBits (off : Nat) : Nat :=
  if off = 0x0C then 11 else if 0x20 ≤ off ∧ off < 0x30 then 17 else if 0x30 ≤ off ∧ off < 0x40 then 8
  else if 0x40 ≤ off ∧ off < 0x50 then 13 else if off = 0x50 then 4 else if 0x54 ≤ off ∧ off < 0x64 then 2 else 32

/-- One parameter's two copies at power-up: a copy that fails its CRC is restored from the other, audited; both failing is
PARAM_FAULT, and the value in force is a free value. [DESIGN CHOICE, log entry 177] -/
def checkParam (off : Nat) (s : State) : State :=
  let p := s.met.param off
  let ok (c : Nat × Nat) : Bool := decide (paramCrc c.1 = c.2)
  let audit (bad good : Nat) (t : State) : State := auditRecord 4 off (calStamp t) (leBytes 8 bad) (leBytes 8 good) t
  match ok p.copy0, ok p.copy1 with
  | true, true => modMet (Met.setParam off { p with value := p.copy0.1 }) s
  | true, false => modMet (Met.setParam off ⟨p.copy0.1, p.copy0, p.copy0⟩) (audit p.copy1.1 p.copy0.1 s)
  | false, true => modMet (Met.setParam off ⟨p.copy1.1, p.copy1, p.copy1⟩) (audit p.copy0.1 p.copy1.1 s)
  | false, false =>
    nextFree (modMet (fun m => { Met.setParam off { p with value := Config.freeNat s.freeCtr % 2 ^ metBits off } m with paramFault := true }) s)

/-- A parameter copy that changed in FRAM while the power was off. [DESIGN CHOICE, log entry 177] -/
def damageParam (d : Nat × Bool × Nat × Nat) (m : Met) : Met :=
  if !paramOffs.contains d.1 then m
  else
    let p := m.param d.1
    m.setParam d.1 (if d.2.1 then { p with copy1 := d.2.2 } else { p with copy0 := d.2.2 })

/-- The calendar at power-up (R594). -/
def checkCal (codeOk : Bool) (s : State) : State :=
  if codeOk && !s.met.cal.brownOut then s
  else modCal (fun c => { c with live := CalTime.epoch, unset := true, ended := false, ovf := 0, brownOut := false }) s

/-- An open journey goes on after a loss of power: POWER_GAP, and a gap of cause 2 on every channel of the mask.
[DEDUCED, log entry 187] -/
def resumeJourney (s : State) : State :=
  match s.met.journey with
  | none => s
  | some _ =>
    let lost := s.met.ms - s.met.lossMs
    let t := modJourney (fun j => { (j.flag jfPOWER_GAP) with gapMs := j.gapMs + lost }) s
    let stop := stampNow t
    let t := (List.range 4).foldl (fun (a : State) (c : Nat) =>
      if a.met.inMask c then writeGap c 2 a.met.loss stop a else a) t
    rewriteJourney (nextFree t)

/-- MET_POWER_UP: MET_VIN enters its range. -/
def execMetPowerUp (r : MetPowerUp) (s : State) : Host.Outcome State Fault Refusal :=
  if s.met.vin then .next s
  else
    let t := modMet (fun m =>
      r.damage.foldl (fun (a : Met) (d : Nat × Bool × Nat × Nat) => damageParam d a)
        { m with
          vin := true, ms := max m.ms (m.secs * 1000 + r.phaseMs.val), fastN := 0, fineN := 0, cycles := 0, chans := [],
          mailbox := [], toServe := 0, mbxRej := 0, wheelBlock := none, replies := [], statusAt := 0, dataPath := [],
          sync := none, answer := .none, idShown := false, paramFault := false, framFault := false,
          cal := { m.cal with pending := none, invalid := false, rejField := 0, staged := ⟨0, 0, 0, 0, 0, 0⟩ } }) s
    let t := checkCal r.calCodeOk t
    let t := paramOffs.foldl (fun (a : State) (o : Nat) => checkParam o a) t
    let t := checkFw r.fwCrc.toNat true t
    let t := s.met.sealLog.foldl (fun (a : State) (e : Bool × List Byte) => recordSeal e.1 e.2 a)
      (modMet (fun m => { m with sealLog := [] }) t)
    settle s (resumeJourney t)

/-- MET_VIN_LOSS: only the calendar and the seal monitor go on, from VBAT; a pending commit is cancelled (R592).
[DEDUCED, log entry 187] -/
def execMetVinLoss (s : State) : Host.Outcome State Fault Refusal :=
  if !s.met.vin then .next s
  else settle s (nextFree (modMet (fun m =>
    { m with
      vin := false, lossMs := m.ms, loss := stampNow s, mailbox := [], toServe := 0, wheelBlock := none, replies := [],
      dataPath := [], answer := .none, cal := { m.cal with pending := none } }) s))

/-- VBAT_BROWN_OUT: VBAT falls below its threshold while MET_VIN is absent; the latch is read at power-up (R594, R656). -/
def execVbatBrownOut (s : State) : Host.Outcome State Fault Refusal :=
  if s.met.vin then .next s else settle s (modCal (fun c => { c with brownOut := true }) s)

/-! ### The data path (block formats of chapter 17) -/

/-- A block's 128 bytes. -/
def mkBlock (type seq ticks : Nat) (payload : List Byte) : List Byte :=
  let b := leBytes 1 type ++ leBytes 1 seq ++ zeros 2 ++ leBytes 4 ticks ++ payload ++ zeros (116 - payload.length)
  b ++ leBytes 4 (Crypto.crc32 b)

/-- Sends a block: from the cycle from which the third block comes 40 ms after MET_VIN entered its range (R530).
[DEDUCED, log entry 181] -/
def sendBlock (type : Nat) (payload : List Byte) (m : Met) : Met :=
  if m.cycles ≤ 38 then m
  else { m with
    dataPath := m.dataPath ++ [mkBlock type m.blockSeq (m.ct * 16 / 125) payload]
    blockSeq := (m.blockSeq + 1) % 256 }

/-- Once every request of the cycle is served, its blocks go out (R545): the WHEEL block, then the responses.
[DEDUCED, log entries 170, 181] -/
def closeCycle (m : Met) : Met :=
  if m.toServe ≠ 0 then m
  else
    let a := match m.wheelBlock with | some p => sendBlock 1 p { m with wheelBlock := none } | none => m
    a.replies.foldl (fun (x : Met) (p : List Byte) => sendBlock 3 p x) { a with replies := [] }

/-- A STATUS block is due in this cycle (every 100 ms). -/
def Met.statusDue (m : Met) : Bool :=
  decide (m.cycles ≠ 0) && decide (m.cycles % 100 = 0) && decide (m.statusAt ≠ m.cycles) && decide (m.toServe = 0)

/-- STATUS_BLOCK_SEND. -/
def execStatusBlockSend (s : State) : Host.Outcome State Fault Refusal :=
  if !s.met.vin || !s.met.statusDue then .next s
  else settle s (modMet (fun m => { sendBlock 2 (leBytes 4 m.stateWord ++ leBytes 4 m.eventCtr ++ leBytes 4 m.journeyNo ++
    leBytes 1 m.causes) m with statusAt := m.cycles }) s)

/-! ### The 1 ms cycle (R523, R545 to R547, R578, R579) -/

/-- A held sample is due for release. [DESIGN CHOICE, log entry 168] -/
def WheelCh.fastDue (w : WheelCh) (n : Nat) : Bool := match w.fast with | x :: _ => decide (x.n + 16 ≤ n) | [] => false
def WheelCh.fineDue (w : WheelCh) (n : Nat) : Bool := match w.fine with | x :: _ => decide (16 * (x.n + 2) ≤ n) | [] => false
def Met.fastRelDue (m : Met) : Bool := (List.range 4).any (fun c => (m.chan c).fastDue m.fastN)
def Met.fineRelDue (m : Met) : Bool := (List.range 4).any (fun c => (m.chan c).fineDue m.fastN)
def Met.fineFormDue (m : Met) : Bool := decide (m.fineN < m.fastN / 16)

/-- The cycle of this millisecond is still to come and every sample of the millisecond before it has been released. -/
def Met.cycleDue (m : Met) : Bool :=
  m.vin && decide (m.cycles = m.fastN / 256) && decide (16 ≤ m.fastN % 256) && decide (m.toServe = 0) && !m.secDue &&
    !m.fastRelDue && !m.fineRelDue && !m.fineFormDue

/-- A channel at the end of millisecond `ms`: whether it was valid (R578), its increment (R579), its new state.
[DEDUCED, log entry 169] -/
def channelMs (type k ms : Nat) (known : Bool) (w : WheelCh) : Bool × Nat × WheelCh :=
  let valid := known && decide (type ≠ 0) && !w.badMs.contains ms
  let p := (w.hits.filter (· == ms)).length
  let x := p * 10000000 + w.remainder
  let w' : WheelCh :=
    { w with
      levelFault := w.levelMs.contains ms, valid := valid, hits := w.hits.filter (ms < ·)
      badMs := w.badMs.filter (ms < ·), levelMs := w.levelMs.filter (ms < ·) }
  if valid then (true, x / k, { w' with remainder := x % k, pulses := (w.pulses + p) % 2 ^ 32 }) else (false, 0, w')

/-- Ends or begins the gap of one channel of the mask in the open journey. [DEDUCED, log entry 174] -/
def gapStep (at_ : Stamp) (c : Nat) (valid : Bool) (s : State) : State :=
  match s.met.journey with
  | none => s
  | some j =>
    match j.gaps.get none c, valid with
    | none, false => modJourney (fun j => { j with gaps := j.gaps.put none c (some at_) }) s
    | some st, true => modJourney (fun j => { j with gaps := j.gaps.put none c none }) (writeGap c 1 st at_ s)
    | _, _ => s

/-- The distance step of a cycle: the increments, the legal increment, the odometer, the journey and its gaps, and the
payload of the WHEEL block. [DEDUCED, log entry 193] -/
def distanceStep (s : State) : State :=
  let m := s.met
  let ms := m.cycles - 1
  let r := (List.range 4).map (fun (c : Nat) => channelMs (m.input c) (m.k c) ms (decide (m.cycles ≠ 0)) (m.chan c))
  let ok (c : Nat) : Bool := match r[c]? with | some x => x.1 | none => false
  let inc (c : Nat) : Nat := match r[c]? with | some x => x.2.1 | none => 0
  let good := (List.range 4).filter (fun c => m.inMask c && ok c)
  let total := (good.map inc).foldl (· + ·) 0 + m.legalRem
  let legal := if good.isEmpty then 0 else total / good.length
  let t := modMet (fun m => (List.range 4).foldl (fun (a : Met) (c : Nat) =>
      match r[c]? with | some x => a.setChan c x.2.2 | none => a)
    { m with odo := (m.odo + legal) % 2 ^ 64, legalRem := if good.isEmpty then m.legalRem else total % good.length }) s
  let t := modJourney (fun j =>
    { j with dist := j.dist + legal, gapMs := j.gapMs + b2n ((List.range 4).any (fun c => m.inMask c && !ok c)) }) t
  let at_ : Stamp := ⟨calStamp t, tbStamp t ((m.ms - 1) * 256)⟩
  let t := nextFree ((List.range 4).foldl (fun (a : State) (c : Nat) => if m.inMask c then gapStep at_ c (ok c) a else a) t)
  let gap := match t.met.journey with | some j => !j.gaps.isEmpty | none => false
  let flags := b2n (ok 0) + 2 * b2n (ok 1) + 4 * b2n (ok 2) + 8 * b2n (ok 3) + 16 * b2n gap
  modMet (fun m => { m with wheelBlock := some ((List.range 4).flatMap (fun (c : Nat) => leBytes 4 (inc c)) ++ leBytes 1 flags) }) t

/-- A FRAM write of this cycle failed its verification. -/
def framFailed (s : State) : State :=
  if s.met.framFault then s else auditPlain 7 (calStamp s) (modMet (fun m => { m with framFault := true }) s)

/-- MET_CYCLE: the distance step, the running record, and the cycle's requests and blocks. [DEDUCED, log entry 169] -/
def execMetCycle (vbatMv : Nat) (framFail : Bool) (s : State) : Host.Outcome State Fault Refusal :=
  if !s.met.cycleDue then .next s
  else
    let t := distanceStep (modMet (fun m => { m with vbatMv := vbatMv }) s)
    let t := if framFail then framFailed t else t
    let t := if t.met.ms % 1000 = 0 then rewriteJourney t else t
    settle s (modMet (fun m => closeCycle { m with cycles := m.cycles + 1, toServe := m.mailbox.length }) t)

/-! ### The mailbox (R527, R528, R543, R544) -/

/-- The reserved parameter bits of a request are zero. -/
def paramOk (code p : Nat) : Bool :=
  if code = 1 ∨ code = 2 then decide (p / 2 ^ 40 = 0) && decide (p % 256 = 0)
  else if code = 3 then decide (p / 2 ^ 40 = 0) && decide (p % 256 < 2)
  else if code = 4 then decide (p < 1024)
  else if code = 5 then decide (p = 0)
  else decide (code = 6)

/-- A mailbox frame the compartment acts on (R527). -/
def frameOk (f : List Byte) : Bool :=
  decide (f.length = 32) && decide (leAt f 28 4 = Crypto.crc32 (f.take 28)) && zerosAt f 2 2 && zerosAt f 12 16 &&
    paramOk (byteAt f 0) (leAt f 4 8)

/-- The frame of a request. -/
def mkFrame (code seq param : Nat) : List Byte :=
  let b := leBytes 1 code ++ leBytes 1 seq ++ zeros 2 ++ leBytes 8 param ++ zeros 16
  b ++ leBytes 4 (Crypto.crc32 b)

/-- The next request of this cycle, where it is a good frame of `code`: its sequence, parameter and sending time.
[DEDUCED, log entry 170] -/
def nextRequest (s : State) (code : Nat) : Option (Nat × Nat × Nat) :=
  if !s.met.vin || decide (s.met.toServe = 0) then none
  else match s.met.mailbox with
    | f :: _ => if frameOk f.bytes && decide (byteAt f.bytes 0 = code) then some (byteAt f.bytes 1, leAt f.bytes 4 8, f.sentAt)
      else none
    | [] => none

/-- The request is served: it leaves the mailbox; the last one closes the cycle. -/
def served (s : State) : State :=
  modMet (fun m => closeCycle { m with mailbox := m.mailbox.drop 1, toServe := m.toServe - 1 }) s

/-- The RESPONSE to a request: code, sequence, result and up to 96 record bytes. [DEDUCED, log entry 180] -/
def reply (code seq result : Nat) (record : List Byte) (s : State) : State :=
  modMet (fun m => { m with
    replies := m.replies ++ [leBytes 1 code ++ leBytes 1 seq ++ leBytes 1 result ++ zeros 1 ++ record.take 96] }) s

/-- One of the requests is served by `k`, or nothing happens where it is not the next one. -/
def serve (code : Nat) (k : Nat → Nat → State → State) (s : State) : Host.Outcome State Fault Refusal :=
  match nextRequest s code with
  | some q => settle s (served (k q.1 q.2.1 s))
  | none => .next s

/-- Why a START_JOURNEY is refused (R543); 0 where it is not. [DEDUCED, log entry 179] -/
def Met.startRefused (m : Met) : Nat :=
  if m.journey.isSome then 2 else if m.sealOpen then 1 else if m.fwFault then 5 else if m.paramFault then 6
  else if m.cal.unset then 7 else 0

/-- The stored record of the newest journey with number `n`. -/
def journeyAt (s : State) (n : Nat) : Option (List Byte) :=
  let r := s.met.journeys.get [] (n % 1024)
  if r.isEmpty || decide (leAt r 0 4 ≠ n) then none else some r

def gapAt (s : State) (n : Nat) : Option (List Byte) :=
  let r := s.met.gapLog.get [] (n % 512)
  if r.isEmpty || decide (leAt r 0 4 ≠ n) then none else some r

def auditAt (s : State) (n : Nat) : Option (List Byte) := s.met.audit[n]?

/-- The journey opens. -/
def openJourney (hostRef : Nat) (s : State) : State :=
  let no := (s.met.journeyNo + 1) % 2 ^ 32
  let j : Journey :=
    { no := no, flags := 2 ^ jfOPEN, gapCount := 0, hostRef := hostRef, eventCtr := s.met.eventCtr, start := stampNow s,
      startMs := s.met.ms, dist := 0, gapMs := 0, gapFirst := 0xFFFFFFFF, gaps := [] }
  rewriteJourney (nextFree (modMet (fun m =>
    { m.mapChans (fun _ w => { w with satJ := 0 }) with journeyNo := no, journey := some j }) s))

/-- START_JOURNEY. -/
def execStartJourney (s : State) : Host.Outcome State Fault Refusal :=
  serve 1 (fun seq p s =>
    if s.met.startRefused ≠ 0 then reply 1 seq s.met.startRefused [] s
    else
      let t := openJourney (bitsOf p 39 8) s
      reply 1 seq 0 ((journeyAt t t.met.journeyNo).getD []) t) s

/-- The journey closes: running gaps get their entries, and its record is rewritten with OPEN clear (R544, R547). -/
def closeJourney (s : State) : State :=
  let stop := stampNow s
  let t := nextFree ((List.range 4).foldl (fun (a : State) (c : Nat) =>
    match a.met.journey with
    | some j => (match j.gaps.get none c with | some st => writeGap c 1 st stop a | none => a)
    | none => a) s)
  let t := modJourney (fun j => { j with flags := j.flags - j.flags % 2, eventCtr := max j.eventCtr s.met.eventCtr }) t
  modMet (fun m => { m with journey := none, journeyCount := m.journeyCount + 1 }) (rewriteJourney t)

/-- STOP_JOURNEY. -/
def execStopJourney (s : State) : Host.Outcome State Fault Refusal :=
  serve 2 (fun seq p s =>
    match s.met.journey with
    | some j =>
      if j.no = bitsOf p 39 8 then
        let t := closeJourney s
        reply 2 seq 0 ((journeyAt t j.no).getD []) t
      else reply 2 seq 3 [] s
    | none => reply 2 seq 3 [] s) s

/-- A copy of a stored record, or NO_RECORD. [DEDUCED, log entry 180] -/
def replyRecord (code seq : Nat) (r : Option (List Byte)) (s : State) : State :=
  match r with | some b => reply code seq 0 b s | none => reply code seq 4 [] s

/-- READ_RECORD. -/
def execReadRecord (s : State) : Host.Outcome State Fault Refusal :=
  serve 3 (fun seq p s => replyRecord 3 seq (if p % 2 = 1 then gapAt s (bitsOf p 39 8) else journeyAt s (bitsOf p 39 8)) s) s

/-- READ_AUDIT. -/
def execReadAudit (s : State) : Host.Outcome State Fault Refusal :=
  serve 4 (fun seq p s => replyRecord 4 seq (auditAt s (bitsOf p 9 0)) s) s

/-- The identity (R536, R537): the firmware text and its CRC as R9 displays it. [DESIGN CHOICE, log entry 210] -/
def identityText (s : State) : List Byte := ascii "GOI-MET 2.03" ++ [0x20] ++ crcText s.met.fwCrc

/-- READ_IDENTITY. -/
def execReadIdentity (s : State) : Host.Outcome State Fault Refusal :=
  serve 5 (fun seq _ s => reply 5 seq 0 (identityText s) s) s

/-- TB_SYNC: the compartment takes the TB of the frame as that of its sending (R552). -/
def execTbSync (s : State) : Host.Outcome State Fault Refusal :=
  match nextRequest s 6 with
  | some q => settle s (served (modMet (fun m => { m with sync := some (q.2.1, q.2.2) }) s))
  | none => .next s

/-- MAILBOX_FRAME_REJECT: the next frame, as it arrived, is not one of R527: discarded and counted. -/
def execMailboxFrameReject (arrived : Option (List Byte)) (s : State) : Host.Outcome State Fault Refusal :=
  if !s.met.vin || decide (s.met.toServe = 0) then .next s
  else match s.met.mailbox with
    | [] => .next s
    | f :: _ =>
      if frameOk (arrived.getD f.bytes) then .next s
      else settle s (served (modMet (fun m => { m with mbxRej := (m.mbxRej + 1) % 2 ^ 32 }) s))

/-! ### Wheel channels (chapter 18) -/

/-- A fast code lies beyond the open threshold of its input type (R574). -/
def beyondOpen (type : Nat) (y : Int) : Bool := if type = 1 then decide (3891 ≤ y) else decide (y ≤ -3891)

/-- SAT_J, SAT_P and the journey's SAT for the stages that saturated (R573). -/
def WheelCh.saturate (mask : Nat) (w : WheelCh) : WheelCh := { w with satJ := w.satJ ||| mask, satP := w.satP ||| mask }

/-- The marks an OPEN decision at fast sample `n` applies (R575). -/
def WheelCh.markOpen (n : Nat) (w : WheelCh) : WheelCh :=
  { w with
    isOpen := true, within := 0, opens := satN 16 (w.opens + 1), fineBadTo := n / 16 + 25
    fast := w.fast.map (fun (x : Sample) => if n < x.n + 16 then { x with invalid := true } else x)
    fine := w.fine.map (fun (x : Sample) => if n / 16 ≤ x.n then { x with invalid := true } else x)
    badMs := w.badMs ++ [(n - 15) / 256, n / 256, n / 16 / 16] }

/-- One fast sample of a channel of a type at fast period `n` (R565, R566, R574 to R576). -/
def WheelCh.fastStep (type n : Nat) (b : BitVec 16) (w : WheelCh) : WheelCh :=
  if type = 0 then
    { w with bits := newest 508 (w.bits ++ List.replicate 16 0), badMs := w.badMs ++ [n / 256], beyond := 0, within := 0 }
  else
    let bits := newest 508 (w.bits ++ bitVals b)
    let raw := fastRaw bits
    let y := fastSat raw
    let settling := decide (n < w.switchAt + 3)
    let far := beyondOpen type y
    let x : Sample := ⟨n, y, w.isOpen, settling⟩
    let w1 : WheelCh :=
      { w with
        bits := bits, fast := w.fast ++ [x], fastSettling := settling, beyond := if far then w.beyond + 1 else 0
        within := if far then 0 else w.within + 1, badMs := if settling || w.isOpen then w.badMs ++ [n / 256] else w.badMs }
    let w2 := if y ≠ raw then w1.saturate 1 else w1
    if w2.isOpen then
      (if 256 ≤ w2.within then { w2 with isOpen := false, switchAt := n } else w2)
    else if 2 ≤ w2.beyond then w2.markOpen n else w2

/-- The journey's SAT where a channel's SAT_J gained a bit. -/
def noteSat (old : Met) (s : State) : State :=
  if (List.range 4).any (fun c => decide ((old.chan c).satJ ≠ (s.met.chan c).satJ)) then modJourney (Journey.flag jfSAT) s else s

/-- Nothing else of this instant is still to come before the next fast period. [DESIGN CHOICE, log entry 168] -/
def Met.fastFormDue (m : Met) : Bool :=
  m.vin && !m.fastRelDue && !m.fineRelDue && !m.fineFormDue &&
    (decide (m.fastN % 256 ≠ 255) || (decide (m.cycles = m.fastN / 256 + 1) && decide (m.toServe = 0) && !m.statusDue))

/-- FAST_SAMPLE: sixteen modulator periods pass on every channel. [DESIGN CHOICE, log entry 167] -/
def execFastSample (b0 b1 b2 b3 : BitVec 16) (s : State) : Host.Outcome State Fault Refusal :=
  if !s.met.fastFormDue then .next s
  else
    let n := s.met.fastN + 1
    let bs (c : Nat) : BitVec 16 := if c = 0 then b0 else if c = 1 then b1 else if c = 2 then b2 else b3
    settle s (noteSat s.met (modMet (fun m =>
      { m.mapChans (fun c w => w.fastStep (m.input c) n (bs c)) with fastN := n, ms := if n % 256 = 0 then m.ms + 1 else m.ms }) s))

/-- The thresholds of a type (R577): lower and upper. -/
def pulseLower (type hyst : Nat) : Int := if type = 1 then -(hyst : Int) else 2048
def pulseUpper (type hyst : Nat) : Int := if type = 1 then (hyst : Int) else 2253

/-- One released fast sample meets the pulse detector. -/
def WheelCh.detect (type : Nat) (x : Sample) (w : WheelCh) : WheelCh :=
  if x.invalid || x.settling then { w with below := none }
  else match w.below with
    | none => { w with below := some (decide (x.val < pulseUpper type w.hyst)) }
    | some true =>
      if pulseUpper type w.hyst ≤ x.val then
        { w with below := some false, hits := w.hits ++ [x.n / 256], hyst := max 12 ((w.level / 2048) / 4).toNat, level := if type = 1 then 0 else w.level }
      else w
    | some false => if x.val < pulseLower type w.hyst then { w with below := some true } else w

/-- FAST_SAMPLE_RELEASE: every fast sample held for 62.5 µs is released. -/
def execFastSampleRelease (s : State) : Host.Outcome State Fault Refusal :=
  if !s.met.vin || !s.met.fastRelDue then .next s
  else settle s (modMet (fun m => m.mapChans (fun c w =>
    if w.fastDue m.fastN then
      (match w.fast with | x :: t => { w with fast := t }.detect (m.input c) x | [] => w)
    else w)) s)

/-- One fine sample of a channel at fine period `j` (R568, R571, R575). -/
def WheelCh.fineStep (type j : Nat) (w : WheelCh) : WheelCh :=
  let r := finePath w.bits w.cic w.half
  let w1 : WheelCh := { w with cic := r.1, half := r.2.1 }
  if type = 0 then w1
  else
    let settling := decide (256 * j < 16 * w.switchAt + 6554)
    let invalid := w.isOpen || decide (j ≤ w.fineBadTo)
    let w2 : WheelCh :=
      { w1 with
        fine := w.fine ++ [⟨j, r.2.2.1, invalid, settling⟩], fineSettling := settling
        badMs := if settling || invalid then w.badMs ++ [j / 16] else w.badMs }
    w2.saturate (2 * b2n r.2.2.2.1 + 4 * b2n r.2.2.2.2.1 + 8 * b2n r.2.2.2.2.2)

/-- FINE_SAMPLE: a fine sample is formed on every channel. -/
def execFineSample (s : State) : Host.Outcome State Fault Refusal :=
  if !s.met.vin || !s.met.fineFormDue then .next s
  else settle s (noteSat s.met (modMet (fun m =>
    { m.mapChans (fun c w => w.fineStep (m.input c) (m.fineN + 1)) with fineN := m.fineN + 1 }) s))

/-- One released fine sample: level and level fault (R571, R572). [DEDUCED, log entry 186] -/
def WheelCh.takeFine (type : Nat) (x : Sample) (w : WheelCh) : WheelCh :=
  if type = 1 then { w with level := max w.level (if x.val < 0 then -x.val else x.val) }
  else
    let fault := !w.isOpen && (decide (x.val < 2097152) || decide (7130317 < x.val))
    { w with
      level := x.val, levelMs := if fault then w.levelMs ++ [x.n / 16] else w.levelMs
      badMs := if fault then w.badMs ++ [x.n / 16] else w.badMs }

/-- FINE_SAMPLE_RELEASE: every fine sample held for 125 µs is released. -/
def execFineSampleRelease (s : State) : Host.Outcome State Fault Refusal :=
  if !s.met.vin || !s.met.fineRelDue then .next s
  else settle s (modMet (fun m => m.mapChans (fun c w =>
    if w.fineDue m.fastN then
      (match w.fine with | x :: t => { w with fine := t }.takeFine (m.input c) x | [] => w)
    else w)) s)

/-! ### The calendar (chapter 19) -/

/-- The commit that waits is applied: its value is the time of this boundary, audited with the value the calendar would have
held (R591); a trail that has filled up refuses it (R541). [DEDUCED, log entry 188] -/
def applyCommit (v : CalTime) (s : State) : State :=
  let c := s.met.cal
  let old := if c.live = CalTime.top then c.live.stamp true else c.live.next.stamp c.ended
  let t := modCal (fun c => { c with
    live := v, pending := none, unset := false, ended := false, ovf := 0, commits := (c.commits + 1) % 2 ^ 32 }) s
  auditRecord 6 0xD0 (v.stamp false) old (v.stamp false) t

/-- The calendar advances by one second, or holds at the upper bound (R583, R585). -/
def advanceCal (c : Calendar) : Calendar :=
  if c.live = CalTime.top then { c with ended := true, ovf := satN 32 (c.ovf + 1) } else { c with live := c.live.next }

/-- CAL_SECOND_BOUNDARY. [DEDUCED, log entries 172, 175] -/
def execCalSecondBoundary (s : State) : Host.Outcome State Fault Refusal :=
  if s.met.vin && !s.met.secDue then .next s
  else
    let t := modMet (fun m => { m with secs := m.secs + 1, ms := max m.ms ((m.secs + 1) * 1000) }) s
    match s.met.cal.pending with
    | some v =>
      if s.met.auditFull then settle s (modCal (fun c => { advanceCal c with pending := none }) t)
      else settle s (applyCommit v t)
    | none => settle s (modCal advanceCal t)

/-! ### The verification port (R553, R558, R668) -/

def answer (a : VerAnswer) (s : State) : State := modMet (fun m => { m with answer := a }) s

/-- The port answers only while MET_VIN is present (R529). [DEDUCED, log entry 190] -/
def atPort (s : State) (k : State → State) : Host.Outcome State Fault Refusal := if s.met.vin then settle s (k s) else .next s

/-- VER_ID: the CRC is recomputed; a mismatch is FW_FAULT (R536). -/
def execVerId (crc : Word) (s : State) : Host.Outcome State Fault Refusal :=
  atPort s (fun s =>
    let t := modMet (fun m => { m with idShown := true }) (checkFw crc.toNat false s)
    answer (.identity (ascii "GOI-MET 2.03") (crcText t.met.fwCrc) (leBytes 8 Config.metSerial.toNat) Config.metIssue) t)

/-- VER_STAT. -/
def execVerStat (s : State) : Host.Outcome State Fault Refusal :=
  atPort s (fun s => answer (.status s.met.sealOpen s.met.journey.isSome s.met.eventCtr s.met.audit.length s.met.causes) s)

/-- `MET_CHn_STATE`. -/
def chStateWord (type : Nat) (w : WheelCh) : Nat :=
  b2n (decide (type ≠ 0)) + 2 * b2n w.isOpen + 4 * b2n w.fastSettling + 8 * b2n w.fineSettling + 16 * b2n w.levelFault +
    32 * b2n w.valid + 256 * (w.satJ % 16) + 4096 * (w.satP % 16)

/-- What a compartment register holds; none for an offset that R668 does not list. -/
def metValue (s : State) (off : Nat) : Option Nat :=
  let m := s.met
  let c := m.cal
  let date (t : CalTime) : Nat := t.year % 2 ^ 16 + t.month % 256 * 2 ^ 16 + t.day % 256 * 2 ^ 24
  let time (t : CalTime) : Nat := t.hour % 256 + t.minute % 256 * 2 ^ 8 + t.second % 256 * 2 ^ 16
  if off % 4 ≠ 0 then none
  else if off = 0x00 then some m.fwCrc
  else if off = 0x04 then some m.stateWord
  else if off = 0x08 then some m.eventCtr
  else if off = 0x0C then some m.audit.length
  else if off = 0x10 then some m.journeyNo
  else if off = 0x14 then some (m.odo / 10000 % 2 ^ 32)
  else if off = 0x18 then some m.mbxRej
  else if paramOffs.contains off then some (m.param off).value
  else if 0x70 ≤ off ∧ off < 0x80 then some (chStateWord (m.input ((off - 0x70) / 4)) (m.chan ((off - 0x70) / 4)))
  else if 0x80 ≤ off ∧ off < 0x90 then some (m.chan ((off - 0x80) / 4)).pulses
  else if 0x90 ≤ off ∧ off < 0xA0 then some (m.chan ((off - 0x90) / 4)).opens
  else if 0xA0 ≤ off ∧ off < 0xB0 then some (ofSigned 24 (m.chan ((off - 0xA0) / 4)).level)
  else if off = 0xC0 then some (date c.live)
  else if off = 0xC4 then some (time c.live + c.live.dow * 2 ^ 24)
  else if off = 0xC8 then some c.stateWord
  else if off = 0xCC then some c.ovf
  else if off = 0xD0 then some (date c.staged)
  else if off = 0xD4 then some (time c.staged)
  else if off = 0xD8 then some c.commits
  else none

/-- The value of a compartment register, reserved bits zero (R7). -/
def metReg (s : State) (off : Nat) : Option Nat := (metValue s off).map (· % 2 ^ metBits off)

/-- VER_RD: a register's value; MET_FW_CRC in the two-group form (R9). -/
def execVerRd (offset : Nat) (s : State) : Host.Outcome State Fault Refusal :=
  atPort s (fun s => match metReg s offset with
    | some v => answer (if offset = 0x00 then .crc (crcText v) else .value v) s
    | none => answer (.err .range) s)

/-- The range of a parameter (R538). -/
def paramRange (off : Nat) : Nat × Nat :=
  if off < 0x30 then (1000, 99999) else if off < 0x40 then (1, 255) else if off < 0x50 then (500, 5000)
  else if off = 0x50 then (1, 15) else (0, 2)

/-- k lies within 5 % of round(TEETH × 1,000,000 / CIRC) (R539). -/
def kConsistent (k teeth circ : Nat) : Bool :=
  let n := (2 * teeth * 1000000 + circ) / (2 * circ)
  decide (20 * (max k n - min k n) ≤ n)

/-- The write of a parameter keeps R539. -/
def Met.consistent (m : Met) (off v : Nat) : Bool :=
  let c := off / 4 % 4
  if off < 0x30 then kConsistent v (m.teeth c) (m.circ c)
  else if off < 0x40 then kConsistent (m.k c) v (m.circ c)
  else if off < 0x50 then kConsistent (m.k c) (m.teeth c) v
  else true

/-- A parameter takes effect: both FRAM copies; a write of k clears the channel's remainder, a change of the input type is a
switch (R540, R564, R579). -/
def putParam (off v : Nat) (m : Met) : Met :=
  let a := m.setParam off (Param.of v)
  if off < 0x30 then a.setChan ((off - 0x20) / 4) { a.chan ((off - 0x20) / 4) with remainder := 0 }
  else if 0x54 ≤ off ∧ m.input ((off - 0x54) / 4) ≠ v then
    a.setChan ((off - 0x54) / 4) { a.chan ((off - 0x54) / 4) with switchAt := m.fastN }
  else a

/-- Why a write at the port is refused whatever it writes (R540, R558). [DEDUCED, log entry 189] -/
def Met.writeRefused (m : Met) : Option VerError :=
  if !m.sealOpen then some .seal else if m.journey.isSome then some .journey else if m.auditFull then some .full else none

/-- VER_WR. [DEDUCED, log entry 189] -/
def execVerWr (offset value : Nat) (s : State) : Host.Outcome State Fault Refusal :=
  atPort s (fun s =>
    if !paramOffs.contains offset then answer (.err .range) s
    else match s.met.writeRefused with
    | some e => answer (.err e) s
    | none =>
      let r := paramRange offset
      if value < r.1 ∨ r.2 < value then answer (.err .range) s
      else if !s.met.consistent offset value then answer (.err .incons) s
      else answer .ok (modMet (putParam offset value)
        (auditRecord 3 offset (calStamp s) (leBytes 8 (s.met.param offset).value) (leBytes 8 value) s)))

/-- A stored record on the port, in hex; ERR RANGE where there is none. -/
def answerRecord (r : Option (List Byte)) (s : State) : State :=
  match r with | some b => answer (.record (hexGroups b)) s | none => answer (.err .range) s

/-- VER_AUD. -/
def execVerAud (n : Nat) (s : State) : Host.Outcome State Fault Refusal := atPort s (fun s => answerRecord (auditAt s n) s)

/-- VER_JRN. -/
def execVerJrn (n : Nat) (s : State) : Host.Outcome State Fault Refusal := atPort s (fun s => answerRecord (journeyAt s n) s)

/-- VER_GAP. -/
def execVerGap (n : Nat) (s : State) : Host.Outcome State Fault Refusal := atPort s (fun s => answerRecord (gapAt s n) s)

/-- VERIFY: OK only when the tag matches the record (R551). -/
def execVerify (record : List Byte) (s : State) : Host.Outcome State Fault Refusal :=
  atPort s (fun s =>
    let n := record.length
    if (n = 64 ∨ n = 96) ∧ tagOf (record.take (n - 16)) = record.drop (n - 16) then answer .ok s else answer (.err .tag) s)

/-- VER_LINE_INVALID: a line that is no command, or longer than 512 characters. -/
def execVerLineInvalid (_line : List Byte) (s : State) : Host.Outcome State Fault Refusal :=
  atPort s (fun s => answer (.err .syn) s)

/-- CAL_STAGE: the staging fields follow R558, so the conditions of R540 hold for them too (R587, R596). -/
def execCalStage (text : List Byte) (s : State) : Host.Outcome State Fault Refusal :=
  atPort s (fun s =>
    match s.met.writeRefused with
    | some e => answer (.err e) s
    | none =>
      match parseStage text with
      | some t => answer .ok (modCal (fun c => { c with staged := t }) s)
      | none => answer (.err .syn) s)

/-- CAL_COMMIT: the snapshot is checked field by field and becomes the pending commit (R588 to R590). -/
def execCalCommit (s : State) : Host.Outcome State Fault Refusal :=
  atPort s (fun s =>
    if !s.met.sealOpen then answer (.err .seal) s
    else if s.met.auditFull then answer (.err .full) s
    else
      let n := s.met.cal.staged.failing
      if n ≠ 0 then answer (.err .range) (modCal (fun c => { c with invalid := true, rejField := n }) s)
      else answer .ok (modCal (fun c => { c with pending := some c.staged, invalid := false }) s))

/-- CAL_READ: the live value, the day of the week and `MET_CAL_STATE`, from one instant. [DEDUCED, log entry 191] -/
def execCalRead (s : State) : Host.Outcome State Fault Refusal :=
  atPort s (fun s =>
    let c := s.met.cal
    answer (.calendar (c.live.iso ++ [0x20, BitVec.ofNat 8 (0x30 + c.live.dow), 0x20, hexAscii (c.stateWord / 16 % 16),
      hexAscii (c.stateWord % 16)])) s)

end Sys2Proof.Machine
end

