-- ==== Sys2Proof/Float.lean ====
section
/-!
DEFINITION. Binary floating point: FP32, FP16 and BF16 values taken apart exactly, and every operation computed exactly
and rounded once to nearest, ties to even. A NaN result is the quiet NaN of positive sign. Subnormal results are kept;
where a rule flushes them, the caller says so.
-/
namespace Sys2Proof.Fp

/-- A binary floating-point value: (-1)^neg × m × 2^e where finite. -/
inductive Val where
  | nan
  | inf (neg : Bool)
  | fin (neg : Bool) (m : Nat) (e : Int)
deriving DecidableEq, Repr

/-- Value of `bits` in a format of `eb` exponent and `mb` fraction bits. -/
def decode (eb mb bits : Nat) : Val :=
  let neg := bitOf bits (eb + mb)
  let ex := bitsOf bits (eb + mb - 1) mb
  let fr := bits % 2 ^ mb
  let bias : Int := (2 ^ (eb - 1) - 1 : Nat)
  if ex = 2 ^ eb - 1 then (if fr = 0 then .inf neg else .nan)
  else if ex = 0 then .fin neg fr (1 - bias - (mb : Int))
  else .fin neg (2 ^ mb + fr) ((ex : Int) - bias - (mb : Int))

/-- `m / 2^k` to the nearest integer, ties to even. -/
def shiftRne (m k : Nat) : Nat :=
  let q := m / 2 ^ k
  let r := 2 * (m % 2 ^ k)
  if 2 ^ k < r ∨ (r = 2 ^ k ∧ q % 2 = 1) then q + 1 else q

/-- `m × 2^k` as an integer: exact for k ≥ 0, rounded to nearest even below. -/
def scaleRne (m : Nat) (k : Int) : Nat := if 0 ≤ k then m * 2 ^ k.toNat else shiftRne m (-k).toNat

/-- The bits of a value in a format, rounded to nearest, ties to even; overflow gives infinity. -/
def encode (eb mb : Nat) : Val → Nat
  | .nan => (2 ^ eb - 1) * 2 ^ mb + 2 ^ (mb - 1)
  | .inf neg => b2n neg * 2 ^ (eb + mb) + (2 ^ eb - 1) * 2 ^ mb
  | .fin neg m e =>
    let sign := b2n neg * 2 ^ (eb + mb)
    if m = 0 then sign
    else
      let bias : Int := (2 ^ (eb - 1) - 1 : Nat)
      let lsbMin : Int := 1 - bias - (mb : Int)
      let lsb : Int := max ((Nat.log2 m : Int) + e - (mb : Int)) lsbMin
      let r := scaleRne m (e - lsb)
      let ex : Int := lsb + (mb : Int) + bias
      -- a fraction below 2^mb is subnormal; one that rounded up to 2^(mb+1) carries into the exponent
      let body : Int := if r < 2 ^ mb then (r : Int) else (ex - 1) * 2 ^ mb + (r : Int)
      if ((2 ^ eb - 1) * 2 ^ mb : Nat) ≤ body then sign + (2 ^ eb - 1) * 2 ^ mb else sign + body.toNat

def dec32 (w : Nat) : Val := decode 8 23 w
def enc32 (v : Val) : Nat := encode 8 23 v
def dec16 (w : Nat) : Val := decode 5 10 w
def decB16 (w : Nat) : Val := decode 8 7 w

/-! ### Exact arithmetic -/

def Val.neg : Val → Val
  | .nan => .nan
  | .inf s => .inf (!s)
  | .fin s m e => .fin (!s) m e

/-- The exact sum; of two zeros of unlike sign, and of an exact cancellation, plus zero. -/
def addV : Val → Val → Val
  | .nan, _ => .nan
  | _, .nan => .nan
  | .inf a, .inf b => if a = b then .inf a else .nan
  | .inf a, .fin _ _ _ => .inf a
  | .fin _ _ _, .inf b => .inf b
  | .fin s m e, .fin t n f =>
    let g := min e f
    let x : Int := (if s then -1 else 1) * ((m * 2 ^ (e - g).toNat : Nat) : Int)
    let y : Int := (if t then -1 else 1) * ((n * 2 ^ (f - g).toNat : Nat) : Int)
    let z := x + y
    if z = 0 then .fin (s && t && decide (m = 0) && decide (n = 0)) 0 g else .fin (decide (z < 0)) z.natAbs g

def mulV : Val → Val → Val
  | .nan, _ => .nan
  | _, .nan => .nan
  | .inf a, .inf b => .inf (a != b)
  | .inf a, .fin t n _ => if n = 0 then .nan else .inf (a != t)
  | .fin s m _, .inf b => if m = 0 then .nan else .inf (s != b)
  | .fin s m e, .fin t n f => .fin (s != t) (m * n) (e + f)

/-- The quotient with 60 bits beyond the point and a sticky bit: enough for one correct rounding to FP32. -/
def divV : Val → Val → Val
  | .nan, _ => .nan
  | _, .nan => .nan
  | .inf _, .inf _ => .nan
  | .inf a, .fin t _ _ => .inf (a != t)
  | .fin s _ _, .inf b => .fin (s != b) 0 0
  | .fin s m e, .fin t n f =>
    if n = 0 then (if m = 0 then .nan else .inf (s != t))
    else
      let q := m * 2 ^ 60 / n
      let r := m * 2 ^ 60 % n
      .fin (s != t) (2 * q + b2n (decide (r ≠ 0))) (e - f - 61)

/-- The largest integer whose square is at most `n`, by bits from `2^k` down. -/
def isqrtFrom : Nat → Nat → Nat → Nat
  | 0, n, x => if (x + 1) * (x + 1) ≤ n then x + 1 else x
  | k + 1, n, x => isqrtFrom k n (if (x + 2 ^ (k + 1)) * (x + 2 ^ (k + 1)) ≤ n then x + 2 ^ (k + 1) else x)

/-- The integer square root. -/
def isqrt (n : Nat) : Nat := isqrtFrom (Nat.log2 n / 2 + 1) n 0

/-- The square root with sticky bit. -/
def sqrtV : Val → Val
  | .nan => .nan
  | .inf neg => if neg then .nan else .inf false
  | .fin neg m e =>
    if m = 0 then .fin neg 0 e
    else if neg then .nan
    else
      let m' := if e % 2 = 0 then m * 2 ^ 60 else m * 2 ^ 61
      let e' : Int := if e % 2 = 0 then e - 60 else e - 61
      let q := isqrt m'
      .fin false (2 * q + b2n (decide (q * q ≠ m'))) (e' / 2 - 1)

/-! ### FP32 operations on register words held as numbers -/

def add (a b : Nat) : Nat := enc32 (addV (dec32 a) (dec32 b))
def neg (a : Nat) : Nat := a ^^^ 0x80000000
def sub (a b : Nat) : Nat := enc32 (addV (dec32 a) (dec32 b).neg)
def mul (a b : Nat) : Nat := enc32 (mulV (dec32 a) (dec32 b))
def div (a b : Nat) : Nat := enc32 (divV (dec32 a) (dec32 b))
def sqrt (a : Nat) : Nat := enc32 (sqrtV (dec32 a))
def abs (a : Nat) : Nat := a % 2 ^ 31

def isNan (a : Nat) : Bool := decide (dec32 a = .nan)
def isInf (a : Nat) : Bool := match dec32 a with | .inf _ => true | _ => false
def isFinite (a : Nat) : Bool := match dec32 a with | .fin _ _ _ => true | _ => false

/-- The order of two values that are no NaN, as integers: an integer that rises with the value. -/
def key (a : Nat) : Int := if bitOf a 31 then -((a % 2 ^ 31 : Nat) : Int) else ((a % 2 ^ 31 : Nat) : Int)
/-- a < b and a ≤ b, false where either is a NaN; the two zeros are equal. -/
def lt (a b : Nat) : Bool := !isNan a && !isNan b && decide (key a < key b)
def le (a b : Nat) : Bool := !isNan a && !isNan b && decide (key a ≤ key b)
def eq (a b : Nat) : Bool := !isNan a && !isNan b && decide (key a = key b)
def max (a b : Nat) : Nat := if lt a b then b else a
def min (a b : Nat) : Nat := if lt b a then b else a

/-- The FP32 nearest an integer. -/
def ofInt (i : Int) : Nat := enc32 (.fin (decide (i < 0)) i.natAbs 0)
def ofNat (n : Nat) : Nat := ofInt (n : Int)

/-- The FP32 nearest `i × 2^k`. -/
def ofScaled (i k : Int) : Nat := enc32 (.fin (decide (i < 0)) i.natAbs k)

/-- The integer nearest a finite value, ties to even; none for NaN and infinities. -/
def toIntRne (a : Nat) : Option Int :=
  match dec32 a with
  | .fin s m e => let r : Int := (scaleRne m e : Nat); some (if s then -r else r)
  | _ => none

/-- The largest integer not above a finite value; none for NaN and infinities. -/
def toIntFloor (a : Nat) : Option Int :=
  match dec32 a with
  | .fin s m e =>
    let x : Int := if s then -(m : Int) else (m : Int)
    some (if 0 ≤ e then x * 2 ^ e.toNat else x / (2 ^ (-e).toNat : Int))
  | _ => none

/-- FP32 of an FP16 and of a BF16 element: exact. -/
def ofF16 (h : Nat) : Nat := enc32 (dec16 h)
def ofB16 (h : Nat) : Nat := h * 65536

/-- A subnormal FP32 result becomes zero of its sign (R314). -/
def flush (a : Nat) : Nat := if bitsOf a 30 23 = 0 then (a / 2 ^ 31) * 2 ^ 31 else a

def inf : Nat := 0x7F800000
def negInf : Nat := 0xFF800000
def qnan : Nat := 0x7FC00000
def one : Nat := 0x3F800000

end Sys2Proof.Fp
end

