-- ==== Sys2Proof/Machine/Mews.lean ====
section
/-!
DEFINITION. The Mews (chapter 7): pools and handles, who is granted a buffer and when, the host's operations and their
answers, reclaim, and what a stream unit or an engine asks for.
-/
namespace Sys2Proof.Machine

/-! ### Status codes (R230) -/

def mwOK : Nat := 0x1
def mwPENDING : Nat := 0x2
def mwEMPTY : Nat := 0x3
def mwSTALE : Nat := 0x4
def mwFENCED : Nat := 0x5
def mwBAD_ARG : Nat := 0x6
def mwPOOL_OFF : Nat := 0x7
def mwNOT_FENCED : Nat := 0x8
def mwRECLAIM_BUSY : Nat := 0x9
def mwCANCELLED : Nat := 0xA

/-! ### Pools, buffers, handles (R207 to R213) -/

def Buf.fresh : Buf := ⟨1, false, false, 0⟩
def MewsPool.off : MewsPool := ⟨false, 0, 0, 0⟩
def MewsState.none : MewsState := ⟨[], [], [], []⟩

/-- The buffer size of pool `n`. -/
def poolSize (n : Nat) : Nat := 256 * 4 ^ n

def poolOf (s : State) (n : Nat) : MewsPool := s.mews.pools.get MewsPool.off n

/-- The buffer entry of index `i` of pool `n`. -/
def bufOf (s : State) (n i : Nat) : Buf := s.mews.bufs.get Buf.fresh (n * 65536 + i)

def setBuf (n i : Nat) (b : Buf) (s : State) : State :=
  { s with mews := { s.mews with bufs := s.mews.bufs.put Buf.fresh (n * 65536 + i) b } }

/-- The buffers of pool `n` that are allocated or tentative, as listed entries. -/
def heldIn (s : State) (n : Nat) : List (Nat × Buf) :=
  s.mews.bufs.filter (fun e => decide (e.1 / 65536 = n) && e.2.held)

/-- The free count F of a pool (R217). -/
def freeCount (s : State) (n : Nat) : Nat := (poolOf s n).count - (heldIn s n).length

def mkHandle (n i g : Nat) : Nat := n * 2 ^ 29 + i * 2 ^ 13 + g
def hPool (h : Nat) : Nat := bitsOf h 31 29
def hIndex (h : Nat) : Nat := bitsOf h 28 13
def hGen (h : Nat) : Nat := bitsOf h 12 0

/-- A handle is current (R211). -/
def current (s : State) (h : Nat) : Bool :=
  let p := poolOf s (hPool h)
  let b := bufOf s (hPool h) (hIndex h)
  p.on && decide (hIndex h < p.count) && b.held && decide (b.gen = hGen h)

/-- The DPA of a handle's buffer (R207). -/
def bufAddr (s : State) (h : Nat) : Nat := (poolOf s (hPool h)).base + hIndex h * poolSize (hPool h)

/-- Owner `o` is fenced (R215). -/
def ownerFenced (s : State) (o : Nat) : Bool := bitOf (rd64 s pgMEWS 0x0A0) o

def mewsQueue (s : State) (n : Nat) (recov : Bool) : List MewsReq := s.mews.queues.get [] (2 * n + (1 - b2n recov))

def setQueue (n : Nat) (recov : Bool) (l : List MewsReq) (s : State) : State :=
  { s with mews := { s.mews with queues := s.mews.queues.put [] (2 * n + (1 - b2n recov)) l } }

/-! ### The host's answers (R230) -/

/-- `MEWS_OP_STATUS` takes an answer: SEQ advances; `MEWS_OP_HANDLE` takes the handle granted, or 0. [DEDUCED, log entry 93] -/
def opAnswer (op status handle : Nat) (s : State) : State :=
  let seq := (rdF s pgMEWS 0x08C 15 8 + 1) % 256
  wrN pgMEWS 0x090 handle (wrN pgMEWS 0x08C (status + op * 16 + seq * 256) s)

/-- Gives an engine its answer. -/
def giveAnswer (src : MewsSrc) (status handle : Nat) (s : State) : State :=
  { s with mews := { s.mews with answers := s.mews.answers ++ [⟨src, status, handle⟩] } }

/-- The answer given to a source, and the state with it taken. -/
def takeAnswer (src : MewsSrc) (s : State) : Option MewsAnswer × State :=
  match s.mews.answers.find? (fun a => decide (a.src = src)) with
  | some a => (some a, { s with mews := { s.mews with answers := s.mews.answers.eraseP (fun b => decide (b.src = src)) } })
  | none => (none, s)

/-! ### Granting (R217 to R219) -/

/-- The grant condition of R217, under the gate of `PG_CTRL.ENABLE` (R221). -/
def canGrant (s : State) (n : Nat) (recov : Bool) : Bool :=
  enabled s pgMEWS && decide ((if recov then 0 else (poolOf s n).reserve) < freeCount s n)

/-- The buffer a grant takes: the lowest-numbered free one, which the spec leaves open. [DESIGN CHOICE, log entry 91] -/
def lowestFree (s : State) (n : Nat) : Nat :=
  ((List.range (poolOf s n).count).find? (fun i => !(bufOf s n i).held)).getD 0

def MewsSrc.isAhead : MewsSrc → Bool
  | .ahead _ _ => true
  | _ => false

/-- One grant from pool `n`: the handle, and the state with the buffer recorded, counted, and RESERVE_USED where it came
from the reserve. [DESIGN CHOICE, log entry 91] -/
def grantBuf (n : Nat) (r : MewsReq) (s : State) : Nat × State :=
  let i := lowestFree s n
  let g := (bufOf s n i).gen
  let used := r.recov && decide (freeCount s n ≤ (poolOf s n).reserve)
  let t := incCnt pgMEWS (0x11C + n * 0x20) 1 (setBuf n i ⟨g, true, r.src.isAhead, r.owner⟩ s)
  (mkHandle n i g, if used then raise pgMEWS 0x105 sevINFO (n + r.owner * 256) t else t)

/-- A waiting request is granted: the host's answer and ALLOC_GRANTED, or the engine's answer. -/
def grantWaiting (n : Nat) (r : MewsReq) (s : State) : State :=
  let g := grantBuf n r s
  match r.src with
  | .host _ => raise pgMEWS 0x100 sevINFO g.1 (opAnswer 1 mwOK g.1 g.2)
  | src => giveAnswer src mwOK g.1 g.2

/-- Serves one waiting request of a pool, if any may be granted (R218). -/
def serveOne (n : Nat) (s : State) : State :=
  match mewsQueue s n true, canGrant s n true with
  | r :: t, true => grantWaiting n r (setQueue n true t s)
  | _, _ =>
    match mewsQueue s n false, canGrant s n false with
    | r :: t, true => grantWaiting n r (setQueue n false t s)
    | _, _ => s

/-- Serves a pool's waiting requests while any may be granted. -/
def servePool (n : Nat) (s : State) : State :=
  iter (serveOne n) ((mewsQueue s n true).length + (mewsQueue s n false).length) s

/-- Serves every pool that is on. -/
def effServe (s : State) : State := (List.range 8).foldl (fun t n => if (poolOf t n).on then servePool n t else t) s

/-- The home pool of a size: the smallest that is on and large enough (R216). -/
def homePool (s : State) (size : Nat) : Option Nat :=
  (List.range 8).find? (fun n => (poolOf s n).on && decide (size ≤ poolSize n))

/-- A request may be granted at once from pool `n`: its queue there is empty and R217 holds. [DEDUCED, log entry 94] -/
def openNow (s : State) (n : Nat) (recov : Bool) : Bool := (mewsQueue s n recov).isEmpty && canGrant s n recov

/-- A new request (R215, R216, R219): its status, the handle granted or 0, and the state. The host is `fromHost`.
[DEDUCED, log entries 92, 94] -/
def mewsAsk (r : MewsReq) (fromHost spill wait : Bool) (s : State) : Nat × Nat × State :=
  if r.size = 0 ∨ 4194304 < r.size then (mwBAD_ARG, 0, s)
  else if (!fromHost && fenceBit s pgMEWS) || ownerFenced s r.owner then (mwFENCED, 0, s)
  else match homePool s r.size with
    | none => (mwPOOL_OFF, 0, s)
    | some n =>
      if openNow s n r.recov then let g := grantBuf n r s; (mwOK, g.1, g.2)
      else
        let up := if spill then (List.range 8).find? (fun m => decide (n < m) && (poolOf s m).on) else none
        match up with
        | some m => if openNow s m r.recov then let g := grantBuf m r s; (mwOK, g.1, g.2) else queueIt n
        | none => queueIt n
where
  /-- Joins the home queue, or is answered EMPTY; POOL_WAITING where an ordinary queue becomes non-empty, never for a
  tentative request (R228). -/
  queueIt (n : Nat) : Nat × Nat × State :=
    if !wait then (mwEMPTY, 0, s)
    else
      let first := !r.recov && !r.src.isAhead && (mewsQueue s n false).isEmpty
      let t := setQueue n r.recov (mewsQueue s n r.recov ++ [r]) s
      (mwPENDING, 0, if first then raise pgMEWS 0x106 sevINFO n t else t)

/-! ### Returns, transfers, withdrawals (R212 to R215, R223) -/

/-- A buffer returns to its pool: its generation goes on by 1, after 8,191 to 1. -/
def returnBuf (n i : Nat) (s : State) : State :=
  let b := bufOf s n i
  setBuf n i ⟨if b.gen = 8191 then 1 else b.gen + 1, false, false, 0⟩ s

/-- Checks a handle for an operation: the status that refuses it, with its event, or none. The asker is an owner, or the
host. -/
def checkHandle (h : Nat) (asker : Option Nat) (s : State) : Option Nat × State :=
  if asker = none ∧ h = 0 then (some mwBAD_ARG, s)
  else if asker.isSome && fenceBit s pgMEWS then (some mwFENCED, s)
  else if !current s h then (some mwSTALE, raise pgMEWS 0x101 sevJOB h s)
  else match asker with
    | some o => if (bufOf s (hPool h) (hIndex h)).owner ≠ o then (some 0xB, raise pgMEWS 0x102 sevJOB h s) else (none, s)
    | none => (none, s)

/-- FREE (R223): the status and the state; waiters are served in the same instant (R220). [DEDUCED, log entry 97] -/
def mewsFree (h : Nat) (asker : Option Nat) (s : State) : Nat × State :=
  let c := checkHandle h asker s
  match c.1 with
  | some st => (st, c.2)
  | none => (mwOK, effServe (returnBuf (hPool h) (hIndex h) c.2))

/-- TRANSFER (R215, R223). [DEDUCED, log entry 97] -/
def mewsTransfer (h o : Nat) (asker : Option Nat) (s : State) : Nat × State :=
  let c := checkHandle h asker s
  match c.1 with
  | some st => (st, c.2)
  | none =>
    if ownerFenced s o then (mwFENCED, c.2)
    else (mwOK, setBuf (hPool h) (hIndex h) { bufOf s (hPool h) (hIndex h) with owner := o } c.2)

/-- A tentative buffer becomes an ordinary allocation under the same handle (R227). -/
def commitTent (h : Nat) (s : State) : State :=
  setBuf (hPool h) (hIndex h) { bufOf s (hPool h) (hIndex h) with tent := false } s

/-- Withdraws the waiting requests that `f` selects; with `fenced`, each is answered: the host with CANCELLED, an engine
with FENCED (R215, R230). [DEDUCED, log entry 98] -/
def mewsWithdraw (f : MewsReq → Bool) (fenced : Bool) (s : State) : State :=
  let gone := s.mews.queues.flatMap (fun e => e.2.filter f)
  let t := (List.range 16).foldl (fun t k =>
    { t with mews := { t.mews with queues := t.mews.queues.put [] k ((t.mews.queues.get [] k).filter (fun r => !f r)) } }) s
  if fenced then gone.foldl (fun t r => match r.src with
    | .host _ => opAnswer 1 mwCANCELLED 0 t
    | src => giveAnswer src mwFENCED 0 t) t
  else t

/-- Everything a source still has with the Mews is taken back when its job ends early: its waiting request leaves its queue,
an untaken tentative grant returns to its pool (R222, R227, R271). -/
def mewsDropAhead (u : Nat) (s : State) : State :=
  let mine : MewsSrc → Bool := fun c => match c with | .ahead v _ => decide (v = u) | _ => false
  let t := mewsWithdraw (fun r => mine r.src) false s
  let back := t.mews.answers.filter (fun a => mine a.src)
  let t := { t with mews := { t.mews with answers := t.mews.answers.filter (fun a => !mine a.src) } }
  effServe (back.foldl (fun t a => if current t a.handle then returnBuf (hPool a.handle) (hIndex a.handle) t else t) t)

/-- A source withdraws its waiting request and forgets its answer; a buffer it was granted stays allocated (R261). -/
def mewsDrop (src : MewsSrc) (s : State) : State :=
  (takeAnswer src (mewsWithdraw (fun r => decide (r.src = src)) false s)).2

/-! ### The host's operations -/

/-- The host's ALLOC waits (R230). -/
def hostPending (s : State) : Bool := decide (rdF s pgMEWS 0x08C 3 0 = mwPENDING)

/-- An operation other than CANCEL while PENDING is rejected; else it is decided. -/
def unlessPending (q : Port) (k : State → State) (s : State) : State :=
  if hostPending s then cmdRej q pgMEWS 0x088 0 s else k s

def opArg0 (s : State) : Nat := (rd s pgMEWS 0x080).toNat
def opOwner (s : State) : Nat := rdF s pgMEWS 0x084 5 0

/-- [DEDUCED, log entry 92] -/
def effAlloc (q : Port) (s : State) : State :=
  unlessPending q (fun s =>
    let o := opOwner s
    let a := mewsAsk ⟨.host q, o, opArg0 s, rdB s pgMEWS 0x084 9 || decide (o = 63)⟩ true (rdB s pgMEWS 0x084 8)
      (rdB s pgMEWS 0x084 10) s
    opAnswer 1 a.1 a.2.1 a.2.2) s

def effFree (q : Port) (s : State) : State :=
  unlessPending q (fun s => let a := mewsFree (opArg0 s) none s; opAnswer 2 a.1 0 a.2) s

def effTransfer (q : Port) (s : State) : State :=
  unlessPending q (fun s => let a := mewsTransfer (opArg0 s) (opOwner s) none s; opAnswer 3 a.1 0 a.2) s

/-- RECLAIM (R224): accepted, it sets BUSY; the walk's returns follow in RECLAIM_DONE. [DEDUCED, log entry 96] -/
def effReclaim (q : Port) (s : State) : State :=
  unlessPending q (fun s =>
    let o := opArg0 s
    if 63 < o then opAnswer 4 mwBAD_ARG 0 s
    else if !ownerFenced s o then opAnswer 4 mwNOT_FENCED 0 s
    else if rdB s pgMEWS 0x0A8 0 then opAnswer 4 mwRECLAIM_BUSY 0 s
    else opAnswer 4 mwOK 0 (wrN pgMEWS 0x0AC 0 (wrN pgMEWS 0x0A8 (1 + o * 256) s))) s

/-- CANCEL withdraws the host's waiting ALLOC; with none waiting it is rejected. [DEDUCED, log entry 98] -/
def effCancel (q : Port) (s : State) : State :=
  if hostPending s then
    opAnswer 5 mwCANCELLED 0 (mewsWithdraw (fun r => match r.src with | .host _ => true | _ => false) false s)
  else cmdRej q pgMEWS 0x088 0 s

/-- A write of `MEWS_OP` with an operation code; 0 is no command, 6 and 7 are rejected. [DEDUCED, log entry 95] -/
def effMewsOp (q : Port) (op : Nat) (s : State) : State :=
  if op = 0 then s
  else if op = 1 then effAlloc q s
  else if op = 2 then effFree q s
  else if op = 3 then effTransfer q s
  else if op = 4 then effReclaim q s
  else if op = 5 then effCancel q s
  else cmdRej q pgMEWS 0x088 0 s

/-- ALLOC (R219). -/
def execAlloc (q : Port) (s : State) : Host.Outcome State Fault Refusal := settle s (gateWrite q pgMEWS 0x088 (effAlloc q) s)

/-- FREE (R223). -/
def execFree (q : Port) (s : State) : Host.Outcome State Fault Refusal := settle s (gateWrite q pgMEWS 0x088 (effFree q) s)

/-- TRANSFER (R223). -/
def execTransfer (q : Port) (s : State) : Host.Outcome State Fault Refusal :=
  settle s (gateWrite q pgMEWS 0x088 (effTransfer q) s)

/-- RECLAIM (R224). -/
def execReclaim (q : Port) (s : State) : Host.Outcome State Fault Refusal :=
  settle s (gateWrite q pgMEWS 0x088 (effReclaim q) s)

/-- CANCEL (R229). -/
def execCancel (q : Port) (s : State) : Host.Outcome State Fault Refusal := settle s (gateWrite q pgMEWS 0x088 (effCancel q) s)

/-- RECLAIM_DONE (R224, R225): the walk ends. Every buffer allocated or tentative under the owner, in the pools that are on,
has returned, in pool then index order; waiters are served; the count is reported.
[DESIGN CHOICE, log entry 2; DEDUCED, log entry 96] -/
def execReclaimDone (s : State) : Host.Outcome State Fault Refusal :=
  if rdB s pgMEWS 0x0A8 0 && pageOn s pgMEWS then
    let o := rdF s pgMEWS 0x0A8 13 8
    let mine := s.mews.bufs.filter (fun e => e.2.held && decide (e.2.owner = o) && (poolOf s (e.1 / 65536)).on)
    let t := mine.foldl (fun t e => effServe (returnBuf (e.1 / 65536) (e.1 % 65536) t)) s
    let n := mine.length
    settle s (raise pgMEWS 0x103 sevINFO (o + satN 20 n * 2 ^ 12) (wrN pgMEWS 0x0AC (n % 2 ^ 20) (wrB pgMEWS 0x0A8 0 false t)))
  else .next s

/-- ALLOC_GRANTED (R218): waiting requests are granted while buffers are available. [DESIGN CHOICE, log entry 2] -/
def execAllocGranted (s : State) : Host.Outcome State Fault Refusal :=
  settle s (if pageOn s pgMEWS then effServe s else s)

/-- What a new value of `MEWS_FENCE_LO` or `_HI` withdraws: every waiting request of an owner it newly fences (R215). -/
def effMewsFence (high : Bool) (old : Word) (s : State) : State :=
  let base := if high then 32 else 0
  let v := rd s pgMEWS (0x0A0 + 4 * b2n high)
  mewsWithdraw (fun r => decide (base ≤ r.owner) && decide (r.owner < base + 32) && flag v (r.owner - base)
    && !flag old (r.owner - base)) true s

/-- MEWS_FENCE_WRITE (R215). -/
def execMewsFenceWrite (q : Port) (high : Bool) (value : Word) (s : State) : Host.Outcome State Fault Refusal :=
  let off := 0x0A0 + 4 * b2n high
  settle s (gateWrite q pgMEWS off (fun s => effMewsFence high (rd s pgMEWS off) (wr pgMEWS off value s)) s)

/-- The reason a pool's configuration is bad (R208): alignment, COUNT, region, overlap; 0 where it is good. -/
def poolCfgBad (s : State) (n : Nat) : Nat :=
  let base := rdF s pgMEWS (0x100 + n * 0x20) 31 16 * 65536 + rdF s pgMEWS (0x104 + n * 0x20) 7 0 * 2 ^ 32
  let count := rdF s pgMEWS (0x108 + n * 0x20) 16 0
  let e := base + count * poolSize n
  if count = 0 ∨ 65536 < count then 0x04
  else if !isData s base (count * poolSize n) then 0x02
  else if (List.range 8).any (fun m => (poolOf s m).on && decide (base < (poolOf s m).base + (poolOf s m).count * poolSize m)
      && decide ((poolOf s m).base < e)) then 0x03
  else 0

/-- POOL_ON (R208). `MEWS_POOLn_BASE_LO` has no bit below 16, so a base is always 64 KiB-aligned. -/
def effPoolOn (q : Port) (n : Nat) (s : State) : State :=
  if (poolOf s n).on then cmdRej q pgMEWS (0x10C + n * 0x20) 0 s
  else
    let r := poolCfgBad s n
    if r ≠ 0 then raise pgMEWS 0x104 sevINFO (n + r * 256) s
    else
      let base := rdF s pgMEWS (0x100 + n * 0x20) 31 16 * 65536 + rdF s pgMEWS (0x104 + n * 0x20) 7 0 * 2 ^ 32
      let c := rd s pgMEWS (0x108 + n * 0x20)
      { s with mews := { s.mews with
          pools := s.mews.pools.put MewsPool.off n ⟨true, base, fld c 16 0, fld c 23 20⟩,
          bufs := s.mews.bufs.dropKeys (fun k => decide (k / 65536 = n)) } }

/-- POOL_OFF (R229): rejected while a buffer is held, a request waits, or the pool is off already. -/
def effPoolOff (q : Port) (n : Nat) (s : State) : State :=
  if !(poolOf s n).on || !(heldIn s n).isEmpty || !(mewsQueue s n true).isEmpty || !(mewsQueue s n false).isEmpty then
    cmdRej q pgMEWS (0x10C + n * 0x20) 1 s
  else { s with mews := { s.mews with pools := s.mews.pools.put MewsPool.off n MewsPool.off } }

/-- A write of `MEWS_POOLn_CTRL`: ON and OFF in one write is rejected. [DEDUCED, log entry 95] -/
def effPoolCtrl (q : Port) (n : Nat) (w : Word) (s : State) : State :=
  if flag w 0 && flag w 1 then cmdRej q pgMEWS (0x10C + n * 0x20) 0 s
  else if flag w 0 then effPoolOn q n s
  else if flag w 1 then effPoolOff q n s
  else s

def execPoolOn (q : Port) (n : Fin 8) (s : State) : Host.Outcome State Fault Refusal :=
  settle s (gateWrite q pgMEWS (0x10C + n.val * 0x20) (effPoolOn q n.val) s)

def execPoolOff (q : Port) (n : Fin 8) (s : State) : Host.Outcome State Fault Refusal :=
  settle s (gateWrite q pgMEWS (0x10C + n.val * 0x20) (effPoolOff q n.val) s)

end Sys2Proof.Machine
end

