-- ==== Sys2Proof/Machine/Jobs.lean ====
section
/-!
DEFINITION. What every page that runs jobs shares: the dependencies of a job (R141 to R144), delivery with the checks of the
common header (R83 to R86), deadlines, and the trigger counters (R274 to R276).
-/
namespace Sys2Proof.Machine

/-! ### Status codes (chapter 3) -/

def stDONE : Nat := 0x0000
def stDONE_FLAGGED : Nat := 0x0001
def stNOT_CONVERGED : Nat := 0x0002
def stABORT_DEADLINE : Nat := 0x0200
def stABORT_FENCED : Nat := 0x0201
def stABORT_POISON : Nat := 0x0202
def stABORT_CAPACITY : Nat := 0x0203
def stABORT_BAD_DESC : Nat := 0x0204
def stWR_POISONED : Nat := 0x0205
def stNOREF : Nat := 0x0300
def stNO_MAJORITY : Nat := 0x0301
def stTILE_ABSENT : Nat := 0x0302

/-- A status of abort class (R89). -/
def isAbort (st : Nat) : Bool := (decide (0x0200 ≤ st) && decide (st < 0x0300)) || (decide (0x0500 ≤ st) && decide (st < 0x0600))

/-! ### Dependencies (R141) -/

/-- The page accepts and starts jobs, and the memory at `addrs` and at the completion address is ready. -/
def depsMet (s : State) (p : Nat) (j : Job) (addrs : List Nat) : Bool :=
  ready s p && enabled s p && !quiesce s p && !fenceBit s p && (j.complAddr :: addrs).all (addrReady s)

/-- The job at position `f` of a page's queue is told of: WAIT_DEP once (R143). [DEDUCED, log entry 52] -/
def tellHeldJob (p : Nat) (j : Job) (s : State) : State :=
  if j.told then s
  else raise p cWAIT_DEP sevINFO j.id
    (modJobs p (fun q => { q with queue := q.queue.map (fun x => if x = j then { x with told := true } else x) }) s)

/-- A deadline has passed: TB is beyond it; 0 is none (R41). [DEDUCED, log entry 53] -/
def pastDeadline (s : State) (d : Nat) : Bool := decide (d ≠ 0) && decide (d < now s)

/-- DEADLINE_MISS for a job. -/
def missEvent (p : Nat) (j : Job) (s : State) : State := raise p cDEADLINE_MISS sevJOB j.id s

/-- A running job that `f` selects is ended by its deadline. -/
def abortDeadlineIf (p : Nat) (f : Job → Bool) (s : State) : State :=
  match (pageJobs s p).running.find? f with
  | some j => finishIf p f stABORT_DEADLINE (now s) (missEvent p j s)
  | none => s

/-- Takes a job out of a page's queue and ends it before its start with a status (R88). -/
def refuseQueued (p : Nat) (j : Job) (status detail : Nat) (s : State) : State :=
  finishJob p j status detail (modJobs p (fun q => { q with queue := q.queue.erase j }) s)

/-! ### Trigger inputs -/

/-- Where the counters of a page's trigger inputs lie (R276 and the engine chapters). -/
def trigLoc (p : Nat) : Option (Nat × Nat) :=
  match kindOf p with
  | some k =>
    if k = .strm then some (pgSEMA ((p - 0x040) / 8), 0x0A0 + 4 * ((p - 0x040) % 8))
    else if k = .tc then some (p, 0x08C)
    else if k = .wrp ∨ k = .pyr ∨ k = .hwk ∨ k = .owl ∨ k = .kes ∨ k = .gsh then some (p, 0x084)
    else if k = .fus then some (p, 0x088)
    else if k = .fsh then some (p, 0x0AC)
    else none
  | none => none

/-- The count of a page's trigger input. -/
def trigCount (s : State) (p i : Nat) : Nat :=
  match trigLoc p with | some (q, off) => rdF s q off (4 * i + 3) (4 * i) | none => 0

def setTrig (p i n : Nat) (s : State) : State :=
  match trigLoc p with | some (q, off) => wrF q off (4 * i + 3) (4 * i) n s | none => s

/-- A started job takes one count (R274). -/
def trigTake (p i : Nat) (s : State) : State := setTrig p i (trigCount s p i - 1) s

/-- A completion on page `src` posts input `i` of page `p`: counted, held at 15 with TRIG_OVF, or discarded with TRIG_LOST
where the target's domain is off (R274, R275). -/
def trigPost (src p i : Nat) (s : State) : State :=
  if !pageOn s p then raise src cTRIG_LOST sevJOB (p + i * 2 ^ 12) s
  else match trigLoc p with
    | none => s
    | some (q, off) =>
      if trigCount s p i < 15 then setTrig p i (trigCount s p i + 1) s
      else if rdB s q off (16 + i) then s
      else raise q cTRIG_OVF sevDEGRADED i (wrB q off (16 + i) true s)

/-! ### The head of a queue -/

/-- A job at the head of a page's queue starts when nothing runs, its dependencies hold, its deadline has not passed and its
trigger, if it waits on one, has a count; then `k` is what starting does. A job held by its dependencies is told of. -/
def startJob (p : Nat) (trig : Job → Option Nat) (addrs : Job → List Nat) (k : Job → State → State) (s : State) : State :=
  match (pageJobs s p).queue, (pageJobs s p).running with
  | j :: _, [] =>
    if !depsMet s p j (addrs j) then tellHeldJob p j s
    else if pastDeadline s j.deadline then refuseQueued p j stABORT_DEADLINE (now s) (missEvent p j s)
    else match trig j with
      | none => k j (startHead p s)
      | some i => if trigCount s p i = 0 then s else k j (startHead p (trigTake p i s))
  | _, _ => s

/-! ### Delivery (R83 to R86) -/

/-- The bits of FLAGS [15:13] an engine defines for a job of a page: RUN jobs of a stream unit, binds and starts of the other
engines as their chapters say. -/
structure HeaderRules where
  ops : List Nat
  flagBits : Nat → Nat
  units : Nat

/-- The first field of the common header in error: byte offset and reason (R85). [DEDUCED, log entry 44] -/
def headerBad (s : State) (h : HeaderRules) (j : Job) : Option (Nat × Nat) :=
  if h.units ≤ j.engine then some (4, 0x02)
  else if j.op ∉ h.ops then some (5, 0x03)
  else if bitsOf j.flags 15 13 &&& h.flagBits j.op ≠ bitsOf j.flags 15 13 then some (6, 0x01)
  else if byteAt j.desc 7 ≠ 0 then some (7, 0x01)
  else if j.complAddr % 32 ≠ 0 ∨ !isData s j.complAddr 32 then some (16, 0x04)
  else if !trigOk (j.trigger 0) then some (24, 0x05)
  else if !trigOk (j.trigger 1) then some (26, 0x05)
  else if !zerosAt j.desc 28 4 then some (28, 0x01)
  else none

/-- `DETAIL` of ABORT_BAD_DESC; an offset beyond 255 is reported as 255. -/
def badDetail (b : Nat × Nat) : Nat := satN 8 b.1 + b.2 * 256

/-- A job reaches its page: ABORT_FENCED at once on a fenced page (R630), ABORT_BAD_DESC where a field is in error, else it
joins the queue and is told of where it is held. -/
def deliver (p : Nat) (bad : Option (Nat × Nat)) (addrs : List Nat) (j : Job) (s : State) : State :=
  if fenceBit s p then
    modJobs p (fun q => { q with done := q.done ++ [⟨{ j with accepted := now s }, stABORT_FENCED, 0, now s, true, false, false, 0⟩] }) s
  else match bad with
    | some b => finishJob p j stABORT_BAD_DESC (badDetail b) s
    | none =>
      let t := modJobs p (fun q => { q with queue := q.queue ++ [j] }) s
      if depsMet t p j addrs then t else tellHeldJob p j t

/-- A body whose bytes [from, to) must be zero: the first that is not. -/
def reservedBad (d : List Byte) (lo hi : Nat) : Option (Nat × Nat) :=
  ((List.range (hi - lo)).find? (fun i => decide (byteAt d (lo + i) ≠ 0))).map (fun i => (lo + i, 0x01))

/-- The first error of a list of checks taken in order. -/
def firstBad : List (Option (Nat × Nat)) → Option (Nat × Nat)
  | [] => none
  | some b :: _ => some b
  | none :: t => firstBad t

/-- An error at an offset where a condition fails. -/
def badIf (c : Bool) (off reason : Nat) : Option (Nat × Nat) := if c then some (off, reason) else none

/-- The first error of a descriptor (R85), from its checks in ascending order, where its operation needs at least `n` bytes: a
missing byte is an error of a body value at that byte, after every error below it. The bytes beyond `n` are reserved.
[DESIGN CHOICE, log entry 226] -/
def descBad (d : List Byte) (n : Nat) (checks : List (Option (Nat × Nat))) : Option (Nat × Nat) :=
  let first := firstBad checks
  if d.length < n ∧ first.all (fun b => decide (d.length ≤ b.1)) = true then some (d.length, 0x06) else first

end Sys2Proof.Machine
end

