-- ==== Sys2Proof/Machine/Sema.lean ====
section
/-!
DEFINITION. Semaphore pairs (R264 to R271): signals and their saturation, waits served in arrival order, restores; trigger
clears (R276); and the release of waits on flags (R182).
-/
namespace Sys2Proof.Machine

def SemaState.none : SemaState := ⟨[], []⟩

/-- The page and the offset of `SEMA_CNTp` of a pair (R264). -/
def semPage (nnn : Nat) : Nat := pgSEMA (nnn / 64)
def semCnt (nnn : Nat) : Nat := 0x104 + 8 * (nnn % 64)
def semCfg (nnn : Nat) : Nat := 0x100 + 8 * (nnn % 64)

/-- The count of a side: F (side false) or E (side true). -/
def semCount (s : State) (nnn : Nat) (e : Bool) : Nat :=
  if e then rdF s (semPage nnn) (semCnt nnn) 15 8 else rdF s (semPage nnn) (semCnt nnn) 7 0

def setSem (nnn : Nat) (e : Bool) (v : Nat) (s : State) : State :=
  if e then wrF (semPage nnn) (semCnt nnn) 15 8 v s else wrF (semPage nnn) (semCnt nnn) 7 0 v s

/-- The rest count of a side. -/
def semRest (s : State) (nnn : Nat) (e : Bool) : Nat :=
  if e then rdF s (semPage nnn) (semCfg nnn) 15 8 else rdF s (semPage nnn) (semCfg nnn) 7 0

/-- A pair stands at its rest counts (R243). -/
def atRest (s : State) (nnn : Nat) : Bool :=
  decide (semCount s nnn false = semRest s nnn false) && decide (semCount s nnn true = semRest s nnn true)

def semQueue (s : State) (nnn : Nat) (e : Bool) : List SemWaiter := s.sema.waiters.get [] (2 * nnn + b2n e)

def setSemQueue (nnn : Nat) (e : Bool) (l : List SemWaiter) (s : State) : State :=
  { s with sema := { s.sema with waiters := s.sema.waiters.put [] (2 * nnn + b2n e) l } }

/-- Grants the head of a side's waiters if the count covers it (R267). -/
def semServeOne (nnn : Nat) (e : Bool) (s : State) : State :=
  match semQueue s nnn e with
  | w :: t =>
    if w.k ≤ semCount s nnn e then
      let u := setSemQueue nnn e t (setSem nnn e (semCount s nnn e - w.k) s)
      { u with sema := { u.sema with granted := u.sema.granted ++ [w.who] } }
    else s
  | [] => s

/-- Serves a side's waiters in strict arrival order while the head can be granted. -/
def semServe (nnn : Nat) (e : Bool) (s : State) : State := iter (semServeOne nnn e) (semQueue s nnn e).length s

/-- A signal's count lands: beyond 255 it holds 255, with `SEMA_OVF` and SEM_OVF (R266). -/
def semAdd (nnn : Nat) (e : Bool) (k : Nat) (s : State) : State :=
  let v := semCount s nnn e + k
  if v ≤ 255 then setSem nnn e v s
  else
    let p := semPage nnn
    let off := 0x088 + 4 * (nnn % 64 / 32)
    let t := setSem nnn e 255 s
    if rdB s p off (nnn % 32) then t
    else raise p 0x100 sevBLOCK (nnn + b2n e * 256) (wrB p off (nnn % 32) true t)

/-- A signal of count `k` to one side: counted, then waiters served (R265, R267). -/
def semSignal (nnn : Nat) (e : Bool) (k : Nat) (s : State) : State := semServe nnn e (semAdd nnn e k s)

/-- A party asks for `k` of a side: it joins the waiters and is served in its turn. -/
def semWait (nnn : Nat) (e : Bool) (k : Nat) (who : SemWho) (s : State) : State :=
  semServe nnn e (setSemQueue nnn e (semQueue s nnn e ++ [⟨who, k⟩]) s)

/-- A party's wait has been granted. -/
def semGranted (s : State) (who : SemWho) : Bool := s.sema.granted.contains who

/-- The grant is taken. -/
def semTake (who : SemWho) (s : State) : State :=
  { s with sema := { s.sema with granted := s.sema.granted.erase who } }

/-- A party is waiting on some side. -/
def semWaiting (s : State) (who : SemWho) : Bool := s.sema.waiters.any (fun e => e.2.any (fun w => decide (w.who = who)))

/-- Withdraws every wait of the parties `f` selects; nothing is subtracted, and the waiters behind are served (R271). -/
def semWithdraw (f : SemWho → Bool) (s : State) : State :=
  let keys := (s.sema.waiters.filter (fun e => e.2.any (fun w => f w.who))).map (·.1)
  let t := keys.foldl (fun t k =>
    let l := (t.sema.waiters.get [] k).filter (fun w => !f w.who)
    semServe (k / 2) (decide (k % 2 = 1)) { t with sema := { t.sema with waiters := t.sema.waiters.put [] k l } }) s
  { t with sema := { t.sema with granted := t.sema.granted.filter (fun w => !f w) } }

/-! ### The host's commands -/

/-- Sets one pair to its rest counts. -/
def restorePair (nnn : Nat) (s : State) : State :=
  setSem nnn true (semRest s nnn true) (setSem nnn false (semRest s nnn false) s)

/-- `SEMA_RESTORE` on page `k`: signals of the same instant are applied and overwritten, the counts set, the restore counted
and reported, the waiters served (R267, R269). -/
def effSemaRestore (k : Nat) (w : Word) (same : List SemSignal) (s : State) : State :=
  let all := flag w 8
  let pairs := if all then (List.range 64).map (64 * k + ·) else [64 * k + fld w 5 0]
  let t := same.foldl (fun t g => semAdd g.pair g.side g.k t) s
  let hit := same.any (fun g => decide (g.pair ∈ pairs))
  let u := incCnt (pgSEMA k) 0x090 pairs.length (pairs.foldl (fun t n => restorePair n t) t)
  let v := raise (pgSEMA k) 0x101 sevINFO (pairs.headD 0 + b2n all * 256 + b2n hit * 512) u
  (pairs ++ same.map (·.pair)).foldl (fun t n => semServe n true (semServe n false t)) v

/-- `SEMA_SIG` on page `k` (R265); a count of 0 is rejected. -/
def effSemaSig (q : Port) (k : Nat) (w : Word) (s : State) : State :=
  if fld w 15 12 = 0 then cmdRej q (pgSEMA k) 0x084 12 s
  else semSignal (64 * k + fld w 5 0) (flag w 8) (fld w 15 12) s

/-- The trigger-clear command of a page: `SEMA_TRIG_CLR` of a SEMA page, `x_TRIG_CLR` of an engine page (R276). -/
def effTrigClr (p : Nat) (w : Word) (s : State) : State :=
  match kindOf p with
  | some .sema => setTrig (pgSTRM ((p - 0x060) * 8 + fld w 2 0)) (fld w 5 4) 0 s
  | _ => setTrig p (fld w 1 0) 0 s

/-- The offset of a page's trigger-clear register, if it has one. -/
def trigClrOff (p : Nat) : Option Nat :=
  match kindOf p with
  | some k =>
    if k = .sema then some 0x0C0
    else if k = .tc then some 0x090
    else if k = .wrp ∨ k = .pyr ∨ k = .hwk ∨ k = .owl ∨ k = .kes ∨ k = .gsh then some 0x088
    else if k = .fus then some 0x08C
    else if k = .fsh then some 0x0B0
    else none
  | none => none

/-- SEMA_SIG (R265). -/
def execSemaSig (q : Port) (k : Fin 4) (value : Word) (s : State) : Host.Outcome State Fault Refusal :=
  settle s (gateWrite q (pgSEMA k.val) 0x084 (effSemaSig q k.val value) s)

/-- SEMA_RESTORE (R269). -/
def execSemaRestore (q : Port) (k : Fin 4) (value : Word) (same : List SemSignal) (s : State) :
    Host.Outcome State Fault Refusal :=
  settle s (gateWrite q (pgSEMA k.val) 0x080 (effSemaRestore k.val value same) s)

/-- TRIG_CLR (R276). -/
def execTrigClr (q : Port) (page : Nat) (value : Word) (s : State) : Host.Outcome State Fault Refusal :=
  match trigClrOff page with
  | some off => settle s (gateWrite q page off (effTrigClr page value) s)
  | none => .next s

/-! ### Flags and their waiters (R182) -/

/-- After a change of flag `f`, every stream unit waiting for its value is released; it stays so even if the flag changes
again. -/
def releaseFlag (f : Nat) (s : State) : State :=
  if flagPoisoned s f then s
  else { s with strm := s.strm.map (fun e => match e.2.waitFlag with
    | some (g, v) => if g = f ∧ v = flagValue s f then (e.1, { e.2 with released := true }) else e
    | none => e) }

/-- Sets and clears flags one after the other, each whole (R193). -/
def writeFlags (ops : List (Nat × Bool)) (s : State) : State := ops.foldl (fun t e => (writeFlag e.1 e.2 t).2) s

/-- Sets or clears a flag in one instant with the operations `same` of other requesters: every clear before every set, so that a
flag both set and cleared is 1 after the instant, and then the waiters for what it left are released (R182). True where the
flag's own word could be written. -/
def flagOps (f : Nat) (v : Bool) (same : List (Nat × Bool)) (s : State) : Bool × State :=
  let t := writeFlags (same.filter (fun e => !e.2)) s
  let r := if v then (true, t) else writeFlag f v t
  let t := writeFlags (same.filter (·.2)) r.2
  let r := if v then writeFlag f v t else (r.1, t)
  (r.1, (f :: same.map (·.1)).foldl (fun t g => releaseFlag g t) r.2)

/-- Sets or clears one flag. [DEDUCED, log entries 84, 102] -/
def flagOp (f : Nat) (v : Bool) (s : State) : Bool × State := flagOps f v [] s

end Sys2Proof.Machine
end

