-- ==== Sys2Proof/Machine/Intake.lean ====
section
/-!
DEFINITION. Sensor intake and the frame store (chapter 12): intake rings, cameras and frame slots, Ethernet and the lidar
extractors, CAN FD, SPI, UART and GPIO.
-/
namespace Sys2Proof.Machine

/-! ### Intake rings (R357, R358) -/

def InRing.none : InRing := ⟨0, 0, 0, 0⟩

/-! ### The MACs' own state -/

def EthState.none : EthState := ⟨0, [], []⟩
def LidarBlk.none : LidarBlk := ⟨false, 0, 0, 0, 0, 0, 0, 0, false, false⟩

def ethOf (s : State) (m : Nat) : EthState := s.eth.get EthState.none m
def setEth (m : Nat) (v : EthState) (s : State) : State := { s with eth := s.eth.put EthState.none m v }

/-! ### Rings -/

/-- The registers of a ring: base, configuration, HEAD, TAIL, drop counter, written counter (0 where the page has none), the
bytes of an entry, the depths it may have, and the code of RX_DROP. -/
structure RingSpec where
  base : Nat
  cfg : Nat
  head : Nat
  tail : Nat
  drop : Nat
  written : Nat
  entry : Nat
  minLog : Nat
  maxLog : Nat
deriving DecidableEq, Repr

/-- The receive (or transmit) ring of an intake page. -/
def ringSpec (page : Nat) (transmit : Bool) : Option RingSpec :=
  match kindOf page, transmit with
  | some .eth, false => some ⟨0x080, 0x088, 0x08C, 0x090, 0x094, 0x098, 2048, 6, 16⟩
  | some .eth, true => some ⟨0x0C0, 0x0C8, 0x0CC, 0x0CC, 0, 0, 2048, 4, 10⟩
  | some .can, false => some ⟨0x080, 0x088, 0x08C, 0x090, 0x094, 0x098, 128, 6, 16⟩
  | some .spi, false => some ⟨0x080, 0x088, 0x08C, 0x090, 0x094, 0x098, 128, 6, 16⟩
  | some .uart, false => some ⟨0x080, 0x088, 0x08C, 0x090, 0x094, 0x098, 128, 6, 16⟩
  | _, _ => none

def ringKey (page : Nat) (transmit : Bool) : Nat := 2 * page + b2n transmit
def inRing (s : State) (page : Nat) (transmit : Bool) : InRing := s.rings.get InRing.none (ringKey page transmit)
def setInRing (page : Nat) (transmit : Bool) (r : InRing) (s : State) : State :=
  { s with rings := s.rings.put InRing.none (ringKey page transmit) r }

/-- A ring's depth from its configuration register: values outside act as the least. -/
def cfgDepth (s : State) (page : Nat) (c : RingSpec) : Nat :=
  let n := rdF s page c.cfg 4 0 % (if c.maxLog = 10 then 16 else 32)
  2 ^ (if n < c.minLog ∨ c.maxLog < n then c.minLog else n)

def cfgBase (s : State) (page : Nat) (c : RingSpec) : Nat :=
  (rd s page c.base).toNat + rdF s page (c.base + 4) 7 0 * 2 ^ 32

/-- The ring is enabled (`x_RX_CFG.ENABLE`). -/
def ringOn (s : State) (page : Nat) (c : RingSpec) : Bool := rdB s page c.cfg 31

/-- A receive ring has space for a record now: it is enabled, not full, and its memory can be written. -/
def ringSpace (s : State) (page : Nat) (c : RingSpec) : Bool :=
  let r := inRing s page false
  let tail := rdF s page c.tail 15 0
  ringOn s page c && !decide ((tail + 1) % max 1 r.depth = rdF s page c.head 15 0 % max 1 r.depth)
    && canUse s .intake (r.base + tail * c.entry) c.entry

/-- RX_DROP once the ring has space again, with the number dropped (R357). -/
def reportDrops (page : Nat) (c : RingSpec) (s : State) : State :=
  let r := inRing s page false
  if r.lost = 0 ∨ ringSpace s page c = false then s
  else raise page 0x180 sevINFO (satN 32 r.lost) (setInRing page false { r with lost := 0 } s)

/-- A host write of `x_RX_HEAD` may return space (R357). -/
def effRxHead (page off : Nat) (s : State) : State :=
  match (ringSpec page false).filter (fun c => decide (c.head = off)) with
  | some c => reportDrops page c s
  | none => s

/-- The part of a write of a ring's configuration that enables it: the base and depth are latched, HEAD and TAIL set to 0 (the
TAIL of a transmit ring is its doorbell's); a ring outside DRAM and resident-store data clears ENABLE (HW_CLEAR). An enabled
receive ring has space. -/
def effRingEnable (page : Nat) (transmit : Bool) (c : RingSpec) (s : State) : State :=
  let base := cfgBase s page c
  let depth := cfgDepth s page c
  if !isData s base (depth * c.entry) then hwClearLost page c.cfg 31 s
  else
    let t := wrN page c.tail 0 (wrN page c.head 0
      (setInRing page transmit { inRing s page transmit with base := base, depth := depth } s))
    if transmit then setEth (page - 0x0D8) { ethOf t (page - 0x0D8) with tail := 0 } t else reportDrops page c t


/-- What the bytes of an entry beyond its payload hold, which the spec leaves open: free values. [DESIGN CHOICE, log entry 123] -/
def freeBytes (s : State) (n : Nat) : List Byte := (List.range n).map (fun i => Config.freeByte s.freeCtr i)

/-- A record is dropped and counted. -/
def dropIntake (page : Nat) (c : RingSpec) (s : State) : State :=
  let r := inRing s page false
  incCnt page c.drop 1 (setInRing page false { r with seq := r.seq + 1, lost := r.lost + 1 } s)

/-- A record reaches its page's intake ring: written whole before TAIL advances, or dropped and counted where the ring is
full or disabled, its memory cannot be written now, or the write is refused (R195, R356 to R358).
[DESIGN CHOICE, log entry 123] -/
def ringRecord (page : Nat) (tb kind flags : Nat) (payload : List Byte) (s : State) : State :=
  match ringSpec page false with
  | none => s
  | some c =>
    let r := inRing s page false
    let tail := rdF s page c.tail 15 0
    let a := r.base + tail * c.entry
    let body := leBytes 8 tb ++ leBytes 2 payload.length ++ leBytes 1 kind ++ leBytes 1 flags ++ leBytes 4 (r.seq % 2 ^ 32) ++ payload
    if !ringSpace s page c then dropIntake page c s
    else
      let t := reportDrops page c s
      let w := writeAs .intake a (body ++ freeBytes t (c.entry - body.length)) t
      let u := nextFree w.2
      if w.1.isSome then dropIntake page c u
      else incCnt page c.written 1 (wrN page c.tail ((tail + 1) % max 1 r.depth)
        (setInRing page false { inRing u page false with seq := r.seq + 1 } u))

/-- An intake page accepts from its interface: its domain is on, ENABLE is 1, and it is not fenced (R355). -/
def accepts (s : State) (p : Nat) : Bool := pageOn s p && enabled s p && !fenceBit s p

/-- INTAKE_RING_ENABLE for the intake and transmit rings of chapter 12. -/
def effIntakeCfg (page : Nat) (transmit : Bool) (c : RingSpec) (old : Bool) (s : State) : State :=
  if ringOn s page c && !old then effRingEnable page transmit c s else s

/-! ### Cameras (R360 to R372) -/

def FstSlot.empty : FstSlot := ⟨0, false, false, false, 0, []⟩
def FstCam.fresh : FstCam :=
  { rx := 0, vc := 0, dt := 0, width := 0, height := 0, base := 0, slotBytes := 0, trig0 := 0, trig1 := 0, active := false, id := 0, tbFs := 0,
    frameNo := 0, lines := 0, bad := 0, miss := false, corrected := false, flushing := false, slots := [] }

def camOf (s : State) (c : Nat) : FstCam := s.fst.get FstCam.fresh c
def setCam (c : Nat) (v : FstCam) (s : State) : State := { s with fst := s.fst.put FstCam.fresh c v }
def modCam (c : Nat) (f : FstCam → FstCam) (s : State) : State := setCam c (f (camOf s c)) s

def slotF (v : FstCam) (n : Nat) : FstSlot := v.slots.get FstSlot.empty n
def setSlotF (n : Nat) (x : FstSlot) (v : FstCam) : FstCam := { v with slots := v.slots.put FstSlot.empty n x }

def camReg (c off : Nat) : Nat := 0x100 + 0x40 * c + off
def camOn (s : State) (c : Nat) : Bool := rdB s pgFST (camReg c 0) 31
/-- `FST_CAMc_LAST.ID`. -/
def lastId (s : State) (c : Nat) : Nat := rdF s pgFST (camReg c 0x1C) 15 0

/-- The camera bound to a virtual channel of a receiver, where the frame store is enabled and the receiver accepts; a fenced
frame store still numbers the frames (R633). -/
def boundCam (s : State) (r vc : Nat) : Option Nat :=
  if accepts s (pgCSI r) && pageOn s pgFST && enabled s pgFST then
    (List.range 16).find? (fun c => camOn s c && decide ((camOf s c).rx = r) && decide ((camOf s c).vc = vc))
  else none

/-- Data types of R359. -/
def dtKnown (dt : Nat) : Bool := decide (dt = 0x2A ∨ dt = 0x2B ∨ dt = 0x2C ∨ dt = 0x2E ∨ dt = 0x1E)

/-- Bytes per pixel, and the pitch (R365). -/
def pixBytes (dt : Nat) : Nat := if dt = 0x2A then 1 else 2
def pitchOf (dt width : Nat) : Nat := (width * pixBytes dt + 63) / 64 * 64

def slotAddr (v : FstCam) (n : Nat) : Nat := v.base + n * v.slotBytes

/-- The mark of a frame that the fence of the frame store keeps from being stored (R633): no reason of R362.
[DEDUCED, log entry 207] -/
def lostByFence : Nat := 0x8

/-- A frame is recorded as lost (R362): its slot, unless it was a reader's, holds the reason; one lost to the fence is counted
without the event (R633). -/
def frameLost (c reason : Nat) (s : State) : State :=
  let v := camOf s c
  let x := slotF v (v.id % 8)
  let w := if x.id = v.id ∧ x.valid = false ∧ reason ≠ lostByFence then setSlotF (v.id % 8) { x with lost := reason } v else v
  let t := incCnt pgFST (camReg c 0x28) 1 (wrB pgFST (camReg c 0x1C) 16 false (setCam c { w with active := false } s))
  if reason = lostByFence then t else raise pgFST 0x101 sevDEGRADED (v.id + c * 2 ^ 16 + reason * 2 ^ 20) t

/-- The fence of the frame store: the frames under way are not stored, whatever else befell them (R633).
[DEDUCED, log entry 207] -/
def fstFence (s : State) : State :=
  (List.range 16).foldl (fun s c => modCam c (fun v => if v.active then { v with bad := lostByFence } else v) s) s

/-- Every slot of the camera is invalid. -/
def allInvalid (v : FstCam) : Bool := v.slots.all (fun e => !e.2.valid)

/-- FLUSH_DONE once every slot is invalid after a flush (R366): at the flush, an unpin, or a Frame Start that takes the last
valid slot. -/
def flushDone (c : Nat) (s : State) : State :=
  let v := camOf s c
  if v.flushing && allInvalid v then raise pgFST 0x103 sevINFO c (setCam c { v with flushing := false } s) else s

/-- The first loss reason of the frame under way is kept. [DEDUCED, log entry 124] -/
def markBad (c reason : Nat) (s : State) : State := modCam c (fun v => if v.bad = 0 then { v with bad := reason } else v) s

/-- A Frame Start on camera `c` (R360, R361, R364). [DEDUCED, log entry 125] -/
def frameStart (c frameNo : Nat) (corrected : Bool) (s : State) : State :=
  let s := if (camOf s c).active then frameLost c (if (camOf s c).bad = 0 then 0x5 else (camOf s c).bad) s else s
  let id := (lastId s c + 1) % 65536
  let n := id % 8
  let v := camOf s c
  let pinned := !(slotF v n).pins.isEmpty
  let off := fenceBit s pgFST
  let v := { v with
    active := true, id := id, tbFs := now s, frameNo := frameNo, lines := 0, miss := false, corrected := corrected,
    bad := if off then lostByFence else if pinned then 0x6 else 0 }
  let v := if pinned || off then v else setSlotF n ⟨id, false, false, false, 0, []⟩ v
  flushDone c (wrN pgFST (camReg c 0x1C) (id + 65536) (setCam c v s))

/-- CSI_FRAME_START (R360): the receiver stamps the virtual channel; a camera bound to it starts a frame.
[DEDUCED, log entry 131] -/
def execCsiFrameStart (r : Fin 8) (vc : Fin 4) (frameNo : Nat) (corrected : Bool) (s : State) :
    Host.Outcome State Fault Refusal :=
  settle s (if !accepts s (pgCSI r.val) then s
    else
      let p := pgCSI r.val
      let t := wr64 p (0x0A0 + 8 * vc.val) (now s) (wrB p 0x084 8 true s)
      let t := if corrected then incCnt p 0x088 1 t else t
      match boundCam s r.val vc.val with
      | some c => frameStart c (frameNo % 65536) corrected t
      | none => t)

/-- The stored bytes of a line: one byte per RAW8 pixel, two per RAW10, RAW12 and RAW16 pixel, YUV422 as received; padded
with zeros to the pitch (R365). -/
def lineBytes (dt pitch : Nat) (line : List Nat) : List Byte :=
  let bs := if dt = 0x2A ∨ dt = 0x1E then line.map (BitVec.ofNat 8) else line.flatMap (leBytes 2)
  bs ++ zeros (pitch - bs.length)

/-- Pixels of a line. [DESIGN CHOICE, log entry 122] -/
def linePixels (dt : Nat) (line : List Nat) : Nat := if dt = 0x1E then line.length / 2 else line.length

/-- A pixel line of camera `c` is checked and written to the slot. [DEDUCED, log entry 124] -/
def storeLine (c : Nat) (line : List Nat) (s : State) : State :=
  let v := camOf s c
  if v.bad = 0x6 ∨ v.bad = lostByFence then s
  else if v.height ≤ v.lines then markBad c 0x3 s
  else if linePixels v.dt line ≠ v.width then markBad c 0x4 (modCam c (fun v => { v with lines := v.lines + 1 }) s)
  else
    let pitch := pitchOf v.dt v.width
    let a := slotAddr v (v.id % 8) + 64 + pitch * v.lines
    let t := modCam c (fun v => { v with lines := v.lines + 1 }) s
    if !canUse s .intake a pitch then modCam c (fun v => { v with miss := true }) t
    else
      let w := writeAs .intake a (lineBytes v.dt pitch line) t
      if w.1.isSome then markBad c 0x7 w.2 else w.2

/-- CSI_LONG_PACKET (R362, R370). [DESIGN CHOICE, log entry 122] -/
def execCsiLongPacket (r : Fin 8) (vc : Fin 4) (dt : Nat) (line : List Nat) (ecc : HeaderEcc) (crcOk : Bool) (s : State) :
    Host.Outcome State Fault Refusal :=
  settle s (if !accepts s (pgCSI r.val) then s
    else
      let p := pgCSI r.val
      let s := wrB p 0x084 8 true s
      let cam := (boundCam s r.val vc.val).filter (fun c => (camOf s c).active)
      let lose (t : State) : State := match cam with | some c => markBad c 0x1 t | none => t
      match ecc with
      | .uncorrectable => lose (raise p 0x101 sevINFO vc.val (incCnt p 0x08C 1 s))
      | e =>
        let t := if e = .corrected then incCnt p 0x088 1 s else s
        match cam with
        | none => incCnt p 0x094 1 t
        | some c =>
          if (camOf s c).dt ≠ dt then incCnt p 0x094 1 t
          else
            let t := if e = .corrected then modCam c (fun v => { v with corrected := true }) t else t
            if crcOk then storeLine c line t
            else markBad c 0x1 (modCam c (fun v => { v with lines := v.lines + 1 }) (incCnt p 0x090 1 t)))

/-- The 64-byte frame header (R369). -/
def frameHeader (c : Nat) (v : FstCam) (tbFe : Nat) : List Byte :=
  leBytes 2 v.id ++ leBytes 1 c ++ leBytes 1 v.dt ++ leBytes 2 v.width ++ leBytes 2 v.height ++ leBytes 8 v.tbFs
    ++ leBytes 8 tbFe ++ leBytes 2 v.frameNo ++ zeros 2 ++ leBytes 4 (pitchOf v.dt v.width) ++ leBytes 4 (b2n v.corrected)
    ++ zeros 28

/-- Posts a trigger target register of page `src`, where valid (R84, R368). -/
def postTarget (src target : Nat) (s : State) : State :=
  if bitOf target 12 && trigOk target then trigPost src (bitsOf target 7 0) (bitsOf target 11 8) s else s

/-- A Frame End on camera `c` (R361, R362, R368). [DEDUCED, log entry 125] -/
def frameEnd (c : Nat) (s : State) : State :=
  let v := camOf s c
  let n := v.id % 8
  let a := slotAddr v n
  if v.bad ≠ 0 then frameLost c v.bad s
  else if v.lines < v.height ∨ v.miss = true ∨ canUse s .intake a 64 = false then frameLost c 0x2 s
  else
    let w := writeAs .intake a (frameHeader c v (now s)) s
    if w.1.isSome then frameLost c 0x7 w.2
    else
      let t := modCam c (fun v => setSlotF n { slotF v n with valid := true } { v with active := false }) w.2
      let t := incCnt pgFST (camReg c 0x24) 1 (wrB pgFST (camReg c 0x1C) 16 false t)
      let t := postTarget pgFST v.trig1 (postTarget pgFST v.trig0 t)
      raise pgFST 0x100 sevINFO (v.id + c * 2 ^ 16) t

/-- CSI_FRAME_END (R361): a corrected header counts, and shows in the frame's FLAGS (R369, R370). -/
def execCsiFrameEnd (r : Fin 8) (vc : Fin 4) (corrected : Bool) (s : State) : Host.Outcome State Fault Refusal :=
  settle s (if !accepts s (pgCSI r.val) then s
    else
      let t := wrB (pgCSI r.val) 0x084 8 true s
      let t := if corrected then incCnt (pgCSI r.val) 0x088 1 t else t
      match (boundCam s r.val vc.val).filter (fun c => (camOf s c).active) with
      | some c => frameEnd c (if corrected then modCam c (fun v => { v with corrected := true }) t else t)
      | none => t)

/-- `CSI_STATUS`: the lanes of a receiver that receives packets are as their pins are, which no command tells; the others are
not in HS mode. -/
def csiStatusWord (s : State) (r : Nat) : Nat :=
  let w := rd s (pgCSI r) 0x084
  let n := rdF s (pgCSI r) 0x080 2 0
  let lanes := if n = 1 ∨ n = 2 then n else 4
  if flag w 8 then putBits w.toNat 4 0 (Config.freeNat s.freeCtr % 2 ^ (lanes + 1)) else w.toNat

/-- SYNC_LOST (R370). [DEDUCED, log entry 131] -/
def execSyncLost (r : Fin 8) (s : State) : Host.Outcome State Fault Refusal :=
  settle s (if accepts s (pgCSI r.val) then raise (pgCSI r.val) 0x100 sevDEGRADED 0 (wrB (pgCSI r.val) 0x084 8 false s) else s)

/-! ### Presence (R363 to R367) -/

/-- The reason a frame is absent; 0 where it is present. -/
def lookupReason (s : State) (c f : Nat) : Nat :=
  let v := camOf s c
  let x := slotF v (f % 8)
  if x.valid && !x.hidden && decide (x.id = f) then 0
  else
    let d := (lastId s c + 65536 - f) % 65536
    if 32768 ≤ d ∨ (d = 0 ∧ v.active = true) then 4
    else if 8 ≤ d then 2
    else if (x.flushed || x.hidden) && decide (x.id = f) then 3
    else 1

/-- A present frame's slot is pinned for the running job of page `p`, named by the number of its start (R364). -/
def pinFrame (c f p : Nat) (s : State) : State :=
  modCam c (fun v =>
    let x := slotF v (f % 8)
    setSlotF (f % 8) { x with pins := x.pins ++ [(p, (pageJobs s p).started)] } v) s

/-- Releases the pins of the `n`th job of page `p`; a slot waiting for its last pin is invalidated (R364, R366). -/
def unpinFrames (p n : Nat) (s : State) : State :=
  (List.range 16).foldl (fun s c =>
    let v := camOf s c
    let w := { v with slots := v.slots.map (fun e =>
      let pins := e.2.pins.filter (fun k => decide (k ≠ (p, n)))
      (e.1, if e.2.hidden && pins.isEmpty then { e.2 with pins := pins, valid := false, hidden := false, flushed := true }
        else { e.2 with pins := pins })) }
    if w = v then s else flushDone c (setCam c w s)) s

/-- The running job of page `p`, if any, aborts: its pins are released (R364). -/
def unpinAborted (p : Nat) (s : State) : State :=
  if (pageJobs s p).running = [] then s else unpinFrames p (pageJobs s p).started s

/-- `FST_CAMc_FLUSH` (R366). -/
def effCamFlush (c : Nat) (s : State) : State :=
  flushDone c (modCam c (fun v => { v with
    flushing := true,
    slots := v.slots.map (fun e =>
      (e.1, if !e.2.valid then e.2
        else if e.2.pins.isEmpty then { e.2 with valid := false, flushed := true }
        else { e.2 with hidden := true })) }) s)

/-- FST_CAM_FLUSH (R366). -/
def execFstCamFlush (q : Port) (cam : Fin 16) (s : State) : Host.Outcome State Fault Refusal :=
  settle s (gateWrite q pgFST (camReg cam.val 0x2C) (effCamFlush cam.val) s)

/-- `FST_LOOKUP_RES` (R371). -/
def fstLookupWord (s : State) : Nat :=
  let c := rdF s pgFST 0x080 3 0
  let f := rdF s pgFST 0x080 31 16
  let r := lookupReason s c f
  b2n (decide (r = 0)) + r * 2 + f % 8 * 16

/-- FST_LOOKUP_READ (R363). -/
def execFstLookupRead (q : Port) (s : State) : Host.Outcome State Fault Refusal :=
  settle s (if portLive s q && pageOn s pgFST then
    s.modPort q (fun p => { p with readData := fstLookupWord s, readEP := false }) else s)

/-- `FST_CAMc_SLOTS` (R371). -/
def fstSlotsWord (s : State) (c : Nat) : Nat :=
  (List.range 8).foldl (fun n i =>
    let x := slotF (camOf s c) i
    n + b2n (x.valid && !x.hidden) * 2 ^ i + b2n (!x.pins.isEmpty) * 2 ^ (8 + i) + b2n x.hidden * 2 ^ (16 + i)) 0

/-- What is wrong with a camera's configuration (R372): type, size, region, duplicate source; 0 for nothing. -/
def camCfgBad (s : State) (c : Nat) : Nat :=
  let src := rd s pgFST (camReg c 0)
  let size := rd s pgFST (camReg c 4)
  let base := (rd s pgFST (camReg c 8)).toNat + rdF s pgFST (camReg c 12) 7 0 * 2 ^ 32
  let bytes := rdF s pgFST (camReg c 16) 23 0 * 4096
  let w := fld size 12 0
  let h := fld size 28 16
  if !dtKnown (fld src 13 8) then 0x1
  else if w = 0 ∨ 4096 < w ∨ h = 0 ∨ 3072 < h then 0x2
  else if bytes < 64 + pitchOf (fld src 13 8) w * h ∨ isData s base (8 * bytes) = false then 0x3
  else if (List.range 16).any (fun d => decide (d ≠ c) && camOn s d && decide ((camOf s d).rx = fld src 2 0)
      && decide ((camOf s d).vc = fld src 5 4)) then 0x4
  else 0

/-- ENABLE of a camera goes from 0 to 1: its configuration is checked and latched, or ENABLE clears (R372). A frame under way
since before is lost: its lines are incomplete. [DESIGN CHOICE, log entry 240] -/
def effCamEnable (c : Nat) (s : State) : State :=
  let bad := camCfgBad s c
  if bad ≠ 0 then raise pgFST 0x102 sevINFO (c + bad * 256) (hwClearLost pgFST (camReg c 0) 31 s)
  else
    let s := if (camOf s c).active then frameLost c (if (camOf s c).bad = 0 then 0x2 else (camOf s c).bad) s else s
    let src := rd s pgFST (camReg c 0)
    let size := rd s pgFST (camReg c 4)
    modCam c (fun v => { v with
      rx := fld src 2 0, vc := fld src 5 4, dt := fld src 13 8, width := fld size 12 0, height := fld size 28 16,
      base := (rd s pgFST (camReg c 8)).toNat + rdF s pgFST (camReg c 12) 7 0 * 2 ^ 32,
      slotBytes := rdF s pgFST (camReg c 16) 23 0 * 4096, trig0 := rdF s pgFST (camReg c 0x14) 15 0,
      trig1 := rdF s pgFST (camReg c 0x18) 15 0 }) s

/-- What a write of `FST_CAMc_SRC` does after it has landed. -/
def effCamSrc (c : Nat) (old : Bool) (s : State) : State := if camOn s c && !old then effCamEnable c s else s

/-- FST_CAM_ENABLE (R372): a write of `FST_CAMc_SRC`. -/
def execFstCamEnable (q : Port) (cam : Fin 16) (value : Word) (s : State) : Host.Outcome State Fault Refusal :=
  let off := camReg cam.val 0
  settle s (gateWrite q pgFST off (fun s => effCamSrc cam.val (camOn s cam.val) (landAt q pgFST off false value s)) s)

/-! ### Ethernet (R373 to R381) -/

def lxOf (s : State) (m x : Nat) : LidarBlk := (ethOf s m).lx.get LidarBlk.none x
def setLx (m x : Nat) (b : LidarBlk) (s : State) : State :=
  setEth m { ethOf s m with lx := (ethOf s m).lx.put LidarBlk.none x b } s

def lxReg (x off : Nat) : Nat := 0x100 + 0x40 * x + off

/-- A big-endian number in a frame. -/
def beAt (bs : List Byte) (o n : Nat) : Nat := ((bs.drop o).take n).foldl (fun x b => x * 256 + b.toNat) 0

/-- A frame passes the address filter: station, broadcast, the PTP addresses, or promiscuous (R373). -/
def ethAccepts (s : State) (m : Nat) (f : List Byte) : Bool :=
  let d := beAt f 0 6
  let sta := (rd s (pgETH m) 0x0A8).toNat + rdF s (pgETH m) 0x0AC 15 0 * 2 ^ 32
  rdB s (pgETH m) 0x0A0 5 || decide (d = sta) || decide (d = 0xFFFFFFFFFFFF) || decide (d = 0x0180C200000E)
    || decide (d = 0x011B19000000)

/-- An unfragmented IPv4 UDP packet without IP options: source address, destination port, payload. [DEDUCED, log entry 127] -/
def udpOf (f : List Byte) : Option (Nat × Nat × List Byte) :=
  let o := if beAt f 12 2 = 0x8100 then 18 else 14
  if beAt f (o - 2) 2 = 0x0800 ∧ byteAt f o = 0x45 ∧ beAt f (o + 6) 2 % 0x4000 = 0 ∧ byteAt f (o + 9) = 17
      ∧ o + 28 ≤ f.length then
    let n := min (beAt f (o + 24) 2 - 8) (f.length - (o + 28))
    some (beAt f (o + 12) 4, beAt f (o + 22) 2, (f.drop (o + 28)).take n)
  else none

/-- Extractor `x` takes a packet (R376). [DEDUCED, log entry 127] -/
def lxTakes (s : State) (m x ip port : Nat) : Bool :=
  let p := pgETH m
  rdB s p (lxReg x 0) 31 && decide (rdF s p (lxReg x 0) 15 0 = port) && decide (rdF s p (lxReg x 8) 18 11 ≠ 0)
    && (decide ((rd s p (lxReg x 4)).toNat = 0) || decide ((rd s p (lxReg x 4)).toNat = ip))

/-- Width in bytes of a field; none for the value the table does not give. -/
def fieldWidth (w : Word) : Option Nat :=
  let n := fld w 9 8
  if n = 0 then some 1 else if n = 1 then some 2 else if n = 2 then some 4 else none

/-- A field extends beyond the point, or has no width. [DEDUCED, log entry 126] -/
def fieldBad (s : State) (m x n : Nat) : Bool :=
  let w := rd s (pgETH m) (lxReg x (0x0C + 4 * n))
  flag w 15 && (match fieldWidth w with
    | some k => decide (rdF s (pgETH m) (lxReg x 8) 18 11 < fld w 7 0 + k)
    | none => true)

/-- Field `n` of a point as the 32 bits stored (R377). -/
def fieldValue (s : State) (m x n : Nat) (pt : List Byte) (dt : Nat) : Nat :=
  let w := rd s (pgETH m) (lxReg x (0x0C + 4 * n))
  let sc := (rd s (pgETH m) (lxReg x (0x1C + 4 * n))).toNat
  if flag w 15 then
    let k := (fieldWidth w).getD 1
    let raw := if flag w 11 then beAt pt (fld w 7 0) k else leAt pt (fld w 7 0) k
    Fp.mul (if flag w 10 then Fp.ofInt (toSigned (8 * k) raw) else Fp.ofNat raw) sc
  else if n = 3 then satN 32 dt
  else 0

/-- A packet of extractor `x` could not be placed: it is dropped and counted, the next block carries GAP, and LX_DROP tells of
the first since a block was granted, with the Mews's status (R356, R380). [DESIGN CHOICE, log entry 239] -/
def lidarDrop (m x status : Nat) (s : State) : State :=
  let b := lxOf s m x
  let t := incCnt (pgETH m) (lxReg x 0x38) 1 (setLx m x { b with gap := true, told := true } s)
  if b.told then t else raise (pgETH m) 0x101 sevDEGRADED (x + status % 8 * 16) t

/-- Closes the open block of an extractor: header, ring record, trigger (R379). A block whose header cannot be placed is dropped
and counted, its buffer left to its owner. [DESIGN CHOICE, log entry 239] -/
def closeBlock (m x : Nat) (s : State) : State :=
  let p := pgETH m
  let b := lxOf s m x
  if !b.opened then s
  else
    let hdr := leBytes 8 b.tbFirst ++ leBytes 8 b.tbLast ++ leBytes 4 b.points ++ leBytes 2 b.packets ++ leBytes 1 (x + 2 * m)
      ++ leBytes 1 (b2n b.gap + 2 * b2n (!rdB s p (lxReg x 0x18) 15)) ++ leBytes 4 b.srcIp ++ zeros 36
    let w := if canUse s .intake (bufAddr s b.handle) 64 then writeAs .intake (bufAddr s b.handle) hdr s else (some 0, s)
    let t := setLx m x { LidarBlk.none with told := b.told } w.2
    if w.1.isSome then lidarDrop m x mwOK t
    else
      let t := ringRecord p b.tbFirst 0x32 0 (leBytes 4 b.handle ++ leBytes 4 b.points) t
      postTarget p (rdF t p (lxReg x 0x30) 15 0) t

/-- The number of points a block takes. -/
def lxBlockPoints (s : State) (m x : Nat) : Nat := min 262140 (max 1 (rdF s (pgETH m) (lxReg x 0x2C) 17 0))

/-- An open block with room, or a newly granted one (R378, R380); false where the Mews grants none. -/
def needBlock (m x ip stamp : Nat) (s : State) : Bool × State :=
  let p := pgETH m
  let b := lxOf s m x
  if b.opened then (true, s)
  else
    let cap := lxBlockPoints s m x
    let o := rdF s p (lxReg x 0) 21 16
    let a := mewsAsk ⟨.lidar m x, o, 64 + 16 * cap, decide (o = 63)⟩ false false false s
    if a.1 = mwOK then (true, setLx m x ⟨true, a.2.1, cap, stamp, stamp, 0, 0, ip, b.gap, false⟩ a.2.2)
    else (false, lidarDrop m x a.1 a.2.2)

/-- The points still to come of a packet received at `stamp`; `fresh` where the block at hand has not counted this packet yet.
What remains of a packet whose point cannot be placed is dropped. -/
def takePoints (m x ip stamp : Nat) : List (List Byte) → Bool → State → State
  | [], _, s => s
  | pt :: t, fresh, s =>
    let g := needBlock m x ip stamp s
    if !g.1 then g.2
    else
      let b := lxOf g.2 m x
      let new := fresh || decide (b.points = 0)
      let b := if b.points = 0 then { b with tbFirst := stamp, srcIp := ip } else b
      let b := { b with tbLast := stamp, packets := if new then b.packets + 1 else b.packets }
      let vals := (List.range 4).flatMap (fun n => leBytes 4 (fieldValue g.2 m x n pt (stamp - b.tbFirst)))
      let a := bufAddr g.2 b.handle + 64 + 16 * b.points
      let w := if canUse g.2 .intake a 16 then writeAs .intake a vals g.2 else (some 0, g.2)
      if w.1.isSome then lidarDrop m x mwOK w.2
      else
        let u := setLx m x { b with points := b.points + 1 } w.2
        if b.points + 1 = b.cap then takePoints m x ip stamp t true (closeBlock m x u) else takePoints m x ip stamp t false u

/-- A packet taken by extractor `x` (R376 to R380). -/
def lidarPacket (m x ip stamp : Nat) (payload : List Byte) (s : State) : State :=
  let p := pgETH m
  let lay := rd s p (lxReg x 8)
  let pb := fld lay 18 11
  let room := (payload.length - fld lay 10 0) / max 1 pb
  let n := if fld lay 31 20 = 0 then room else min (fld lay 31 20) room
  let t := incCnt p (lxReg x 0x34) 1 s
  if n = 0 ∨ (List.range 4).any (fieldBad s m x) = true then incCnt p (lxReg x 0x3C) 1 t
  else takePoints m x ip stamp ((List.range n).map (fun i => (payload.drop (fld lay 10 0 + i * pb)).take pb)) true t

/-- ETH_FRAME_RECEIVE (R374, R376): a frame stamped `stamp` (R57), from its destination address, the frame check sequence
stripped. -/
def execEthFrameReceive (m : Fin 2) (frame : List Byte) (fcsOk : Bool) (stamp : Nat) (s : State) : Host.Outcome State Fault Refusal :=
  let p := pgETH m.val
  settle s (if !accepts s p || !rdB s p 0x0A4 0 then s
    else if !fcsOk then incCnt p 0x0E0 1 s
    else if 1518 < frame.length ∨ beAt frame 12 2 = 0x8808 ∨ ethAccepts s m.val frame = false then s
    else
      match udpOf frame with
      | some (ip, port, payload) =>
        if lxTakes s m.val 0 ip port then lidarPacket m.val 0 ip stamp payload s
        else if lxTakes s m.val 1 ip port then lidarPacket m.val 1 ip stamp payload s
        else ringRecord p stamp 0x30 0 frame s
      | none => ringRecord p stamp 0x30 0 frame s)

/-- The open block of an extractor is due to close: full, old enough, or its extractor disabled (R379). -/
def blockDue (s : State) (m x : Nat) : Bool :=
  let b := lxOf s m x
  let ms := max 1 (rdF s (pgETH m) (lxReg x 0x2C) 29 20)
  b.opened && (decide (b.points = b.cap) || (decide (b.points ≠ 0) && decide (b.tbFirst + ms * 1000000 ≤ now s)) || !rdB s (pgETH m) (lxReg x 0) 31)

/-- The fence of an ETH page: its open blocks close (R633), where ENABLE lets the page write (R355). -/
def ethFence (m : Nat) (s : State) : State := if enabled s (pgETH m) then closeBlock m 1 (closeBlock m 0 s) else s

/-- LIDAR_BLOCK_CLOSE (R379). -/
def execLidarBlockClose (m x : Fin 2) (s : State) : Host.Outcome State Fault Refusal :=
  settle s (if accepts s (pgETH m.val) && blockDue s m.val x.val then closeBlock m.val x.val s else s)

/-- What a write of `ETH_LXx_CTRL` does after it has landed: a disabled extractor closes its block, at once where
the page may write (R355), else when it may again (LIDAR_BLOCK_CLOSE). [DEDUCED, log entry 126] -/
def effLxCtrl (m x : Nat) (s : State) : State :=
  if rdB s (pgETH m) (lxReg x 0) 31 || !accepts s (pgETH m) then s else closeBlock m x s

/-- A write of `ETH_TX_DB` (R109, R375): a TAIL not below the depth is rejected. -/
def effEthTxDb (q : Port) (m tail : Nat) (s : State) : State :=
  let depth := if rdB s (pgETH m) 0x0C8 31 then (inRing s (pgETH m) true).depth
    else match ringSpec (pgETH m) true with | some c => cfgDepth s (pgETH m) c | none => 0
  if depth ≤ tail then cmdRej q (pgETH m) 0x0D0 0 s else setEth m { ethOf s m with tail := tail } s

/-- ETH_TX_DOORBELL (R375). -/
def execEthTxDoorbell (q : Port) (m : Fin 2) (tail : Nat) (s : State) : Host.Outcome State Fault Refusal :=
  settle s (gateWrite q (pgETH m.val) 0x0D0 (effEthTxDb q m.val (tail % 1024)) s)

/-- The next transmit entry is sent, or skipped and counted. [DEDUCED, log entry 128] -/
def ethSend (m : Nat) (s : State) : State :=
  let p := pgETH m
  let r := inRing s p true
  let head := rdF s p 0x0CC 9 0
  let g := readAs .intake (r.base + head * 2048) 2048 s
  let e := g.1
  let len := leAt e 0 2
  let t := wrN p 0x0CC ((head + 1) % max 1 r.depth) g.2.2
  if g.2.1.isSome ∨ len < 60 ∨ 1518 < len ∨ 1 < byteAt e 2 ∨ zerosAt e 3 13 = false then incCnt p 0x0E4 1 t
  else
    let t := setEth m { ethOf t m with last := (e.drop 16).take len } t
    if bitOf (byteAt e 2) 0 then ringRecord p (now s) 0x31 0 (leBytes 4 head) t else t

/-- ETH_TRANSMIT (R375). [DEDUCED, log entry 128] -/
def execEthTransmit (m : Fin 2) (s : State) : Host.Outcome State Fault Refusal :=
  let p := pgETH m.val
  let r := inRing s p true
  settle s (if accepts s p && rdB s p 0x0A4 0 && rdB s p 0x0C8 31 && decide (rdF s p 0x0CC 9 0 ≠ (ethOf s m.val).tail)
      && canUse s .intake (r.base + rdF s p 0x0CC 9 0 * 2048) 2048 then ethSend m.val s else s)

/-- LINK_CHANGE (R381): the PCS shows its state; an event tells of a change of UP. -/
def execLinkChange (m : Fin 2) (up anDone : Bool) (s : State) : Host.Outcome State Fault Refusal :=
  let p := pgETH m.val
  settle s (if pageOn s p && decide (rdF s p 0x0A0 1 0 ≠ 0 ∨ up = false) then
    let t := wrN p 0x0A4 (b2n up + 2 * b2n anDone) s
    if rdB s p 0x0A4 0 = up then t else raise p 0x100 sevDEGRADED (b2n up) t
  else s)

/-! ### Enabling a ring -/

/-- INTAKE_RING_ENABLE of an intake or transmit ring: a write of its configuration register lands, and enables it. -/
def effRingCfgWrite (q : Port) (page : Nat) (transmit : Bool) (c : RingSpec) (value : Word) (s : State) : State :=
  effIntakeCfg page transmit c (ringOn s page c) (landAt q page c.cfg false value s)

/-! ### CAN FD (R382, R383) -/

def canState (s : State) (c : Nat) : Nat := rdF s (pgCAN c) 0x0AC 1 0

/-- A frame passes the filters: none valid, or some valid one matches. -/
def canPasses (s : State) (c : Nat) (f : CanFrame) : Bool :=
  let v := (List.range 16).filter (fun i => rdB s (pgCAN c) (0x100 + 8 * i) 31)
  v.isEmpty || v.any (fun i =>
    let w := rd s (pgCAN c) (0x100 + 8 * i)
    let m := rdF s (pgCAN c) (0x104 + 8 * i) 28 0
    decide (flag w 29 = f.ide) && decide (f.id &&& m = fld w 28 0 &&& m))

/-- [PRESUMED, log entry 129] -/
def canStatus (st tec recv : Nat) : Nat := st + tec % 256 * 256 + recv % 256 * 65536

/-- The error counters as they stand after a frame, in NORMAL mode; with both below 128 the controller is error active again. -/
def canCount (c : Nat) (f : CanFrame) (s : State) : State :=
  if rdF s (pgCAN c) 0x0A0 1 0 ≠ 1 then s
  else wrN (pgCAN c) 0x0AC (canStatus (if f.tec < 128 ∧ f.recv < 128 then 0 else canState s c) f.tec f.recv) s

/-- CAN_FRAME_RECEIVE (R383): a frame stamped at its start-of-frame sample point (R57), the counters after it. -/
def execCanFrameReceive (c : Fin 2) (f : CanFrame) (s : State) : Host.Outcome State Fault Refusal :=
  let p := pgCAN c.val
  let mode := rdF s p 0x0A0 1 0
  settle s (if !accepts s p || !decide (mode = 1 ∨ mode = 2) || decide (canState s c.val = 2) then s
  else if canPasses s c.val f then
    ringRecord p f.stamp 0x01 0 (leBytes 4 (f.id % 2 ^ 29 + b2n f.ide * 2 ^ 29 + b2n f.fdf * 2 ^ 30 + b2n f.brs * 2 ^ 31)
      ++ leBytes 1 (f.dlc % 16) ++ leBytes 1 (b2n f.rtr + 2 * b2n f.esi) ++ zeros 2 ++ f.data.take 64) (canCount c.val f s)
  else canCount c.val f s)

/-- BUS_OFF (R383). -/
def execBusOff (c : Fin 2) (tec recv : Nat) (s : State) : Host.Outcome State Fault Refusal :=
  let p := pgCAN c.val
  settle s (if accepts s p && decide (rdF s p 0x0A0 1 0 = 1) && decide (canState s c.val ≠ 2) then
    raise p 0x100 sevDEGRADED tec (wrN p 0x0AC (canStatus 2 tec recv) s) else s)

/-- ERROR_PASSIVE (R387). -/
def execErrorPassive (c : Fin 2) (tec recv : Nat) (s : State) : Host.Outcome State Fault Refusal :=
  let p := pgCAN c.val
  settle s (if accepts s p && decide (rdF s p 0x0A0 1 0 = 1) && decide (canState s c.val = 0) then
    raise p 0x101 sevDEGRADED (tec % 256 + recv % 256 * 256) (wrN p 0x0AC (canStatus 1 tec recv) s) else s)

/-- `CAN_RECOVER.GO`: rejected unless bus-off. -/
def effCanRecover (q : Port) (c : Nat) (s : State) : State :=
  if canState s c ≠ 2 then cmdRej q (pgCAN c) 0x0B0 0 s else { s with canRecover := s.canRecover.put false c true }

/-- CAN_RECOVER (R383). -/
def execCanRecover (q : Port) (c : Fin 2) (s : State) : Host.Outcome State Fault Refusal :=
  settle s (gateWrite q (pgCAN c.val) 0x0B0 (effCanRecover q c.val) s)

/-- BUS_RECOVERY_COMPLETE (R383): reception resumes, error active with both counters at 0, as the standard has it.
[PRESUMED, log entry 129] -/
def execBusRecoveryComplete (c : Fin 2) (s : State) : Host.Outcome State Fault Refusal :=
  let p := pgCAN c.val
  settle s (if pageOn s p && s.canRecover.get false c.val && decide (canState s c.val = 2) then
    wrN p 0x0AC 0 { s with canRecover := s.canRecover.put false c.val false } else s)

/-! ### SPI (R384) -/

def SpiState.none : SpiState := ⟨false, 0, 0, [], 0, false, 0⟩
def spiOf (s : State) (c : Nat) : SpiState := s.spi.get SpiState.none c
def setSpi (c : Nat) (v : SpiState) (s : State) : State := { s with spi := s.spi.put SpiState.none c v }

def spiLen (s : State) (c : Nat) : Nat := min 64 (max 1 (rdF s (pgSPI c) 0x0A0 22 16))
def spiPeriodNs (s : State) (c : Nat) : Nat := min 1000000 (max 50 (rdF s (pgSPI c) 0x0A8 19 0)) * 1000

/-- The template's first `n` bytes. -/
def spiTemplate (s : State) (c n : Nat) : List Byte :=
  (List.range n).map (fun i => BitVec.ofNat 8 (rdF s (pgSPI c) (0x100 + 4 * (i / 4)) (8 * (i % 4) + 7) (8 * (i % 4))))

/-- The selected start has come: the selected edge of the selected GPIO, or a period of TB since the last (R384, R387).
[DEDUCED, log entry 130] -/
def spiDue (s : State) (c : Nat) (edge : Option (Fin 16 × Bool)) : Bool :=
  let w := rd s (pgSPI c) 0x0A4
  match edge with
  | some (pin, rising) => decide (fld w 1 0 = 2) && decide (fld w 7 4 = pin.val) && decide (fld w 9 8 = b2n (!rising))
  | none => decide (fld w 1 0 = 1) && decide ((spiOf s c).lastTick + spiPeriodNs s c ≤ now s)

/-- SPI_TRANSACTION_START (R384): by an edge of a pin, or by the period. [DEDUCED, log entry 130; DESIGN CHOICE, log entry 241] -/
def execSpiTransactionStart (c : Fin 2) (edge : Option (Fin 16 × Bool)) (s : State) : Host.Outcome State Fault Refusal :=
  let p := pgSPI c.val
  settle s (if !accepts s p || !spiDue s c.val edge then s
    else
      let v := { spiOf s c.val with lastTick := if edge.isSome then (spiOf s c.val).lastTick else now s }
      if v.active then
        let n := v.missed + 1
        let t := incCnt p 0x0AC 1 (setSpi c.val { v with told := true, missed := if v.told then n else 0 } s)
        if v.told then t else raise p 0x100 sevDEGRADED (satN 32 n) t
      else
        let n := spiLen s c.val
        setSpi c.val { v with active := true, start := now s, len := n, sent := spiTemplate s c.val n } s)

/-- SPI_TRANSACTION_END (R384). -/
def execSpiTransactionEnd (c : Fin 2) (rx : List Byte) (s : State) : Host.Outcome State Fault Refusal :=
  let v := spiOf s c.val
  settle s (if v.active && pageOn s (pgSPI c.val) then
    let t := setSpi c.val { v with active := false, told := false } s
    if accepts s (pgSPI c.val) then ringRecord (pgSPI c.val) v.start 0x10 0 (rx.take v.len) t else t
  else s)

/-! ### UART (R385) -/

def UartState.none : UartState := ⟨[], 0, false, false, 0, []⟩
def uartOf (s : State) (u : Nat) : UartState := s.uart.get UartState.none u
def setUart (u : Nat) (v : UartState) (s : State) : State := { s with uart := s.uart.put UartState.none u v }

/-- The value of an ASCII hexadecimal digit. -/
def hexDigit (b : Byte) : Option Nat :=
  let n := b.toNat
  if 48 ≤ n ∧ n ≤ 57 then some (n - 48) else if 65 ≤ n ∧ n ≤ 70 then some (n - 55)
  else if 97 ≤ n ∧ n ≤ 102 then some (n - 87) else none

/-- CK_OK and CK_BAD of a sentence (R385): 1, 2, or 0 where it carries no checksum. -/
def nmeaCheck (bs : List Byte) : Nat :=
  let n := bs.length
  let c0 := byteAt bs 0
  if (c0 = 0x24 ∨ c0 = 0x21) ∧ 6 ≤ n ∧ byteAt bs (n - 5) = 0x2A ∧ byteAt bs (n - 2) = 0x0D ∧ byteAt bs (n - 1) = 0x0A then
    match hexDigit (bs.getD (n - 4) 0), hexDigit (bs.getD (n - 3) 0) with
    | some h, some l =>
      let x := ((bs.drop 1).take (n - 6)).foldl (fun x b => x ^^^ b.toNat) 0
      if x = h * 16 + l then 1 else 2
    | _, _ => 0
  else 0

/-- The record gathered so far goes to the ring. -/
def uartRecord (u : Nat) (cont : Bool) (s : State) : State :=
  let p := pgUART u
  let v := uartOf s u
  let idle := rdB s p 0x0A0 25
  let flags := (if idle then 0 else nmeaCheck v.buf) + 4 * b2n cont + 8 * b2n v.fresh + 16 * b2n v.err
  ringRecord p v.tb (if idle then 0x21 else 0x20) flags v.buf (setUart u { v with buf := [], fresh := false, err := false } s)

/-- UART_RX_BYTE (R385): a character whose start bit was stamped `start`. -/
def execUartRxByte (u : Fin 2) (byte : Byte) (start : Nat) (afterIdle framing parity : Bool) (s : State) :
    Host.Outcome State Fault Refusal :=
  let p := pgUART u.val
  settle s (if !accepts s p then s
    else
      let err := framing || parity
      let t := if err then raise p 0x100 sevINFO (b2n framing + 2 * b2n parity) (incCnt p 0x0AC 1 s) else s
      let v := uartOf t u.val
      let mark := if afterIdle then start else v.mark
      let first := v.buf.isEmpty
      let v := { v with
        buf := v.buf ++ [byte], mark := mark, tb := if first then mark else v.tb,
        fresh := if first then afterIdle else v.fresh, err := v.err || err }
      let t := setUart u.val v t
      let idle := rdB t p 0x0A0 25
      if !idle && decide (byte = 0x0A) then uartRecord u.val false t
      else if 112 ≤ v.buf.length then uartRecord u.val (!idle) t
      else t)

/-- UART_IDLE_TIMEOUT (R385): two idle character times end the record in IDLE mode. -/
def execUartIdleTimeout (u : Fin 2) (s : State) : Host.Outcome State Fault Refusal :=
  let p := pgUART u.val
  settle s (if accepts s p && rdB s p 0x0A0 25 && !(uartOf s u.val).buf.isEmpty then uartRecord u.val false s else s)

/-- A write of `UART_TX`: rejected when the 64-byte FIFO is full. -/
def effUartTx (q : Port) (u : Nat) (b : Byte) (s : State) : State :=
  let v := uartOf s u
  if 64 ≤ v.fifo.length then cmdRej q (pgUART u) 0x0A4 0 s
  else wrN (pgUART u) 0x0A8 (v.fifo.length + 1) (setUart u { v with fifo := v.fifo ++ [b] } s)

/-- UART_TX (R387). -/
def execUartTx (q : Port) (u : Fin 2) (byte : Byte) (s : State) : Host.Outcome State Fault Refusal :=
  settle s (gateWrite q (pgUART u.val) 0x0A4 (effUartTx q u.val byte) s)

/-- UART_TX_BYTE_SENT (R387). -/
def execUartTxByteSent (u : Fin 2) (s : State) : Host.Outcome State Fault Refusal :=
  let v := uartOf s u.val
  settle s (if pageOn s (pgUART u.val) && !v.fifo.isEmpty then
    wrN (pgUART u.val) 0x0A8 (v.fifo.length - 1) (setUart u.val { v with fifo := v.fifo.drop 1 } s) else s)

/-! ### GPIO (R386) -/

/-- GPIO_EDGE (R386): the pin's level changes; a selected edge of an input is stamped and raised. -/
def execGpioEdge (pin : Fin 16) (rising : Bool) (s : State) : Host.Outcome State Fault Refusal :=
  let n := pin.val
  settle s (if !pageOn s pgGPIO then s
    else
      let t := wrB pgGPIO 0x088 n rising s
      let sel := rdF s pgGPIO 0x08C (2 * n + 1) (2 * n)
      let want := decide (sel = 3) || (rising && decide (sel = 1)) || (!rising && decide (sel = 2))
      if !accepts s pgGPIO || rdB s pgGPIO 0x080 n || !want then t
      else raise pgGPIO 0x100 sevINFO (n + 16 * b2n rising) (wrB pgGPIO 0x090 n true (wr64 pgGPIO (0x100 + 8 * n) (now s) t)))

end Sys2Proof.Machine
end

