-- ==== Sys2Proof/Machine/Bridge.lean ====
section
/-!
DEFINITION. The metrology bridge (page MBR, R526, R530, R531, R552, R556, R557): block reception, presence, the wheel ring,
the requests of the hosts and of the MET_JOURNEY joint order.
-/
namespace Sys2Proof.Machine

def Bridge.fresh : Bridge := ⟨0, none, 0, 0, 0, 0, none, none, false⟩
def modMbr (f : Bridge → Bridge) (s : State) : State := { s with mbr := f s.mbr }

/-- The registers of the wheel ring (R556): 32-byte entries, no count of records written. [DEDUCED, log entry 194] -/
def wheelRing : RingSpec := ⟨0x088, 0x090, 0x094, 0x098, 0x09C, 0, 32, 6, 16⟩

/-- `MBR_WR_CFG.LOG2_DEPTH`: values outside 6 to 16 act as 10. -/
def wheelDepth (s : State) : Nat :=
  let n := rdF s pgMBR 0x090 4 0
  2 ^ (if n < 6 ∨ 16 < n then 10 else n)

/-- The part of a write of `MBR_WR_CFG` that enables the ring. -/
def effWheelCfg (old : Bool) (s : State) : State :=
  if ringOn s pgMBR wheelRing && !old then
    let base := cfgBase s pgMBR wheelRing
    if !isData s base (wheelDepth s * 32) then hwClearLost pgMBR 0x090 31 s
    else wrN pgMBR 0x098 0 (wrN pgMBR 0x094 0 (setInRing pgMBR false ⟨base, wheelDepth s, 0, 0⟩ s))
  else s

/-- A wheel sample reaches the ring, or is dropped and counted where the ring is full, disabled, gated by `PG_CTRL.ENABLE`, stopped by a fence (R633), or
its memory cannot be written now (R116, R556). [DEDUCED, log entry 194] -/
def wheelSample (payload : List Byte) (s : State) : State :=
  let r := inRing s pgMBR false
  let tail := rdF s pgMBR 0x098 15 0
  let full := decide ((tail + 1) % max 1 r.depth = rdF s pgMBR 0x094 15 0 % max 1 r.depth)
  let a := r.base + tail * 32
  if !ringOn s pgMBR wheelRing || !enabled s pgMBR || fenceBit s pgMBR || full || !canUse s .intake a 32 then incCnt pgMBR 0x09C 1 s
  else wrN pgMBR 0x098 ((tail + 1) % max 1 r.depth) (storeAs .intake a (leBytes 8 (now s) ++ payload ++ zeros (24 - payload.length)) s)

/-- The bridge is powered. [DEDUCED, log entry 198] -/
def mbrOn (s : State) : Bool := pageOn s pgMBR

/-- Sends a mailbox frame: it waits at the compartment for its next cycle, or is lost where MET_VIN is absent (R529). -/
def sendFrame (code param : Nat) (s : State) : State :=
  let t := modMbr (fun b => { b with txSeq := (b.txSeq + 1) % 256 }) s
  if !s.met.vin then t
  else modMet (fun m => { m with mailbox := m.mailbox ++ [⟨mkFrame code s.mbr.txSeq param, m.ct⟩] }) t

/-- A host's read request (R557): CMD_REJ while one is outstanding, for a code that is not 3, 4 or 5 (R528), and while the page is fenced
(R633). -/
def effMbrReq (q : Port) (code : Nat) (s : State) : State :=
  if code < 3 ∨ 5 < code ∨ rdB s pgMBR 0x0B4 0 = true ∨ fenceBit s pgMBR = true then cmdRej q pgMBR 0x0A0 0 s
  else sendFrame code (rd64 s pgMBR 0x0A4) (wrB pgMBR 0x0B4 0 true (modMbr (fun b => { b with readSeq := some b.txSeq }) s))

/-- MBR_READ_RECORD: a host writes code 3 to `MBR_REQ`. -/
def execMbrReadRecord (q : Port) (s : State) : Host.Outcome State Fault Refusal :=
  settle s (gateWrite q pgMBR 0x0A0 (effMbrReq q 3) s)

/-- MBR_READ_AUDIT: code 4. -/
def execMbrReadAudit (q : Port) (s : State) : Host.Outcome State Fault Refusal :=
  settle s (gateWrite q pgMBR 0x0A0 (effMbrReq q 4) s)

/-- MBR_READ_IDENTITY: code 5. -/
def execMbrReadIdentity (q : Port) (s : State) : Host.Outcome State Fault Refusal :=
  settle s (gateWrite q pgMBR 0x0A0 (effMbrReq q 5) s)

/-- Why a MET_JOURNEY order is refused at application; 0 where it is not (R130, R557). [DEDUCED, log entry 196] -/
def journeyOrderRefused (s : State) (arg : Nat) : Nat :=
  if (arg % 256 ≠ 1 ∧ arg % 256 ≠ 2) ∨ arg / 2 ^ 40 ≠ 0 then 0x01
  else if !mbrOn s || rdB s pgMBR 0x080 1 || s.mbr.journeySeq.isSome then 0x04
  else 0

/-- A MET_JOURNEY order is applied: its request goes to the mailbox. [DEDUCED, log entry 196] -/
def applyJourneyOrder (arg : Nat) (s : State) : State :=
  sendFrame (arg % 256) (arg / 256 * 256) (modMbr (fun b => { b with journeySeq := some b.txSeq }) s)

/-- TB_SYNC_SEND: every 100,000,000 TB ns while `MBR_CTRL.SYNC` is 1 (R552), gated by `PG_CTRL.ENABLE` (R556).
[DEDUCED, log entry 199] -/
def execTbSyncSend (s : State) : Host.Outcome State Fault Refusal :=
  if mbrOn s && enabled s pgMBR && rdB s pgMBR 0x084 0 && decide (s.mbr.lastSync + 100000000 ≤ now s) then
    settle s (sendFrame 6 (now s % 2 ^ 64) (modMbr (fun b => { b with lastSync := now s }) s))
  else .next s

/-- A RESPONSE block: copied to `MBR_RSP_ADDR`, RSP_READY, and the compartment's answer to a journey request (R557).
[DEDUCED, log entry 195] -/
def takeResponse (b : List Byte) (s : State) : State :=
  let code := byteAt b 8
  let seq := byteAt b 9
  let result := byteAt b 10
  let a := (rd s pgMBR 0x0AC).toNat / 128 * 128 + rdF s pgMBR 0x0B0 7 0 * 2 ^ 32
  let t := if isData s a 128 && canUse s .intake a 128 then storeAs .intake a b s else s
  let t := wrF pgMBR 0x0B4 23 16 result (wrF pgMBR 0x0B4 15 8 seq t)
  let t := if s.mbr.readSeq = some seq ∧ 3 ≤ code then wrB pgMBR 0x0B4 0 false (modMbr (fun x => { x with readSeq := none }) t) else t
  let t := raise pgMBR 0x107 sevINFO (seq + result * 2 ^ 8) t
  if s.mbr.journeySeq = some seq ∧ code < 3 then
    let t := modMbr (fun x => { x with journeySeq := none }) t
    if result ≠ 0 then raise pgMBR 0x102 sevJOB (result + (code - 1) * 2 ^ 8) t
    else raise pgMBR (if code = 1 then 0x100 else 0x101) sevINFO (leAt b 12 4) t
  else t

/-- A STATUS block: MBR_STATUS and the events of its changes. [DEDUCED, log entry 197] -/
def takeStatus (b : List Byte) (s : State) : State :=
  let st := leAt b 8 4
  let causes := byteAt b 20
  let old := rd s pgMBR 0x080
  let t := wrF pgMBR 0x080 15 8 causes (wrB pgMBR 0x080 4 (decide (causes ≠ 0)) (wrB pgMBR 0x080 3 (bitOf st 1)
    (wrB pgMBR 0x080 2 (bitOf st 0) s)))
  let t := if flag old 2 ≠ bitOf st 0 then raise pgMBR 0x105 sevINFO (b2n (!bitOf st 0)) t else t
  if causes &&& (255 - fld old 15 8) ≠ 0 then raise pgMBR 0x106 sevDEGRADED causes t else t

/-- A correct block counts towards presence and the missing ones by sequence (R530). -/
def takePresence (seq : Nat) (s : State) : State :=
  let missing := match s.mbr.lastSeq with | some l => (seq + 255 - l) % 256 | none => 0
  let run := match s.mbr.lastSeq with | some l => if seq = (l + 1) % 256 then s.mbr.run + 1 else 1 | none => 1
  let t := modMbr (fun x => { x with lastSeq := some seq, run := run, lastBlock := now s, absentTold := false }) (incCnt pgMBR 0x0B8 1 s)
  let t := if missing = 0 then t else incCnt pgMBR 0x0C0 missing t
  if 3 ≤ run ∧ rdB t pgMBR 0x080 0 = false then
    raise pgMBR 0x104 sevINFO 0 (wrB pgMBR 0x080 0 true (wrB pgMBR 0x080 1 false t))
  else t

/-- A block arrives with these bytes. [DEDUCED, log entry 198] -/
def takeBlock (b : List Byte) (s : State) : State :=
  if b.length ≠ 128 ∨ leAt b 124 4 ≠ Crypto.crc32 (b.take 124) then
    modMbr (fun x => { x with run := 0 }) (incCnt pgMBR 0x0BC 1 s)
  else
    let t := takePresence (byteAt b 1) s
    if byteAt b 0 = 1 then wheelSample ((b.drop 8).take 17) t
    else if byteAt b 0 = 2 then takeStatus b t
    else if byteAt b 0 = 3 then takeResponse b t
    else t

/-- MBR_BLOCK_RECEIVE: the next block on the data path arrives, as sent or as the bytes given; none under way: nothing. With
the bridge off the block is lost. -/
def execMbrBlockReceive (arrived : Option (List Byte)) (s : State) : Host.Outcome State Fault Refusal :=
  match s.met.dataPath with
  | [] => .next s
  | b :: _ =>
    let t := modMet (fun m => { m with dataPath := m.dataPath.drop 1 }) s
    settle s (if mbrOn s then takeBlock (arrived.getD b) t else t)

/-- No correct block has arrived for 5 ms of TB, since the last one or since the bridge is on (R530). [DEDUCED, log entry 220] -/
def tileSilent (s : State) : Bool :=
  if rdB s pgMBR 0x080 0 then decide (s.mbr.lastBlock + 5000000 ≤ now s)
  else !s.mbr.absentTold && decide (max s.mbr.lastBlock (s.power.domainOnAt.get 0 8) + 5000000 ≤ now s)

/-- TILE_ABSENT: no correct block for 5 ms of TB (R530). -/
def execTileAbsent (s : State) : Host.Outcome State Fault Refusal :=
  if mbrOn s && tileSilent s then
    settle s (raise pgMBR 0x103 sevDEGRADED 0 (modMbr (fun x => { x with run := 0, absentTold := true })
      (wrB pgMBR 0x080 0 false (wrB pgMBR 0x080 1 true s))))
  else .next s

/-- ABSENT_SAMPLE: every 1,000,000 TB ns while TILE_ABSENT is set and the ring is enabled (R531). [DEDUCED, log entry 199] -/
def execAbsentSample (s : State) : Host.Outcome State Fault Refusal :=
  if mbrOn s && rdB s pgMBR 0x080 1 && ringOn s pgMBR wheelRing && decide (s.mbr.lastAbsent + 1000000 ≤ now s) then
    settle s (wheelSample (zeros 16 ++ [0x20]) (modMbr (fun x => { x with lastAbsent := now s }) s))
  else .next s

end Sys2Proof.Machine
end

