-- ==== Sys2Proof/Machine/Dram.lean ====
section
/-!
DEFINITION. DRAM, the resident store and flag space (chapter 6): training and maps, inline ECC, refresh, the memory
regulator and its tags, memory accesses with their errors, the patrol scrub, and the FLG page.
-/
namespace Sys2Proof.Machine

/-! ### Training (R166, R167, R171) -/

def modDram (f : DramState → DramState) (s : State) : State := { s with dram := f s.dram }

def trainState (s : State) (c : Nat) : Nat := rdF s (pgDMC c) 0x080 1 0

/-- The controllers that have failed training (`DMC_STATUS.FAIL_STEP`, cleared at a pass). [DEDUCED, log entry 80] -/
def failedCtl (s : State) : List Nat := (List.range 12).filter (fun c => decide (rdF s (pgDMC c) 0x080 15 8 ≠ 0))

/-- `DMC_MAP.OFFER` (R167). [DEDUCED, log entry 80] -/
def offerOf (s : State) : Nat := match failedCtl s with | [] => 0xF | [c] => c | _ => 0xE

def setOffer (s : State) : State := wrF (pgDMC 0) 0x100 7 4 (offerOf s) s

/-- A controller's training starts. -/
def startTraining (c : Nat) (s : State) : State :=
  modDram (fun d => { d with trainAt := d.trainAt.put 0 c (now s) }) (wrF (pgDMC c) 0x080 1 0 1 s)

/-- Every controller of the map in force has passed training. -/
def mapTrained (s : State) : Bool := (mapMembers (mapInForce s)).all (fun c => ready s (pgDMC c))

/-- The initialisation of a region starts; the ECC state it ends in is latched (R175, R203). -/
def startInit (r : Nat) (on : Bool) (s : State) : State :=
  wrN (pgDMC 0) 0x110 (1 + r * 2 ^ 8) (modDram (fun d => { d with initRegion := some r, initOn := on, initAt := now s }) s)

/-- The next initialisation owed after a map change starts, once every controller is trained; when none is owed the change is
over (R169, R175). -/
def nextOwed (s : State) : State :=
  if s.dram.initRegion.isSome || !domOn s 2 || !rdB s (pgDMC 0) 0x100 8 || !mapTrained s then s
  else match s.dram.owed with
    | r :: _ => startInit r true s
    | [] => wrB (pgDMC 0) 0x100 8 false s

/-- A controller's training ends: step 0 is a pass. -/
def trainEnd (c step : Nat) (s : State) : State :=
  if step = 0 then
    let t := setOffer (wrF (pgDMC c) 0x080 15 8 0 (wrF (pgDMC c) 0x080 1 0 2 s))
    serveApertures (nextOwed (raise (pgDMC c) 0x101 sevINFO ((now s - s.dram.trainAt.get 0 c) / 1000) (setReady (pgDMC c) 1 t)))
  else
    let t := setOffer (wrF (pgDMC c) 0x080 15 8 step (wrF (pgDMC c) 0x080 1 0 3 s))
    raise (pgDMC c) 0x100 sevDEGRADED step (setReady (pgDMC c) 2 t)

/-- The 15 ms in which a controller has to pass its training are over. -/
def trainLate (c : Nat) (s : State) : Bool := decide (s.dram.trainAt.get 0 c + 15000000 < now s)

/-- DMC_TRAIN_DONE; a result after the 15 ms is a timeout (R166). -/
def execDmcTrainDone (ctl : Fin 12) (failStep : Nat) (s : State) : Host.Outcome State Fault Refusal :=
  if pageOn s (pgDMC ctl.val) && decide (trainState s ctl.val = 1) && decide (failStep < 5) then
    settle s (trainEnd ctl.val (if trainLate ctl.val s then 5 else failStep) s)
  else .next s

/-- TRAIN_TIMEOUT: not passed within 15 ms. -/
def execTrainTimeout (ctl : Fin 12) (s : State) : Host.Outcome State Fault Refusal :=
  if pageOn s (pgDMC ctl.val) && decide (trainState s ctl.val = 1) &&
      decide (s.dram.trainAt.get 0 ctl.val + 15000000 ≤ now s) then settle s (trainEnd ctl.val 5 s)
  else .next s

/-- A write of 1 to `DMC_CTRL.RETRAIN` (R171). -/
def effRetrain (q : Port) (c : Nat) (s : State) : State :=
  if ready s (pgDMC c) || decide (trainState s c = 1) then cmdRej q (pgDMC c) 0x084 0 s else startTraining c s

/-- RETRAIN. -/
def execRetrain (q : Port) (ctl : Fin 12) (s : State) : Host.Outcome State Fault Refusal :=
  settle s (gateWrite q (pgDMC ctl.val) 0x084 (effRetrain q ctl.val) s)

/-! ### Undefined contents (R169, R173, R175, R673) -/

/-- The regions of 2 GiB that `f` selects forget what is listed for them and read as `v`. [DESIGN CHOICE, log entry 6] -/
def fillRegions (f : Nat → Bool) (v : Fill) (s : State) : State :=
  ((List.range 32).filter f).foldl (fun t r => fillRange (r * 2 ^ 31) ((r + 1) * 2 ^ 31) v t) s

/-- The spec leaves the contents of the regions that `f` selects undefined: every byte of them becomes a free value, and so
does the state of every word's code. [DESIGN CHOICE, log entry 6] -/
def scrambleDram (f : Nat → Bool) (s : State) : State := nextFree (fillRegions f (.free s.freeCtr) s)

/-! ### Inline ECC (R174, R175) -/

/-- The granules of 256 bytes of region `r` that member `i` of a map with `n` members serves. -/
def regionGranules (r n i : Nat) : Nat := ((r + 1) * 2 ^ 23 + n - 1 - i) / n - (r * 2 ^ 23 + n - 1 - i) / n

/-- Writes zeros to a whole region with fresh codes; each controller counts what it writes. [DEDUCED, log entry 89] -/
def zeroRegion (r : Nat) (s : State) : State :=
  let l := mapMembers (mapInForce s)
  (List.range l.length).foldl (fun (t : State) (i : Nat) => countCtl (l.getD i 0) (regionGranules r l.length i * 256) t)
    (fillRegions (fun k => decide (k = r)) .zero s)

/-- A write of `DMC_ECC_INIT`; `DMC_ECC_REQ` counts as it stands at the acceptance, for it asks for the next initialisation.
[DEDUCED, log entry 81] -/
def effEccInit (q : Port) (r : Nat) (s : State) : State :=
  if s.dram.initRegion.isSome || !dramReady s then cmdRej q (pgDMC 0) 0x10C 0 s
  else startInit r (rdB s (pgDMC 0) 0x104 r) s

/-- DMC_ECC_INIT. -/
def execDmcEccInit (q : Port) (region : Fin 32) (s : State) : Host.Outcome State Fault Refusal :=
  settle s (gateWrite q (pgDMC 0) 0x10C (effEccInit q region.val) s)

/-- ECC_INIT_DONE: the region reads as zeros; its ECC state is the one latched at the start: that of `DMC_ECC_REQ`, or, for a
region owed after a map change, in force. [DEDUCED, log entry 81] -/
def execEccInitDone (s : State) : Host.Outcome State Fault Refusal :=
  match s.dram.initRegion with
  | none => .next s
  | some r =>
    if !domOn s 2 then .next s
    else
      let on := s.dram.initOn
      let t := zeroRegion r (modDram (fun d => { d with initRegion := none, owed := d.owed.filter (· ≠ r) }) s)
      let t := wrN (pgDMC 0) 0x110 (r * 2 ^ 8 + 2048 * 2 ^ 16) (wrB (pgDMC 0) 0x108 r on t)
      settle s (serveApertures (nextOwed (raise (pgDMC 0) 0x107 sevINFO (r + 32 * b2n on) t)))

/-! ### Refresh and self-refresh (R172, R173) -/

/-- MR4_READ. -/
def execMr4Read (ctl : Fin 12) (aboveNominal : Bool) (code : Nat) (s : State) : Host.Outcome State Fault Refusal :=
  let p := pgDMC ctl.val
  if !pageOn s p then .next s
  else if aboveNominal && !rdB s p 0x080 4 then settle s (raise p 0x105 sevDEGRADED code (wrB p 0x080 4 true s))
  else if !aboveNominal && rdB s p 0x080 4 then settle s (raise p 0x106 sevINFO code (wrB p 0x080 4 false s))
  else .next s

/-- SELF_REFRESH_ENTRY: a trained controller without a request for `SR_IDLE_US`. -/
def execSelfRefreshEntry (ctl : Fin 12) (s : State) : Host.Outcome State Fault Refusal :=
  let p := pgDMC ctl.val
  let us := rdF s p 0x084 31 16
  if pageOn s p && decide (us ≠ 0) && decide (trainState s ctl.val = 2) && !rdB s p 0x080 3 &&
      decide (s.dram.lastReq.get 0 ctl.val + us * 1000 ≤ now s) then settle s (wrB p 0x080 3 true s)
  else .next s

/-! ### The regulator (R185 to R192) -/

/-- A write of `MREG_BUDGET` and `MREG_CLASSn` registers in one instant (R76, R191): LCK fields land unless locked; a write that
takes effect re-evaluates the guarantees, once. -/
def effMregClass (q : Port) (ws : List (Nat × Word)) (s : State) : State :=
  let t := ws.foldl (fun t e => landLck q pgMREG e.1 e.2 t) s
  if locked s pgMREG then t
  else match guarShort t with
    | some c => if guarShort s = some c then t else raise pgMREG 0x100 sevINFO c t
    | none => t

/-- A write of `MREG_TAGMIN` (R186). -/
def effMregTagmin (q : Port) (w : Word) (s : State) : State :=
  let t := landLck q pgMREG 0x0A4 w s
  if locked s pgMREG then t
  else match tagShort t with
    | some c => if tagShort s = some c then t else raise pgMREG 0x101 sevINFO c t
    | none => t

/-- MREG_CLASS_WRITE: `MREG_BUDGET`, or `MREG_CLASSn`. -/
def execMregClassWrite (q : Port) (index : Option (Fin 8)) (value : Word) (s : State) : Host.Outcome State Fault Refusal :=
  let off := match index with | none => 0x080 | some n => 0x084 + 4 * n.val
  settle s (gateWrite q pgMREG off (effMregClass q [(off, value)]) s)

/-- MREG_TAGMIN_WRITE. -/
def execMregTagminWrite (q : Port) (value : Word) (s : State) : Host.Outcome State Fault Refusal :=
  settle s (gateWrite q pgMREG 0x0A4 (effMregTagmin q value) s)

/-- A request joins those that wait. -/
def presentReq (r : PresentedReq) (s : State) : State :=
  if 0x1000000000 ≤ r.dpa then s
  else modRegul (fun g => { g with waiting := g.waiting ++ [⟨classOf s r.source, controllerOf s r.dpa, min 64 r.bytes⟩] }) s

/-- A completed request gives its tag back. -/
def releaseTag (c ctl : Nat) (s : State) : State :=
  if heldBy s c = 0 ∨ s.regul.tagsCtl.get 0 ctl = 0 then s
  else modRegul (fun g =>
    { g with tagsClass := g.tagsClass.put 0 c (g.tagsClass.get 0 c - 1), tagsCtl := g.tagsCtl.put 0 ctl (g.tagsCtl.get 0 ctl - 1) }) s

/-- A request is admitted: it takes a tag, its controller serves it (R173) and, unless it is a record's, its bytes are counted
in its class. -/
def takeTags (r : DramReq) (s : State) : State :=
  countClass r.cls r.bytes (countCtl r.ctl r.bytes (modRegul (fun g =>
    { g with
      waiting := g.waiting.erase r, tagsClass := g.tagsClass.put 0 r.cls (g.tagsClass.get 0 r.cls + 1)
      tagsCtl := g.tagsCtl.put 0 r.ctl (g.tagsCtl.get 0 r.ctl + 1) }) s))

/-- The admissions of one instant, at most `n`: each is decided on the bytes admitted before the instant (R190). -/
def admitMany : Nat → State → State
  | 0, s => s
  | n + 1, s => match pickRequest s with
    | some r => admitMany n (takeTags r s)
    | none => s

/-- REQUEST_ADMIT: completed requests free their tags, presented ones join, and up to `count` waiting requests are admitted in
this instant. -/
def execRequestAdmit (present : List PresentedReq) (done : List (Nat × Fin 12)) (count : Nat) (s : State) :
    Host.Outcome State Fault Refusal :=
  if !pageOn s pgMREG then .next s
  else
    let t := done.foldl (fun (a : State) (d : Nat × Fin 12) => releaseTag d.1 d.2.val a) s
    let t := present.foldl (fun (a : State) (r : PresentedReq) => presentReq r a) t
    settle s (serveApertures (regulStatus (admitMany count (openInstant t))))

/-- REGULATOR_INTERVAL: the counts start again with the bytes beyond each limit, at most 12 × 64, carried (R190),
and what waited for it is served. -/
def execRegulatorInterval (s : State) : Host.Outcome State Fault Refusal :=
  if !pageOn s pgMREG || decide (now s / 1000 ≤ s.regul.start / 1000) then .next s
  else settle s (serveApertures (regulStatus (openInstant s)))

/-! ### Memory accesses (R193 to R199) -/

/-- An error that has come over a word since it was last written: one more bit in an erroneous word, or in the poison code,
makes it uncorrectable (R199). -/
def worsen (m : Mark) (u : Upset) : Mark :=
  match u, m with
  | .none, m | .link, m => m
  | .correctable, .good => .correctable
  | _, _ => .uncorrectable

/-- The word at `a` has met an error; where no code is in force the byte changes unnoticed to a free value (R177). A correction of
link ECC is counted at the controller and changes nothing. [DESIGN CHOICE, log entry 83] -/
def upsetAt (a : Nat) (u : Upset) (s : State) : State :=
  if u = .none then s
  else if u = .link then (if a < 0x1000000000 then incCnt (pgDMC (controllerOf s a)) 0x094 1 s else s)
  else match codedWords s a 1 with
    | w :: _ => setMark w (worsen (markOf s w) u) s
    | [] => nextFree (setByte a (Config.freeByte s.freeCtr a) s)

/-- MEM_READ: the data, corrected where that is possible, or POISON status; held while the memory cannot be used.
[DESIGN CHOICE, log entry 83] -/
def execMemRead (dpa len : Nat) (upset : Upset) (s : State) : Host.Outcome State Fault Refusal :=
  if len = 0 then .next s
  else if !isData s dpa len then .fault (.unmapped dpa)
  else if !memUsable s dpa len then .next s
  else
    let r := readMem dpa len (upsetAt dpa upset s)
    settle s (modDram (fun d => { d with lastData := if r.2.1.isSome then [] else r.1, lastPoison := r.2.1.isSome }) r.2.2)

/-- MEM_WRITE: whole words stored, partial ones merged by read-merge-write; held while the memory cannot be used. -/
def execMemWrite (dpa : Nat) (data : List Byte) (upset : Upset) (s : State) : Host.Outcome State Fault Refusal :=
  if data.isEmpty then .next s
  else if !isData s dpa data.length then .fault (.unmapped dpa)
  else if !memUsable s dpa data.length then .next s
  else settle s (storeRecord dpa data (upsetAt dpa upset s))

/-! ### Patrol scrub (R200) -/

/-- The scrub reads one word: corrected, or poisoned with SCRUB_UE. [DEDUCED, log entry 82] -/
def scrubWord (w : Nat) (s : State) : State :=
  if bankBad s w then s
  else match markOf s w with
    | .correctable => correctWord w s
    | .uncorrectable =>
      let g := wordPage s w
      raise g.page g.scrub sevDEGRADED g.index (condemnWord w s)
    | _ => s

/-- The DPA of the `n`th granule of a controller under the map in force; none where the controller is not in it. -/
def granuleOf (s : State) (c n : Nat) : Option Nat :=
  let l := mapMembers (mapInForce s)
  if l.contains c then some ((n / 8 * l.length + l.idxOf c) * 256 + n % 8 * 32) else none

/-- PATROL_SCRUB of one controller's DRAM, or of the resident store: its next word; an address without a coded word is passed
over. [DEDUCED, log entry 82] -/
def execPatrolScrub (ctl : Option (Fin 12)) (upset : Upset) (s : State) : Host.Outcome State Fault Refusal :=
  match ctl with
  | some c =>
    let n := s.dram.scrubNext.get 0 c.val
    if !pageOn s (pgDMC c.val) || decide (rdF s (pgDMC c.val) 0x0A8 15 0 = 0) then .next s
    else match granuleOf s c.val n with
      | none => .next s
      | some a =>
        if 0x1000000000 ≤ a then settle s (modDram (fun d => { d with scrubNext := d.scrubNext.put 0 c.val 0 }) s)
        else
          let t := modDram (fun d => { d with scrubNext := d.scrubNext.put 0 c.val (n + 1) }) s
          if !isData s a 32 || !eccOn s a then settle s t
          else if !memUsable s a 32 then .next s
          else settle s (scrubWord a (countDram a 32 (upsetAt a upset t)))
  | none =>
    let n := s.dram.scrubNext.get 0 12
    if !ready s pgRES || decide (rdF s pgRES 0x09C 15 0 = 0) then .next s
    else
      let a := residentBase + 8 * n
      let t := modDram (fun d => { d with scrubNext := d.scrubNext.put 0 12 ((n + 1) % (48 * 2 ^ 18)) }) s
      settle s (scrubWord a (upsetAt a upset t))

/-! ### Resident store (R179, R180) -/

/-- Zeroes the resident store, flag space included. -/
def zeroResident (s : State) : State :=
  { s with
    mem := ⟨s.mem.cells.dropKeys (fun a => decide (residentBase ≤ a)), s.mem.fills⟩
    marks := s.marks.dropKeys (fun a => decide (residentBase ≤ a)) }

/-- One bank is marked bad. -/
def markBank (b : Nat) (bist repair : Bool) (s : State) : State :=
  let t := if b < 32 then wrB pgRES 0x084 b true s else wrB pgRES 0x088 (b - 32) true s
  raise pgRES 0x103 sevDEGRADED (b + 2 ^ 8 * b2n bist + 2 ^ 9 * b2n repair) t

/-- RES_INIT_DONE: the store reads as zeros; banks that failed BIST (where the strap selects it) or their repair are marked;
RES and, with it, FLG report READY. -/
def execResInitDone (bistFail repairFail : List Nat) (s : State) : Host.Outcome State Fault Refusal :=
  if !pageOn s pgRES || rdB s pgRES 0x080 0 then .next s
  else
    let bist := rdB s pgMGT 0x08C 0
    let fails (b : Nat) : Bool := bist && bistFail.contains b
    let bad := (List.range 48).filter (fun b => fails b || repairFail.contains b)
    let t := wrN pgRES 0x080 (1 + 2 * b2n bist) (zeroResident s)
    let t := bad.foldl (fun (a : State) (b : Nat) => markBank b (fails b) (repairFail.contains b) a) t
    settle s (serveApertures (setReady pgFLG 1 (setReady pgRES (1 + 2 * b2n (!bad.isEmpty)) t)))

/-! ### The FLG page (R181 to R184, R206) -/

/-- FLG_SET and FLG_CLR, with the flag operations of other requesters in the same instant (R182). -/
def effFlg (f : Nat) (v : Bool) (same : List (Nat × Bool)) (s : State) : State := (flagOps (f % 2 ^ 19) v same s).2

def execFlgSet (q : Port) (flag : Nat) (same : List (Nat × Bool)) (s : State) : Host.Outcome State Fault Refusal :=
  settle s (gateWrite q pgFLG 0x080 (effFlg flag true same) s)

def execFlgClr (q : Port) (flag : Nat) (same : List (Nat × Bool)) (s : State) : Host.Outcome State Fault Refusal :=
  settle s (gateWrite q pgFLG 0x084 (effFlg flag false same) s)

/-- A write of `FLG_RANGE_CLR`. -/
def effRangeClr (q : Port) (first count : Nat) (s : State) : State :=
  if count = 0 ∨ 8192 < first + count ∨ s.flg.range.isSome then cmdRej q pgFLG 0x094 0 s
  else { s with flg := { s.flg with range := some (first, count), rangeAt := now s } }

/-- FLG_RANGE_CLR. -/
def execFlgRangeClr (q : Port) (first count : Nat) (s : State) : Host.Outcome State Fault Refusal :=
  settle s (gateWrite q pgFLG 0x094 (effRangeClr q (first % 2 ^ 13) (count % 2 ^ 14)) s)

/-- Every stream unit that waits for 0 on a flag of the group is released (R182). -/
def releaseGroup (g : Nat) (s : State) : State :=
  { s with strm := s.strm.map (fun e => match e.2.waitFlag with
    | some (f, v) => if f / 64 = g ∧ v = false then (e.1, { e.2 with released := true }) else e
    | none => e) }

/-- One group of a range clear: a whole-word write, or a refused flag operation in a bad bank (R183). True where cleared. -/
def clearGroup (g : Nat) (s : State) : Bool × State :=
  let w := groupAddr g
  let r := prepWord w ((zeros 8).map some) s
  if r.1 then (true, releaseGroup g (setBytes w (zeros 8) r.2))
  else (false, incCnt pgFLG 0x09C 1 (flagPoison (64 * g) r.2))

def clearGroups (first : Nat) : Nat → Nat × State → Nat × State
  | 0, a => a
  | n + 1, a =>
    let b := clearGroups first n a
    let r := clearGroup (first + n) b.2
    (b.1 + b2n r.1, r.2)

/-- RANGE_CLR_DONE: not before the shortest time the timing table gives. [DEDUCED, log entry 85] -/
def execRangeClrDone (s : State) : Host.Outcome State Fault Refusal :=
  match s.flg.range with
  | none => .next s
  | some r =>
    if !pageOn s pgFLG || decide (now s < s.flg.rangeAt + r.2 * 2000 / 8192) then .next s
    else
      let t := clearGroups r.1 r.2 (0, { s with flg := { s.flg with range := none } })
      settle s (raise pgFLG 0x101 sevINFO t.1 t.2)

/-- A read of `FLG_GROUP_LO` or `_HI`: the flags it shows (0 where the read returned POISON) and the state after. -/
def readGroup (high : Bool) (s : State) : Word × State :=
  let g := rdF s pgFLG 0x088 12 0
  let w := groupAddr g
  let r := readWord w s
  let t := wrB pgFLG 0x088 31 r.1 r.2
  (if r.1 then 0 else BitVec.ofNat 32 (leNat (getBytes t (w + 4 * b2n high) 4)), t)

/-- FLG_GROUP_READ. -/
def execFlgGroupRead (q : Port) (high : Bool) (s : State) : Host.Outcome State Fault Refusal :=
  if !portLive s q then .next s
  else if !pageOn s pgFLG then settle s (s.modPort q (fun p => { p with readData := 0 }))
  else
    let r := readGroup high s
    settle s (r.2.modPort q (fun p => { p with readData := r.1.toNat }))

end Sys2Proof.Machine
end

