-- ==== Sys2Proof/Machine/RealFn.lean ====
section
/-!
DEFINITION. The real functions that the spec asks for within 2 units in the last place (R318, R324, R439, R472) or correctly
rounded (R322): computed in fixed point with 640 bits below the point, far finer than any FP32 result, so that what a result may
be is decided by the exact value. Which of the values within 2 units it is, the spec leaves open: an opaque constant picks.
-/
namespace Sys2Proof.Fix

/-! ### Fixed point -/

/-- Bits below the point. -/
def prec : Nat := 640

/-- 1.0. -/
def one : Int := 2 ^ prec

def mul (a b : Int) : Int := a * b / one
def div (a b : Int) : Int := a * one / b

/-- An FP32 value; none for a NaN or an infinity. -/
def ofFp (x : Nat) : Option Int :=
  match Fp.dec32 x with
  | .fin neg m e => some ((if neg then -1 else 1) * ((m * 2 ^ ((prec : Int) + e).toNat : Nat) : Int))
  | _ => none

/-- The FP32 nearest a fixed-point value. -/
def toFp (c : Int) : Nat := Fp.enc32 (.fin (decide (c < 0)) c.natAbs (-(prec : Int)))

/-- The square root of a value that is not negative. -/
def sqrt (c : Int) : Int := (Fp.isqrt (c.toNat * 2 ^ prec) : Nat)

/-! ### Series -/

/-- `t + t x / (n + 1) + t x^2 / ((n + 1)(n + 2)) + …`, the terms of e^x. -/
def expTerms (x : Int) : Nat → Nat → Int → Int
  | 0, _, _ => 0
  | k + 1, n, t => t + expTerms x k (n + 1) (mul t x / ((n : Int) + 1))

/-- A value squared `k` times. -/
def squared : Nat → Int → Int
  | 0, y => y
  | k + 1, y => squared k (mul y y)

/-- e^x: 0 below -500, where FP32 has no value but 0; meaningful up to 256. -/
def exp (x : Int) : Int :=
  if x < -500 * one then 0 else squared 9 (expTerms (x / 512) 130 0 one)

/-- `z + σ z^3 / 3 + z^5 / 5 + …`, from the term z^n on, `σ` being 1 (atanh) or -1 (atan). -/
def oddTerms (σ zz : Int) : Nat → Nat → Int → Int
  | 0, _, _ => 0
  | k + 1, n, t => t / (n : Int) + oddTerms σ zz k (n + 2) (σ * mul t zz)

/-- atanh z and atan z for |z| ≤ 1/3. -/
def atanh (z : Int) : Int := oddTerms 1 (mul z z) 210 1 z
def atan0 (z : Int) : Int := oddTerms (-1) (mul z z) 210 1 z

/-- ln 2, and π by Machin's formula. -/
def ln2 : Int := 2 * atanh (one / 3)
def pi : Int := 16 * atan0 (one / 5) - 4 * atan0 (one / 239)

/-- The natural logarithm of `m × 2^e`, m > 0. -/
def ln (m : Nat) (e : Int) : Int :=
  let k := Nat.log2 m
  let f : Int := (m * 2 ^ prec / 2 ^ k : Nat)
  ((k : Int) + e) * ln2 + 2 * atanh (div (f - one) (f + one))

/-- x - x^3 / 3! + …, and 1 - x^2 / 2! + …, from the term x^n / n! on. -/
def trigTerms (xx : Int) : Nat → Nat → Int → Int
  | 0, _, _ => 0
  | k + 1, n, t => t + trigTerms xx k (n + 2) (-(mul t xx) / (((n : Int) + 1) * ((n : Int) + 2)))

/-- An angle brought into [-π, π]. -/
def reduce (x : Int) : Int := let y := (x + pi) % (2 * pi); y - pi

def sin (x : Int) : Int := let r := reduce x; trigTerms (mul r r) 90 1 r
def cos (x : Int) : Int := let r := reduce x; trigTerms (mul r r) 90 0 one

/-- tan (a / 2) for a = atan t. -/
def halfAngle (t : Int) : Int := div t (one + sqrt (one + mul t t))

/-- atan t for 0 ≤ t ≤ 1. -/
def atan1 (t : Int) : Int := 4 * atan0 (halfAngle (halfAngle t))

/-- The angle of the vector (x, y), which is not zero. -/
def atan2 (y x : Int) : Int :=
  let ay := (y.natAbs : Int)
  let ax := (x.natAbs : Int)
  let a := if ay ≤ ax then atan1 (div ay ax) else pi / 2 - atan1 (div ax ay)
  let b := if x < 0 then pi - a else a
  if y < 0 then -b else b

/-- 1 / (1 + e^-x). -/
def sigmoid (x : Int) : Int :=
  if x < 0 then let e := exp x; div e (one + e) else div one (one + exp (-x))

/-- The tangent hyperbolic. -/
def tanh (x : Int) : Int := 2 * sigmoid (2 * x) - one

/-- x × sigmoid x, and the tanh form of GELU: x (1 + tanh (√(2/π) (x + 0.044715 x³))) / 2. -/
def silu (x : Int) : Int := mul x (sigmoid x)
def gelu (x : Int) : Int :=
  let u := mul (sqrt (div (2 * one) pi)) (x + 44715 * mul x (mul x x) / 1000000)
  mul x (sigmoid (2 * u))

/-! ### Results within 2 units in the last place -/

/-- The unit in the last place of FP32 at a value. -/
def ulp (c : Int) : Int :=
  2 ^ ((prec : Int) + max ((Nat.log2 c.natAbs : Int) - (prec : Int) - 23) (-149)).toNat

/-- The FP32 that lies `d` values above `r`, which is finite; `r` itself for 0. -/
def stepFp (r : Nat) (d : Int) : Nat :=
  if d = 0 then r else let k := Fp.key r + d; if k < 0 then 0x80000000 + (-k).toNat else k.toNat

/-- The FP32 values within 2 units in the last place of `c`. -/
def near (c : Int) : List Nat :=
  (([0, 1, -1, 2, -2, 3, -3, 4, -4] : List Int).map (stepFp (toFp c))).filter (fun y => match ofFp y with
    | some v => decide (((v - c).natAbs : Int) ≤ 2 * ulp c)
    | none => false)

/-- One of them, picked by `choice`; beyond FP32's range, the infinity. -/
def pick (c : Int) (choice : Nat) : Nat := (near c).getD (choice % max 1 (near c).length) (toFp c)

/-- A function of one FP32 value by its exact function; `edge` gives it at the infinities. -/
def fun1 (f : Int → Int) (edge : Bool → Nat) (choice : Nat → Nat) (x : Nat) : Nat :=
  match Fp.dec32 x with
  | .nan => Fp.qnan
  | .inf neg => edge neg
  | .fin _ _ _ => match ofFp x with | some c => pick (f c) (choice x) | none => Fp.qnan

/-- What the spec states no value for. -/
def openFp (n : Nat) : Nat := n % 2 ^ 32

/-- ACTFN 3 to 6 (R318), the bits picked by constants, so that they are the same on every part. At the infinities the limit, where the
spec's function has one that arithmetic reaches; else open. -/
def geluFp : Nat → Nat := fun1 gelu (fun neg => if neg then openFp (Config.gelu Fp.negInf) else Fp.inf) Config.gelu
def siluFp : Nat → Nat := fun1 silu (fun neg => if neg then openFp (Config.silu Fp.negInf) else Fp.inf) Config.silu
def sigmoidFp : Nat → Nat :=
  fun1 sigmoid (fun neg => if neg then pick 0 (Config.sigmoid Fp.negInf) else pick one (Config.sigmoid Fp.inf)) Config.sigmoid
def tanhFp : Nat → Nat :=
  fun1 tanh (fun neg => if neg then pick (-one) (Config.tanh Fp.negInf) else pick one (Config.tanh Fp.inf)) Config.tanh

/-- sin and cos of an FP32 angle (R439, R472); of an infinity a NaN. -/
def sinFp : Nat → Nat := fun1 sin (fun _ => Fp.qnan) Config.sin
def cosFp : Nat → Nat := fun1 cos (fun _ => Fp.qnan) Config.cos

/-- The square root (R439, R472); of a negative value a NaN. -/
def sqrtFp (x : Nat) : Nat :=
  match Fp.dec32 x with
  | .fin true 0 _ => x
  | .fin true _ _ => Fp.qnan
  | _ => fun1 sqrt (fun neg => if neg then Fp.qnan else Fp.inf) Config.sqrt x

/-- The angle of a vector of FP32 components (R439, R472): an infinite component outweighs every finite one, two count alike; the
angle of the zero vector is open. -/
def atan2Fp (y x : Nat) : Nat :=
  let big (a : Nat) (other : Nat) : Option Int :=
    match Fp.dec32 a with
    | .nan => none
    | .inf neg => some (if neg then -one else one)
    | .fin _ _ _ => if Fp.isInf other then some 0 else ofFp a
  match big y x, big x y with
  | some cy, some cx =>
    if cy = 0 ∧ cx = 0 then openFp (Config.atan2 y x)
    else if cy = 0 ∧ 0 < cx then (if Fp.isInf x then bitsOf y 31 31 * 2 ^ 31 else y)
    else if cy = 0 then pick (if bitOf y 31 then -pi else pi) (Config.atan2 y x)
    else pick (atan2 cy cx) (Config.atan2 y x)
  | _, _ => Fp.qnan

/-- e^x correctly rounded (R322). -/
def expFp (x : Nat) : Nat :=
  match Fp.dec32 x with
  | .nan => Fp.qnan
  | .inf neg => if neg then 0 else Fp.inf
  | .fin _ _ _ => match ofFp x with
    | some c => if 256 * one < c then Fp.inf else toFp (exp c)
    | none => Fp.qnan

/-- The angle pos × base^(-2i/d) of R324, exactly; none where it is not finite or a NaN. -/
def rotaryAngle (pos base i d : Nat) : Option Int :=
  match Fp.dec32 base with
  | .nan => none
  | .inf neg => if i = 0 then some ((pos : Int) * one) else if neg then none else some 0
  | .fin neg m e =>
    if i = 0 then some ((pos : Int) * one)
    else if neg || decide (m = 0) then none
    else some ((pos : Int) * exp (-(2 * (i : Int)) * ln m e / (d : Int)))

/-- cos and sin of that angle. -/
def rotaryTrig (f : Int → Int) (choice : Nat → Nat) (pos base i d : Nat) : Nat :=
  match rotaryAngle pos base i d with
  | some c => pick (f c) (choice (toFp c))
  | none => Fp.qnan

end Sys2Proof.Fix
end

