-- ==== Sys2Proof/Machine/FusionMath.lean ====
section
/-!
DEFINITION. The arithmetic of the fusion engine on plain data (chapter 14): FP32 geometry in the vehicle frame, the rigid fit,
the three ego-motion groups, the vote, track prediction, update and maintenance, and the voxel traversal. Every operation is
one FP32 operation in the order the rules write it (R439).
-/
namespace Sys2Proof.Machine

/-! ### FP32 in short -/

abbrev fa (a b : Nat) : Nat := Fp.add a b
abbrev fs (a b : Nat) : Nat := Fp.sub a b
abbrev fm (a b : Nat) : Nat := Fp.mul a b
abbrev fd (a b : Nat) : Nat := Fp.div a b

def f1em9 : Nat := 0x3089705F
def f001 : Nat := 0x3C23D70A
def f01 : Nat := 0x3DCCCCCD
def f1em4 : Nat := 0x38D1B717
def f05 : Nat := 0x3F000000
def f2 : Nat := 0x40000000
def f3 : Nat := 0x40400000
def f40 : Nat := 0x42200000
def f80 : Nat := 0x42A00000
def f180 : Nat := 0x43340000
def fPi : Nat := 0x40490FDB
def f2Pi : Nat := 0x40C90FDB

/-- A difference of two TB values in seconds. -/
def seconds (d : Int) : Nat := fm (Fp.ofInt d) f1em9

/-- The loop of wrap (R439), by at most `n` steps; a step that changes nothing would go on for ever, and leaves the value open.
[DESIGN CHOICE, log entry 150] -/
def wrapFrom : Nat → Nat → Nat
  | 0, a => Config.wrapOpen a
  | n + 1, a =>
    if Fp.lt fPi a then (if fs a f2Pi = a then Config.wrapOpen a else wrapFrom n (fs a f2Pi))
    else if Fp.le a (Fp.neg fPi) then (if fa a f2Pi = a then Config.wrapOpen a else wrapFrom n (fa a f2Pi))
    else a

/-- wrap (R439): every step moves to another of the 2^32 FP32 values, always the same way, so 2^32 steps are enough.
[DESIGN CHOICE, log entry 150] -/
def wrap (a : Nat) : Nat := wrapFrom (2 ^ 32) a

/-- Rot(a)·(x, y). -/
def rot (a : Nat) (v : Nat × Nat) : Nat × Nat :=
  let c := Fix.cosFp a
  let s := Fix.sinFp a
  (fs (fm v.1 c) (fm v.2 s), fa (fm v.1 s) (fm v.2 c))

/-- The plane range of a point. [DEDUCED, log entry 151] -/
def planeRange (v : Nat × Nat) : Nat := Fix.sqrtFp (fa (fm v.1 v.1) (fm v.2 v.2))

/-- [DEDUCED, log entry 151] -/
def within (lo hi x : Nat) : Bool := Fp.le lo x && Fp.le x hi

/-! ### Transforms (R433, R438) -/

/-- FP32 word `i` of a transform entry. -/
def xfWord (x : List Byte) (i : Nat) : Nat := leAt x (4 * i) 4
def xfGroup (x : List Byte) : Nat := byteAt x 84
def xfValid (x : List Byte) : Bool := decide (byteAt x 85 = 1)
def xfTofs (x : List Byte) : Int := toSigned 32 (leAt x 64 4)

/-- M·p for a point. -/
def xfPoint (x : List Byte) (p : Nat × Nat × Nat) : Nat × Nat × Nat :=
  let row (r : Nat) : Nat := fa (fa (fa (fm (xfWord x (4 * r)) p.1) (fm (xfWord x (4 * r + 1)) p.2.1)) (fm (xfWord x (4 * r + 2)) p.2.2))
    (xfWord x (4 * r + 3))
  (row 0, row 1, row 2)

/-- The ego-motion in force: VX, VY, W. -/
structure Ego where
  vx : Nat
  vy : Nat
  w : Nat
deriving DecidableEq, Repr

/-- A vehicle-frame point carried from corrected time `t` to T_REF. -/
def carry (e : Ego) (tRef t : Int) (v : Nat × Nat) : Nat × Nat :=
  let tau := seconds (tRef - t)
  rot (Fp.neg (fm e.w tau)) (fs v.1 (fm e.vx tau), fs v.2 (fm e.vy tau))

/-! ### The rigid fit (R441) -/

/-- A pair of plane points. -/
abbrev Pair := (Nat × Nat) × (Nat × Nat)

def sumOf (l : List Nat) : Nat := l.foldl fa 0

/-- Fit(S, T): θ and the translation; none for fewer than two pairs. [DESIGN CHOICE, log entry 146] -/
def fit (l : List Pair) : Option (Nat × Nat × Nat) :=
  if l.length < 2 then none
  else
    let n := Fp.ofNat l.length
    let sx := fd (sumOf (l.map (·.1.1))) n
    let sy := fd (sumOf (l.map (·.1.2))) n
    let tx := fd (sumOf (l.map (·.2.1))) n
    let ty := fd (sumOf (l.map (·.2.2))) n
    let c := l.map (fun p => (fs p.1.1 sx, fs p.1.2 sy, fs p.2.1 tx, fs p.2.2 ty))
    let a := sumOf (c.map (fun p => fa (fm p.1 p.2.2.1) (fm p.2.1 p.2.2.2)))
    let b := sumOf (c.map (fun p => fs (fm p.1 p.2.2.2) (fm p.2.1 p.2.2.1)))
    let th := Fix.atan2Fp b a
    let r := rot th (sx, sy)
    some (th, fs tx r.1, fs ty r.2)

/-! ### Group estimates (R442 to R444) -/

/-- A group's result: its estimate (none when not estimated), whether it is valid, the corrected times of its inputs, and
the pairs of its last fit. -/
structure Group where
  est : Option (Nat × Nat × Nat)
  valid : Bool
  times : List Int
  pairs : Nat
deriving DecidableEq, Repr

def Group.none : Group := ⟨Option.none, false, [], 0⟩

/-- The wheel group over the samples in the interval (32 bytes each). [DEDUCED, log entry 148] -/
def wheelGroup (left right trackW dt : Nat) (l : List (List Byte)) : Group :=
  let chans (m : Nat) : List Nat := (List.range 4).filter (fun i => m.testBit i)
  let metres (m : Nat) : Nat :=
    let total : Int := ((chans m).map (fun i => (l.map (fun d => toSigned 32 (leAt d (8 + 4 * i) 4))).sum)).sum
    fd (fm (Fp.ofInt total) f1em4) (Fp.ofNat (chans m).length)
  let bad (d : List Byte) : Bool := bitOf (byteAt d 24) 4 || bitOf (byteAt d 24) 5
    || ((chans left ++ chans right).any (fun i => !bitOf (byteAt d 24) i))
  if l.isEmpty || (chans left).isEmpty || (chans right).isEmpty || l.any bad then Group.none
  else
    let dl := metres left
    let dr := metres right
    ⟨some (fd (fm (fa dl dr) f05) dt, 0, fd (fd (fs dr dl) trackW) dt), true, l.map (fun d => ((leAt d 0 8 : Nat) : Int)), 0⟩

/-- The ground point of an image position seen through transform `x`; none for a ray that does not go down. -/
def groundPoint (x : List Byte) (px py : Nat) : Option (Nat × Nat) :=
  let u := Fp.ofScaled px (-4)
  let v := Fp.ofScaled py (-4)
  let a := fd (fs u (xfWord x 19)) (xfWord x 17)
  let b := fd (fs v (xfWord x 20)) (xfWord x 18)
  let row (r : Nat) : Nat := fa (fa (fm (xfWord x (4 * r)) a) (fm (xfWord x (4 * r + 1)) b)) (xfWord x (4 * r + 2))
  let dz := row 2
  if Fp.le 0 dz then none
  else
    let k := fd (Fp.neg (xfWord x 11)) dz
    let g := (fa (xfWord x 3) (fm k (row 0)), fa (xfWord x 7) (fm k (row 1)))
    if within Fp.one f40 (planeRange g) then some g else none

/-- The pairs of one feature list's MATCHED records (R443). -/
def visionPairs (x : List Byte) (recs : List (List Byte)) : List Pair :=
  recs.filterMap (fun r =>
    if !bitOf (byteAt r 9) 1 then none
    else match groundPoint x (leAt r 16 2) (leAt r 18 2), groundPoint x (leAt r 4 2) (leAt r 6 2) with
      | some a, some b => some (a, b)
      | _, _ => none)

/-- The vision estimate from all pairs. -/
def visionGroup (resid minFeat dt : Nat) (pairs : List Pair) (times : List Int) : Group :=
  match fit pairs with
  | none => Group.none
  | some f =>
    let keep := pairs.filter (fun p =>
      let r := rot f.1 p.1
      let e := (fs (fs p.2.1 r.1) f.2.1, fs (fs p.2.2 r.2) f.2.2)
      !Fp.lt resid (planeRange e))
    match fit keep with
    | none => { Group.none with pairs := keep.length }
    | some g =>
      let phi := Fp.neg g.1
      let d := rot phi (g.2.1, g.2.2)
      ⟨some (fd (Fp.neg d.1) dt, fd (Fp.neg d.2) dt, fd phi dt), decide (minFeat ≤ keep.length), times, keep.length⟩

/-- Keeps the first point of each plane cell, with its time. -/
def subsample (cell : Nat) : List ((Nat × Nat) × Int) → List (Int × Int) → List ((Nat × Nat) × Int)
  | [], _ => []
  | p :: t, seen =>
    match Fp.toIntFloor (fd p.1.1 cell), Fp.toIntFloor (fd p.1.2 cell) with
    | some i, some k => if seen.contains (i, k) then subsample cell t seen else p :: subsample cell t ((i, k) :: seen)
    | _, _ => subsample cell t seen

/-- The index of the nearest point of `q` to `x` and the squared distance, the lower index on ties. -/
def nearest (q : List (Nat × Nat)) (x : Nat × Nat) : Option ((Nat × Nat) × Nat) :=
  q.foldl (fun b y =>
    let d := fa (fm (fs y.1 x.1) (fs y.1 x.1)) (fm (fs y.2 x.2) (fs y.2 x.2))
    match b with
    | none => some (y, d)
    | some c => if Fp.lt d c.2 then some (y, d) else b) none

/-- One iteration: the new φ and d, and the pairs it had. [DEDUCED, log entry 152] -/
def icpStep (radius : Nat) (p q : List (Nat × Nat)) (g : Nat × Nat × Nat) : (Nat × Nat × Nat) × Nat :=
  let pairs : List Pair := p.filterMap (fun x =>
    let r := rot g.1 x
    match nearest q (fa r.1 g.2.1, fa r.2 g.2.2) with
    | some b => if Fp.le (Fix.sqrtFp b.2) radius then some (x, b.1) else none
    | none => none)
  ((fit pairs).getD g, pairs.length)

/-- [DEDUCED, log entry 152] -/
def icp (radius : Nat) (p q : List (Nat × Nat)) : Nat → (Nat × Nat × Nat) × Nat → (Nat × Nat × Nat) × Nat
  | 0, r => r
  | n + 1, r => icp radius p q n (icpStep radius p q r.1)

/-- The lidar estimate of the kept set `p` against the previous set. -/
def lidarGroup (iters minPairs radius dt : Nat) (start : Nat × Nat × Nat) (p : List (Nat × Nat)) (q : Option (List (Nat × Nat)))
    (times : List Int) : Group :=
  match q with
  | none => Group.none
  | some q =>
    let r := icp radius p q iters (start, 0)
    ⟨some (fd r.1.2.1 dt, fd r.1.2.2 dt, fd r.1.1 dt), decide (minPairs ≤ r.2), times, r.2⟩

/-! ### The vote (R446, R447) -/

/-- Two estimates agree. -/
def agree (thrV thrW : Nat) (a b : Nat × Nat × Nat) : Bool :=
  let dx := fs a.1 b.1
  let dy := fs a.2.1 b.2.1
  let v := fm f001 (Fp.ofNat thrV)
  let w := fd (fm (fm f001 (Fp.ofNat thrW)) fPi) f180
  Fp.le (fa (fm dx dx) (fm dy dy)) (fm v v) && Fp.le (Fp.abs (fs a.2.2 b.2.2)) w

def median3 (a b c : Nat) : Nat := Fp.max (Fp.min a b) (Fp.min (Fp.max a b) c)
def mean2 (a b : Nat) : Nat := fm (fa a b) f05
def zip3 (f : Nat → Nat → Nat) (a b : Nat × Nat × Nat) : Nat × Nat × Nat := (f a.1 b.1, f a.2.1 b.2.1, f a.2.2 b.2.2)

/-- The fused estimate, the OUTVOTED and CHAIN flags, and whether there is a majority, from the valid estimates in the order
vision, lidar, wheel; none where the previous estimate is carried. -/
def vote (thrV thrW : Nat) (g : List (Option (Nat × Nat × Nat))) : Option (Nat × Nat × Nat) × Nat × Bool :=
  let ok (i k : Nat) : Bool := match g.getD i none, g.getD k none with
    | some a, some b => agree thrV thrW a b
    | _, _ => false
  match g.getD 0 none, g.getD 1 none, g.getD 2 none with
  | some a, some b, some c =>
    let med := (median3 a.1 b.1 c.1, median3 a.2.1 b.2.1 c.2.1, median3 a.2.2 b.2.2 c.2.2)
    let n := b2n (ok 0 1) + b2n (ok 0 2) + b2n (ok 1 2)
    if n = 3 then (some med, 0, true)
    else if n = 2 then (some med, 0x100, true)
    else if n = 0 then (some med, 0, false)
    else if ok 0 1 then (some (zip3 mean2 a b), 4, true)
    else if ok 0 2 then (some (zip3 mean2 a c), 2, true)
    else (some (zip3 mean2 b c), 1, true)
  | some a, some b, none => (some (zip3 mean2 a b), 0, ok 0 1)
  | some a, none, some c => (some (zip3 mean2 a c), 0, ok 0 2)
  | none, some b, some c => (some (zip3 mean2 b c), 0, ok 1 2)
  | some a, none, none => (some a, 0, false)
  | none, some b, none => (some b, 0, false)
  | none, none, some c => (some c, 0, false)
  | none, none, none => (none, 0, false)

/-! ### Tracks (R449 to R454) -/

/-- Prediction of one axis by Δt. -/
def predictAxis (q dt : Nat) (a : Axis) : Axis :=
  let d2 := fm dt dt
  let d3 := fm d2 dt
  { p := fa a.p (fm a.v dt),
    v := a.v,
    pp := fa (fa (fa a.pp (fm (fm f2 dt) a.pv)) (fm d2 a.vv)) (fd (fm q d3) f3),
    pv := fa (fa a.pv (fm dt a.vv)) (fd (fm q d2) f2),
    vv := fa a.vv (fm q dt) }

/-- A track at the start of tracking: predicted, carried into the new vehicle frame, its frame marks cleared. -/
def predictTrack (q dt dx dy dyaw : Nat) (t : Track) : Track :=
  let ax := predictAxis q dt t.x
  let ay := predictAxis q dt t.y
  let p := rot (Fp.neg dyaw) (fs ax.p dx, fs ay.p dy)
  let v := rot (Fp.neg dyaw) (ax.v, ay.v)
  { t with
    x := { ax with p := p.1, v := v.1 }, y := { ay with p := p.2, v := v.2 }, yaw := wrap (fs t.yaw dyaw),
    support := 0, flags := 0, detV := 0xFFFF, detL := 0xFFFF }

/-- A detection carried to T_REF: its index, group, class, position, sizes, yaw, confidence, variances, corrected time. -/
structure Det where
  idx : Nat
  group : Nat
  cls : Nat
  x : Nat
  y : Nat
  z : Nat
  l : Nat
  w : Nat
  h : Nat
  yaw : Nat
  conf : Nat
  varX : Nat
  varY : Nat
  t : Nat
deriving DecidableEq, Repr

/-- A detection record through its slot's transform (R438). -/
def carryDet (e : Ego) (tRef : Nat) (x : List Byte) (i : Nat) (d : List Byte) : Det :=
  let t : Int := (leAt d 0 8 : Nat) + xfTofs x
  let v := xfPoint x (leAt d 16 4, leAt d 20 4, leAt d 24 4)
  let p := carry e tRef t (v.1, v.2.1)
  let tau := seconds ((tRef : Int) - t)
  { idx := i, group := byteAt d 9, cls := leAt d 10 2, x := p.1, y := p.2, z := v.2.2, l := leAt d 28 4, w := leAt d 32 4,
    h := leAt d 36 4, conf := leAt d 12 4, varX := leAt d 44 4, varY := leAt d 48 4, t := t.toNat,
    yaw := wrap (fs (fa (leAt d 40 4) (Fix.atan2Fp (xfWord x 4) (xfWord x 0))) (fm e.w tau)) }

/-- d² of a track and a detection where the pair is in the gate. -/
def gate (g : Nat) (t : Track) (d : Det) : Option Nat :=
  if t.cls ≠ 0 ∧ d.cls ≠ 0 ∧ t.cls ≠ d.cls then none
  else
    let ex := fs d.x t.x.p
    let ey := fs d.y t.y.p
    let v := fa (fd (fm ex ex) (fa t.x.pp d.varX)) (fd (fm ey ey) (fa t.y.pp d.varY))
    if Fp.le v g then some v else none

/-- The pairs in the gate in the order of R450: (d², track ID, detection index). -/
def gatePairs (g : Nat) (ts : List Track) (ds : List Det) : List (Nat × Nat × Nat) :=
  let l := ts.flatMap (fun t => ds.filterMap (fun d => (gate g t d).map (fun v => (v, t.id, d.idx))))
  l.mergeSort (fun a b => decide (Fp.key a.1 < Fp.key b.1) || (decide (Fp.key a.1 = Fp.key b.1) &&
    (decide (a.2.1 < b.2.1) || (decide (a.2.1 = b.2.1) && decide (a.2.2 ≤ b.2.2)))))

/-- The assignment: pairs (track ID, detection index), each track and detection once. -/
def assignPairs : List (Nat × Nat × Nat) → List (Nat × Nat) → List (Nat × Nat)
  | [], acc => acc
  | p :: t, acc => assignPairs t (if acc.any (fun a => decide (a.1 = p.2.1) || decide (a.2 = p.2.2)) then acc else acc ++ [p.2])

/-- The update of one axis by a measurement of variance `r`. -/
def updateAxis (z r : Nat) (a : Axis) : Axis :=
  let s := fa a.pp r
  let kp := fd a.pp s
  let kv := fd a.pv s
  let e := fs z a.p
  { p := fa a.p (fm kp e), v := fa a.v (fm kv e), pp := fs a.pp (fm kp a.pp), pv := fs a.pv (fm kp a.pv),
    vv := fs a.vv (fm kv a.pv) }

/-- The marks a detection leaves on a track in this frame: support, detection index, times, OUTVOTED_SRC. -/
def markTrack (outvoted : Bool) (d : Det) (t : Track) : Track :=
  let first := decide (t.support = 0)
  { t with
    support := t.support ||| 2 ^ d.group, flags := t.flags ||| (if outvoted then 2 else 0),
    tOld := if first then d.t else min t.tOld d.t, tNew := if first then d.t else max t.tNew d.t,
    detV := if d.group = 0 then d.idx else t.detV, detL := if d.group = 1 then d.idx else t.detL }

/-- An assigned detection updates its track (R451). -/
def updateTrack (alpha : Nat) (outvoted : Bool) (d : Det) (t : Track) : Track :=
  let mix (a b : Nat) : Nat := fa a (fm alpha (fs b a))
  markTrack outvoted d { t with
    x := updateAxis d.x d.varX t.x, y := updateAxis d.y d.varY t.y, z := mix t.z d.z, l := mix t.l d.l, w := mix t.w d.w,
    h := mix t.h d.h, yaw := wrap (fa t.yaw (fm alpha (wrap (fs d.yaw t.yaw)))), conf := d.conf,
    cls := if t.cls = 0 then d.cls else t.cls }

/-- A new TENTATIVE track (R452). [DEDUCED, log entry 149] -/
def bornTrack (velVar id : Nat) (outvoted : Bool) (d : Det) : Track :=
  markTrack outvoted d
    { id := id, st := 1, cls := d.cls, hist := 1, misses := 0, age := 1, support := 0, x := ⟨d.x, 0, d.varX, 0, velVar⟩,
      y := ⟨d.y, 0, d.varY, 0, velVar⟩, z := d.z, l := d.l, w := d.w, h := d.h, yaw := d.yaw, conf := d.conf, tOld := 0, tNew := 0,
      flags := 0x10, detV := 0xFFFF, detL := 0xFFFF }

/-- The ID reached from NEXT_ID past every ID in use, in at most 512 steps. -/
def reachId (used : List Nat) : Nat → Nat → Nat
  | 0, i => i
  | n + 1, i => if used.contains i then reachId used n (i % 65535 + 1) else i

/-- Issues an ID: the ID and the NEXT_ID after it, or none (R454). -/
def issueId (frameNo nextId : Nat) (released : SMap (Option Nat)) (used : List Nat) : Option (Nat × Nat) :=
  let i := reachId used 512 nextId
  if used.contains i then none
  else match released.get none i with
    | none => some (i, i % 65535 + 1)
    | some r => if 65535 ≤ (frameNo + 2 ^ 32 - r) % 2 ^ 32 then some (i, i % 65535 + 1) else none

/-- Tracking under way: tracks, next ID, refused births, the flags BIRTH_FULL and BIRTH_NO_ID. -/
structure Tracking where
  tracks : List Track
  nextId : Nat
  refused : Nat
  flags : Nat
deriving DecidableEq, Repr

/-- A free detection is offered for birth. -/
def offerBirth (velVar frameNo : Nat) (released : SMap (Option Nat)) (outvoted : Bool) (k : Tracking) (d : Det) : Tracking :=
  if 512 ≤ k.tracks.length then { k with refused := k.refused + 1, flags := k.flags ||| 2 ^ 12 }
  else match issueId frameNo k.nextId released (k.tracks.map (·.id)) with
    | none => { k with refused := k.refused + 1, flags := k.flags ||| 2 ^ 13 }
    | some i => { k with tracks := k.tracks ++ [bornTrack velVar i.1 outvoted d], nextId := i.2 }

/-- One association pass over the detections of a group (R450). -/
def assocPass (gateV alpha velVar frameNo : Nat) (released : SMap (Option Nat)) (outvoted : Bool) (ds : List Det)
    (k : Tracking) : Tracking :=
  let asg := assignPairs (gatePairs gateV k.tracks ds) []
  let upd := k.tracks.map (fun t => match asg.find? (fun a => decide (a.1 = t.id)) with
    | some a => (match ds.find? (fun d => decide (d.idx = a.2)) with | some d => updateTrack alpha outvoted d t | none => t)
    | none => t)
  (ds.filter (fun d => asg.all (fun a => decide (a.2 ≠ d.idx)))).foldl (offerBirth velVar frameNo released outvoted)
    { k with tracks := upd }

/-- History and counters of a track that existed before the frame (R453). -/
def ageTrack (t : Track) : Track :=
  if bitOf t.flags 4 then t
  else
    let hit := decide (t.support ≠ 0)
    { t with hist := (2 * t.hist + b2n hit) % 256, age := satN 32 (t.age + 1), misses := if hit then 0 else min 255 (t.misses + 1) }

/-- Confirmation and deletion of one track: STATE and its flags. -/
def checkTrack (m n k covMax : Nat) (t : Track) : Track :=
  let hits := ((List.range n).filter (fun i => t.hist.testBit i)).length
  let t : Track := { t with flags := t.flags ||| (t.hist % 2), st := if t.st = 1 ∧ m ≤ hits then 2 else t.st }
  if Fp.lt covMax (fa t.x.pp t.y.pp) then { t with st := 3, flags := t.flags ||| 4 }
  else if t.st = 1 ∧ n ≤ t.age then { t with st := 3 }
  else if t.st = 2 ∧ k ≤ t.misses then { t with st := 3, flags := t.flags ||| 8 }
  else t

/-- The object record (R459). -/
def trackRecord (tRef : Nat) (t : Track) : List Byte :=
  leBytes 2 t.id ++ leBytes 1 t.st ++ leBytes 1 t.flags ++ leBytes 2 t.cls ++ leBytes 1 t.hist ++ leBytes 1 t.misses
    ++ leBytes 4 t.age ++ leBytes 1 t.support ++ zeros 3
    ++ [t.x.p, t.y.p, t.x.v, t.y.v, t.z, t.l, t.w, t.h, t.yaw, t.x.pp, t.x.pv, t.x.vv, t.y.pp, t.y.pv, t.y.vv, t.conf].flatMap (leBytes 4)
    ++ leBytes 8 t.tOld ++ leBytes 8 t.tNew ++ leBytes 8 tRef ++ leBytes 2 t.detV ++ leBytes 2 t.detL ++ zeros 20

/-! ### The voxel grid (R456, R457) -/

/-- A grid: cells along each axis, the cell size and the floor. -/
structure GridDim where
  nx : Nat
  ny : Nat
  nz : Nat
  c : Nat
  z0 : Nat
deriving DecidableEq, Repr

/-- The cell of a vehicle-frame point, inside the grid or not. -/
def gridCell (g : GridDim) (p : Nat × Nat × Nat) : Option (Int × Int × Int) :=
  match Fp.toIntFloor (fd p.1 g.c), Fp.toIntFloor (fd p.2.1 g.c), Fp.toIntFloor (fd (fs p.2.2 g.z0) g.c) with
  | some i, some j, some k => some (i + (g.nx / 2 : Nat), j + (g.ny / 2 : Nat), k)
  | _, _, _ => none

def gridIndex (g : GridDim) (v : Int × Int × Int) : Option Nat :=
  if 0 ≤ v.1 ∧ v.1 < g.nx ∧ 0 ≤ v.2.1 ∧ v.2.1 < g.ny ∧ 0 ≤ v.2.2 ∧ v.2.2 < g.nz then
    some ((v.2.2.toNat * g.ny + v.2.1.toNat) * g.nx + v.1.toNat)
  else none

/-- Parameter of the next boundary along one axis and the step between boundaries; infinite where the ray does not move.
[DEDUCED, log entry 153] -/
def axisStep (c base o d : Nat) (cell : Int) : Nat × Nat :=
  if Fp.eq d 0 then (Fp.inf, Fp.inf)
  else
    let b := fa base (fm (Fp.ofInt (if Fp.lt 0 d then cell + 1 else cell)) c)
    (fd (fs b o) d, fd c (Fp.abs d))

/-- The cells walked from `v` until the point's own cell, at most `n` of them. [DEDUCED, log entry 153] -/
def walkCells (goal : Int × Int × Int) (sx sy sz : Int) (dl : Nat × Nat × Nat) :
    Nat → Int × Int × Int → Nat × Nat × Nat → List (Int × Int × Int)
  | 0, _, _ => []
  | n + 1, v, t =>
    if v = goal then []
    else
      let next : (Int × Int × Int) × (Nat × Nat × Nat) :=
        if Fp.le t.1 t.2.1 && Fp.le t.1 t.2.2 then ((v.1 + sx, v.2.1, v.2.2), (fa t.1 dl.1, t.2.1, t.2.2))
        else if Fp.le t.2.1 t.2.2 then ((v.1, v.2.1 + sy, v.2.2), (t.1, fa t.2.1 dl.2.1, t.2.2))
        else ((v.1, v.2.1, v.2.2 + sz), (t.1, t.2.1, fa t.2.2 dl.2.2))
      v :: walkCells goal sx sy sz dl n next.1 next.2

/-- The cells a ray from `o` to `p` traverses before the point's own cell, and that cell. -/
def rayCells (g : GridDim) (o p : Nat × Nat × Nat) : Option (List (Int × Int × Int) × (Int × Int × Int)) :=
  match gridCell g o, gridCell g p with
  | some a, some b =>
    let d := (fs p.1 o.1, fs p.2.1 o.2.1, fs p.2.2 o.2.2)
    let hx : Int := (g.nx / 2 : Nat)
    let hy : Int := (g.ny / 2 : Nat)
    let x := axisStep g.c 0 o.1 d.1 (a.1 - hx)
    let y := axisStep g.c 0 o.2.1 d.2.1 (a.2.1 - hy)
    let z := axisStep g.c g.z0 o.2.2 d.2.2 a.2.2
    let sg (w : Nat) : Int := if Fp.lt 0 w then 1 else -1
    let n := (b.1 - a.1).natAbs + (b.2.1 - a.2.1).natAbs + (b.2.2 - a.2.2).natAbs
    some (walkCells b (sg d.1) (sg d.2.1) (sg d.2.2) (x.2, y.2, z.2) n a (x.1, y.1, z.1), b)
  | _, _ => none

/-- Adds to a cell, saturating. -/
def addCell (lo hi : Int) (g : GridDim) (add : Int) (a : Array Int) (v : Int × Int × Int) : Array Int :=
  match gridIndex g v with
  | some i => a.modify i (fun x => clampI lo hi (x + add))
  | none => a

/-- A point's ray added to the grid. -/
def fusePoint (lo hi hit miss : Int) (g : GridDim) (a : Array Int) (o p : Nat × Nat × Nat) : Array Int :=
  match rayCells g o p with
  | some r => addCell lo hi g hit (r.1.foldl (addCell lo hi g miss) a) r.2
  | none => a

/-- The grid scrolled (R456). -/
def scrollGrid (g : GridDim) (dx dy : Int) (a : Array Int) : Array Int :=
  ((List.range (g.nx * g.ny * g.nz)).map (fun i =>
    let x : Int := ((i % g.nx : Nat) : Int) + dx
    let y : Int := ((i / g.nx % g.ny : Nat) : Int) + dy
    match gridIndex g (x, y, ((i / (g.nx * g.ny) : Nat) : Int)) with
    | some k => a.getD k 0
    | none => 0)).toArray

end Sys2Proof.Machine
end

