-- ==== Sys2Proof/Machine/Engine.lean ====
section
/-!
DEFINITION. The work of an engine's job inside one command: reading and writing memory and flags (R197, R195, R183), and how
the work ends: it goes on, it waits for memory, or its job ends with a status.
-/
namespace Sys2Proof.Machine

/-- Why an engine's work stops: memory it needs cannot be used now, or its job ends with a status and a detail. -/
inductive Halt where
  | wait
  | stop (status detail : Nat)
deriving DecidableEq, Repr

/-- Work of an engine over the state, which knows what source its memory accesses are (R187). -/
abbrev Eng := ReaderT ReqSource (ExceptT Halt (StateM State))

/-- The job ends with a status and detail. -/
def estop {α : Type} (status detail : Nat) : Eng α := throw (.stop status detail)

/-- The job ends with ABORT_BAD_DESC for the field at an offset. -/
def ebad {α : Type} (off reason : Nat) : Eng α := estop stABORT_BAD_DESC (badDetail (off, reason))

/-- The state changes. -/
def emod (f : State → State) : Eng Unit := modify f

/-- Reads `n` bytes at `a`: waits where they cannot be read now, aborts with ABORT_POISON on a poisoned word. -/
def eread (a n : Nat) : Eng (List Byte) := do
  let s ← get
  if n = 0 then pure []
  else if !canUse s (← read) a n then throw .wait
  else
    let r := readAs (← read) a n s
    set r.2.2
    match r.2.1 with
    | some w => estop stABORT_POISON w
    | none => pure r.1

/-- Writes bytes at `a`: waits, or ends with WR_POISONED at the word that could not be written. -/
def ewrite (a : Nat) (bs : List Byte) : Eng Unit := do
  let s ← get
  if bs.isEmpty then pure ()
  else if !canUse s (← read) a bs.length then throw .wait
  else
    let r := writeAs (← read) a bs s
    set r.2
    match r.1 with
    | some w => estop stWR_POISONED w
    | none => pure ()

/-- Sets or clears a flag. -/
def eflag (f : Nat) (v : Bool) : Eng Unit := do
  let s ← get
  if !ready s pgRES then throw .wait
  else
    let r := flagOp f v s
    set r.2
    if r.1 then pure () else estop stWR_POISONED (groupAddr (f / 64))

/-- A fresh free value. -/
def efree : Eng Nat := do
  let s ← get
  set (nextFree s)
  pure (Config.freeNat s.freeCtr)

/-- Runs work for a unit of page `p` from the state `s`: on `wait` nothing at all has happened and the answer is `before`; a
stop, or a status the work answers, ends the unit's job by `fin` after `quit`; else the job goes on. -/
def runUnitFrom (before : State) (p : Nat) (quit : State → State) (fin : Nat → Nat → State → State)
    (m : Eng (Option (Nat × Nat))) (s : State) : State :=
  match (m.run (srcPage p)).run s with
  | (.error .wait, _) => before
  | (.error (.stop st d), t) => fin st d (quit t)
  | (.ok (some e), t) => fin e.1 e.2 (quit t)
  | (.ok none, t) => touch p t

/-- The same on a page that runs one job. -/
def runEngFrom (before : State) (p : Nat) (quit : State → State) (m : Eng (Option (Nat × Nat))) (s : State) : State :=
  runUnitFrom before p quit (finish p) m s

/-- Work for a job that runs already. -/
def runEng (p : Nat) (quit : State → State) (m : Eng (Option (Nat × Nat))) (s : State) : State := runEngFrom s p quit m s

/-- A TRIG byte (R390): the input a job waits on and its NEED. -/
def trigByte (b : Nat) : Option (Nat × Nat) := if bitOf b 0 then some (bitsOf b 2 1, bitsOf b 4 3 + 1) else none

/-- The trigger of a job holds it. -/
def trigHeld (s : State) (p : Nat) (t : Option (Nat × Nat)) : Bool :=
  match t with | some t => decide (trigCount s p t.1 < t.2) | none => false

/-- A starting job takes its counts. -/
def trigNeed (p : Nat) (t : Option (Nat × Nat)) (s : State) : State :=
  match t with | some t => setTrig p t.1 (trigCount s p t.1 - t.2) s | none => s

/-- The head job of page `p`, where `sel` selects it and nothing runs, starts and does `work`, which may end it; held by its
dependencies, its trigger or its memory it stays where it is. -/
def startShot (p : Nat) (sel : Job → Bool) (addrs : Job → List Nat) (trig : Job → Option (Nat × Nat)) (quit : State → State)
    (work : Job → Eng (Option (Nat × Nat))) (s : State) : State :=
  match (pageJobs s p).queue, (pageJobs s p).running with
  | j :: _, [] =>
    if !sel j then s
    else if !depsMet s p j (addrs j) then tellHeldJob p j s
    else if pastDeadline s j.deadline then refuseQueued p j stABORT_DEADLINE (now s) (missEvent p j s)
    else if trigHeld s p (trig j) then s
    else runEngFrom s p quit (work j) (startHead p (trigNeed p (trig j) s))
  | _, _ => s

/-- The same where the job does all its work and ends in this instant. -/
def oneShot (p : Nat) (sel : Job → Bool) (addrs : Job → List Nat) (trig : Job → Option (Nat × Nat)) (quit : State → State)
    (work : Job → Eng (Nat × Nat)) (s : State) : State :=
  startShot p sel addrs trig quit (fun j => some <$> work j) s

/-- The job ends with ABORT_DEADLINE where its deadline has passed. -/
def edeadline (p : Nat) (j : Job) : Eng Unit := do
  let s ← get
  if pastDeadline s j.deadline then
    emod (missEvent p j)
    estop stABORT_DEADLINE (now s)

/-- The job stops with WR_POISONED where the word of a flag it is about to set cannot be written (R195); else nothing happens. -/
def eflagReady (f : Nat) : Eng Unit := do
  let s ← get
  if !ready s pgRES then throw .wait
  else if flagPoisoned s f then eflag f true

/-- A reading of memory the address of which a table in memory gives: refused by `k` unless it is aligned data. -/
def dataAt (s : State) (a n al : Nat) : Bool := decide (a % al = 0) && isData s a n

end Sys2Proof.Machine
end

