-- ==== Sys2Proof/Machine/VisionMath.lean ====
section
/-!
DEFINITION. The arithmetic of the vision engines on plain data (chapter 13): warp sampling, the pyramid filter, Hawk's corners,
descriptors and matching, Owl's census, aggregation and disparity, Kestrel's search.
-/
namespace Sys2Proof.Machine

/-! ### Images -/

/-- Rows of bytes of an image, from row `y0` on. -/
structure Rows where
  y0 : Nat
  pitch : Nat
  px : Array Nat
deriving DecidableEq, Repr

/-- Byte `x` of row `y`. -/
def Rows.at (r : Rows) (x y : Nat) : Nat := r.px.getD ((y - r.y0) * r.pitch + x) 0

/-- A coordinate clamped to [0, n). -/
def clampTo (n : Nat) (i : Int) : Nat := min i.toNat (n - 1)

/-- The 8-bit pixel at a clamped position of a `w` by `h` image. -/
def Rows.clamped (r : Rows) (w h : Nat) (x y : Int) : Nat := r.at (clampTo w x) (clampTo h y)

def ceilTo (n d : Nat) : Nat := (n + d - 1) / d

/-- Bytes per element of an image kind, and the pitch of a row (R393). -/
def kindBytes (kind : Nat) : Nat := if kind = 2 then 2 else if kind = 3 then 4 else 1
def imgPitch (kind w : Nat) : Nat := ceilTo (w * kindBytes kind) 64 * 64
/-- Bytes of an image with its header. -/
def imgBytes (kind w h : Nat) : Nat := 64 + h * imgPitch kind w

/-- The 64-byte image header (R393). -/
def imgHeader (kind w h level camera frame tbFs : Nat) (absent : Bool) : List Byte :=
  leBytes 2 w ++ leBytes 2 h ++ leBytes 4 (imgPitch kind w) ++ leBytes 1 kind ++ leBytes 1 level ++ leBytes 1 camera
    ++ leBytes 1 (b2n absent) ++ leBytes 2 frame ++ zeros 2 ++ leBytes 8 (if absent then 0 else tbFs) ++ zeros 40

/-- The first byte of an image header that R394 refuses: PITCH is held against the KIND the header names, where R393 has it. -/
def imgHeaderBad (kind : Nat) (d : List Byte) : Option Nat :=
  let w := leAt d 0 2
  let own := if 1 ≤ byteAt d 8 ∧ byteAt d 8 ≤ 4 then byteAt d 8 else kind
  if w = 0 ∨ 4096 < w then some 0
  else if leAt d 2 2 = 0 ∨ 3072 < leAt d 2 2 then some 2
  else if leAt d 4 4 ≠ imgPitch own w then some 4
  else if byteAt d 8 ≠ kind then some 8
  else if 15 < byteAt d 10 then some 10
  else if 1 < byteAt d 11 then some 11
  else ([14, 15] ++ (List.range 40).map (24 + ·)).find? (fun i => decide (byteAt d i ≠ 0))

/-- A quotient rounded to the nearest integer, halves away from zero; 0 for a zero divisor (R417). -/
def roundAway (num : Int) (den : Nat) : Int :=
  if den = 0 then 0
  else
    let q : Int := ((2 * num.natAbs + den) / (2 * den) : Nat)
    if num < 0 then -q else q

/-! ### Warp (R402 to R404) -/

/-- Sample depth of a data type, and the bytes of a pixel. -/
def sampleDepth (dt : Nat) : Nat := if dt = 0x2B then 10 else if dt = 0x2C then 12 else if dt = 0x2E then 16 else 8

/-- The sample at (x, y) of a stored frame: the byte of RAW8, the Y byte of YUV422, the 16-bit value of the others. -/
def frameSample (dt : Nat) (r : Rows) (x y : Nat) : Nat :=
  if dt = 0x2A then r.at x y
  else if dt = 0x1E then r.at (2 * x + 1) y
  else r.at (2 * x) y + 256 * r.at (2 * x + 1) y

/-- One source coordinate from the four vertex values around an output pixel (R403). -/
def meshCoord (u v : Nat) (v00 v10 v01 v11 : Int) : Int :=
  ((16 - (u : Int)) * (16 - (v : Int)) * v00 + (u : Int) * (16 - (v : Int)) * v10 + (16 - (u : Int)) * (v : Int) * v01
    + (u : Int) * (v : Int) * v11 + 128) / 256

/-- The four samples around a source position lie inside a `w` by `h` source. -/
def insideSource (w h : Nat) (sx sy : Int) : Bool :=
  decide (0 ≤ sx / 256) && decide (sx / 256 + 1 < w) && decide (0 ≤ sy / 256) && decide (sy / 256 + 1 < h)

/-- The output pixel at a source position inside the source (R404). -/
def warpPixel (dt : Nat) (r : Rows) (sx sy : Int) : Nat :=
  let ix := (sx / 256).toNat
  let iy := (sy / 256).toNat
  let fx := (sx % 256).toNat
  let fy := (sy % 256).toNat
  let q := ((256 - fx) * (256 - fy) * frameSample dt r ix iy + fx * (256 - fy) * frameSample dt r (ix + 1) iy
    + (256 - fx) * fy * frameSample dt r ix (iy + 1) + fx * fy * frameSample dt r (ix + 1) (iy + 1) + 32768) / 65536
  let dp := sampleDepth dt
  if dp = 8 then q else min 255 ((q + 2 ^ (dp - 9)) / 2 ^ (dp - 8))

/-! ### Pyramid (R406) -/

def pyrWeight (i : Nat) : Nat := if i = 2 then 6 else if i = 1 ∨ i = 3 then 4 else 1

/-- Pixel (x, y) of the next level of a `w` by `h` image. -/
def pyrPixel (r : Rows) (w h x y : Nat) : Nat :=
  ((List.range 5).foldl (fun a i => (List.range 5).foldl (fun a j =>
    a + pyrWeight i * pyrWeight j * r.clamped w h (2 * (x : Int) + (i : Int) - 2) (2 * (y : Int) + (j : Int) - 2)) a) 0 + 128) / 256

/-! ### Hawk (R409 to R413) -/

def hawkCircle : List (Int × Int) :=
  [(0, -3), (1, -3), (2, -2), (3, -1), (3, 0), (3, 1), (2, 2), (1, 3), (0, 3), (-1, 3), (-2, 2), (-3, 1), (-3, 0),
   (-3, -1), (-2, -2), (-1, -3)]

/-- `arc` or more circularly consecutive entries are true. -/
def hasArc (arc : Nat) (l : List Bool) : Bool :=
  (List.range l.length).any (fun i => ((l ++ l).drop i |>.take arc).all id)

/-- The corner score of a pixel with centre `c` and circle `ps`; 0 where it is no corner (R409). -/
def cornerScore (t arc c : Nat) (ps : List Nat) : Nat :=
  if hasArc arc (ps.map (fun i => decide (c + t < i))) || hasArc arc (ps.map (fun i => decide (i + t < c))) then
    let up := (ps.map (fun i => i - (c + t))).sum
    let dn := (ps.map (fun i => c - (i + t))).sum
    min 65535 (max up dn)
  else 0

/-- The score of the pixel at (x, y) of a `w` by `h` level; 0 within 18 pixels of an edge. -/
def scoreAt (t arc : Nat) (r : Rows) (w h x y : Nat) : Nat :=
  if x < 18 ∨ y < 18 ∨ w ≤ x + 18 ∨ h ≤ y + 18 then 0
  else cornerScore t arc (r.at x y) (hawkCircle.map (fun o => r.at ((x : Int) + o.1).toNat ((y : Int) + o.2).toNat))

/-- A feature: level, position on it, score, descriptor bytes. -/
structure Feat where
  level : Nat
  x : Nat
  y : Nat
  score : Nat
  desc : List Byte
deriving DecidableEq, Repr

/-- The corner survives suppression by its 8 neighbours; a neighbour earlier in raster order loses a tie (R410). -/
def survives (score : Nat → Nat → Nat) (x y : Nat) : Bool :=
  let v := score x y
  decide (0 < v) && decide (score (x - 1) (y - 1) ≤ v) && decide (score x (y - 1) ≤ v) && decide (score (x + 1) (y - 1) ≤ v)
    && decide (score (x - 1) y ≤ v) && decide (score (x + 1) y < v) && decide (score (x - 1) (y + 1) < v)
    && decide (score x (y + 1) < v) && decide (score (x + 1) (y + 1) < v)

/-- List order of R410: score descending, then level, y, x ascending. -/
def featBefore (a b : Feat) : Bool :=
  decide (b.score < a.score) || (decide (a.score = b.score) && (decide (a.level < b.level) || (decide (a.level = b.level) &&
    (decide (a.y < b.y) || (decide (a.y = b.y) && decide (a.x ≤ b.x))))))

/-- The sum of the 5 by 5 pixels centred on a point (R411). -/
def boxSum (r : Rows) (w h : Nat) (x y : Int) : Nat :=
  (List.range 25).foldl (fun a k => a + r.clamped w h (x + ((k % 5 : Nat) : Int) - 2) (y + ((k / 5 : Nat) : Int) - 2)) 0

/-- The descriptor of a feature by the 256 patterns (R411). -/
def hawkDesc (pats : List Nat) (r : Rows) (w h x y : Nat) : List Byte :=
  let bits := pats.map (fun p =>
    let b (lo : Nat) : Int := toSigned 5 (bitsOf p (lo + 4) lo)
    decide (boxSum r w h (x + b 0) (y + b 5) < boxSum r w h (x + b 10) (y + b 15)))
  (List.range 32).map (fun i => BitVec.ofNat 8 ((List.range 8).foldl (fun a k => a + b2n (bits.getD (8 * i + k) false) * 2 ^ k) 0))

/-- The keepers of one level: the `cellMax` best survivors of each 32 by 32 cell. [DEDUCED, log entry 138] -/
def levelFeats (t arc cellMax level : Nat) (pats : List Nat) (r : Rows) (w h : Nat) : List Feat :=
  let cell (cx cy : Nat) : List Feat :=
    let pts := (List.range 1024).map (fun k => (32 * cx + k % 32, 32 * cy + k / 32))
    let good := pts.filter (fun p => decide (p.1 < w) && decide (p.2 < h) && survives (scoreAt t arc r w h) p.1 p.2)
    ((good.map (fun p => (⟨level, p.1, p.2, scoreAt t arc r w h p.1 p.2, []⟩ : Feat))).mergeSort featBefore).take cellMax
  let keep := (List.range (ceilTo h 32)).flatMap (fun cy => (List.range (ceilTo w 32)).flatMap (fun cx => cell cx cy))
  keep.map (fun f => { f with desc := hawkDesc pats r w h f.x f.y })

/-- Bits that differ in two byte lists. -/
def hamming (a b : List Byte) : Nat :=
  (List.zipWith (fun x y => (List.range 8).foldl (fun n i => n + b2n ((x ^^^ y).toNat.testBit i)) 0) a b).sum

/-- Level position of a record's X or Y (1/16 level-0 pixel). -/
def levelPos (v level : Nat) : Nat := v / (16 * 2 ^ level)

/-- A match of a current feature: the index of the previous record's feature, its record, its distance. -/
structure HawkMatch where
  feat : Nat
  record : List Byte
  h : Nat
deriving DecidableEq, Repr

/-- The candidates of one previous record: current features of its level within SEARCH on both axes that nothing has taken,
the first 32: (distance, dx² + dy², index). [DEDUCED, log entry 138] -/
def hawkCands (search : Nat) (fs : List Feat) (taken : List Nat) (rec : List Byte) : List (Nat × Nat × Nat) :=
  let lv := byteAt rec 8
  let x : Int := levelPos (leAt rec 4 2) lv
  let y : Int := levelPos (leAt rec 6 2) lv
  let near := fs.zipIdx.filter (fun f => decide (f.1.level = lv) && decide (((f.1.x : Int) - x).natAbs ≤ search)
    && decide (((f.1.y : Int) - y).natAbs ≤ search) && !taken.contains f.2)
  (near.take 32).map (fun f => (hamming f.1.desc ((rec.drop 32).take 32),
    ((f.1.x : Int) - x).natAbs ^ 2 + ((f.1.y : Int) - y).natAbs ^ 2, f.2))

def tripleLt (a b : Nat × Nat × Nat) : Bool :=
  decide (a.1 < b.1) || (decide (a.1 = b.1) && (decide (a.2.1 < b.2.1) || (decide (a.2.1 = b.2.1) && decide (a.2.2 < b.2.2))))

/-- One record's match (R412). -/
def matchRecord (search matchMax margin : Nat) (fs : List Feat) (ms : List HawkMatch) (rec : List Byte) : List HawkMatch :=
  match (hawkCands search fs (ms.map (·.feat)) rec).mergeSort (fun a b => !tripleLt b a) with
  | [] => ms
  | c :: rest =>
    let clear := match rest with | [] => true | d :: _ => decide (margin ≤ d.1 - c.1)
    if c.1 ≤ matchMax && clear then ms ++ [⟨c.2.2, rec, c.1⟩] else ms

/-- The 64-byte records of the list and the next track ID: matched features take their record's track, the others the next
IDs in list order (R412, R413). -/
def hawkRecords (restart : Bool) (ms : List HawkMatch) : Nat → Nat → List Feat → List Byte × Nat
  | _, nid, [] => ([], nid)
  | i, nid, f :: t =>
    let m := ms.find? (fun m => decide (m.feat = i))
    let id := match m with | some m => leAt m.record 0 4 | none => nid
    let flags := match m with | some _ => 2 | none => 1 + 4 * b2n restart
    let age := match m with | some m => min 65535 (leAt m.record 12 2 + 1) | none => 0
    let ham := match m with | some m => m.h | none => 0
    let prev := match m with | some m => (m.record.drop 4).take 4 | none => zeros 4
    let body := leBytes 4 id ++ leBytes 2 (f.x * 2 ^ f.level * 16) ++ leBytes 2 (f.y * 2 ^ f.level * 16) ++ leBytes 1 f.level
      ++ leBytes 1 flags ++ leBytes 2 f.score ++ leBytes 2 age ++ leBytes 1 ham ++ [0] ++ prev ++ zeros 12 ++ f.desc
    let rest := hawkRecords restart ms (i + 1) (match m with | some _ => nid | none => (nid + 1) % 2 ^ 32) t
    (body ++ rest.1, rest.2)

/-- The 64-byte list header (R413). -/
def listHeader (count nextId tbFs frame camera flags matched : Nat) : List Byte :=
  leBytes 4 count ++ leBytes 4 nextId ++ leBytes 8 tbFs ++ leBytes 2 frame ++ leBytes 1 camera ++ leBytes 1 flags
    ++ leBytes 4 matched ++ zeros 40

/-! ### Owl (R415 to R419) -/

/-- The census of a pixel: 62 bits over the 9 by 7 window without its centre. -/
def census (r : Rows) (w h x y : Nat) : Nat :=
  let c := r.at x y
  (((List.range 63).filter (· ≠ 31)).zipIdx).foldl (fun a k =>
    a + b2n (decide (r.clamped w h ((x : Int) + ((k.1 % 9 : Nat) : Int) - 4) ((y : Int) + ((k.1 / 9 : Nat) : Int) - 3) < c)) * 2 ^ k.2) 0

def popcount (n k : Nat) : Nat := (List.range k).foldl (fun a i => a + b2n (n.testBit i)) 0

/-- The matching costs of row `y`, per pixel and disparity; the left map reads the other image at x − d, the right map at
x + d. -/
def costRow (left : Bool) (own other : List Nat) (w dmin nd : Nat) : List (List Nat) :=
  (List.range w).map (fun x => (List.range nd).map (fun k =>
    let d := dmin + k
    if left then (if x < d then 62 else popcount (own.getD x 0 ^^^ other.getD (x - d) 0) 62)
    else (if w ≤ x + d then 62 else popcount (own.getD x 0 ^^^ other.getD (x + d) 0) 62)))

def listMin (l : List Nat) : Nat := l.foldl min (l.headD 0)

/-- One step along a path: the costs of a pixel after those of the pixel before it (R416). -/
def pathStep (p1 p2 : Nat) (prev : Option (List Nat)) (c : List Nat) : List Nat :=
  match prev with
  | none => c
  | some l =>
    let m := listMin l
    let lo := match l with | [] => [] | h :: _ => h :: l
    let hi := l.drop 1 ++ (match l.getLast? with | some e => [e] | none => [])
    (List.zipWith (fun (cl : Nat × Nat) (n : Nat × Nat) =>
      cl.1 + min (min cl.2 (m + p2)) (min (n.1 + p1) (n.2 + p1)) - m) (c.zip l) (lo.zip hi))

/-- A row of a path that comes from the row before, shifted by `dx` columns: −1, 0 or 1. -/
def pathRow (p1 p2 : Nat) (dx : Int) (prev : Option (List (List Nat))) (cs : List (List Nat)) : List (List Nat) :=
  match prev with
  | none => cs
  | some l => cs.zipIdx.map (fun c =>
      let px := (c.2 : Int) - dx
      pathStep p1 p2 (if px < 0 then none else l[px.toNat]?) c.1)

/-- A row of the left to right path. -/
def pathAlong (p1 p2 : Nat) : Option (List Nat) → List (List Nat) → List (List Nat)
  | _, [] => []
  | prev, c :: t => let l := pathStep p1 p2 prev c; l :: pathAlong p1 p2 (some l) t

def addRows (a b : List (List Nat)) : List (List Nat) := List.zipWith (List.zipWith (· + ·)) a b

/-- The three paths that come from a neighbouring row. -/
def threeRows (p1 p2 : Nat) (prev : List (List (List Nat))) (cs : List (List Nat)) : List (List (List Nat)) :=
  [pathRow p1 p2 0 prev[0]? cs, pathRow p1 p2 1 prev[1]? cs, pathRow p1 p2 (-1) prev[2]? cs]

/-- The upward paths over rows given from the lowest up: their sums, in the same order. -/
def upRows (p1 p2 : Nat) : List (List (List Nat)) → List (List (List Nat)) → List (List (List Nat))
  | _, [] => []
  | prev, cs :: t =>
    let l := threeRows p1 p2 prev cs
    (l.foldl addRows (cs.map (fun c => c.map (fun _ => 0)))) :: upRows p1 p2 l t

/-- The downward and horizontal paths over rows from the top down: their sums, and the path states after the last row. -/
def downRows (p1 p2 : Nat) : List (List (List Nat)) → List (List (List Nat)) → List (List (List Nat)) × List (List (List Nat))
  | prev, [] => ([], prev)
  | prev, cs :: t =>
    let l := threeRows p1 p2 prev cs
    let a := pathAlong p1 p2 none cs
    let b := (pathAlong p1 p2 none cs.reverse).reverse
    let rest := downRows p1 p2 l t
    ((l.foldl addRows (addRows a b)) :: rest.1, rest.2)

/-- S of a band of `n` rows whose costs `cs` reach down to the halo row, and the path states after the band. -/
def aggregate (p1 p2 n : Nat) (prev : List (List (List Nat))) (cs : List (List (List Nat))) :
    List (List (List Nat)) × List (List (List Nat)) :=
  let dn := downRows p1 p2 prev (cs.take n)
  let up := (upRows p1 p2 [] cs.reverse).reverse.take n
  (List.zipWith addRows dn.1 up, dn.2)

/-- The index of the lowest entry, the lower index on ties. -/
def argMin (l : List Nat) : Nat :=
  (l.zipIdx.foldl (fun (b : Nat × Nat) e => if e.1 < b.1 then (e.1, e.2) else b) (l.headD 0, 0)).2

/-- The disparity of a pixel and its cost S(k*), or none where it is not unique (R417). -/
def disparity (dmin uniq : Nat) (l : List Nat) : Option (Nat × Nat) :=
  let n := l.length
  let k := argMin l
  let s0 := l.getD k 0
  let lo := l.getD (k - 1) 0
  let hi := l.getD (k + 1) 0
  let dl : Int := if 0 < k ∧ k + 1 < n then roundAway (16 * ((lo : Int) - (hi : Int))) (2 * (lo + hi - 2 * s0)) else 0
  let others := (l.zipIdx.filter (fun e => decide (e.2 + 1 < k) || decide (k + 1 < e.2))).map (·.1)
  if 4 ≤ n ∧ 100 * listMin others < (100 + uniq) * s0 then none
  else some (((16 * (dmin + k) : Nat) + dl : Int).toNat, s0)

/-- The left map of a row after the LR check (R418): the disparities, and how many failed it. [DEDUCED, log entry 140] -/
def lrCheck (tol : Nat) (l r : List (Option (Nat × Nat))) : List (Option (Nat × Nat)) × Nat :=
  let fails (x : Nat) (d : Nat) : Bool :=
    let k := (d + 8) / 16
    if x < k then true
    else match (r.getD (x - k) none) with
      | none => true
      | some e => decide (tol < ((d : Int) - (e.1 : Int)).natAbs)
  let out := l.zipIdx.map (fun e => match e.1 with
    | none => (none, 0)
    | some v => if fails e.2 v.1 then (none, 1) else (some v, 0))
  (out.map (·.1), (out.map (·.2)).sum)

/-- The stored disparity and cost of a pixel (R419). [DEDUCED, log entry 140] -/
def owlPixel (conf : Bool) (shift : Nat) (v : Option (Nat × Nat)) : Nat × Nat :=
  match v with
  | none => (0xFFFF, 255)
  | some (d, c) => (d, if conf then 254 - min 254 (c / 2 ^ shift) else min 254 (c / 2 ^ shift))

/-! ### Kestrel (R421, R422) -/

/-- The SAD of a current cell against the reference displaced by (dx, dy). -/
def cellSad (cur ref : Rows) (w h rw rh cx cy : Nat) (dx dy : Int) : Nat :=
  (List.range (min 8 (h - 8 * cy))).foldl (fun a j => (List.range (min 8 (w - 8 * cx))).foldl (fun a i =>
    let x := 8 * cx + i
    let y := 8 * cy + j
    a + ((cur.at x y : Int) - (ref.clamped rw rh ((x : Int) + dx) ((y : Int) + dy) : Int)).natAbs) a) 0

/-- Order of candidates: SAD, then |dx| + |dy|, then dy, then dx (R421). -/
def vecLt (a b : Nat × Int × Int) : Bool :=
  let m (v : Nat × Int × Int) : Nat := v.2.1.natAbs + v.2.2.natAbs
  decide (a.1 < b.1) || (decide (a.1 = b.1) && (decide (m a < m b) || (decide (m a = m b) &&
    (decide (a.2.2 < b.2.2) || (decide (a.2.2 = b.2.2) && decide (a.2.1 < b.2.1))))))

/-- The winning vector of a cell around a predictor. -/
def searchCell (sad : Int → Int → Nat) (px py : Int) (radius : Nat) : Nat × Int × Int :=
  let span := (List.range (2 * radius + 1)).map (fun (i : Nat) => (i : Int) - (radius : Int))
  let cands := span.flatMap (fun dy => span.map (fun dx => (sad (px + dx) (py + dy), px + dx, py + dy)))
  cands.foldl (fun b c => if vecLt c b then c else b) (cands.headD (0, 0, 0))

/-- The sub-pixel term of one axis: the SADs at −1 and +1, where both lie in the searched square (R422). -/
def subPixel (s0 : Nat) (lo hi : Option Nat) : Int :=
  match lo, hi with
  | some a, some b =>
    let den : Int := 2 * ((a : Int) + (b : Int) - 2 * (s0 : Int))
    if den ≤ 0 then 0 else clampI (-8) 8 (roundAway (16 * ((a : Int) - (b : Int))) den.toNat)
  | _, _ => 0

/-- The flow (1/16 pixel) and cost of a level-0 cell. [DESIGN CHOICE, log entry 141] -/
def cellFlow (sad : Int → Int → Nat) (px py : Int) (radius shift n : Nat) : Int × Int × Nat :=
  let v := searchCell sad px py radius
  let dx := v.2.1
  let dy := v.2.2
  let inx (x : Int) : Option Nat := if (x - px).natAbs ≤ radius then some (sad x dy) else none
  let iny (y : Int) : Option Nat := if (y - py).natAbs ≤ radius then some (sad dx y) else none
  (16 * dx + subPixel v.1 (inx (dx - 1)) (inx (dx + 1)), 16 * dy + subPixel v.1 (iny (dy - 1)) (iny (dy + 1)),
    min 254 (v.1 * 64 / n / 2 ^ shift))

end Sys2Proof.Machine
end

