-- ==== Sys2Proof/Machine/Vision.lean ====
section
/-!
DEFINITION. The vision chain (chapter 13): the FRAME jobs of the warp, pyramid, Hawk, Owl and Kestrel engines, their checks,
their start with the frame lookup, and their output tiles.
-/
namespace Sys2Proof.Machine

def pgVIS (e : Nat) : Nat := 0x090 + e

def VisEng.idle : VisEng :=
  { tile := 0, tiles := 0, status := 0, detail := 0, absent := false, restart := false, prev := false, pin := none, cfg := [],
    imgs := [], dt := 0, camera := 0, frame := 0, tbFs := 0, carry := [], band := [], vecs := [] }

def visOf (s : State) (e : Nat) : VisEng := s.vis.get VisEng.idle e
def setVis (e : Nat) (v : VisEng) (s : State) : State := { s with vis := s.vis.put VisEng.idle e v }

/-! ### The bodies (R402, R405, R408, R414, R420) -/

def visRules : HeaderRules := ⟨[0x001], fun _ => 1, 1⟩

/-- Offsets of FLAG_BASE and TRIG in the body of each engine, and the length of its descriptor. -/
def visFlagOff (e : Nat) : Nat := [56, 52, 64, 76, 72].getD e 0
def visTrigOff (e : Nat) : Nat := [60, 49, 68, 74, 70].getD e 0
def visLen (e : Nat) : Nat := if e = 0 then 64 else 96

def visFlagBase (e : Nat) (j : Job) : Nat := leAt j.desc (visFlagOff e) 4 % 2 ^ 19
def visFlagEn (e : Nat) (j : Job) : Bool := bitOf (leAt j.desc (visFlagOff e) 4) 31

/-- CLR_FLAGS of the header. -/
def clrFlags (j : Job) : Bool := bitOf j.flags 13

/-- The input a FRAME job waits on, and its NEED (R390). -/
def visTrig (e : Nat) (j : Job) : Option (Nat × Nat) := trigByte (byteAt j.desc (visTrigOff e))

/-- An address of 64-byte alignment whose region is data. -/
def addr64Bad (s : State) (d : List Byte) (off n : Nat) : Option (Nat × Nat) := badIf (!dataAt s (leAt d off 8) n 64) off 0x04

def flagBaseBad (e : Nat) (d : List Byte) (tiles : Nat) : Option (Nat × Nat) :=
  let f := leAt d (visFlagOff e) 4
  firstBad [badIf (decide (bitsOf f 30 19 ≠ 0)) (visFlagOff e) 0x01,
    badIf (bitOf f 31 && decide (524288 < f % 2 ^ 19 + tiles)) (visFlagOff e) 0x06]

def trigByteBad (e : Nat) (d : List Byte) : Option (Nat × Nat) :=
  badIf (decide (bitsOf (byteAt d (visTrigOff e)) 7 5 ≠ 0)) (visTrigOff e) 0x01

def rangeBad (d : List Byte) (off n lo hi : Nat) : Option (Nat × Nat) :=
  badIf (decide (leAt d off n < lo) || decide (hi < leAt d off n)) off 0x06

/-- Output tiles of an image. -/
def tilesOf (w h : Nat) : Nat := ceilTo w 64 * ceilTo h 32

def warpMesh (d : List Byte) : Nat := 8 * ((ceilTo (leAt d 36 2) 16 + 1) * (ceilTo (leAt d 38 2) 16 + 1))

def warpBad (s : State) (d : List Byte) : List (Option (Nat × Nat)) :=
  [badIf (decide (15 < byteAt d 32)) 32 0x01, badIf (decide (1 < byteAt d 33)) 33 0x01, rangeBad d 36 2 1 4096,
   rangeBad d 38 2 1 3072, addr64Bad s d 40 (warpMesh d), addr64Bad s d 48 (imgBytes 1 (leAt d 36 2) (leAt d 38 2)),
   flagBaseBad 0 d (tilesOf (leAt d 36 2) (leAt d 38 2)), trigByteBad 0 d]

def pyrBad (s : State) (d : List Byte) : List (Option (Nat × Nat)) :=
  [addr64Bad s d 32 64, addr64Bad s d 40 64, rangeBad d 48 1 1 5, trigByteBad 1 d, reservedBad d 50 52, flagBaseBad 1 d 0] ++
  (List.range 4).map (fun i =>
    if i + 1 < byteAt d 48 then addr64Bad s d (56 + 8 * i) 64 else reservedBad d (56 + 8 * i) (64 + 8 * i)) ++
  [reservedBad d 88 96]

/-- [DEDUCED, log entry 136] -/
def hawkRef (d : List Byte) : Bool := bitOf (byteAt d 58) 0

def hawkBad (s : State) (d : List Byte) : List (Option (Nat × Nat)) :=
  [addr64Bad s d 32 64, badIf (hawkRef d && decide (leAt d 40 8 = 0)) 40 0x06,
   (if leAt d 40 8 = 0 then none else addr64Bad s d 40 64), addr64Bad s d 48 64, badIf (decide (1 < byteAt d 58)) 58 0x01,
   rangeBad d 59 1 1 5, flagBaseBad 2 d 1, trigByteBad 2 d, reservedBad d 69 96]

/-- [DEDUCED, log entry 142] -/
def owlBad (s : State) (d : List Byte) : List (Option (Nat × Nat)) :=
  [addr64Bad s d 32 64, addr64Bad s d 40 64, addr64Bad s d 48 64, addr64Bad s d 56 64, rangeBad d 64 2 0 3839,
   badIf (decide (15 < byteAt d 66)) 66 0x01, badIf (decide (3 < byteAt d 67)) 67 0x01, rangeBad d 68 1 1 255,
   badIf (decide (byteAt d 69 = 0) || decide (byteAt d 69 < byteAt d 68)) 69 0x06, rangeBad d 70 1 0 100,
   rangeBad d 72 1 0 64, rangeBad d 73 1 0 15, trigByteBad 3 d, reservedBad d 75 76, flagBaseBad 3 d 0, reservedBad d 80 96]

def kesTiles (d : List Byte) : Nat := ceilTo (leAt d 76 2) 8 * ceilTo (leAt d 78 2) 4

def kesBad (s : State) (d : List Byte) : List (Option (Nat × Nat)) :=
  let ok := decide (1 ≤ leAt d 76 2 ∧ leAt d 76 2 ≤ 512 ∧ 1 ≤ leAt d 78 2 ∧ leAt d 78 2 ≤ 384)
  [addr64Bad s d 32 64, addr64Bad s d 40 64,
   addr64Bad s d 48 (if ok then imgBytes 3 (leAt d 76 2) (leAt d 78 2) else 64),
   addr64Bad s d 56 (if ok then imgBytes 4 (leAt d 76 2) (leAt d 78 2) else 64), rangeBad d 66 1 1 5, rangeBad d 67 1 1 128,
   rangeBad d 68 1 1 128, rangeBad d 69 1 0 15, trigByteBad 4 d, badIf (decide (15 < byteAt d 71)) 71 0x01,
   flagBaseBad 4 d (if ok then kesTiles d else 0), rangeBad d 76 2 1 512, rangeBad d 78 2 1 384, reservedBad d 82 96]

/-- The first field in error of a FRAME job for engine `e`, as far as the descriptor alone shows it. -/
def visBad (e : Nat) (s : State) (j : Job) : Option (Nat × Nat) :=
  let d := j.desc
  descBad d (visLen e) (headerBad s visRules j ::
    (if e = 0 then warpBad s d else if e = 1 then pyrBad s d else if e = 2 then hawkBad s d else if e = 3 then owlBad s d
      else kesBad s d) ++ [reservedBad d (if e = 0 then 62 else 96) d.length])

/-- The memory a FRAME job names (R141). -/
def visAddrs (e : Nat) (j : Job) : List Nat :=
  let d := j.desc
  if e = 0 then [leAt d 40 8, leAt d 48 8]
  else if e = 1 then [leAt d 32 8, leAt d 40 8] ++ (List.range (byteAt d 48 - 1)).map (fun i => leAt d (56 + 8 * i) 8)
  else if e = 2 then [leAt d 32 8, leAt d 48 8] ++ (if leAt d 40 8 = 0 then [] else [leAt d 40 8])
  else [leAt d 32 8, leAt d 40 8, leAt d 48 8, leAt d 56 8]

/-! ### Ending -/

/-- What every end of an engine's job does. -/
def visStop (e : Nat) (s : State) : State := setVis e VisEng.idle s

/-- The running job of an engine ends: its pins go when it aborts, else with its completion record (R364, R392). -/
def visEnd (p status detail : Nat) (s : State) : State :=
  finish p status detail (if isAbort status then unpinAborted p s else s)

/-! ### The start of a job -/

/-- Ends the job with VIS_HDR_BAD for byte `off` of the header at `a`. -/
def hdrBadStop {α : Type} (a off : Nat) : Eng α := estop 0x0500 (off + a * 2 ^ 24)

/-- [DEDUCED, log entry 134] -/
def sizeStop {α : Type} (w h : Nat) : Eng α := estop 0x0502 (w + h * 2 ^ 16)
/-- [DEDUCED, log entry 139] -/
def refStop {α : Type} (found named : Nat) : Eng α := estop 0x0501 (found + named * 2 ^ 16)

/-- Reads and checks an image header of a kind. -/
def readImgHeader (kind a : Nat) : Eng (List Byte) := do
  let d ← eread a 64
  match imgHeaderBad kind d with
  | some o => hdrBadStop a o
  | none => pure d

/-- Reads and checks the pyramid index that the body names at `off`: levels, reserved bytes, and level addresses in data (R389).
[DEDUCED, log entry 135] -/
def readIndex (j : Job) (off : Nat) : Eng (List Byte) := do
  let a := leAt j.desc off 8
  let d ← eread a 64
  let s ← get
  let n := byteAt d 0
  if n = 0 ∨ 5 < n then hdrBadStop a 0
  else if 15 < byteAt d 1 then hdrBadStop a 1
  else if 1 < byteAt d 4 then hdrBadStop a 4
  else match ([5, 6, 7] ++ (List.range 16).map (48 + ·)).find? (fun i => decide (byteAt d i ≠ 0)) with
    | some o => hdrBadStop a o
    | none => if (List.range n).all (fun l => dataAt s (leAt d (8 + 8 * l) 8) 64 64) then pure d else ebad off 0x04

/-- The whole region of an image that is read is data (R389): else the body's field at `off`, which names it, is in error. -/
def checkInput (off kind a : Nat) (hd : List Byte) : Eng Unit := do
  let s ← get
  if bitOf (byteAt hd 11) 0 || dataAt s a (imgBytes kind (leAt hd 0 2) (leAt hd 2 2)) 64 then pure () else ebad off 0x04

/-- The level images that the index named at `off` names, up to `n`: address, width, height; whether any header carries ABSENT;
TB_FS of level 0. -/
def readLevels (off : Nat) (index : List Byte) (n : Nat) : Eng (List (Nat × Nat × Nat) × Bool × Nat) := do
  let hs ← (List.range n).mapM (fun l => readImgHeader 1 (leAt index (8 + 8 * l) 8))
  hs.zipIdx.forM (fun h => checkInput off 1 (leAt index (8 + 8 * h.2) 8) h.1)
  pure (hs.zipIdx.map (fun h => (leAt index (8 + 8 * h.2) 8, leAt h.1 0 2, leAt h.1 2 2)),
    bitOf (byteAt index 4) 0 || hs.any (fun h => bitOf (byteAt h 11) 0), leAt (hs.headD []) 16 8)

/-- Refuses a body whose region at `off` is not data, or whose flags pass the last one, once the sizes are known.
[DEDUCED, log entry 134] -/
def checkRegion (j : Job) (off n : Nat) : Eng Unit := do
  let s ← get
  if dataAt s (leAt j.desc off 8) n 64 then pure () else ebad off 0x04

def checkFlags (e : Nat) (j : Job) (tiles : Nat) : Eng Unit :=
  match flagBaseBad e j.desc tiles with
  | some b => ebad b.1 b.2
  | none => pure ()

/-- R396: the whole flag range is cleared before anything is written. -/
def clearRange (e : Nat) (j : Job) (tiles : Nat) : Eng Unit :=
  if clrFlags j && visFlagEn e j then (List.range tiles).forM (fun t => eflag (visFlagBase e j + t) false) else pure ()

/-- The detail of NOREF (R399). [DEDUCED, log entry 139] -/
def norefDetail (frame camera reason : Nat) (isRef : Bool) : Nat :=
  frame + camera * 2 ^ 16 + b2n isRef * 2 ^ 20 + reason * 2 ^ 21

/-- The start answers what the engine remembers of its job. -/
def warpStart (j : Job) : Eng VisEng := do
  let s ← get
  let d := j.desc
  let c := byteAt d 32
  let f := leAt d 34 2
  let w := leAt d 36 2
  let h := leAt d 38 2
  let n := tilesOf w h
  let out := leAt d 48 8
  let r := lookupReason s c f
  emod (wrN (pgVIS 0) 0x0A0 0)
  let base : VisEng := { VisEng.idle with tiles := n, camera := c, frame := f }
  if r ≠ 0 then
    clearRange 0 j n
    ewrite out (imgHeader 1 w h 0 c f 0 true)
    pure { base with absent := true, status := stNOREF, detail := norefDetail f c r false }
  else
    emod (pinFrame c f (pgVIS 0))
    let a := slotAddr (camOf s c) (f % 8)
    let hd ← eread a 64
    let fw := leAt hd 4 2
    let fh := leAt hd 6 2
    if !dtKnown (byteAt hd 3) then hdrBadStop a 3
    else if fw = 0 ∨ 4096 < fw then hdrBadStop a 4
    else if fh = 0 ∨ 3072 < fh then hdrBadStop a 6
    else if !dataAt s a (64 + pitchOf (byteAt hd 3) fw * fh) 64 then ebad 32 0x04
    else
      clearRange 0 j n
      ewrite out (imgHeader 1 w h 0 c f (leAt hd 8 8) false)
      pure { base with pin := some (c, f), imgs := [(a, fw, fh)], dt := byteAt hd 3, tbFs := leAt hd 8 8 }

/-- Widths and heights of the levels of an image. -/
def levelSizes : Nat → Nat → Nat → List (Nat × Nat)
  | 0, _, _ => []
  | n + 1, w, h => (w, h) :: levelSizes n (ceilTo w 2) (ceilTo h 2)

def pyrStart (j : Job) : Eng VisEng := do
  let d := j.desc
  let a := leAt d 32 8
  let hd ← readImgHeader 1 a
  checkInput 32 1 a hd
  let n := byteAt d 48
  let sizes := levelSizes n (leAt hd 0 2) (leAt hd 2 2)
  let addrs := a :: (List.range (n - 1)).map (fun i => leAt d (56 + 8 * i) 8)
  (sizes.zipIdx.drop 1).forM (fun x => checkRegion j (48 + 8 * x.2) (imgBytes 1 x.1.1 x.1.2))
  let tiles := ((sizes.drop 1).map (fun x => tilesOf x.1 x.2)).sum
  checkFlags 1 j tiles
  let absent := bitOf (byteAt hd 11) 0
  let c := byteAt hd 10 % 16
  let f := leAt hd 12 2
  clearRange 1 j tiles
  ewrite (leAt d 40 8) (leBytes 1 n ++ leBytes 1 c ++ leBytes 2 f ++ leBytes 1 (b2n absent) ++ zeros 3
    ++ addrs.flatMap (leBytes 8) ++ zeros (8 * (5 - n)) ++ zeros 16)
  (sizes.zipIdx.drop 1).forM (fun x =>
    ewrite (addrs.getD x.2 0) (imgHeader 1 x.1.1 x.1.2 x.2 c f (leAt hd 16 8) absent))
  pure { VisEng.idle with
    tiles := tiles, camera := c, frame := f, tbFs := leAt hd 16 8, absent := absent,
    status := if absent then stNOREF else stDONE, detail := if absent then norefDetail f c 1 false else 0,
    imgs := (addrs.zip sizes).map (fun x => (x.1, x.2.1, x.2.2)) }

/-- HWK registers as latched: T, ARC, CELL_MAX, SEARCH, MATCH_MAX, MARGIN, MAX_FEAT, then the 256 patterns (R426). -/
def hawkCfg (s : State) : List Nat :=
  let p := pgVIS 2
  let clampN (lo hi x : Nat) : Nat := min hi (max lo x)
  [rdF s p 0x0A0 7 0, clampN 9 12 (rdF s p 0x0A0 11 8), clampN 1 63 (rdF s p 0x0A0 21 16), clampN 1 64 (rdF s p 0x0A4 6 0),
   rdF s p 0x0A4 15 8, rdF s p 0x0A4 23 16, clampN 1 4096 (rdF s p 0x0A8 12 0)] ++
  (List.range 256).map (fun i => rdF s p (0x400 + 4 * i) 19 0)

/-- The first byte of a feature list's header that is refused. [DEDUCED, log entry 135] -/
def listHeaderBad (d : List Byte) : Option Nat :=
  if 4096 < leAt d 0 4 then some 0
  else if 15 < byteAt d 18 then some 18
  else if 3 < byteAt d 19 then some 19
  else ((List.range 40).map (24 + ·)).find? (fun i => decide (byteAt d i ≠ 0))

/-- [DEDUCED, log entries 136, 137] -/
def hawkStart (j : Job) : Eng VisEng := do
  let s ← get
  let d := j.desc
  let cfg := hawkCfg s
  checkRegion j 48 (64 + 64 * cfg.getD 6 0)
  let ix := leAt d 32 8
  -- the camera of a reference is that of the current index
  let cam := (getByte s (ix + 1)).toNat % 16
  let refId := leAt d 56 2
  let r := if hawkRef d then lookupReason s cam refId else 0
  if hawkRef d && decide (r = 0) then emod (pinFrame cam refId (pgVIS 2))
  let index ← readIndex j 32
  let n := byteAt d 59
  if byteAt index 0 < n then ebad 59 0x06
  else
    let lv ← readLevels 32 index n
    let c := byteAt index 1 % 16
    let f := leAt index 2 2
    let named := decide (leAt d 40 8 ≠ 0) && decide (r = 0)
    let prevHd ← if named then eread (leAt d 40 8) 64 else pure []
    if named then
      match listHeaderBad prevHd with
      | some o => hdrBadStop (leAt d 40 8) o
      | none =>
        if !dataAt s (leAt d 40 8) (64 + 64 * leAt prevHd 0 4) 64 then ebad 40 0x04
        else if leAt prevHd 16 2 ≠ refId then refStop (leAt prevHd 16 2) refId
    -- a previous list that carries ABSENT is an absent reference (R399)
    let prevGone := named && bitOf (byteAt prevHd 19) 0
    let restart := decide (r ≠ 0) || prevGone
    if restart then emod (fun s => raise (pgVIS 2) 0x100 sevINFO (f + c * 2 ^ 16) (incCnt (pgVIS 2) 0x0AC 1 s))
    clearRange 2 j 1
    pure { VisEng.idle with
      tiles := 1, camera := c, frame := f, tbFs := lv.2.2, absent := lv.2.1, restart := restart, prev := named && !prevGone, cfg := cfg,
      pin := if hawkRef d ∧ r = 0 then some (cam, refId) else none, imgs := lv.1,
      status := if restart ∨ lv.2.1 = true then stNOREF else stDONE,
      detail := if r ≠ 0 then norefDetail refId cam r true else if lv.2.1 then norefDetail f c 1 false
        else if prevGone then norefDetail (leAt prevHd 16 2) (byteAt prevHd 18 % 16) 1 false else 0 }

def owlStart (j : Job) : Eng VisEng := do
  let s ← get
  let d := j.desc
  let l ← readImgHeader 1 (leAt d 32 8)
  let r ← readImgHeader 1 (leAt d 40 8)
  let w := leAt l 0 2
  let h := leAt l 2 2
  if leAt r 0 2 ≠ w ∨ leAt r 2 2 ≠ h then sizeStop (leAt r 0 2) (leAt r 2 2)
  else
    checkInput 32 1 (leAt d 32 8) l
    checkInput 40 1 (leAt d 40 8) r
    checkRegion j 48 (imgBytes 2 w h)
    checkRegion j 56 (imgBytes 4 w h)
    checkFlags 3 j (tilesOf w h)
    emod (fun s => wrN (pgVIS 3) 0x0A8 0 (wrN (pgVIS 3) 0x0A4 0 s))
    let gone := if bitOf (byteAt l 11) 0 then some l else if bitOf (byteAt r 11) 0 then some r else none
    let src := gone.getD l
    let c := byteAt src 10 % 16
    let f := leAt src 12 2
    clearRange 3 j (tilesOf w h)
    ewrite (leAt d 48 8) (imgHeader 2 w h (byteAt l 9) c f (leAt l 16 8) gone.isSome)
    ewrite (leAt d 56 8) (imgHeader 4 w h (byteAt l 9) c f (leAt l 16 8) gone.isSome)
    let apart := ((leAt l 16 8 : Int) - (leAt r 16 8 : Int)).natAbs
    let sync := decide ((rd s (pgVIS 3) 0x0A0).toNat < apart)
    pure { VisEng.idle with
      tiles := tilesOf w h, camera := c, frame := f, tbFs := leAt l 16 8, absent := gone.isSome,
      imgs := [(leAt d 32 8, w, h), (leAt d 40 8, w, h)],
      status := if gone.isSome then stNOREF else if sync then stDONE_FLAGGED else stDONE,
      detail := if gone.isSome then norefDetail f c 1 false else b2n sync }

/-- The output headers of a Kestrel job. -/
def kesHeaders (j : Job) (c f tb : Nat) (absent : Bool) : Eng Unit := do
  let d := j.desc
  clearRange 4 j (kesTiles d)
  ewrite (leAt d 48 8) (imgHeader 3 (leAt d 76 2) (leAt d 78 2) 0 c f tb absent)
  ewrite (leAt d 56 8) (imgHeader 4 (leAt d 76 2) (leAt d 78 2) 0 c f tb absent)

/-- [DEDUCED, log entry 137] -/
def kesStart (j : Job) : Eng VisEng := do
  let s ← get
  let d := j.desc
  let c := byteAt d 71
  let refId := leAt d 64 2
  let curId := leAt d 80 2
  let n := byteAt d 66
  let r := lookupReason s c refId
  let base : VisEng := { VisEng.idle with tiles := kesTiles d, camera := c, frame := curId }
  if r ≠ 0 then
    kesHeaders j c curId 0 true
    pure { base with absent := true, status := stNOREF, detail := norefDetail refId c r true }
  else
    emod (pinFrame c refId (pgVIS 4))
    let ci ← readIndex j 32
    let ri ← readIndex j 40
    if byteAt ci 1 % 16 ≠ c ∨ leAt ci 2 2 ≠ curId then refStop (leAt ci 2 2) curId
    else if leAt ri 2 2 ≠ refId then refStop (leAt ri 2 2) refId
    else
      let cl ← readLevels 32 ci (min n (byteAt ci 0))
      let rl ← readLevels 40 ri (min n (byteAt ri 0))
      let size (l : List (Nat × Nat × Nat)) : Nat × Nat := (l.headD (0, 0, 0)).2
      if byteAt ci 0 < n then sizeStop (size cl.1).1 (size cl.1).2
      else if byteAt ri 0 < n then sizeStop (size rl.1).1 (size rl.1).2
      else if ceilTo (size cl.1).1 8 ≠ leAt d 76 2 ∨ ceilTo (size cl.1).2 8 ≠ leAt d 78 2 then
        sizeStop (size cl.1).1 (size cl.1).2
      else
        let gone := if cl.2.1 then some (c, curId) else if rl.2.1 then some (byteAt ri 1 % 16, refId) else none
        kesHeaders j c curId cl.2.2 gone.isSome
        pure { base with
          absent := gone.isSome, pin := some (c, refId), imgs := cl.1 ++ rl.1, tbFs := cl.2.2,
          status := if gone.isSome then stNOREF else stDONE,
          detail := match gone with | some g => norefDetail g.2 g.1 1 false | none => 0 }

/-- [DEDUCED, log entry 133] -/
def visStart (e : Nat) (j : Job) : Eng VisEng :=
  if e = 0 then warpStart j else if e = 1 then pyrStart j else if e = 2 then hawkStart j else if e = 3 then owlStart j
  else kesStart j

/-- The job's status and detail as it ends: the NOREF counter counts. -/
def visResult (e : Nat) (v : VisEng) : Eng (Option (Nat × Nat)) := do
  if v.status = stNOREF then emod (incCnt (pgVIS e) 0x094 1)
  pure (some (v.status, v.detail))

/-- The head job is held by its trigger (4) or its frame (5); 0 where it may start (R390, R398). [DEDUCED, log entry 133] -/
def visHold (s : State) (e : Nat) (j : Job) : Nat :=
  if trigHeld s (pgVIS e) (visTrig e j) then 4
  else if e = 0 && bitOf (byteAt j.desc 33) 0 && decide (lookupReason s (byteAt j.desc 32) (leAt j.desc 34 2) = 4) then 5
  else 0

/-- The work of a start: what the engine remembers, or the end of a job without tiles. -/
def visBegin (e : Nat) (j : Job) : Eng (Option (Nat × Nat)) := do
  let v ← visStart e j
  emod (setVis e v)
  if v.tiles = 0 then visResult e v else pure none

/-- VISION_FRAME_START (R390, R397 to R399). -/
def execVisionFrameStart (e : Fin 5) (s : State) : Host.Outcome State Fault Refusal :=
  let p := pgVIS e.val
  settle s (match (pageJobs s p).queue, (pageJobs s p).running with
    | j :: _, [] =>
      if !depsMet s p j (visAddrs e.val j) then tellHeldJob p j s
      else if pastDeadline s j.deadline then refuseQueued p j stABORT_DEADLINE (now s) (missEvent p j s)
      else if visHold s e.val j ≠ 0 then s
      else runUnitFrom s p (visStop e.val) (visEnd p) (visBegin e.val j) (startHead p (trigNeed p (visTrig e.val j) s))
    | _, _ => s)

/-! ### Tiles -/

/-- Reads rows y0 to y1 of the image whose header is at `a`. [DESIGN CHOICE, log entry 132] -/
def readRows (a pitch y0 y1 : Nat) : Eng Rows := do
  let bs ← eread (a + 64 + y0 * pitch) ((y1 + 1 - y0) * pitch)
  pure ⟨y0, pitch, (bs.map (·.toNat)).toArray⟩

/-- Columns and rows of tile (tx, ty) of a `w` by `h` output: first and count. -/
def tileSpan (w h tw th t : Nat) : Nat × Nat × Nat × Nat :=
  let n := ceilTo w tw
  let tx := t % n
  let ty := t / n
  (tw * tx, min tw (w - tw * tx), th * ty, min th (h - th * ty))

/-- Writes a tile's rows of elements of `kind`; the last tile of a row writes its padding zero (R393). -/
def writeTile (out kind w : Nat) (span : Nat × Nat × Nat × Nat) (rowOf : Nat → List Byte) : Eng Unit :=
  let pitch := imgPitch kind w
  let k := kindBytes kind
  (List.range span.2.2.2).forM (fun i =>
    let y := span.2.2.1 + i
    let pad := if span.1 + span.2.1 = w then pitch - w * k else 0
    ewrite (out + 64 + y * pitch + span.1 * k) (rowOf y ++ zeros pad))

/-- The vertex table around a tile: for cell (cx, cy) its source X and Y. -/
def readMesh (mesh vw cx0 cx1 cy0 cy1 : Nat) : Eng (Nat → Nat → Int × Int) := do
  let rows ← (List.range (cy1 + 1 - cy0)).mapM (fun i => eread (mesh + 8 * ((cy0 + i) * vw + cx0)) (8 * (cx1 + 1 - cx0)))
  let arr := (rows.map (fun r => ((List.range (cx1 + 1 - cx0)).map (fun k =>
    (toSigned 32 (leAt r (8 * k) 4), toSigned 32 (leAt r (8 * k + 4) 4)))).toArray)).toArray
  pure (fun cx cy => (arr.getD (cy - cy0) #[]).getD (cx - cx0) (0, 0))

def warpTile (j : Job) (v : VisEng) : Eng VisEng := do
  let d := j.desc
  let w := leAt d 36 2
  let h := leAt d 38 2
  let sp := tileSpan w h 64 32 v.tile
  let x1 := sp.1 + sp.2.1 - 1
  let y1 := sp.2.2.1 + sp.2.2.2 - 1
  let vert ← readMesh (leAt d 40 8) (ceilTo w 16 + 1) (sp.1 / 16) (x1 / 16 + 1) (sp.2.2.1 / 16) (y1 / 16 + 1)
  let src := v.imgs.headD (0, 0, 0)
  let coord (x y : Nat) : Int × Int :=
    let at4 (f : Int × Int → Int) : Int := meshCoord (x % 16) (y % 16) (f (vert (x / 16) (y / 16))) (f (vert (x / 16 + 1) (y / 16)))
      (f (vert (x / 16) (y / 16 + 1))) (f (vert (x / 16 + 1) (y / 16 + 1)))
    (at4 (·.1), at4 (·.2))
  let grid := (List.range sp.2.2.2).map (fun i => (List.range sp.2.1).map (fun k => coord (sp.1 + k) (sp.2.2.1 + i)))
  let inside := (grid.flatten.filter (fun c => insideSource src.2.1 src.2.2 c.1 c.2)).map (fun c => (c.2 / 256).toNat)
  let outside := sp.2.1 * sp.2.2.2 - inside.length
  let pitch := pitchOf v.dt src.2.1
  let rows ← if inside.isEmpty then pure ⟨0, pitch, #[]⟩ else readRows src.1 pitch (listMin inside) (inside.foldl max 0 + 1)
  let pix (c : Int × Int) : Nat := if insideSource src.2.1 src.2.2 c.1 c.2 then warpPixel v.dt rows c.1 c.2 else byteAt d 61
  writeTile (leAt d 48 8) 1 w sp (fun y => (grid.getD (y - sp.2.2.1) []).map (fun c => BitVec.ofNat 8 (pix c)))
  if outside = 0 then pure v
  else
    emod (fun s => wrN (pgVIS 0) 0x0A0 ((rd s (pgVIS 0) 0x0A0).toNat + outside) s)
    pure { v with status := stDONE_FLAGGED, detail := 1 }

/-- The level of the pyramid's tile `t` and its number within the level (R407). -/
def pyrLevel : List (Nat × Nat × Nat) → Nat → Nat → Nat × Nat
  | [], l, t => (l, t)
  | x :: rest, l, t => if t < tilesOf x.2.1 x.2.2 then (l, t) else pyrLevel rest (l + 1) (t - tilesOf x.2.1 x.2.2)

def pyrTile (v : VisEng) : Eng VisEng := do
  let k := pyrLevel (v.imgs.drop 1) 1 v.tile
  let src := v.imgs.getD (k.1 - 1) (0, 0, 0)
  let dst := v.imgs.getD k.1 (0, 0, 0)
  let sp := tileSpan dst.2.1 dst.2.2 64 32 k.2
  let y1 := sp.2.2.1 + sp.2.2.2 - 1
  let rows ← readRows src.1 (imgPitch 1 src.2.1) (min (2 * sp.2.2.1 - 2) (src.2.2 - 1)) (min (2 * y1 + 2) (src.2.2 - 1))
  writeTile dst.1 1 dst.2.1 sp (fun y => (List.range sp.2.1).map (fun i =>
    BitVec.ofNat 8 (pyrPixel rows src.2.1 src.2.2 (sp.1 + i) y)))
  pure v

/-- All rows of an image. -/
def readWhole (img : Nat × Nat × Nat) : Eng Rows := readRows img.1 (imgPitch 1 img.2.1) 0 (img.2.2 - 1)

/-- Hawk's whole list (R409 to R413). -/
def hawkTile (j : Job) (v : VisEng) : Eng VisEng := do
  let d := j.desc
  let out := leAt d 48 8
  let cfg (i : Nat) : Nat := v.cfg.getD i 0
  let prevHd ← if v.prev then eread (leAt d 40 8) 64 else pure []
  let nid := if v.prev then leAt prevHd 4 4 else leAt d 60 4
  let flags := b2n v.absent + 2 * b2n v.restart
  if v.absent then
    ewrite out (listHeader 0 nid 0 v.frame v.camera flags 0)
    pure v
  else
    let levels ← v.imgs.zipIdx.mapM (fun im => do
      let rows ← readWhole im.1
      pure (levelFeats (cfg 0) (cfg 1) (cfg 2) im.2 (v.cfg.drop 7) rows im.1.2.1 im.1.2.2))
    let all := levels.flatten.mergeSort featBefore
    let fs := all.take (cfg 6)
    let prev ← if v.prev then eread (leAt d 40 8 + 64) (64 * leAt prevHd 0 4) else pure []
    let recs := (List.range (prev.length / 64)).map (fun i => (prev.drop (64 * i)).take 64)
    let ms := recs.foldl (matchRecord (cfg 3) (cfg 4) (cfg 5) fs) []
    let body := hawkRecords v.restart ms 0 nid fs
    ewrite out (listHeader fs.length body.2 v.tbFs v.frame v.camera flags ms.length ++ body.1)
    if cfg 6 < all.length ∧ v.status = stDONE then pure { v with status := stDONE_FLAGGED, detail := 1 } else pure v

/-- The census of rows y0 to y1. -/
def censusRows (r : Rows) (w h y0 y1 : Nat) : List (List Nat) :=
  (List.range (y1 + 1 - y0)).map (fun i => (List.range w).map (fun x => census r w h x (y0 + i)))

/-- A band of Owl's maps, each pixel as disparity + 65536 × cost: the band, the path states, invalid pixels, LR failures. -/
def owlBand (j : Job) (v : VisEng) (l r : Rows) (w h y0 : Nat) : List (List Nat) × List (List (List Nat)) × Nat × Nat :=
  let d := j.desc
  let p1 := byteAt d 68
  let p2 := byteAt d 69
  let n := min 32 (h - y0)
  let yb := min (h - 1) (y0 + n - 1 + byteAt d 72)
  let nd := 16 * (byteAt d 66 + 1)
  let cl := censusRows l w h y0 yb
  let cr := censusRows r w h y0 yb
  let costs (left : Bool) : List (List (List Nat)) := List.zipWith (fun a b =>
    if left then costRow true a b w (leAt d 64 2) nd else costRow false b a w (leAt d 64 2) nd) cl cr
  let map (left : Bool) (prev : List (List (List Nat))) : List (List (Option (Nat × Nat))) × List (List (List Nat)) :=
    let g := aggregate p1 p2 n prev (costs left)
    (g.1.map (·.map (disparity (leAt d 64 2) (byteAt d 70))), g.2)
  let ml := map true (v.carry.take 3)
  let lr := bitOf (byteAt d 67) 0
  let mr := if lr then map false (v.carry.drop 3) else ([], [])
  let checked : List (List (Option (Nat × Nat)) × Nat) :=
    if lr then List.zipWith (lrCheck (byteAt d 71)) ml.1 mr.1 else ml.1.map (fun x => (x, 0))
  let rows := checked.map (·.1)
  (rows.map (·.map (fun p => let o := owlPixel (bitOf (byteAt d 67) 1) (byteAt d 73) p; o.1 + 65536 * o.2)), ml.2 ++ mr.2,
    (rows.map (fun x => (x.filter (·.isNone)).length)).sum, (checked.map (·.2)).sum)

def owlTile (j : Job) (v : VisEng) : Eng VisEng := do
  let d := j.desc
  let im := v.imgs.headD (0, 0, 0)
  let w := im.2.1
  let h := im.2.2
  let sp := tileSpan w h 64 32 v.tile
  let write (px : Nat → Nat → Nat × Nat) : Eng Unit := do
    writeTile (leAt d 48 8) 2 w sp (fun y => (List.range sp.2.1).flatMap (fun i => leBytes 2 (px (sp.1 + i) y).1))
    writeTile (leAt d 56 8) 4 w sp (fun y => (List.range sp.2.1).map (fun i => BitVec.ofNat 8 (px (sp.1 + i) y).2))
  if v.absent then
    write (fun _ _ => (0xFFFF, 255))
    pure v
  else
    let v ← if sp.1 = 0 then do
        let y0 := sp.2.2.1
        let lo := y0 - 3
        let hi := min (h - 1) (y0 + sp.2.2.2 - 1 + byteAt d 72 + 3)
        let l ← readRows im.1 (imgPitch 1 w) lo hi
        let r ← readRows (v.imgs.getD 1 (0, 0, 0)).1 (imgPitch 1 w) lo hi
        let b := owlBand j v l r w h y0
        emod (fun s => wrN (pgVIS 3) 0x0A8 ((rd s (pgVIS 3) 0x0A8).toNat + b.2.2.2)
          (wrN (pgVIS 3) 0x0A4 ((rd s (pgVIS 3) 0x0A4).toNat + b.2.2.1) s))
        pure { v with band := b.1, carry := b.2.1 }
      else pure v
    let a := (v.band.map (·.toArray)).toArray
    write (fun x y => let p := (a.getD (y - sp.2.2.1) #[]).getD x 0; (p % 65536, p / 65536))
    pure v

/-- The vectors of a level below the top, given those of the level above and their width in cells. -/
def kesLevel (cur ref : Rows) (w h rw rh radius : Nat) (parents : Array (Int × Int)) (pw : Nat) : List (Int × Int) :=
  (List.range (ceilTo h 8)).flatMap (fun cy => (List.range (ceilTo w 8)).map (fun cx =>
    let p := parents.getD (cy / 2 * pw + cx / 2) (0, 0)
    (searchCell (cellSad cur ref w h rw rh cx cy) (2 * p.1) (2 * p.2) radius).2))

/-- The vectors of level 1, from the top level down; none where level 0 is the top. -/
def kesVectors (j : Job) (v : VisEng) : List Nat → List (Int × Int) → Nat → Eng (List (Int × Int))
  | [], acc, _ => pure acc
  | l :: t, acc, pw => do
    let n := byteAt j.desc 66
    let ci := v.imgs.getD l (0, 0, 0)
    let ri := v.imgs.getD (n + l) (0, 0, 0)
    let cur ← readWhole ci
    let ref ← readWhole ri
    kesVectors j v t (kesLevel cur ref ci.2.1 ci.2.2 ri.2.1 ri.2.2 (if l + 1 = n then byteAt j.desc 67 else byteAt j.desc 68)
      acc.toArray pw) (ceilTo ci.2.1 8)

/-- A flow component as INT16; one that does not fit has no stated value. [DESIGN CHOICE, log entry 141] -/
def flowBytes (v : Int) : Eng (List Byte) := do
  if -32768 ≤ v ∧ v ≤ 32767 then pure (leBytes 2 (ofSigned 16 v))
  else
    let f ← efree
    pure (leBytes 2 f)

def kesTile (j : Job) (v : VisEng) : Eng VisEng := do
  let d := j.desc
  let cw := leAt d 76 2
  let sp := tileSpan cw (leAt d 78 2) 8 4 v.tile
  let n := byteAt d 66
  if v.absent then
    writeTile (leAt d 48 8) 3 cw sp (fun _ => zeros (4 * sp.2.1))
    writeTile (leAt d 56 8) 4 cw sp (fun _ => List.replicate sp.2.1 255)
    pure v
  else
    let v ← if v.tile = 0 then do
        let vs ← kesVectors j v ((List.range (n - 1)).map (fun i => n - 1 - i)) [] 0
        pure { v with vecs := vs }
      else pure v
    let ci := v.imgs.headD (0, 0, 0)
    let ri := v.imgs.getD n (0, 0, 0)
    let cur ← readRows ci.1 (imgPitch 1 ci.2.1) (8 * sp.2.2.1) (min (ci.2.2 - 1) (8 * (sp.2.2.1 + sp.2.2.2) - 1))
    let ref ← readWhole ri
    let radius := if n = 1 then byteAt d 67 else byteAt d 68
    let pw := ceilTo (v.imgs.getD 1 (0, 0, 0)).2.1 8
    let parents := v.vecs.toArray
    let rows := (List.range sp.2.2.2).map (fun i => (List.range sp.2.1).map (fun k =>
      let cx := sp.1 + k
      let cy := sp.2.2.1 + i
      let p := if n = 1 then (0, 0) else parents.getD (cy / 2 * pw + cx / 2) (0, 0)
      let px := min 8 (ci.2.1 - 8 * cx) * min 8 (ci.2.2 - 8 * cy)
      cellFlow (cellSad cur ref ci.2.1 ci.2.2 ri.2.1 ri.2.2 cx cy) (2 * p.1) (2 * p.2) radius (byteAt d 69) px))
    let flows ← rows.mapM (fun r => r.mapM (fun c => do
      let x ← flowBytes c.1
      let y ← flowBytes c.2.1
      pure (x ++ y)))
    writeTile (leAt d 48 8) 3 cw sp (fun y => (flows.getD (y - sp.2.2.1) []).flatten)
    writeTile (leAt d 56 8) 4 cw sp (fun y => (rows.getD (y - sp.2.2.1) []).map (fun c => BitVec.ofNat 8 c.2.2))
    pure v

/-- The work of one tile: no-information outputs of warp and pyramid write no rows (R399). -/
def visTile (e : Nat) (j : Job) (v : VisEng) : Eng VisEng :=
  if e = 0 then (if v.absent then pure v else warpTile j v)
  else if e = 1 then (if v.absent then pure v else pyrTile v)
  else if e = 2 then hawkTile j v
  else if e = 3 then owlTile j v
  else kesTile j v

/-- TILE_DONE (R391, R395): the deadline is checked, the tile is written and its flag set; the last tile ends the job.
[DESIGN CHOICE, log entry 132] -/
def execTileDone (e : Fin 5) (s : State) : Host.Outcome State Fault Refusal :=
  let p := pgVIS e.val
  settle s (match running s p with
    | none => s
    | some j =>
      if !pageOn s p then s
      else if pastDeadline s j.deadline then visEnd p stABORT_DEADLINE (now s) (visStop e.val (missEvent p j s))
      else runUnitFrom s p (visStop e.val) (visEnd p) (do
        let v ← visTile e.val j (visOf s e.val)
        if visFlagEn e.val j then
          eflag (visFlagBase e.val j + v.tile) true
          emod (incCnt p 0x08C 1)
        let v := { v with tile := v.tile + 1 }
        emod (setVis e.val v)
        if v.tiles ≤ v.tile then visResult e.val v else pure none) s)

/-! ### What the pages show (R425) -/

/-- `x_STATE`. -/
def visStateWord (s : State) (e : Nat) : Nat :=
  let p := pgVIS e
  let st := match running s p, (pageJobs s p).queue with
    | some j, _ => if (visAddrs e j).all (addrReady s) then 2 else 3
    | none, j :: _ => if depsMet s p j (visAddrs e j) then visHold s e j else 0
    | none, [] => 0
  st + satN 16 (visOf s e).tile * 65536

/-- `x_PIN`. -/
def visPinWord (s : State) (e : Nat) : Nat :=
  match (visOf s e).pin with
  | some (c, f) => f + c * 2 ^ 16 + 2 ^ 20
  | none => 0

end Sys2Proof.Machine
end

