-- ==== Sys2Proof/Machine/Fusion.lean ====
section
/-!
DEFINITION. The fusion engine (chapter 14): its jobs SETUP, FRAME and GRID, the transform table and the vote's mode, which
joint orders change.
-/
namespace Sys2Proof.Machine

/-! ### State -/

def FusWs.fresh : FusWs :=
  { units := 0, tracks := [], released := [], frameNo := 1, nextId := 1, tPrev := 0, vx := 0, vy := 0, w := 0, scan := none,
    camPrev := [], header := [] }
def FusState.reset : FusState := ⟨none, [], [], none⟩

def setFusRun (r : Option FusRun) (s : State) : State := { s with fus := { s.fus with run := r } }

/-- Frames committed in a workspace (`FUS_FRAMENO`). -/
def FusWs.committed (v : FusWs) : Nat := (v.frameNo + (2 ^ 32 - 1)) % 2 ^ 32

def wsOf (s : State) (a : Nat) : FusWs := s.fus.kept.get FusWs.fresh (a / 65536)
def setWs (a : Nat) (v : FusWs) (s : State) : State :=
  { s with fus := { s.fus with kept := s.fus.kept.put FusWs.fresh (a / 65536) v } }

/-- Transform slot `n`, empty where nothing was ever written. -/
def xformOf (s : State) (n : Nat) : List Byte := s.fus.xforms.get (zeros 96) n

/-- `FUS_MODE` (R445). -/
def fusVoteMode (s : State) : Bool := decide (rdF s pgFUS 0x084 1 0 = 1)
def fusPlainGroup (s : State) : Nat := rdF s pgFUS 0x084 3 2
/-- The mode estimates a group. -/
def fusUses (s : State) (g : Nat) : Bool := fusVoteMode s || decide (fusPlainGroup s = g)

/-- What the page shows of the named workspace. -/
def showWs (v : FusWs) (s : State) : State :=
  wrN pgFUS 0x098 v.nextId (wrN pgFUS 0x094 v.committed
    (wrN pgFUS 0x090 (v.tracks.length + (v.tracks.filter (fun t => decide (t.st = 2))).length * 2 ^ 16) s))

/-! ### Bodies (R428, R430, R456, R458) -/

def fusRules : HeaderRules := ⟨[0x001, 0x002, 0x003], fun _ => 0, 1⟩

def fusTrigOff (j : Job) : Nat := if j.op = 0x002 then 58 else 66
def fusFlagOff (j : Job) : Nat := if j.op = 0x002 then 60 else 68
def fusTrig (j : Job) : Option (Nat × Nat) := if j.op = 0x001 then none else trigByte (byteAt j.desc (fusTrigOff j))

def trig8Bad (d : List Byte) (off : Nat) : Option (Nat × Nat) := badIf (decide (bitsOf (byteAt d off) 7 5 ≠ 0)) off 0x01
/-- A single flag: the reserved bits; [18:0] always names a flag. -/
def flag1Bad (d : List Byte) (off : Nat) : Option (Nat × Nat) := badIf (decide (bitsOf (leAt d off 4) 30 19 ≠ 0)) off 0x01

def setupBad (s : State) (d : List Byte) : List (Option (Nat × Nat)) :=
  [badIf (!dataAt s (leAt d 32 8) (65536 * max 1 (leAt d 40 4)) 65536) 32 0x04, badIf (decide (1 < byteAt d 44)) 44 0x01,
   reservedBad d 45 d.length]

def frameBad (s : State) (d : List Byte) : List (Option (Nat × Nat)) :=
  [addr64Bad s d 40 (192 + 128 * 512), addr64Bad s d 48 (64 * max 1 (leAt d 56 2)), rangeBad d 56 2 0 1024, trig8Bad d 58,
   reservedBad d 59 60, flag1Bad d 60, addr64Bad s d 64 (8 * max 1 (leAt d 72 2)), rangeBad d 72 2 0 1024,
   badIf (decide (1 < byteAt d 74)) 74 0x01, reservedBad d 75 76, addr64Bad s d 80 (32 * max 1 (leAt d 88 2)),
   rangeBad d 88 2 0 4096, reservedBad d 90 92, rangeBad d 92 1 0 8, reservedBad d 93 96] ++
  (List.range 8).map (fun i => if i < byteAt d 92 then badIf (decide (63 < byteAt d (96 + i))) (96 + i) 0x06 else none) ++
  [reservedBad d 104 128] ++
  (List.range 8).map (fun i => if i < byteAt d 92 then addr64Bad s d (128 + 8 * i) 64 else reservedBad d (128 + 8 * i) (136 + 8 * i)) ++
  [reservedBad d 192 d.length]

def gridBytes (d : List Byte) : Nat := max 1 (leAt d 40 2) * max 1 (leAt d 42 2) * max 1 (byteAt d 44)

def gridBad (s : State) (d : List Byte) : List (Option (Nat × Nat)) :=
  [addr64Bad s d 32 (gridBytes d), rangeBad d 40 2 1 512, rangeBad d 42 2 1 512, rangeBad d 44 1 1 32, rangeBad d 45 1 1 8,
   rangeBad d 46 1 1 127, rangeBad d 47 1 129 255, rangeBad d 48 1 128 255, rangeBad d 49 1 1 127,
   addr64Bad s d 56 (8 * max 1 (leAt d 64 2)), rangeBad d 64 2 1 1024, trig8Bad d 66, reservedBad d 67 68, flag1Bad d 68,
   reservedBad d 72 d.length]

def fusLen (op : Nat) : Nat := if op = 0x001 then 64 else if op = 0x002 then 192 else 96

/-- The first field in error of a fusion job. -/
def fusBad (s : State) (j : Job) : Option (Nat × Nat) :=
  let d := j.desc
  descBad d (fusLen j.op) (headerBad s fusRules j ::
    (if j.op = 0x001 then setupBad s d else if j.op = 0x002 then frameBad s d else gridBad s d))

/-- The memory a fusion job names. -/
def fusAddrs (j : Job) : List Nat :=
  let d := j.desc
  if j.op = 0x001 then [leAt d 32 8]
  else if j.op = 0x002 then [leAt d 40 8, leAt d 48 8, leAt d 64 8, leAt d 80 8] ++
    (List.range (byteAt d 92)).map (fun i => leAt d (128 + 8 * i) 8)
  else [leAt d 32 8, leAt d 56 8]

/-- A job's end leaves nothing of it in the engine. -/
def fusStop (s : State) : State := setFusRun none s

/-- The flag of a FRAME or GRID job, where FLAG_EN is 1 (R429). -/
def fusFlag (j : Job) : Option Nat :=
  let w := leAt j.desc (fusFlagOff j) 4
  if bitOf w 31 then some (w % 2 ^ 19) else none

/-- A job under way that has no phase before its output. -/
def FusRun.plain (writes : List (Nat × List Byte)) (flag : Option Nat) (ws : Option (Nat × FusWs)) : FusRun :=
  { left := 0, writes := writes, flag := flag, ws := ws, flags := 0, dropped := 0, refused := 0, noMaj := false,
    status := stDONE, detail := 0 }

/-- FUS_WS_BAD and FUS_INPUT_BAD. -/
def wsBad {α : Type} (why : Nat) : Eng α := estop 0x0500 why
def inputBad {α : Type} (what idx : Nat) : Eng α := estop 0x0501 (what + idx * 256)

/-! ### SETUP (R430) -/

/-- The header the engine writes at a workspace's start; its layout is the engine's own. [DESIGN CHOICE, log entry 144] -/
def wsHeader (a : Nat) (v : FusWs) : List Byte := leBytes 8 a ++ leBytes 4 v.units ++ leBytes 4 v.frameNo ++ leBytes 8 (v.tPrev + 1) ++ zeros 40

/-- [DESIGN CHOICE, log entry 144] -/
def setupWork (j : Job) : Eng FusRun := do
  let d := j.desc
  let a := leAt d 32 8
  if leAt d 40 4 < 16 then wsBad 0x2
  else if bitOf (byteAt d 44) 0 then
    let v := { FusWs.fresh with units := leAt d 40 4 }
    let v := { v with header := wsHeader a v }
    pure (FusRun.plain [(a, v.header)] none (some (a, v)))
  else
    let h ← eread a 64
    let s ← get
    let v := wsOf s a
    if h ≠ v.header then wsBad 0x3 else pure (FusRun.plain [] none (some (a, v)))

/-- A SETUP names its workspace. -/
def nameWs (a : Nat) (v : FusWs) (s : State) : State := showWs v (setWs a v { s with fus := { s.fus with named := some a } })

/-! ### Reading the inputs of a FRAME -/

/-- A list of DPAs of point blocks. [DEDUCED, log entry 145] -/
def readBlockList (a n : Nat) : Eng (List Nat) := do
  let bs ← eread a (8 * n)
  pure ((List.range n).map (fun i => leAt bs (8 * i) 8))

/-- A point block (R378): its header and its 16-byte points. -/
def readBlock (idx a : Nat) : Eng (List Byte × List (List Byte)) := do
  let s ← get
  if !dataAt s a 64 64 then inputBad 0x2 idx
  else
    let h ← eread a 64
    let n := leAt h 16 4
    if 3 < byteAt h 22 ∨ 3 < byteAt h 23 ∨ zerosAt h 28 36 = false ∨ dataAt s a (64 + 16 * n) 64 = false then inputBad 0x2 idx
    else
      let ps ← eread (a + 64) (16 * n)
      pure (h, (List.range n).map (fun i => (ps.drop (16 * i)).take 16))

/-- The transform of a block by its SOURCE, where the slot holds a lidar. -/
def blockXform (s : State) (h : List Byte) : Option (List Byte) :=
  let x := xformOf s (rdF s pgFUS 0x0DC (8 * (byteAt h 22 % 4) + 5) (8 * (byteAt h 22 % 4)))
  if xfValid x && decide (xfGroup x = 1) then some x else none

/-- The stamp of a point: TB_FIRST, plus its own offset where field 3 holds one. -/
def pointTime (h p : List Byte) : Int := (leAt h 0 8 : Nat) + (if bitOf (byteAt h 23) 1 then (leAt p 12 4 : Nat) else 0)

/-- A block's points carried to T_REF that lie in the slice and range of R444, with their corrected times. -/
def lidarPoints (s : State) (e : Ego) (tRef : Nat) (x h : List Byte) (ps : List (List Byte)) : List ((Nat × Nat) × Int) :=
  ps.filterMap (fun p =>
    let t := pointTime h p + xfTofs x
    let v := xfPoint x (leAt p 0 4, leAt p 4 4, leAt p 8 4)
    let c := carry e tRef t (v.1, v.2.1)
    if within (rd s pgFUS 0x0D4).toNat (rd s pgFUS 0x0D8).toNat v.2.2 && within Fp.one f80 (planeRange c) then some (c, t) else none)

/-- The header of a Hawk list. -/
def readHawkHeader (idx a : Nat) : Eng (List Byte) := do
  let s ← get
  let h ← eread a 64
  if (listHeaderBad h).isSome || !dataAt s a (64 + 64 * leAt h 0 4) 64 then inputBad 0x1 idx else pure h

/-- A Hawk list: its header and records. -/
def readHawkList (idx a : Nat) : Eng (List Byte × List (List Byte)) := do
  let h ← readHawkHeader idx a
  let n := leAt h 0 4
  let rs ← eread (a + 64) (64 * n)
  pure (h, (List.range n).map (fun i => (rs.drop (64 * i)).take 64))

/-- Each camera's previous TB_FS, updated from every list that does not carry ABSENT (R443). -/
def camTimes (v : FusWs) (hs : List (List Byte)) : SMap (Option Nat) :=
  hs.foldl (fun m h => if bitOf (byteAt h 19) 0 then m else m.put none (byteAt h 18) (some (leAt h 8 8))) v.camPrev

/-- What the group estimates give: the three groups, the kept lidar points, SCAN_CUT, the camera times, whether an absent
tile was seen in the interval. -/
structure FrameInputs where
  groups : List Group
  scan : Option (List (Nat × Nat))
  cut : Bool
  camPrev : SMap (Option Nat)
  tileAbsent : Bool
deriving DecidableEq, Repr

/-- The wheel group of a FRAME, and whether a sample in its interval is TILE_ABSENT (R442). -/
def wheelPart (j : Job) (v : FusWs) (tRef dt : Nat) : Eng (Group × Bool) := do
  let s ← get
  let d := j.desc
  let bs ← eread (leAt d 80 8) (32 * leAt d 88 2)
  let l := (List.range (leAt d 88 2)).map (fun i => (bs.drop (32 * i)).take 32)
  match (List.range l.length).find? (fun i =>
      let x := l.getD i []
      decide (bitsOf (byteAt x 24) 7 6 ≠ 0) || !zerosAt x 25 7) with
  | some i => inputBad 0x3 i
  | none =>
    let inWin := l.filter (fun x => decide (v.tPrev < leAt x 0 8) && decide (leAt x 0 8 ≤ tRef))
    pure (wheelGroup (rdF s pgFUS 0x0E0 3 0) (rdF s pgFUS 0x0E0 7 4) (rd s pgFUS 0x0E4).toNat dt inWin,
      inWin.any (fun x => bitOf (byteAt x 24) 5))

def visionPart (j : Job) (v : FusWs) : Eng (Group × SMap (Option Nat)) := do
  let s ← get
  let d := j.desc
  let lists ← (List.range (byteAt d 92)).mapM (fun i => do
    let l ← readHawkList i (leAt d (128 + 8 * i) 8)
    pure (xformOf s (byteAt d (96 + i)), l.1, l.2))
  let step (h : List Byte) : Option Int :=
    (v.camPrev.get none (byteAt h 18)).map (fun t => ((leAt h 8 8 : Nat) : Int) - (t : Int))
  let good := lists.filter (fun l => decide (bitsOf (byteAt l.2.1 19) 1 0 = 0) && xfValid l.1 && decide (xfGroup l.1 = 0)
    && (step l.2.1).isSome)
  let dtv : Int := match good with | l :: _ => (step l.2.1).getD 0 | [] => 0
  let used := good.filter (fun l => decide (((step l.2.1).getD 0 - dtv).natAbs ≤ 1000000))
  let pairs := used.flatMap (fun l => visionPairs l.1 l.2.2)
  let times := used.map (fun l => ((leAt l.2.1 8 8 : Nat) : Int) + xfTofs l.1)
  pure (visionGroup (rd s pgFUS 0x0C4).toNat (max 2 (rdF s pgFUS 0x0C0 11 0)) (seconds dtv) pairs times,
    camTimes v (lists.map (·.2.1)))

/-- A mode that does not estimate the vision group still keeps the camera times. [DEDUCED, log entry 147] -/
def visionUnused (j : Job) (v : FusWs) : Eng (Group × SMap (Option Nat)) := do
  let hs ← (List.range (byteAt j.desc 92)).mapM (fun i => readHawkHeader i (leAt j.desc (128 + 8 * i) 8))
  pure (Group.none, camTimes v hs)

/-- [DEDUCED, log entry 147] -/
def lidarPart (j : Job) (v : FusWs) (tRef dt : Nat) : Eng (Group × List (Nat × Nat) × Bool) := do
  let s ← get
  let d := j.desc
  let addrs ← readBlockList (leAt d 64 8) (leAt d 72 2)
  let e : Ego := ⟨v.vx, v.vy, v.w⟩
  let pts ← addrs.zipIdx.mapM (fun a => do
    let b ← readBlock a.2 a.1
    pure (match blockXform s b.1 with | some x => lidarPoints s e tRef x b.1 b.2 | none => []))
  let all := subsample (rd s pgFUS 0x0CC).toNat pts.flatten []
  let kept := all.take 16384
  let start := (fm (if bitOf (byteAt d 74) 0 then leAt d 76 4 else v.w) dt, fm v.vx dt, fm v.vy dt)
  pure (lidarGroup (max 1 (rdF s pgFUS 0x0C8 3 0)) (max 2 (rdF s pgFUS 0x0C8 27 16)) (rd s pgFUS 0x0D0).toNat dt start
    (kept.map (·.1)) v.scan (kept.map (·.2)), kept.map (·.1), decide (16384 < all.length))

def frameInputs (j : Job) (v : FusWs) (tRef dt : Nat) (gap : Bool) : Eng FrameInputs := do
  let s ← get
  let wh ← if fusUses s 2 then wheelPart j v tRef dt else pure (Group.none, false)
  let vi ← if fusUses s 0 then visionPart j v else visionUnused j v
  let li ← if fusUses s 1 then lidarPart j v tRef dt else pure (Group.none, [], false)
  let gs := [vi.1, li.1, wh.1]
  pure { groups := if gap then gs.map (fun g => { Group.none with pairs := g.pairs }) else gs, cut := li.2.2,
         scan := if fusUses s 1 then some li.2.1 else none, camPrev := vi.2, tileAbsent := wh.2 }

/-! ### FRAME (R431 to R455) -/

/-- The detections of a FRAME: kept ones carried to T_REF, and how many were dropped (R450). [DEDUCED, log entry 145] -/
def readDets (j : Job) (e : Ego) (tRef : Nat) : Eng (List Det × Nat) := do
  let s ← get
  let d := j.desc
  let n := leAt d 56 2
  let bs ← eread (leAt d 48 8) (64 * n)
  let l := (List.range n).map (fun i => (bs.drop (64 * i)).take 64)
  if l.any (fun x => decide (1 < byteAt x 9)) then ebad 48 0x06
  else
    let ds := l.zipIdx.filterMap (fun x =>
      let xf := if byteAt x.1 8 < 64 then xformOf s (byteAt x.1 8) else []
      if xfValid xf && decide (xfGroup xf = byteAt x.1 9) then some (carryDet e tRef xf x.2 x.1) else none)
    pure (ds, n - ds.length)

/-- The times of the ego-motion record. Where no group's estimate was valid, which leaves none to name, they are free values of
the job's descriptor and of the workspace's frame number alone (R455). -/
def egoTimes (j : Job) (v : FusWs) (gs : List Group) : Nat × Nat :=
  match (gs.filter (·.valid)).flatMap (·.times) with
  | [] => (Config.egoTime j.desc v.frameNo 0, Config.egoTime j.desc v.frameNo 1)
  | t :: r => ((r.foldl min t).toNat, (r.foldl max t).toNat)

/-- The 192 bytes before the object records (R459). [DESIGN CHOICE, log entry 146] -/
def frameHead (s : State) (v : FusWs) (count tRef flags : Nat) (e : Ego) (m : Nat × Nat × Nat) (times : Nat × Nat) (gs : List Group) :
    List Byte :=
  let est (i : Nat) : List Byte :=
    let g := ((gs.getD i Group.none).est).getD (0, 0, 0)
    [g.1, g.2.1, g.2.2].flatMap (leBytes 4)
  let valid := (List.range 3).foldl (fun a i => a + b2n (gs.getD i Group.none).valid * 2 ^ i) 0
  leBytes 4 v.frameNo ++ leBytes 4 count ++ leBytes 8 tRef ++ leBytes 4 flags ++ zeros 44
    ++ leBytes 8 tRef ++ leBytes 8 times.1 ++ leBytes 8 times.2 ++ leBytes 8 v.tPrev
    ++ [e.vx, e.vy, e.w, m.1, m.2.1, m.2.2].flatMap (leBytes 4) ++ est 0 ++ est 1 ++ est 2 ++ leBytes 4 flags
    ++ leBytes 1 valid ++ leBytes 1 (rdF s pgFUS 0x084 3 0) ++ zeros 2
    ++ leBytes 4 (gs.getD 0 Group.none).pairs ++ leBytes 4 (gs.getD 1 Group.none).pairs ++ zeros 20

/-- `FUS_TRK_CFG`: M, N and K. [DEDUCED, log entry 149] -/
def trkCfg (s : State) : Nat × Nat × Nat :=
  let n := min 8 (max 1 (rdF s pgFUS 0x0A0 7 4))
  (min n (max 1 (rdF s pgFUS 0x0A0 3 0)), n, max 1 (rdF s pgFUS 0x0A0 15 8))

/-- Prediction, both association passes and maintenance; OUTVOTED bits of the frame are in `flags`. -/
def trackFrame (s : State) (v : FusWs) (dt : Nat) (m : Nat × Nat × Nat) (outv : Nat) (ds : List Det) : Tracking :=
  let reg (o : Nat) : Nat := (rd s pgFUS o).toNat
  let k0 : Tracking := ⟨v.tracks.map (predictTrack (reg 0x0AC) dt m.1 m.2.1 m.2.2), v.nextId, 0, 0⟩
  let pass (g : Nat) (k : Tracking) : Tracking :=
    assocPass (reg 0x0A4) (reg 0x0B4) (reg 0x0B0) v.frameNo v.released (fusVoteMode s && outv.testBit g)
      (ds.filter (fun d => decide (d.group = g))) k
  let k := pass 1 (pass 0 k0)
  let c := trkCfg s
  { k with tracks := (k.tracks.map ageTrack).map (checkTrack c.1 c.2.1 c.2.2 (reg 0x0A8)) }

/-- The commit: the workspace's new state, the counters and the events (R431, R460). [DEDUCED, log entry 154] -/
def commitFrame (a : Nat) (v : FusWs) (flags dropped refused : Nat) (noMaj : Bool) (s : State) : State :=
  let s := showWs v (setWs a v s)
  let out := flags % 8
  let s := (List.range 3).foldl (fun s i => if out.testBit i then incCnt pgFUS (0x180 + 4 * i) 1 s else s) s
  let s := if noMaj then incCnt pgFUS 0x18C 1 s else s
  let s := if refused = 0 then s else incCnt pgFUS 0x190 refused s
  let s := if dropped = 0 then s else incCnt pgFUS 0x194 dropped s
  let no := v.committed % 2 ^ 24 * 256
  let s := if out = 0 then s else raise pgFUS 0x103 sevDEGRADED (out + no) s
  if noMaj then raise pgFUS 0x104 sevDEGRADED (bitsOf flags 6 4 * 16 + no) s else s

/-- A FRAME reads the workspace and its inputs at its start, and the transforms, mode and parameters it latches, on which its
outputs depend alone (R431, R433, R455). -/
def frameWork (j : Job) : Eng FusRun := do
  let s ← get
  let d := j.desc
  match s.fus.named with
  | none => wsBad 0x1
  | some a =>
    let v := wsOf s a
    let _ ← eread a 64
    let tRef := leAt d 32 8
    if tRef ≤ v.tPrev then ebad 32 0x06
    else
      let dt := seconds ((tRef : Int) - (v.tPrev : Int))
      let gap := decide (v.tPrev = 0) || decide (1000000000 < tRef - v.tPrev)
      let inp ← frameInputs j v tRef dt gap
      let valid := inp.groups.map (fun g => if g.valid then g.est else none)
      let r := if fusVoteMode s then vote (rdF s pgFUS 0x084 15 8) (rdF s pgFUS 0x084 23 16) valid
        else (valid.getD (fusPlainGroup s) none, 0, true)
      let e : Ego := match r.1 with | some x => ⟨x.1, x.2.1, x.2.2⟩ | none => ⟨v.vx, v.vy, v.w⟩
      let m := (fm e.vx dt, fm e.vy dt, fm e.w dt)
      let dets ← readDets j e tRef
      let k := trackFrame s v dt m (r.2.1 % 8) dets.1
      let absent := (List.range 3).foldl (fun f i =>
        f + b2n (fusUses s i && !(inp.groups.getD i Group.none).valid) * 2 ^ (4 + i)) 0
      let flags := r.2.1 + absent + b2n r.1.isNone * 2 ^ 9 + b2n gap * 2 ^ 10 + k.flags + b2n (decide (0 < dets.2)) * 2 ^ 14
        + b2n inp.cut * 2 ^ 15
      let noMaj := fusVoteMode s && !r.2.2
      let out := frameHead s v k.tracks.length tRef flags e m (egoTimes j v inp.groups) inp.groups
        ++ k.tracks.flatMap (trackRecord tRef)
      let gone := (k.tracks.filter (fun t => decide (t.st = 3))).map (·.id)
      let v' : FusWs := { v with
        tracks := k.tracks.filter (fun t => decide (t.st ≠ 3)), nextId := k.nextId, frameNo := (v.frameNo + 1) % 2 ^ 32,
        released := gone.foldl (fun m i => m.put none i (some v.frameNo)) v.released, tPrev := tRef, vx := e.vx, vy := e.vy,
        w := e.w, scan := inp.scan, camPrev := inp.camPrev }
      let v' := { v' with header := wsHeader a v' }
      let wheelGone := fusUses s 2 && !(inp.groups.getD 2 Group.none).valid && inp.tileAbsent
      let st := if noMaj then (stNO_MAJORITY, flags) else if wheelGone then (stTILE_ABSENT, 0)
        else if flags ≠ 0 then (stDONE_FLAGGED, flags) else (stDONE, 0)
      pure { left := 5, writes := [(leAt d 40 8, out)], flag := fusFlag j, ws := some (a, v'), flags := flags, dropped := dets.2,
             refused := k.refused, noMaj := noMaj, status := st.1, detail := st.2 }

/-! ### GRID (R456, R457) -/

def gridDim (d : List Byte) : GridDim :=
  ⟨leAt d 40 2, leAt d 42 2, byteAt d 44, fm f01 (Fp.ofNat (byteAt d 45)), leAt d 52 4⟩

def gridWork (j : Job) : Eng FusRun := do
  let s ← get
  let d := j.desc
  if s.fus.named.isNone then wsBad 0x1
  else
    let g := gridDim d
    let int8 (o : Nat) : Int := toSigned 8 (byteAt d o)
    let addrs ← readBlockList (leAt d 56 8) (leAt d 64 2)
    let pts ← addrs.zipIdx.mapM (fun a => do
      let b ← readBlock a.2 a.1
      pure (match blockXform s b.1 with
        | some x => b.2.map (fun p => ((xfWord x 3, xfWord x 7, xfWord x 11), xfPoint x (leAt p 0 4, leAt p 4 4, leAt p 8 4)))
        | none => []))
    let old ← eread (leAt d 32 8) (gridBytes d)
    let grid := scrollGrid g (int8 50) (int8 51) ((old.map (fun b => toSigned 8 b.toNat)).toArray)
    let out := pts.flatten.foldl (fun a p => fusePoint (int8 48) (int8 49) (int8 46) (int8 47) g a p.1 p.2) grid
    pure (FusRun.plain [(leAt d 32 8, out.toList.map (fun x => BitVec.ofNat 8 (ofSigned 8 x)))] (fusFlag j) none)

/-! ### The output and the commit (R431, R432, R461) -/

/-- What a job commits: a SETUP its workspace's name, a FRAME the workspace's header and state. -/
def fusCommit (j : Job) (r : FusRun) : Eng Unit :=
  match r.ws with
  | none => pure ()
  | some (a, v) =>
    if j.op = 0x001 then emod (nameWs a v)
    else do
      ewrite a v.header
      emod (commitFrame a v r.flags r.dropped r.refused r.noMaj)

/-- The end of a job: its outputs are written, the deadline is checked, the state is committed, and the flag is set. A job whose
flag cannot be set aborts before it commits (R431). [DEDUCED, log entry 154] -/
def fusFinish (j : Job) (r : FusRun) : Eng (Nat × Nat) := do
  r.writes.forM (fun w => ewrite w.1 w.2)
  edeadline pgFUS j
  match r.flag with
  | some f => eflagReady f
  | none => pure ()
  fusCommit j r
  match r.flag with
  | some f => eflag f true
  | none => pure ()
  pure (r.status, r.detail)

/-- A phase of the running job ends (R432); after the last before the output, the job ends. -/
def fusAdvance (j : Job) (r : FusRun) (s : State) : State :=
  if r.left = 0 then runEng pgFUS fusStop (some <$> fusFinish j r) s
  else if pastDeadline s j.deadline then finish pgFUS stABORT_DEADLINE (now s) (fusStop (missEvent pgFUS j s))
  else touch pgFUS (setFusRun (some { r with left := r.left - 1 }) s)

/-- A job of operation `op` moves on where it runs; else the head job starts, if it is one (R428). -/
def fusCommand (op : Nat) (work : Job → Eng FusRun) (s : State) : State :=
  match running s pgFUS, s.fus.run with
  | some j, some r => if j.op = op ∧ pageOn s pgFUS = true then fusAdvance j r s else s
  | _, _ => startShot pgFUS (fun j => decide (j.op = op)) fusAddrs fusTrig fusStop (fun j => do
      let r ← work j
      emod (setFusRun (some r))
      pure none) s

/-! ### The commands -/

/-- SETUP (R430). [DESIGN CHOICE, log entry 143] -/
def execSetup (s : State) : Host.Outcome State Fault Refusal := settle s (fusCommand 0x001 setupWork s)

/-- FUS_FRAME (R431, R432). [DESIGN CHOICE, log entry 143] -/
def execFusFrame (s : State) : Host.Outcome State Fault Refusal := settle s (fusCommand 0x002 frameWork s)

/-- GRID (R456). -/
def execGrid (s : State) : Host.Outcome State Fault Refusal := settle s (fusCommand 0x003 gridWork s)

/-! ### The joint orders of the engine (R434, R435, R445) -/

/-- The sub-reason that refuses a proposal as read (R435); 0 where it is good. -/
def xformReason (d : List Byte) : Nat :=
  let words := (List.range 16).map (4 * ·) ++ [68, 72, 76, 80]
  if leAt d 88 4 ≠ 0x58460001 ∨ leAt d 92 4 ≠ Crypto.crc32 (d.take 92) then 0x3
  else if leAt d 48 4 ≠ 0 ∨ leAt d 52 4 ≠ 0 ∨ leAt d 56 4 ≠ 0 ∨ leAt d 60 4 ≠ Fp.one then 0x4
  else if words.any (fun o => !Fp.isFinite (leAt d o 4)) then 0x4
  else if byteAt d 85 = 1 ∧ 2 < byteAt d 84 then 0x5
  else 0

/-- Applies a proposal at `dpa` to slot `n`: true where it was written; else XFORM_REFUSED. -/
def fusXformApply (n dpa : Nat) (s : State) : Bool × State :=
  let refuse (why : Nat) (t : State) : Bool × State := (false, raise pgFUS 0x101 sevINFO (n + why * 256) t)
  if !domOn s 6 || !canUse s .fusion dpa 96 then refuse 0x1 s
  else
    let r := readAs .fusion dpa 96 s
    if r.2.1.isSome then refuse 0x2 r.2.2
    else if xformReason r.1 ≠ 0 then refuse (xformReason r.1) r.2.2
    else
      let t := { r.2.2 with fus := { r.2.2.fus with xforms := r.2.2.fus.xforms.put (zeros 96) n r.1 } }
      (true, raise pgFUS 0x100 sevINFO (n + leAt r.1 86 2 * 2 ^ 16) (incCnt pgFUS 0x0F4 1 t))

/-- A FUS_MODE argument that R445 refuses. -/
def fusModeBad (w : Nat) : Bool :=
  decide (1 < bitsOf w 1 0) || decide (bitsOf w 3 2 = 3) || decide (bitsOf w 15 8 = 0) || decide (bitsOf w 23 16 = 0)
    || decide (bitsOf w 7 4 ≠ 0) || decide (2 ^ 24 ≤ w)

def fusModeApply (w : Nat) (s : State) : State := raise pgFUS 0x102 sevINFO w (wrN pgFUS 0x084 w s)

/-! ### What the page shows (R460) -/

/-- `FUS_STATE`: the operation that runs (1 SETUP, 2 FRAME, 3 GRID), or 4 where it waits for memory; 4 or 5 where the head of the
queue is held by its memory or its trigger. -/
def fusStateWord (s : State) : Nat :=
  let st := match running s pgFUS, (pageJobs s pgFUS).queue with
    | some j, _ => if (fusAddrs j).all (addrReady s) then j.op else 4
    | none, j :: _ =>
      if !ready s pgFUS || !enabled s pgFUS then 0
      else if !(fusAddrs j).all (addrReady s) then 4
      else if trigHeld s pgFUS (fusTrig j) then 5 else 0
    | none, [] => 0
  st + b2n s.fus.named.isSome * 256

/-- `FUS_XF_DATAn`. -/
def fusXfWord (s : State) (n : Nat) : Nat := leAt (xformOf s (rdF s pgFUS 0x0F0 5 0)) (4 * n) 4

end Sys2Proof.Machine
end

