-- ==== Sys2Proof/Machine/Fishhawk.lean ====
section
/-!
DEFINITION. Fishhawk (chapter 16): the bound index and its side area, views, SEARCH with its probe sets, distance tables and
ranking, APPEND and DELETE, MERGE and the epochs.
-/
namespace Sys2Proof.Machine

def FshSide.none : FshSide := ⟨[], 0, 0, 0, [], [], []⟩
def FshState.reset : FshState := ⟨none, [], none, none, none⟩

def sideOf (s : State) (a : Nat) : FshSide := s.fsh.sides.get FshSide.none (a / 65536)
def setSide (a : Nat) (v : FshSide) (s : State) : State :=
  { s with fsh := { s.fsh with sides := s.fsh.sides.put FshSide.none (a / 65536) v } }
def setBound (b : FshBound) (s : State) : State := { s with fsh := { s.fsh with bound := some b } }

def setSearch (r : Option FshSearch) (s : State) : State := { s with fsh := { s.fsh with search := r } }
def setMaint (r : Option FshMaint) (s : State) : State := { s with fsh := { s.fsh with maint := r } }

/-! ### Bodies (R492, R494, R497, R510, R513 to R515) -/

def fshRules : HeaderRules := ⟨[0x001, 0x002, 0x003, 0x004, 0x005], fun _ => 0, 1⟩

/-- [a, a + n) lies in DRAM, `a` aligned to `al`. -/
def dramAt (s : State) (a n al : Nat) : Bool := decide (a % al = 0) && decide (a < 0x1000000000) && isData s a n
def dramBad (s : State) (d : List Byte) (off n al : Nat) : Option (Nat × Nat) := badIf (!dramAt s (leAt d off 8) n al) off 0x04

def rStride (k : Nat) : Nat := ceilTo (32 + 8 * k) 64 * 64
def sideBytes : Nat := 100663296

/-- Bytes 56 to 63: FLAG_BASE, the field at 60 to 62, TRIG. -/
def fshTail (d : List Byte) (mid : List (Option (Nat × Nat))) : List (Option (Nat × Nat)) := [flag1Bad d 56] ++ mid ++ [trig8Bad d 63]

def fshSearchBad (s : State) (d : List Byte) : List (Option (Nat × Nat)) :=
  let nq := max 1 (leAt d 60 2)
  [dramBad s d 32 64 64,
   (if bitOf (byteAt d 62) 0 then badIf (decide (leAt d 40 8 ≠ 0)) 40 0x06 else dramBad s d 40 (4 * nq * max 1 (leAt d 64 2)) 64),
   dramBad s d 48 (nq * rStride (leAt d 66 2)) 64] ++
  fshTail d [rangeBad d 60 2 1 64, badIf (decide (1 < byteAt d 62)) 62 0x01] ++
  [rangeBad d 64 2 1 1024, rangeBad d 66 2 1 256, reservedBad d 68 d.length]

def fshCountBad (d : List Byte) : List (Option (Nat × Nat)) := [rangeBad d 60 2 1 4096, reservedBad d 62 63]

def fshBodyBad (s : State) (op : Nat) (d : List Byte) : List (Option (Nat × Nat)) :=
  if op = 0x001 then
    [dramBad s d 32 128 64, dramBad s d 40 sideBytes 65536, badIf (decide (1 < byteAt d 48)) 48 0x01, reservedBad d 49 56] ++
    fshTail d [reservedBad d 60 63] ++ [reservedBad d 64 d.length]
  else if op = 0x002 then fshSearchBad s d
  else if op = 0x003 then
    [dramBad s d 32 64 64, dramBad s d 40 (4 * max 1 (leAt d 60 2)) 64,
     (if leAt d 48 8 = 0 then none else dramBad s d 48 (4 * max 1 (leAt d 60 2)) 64)] ++ fshTail d (fshCountBad d) ++
    [reservedBad d 64 d.length]
  else if op = 0x004 then
    [dramBad s d 32 (4 * max 1 (leAt d 60 2)) 64, reservedBad d 40 56] ++ fshTail d (fshCountBad d) ++ [reservedBad d 64 d.length]
  else
    [dramBad s d 32 (max 1 (leAt d 40 8)) 64, reservedBad d 48 56] ++ fshTail d [reservedBad d 60 63] ++ [reservedBad d 64 d.length]

/-- The first field in error of a Fishhawk job. -/
def fshBad (s : State) (j : Job) : Option (Nat × Nat) :=
  let d := j.desc
  descBad d (if j.op = 0x002 then 96 else 64) (headerBad s fshRules j :: fshBodyBad s j.op d)

/-- The memory a Fishhawk job names. -/
def fshAddrs (j : Job) : List Nat :=
  let d := j.desc
  let opt (o : Nat) : List Nat := if leAt d o 8 = 0 then [] else [leAt d o 8]
  if j.op = 0x001 then [leAt d 32 8, leAt d 40 8]
  else if j.op = 0x002 ∨ j.op = 0x003 then [leAt d 32 8, leAt d 48 8] ++ opt 40
  else [leAt d 32 8]

def fshTrig (j : Job) : Option (Nat × Nat) := trigByte (byteAt j.desc 63)

/-! ### The two units (R493) -/

def isSearch (j : Job) : Bool := decide (j.op = 0x002)
def isMaint (j : Job) : Bool := !isSearch j

/-- Head of a unit's queue while the unit is idle. [DEDUCED, log entry 163] -/
def unitHead (s : State) (f : Job → Bool) : Option Job :=
  if (pageJobs s pgFSH).running.any f then none else (pageJobs s pgFSH).queue.find? f

/-- A BIND runs, or is held at the head of the maintenance queue. [DEDUCED, log entry 163] -/
def bindHeld (s : State) : Bool :=
  (pageJobs s pgFSH).running.any (fun j => decide (j.op = 0x001)) ||
    match unitHead s isMaint with | some j => decide (j.op = 0x001) | none => false

/-- The head of a unit's queue may start: `go` is what starting does; a BIND waits for the search unit to be idle, and the
search unit starts nothing while a BIND is held. -/
def fshStart (f : Job → Bool) (op : Nat) (go : Job → State → State) (s : State) : State :=
  match unitHead s f with
  | none => s
  | some j =>
    if j.op ≠ op then s
    else if !depsMet s pgFSH j (fshAddrs j) then tellHeldJob pgFSH j s
    else if pastDeadline s j.deadline then refuseQueued pgFSH j stABORT_DEADLINE (now s) (missEvent pgFSH j s)
    else if (op = 0x001 && (pageJobs s pgFSH).running.any isSearch) || (op = 0x002 && bindHeld s) then s
    else if trigHeld s pgFSH (fshTrig j) then s
    else go j (startIf pgFSH f (trigNeed pgFSH (fshTrig j) s))

/-- The unit's job ends. -/
def fshEnd (f : Job → Bool) (status detail : Nat) (s : State) : State := finishIf pgFSH f status detail s

/-- Sets a job's single flag. -/
def fshFlag (d : List Byte) : Eng Unit := if bitOf (leAt d 56 4) 31 then eflag (leAt d 56 4 % 2 ^ 19) true else pure ()

/-- The job stops before it commits where it could not set its flag. -/
def fshFlagReady (d : List Byte) : Eng Unit := if bitOf (leAt d 56 4) 31 then eflagReady (leAt d 56 4 % 2 ^ 19) else pure ()

def needBound : Eng FshBound := do
  let s ← get
  match s.fsh.bound with
  | some b => pure b
  | none => estop 0x0500 0

/-! ### Arithmetic (R504 to R506) -/

/-- FP16 values of a run of bytes as FP32. -/
def halves (bs : List Byte) (n : Nat) : List Nat := (List.range n).map (fun i => Fp.ofF16 (leAt bs (2 * i) 2))

/-- The sum of squared differences in ascending order. -/
def sqDist (a b : List Nat) : Nat := (List.zipWith (fun x y => fm (fs x y) (fs x y)) a b).foldl fa 0

/-- The codebooks: subvector lists by subquantiser and centroid. -/
def bookOf (m sd : Nat) (vals : List Nat) : List (List (List Nat)) :=
  (List.range m).map (fun s => (List.range 256).map (fun c => (vals.drop (sd * (256 * s + c))).take sd))

/-- A table entry from a distance, and whether it was held (R505). -/
def tableEntry (tscale d : Nat) : Nat × Bool :=
  match Fp.toIntRne (fm d tscale) with
  | some i => if i ≤ 0x03FFFFFF then (i.toNat, false) else (0x03FFFFFF, true)
  | none => (0x03FFFFFF, true)

/-- The distance table of a query. -/
def tableOf (tscale sd : Nat) (book : List (List (List Nat))) (q : List Nat) : List (List (Nat × Bool)) :=
  book.zipIdx.map (fun b => b.1.map (fun c => tableEntry tscale (sqDist ((q.drop (sd * b.2)).take sd) c)))

def codeDist (t : Array (Array Nat)) (code : List Nat) : Nat :=
  (code.zipIdx.map (fun c => (t.getD c.2 #[]).getD c.1 0)).sum

/-- The `n` list indices of smallest coarse distance, ties to the lower index (R504). -/
def nearestLists (n : Nat) (q : List Nat) (cents : List (List Nat)) : List Nat :=
  (((cents.zipIdx.map (fun c => (sqDist q c.1, c.2))).mergeSort (fun a b =>
    decide (Fp.key a.1 < Fp.key b.1) || (decide (Fp.key a.1 = Fp.key b.1) && decide (a.2 ≤ b.2)))).take n).map (·.2)

/-- The centroid of smallest distance, ties to the lower index. -/
def bestCentroid (v : List Nat) (cs : List (List Nat)) : Nat :=
  ((cs.zipIdx.map (fun c => (sqDist v c.1, c.2))).foldl (fun (b : Option (Nat × Nat)) x =>
    match b with | none => some x | some y => if Fp.lt x.1 y.1 then some x else b) none |>.getD (0, 0)).2

/-- The code of a vector (R513). -/
def encodeVec (sd : Nat) (book : List (List (List Nat))) (v : List Nat) : List Nat :=
  book.zipIdx.map (fun b => bestCentroid ((v.drop (sd * b.2)).take sd) b.1)

/-! ### Reading the index -/

def readBook (b : FshBound) : Eng (List (List (List Nat))) := do
  let bs ← eread b.book (2 * 256 * b.d)
  pure (bookOf b.m (b.d / b.m) (halves bs (256 * b.d)))

def readCents (b : FshBound) : Eng (List (List Nat)) := do
  let bs ← eread b.cent (2 * b.d * b.nlist)
  pure ((List.range b.nlist).map (fun l => halves (bs.drop (2 * b.d * l)) b.d))

/-- Directory entry `l`: CODES and COUNT. -/
def readDirEntry (dir l : Nat) : Eng (Nat × Nat) := do
  let e ← eread (dir + 16 * l) 16
  pure (bitsOf (leAt e 0 8) 39 0, leAt e 8 4)

/-- Where the IDs of a list lie. -/
def idsAt (m codes count : Nat) : Nat := codes + ceilTo (count * m) 64 * 64
def listBytes (m count : Nat) : Nat := ceilTo (count * m) 64 * 64 + 4 * count

/-- `count` vectors of `d` FP16 values at 64-byte pitch. -/
def readVectors (a d count : Nat) : Eng (List (List Nat)) := do
  let pitch := ceilTo (2 * d) 64 * 64
  let s ← get
  if !dramAt s a (count * pitch) 64 then ebad 32 0x04
  else
    let bs ← eread a (count * pitch)
    pure ((List.range count).map (fun j => halves (bs.drop (pitch * j)) d))

def readU32s (a n : Nat) : Eng (List Nat) := do
  let bs ← eread a (4 * n)
  pure ((List.range n).map (fun i => leAt bs (4 * i) 4))

/-! ### BIND (R497, R498) -/

def indexBad {α : Type} (why elem : Nat) : Eng α := estop 0x0504 (why + elem * 256)

/-- The first byte of an index header that is out of range. -/
def indexHeaderBad (s : State) (h : List Byte) : Option Nat :=
  let d := leAt h 4 2
  let m := byteAt h 6
  let nl := leAt h 8 4
  let chk : List (Bool × Nat) :=
    [(decide (leAt h 0 4 ≠ 0x00010000), 0), (decide (d < 8) || decide (256 < d) || decide (d % max 1 m ≠ 0), 4),
     (decide (m ≠ 8 ∧ m ≠ 16 ∧ m ≠ 32), 6), (decide (byteAt h 7 ≠ 0), 7), (decide (nl = 0) || decide (1048576 < nl), 8),
     (!zerosAt h 12 4, 12), (decide (2147483648 < leAt h 16 8), 16), (!dramAt s (leAt h 24 8) (2 * d * nl) 1, 24),
     (!dramAt s (leAt h 32 8) (512 * d) 1, 32), (!dramAt s (leAt h 40 8) (16 * nl) 1, 40),
     (!(Fp.isFinite (leAt h 48 4) && Fp.lt 0 (leAt h 48 4)), 48), (!zerosAt h 52 76, 52)]
  (chk.find? (·.1)).map (·.2)

/-- A directory entry out of range: reserved bits, or an empty list with codes. -/
def dirEntryBad (e : List Byte) : Bool :=
  decide (2 ^ 40 ≤ leAt e 0 8) || !zerosAt e 12 4 || (decide (leAt e 8 4 = 0) && decide (leAt e 0 8 ≠ 0))

def regionsOverlap (m : Nat) (l : List (Nat × Nat)) : Option Nat :=
  let r := (l.zipIdx.filter (fun e => decide (e.1.2 ≠ 0))).map (fun e => (e.1.1, e.1.1 + listBytes m e.1.2, e.2))
  let s := r.mergeSort (fun a b => decide (a.1 ≤ b.1))
  ((s.zip (s.drop 1)).find? (fun p => decide (p.2.1 < p.1.2.1))).map (fun p => p.2.2.2)

/-- The header the side area starts with; its layout is Fishhawk's own. [DESIGN CHOICE, log entry 164] -/
def sideHeader (a : Nat) (v : FshSide) : List Byte :=
  leBytes 8 (a + 1) ++ v.dims.flatMap (leBytes 4) ++ leBytes 4 v.epoch ++ leBytes 4 v.base ++ leBytes 4 v.seq
    ++ leBytes 4 v.entries.length ++ leBytes 4 v.tombs.length ++ zeros 24

/-- Keeps a side area: its header in memory and its contents. [DESIGN CHOICE, log entry 164] -/
def keepSide (a : Nat) (v : FshSide) : Eng Unit := do
  let v := { v with header := sideHeader a v }
  ewrite a v.header
  emod (setSide a v)

/-- A BIND reads and checks the index at its start. -/
def bindWork (j : Job) : Eng (Option (Nat × Nat)) := do
  let d := j.desc
  let s ← get
  let a := leAt d 32 8
  let h ← eread a 128
  match indexHeaderBad s h with
  | some o => indexBad 0x1 o
  | none =>
    let nl := leAt h 8 4
    let dm := leAt h 4 2
    let m := byteAt h 6
    let db ← eread (leAt h 40 8) (16 * nl)
    let es := (List.range nl).map (fun l => (db.drop (16 * l)).take 16)
    match es.zipIdx.find? (fun e => dirEntryBad e.1) with
    | some e => indexBad 0x2 e.2
    | none =>
      let ls := es.map (fun e => (leAt e 0 8, leAt e 8 4))
      match ls.zipIdx.find? (fun e => decide (e.1.2 ≠ 0) && !dramAt s e.1.1 (listBytes m e.1.2) 1) with
      | some e => indexBad 0x3 e.2
      | none => match regionsOverlap m ls with
        | some e => indexBad 0x3 e
        | none =>
          if (ls.map (·.2)).sum ≠ leAt h 16 8 then indexBad 0x4 0
          else
            let bb ← eread (leAt h 32 8) (512 * dm)
            match (halves bb (256 * dm)).zipIdx.find? (fun x => !Fp.isFinite x.1) with
            | some e => indexBad 0x5 e.2
            | none =>
              let cb ← eread (leAt h 24 8) (2 * dm * nl)
              match (halves cb (dm * nl)).zipIdx.find? (fun x => !Fp.isFinite x.1) with
              | some e => indexBad 0x6 e.2
              | none =>
                let sa := leAt d 40 8
                let dims := [dm, m, nl]
                let kept ← if bitOf (byteAt d 48) 0 then pure (some { FshSide.none with dims := dims, epoch := 1 })
                  else do
                    let sh ← eread sa 64
                    let v := sideOf s sa
                    if sh ≠ v.header ∨ v.dims ≠ dims then pure none
                    else pure (some { v with
                      entries := v.entries.filter (fun e => decide (v.base < e.seq)),
                      tombs := v.tombs.filter (fun t => decide (v.base < t.2)) })
                match kept with
                | none => indexBad 0x7 0
                | some v =>
                  emod (setMaint (some (.bind ⟨dm, m, nl, leAt h 24 8, leAt h 32 8, leAt h 48 4, h,
                    ⟨v.epoch, v.base, leAt h 40 8, leAt h 16 8⟩, none, sa⟩ v)))
                  pure none

def maintQuit (s : State) : State := setMaint none s

/-- The commit of a BIND (R497, R498). -/
def bindCommit (d : List Byte) (b : FshBound) (v : FshSide) : Eng (Nat × Nat) := do
  fshFlagReady d
  keepSide b.side v
  emod (setBound b)
  fshFlag d
  pure (stDONE, 0)

/-- A maintenance job of operation `op` that runs commits and ends by `fin`; else the head of the unit's queue starts with `go`, if
it is one. -/
def maintCommand (op : Nat) (go : Job → Eng (Option (Nat × Nat))) (fin : Job → FshMaint → State → State) (s : State) : State :=
  match (pageJobs s pgFSH).running.find? isMaint, s.fsh.maint with
  | some j, some m => if j.op = op ∧ pageOn s pgFSH = true then fin j m s else s
  | _, _ => fshStart isMaint op (fun j => runUnitFrom s pgFSH maintQuit (fshEnd isMaint) (go j)) s

/-- The running maintenance job ends with a commit. -/
def maintEnd (m : Eng (Nat × Nat)) (s : State) : State := runUnitFrom s pgFSH maintQuit (fshEnd isMaint) (some <$> m) s

/-- The deadline of a maintenance job has passed before its commit (R514). -/
def maintMissed (j : Job) (s : State) : State :=
  fshEnd isMaint stABORT_DEADLINE (now s) (maintQuit (missEvent pgFSH j s))

/-- FSH_BIND (R497). -/
def execFshBind (s : State) : Host.Outcome State Fault Refusal :=
  settle s (maintCommand 0x001 bindWork (fun j m s => match m with
    | .bind b v => maintEnd (bindCommit j.desc b v) s
    | _ => s) s)

/-! ### Views (R501, R503) -/

/-- A tombstone of the view for an ID, above a sequence number. -/
def tombAbove (v : FshSide) (base snap id above : Nat) : Bool :=
  v.tombs.any (fun t => decide (t.1 = id) && decide (base < t.2) && decide (t.2 ≤ snap) && decide (above < t.2))

/-- A main-list entry is excluded from the view. -/
def mainExcluded (v : FshSide) (base snap id : Nat) : Bool := tombAbove v base snap id 0

/-- The side entries of a view, in side position, each with whether it is excluded. -/
def sideView (v : FshSide) (base snap : Nat) : List (SideEntry × Bool) :=
  (v.entries.filter (fun e => decide (base < e.seq) && decide (e.seq ≤ snap))).map (fun e => (e, tombAbove v base snap e.id e.seq))

/-! ### SEARCH (R504 to R512) -/

/-- A query's result under way: candidates in rank order, entries scanned, BAD_ID. -/
structure Ranking where
  held : List (Nat × Nat)
  scanned : Nat
  badId : Bool
deriving DecidableEq, Repr

def rankLt (a b : Nat × Nat) : Bool := decide (a.1 < b.1) || (decide (a.1 = b.1) && decide (a.2 < b.2))

def insertRank (c : Nat × Nat) : List (Nat × Nat) → List (Nat × Nat)
  | [] => [c]
  | h :: t => if rankLt c h then c :: h :: t else h :: insertRank c t

/-- A candidate is offered (R507). -/
def offer (k : Nat) (c : Nat × Nat) (r : Ranking) : Ranking := { r with held := (insertRank c r.held).take k }

/-- A distance could place its entry in the result, so that its ID is read (R508). [DEDUCED, log entry 165] -/
def couldRank (k dist : Nat) (r : Ranking) : Bool :=
  decide (r.held.length < k) || (match r.held.getLast? with | some w => decide (dist ≤ w.1) | none => false)

/-- Scans the codes of one list from position `p` on. [DEDUCED, log entry 165] -/
def scanCodes (v : FshSide) (base snap k ids : Nat) (t : Array (Array Nat)) : Nat → List (List Nat) → Ranking → Eng Ranking
  | _, [], r => pure r
  | p, c :: rest, r => do
    let dist := codeDist t c
    let r := { r with scanned := r.scanned + 1 }
    if couldRank k dist r then
      let b ← eread (ids + 4 * p) 4
      let id := leNat b
      let r := if bitOf id 31 then { r with badId := true }
        else if mainExcluded v base snap id then r
        else offer k (dist, id) r
      scanCodes v base snap k ids t (p + 1) rest r
    else scanCodes v base snap k ids t (p + 1) rest r

/-- Scans the probed main lists in ascending order. -/
def scanLists (b : FshBound) (e : FshEpoch) (snap k : Nat) (v : FshSide) (t : Array (Array Nat)) : List Nat → Ranking → Eng Ranking
  | [], r => pure r
  | l :: rest, r => do
    let en ← readDirEntry e.dir l
    let bs ← eread en.1 (en.2 * b.m)
    let codes := (List.range en.2).map (fun p => ((bs.drop (b.m * p)).take b.m).map (·.toNat))
    let r' ← scanCodes v e.base snap k (idsAt b.m en.1 en.2) t 0 codes r
    scanLists b e snap k v t rest r'

/-- The 32-byte header and the K entries of a result (R509, R511). -/
def queryResult (j : Nat) (e : FshEpoch) (snap k flags scanned : Nat) (held : List (Nat × Nat)) : List Byte :=
  leBytes 2 j ++ leBytes 2 held.length ++ leBytes 4 e.num ++ leBytes 4 snap ++ leBytes 4 flags ++ leBytes 8 scanned
    ++ zeros 8 ++ (held ++ List.replicate (k - held.length) (0xFFFFFFFF, 0xFFFFFFFF)).flatMap
      (fun (c : Nat × Nat) => leBytes 4 c.1 ++ leBytes 4 c.2)

/-- One query: its flags, entries scanned, candidates; a bad query holds none, and so fewer than K (R509). -/
def runQuery (b : FshBound) (e : FshEpoch) (snap k : Nat) (v : FshSide) (book : List (List (List Nat))) (probes : Option (List Nat))
    (q : List Nat) : Eng (Nat × Ranking) :=
  match probes with
  | none => pure (8 + 2, ⟨[], 0, false⟩)
  | some ps => do
    let tab := tableOf b.tscale (b.d / b.m) book q
    let sat := tab.any (fun r => r.any (·.2))
    let t := (tab.map (fun r => (r.map (·.1)).toArray)).toArray
    let r ← scanLists b e snap k v t (ps.mergeSort (fun a c => decide (a ≤ c))) ⟨[], 0, false⟩
    let side := (sideView v e.base snap).filter (fun x => ps.contains x.1.list)
    let r := side.foldl (fun r x =>
      let r := { r with scanned := r.scanned + 1 }
      if x.2 then r else offer k (codeDist t x.1.code, x.1.id) r) r
    pure (b2n sat + 2 * b2n (decide (r.held.length < k)) + 4 * b2n r.badId, r)

/-- The probe set of a query; none for a bad one. -/
def probesOf (b : FshBound) (np : Nat) (cents : Option (List (List Nat))) (given : List Nat) (q : List Nat) : Option (List Nat) :=
  if q.any (fun x => !Fp.isFinite x) then none
  else match cents with
    | some cs => some (nearestLists np q cs)
    | none => if given.any (fun l => decide (b.nlist ≤ l)) || decide (given.eraseDups.length ≠ given.length) then none else some given

/-- What a SEARCH with the view (e, snap) of the bound index computes (R502), and the pieces of that work: probe selection, the
tables, one piece to each list boundary of every query, the side entries (R512). -/
def searchWork (j : Job) (b : FshBound) (e : FshEpoch) (snap : Nat) : Eng FshSearch := do
  let d := j.desc
  let v := sideOf (← get) b.side
  let nq := leAt d 60 2
  let np := leAt d 64 2
  let k := leAt d 66 2
  let coarse := bitOf (byteAt d 62) 0
  let qs ← readVectors (leAt d 32 8) b.d nq
  let cents ← if coarse then some <$> readCents b else pure none
  let given ← if coarse then pure [] else readU32s (leAt d 40 8) (np * nq)
  let book ← readBook b
  let probes := qs.zipIdx.map (fun q => probesOf b np cents ((given.drop (np * q.2)).take np) q.1)
  let res ← (qs.zip probes).mapM (fun q => runQuery b e snap k v book q.2 q.1)
  pure
    { left := (1, true) :: (2, false) :: List.replicate ((probes.map (fun p => (p.getD []).length)).sum) (3, true) ++ [(3, false)]
      writes := res.zipIdx.map (fun r => (leAt d 48 8 + r.2 * rStride k, queryResult r.2 e snap k r.1.1 r.1.2.scanned r.1.2.held))
      scanned := (res.map (·.2.scanned)).sum, flags := res.foldl (fun f r => f ||| r.1) 0 }

/-- A SEARCH writes its results and sets its flag. -/
def searchWrite (j : Job) (r : FshSearch) : Eng (Nat × Nat) := do
  r.writes.forM (fun w => ewrite w.1 w.2)
  fshFlag j.desc
  emod (fun s => incCnt64 pgFSH 0x0B8 r.scanned (incCnt pgFSH 0x0B4 (leAt j.desc 60 2) s))
  pure (if r.flags = 0 then (stDONE, 0) else (stDONE_FLAGGED, r.flags))

/-- The previous epoch retires: what no view can hold leaves the side area (R516). -/
def retireEpoch (s : State) : State :=
  match s.fsh.bound with
  | some b => match b.prev with
    | some p =>
      let v := sideOf s b.side
      let v := { v with
        entries := v.entries.filter (fun e => decide (b.cur.base < e.seq)),
        tombs := v.tombs.filter (fun t => decide (b.cur.base < t.2)) }
      let v := { v with header := sideHeader b.side v }
      raise pgFSH 0x101 sevINFO p.num (storeAs .fishhawk b.side v.header (setSide b.side v (setBound { b with prev := none } s)))
    | none => s
  | none => s

/-- A search ends: the previous epoch retires if this was its last one. -/
def searchQuit (s : State) : State :=
  let onPrev := match s.fsh.bound, s.fsh.snap with
    | some b, some x => (match b.prev with | some p => decide (p.num = x.1.num) | none => false)
    | _, _ => false
  let t := { s with fsh := { s.fsh with snap := none, search := none } }
  if onPrev then retireEpoch t else t

/-- The snapshot of a starting SEARCH, or its refusal. -/
def searchBegin (j : Job) : Eng (Option (Nat × Nat)) := do
  let b ← needBound
  if b.nlist < leAt j.desc 64 2 then ebad 64 0x06
  else
    let snap := (sideOf (← get) b.side).seq
    let r ← searchWork j b b.cur snap
    emod (fun s => { s with fsh := { s.fsh with snap := some (b.cur, snap), search := some r } })
    pure none

/-- A piece of the running SEARCH ends, where its deadline may be checked (R512); after the last it writes its results and ends.
[DESIGN CHOICE, log entry 162] -/
def searchAdvance (j : Job) (r : FshSearch) (s : State) : State :=
  match r.left with
  | [] => runUnitFrom s pgFSH searchQuit (fshEnd isSearch) (some <$> searchWrite j r) s
  | m :: t =>
    if m.2 && pastDeadline s j.deadline then fshEnd isSearch stABORT_DEADLINE (now s) (searchQuit (missEvent pgFSH j s))
    else touch pgFSH (setSearch (some { r with left := t }) s)

/-- SEARCH (R501): the head of the search unit's queue starts with its snapshot; given again, the running SEARCH moves on by a
piece of its work. [DESIGN CHOICE, log entry 162] -/
def execSearch (s : State) : Host.Outcome State Fault Refusal :=
  settle s (match (pageJobs s pgFSH).running.find? isSearch, s.fsh.search with
    | some j, some r => if pageOn s pgFSH then searchAdvance j r s else s
    | _, _ => fshStart isSearch 0x002 (fun j => runUnitFrom s pgFSH searchQuit (fshEnd isSearch) (searchBegin j)) s)

/-! ### APPEND and DELETE (R513, R514) -/

/-- ABORT_BAD_DESC for element `i` of the array at a field. -/
def elemBad {α : Type} (off i : Nat) : Eng α := estop stABORT_BAD_DESC (badDetail (off, 0x06) + i * 2 ^ 16)

/-- Commits a new state of the side area, with SIDE_HIGH at the first reach of the threshold. -/
def commitSide (a : Nat) (v : FshSide) (before : Nat) : Eng Unit := do
  keepSide a v
  emod (fun s =>
    let lev := rdF s pgFSH 0x0A8 20 0
    if before < lev ∧ lev ≤ v.entries.length then raise pgFSH 0x102 sevINFO v.entries.length s else s)

/-- An APPEND reads, checks and encodes its vectors. -/
def appendWork (j : Job) : Eng (Option (Nat × Nat)) := do
  let d := j.desc
  let b ← needBound
  let n := leAt d 60 2
  let vs ← readVectors (leAt d 32 8) b.d n
  let ids ← readU32s (leAt d 40 8) n
  let given ← if leAt d 48 8 = 0 then pure none else some <$> readU32s (leAt d 48 8) n
  let badAt (i : Nat) : Option Nat :=
    if bitOf (ids.getD i 0) 31 then some 40
    else if (match given with | some g => decide (b.nlist ≤ g.getD i 0) | none => false) then some 48
    else if (vs.getD i []).any (fun x => !Fp.isFinite x) then some 32
    else none
  match (List.range n).find? (fun i => (badAt i).isSome) with
  | some i => elemBad ((badAt i).getD 0) i
  | none =>
    let s ← get
    let v := sideOf s b.side
    if 1048576 < v.entries.length + n then estop 0x0501 (v.entries.length + n)
    else
      let cents ← if given.isNone then readCents b else pure []
      let book ← readBook b
      let lists := match given with | some g => g | none => vs.map (fun q => (nearestLists 1 q cents).headD 0)
      emod (setMaint (some (.append
        ((List.range n).map (fun i => (ids.getD i 0, lists.getD i 0, encodeVec (b.d / b.m) book (vs.getD i [])))))))
      pure none

/-- All vectors of an APPEND become side entries with one new sequence number (R501, R513). -/
def appendCommit (d : List Byte) (new : List (Nat × Nat × List Nat)) : Eng (Nat × Nat) := do
  let b ← needBound
  let v := sideOf (← get) b.side
  let seq := (v.seq + 1) % 2 ^ 32
  fshFlagReady d
  commitSide b.side { v with entries := v.entries ++ new.map (fun e => ⟨e.1, e.2.1, e.2.2, seq⟩), seq := seq } v.entries.length
  fshFlag d
  pure (stDONE, 0)

/-- A DELETE reads and checks its IDs. -/
def deleteWork (j : Job) : Eng (Option (Nat × Nat)) := do
  let d := j.desc
  let b ← needBound
  let n := leAt d 60 2
  let ids ← readU32s (leAt d 32 8) n
  match (List.range n).find? (fun i => bitOf (ids.getD i 0) 31) with
  | some i => elemBad 32 i
  | none =>
    let s ← get
    let v := sideOf s b.side
    if 1048576 < v.tombs.length + n then estop 0x0502 (v.tombs.length + n)
    else
      emod (setMaint (some (.delete ids)))
      pure none

/-- All tombstones of a DELETE are committed with one new sequence number (R501, R514). -/
def deleteCommit (d : List Byte) (ids : List Nat) : Eng (Nat × Nat) := do
  let b ← needBound
  let v := sideOf (← get) b.side
  let seq := (v.seq + 1) % 2 ^ 32
  fshFlagReady d
  commitSide b.side { v with tombs := v.tombs ++ ids.map (fun x => (x, seq)), seq := seq } v.entries.length
  fshFlag d
  pure (stDONE, 0)

/-- APPEND (R513). -/
def execAppend (s : State) : Host.Outcome State Fault Refusal :=
  settle s (maintCommand 0x003 appendWork (fun j m s => match m with
    | .append new => if pastDeadline s j.deadline then maintMissed j s else maintEnd (appendCommit j.desc new) s
    | _ => s) s)

/-- DELETE (R514). -/
def execDelete (s : State) : Host.Outcome State Fault Refusal :=
  settle s (maintCommand 0x004 deleteWork (fun j m s => match m with
    | .delete ids => if pastDeadline s j.deadline then maintMissed j s else maintEnd (deleteCommit j.desc ids) s
    | _ => s) s)

/-! ### MERGE (R515, R516, R518) -/

/-- The entries of new list `l`: (code, ID). [DEDUCED, log entry 166] -/
def mergedList (b : FshBound) (v : FshSide) (snap l : Nat) : Eng (List (List Byte × Nat)) := do
  let en ← readDirEntry b.cur.dir l
  let bs ← eread en.1 (en.2 * b.m)
  let ids ← readU32s (idsAt b.m en.1 en.2) en.2
  let main := (List.range en.2).filterMap (fun p =>
    let id := ids.getD p 0
    if mainExcluded v b.cur.base snap id then none else some ((bs.drop (b.m * p)).take b.m, id))
  let side := ((sideView v b.cur.base snap).filter (fun x => decide (x.1.list = l) && !x.2)).map (fun x =>
    (x.1.code.map (BitVec.ofNat 8), x.1.id))
  pure (main ++ side)

/-- Places the lists one after another from `a`, each at a 64-byte boundary: directory entries and bytes.
[DEDUCED, log entry 166] -/
def placeLists (m : Nat) : Nat → List (List (List Byte × Nat)) → List (Nat × List Byte) × Nat
  | a, [] => ([], a)
  | a, l :: t =>
    if l.isEmpty then
      let r := placeLists m a t
      ((0, []) :: r.1, r.2)
    else
      let codes := (l.map (·.1)).flatten
      let bytes := codes ++ zeros (ceilTo codes.length 64 * 64 - codes.length) ++ l.flatMap (fun e => leBytes 4 e.2)
      let r := placeLists m ((a + bytes.length + 63) / 64 * 64) t
      ((a, bytes) :: r.1, if t.all (·.isEmpty) then a + bytes.length else r.2)

/-- The destination of a MERGE that aborts is undefined (R518). -/
def mergeScrap (s : State) : State :=
  match s.fsh.maint with
  | some (.merge m) => fillRange m.dst (m.dst + m.size) (.work s.freeCtr) (nextFree s)
  | _ => s

def mergeQuit (s : State) : State := maintQuit (mergeScrap s)

/-- A MERGE at its start takes its snapshot, reads the lists, and writes the new header and directory (R515). -/
def mergeBegin (j : Job) : Eng (Option (Nat × Nat)) := do
  let d := j.desc
  let b ← needBound
  let s ← get
  let v := sideOf s b.side
  let dst := leAt d 32 8
  emod (setMaint (some (.merge ⟨dst, leAt d 40 8, v.seq, 0, 0, []⟩)))
  let lists ← (List.range b.nlist).mapM (mergedList b v v.seq)
  let dir := dst + 128
  let first := (dir + 16 * b.nlist + 63) / 64 * 64
  let pl := placeLists b.m first lists
  let used := (if lists.all (·.isEmpty) then dir + 16 * b.nlist else pl.2) - dst
  if leAt d 40 8 < used then estop 0x0503 used
  else
    let n := (lists.map (·.length)).sum
    ewrite dst (patch (patch b.header 16 (leBytes 8 n)) 40 (leBytes 8 dir))
    ewrite dir ((List.zipWith (fun p (l : List (List Byte × Nat)) => leBytes 8 p.1 ++ leBytes 4 l.length ++ zeros 4) pl.1 lists).flatten)
    emod (setMaint (some (.merge ⟨dst, leAt d 40 8, v.seq, dir, n, pl.1⟩)))
    pure none

/-- A MERGE writes the next list, and goes on. -/
def mergeList (m : FshMerge) (w : Nat × List Byte) (rest : List (Nat × List Byte)) : Eng (Option (Nat × Nat)) := do
  ewrite w.1 w.2
  emod (setMaint (some (.merge { m with left := rest })))
  pure none

/-- A MERGE whose deadline has passed aborts with no switch (R518). -/
def mergeMissed (j : Job) (s : State) : State :=
  fshEnd isMaint stABORT_DEADLINE (now s) (mergeQuit (missEvent pgFSH j s))

/-- A running MERGE goes on to the next list boundary, where its deadline is checked; one with no list left waits to switch. -/
def mergeAdvance (j : Job) (m : FshMerge) (s : State) : State :=
  match m.left with
  | [] => s
  | w :: rest =>
    if pastDeadline s j.deadline then mergeMissed j s
    else runUnitFrom s pgFSH mergeQuit (fshEnd isMaint) (mergeList m w rest) s

/-- MERGE (R515): starts, writes the new lists, and waits to switch. -/
def execMerge (s : State) : Host.Outcome State Fault Refusal :=
  settle s (match (pageJobs s pgFSH).running.find? isMaint, s.fsh.maint with
    | some j, some (.merge m) => if pageOn s pgFSH then mergeAdvance j m s else s
    | _, _ => fshStart isMaint 0x005 (fun j => runUnitFrom s pgFSH mergeQuit (fshEnd isMaint) (mergeBegin j)) s)

/-- The running MERGE that waits to switch. -/
def mergeWaiting (s : State) : Option (Job × FshMerge) :=
  match (pageJobs s pgFSH).running.find? isMaint, s.fsh.maint with
  | some j, some (.merge m) => if m.left.isEmpty then some (j, m) else none
  | _, _ => none

/-- The switch in one instant (R516). -/
def switchWork (j : Job) (m : FshMerge) : Eng (Nat × Nat) := do
  let b ← needBound
  let s ← get
  let v := sideOf s b.side
  let cur : FshEpoch := ⟨(b.cur.num + 1) % 2 ^ 32, m.snap, m.dir, m.nvec⟩
  fshFlagReady j.desc
  keepSide b.side { v with epoch := cur.num, base := m.snap }
  let used := match s.fsh.snap with | some x => decide (x.1.num = b.cur.num) | none => false
  emod (fun s => raise pgFSH 0x100 sevINFO cur.num (incCnt pgFSH 0x0C0 1 (setBound { b with cur := cur, prev := some b.cur } s)))
  if !used then emod retireEpoch
  fshFlag j.desc
  emod maintQuit
  pure (stDONE, 0)

/-- EPOCH_SWITCH (R516): no SEARCH runs on the previous epoch, and the deadline has not passed (R518). -/
def execEpochSwitch (s : State) : Host.Outcome State Fault Refusal :=
  settle s (match mergeWaiting s, s.fsh.bound with
    | some m, some b =>
      if b.prev.isSome || !pageOn s pgFSH then s
      else if pastDeadline s m.1.deadline then mergeMissed m.1 s
      else runUnitFrom s pgFSH mergeQuit (fshEnd isMaint) (some <$> switchWork m.1 m.2) s
    | _, _ => s)

/-- EPOCH_RETIRED (R516): the SEARCH that runs on the previous epoch ends, and with it the epoch. -/
def execEpochRetired (s : State) : Host.Outcome State Fault Refusal :=
  settle s (match (pageJobs s pgFSH).running.find? isSearch, s.fsh.bound, s.fsh.snap, s.fsh.search with
    | some j, some b, some x, some r =>
      (match b.prev with
        | some p => if p.num = x.1.num ∧ r.left = [] ∧ pageOn s pgFSH = true then searchAdvance j r s else s
        | none => s)
    | _, _, _, _ => s)

/-- MERGE_DEADLINE (R518): the deadline passes while the MERGE waits to switch. -/
def execMergeDeadline (s : State) : Host.Outcome State Fault Refusal :=
  settle s (match mergeWaiting s with
    | some m => if pastDeadline s m.1.deadline then mergeMissed m.1 s else s
    | none => s)

/-- Everything a fence or the loss of PD7 takes from the running jobs. -/
def fshStop (s : State) : State := mergeQuit (searchQuit s)

/-! ### What the page shows (R519) -/

/-- `FSH_STATE`: the piece of the SEARCH that runs, or its writing; the maintenance job that runs; else what holds a unit's head. -/
def fshStateWord (s : State) : Nat :=
  let held (f : Job → Bool) : Bool := match unitHead s f with
    | some j => depsMet s pgFSH j (fshAddrs j) && trigHeld s pgFSH (fshTrig j)
    | none => false
  let se := match s.fsh.search with
    | some r => (match r.left with | m :: _ => m.1 | [] => 4)
    | none => if (pageJobs s pgFSH).queue.any isSearch && bindHeld s then 6 else if held isSearch then 5 else 0
  let ma := match s.fsh.maint with
    | some (.bind _ _) => 1
    | some (.append _) => 2
    | some (.delete _) => 3
    | some (.merge m) => if m.left.isEmpty then 5 else 4
    | none => if held isMaint then 6 else 0
  se + ma * 16 + b2n s.fsh.bound.isSome * 256

/-- The registers 0x084 to 0x0A4 that show the bound index. -/
def fshWord (s : State) (off : Nat) : Nat :=
  match s.fsh.bound with
  | none => 0
  | some b =>
    let v := sideOf s b.side
    let users := match s.fsh.snap, b.prev with | some x, some p => b2n (decide (x.1.num = p.num)) | _, _ => 0
    match off with
    | 0x084 => b.cur.num
    | 0x088 => v.seq
    | 0x08C => v.entries.length
    | 0x090 => v.tombs.length
    | 0x094 => users + b2n b.prev.isSome * 2 ^ 16
    | 0x098 => b.cur.dir % 2 ^ 32
    | 0x09C => b.cur.dir / 2 ^ 32
    | 0x0A0 => b.cur.nvec % 2 ^ 32
    | 0x0A4 => b.cur.nvec / 2 ^ 32
    | _ => 0

end Sys2Proof.Machine
end

