-- ==== Sys2Proof/Machine/Streams.lean ====
section
/-!
DEFINITION. The stream units (chapters 8, 9): the RUN and LAUNCH jobs, the fifteen instructions, the address filter, engine
endpoints, run-ahead and the prefetch buffer.
-/
namespace Sys2Proof.Machine

/-! ### Units (R231) -/

def StreamUnit.fresh : StreamUnit :=
  { prog := [], shapes := [], a := [], c := [], hs := false, pc := 0, progLen := 0, cfg := 0, bind := 0, halfOfs := 0,
    waitKind := 0, waitSem := 0, draining := false, waitFlag := none, released := false, missed := [], signalled := [],
    bufs := 0, asked := false, launched := 0, lines := [], ra := none, paused := false, fencing := false }

/-- [DEDUCED, log entry 103] -/
def Endpoint.empty : Endpoint := ⟨[], [], []⟩

def unitOf (s : State) (u : Nat) : StreamUnit := s.strm.get StreamUnit.fresh u
def setUnit (u : Nat) (v : StreamUnit) (s : State) : State := { s with strm := s.strm.put StreamUnit.fresh u v }
def modUnit (u : Nat) (f : StreamUnit → StreamUnit) (s : State) : State := setUnit u (f (unitOf s u)) s

/-- Shape word `w` of shape `k` (R254), its extents and its signed strides and increments. -/
def shWord (v : StreamUnit) (k w : Nat) : Nat := v.shapes.get 0 (8 * k + w)
def shX (v : StreamUnit) (k : Nat) : Nat := bitsOf (shWord v k 0) 22 0
def shY (v : StreamUnit) (k : Nat) : Nat := bitsOf (shWord v k 1) 15 0
def shZ (v : StreamUnit) (k : Nat) : Nat := bitsOf (shWord v k 1) 31 16
def shYS (v : StreamUnit) (k : Nat) (dst : Bool) : Int := toSigned 32 (shWord v k (if dst then 4 else 2))
def shZS (v : StreamUnit) (k : Nat) (dst : Bool) : Int := toSigned 32 (shWord v k (if dst then 5 else 3))
def shInc (v : StreamUnit) (k : Nat) (dst : Bool) : Int := toSigned 32 (shWord v k (if dst then 7 else 6))

/-- `x + i` modulo 2^40. -/
def add40 (x : Nat) (i : Int) : Nat := (((x : Int) + i) % (2 ^ 40 : Int)).toNat

/-! ### Encodings (R251, R252) -/

def iOp (n : Nat) : Nat := bitsOf n 63 58
def iA (n : Nat) : Nat := bitsOf n 57 55
def iDstA (n : Nat) : Nat := bitsOf n 54 52
def iShape (n : Nat) : Nat := bitsOf n 51 49
def iSrcPort (n : Nat) : Bool := bitOf n 48
def iDstKind (n : Nat) : Nat := bitsOf n 47 46
def iSrcH (n : Nat) : Bool := bitOf n 45
def iDstH (n : Nat) : Bool := bitOf n 44
def iSrcInc (n : Nat) : Bool := bitOf n 43
def iDstInc (n : Nat) : Bool := bitOf n 42
def iSpill (n : Nat) : Bool := bitOf n 41
def iSem (n : Nat) : Nat := bitsOf n 55 48
def iSide (n : Nat) : Bool := bitOf n 47
def iK (n : Nat) : Nat := bitsOf n 43 40

def opSETA : Nat := 0x01
def opADDA : Nat := 0x02
def opSETC : Nat := 0x03
def opLOOP : Nat := 0x04
def opXFER : Nat := 0x08
def opPREF : Nat := 0x09
def opWAITS : Nat := 0x10
def opSIGS : Nat := 0x11
def opWAITF : Nat := 0x14
def opSETF : Nat := 0x15
def opCLRF : Nat := 0x16
def opSWAP : Nat := 0x18
def opMARK : Nat := 0x19
def opDRAIN : Nat := 0x1A
def opEND : Nat := 0x1F

/-- The field bits of each opcode (R251), opcode aside; none for an opcode that is not in the table. -/
def fieldBits (op : Nat) : Option Nat :=
  if op = opSETA then some (maskBits 57 55 + maskBits 39 0)
  else if op = opADDA then some (maskBits 57 55 + maskBits 31 0)
  else if op = opSETC then some (maskBits 57 55 + maskBits 23 0)
  else if op = opLOOP then some (maskBits 57 55 + maskBits 6 0)
  else if op = opXFER then some (maskBits 57 41)
  else if op = opPREF then some (maskBits 57 55 + maskBits 51 49 + maskBits 45 45)
  else if op = opWAITS ∨ op = opSIGS then some (maskBits 55 47 + maskBits 43 40)
  else if op = opWAITF then some (maskBits 23 0)
  else if op = opSETF ∨ op = opCLRF then some (maskBits 23 20 + maskBits 18 0)
  else if op = opSWAP ∨ op = opEND then some 0
  else if op = opMARK then some (maskBits 39 0)
  else if op = opDRAIN then some 1
  else none

/-- The size of a BUF destination (R239). -/
def bufSize (v : StreamUnit) (k : Nat) : Int :=
  ((shY v k : Int) - 1) * shYS v k true + ((shZ v k : Int) - 1) * shZS v k true + (shX v k : Int)

/-- Reasons 0x07 and 0x08 of R252 for a shape an instruction names. -/
def shapeBad (v : StreamUnit) (k : Nat) : Bool :=
  decide (shX v k = 0) || decide (4194304 < shX v k) || decide (shY v k = 0) || decide (shZ v k = 0)
    || decide (bitsOf (shWord v k 0) 31 23 ≠ 0)

/-- The lowest failing reason of R252 for one instruction; 0 for none. -/
def insnBad (v : StreamUnit) (n : Nat) : Nat :=
  let op := iOp n
  match fieldBits op with
  | none => 0x01
  | some m =>
    if n % 2 ^ 58 &&& m ≠ n % 2 ^ 58 then 0x02
    else if (op = opWAITS ∨ op = opSIGS) ∧ iK n = 0 then 0x03
    else if op = opLOOP ∧ v.progLen ≤ bitsOf n 6 0 then 0x04
    else if op = opXFER ∧ (iDstKind n = 3 ∨ (iSpill n = true ∧ iDstKind n ≠ 2)
        ∨ (iDstKind n = 2 ∧ (iDstH n || iDstInc n) = true)) then 0x05
    else if op = opXFER ∧ (iSrcPort n || decide (iDstKind n ≠ 0)) = true ∧ flag v.bind 16 = false then 0x06
    else if (op = opXFER ∨ op = opPREF) ∧ shapeBad v (iShape n) = true then 0x07
    else if op = opXFER ∧ iDstKind n = 2 ∧ (shYS v (iShape n) true < 0 ∨ shZS v (iShape n) true < 0
        ∨ 4194304 < bufSize v (iShape n)) then 0x08
    else 0

/-- The lowest failing PC of a program, with its reason. -/
def progBad (v : StreamUnit) : Option (Nat × Nat) :=
  ((List.range v.progLen).find? (fun i => decide (insnBad v (v.prog.get 0 i) ≠ 0))).map
    (fun i => (i, insnBad v (v.prog.get 0 i)))

/-! ### Endpoints (R237, R239, R297, R346) -/

/-- The bytes of an endpoint half: the four endpoints of a tensor core and the candidate endpoint of GEN; 0 for a binding
that names no endpoint. -/
def halfSize (page port : Nat) : Nat :=
  if kindOf page = some .tc then
    (if port = 0 then 524288 else if port = 1 then 393216 else if port = 2 ∨ port = 3 then 131072 else 0)
  else if page = pgGEN ∧ port = 0 then 8192
  else 0

def endpointOf (s : State) (page port : Nat) : Endpoint := s.endpoints.get Endpoint.empty (page * 16 + port)

def setEndpoint (page port : Nat) (e : Endpoint) (s : State) : State :=
  { s with endpoints := s.endpoints.put Endpoint.empty (page * 16 + port) e }

/-- Bytes of half `h` of an endpoint. -/
def portBytes (s : State) (page port : Nat) (h : Bool) (off n : Nat) : List Byte :=
  let e := endpointOf s page port
  (List.range n).map (fun i => e.bytes.get 0 (b2n h * 2 ^ 20 + off + i))

/-- Stores bytes in half `h` of an endpoint. [DEDUCED, log entry 103] -/
def putPort (page port : Nat) (h : Bool) (off : Nat) (bs : List Byte) (s : State) : State :=
  let e := endpointOf s page port
  setEndpoint page port { e with bytes := (bs.zipIdx (b2n h * 2 ^ 20 + off)).foldl (fun m x => m.put 0 x.2 x.1) e.bytes } s

/-- A write through a port by page `writer`: dropped with PORT_REFUSED at port 0 of a core that runs a layer with a chain
position above 0 (R299), accepted and discarded by a fenced page (R629), else stored. -/
def portWrite (writer page port : Nat) (h : Bool) (off : Nat) (bs : List Byte) (s : State) : State :=
  if fenceBit s page then s
  else if kindOf page = some .tc ∧ port = 0 ∧ rdB s page 0x084 4 = true ∧ rdF s page 0x084 1 0 ≠ 0 then
    raise page 0x100 sevJOB (port + writer * 16) s
  else putPort page port h off bs s

/-- The address that a read from the endpoint of a fenced page reports as poisoned (R629). -/
def poisonOf (page : Nat) : Nat := 0x5000000000 + page * 0x1000

/-! ### The address filter (R248, R249) -/

/-- The first byte of a row of `x` bytes at `a` outside the data range `sp`; none where all lie in it. -/
def rowOutside (s : State) (sp : Space) (x a : Nat) : Option Nat :=
  let limit : Nat := match sp with
    | .dram =>
      (((List.range 32).filter (fun r => decide (a / 2 ^ 31 ≤ r) && eccOn s (r * 2 ^ 31))).head?.map
        (fun r => r * 2 ^ 31 + 0x78000000)).getD 0x1000000000
    | _ => flagBase
  if spaceOf s a ≠ sp then some a else if a + x ≤ limit then none else some limit

/-- The first byte outside the data range that the lowest byte `lo` of an operand lies in, over its rows of `x` bytes at `rows`; none
where every byte the operand touches lies in it, its lowest and highest among them (R248, R249). [DESIGN CHOICE, log entry 234] -/
def firstOutside (s : State) (lo : Int) (x : Nat) (rows : List Nat) : Option Int :=
  if lo < 0 then some lo
  else
    let sp := spaceOf s lo.toNat
    if sp ≠ .dram ∧ sp ≠ .resident then some lo
    else (rows.filterMap (rowOutside s sp x)).foldl (fun (m : Option Int) (a : Nat) =>
      some (match m with | some b => min b (a : Int) | none => (a : Int))) none

/-- The lowest and highest byte an operand touches, exactly. -/
def extent (v : StreamUnit) (k : Nat) (dst : Bool) (base : Nat) : Int × Int :=
  let y := ((shY v k : Int) - 1) * shYS v k dst
  let z := ((shZ v k : Int) - 1) * shZS v k dst
  ((base : Int) + min 0 y + min 0 z, (base : Int) + max 0 y + max 0 z + (shX v k : Int) - 1)

/-- The base of an operand (R237). -/
def operandBase (v : StreamUnit) (areg : SMap Nat) (hs : Bool) (i : Nat) (port h : Bool) : Nat :=
  areg.get 0 i + (if !port && h && hs then v.halfOfs else 0)

def bindPage (v : StreamUnit) : Nat := fld v.bind 11 0
def bindPort (v : StreamUnit) : Nat := fld v.bind 15 12

/-- The row addresses of an operand, in the order of R236. -/
def rowAddrs (v : StreamUnit) (k : Nat) (dst : Bool) (base : Nat) : List Nat :=
  (List.range (shZ v k)).flatMap (fun (z : Nat) => (List.range (shY v k)).map (fun (y : Nat) =>
    ((base : Int) + (y : Int) * shYS v k dst + (z : Int) * shZS v k dst).toNat))

/-- One operand against the filter: reason and first address outside its range. -/
def filterOp (s : State) (v : StreamUnit) (k : Nat) (dst port : Bool) (base : Nat) : Option (Nat × Nat) :=
  let e := extent v k dst base
  if port then
    let n : Int := (halfSize (bindPage v) (bindPort v) : Nat)
    if e.1 < 0 ∨ n ≤ e.1 then some (0x03, add40 0 e.1)
    else if n ≤ e.2 then some (0x03, add40 0 n)
    else none
  else (firstOutside s e.1 (shX v k) (rowAddrs v k dst base)).map (fun a => (if dst then 0x02 else 0x01, add40 0 a))

/-- The filter over an `XFER` or `PREF` at registers `areg` and half `hs`: source first, then destination. -/
def filterInsn (s : State) (v : StreamUnit) (areg : SMap Nat) (hs : Bool) (n : Nat) : Option (Nat × Nat) :=
  let k := iShape n
  let src := filterOp s v k false (iSrcPort n && decide (iOp n = opXFER))
    (operandBase v areg hs (iA n) (iSrcPort n && decide (iOp n = opXFER)) (iSrcH n))
  match src with
  | some b => some b
  | none =>
    if iOp n = opXFER ∧ iDstKind n ≠ 2 then
      filterOp s v k true (decide (iDstKind n = 1)) (operandBase v areg hs (iDstA n) (decide (iDstKind n = 1)) (iDstH n))
    else none

/-! ### The prefetch buffer (R278 to R281) -/

/-- The lines a unit may hold. -/
def pfLimit (v : StreamUnit) : Nat := if fld v.cfg 18 8 = 0 then 2048 else fld v.cfg 18 8
def pfPrio (v : StreamUnit) : Nat := fld v.cfg 2 0

/-- Lines held by all units. -/
def pfTotal (s : State) : Nat := s.strm.foldl (fun n e => n + e.2.lines.length) 0

/-- There is room for a line of unit `u`: within its share, within the buffer, and no paused unit with a higher claim. -/
def pfRoom (s : State) (u : Nat) : Bool :=
  let v := unitOf s u
  decide (v.lines.length < pfLimit v) && decide (pfTotal s < 16384)
    && !s.strm.any (fun e => e.2.paused && decide (e.1 ≠ u) && decide (e.2.lines.length < pfLimit e.2)
      && (decide (pfPrio v < pfPrio e.2) || (decide (pfPrio v = pfPrio e.2) && decide (e.1 < u))))

/-- The rows of an operand in memory can be used now by unit `u`. -/
def rowsUsable (s : State) (u x : Nat) (rows : List Nat) : Bool := rows.all (fun a => canUse s (srcUnit u) a x)

/-- The 64-byte lines a row of `x` bytes at `a` touches. [DEDUCED, log entry 100] -/
def linesOf (a x : Nat) : List Nat := (List.range ((a + (x - 1)) / 64 + 1 - a / 64)).map (fun i => (a / 64 + i) * 64)

/-- The words of [a, a + n) that a read has returned POISON status for. -/
def poisonedWords (s : State) (a n : Nat) : List Nat :=
  (codedWords s a n).filter (fun w => bankBad s w || decide (markOf s w = .poison))

/-- Reads one line ahead into the buffer. -/
def fetchLine (u l : Nat) (s : State) : State :=
  let r := readAs (srcUnit u) l 64 s
  modUnit u (fun v => { v with lines := v.lines ++ [⟨l, r.1, poisonedWords r.2.2 l 64⟩] }) r.2.2

/-- Requests lines ahead; true where all were issued. With `drop`, a line without room is dropped (a `PREF`).
[DEDUCED, log entry 100] -/
def fetchLines (u : Nat) (drop : Bool) : List Nat → State → Bool × State
  | [], s => (true, s)
  | l :: t, s =>
    if (unitOf s u).lines.any (fun x => decide (x.addr = l)) then fetchLines u drop t s
    else if pfRoom s u then fetchLines u drop t (fetchLine u l s)
    else if drop then fetchLines u drop t s
    else (false, s)

/-- A line taken from the unit's own, which releases it, or read from memory: bytes of [a, a + n) within the line, and the
first poisoned word among those the bytes lie in, the same whether the line was held or not (R240, R279). -/
def takeLine (u a n : Nat) (s : State) : List Byte × Option Nat × State :=
  let l := a / 64 * 64
  match (unitOf s u).lines.find? (fun x => decide (x.addr = l)) with
  | some x =>
    ((x.bytes.drop (a - l)).take n, x.bad.find? (fun w => decide (w < a + n) && decide (a < w + wordSize w)),
      modUnit u (fun v => { v with lines := v.lines.eraseP (fun x => decide (x.addr = l)) }) s)
  | none => readAs (srcUnit u) a n s

/-- One row of a memory source, line by line; the first poisoned address. -/
def takeRow (u : Nat) : List (Nat × Nat) → State → List Byte × Option Nat × State
  | [], s => ([], none, s)
  | (a, n) :: t, s =>
    let r := takeLine u a n s
    let q := takeRow u t r.2.2
    (r.1 ++ q.1, (match r.2.1 with | some x => some x | none => q.2.1), q.2.2)

/-- The pieces of [a, a + x) by line. -/
def rowPieces (a x : Nat) : List (Nat × Nat) :=
  (linesOf a x).map (fun l => (max a l, min (a + x) (l + 64) - max a l))

/-- A write of the unit overlapping its own lines discards them (R280). -/
def dropOverlap (u a n : Nat) (s : State) : State :=
  modUnit u (fun v => { v with lines := v.lines.filter (fun x => !(decide (x.addr < a + n) && decide (a < x.addr + 64))) }) s

/-- Every line and the run-ahead of a unit are discarded (R281). -/
def discardAhead (u : Nat) (s : State) : State := modUnit u (fun v => { v with lines := [], ra := none, paused := false }) s

/-! ### Jobs (R257, R260) -/

def runRules : HeaderRules := ⟨[0x001, 0x002], fun op => if op = 0x001 then 7 else 0, 1⟩

def runLoadProg (j : Job) : Bool := bitOf j.flags 13
def runLoadShapes (j : Job) : Bool := bitOf j.flags 14
def runLoadRegs (j : Job) : Bool := bitOf j.flags 15
def runProgAddr (j : Job) : Nat := leAt j.desc 32 8
def runProgLen (j : Job) : Nat := byteAt j.desc 40

/-- The body of a RUN job (R257). -/
def runBodyBad (s : State) (j : Job) : Option (Nat × Nat) :=
  let d := j.desc
  let n := if runLoadShapes j then 1280 else 8 * min (max (runProgLen j) 1) 128
  descBad d 160 ([
    (if runLoadProg j || runLoadShapes j then
      badIf (decide (runProgAddr j % 64 ≠ 0) || !isData s (runProgAddr j) n) 32 0x04
     else badIf (decide (runProgAddr j ≠ 0)) 32 0x06),
    badIf (decide (runProgLen j = 0) || decide (128 < runProgLen j)) 40 0x06,
    badIf (decide (runProgLen j ≤ byteAt d 41)) 41 0x06,
    badIf (decide (bitsOf (byteAt d 42) 7 3 ≠ 0)) 42 0x01,
    reservedBad d 43 48, reservedBad d 56 64] ++
    (List.range 8).flatMap (fun i => [badIf (!runLoadRegs j && !zerosAt d (64 + 8 * i) 5) (64 + 8 * i) 0x06,
      reservedBad d (69 + 8 * i) (72 + 8 * i)]) ++
    (List.range 8).flatMap (fun i => [badIf (!runLoadRegs j && !zerosAt d (128 + 4 * i) 3) (128 + 4 * i) 0x06,
      reservedBad d (131 + 4 * i) (132 + 4 * i)]) ++ [reservedBad d 160 d.length])

/-- The entries of a LAUNCH body: index, unit, RUN descriptor. -/
def launchEntries (j : Job) : List (Nat × Nat × Nat) :=
  (List.range ((j.desc.length - 32) / 16)).filterMap (fun i =>
    if bitOf (byteAt j.desc (32 + 16 * i)) 7 then
      some (i, bitsOf (byteAt j.desc (32 + 16 * i)) 4 0, leAt j.desc (40 + 16 * i) 8)
    else none)

/-- The body of a LAUNCH job (R260). [DEDUCED, log entry 104] -/
def launchBodyBad (s : State) (j : Job) : Option (Nat × Nat) :=
  let d := j.desc
  firstBad ((List.range ((d.length - 32) / 16)).map (fun i =>
    let o := 32 + 16 * i
    if bitOf (byteAt d o) 7 then
      let a := leAt d (o + 8) 8
      let before := (launchEntries j).filter (fun e => decide (e.1 < i))
      firstBad [badIf (decide (bitsOf (byteAt d o) 6 5 ≠ 0)) o 0x01, reservedBad d (o + 1) (o + 8),
        badIf (decide (32 ≤ before.length)) o 0x06, badIf (decide (a % 32 ≠ 0) || !isData s a 160) (o + 8) 0x04]
    else reservedBad d o (o + 16)))

/-- The first field in error of a stream job (R85). -/
def strmBad (s : State) (j : Job) : Option (Nat × Nat) :=
  match headerBad s runRules j with
  | some b => some b
  | none => if j.op = 0x001 then runBodyBad s j else launchBodyBad s j

/-- The memory a stream job names (R141). [DEDUCED, log entry 105] -/
def strmAddrs (j : Job) : List Nat :=
  if j.op = 0x001 then (if runLoadProg j || runLoadShapes j then [runProgAddr j] else [])
  else (launchEntries j).map (fun e => e.2.2)

/-- The trigger input a RUN job waits on (R258). -/
def strmTrig (j : Job) : Option Nat :=
  if j.op = 0x001 ∧ bitOf (byteAt j.desc 42) 0 = true then some (bitsOf (byteAt j.desc 42) 2 1) else none

/-! ### Ending a job (R261, R271, R281) -/

/-- What every end of a unit's job does: waits withdrawn, run-ahead and tentative allocations cancelled. -/
def strmStop (u : Nat) (s : State) : State :=
  let t := semWithdraw (fun w => decide (w = .stream u)) s
  let t := mewsDrop (.stream u) (mewsDropAhead u t)
  modUnit u (fun v => { v with
    waitKind := 0, waitSem := 0, draining := false, waitFlag := none, released := false, asked := false, missed := [], launched := 0 }) (discardAhead u t)

/-- The unit's running job ends with a status. -/
def strmEnd (u status detail : Nat) (s : State) : State := finish (pgSTRM u) status detail (strmStop u s)

def strmDeadline (u : Nat) (s : State) : State :=
  match running s (pgSTRM u) with
  | some j => strmEnd u stABORT_DEADLINE (now s) (missEvent (pgSTRM u) j s)
  | none => s

/-! ### Starting a job (R232, R233) -/

/-- The words of a list of little-endian bytes, `n` bytes each. -/
def leWords (n : Nat) (bs : List Byte) (count : Nat) : List Nat := (List.range count).map (fun i => leAt bs (n * i) n)

def putAll (m : SMap Nat) (l : List Nat) : SMap Nat := (l.zipIdx).foldl (fun m x => m.put 0 x.2 x.1) m

/-- A RUN job's steps of R233, then the check of R252. -/
def strmStart (u : Nat) (j : Job) (s : State) : State :=
  let p := pgSTRM u
  let s := modUnit u (fun v => { v with cfg := rd s p 0x084, bind := rd s p 0x088, halfOfs := (rd s p 0x08C).toNat }) s
  let n := runProgLen j
  let r1 := if runLoadProg j then readAs (srcUnit u) (runProgAddr j) (8 * n) s else ([], none, s)
  let r2 := if runLoadShapes j then readAs (srcUnit u) (runProgAddr j + 1024) 256 r1.2.2 else ([], none, r1.2.2)
  let s := r2.2.2
  match (match r1.2.1 with | some a => some a | none => r2.2.1) with
  | some a => strmEnd u stABORT_POISON a s
  | none =>
    let s := modUnit u (fun v => { v with
      prog := if runLoadProg j then putAll v.prog (leWords 8 r1.1 n) else v.prog,
      shapes := if runLoadShapes j then putAll v.shapes (leWords 4 r2.1 64) else v.shapes,
      a := if runLoadRegs j then putAll [] ((List.range 8).map (fun i => leAt j.desc (64 + 8 * i) 5)) else v.a,
      c := if runLoadRegs j then putAll [] ((List.range 8).map (fun i => leAt j.desc (128 + 4 * i) 3)) else v.c,
      hs := false, pc := byteAt j.desc 41, progLen := n, missed := [], bufs := 0 }) s
    let s := wr64 p 0x090 (leAt j.desc 48 8) s
    match progBad (unitOf s u) with
    | some b => strmEnd u 0x0501 (b.1 + b.2 * 256) s
    | none => s

/-- The running job of a unit is a RUN job. -/
def runningRun (s : State) (u : Nat) : Option Job :=
  match running s (pgSTRM u) with | some j => if j.op = 0x001 then some j else none | none => none

/-- RUN_JOB_START (R232, R233, R258): the RUN job at the head of the unit's queue starts. -/
def execRunJobStart (u : Fin 32) (s : State) : Host.Outcome State Fault Refusal :=
  match (pageJobs s (pgSTRM u.val)).queue with
  | j :: _ =>
    settle s (if j.op = 0x001 then startJob (pgSTRM u.val) strmTrig strmAddrs (strmStart u.val) s else s)
  | [] => .next s

/-- Delivers the entries of a LAUNCH from the `launched`th on, while their queues have room; then it completes (R260).
[DEDUCED, log entry 104] -/
def launchEntriesFrom (u : Nat) (j : Job) : List (Nat × Nat × Nat) → State → State
  | [], s => strmEnd u stDONE (launchEntries j).length s
  | e :: t, s =>
    let p := pgSTRM e.2.1
    if 4 ≤ (pageJobs s p).queue.length ∨ !canUse s (srcUnit u) e.2.2 160 then modUnit u (fun v => { v with waitKind := 4 }) s
    else
      let r := readAs (srcUnit u) e.2.2 160 s
      match r.2.1 with
      | some a => strmEnd u stABORT_POISON a r.2.2
      | none =>
        let d : Job := ⟨r.1, j.port, 16, false, now s⟩
        let t' := deliver p (strmBad r.2.2 d) (strmAddrs d) d r.2.2
        launchEntriesFrom u j t (modUnit u (fun v => { v with launched := v.launched + 1, waitKind := 0 }) (touch (pgSTRM u) t'))

/-- A LAUNCH starts: the submitting port must own every named page. -/
def launchStart (u : Nat) (j : Job) (s : State) : State :=
  match (launchEntries j).find? (fun e => decide (owner s (pgSTRM e.2.1) ≠ j.port)) with
  | some e => strmEnd u 0x0505 e.1 s
  | none => launchEntriesFrom u j (launchEntries j) s

/-- LAUNCH (R260): starts from the head of the unit's queue, or goes on where a queue was full. -/
def execLaunch (u : Fin 32) (s : State) : Host.Outcome State Fault Refusal :=
  match running s (pgSTRM u.val), (pageJobs s (pgSTRM u.val)).queue with
  | some j, _ =>
    settle s (if j.op = 0x002 then launchEntriesFrom u.val j ((launchEntries j).drop (unitOf s u.val).launched) s else s)
  | none, j :: _ =>
    settle s (if j.op = 0x002 then startJob (pgSTRM u.val) (fun _ => none) strmAddrs (launchStart u.val) s else s)
  | none, [] => .next s

/-! ### Committing (R234, R259) -/

/-- A run-ahead the commit has caught up with ends; one still ahead is one instruction less ahead. One that paused for room at the
instruction now committed pauses no longer (R278). -/
def raStep (v : StreamUnit) : StreamUnit :=
  match v.ra with
  | some r =>
    if r.ahead = 0 then { v with ra := none, paused := false }
    else if r.ahead = 1 then { v with ra := none }
    else { v with ra := some { r with ahead := r.ahead - 1 } }
  | none => { v with paused := false }

/-- An instruction commits: the unit goes on at `pc`; its stall timer starts again. -/
def commitTo (u pc : Nat) (s : State) : State :=
  touch (pgSTRM u) (modUnit u (fun v => raStep { v with
    pc := pc, waitKind := 0, waitSem := 0, draining := false, waitFlag := none, released := false, asked := false }) s)

def commitNext (u : Nat) (s : State) : State := commitTo u ((unitOf s u).pc + 1) s

/-- The unit's next instruction is `op` and may commit: the deadline of R259 first, then `k` of the instruction word. -/
def atInsn (u op : Nat) (k : Nat → State → State) (s : State) : State :=
  match runningRun s u with
  | none => s
  | some j =>
    let v := unitOf s u
    let n := v.prog.get 0 v.pc
    if !pageOn s (pgSTRM u) ∨ v.progLen ≤ v.pc ∨ iOp n ≠ op then s
    else if pastDeadline s j.deadline then strmDeadline u s
    else k n s

def modA (u i : Nat) (f : Nat → Nat) (s : State) : State := modUnit u (fun v => { v with a := v.a.put 0 i (f (v.a.get 0 i)) }) s
def modC (u i : Nat) (f : Nat → Nat) (s : State) : State := modUnit u (fun v => { v with c := v.c.put 0 i (f (v.c.get 0 i)) }) s

/-- SETA (R234). -/
def execSeta (u : Fin 32) (s : State) : Host.Outcome State Fault Refusal :=
  settle s (atInsn u.val opSETA (fun n s => commitNext u.val (modA u.val (iA n) (fun _ => bitsOf n 39 0) s)) s)

/-- ADDA (R234). -/
def execAdda (u : Fin 32) (s : State) : Host.Outcome State Fault Refusal :=
  settle s (atInsn u.val opADDA (fun n s => commitNext u.val (modA u.val (iA n) (fun x => add40 x (toSigned 32 n)) s)) s)

/-- SETC (R234). -/
def execSetc (u : Fin 32) (s : State) : Host.Outcome State Fault Refusal :=
  settle s (atInsn u.val opSETC (fun n s => commitNext u.val (modC u.val (iA n) (fun _ => bitsOf n 23 0) s)) s)

/-- LOOP (R235). -/
def execLoop (u : Fin 32) (s : State) : Host.Outcome State Fault Refusal :=
  settle s (atInsn u.val opLOOP (fun n s =>
    let t := modC u.val (iA n) (fun x => x - 1) s
    if (unitOf t u.val).c.get 0 (iA n) ≠ 0 then commitTo u.val (bitsOf n 6 0) t else commitNext u.val t) s)

/-! ### XFER (R236 to R239) -/

/-- Where the rows of a transfer go. -/
inductive XferDst where
  | mem (base : Nat)
  | port (page port : Nat) (half : Bool) (base : Nat)
deriving DecidableEq, Repr

/-- One row: read from memory lines or an endpoint, written to memory or an endpoint. An error is a status and its detail. -/
def moveRow (u : Nat) (v : StreamUnit) (srcPort : Option Bool) (src : Nat) (dst : XferDst) (off x : Nat) (s : State) :
    Option (Nat × Nat) × State :=
  let r : List Byte × Option Nat × State := match srcPort with
    | some h =>
      if fenceBit s (bindPage v) then ([], some (poisonOf (bindPage v)), s)
      else (portBytes s (bindPage v) (bindPort v) h src x, none, s)
    | none => takeRow u (rowPieces src x) s
  match r.2.1 with
  | some a => (some (stABORT_POISON, a), r.2.2)
  | none =>
    match dst with
    | .mem b =>
      let w := writeAs (srcUnit u) (b + off) r.1 (dropOverlap u (b + off) x r.2.2)
      match w.1 with
      | some a => (some (stWR_POISONED, a), w.2)
      | none => (none, incCnt64 (pgSTRM u) 0x0A4 x w.2)
    | .port page port h b => (none, incCnt64 (pgSTRM u) 0x0A4 x (portWrite (pgSTRM u) page port h (b + off) r.1 r.2.2))

/-- The rows of a transfer in order, until one fails. A destination row is given by its offset from the base.
[DESIGN CHOICE, log entry 99] -/
def moveRows (u : Nat) (v : StreamUnit) (srcPort : Option Bool) (dst : XferDst) (x : Nat) :
    List (Nat × Nat) → State → Option (Nat × Nat) × State
  | [], s => (none, s)
  | (a, o) :: t, s =>
    let r := moveRow u v srcPort a dst o x s
    match r.1 with
    | some e => (some e, r.2)
    | none => moveRows u v srcPort dst x t r.2

/-- Both operands' memory can be used now. -/
def xferUsable (s : State) (u : Nat) (v : StreamUnit) (n : Nat) (dstBase : Nat) : Bool :=
  let k := iShape n
  let src := operandBase v v.a v.hs (iA n) (iSrcPort n) (iSrcH n)
  (iSrcPort n || rowsUsable s u (shX v k) (rowAddrs v k false src))
    && (decide (iDstKind n = 1) || rowsUsable s u (shX v k) (rowAddrs v k true dstBase))

/-- The increments of R238. -/
def xferIncs (u n : Nat) (s : State) : State :=
  let v := unitOf s u
  let k := iShape n
  let t := if iSrcInc n then modA u (iA n) (fun x => add40 x (shInc v k false)) s else s
  if iDstInc n then modA u (iDstA n) (fun x => add40 x (shInc v k true)) t else t

/-- The source base of an `XFER` at the unit's registers (R237). -/
def xferSrc (v : StreamUnit) (n : Nat) : Nat := operandBase v v.a v.hs (iA n) (iSrcPort n) (iSrcH n)

/-- Moves the rows of an `XFER` whose operand bases are known; on success `k`, on failure the job ends.
[DESIGN CHOICE, log entry 99] -/
def xferMove (u n src dstBase : Nat) (dst : XferDst) (k : State → State) (s : State) : State :=
  let v := unitOf s u
  let sh := iShape n
  let offs := (rowAddrs v sh true dstBase).map (fun a => a - dstBase)
  let neg := (rowAddrs v sh true dstBase).any (fun a => decide (a < dstBase))
  let rows := if neg then (rowAddrs v sh false src).zip (rowAddrs v sh true dstBase) else (rowAddrs v sh false src).zip offs
  let base := match dst with
    | .mem _ => if neg then XferDst.mem 0 else dst
    | .port p q h _ => if neg then XferDst.port p q h 0 else dst
  let r := moveRows u v (if iSrcPort n then some (iSrcH n && v.hs) else none) base (shX v sh) rows s
  match r.1 with
  | some e => strmEnd u e.1 e.2 r.2
  | none => k r.2

/-- The answer a BUF destination has: none while it waits; the handle, or the status that refuses it. -/
def bufAnswer (u n : Nat) (j : Job) (s : State) : Option (Nat × Nat) × State :=
  let v := unitOf s u
  let recov := j.recovery || decide (j.owner = 63)
  let size := (bufSize v (iShape n)).toNat
  let ask (t : State) : Option (Nat × Nat) × State :=
    let a := mewsAsk ⟨.stream u, j.owner, size, recov⟩ false (iSpill n) true t
    if a.1 = mwPENDING then (none, modUnit u (fun v => { v with asked := true, waitKind := 3 }) a.2.2)
    else (some (a.1, a.2.1), a.2.2)
  if v.asked then
    let t := takeAnswer (.stream u) s
    match t.1 with
    | some a => (some (a.status, a.handle), t.2)
    | none => (none, s)
  else
    let t := takeAnswer (.ahead u v.bufs) s
    match t.1 with
    | some a =>
      if a.status = mwOK ∧ current t.2 a.handle = true then (some (mwOK, a.handle), commitTent a.handle t.2) else ask t.2
    | none =>
      if s.mews.queues.any (fun e => e.2.any (fun r => decide (r.src = .ahead u v.bufs))) ∧ recov = false then
        (none, modUnit u (fun v => { v with asked := true, waitKind := 3 })
          { s with mews := { s.mews with queues := s.mews.queues.map (fun e =>
            (e.1, e.2.map (fun r => if r.src = .ahead u v.bufs then { r with src := .stream u } else r))) } })
      else ask (mewsWithdraw (fun r => decide (r.src = .ahead u v.bufs)) false s)

/-- The run-ahead learns the address of the buffer of BUF transfer `n`: it is added to the registers that wait for it. -/
def raSettle (n addr : Nat) (r : RunAhead) : RunAhead :=
  { r with
    a := (r.pend.filter (fun e => decide (e.2 = n + 1))).foldl (fun (m : SMap Nat) (e : Nat × Nat) =>
      m.put 0 e.1 (add40 (m.get 0 e.1) (addr : Int))) r.a
    pend := r.pend.filter (fun e => decide (e.2 ≠ n + 1)) }

/-- An `XFER` to a BUF destination (R239). While its memory cannot be used nothing is taken: a tentative buffer stays tentative
(R227). -/
def xferBuf (u n : Nat) (j : Job) (s : State) : State :=
  let a := bufAnswer u n j s
  match a.1 with
  | none => a.2
  | some (st, h) =>
    if st ≠ mwOK then strmEnd u 0x0504 ((unitOf s u).pc + st * 256) a.2
    else if !current a.2 h then strmEnd u 0x0504 ((unitOf s u).pc + mwSTALE * 256) (raise pgMEWS 0x101 sevJOB h a.2)
    else
      let v := unitOf s u
      let b := bufAddr a.2 h
      if !xferUsable a.2 u v n b then modUnit u (fun v => { v with waitKind := 5 }) s
      else xferMove u n (xferSrc v n) b (.mem b) (fun t =>
        let e := endpointOf t (bindPage v) (bindPort v)
        let t := setEndpoint (bindPage v) (bindPort v) { e with handles := e.handles ++ [h] } t
        commitNext u (xferIncs u n (modUnit u (fun v => { v with bufs := v.bufs + 1, ra := v.ra.map (raSettle v.bufs b) }) t)))
        (modA u (iDstA n) (fun _ => b) a.2)

/-- `XFER` (R236 to R239): the filter, then the move and its increments; waits while memory is not ready or no buffer is
granted. -/
def effXfer (u n : Nat) (s : State) : State :=
  let v := unitOf s u
  match filterInsn s v v.a v.hs n with
  | some b => strmEnd u 0x0500 (v.pc + b.1 * 256 + b.2 * 65536) s
  | none =>
    if iDstKind n = 2 then
      match runningRun s u with
      | some j => xferBuf u n j s
      | none => s
    else
      let dport := decide (iDstKind n = 1)
      let base := operandBase v v.a v.hs (iDstA n) dport (iDstH n)
      if !xferUsable s u v n base then modUnit u (fun v => { v with waitKind := 5 }) s
      else
        let dst := if dport then XferDst.port (bindPage v) (bindPort v) (iDstH n && v.hs) base else XferDst.mem base
        xferMove u n (xferSrc v n) base dst (fun t => commitNext u (xferIncs u n t)) s

/-- XFER (R236). -/
def execXfer (u : Fin 32) (s : State) : Host.Outcome State Fault Refusal := settle s (atInsn u.val opXFER (effXfer u.val) s)

/-- The source lines of a `PREF` or `XFER` at registers `areg` and half `hs`. -/
def srcLines (v : StreamUnit) (areg : SMap Nat) (hs : Bool) (n : Nat) : List Nat :=
  (rowAddrs v (iShape n) false (operandBase v areg hs (iA n) false (iSrcH n))).flatMap (fun a => linesOf a (shX v (iShape n)))

/-- PREF (R240): requests its lines where run-ahead has not, and commits. -/
def execPref (u : Fin 32) (s : State) : Host.Outcome State Fault Refusal :=
  settle s (atInsn u.val opPREF (fun n s =>
    let v := unitOf s u.val
    match filterInsn s v v.a v.hs n with
    | some b => strmEnd u.val 0x0500 (v.pc + b.1 * 256 + b.2 * 65536) s
    | none =>
      let walked := match v.ra with | some r => decide (1 ≤ r.ahead) | none => false
      let rows := rowAddrs v (iShape n) false (operandBase v v.a v.hs (iA n) false (iSrcH n))
      if walked || !rowsUsable s u.val (shX v (iShape n)) rows then commitNext u.val s
      else commitNext u.val (fetchLines u.val true (srcLines v v.a v.hs n) s).2) s)

/-! ### Waits, signals, flags -/

/-- WAITS (R241, R267): joins the side's waiters, and commits when its wait is granted. -/
def execWaits (u : Fin 32) (s : State) : Host.Outcome State Fault Refusal :=
  settle s (atInsn u.val opWAITS (fun n s =>
    let who := SemWho.stream u.val
    let t := if semGranted s who || semWaiting s who then s else semWait (iSem n) (iSide n) (iK n) who s
    if semGranted t who then commitNext u.val (semTake who t)
    else modUnit u.val (fun v => { v with waitKind := 1, waitSem := iSem n }) t) s)

/-- SIGS (R241, R245, R265). -/
def execSigs (u : Fin 32) (s : State) : Host.Outcome State Fault Refusal :=
  settle s (atInsn u.val opSIGS (fun n s =>
    let t := semSignal (iSem n) (iSide n) (iK n) s
    commitNext u.val (if iSide n then t else modUnit u.val (fun v =>
      { v with signalled := if v.signalled.contains (iSem n) then v.signalled else v.signalled ++ [iSem n] }) t)) s)

/-- The flag an instruction names (R241). -/
def insnFlag (v : StreamUnit) (n : Nat) : Nat := bitsOf n 18 0 + (if bitOf n 23 then v.c.get 0 (bitsOf n 22 20) else 0)

/-- A flag instruction, with the range of R250 and the readiness of the resident store. -/
def atFlag (u op : Nat) (k : Nat → Nat → State → State) (s : State) : State :=
  atInsn u op (fun n s =>
    let v := unitOf s u
    let f := insnFlag v n
    if 524288 ≤ f then strmEnd u 0x0503 (v.pc + f * 256) s
    else if !ready s pgRES then
      modUnit u (fun v => { v with waitKind := 2, waitFlag := if op = opWAITF then some (f, bitOf n 19) else none }) s
    else k n f s) s

/-- Reads the flag's word as a wait does, correcting or condemning it (R196). [DEDUCED, log entry 105] -/
def readFlag (f : Nat) (s : State) : Bool × State := readWord (groupAddr (f / 64)) s

/-- WAITF (R182, R184, R241). -/
def execWaitf (u : Fin 32) (s : State) : Host.Outcome State Fault Refusal :=
  settle s (atFlag u.val opWAITF (fun n f s =>
    let v := unitOf s u.val
    if v.released then commitNext u.val s
    else
      let r := readFlag f s
      if r.1 then strmEnd u.val stABORT_POISON (groupAddr (f / 64)) (flagPoison f r.2)
      else if flagValue r.2 f = bitOf n 19 then commitNext u.val r.2
      else modUnit u.val (fun v => { v with waitKind := 2, waitFlag := some (f, bitOf n 19) }) r.2) s)

/-- Sets or clears the flag of an instruction; a word that cannot be written ends the job with WR_POISONED.
[DEDUCED, log entry 102] -/
def effFlagInsn (u : Nat) (b : Bool) (same : List (Nat × Bool)) (f : Nat) (s : State) : State :=
  let r := flagOps f b same s
  if r.1 then commitNext u r.2 else strmEnd u stWR_POISONED (groupAddr (f / 64)) r.2

/-- SETF (R234, R245). -/
def execSetf (u : Fin 32) (same : List (Nat × Bool)) (s : State) : Host.Outcome State Fault Refusal :=
  settle s (atFlag u.val opSETF (fun _ f s => effFlagInsn u.val true same f s) s)

/-- CLRF (R234, R245). -/
def execClrf (u : Fin 32) (same : List (Nat × Bool)) (s : State) : Host.Outcome State Fault Refusal :=
  settle s (atFlag u.val opCLRF (fun _ f s => effFlagInsn u.val false same f s) s)

/-- SWAP (R234). -/
def execSwap (u : Fin 32) (s : State) : Host.Outcome State Fault Refusal :=
  settle s (atInsn u.val opSWAP (fun _ s => commitNext u.val (modUnit u.val (fun v => { v with hs := !v.hs }) s)) s)

/-! ### Marks (R242) -/

/-- The next `MARK` on the program's path from `pc` with counters `c`, within `fuel` instructions. [DEDUCED, log entry 101] -/
def nextMark (v : StreamUnit) : Nat → Nat → SMap Nat → Option Nat
  | 0, _, _ => none
  | fuel + 1, pc, c =>
    let n := v.prog.get 0 pc
    let op := iOp n
    if v.progLen ≤ pc ∨ op = opEND then none
    else if op = opMARK then some pc
    else if op = opSETC then nextMark v fuel (pc + 1) (c.put 0 (iA n) (bitsOf n 23 0))
    else if op = opLOOP then
      let x := c.get 0 (iA n) - 1
      nextMark v fuel (if x ≠ 0 then bitsOf n 6 0 else pc + 1) (c.put 0 (iA n) x)
    else nextMark v fuel (pc + 1) c

/-- The instructions searched for the next mark: more than there are values of the PC (128) and of the eight counters of 24 bits
together, so that a path without a mark within them has none (R242). [DEDUCED, log entry 101] -/
def markFuel : Nat := 2 ^ 200

/-- The armed mark's deadline has passed: DEADLINE_MISS and `STRM_MARK_MISS`, once per mark ID and job. -/
def markMiss (u : Nat) (s : State) : State :=
  match runningRun s u with
  | none => s
  | some j =>
    let v := unitOf s u
    let base := rd64 s (pgSTRM u) 0x090
    if base = 0 then s
    else match nextMark v markFuel v.pc v.c with
      | none => s
      | some pc =>
        let n := v.prog.get 0 pc
        let id := bitsOf n 39 32
        if now s ≤ base + bitsOf n 31 0 ∨ v.missed.contains id = true then s
        else raise (pgSTRM u) cDEADLINE_MISS sevJOB (id + pc * 256 + j.id % 65536 * 65536)
          (incCnt (pgSTRM u) 0x0A0 1 (modUnit u (fun v => { v with missed := v.missed ++ [id] }) s))

/-- MARK (R242): a miss not yet reported is reported, then the checkpoint is passed. -/
def execMark (u : Fin 32) (s : State) : Host.Outcome State Fault Refusal :=
  settle s (atInsn u.val opMARK (fun _ s => commitNext u.val (markMiss u.val s)) s)

/-- MARK_DEADLINE_MISS (R242). -/
def execMarkDeadlineMiss (u : Fin 32) (s : State) : Host.Outcome State Fault Refusal := settle s (markMiss u.val s)

/-! ### Barriers and ends -/

/-- DRAIN (R243): each, LOCAL or not, is the last `DRAIN` for the pairs signalled from then on; no end of a job is one.
[DEDUCED, log entry 221] -/
def execDrain (u : Fin 32) (s : State) : Host.Outcome State Fault Refusal :=
  settle s (atInsn u.val opDRAIN (fun n s =>
    if bitOf n 0 || (unitOf s u.val).signalled.all (atRest s) then
      commitNext u.val (modUnit u.val (fun v => { v with signalled := [] }) s)
    else modUnit u.val (fun v => { v with
      draining := true, waitKind := 1, waitSem := (v.signalled.filter (fun p => !atRest s p)).foldl min 255 }) s) s)

/-- END (R244). -/
def execAgEnd (u : Fin 32) (s : State) : Host.Outcome State Fault Refusal :=
  settle s (atInsn u.val opEND (fun _ s => strmEnd u.val stDONE 0 s) s)

/-- AG_PC_OVERRUN (R253). -/
def execAgPcOverrun (u : Fin 32) (s : State) : Host.Outcome State Fault Refusal :=
  let v := unitOf s u.val
  settle s (if (runningRun s u.val).isSome ∧ v.progLen ≤ v.pc then strmEnd u.val 0x0502 v.progLen s else s)

/-- RUN_JOB_DEADLINE (R259, R286): the deadline passes while the unit waits, or while its job is held on a trigger. -/
def execRunJobDeadline (u : Fin 32) (s : State) : Host.Outcome State Fault Refusal :=
  let p := pgSTRM u.val
  settle s (match runningRun s u.val, (pageJobs s p).queue with
    | some j, _ => if pastDeadline s j.deadline then strmDeadline u.val s else s
    | none, j :: _ =>
      if (pageJobs s p).running.isEmpty ∧ (strmTrig j).isSome ∧ pastDeadline s j.deadline = true then
        refuseQueued p j stABORT_DEADLINE (now s) (missEvent p j s)
      else s
    | none, [] => s)

/-! ### Run-ahead (R226, R247, R277) -/

/-- Where the unit's run-ahead stands: where it has got to, or at the commit. -/
def raOf (v : StreamUnit) : RunAhead :=
  match v.ra with | some r => r | none => ⟨v.pc, v.hs, v.a, v.c, 0, v.bufs, []⟩

/-- Tentative allocations outstanding of a unit (R226). -/
def tentOut (s : State) (u : Nat) : Nat :=
  let mine : MewsSrc → Bool := fun c => match c with | .ahead v _ => decide (v = u) | _ => false
  (s.mews.answers.filter (fun a => mine a.src)).length
    + s.mews.queues.foldl (fun n e => n + (e.2.filter (fun r => mine r.src)).length) 0

/-- The tentative request of the BUF transfer the run-ahead stands at: asked, and answered or queued. -/
def effTentative (u : Nat) (r : RunAhead) (n : Nat) (j : Job) (s : State) : State :=
  let a := mewsAsk ⟨.ahead u r.bufs, j.owner, (bufSize (unitOf s u) (iShape n)).toNat, false⟩ false (iSpill n) true s
  if a.1 = mwOK then giveAnswer (.ahead u r.bufs) mwOK a.2.1 a.2.2 else a.2.2

/-- The run-ahead has asked for the buffer of the transfer it stands at. -/
def tentAsked (s : State) (u n : Nat) : Bool :=
  s.mews.answers.any (fun a => decide (a.src = .ahead u n))
    || s.mews.queues.any (fun e => e.2.any (fun r => decide (r.src = .ahead u n)))

/-- The address of the buffer granted to the run-ahead for its `n`-th BUF transfer. -/
def tentAddr (s : State) (u n : Nat) : Option Nat :=
  match s.mews.answers.find? (fun a => decide (a.src = .ahead u n)) with
  | some a => if a.status = mwOK ∧ current s a.handle = true then some (bufAddr s a.handle) else none
  | none => none

/-- The address registers of a run-ahead, each with the buffer address it waits for where that is granted, and whether register
`i` still waits for one. -/
def raRegs (s : State) (u : Nat) (r : RunAhead) : SMap Nat :=
  r.pend.foldl (fun (m : SMap Nat) (e : Nat × Nat) => match e.2 with
    | 0 => m
    | k + 1 => match tentAddr s u k with | some x => m.put 0 e.1 (add40 (m.get 0 e.1) (x : Int)) | none => m) r.a

def raWaits (s : State) (u : Nat) (r : RunAhead) (i : Nat) : Bool :=
  match r.pend.get 0 i with | 0 => false | k + 1 => (tentAddr s u k).isNone

/-- The operands of the transfer a run-ahead stands at have addresses it does not know yet. -/
def raBlind (s : State) (u : Nat) (r : RunAhead) (n : Nat) : Bool :=
  raWaits s u r (iA n) || (decide (iOp n = opXFER) && decide (iDstKind n ≠ 2) && raWaits s u r (iDstA n))

/-- The run-ahead asks now for the buffer of the BUF transfer it stands at: nothing has asked for it yet, neither the run-ahead
nor the commit (R227). -/
def tentDue (s : State) (u : Nat) (r : RunAhead) : Bool :=
  !tentAsked s u r.bufs && !((unitOf s u).asked && decide (r.bufs = (unitOf s u).bufs))

/-- The run-ahead passes the instruction it stands at. -/
def raPass (u : Nat) (r : RunAhead) (s : State) : State :=
  modUnit u (fun v => { v with ra := some { r with ahead := r.ahead + 1 }, paused := false }) s

/-- The address registers as the run-ahead leaves an `XFER`: the buffer's address of a BUF destination is added when it is known. -/
def raXfer (v : StreamUnit) (r : RunAhead) (n : Nat) : RunAhead :=
  let k := iShape n
  let isBuf := decide (iDstKind n = 2)
  let a0 := if isBuf then r.a.put 0 (iDstA n) 0 else r.a
  let a1 := if iSrcInc n then a0.put 0 (iA n) (add40 (a0.get 0 (iA n)) (shInc v k false)) else a0
  let a2 := if iDstInc n then a1.put 0 (iDstA n) (add40 (a1.get 0 (iDstA n)) (shInc v k true)) else a1
  { r with a := a2, bufs := r.bufs + b2n isBuf, pend := if isBuf then r.pend.put 0 (iDstA n) (r.bufs + 1) else r.pend }

/-- The run-ahead at an `XFER` or `PREF` (R247 to R249, R277, R278): it requests the buffer of a BUF destination and the lines of a
memory source, and goes on; it stops where an address is not known yet, and pauses where a line finds no room.
[DEDUCED, log entry 235] -/
def raMove (u : Nat) (r : RunAhead) (n : Nat) (j : Job) (s : State) : State :=
  let v := unitOf s u
  let isXfer := decide (iOp n = opXFER)
  let due := isXfer && decide (iDstKind n = 2) && tentDue s u r
  if raBlind s u r n || (filterInsn s v (raRegs s u r) r.hs n).isSome || (due && decide (4 ≤ tentOut s u)) then s
  else
    let t := if due then effTentative u r n j s else s
    let inMem := !isXfer || !iSrcPort n
    let regs := raRegs s u r
    if inMem && !rowsUsable t u (shX v (iShape n)) (rowAddrs v (iShape n) false (operandBase v regs r.hs (iA n) false (iSrcH n))) then t
    else
      let g := if inMem then fetchLines u (!isXfer) (srcLines v regs r.hs n) t else (true, t)
      if !g.1 then modUnit u (fun v => { v with ra := some r, paused := true }) g.2
      else raPass u (if isXfer then { raXfer v r n with pc := r.pc + 1 } else { r with pc := r.pc + 1 }) g.2

/-- RUNAHEAD_ISSUE at one instruction (R234, R247, R277, R278). -/
def effRunahead (u : Nat) (j : Job) (s : State) : State :=
  let v := unitOf s u
  let r := raOf v
  let n := v.prog.get 0 r.pc
  let op := iOp n
  let at1 := { r with pc := r.pc + 1 }
  if v.progLen ≤ r.pc ∨ op = opWAITF ∨ op = opDRAIN ∨ op = opEND ∨ (op = opWAITS ∧ iSide n = false) then s
  else if op = opSETA then raPass u { at1 with a := r.a.put 0 (iA n) (bitsOf n 39 0), pend := r.pend.put 0 (iA n) 0 } s
  else if op = opADDA then raPass u { at1 with a := r.a.put 0 (iA n) (add40 (r.a.get 0 (iA n)) (toSigned 32 n)) } s
  else if op = opSETC then raPass u { at1 with c := r.c.put 0 (iA n) (bitsOf n 23 0) } s
  else if op = opLOOP then
    let x := r.c.get 0 (iA n) - 1
    raPass u { r with pc := if x ≠ 0 then bitsOf n 6 0 else r.pc + 1, c := r.c.put 0 (iA n) x } s
  else if op = opSWAP then raPass u { at1 with hs := !r.hs } s
  else if op = opXFER ∨ op = opPREF then raMove u r n j s
  else raPass u at1 s

/-- RUNAHEAD_ISSUE (R277). -/
def execRunaheadIssue (u : Fin 32) (s : State) : Host.Outcome State Fault Refusal :=
  settle s (match runningRun s u.val with
    | some j => if pageOn s (pgSTRM u.val) then effRunahead u.val j s else s
    | none => s)

/-- TENTATIVE (R226): the request of the BUF transfer that the unit's run-ahead stands at. -/
def execTentative (u : Fin 32) (s : State) : Host.Outcome State Fault Refusal :=
  settle s (match runningRun s u.val with
    | none => s
    | some j =>
      let v := unitOf s u.val
      let r := raOf v
      let n := v.prog.get 0 r.pc
      if r.pc < v.progLen ∧ iOp n = opXFER ∧ iDstKind n = 2 ∧ raBlind s u.val r n = false
          ∧ (filterInsn s v (raRegs s u.val r) r.hs n).isNone ∧ tentDue s u.val r = true ∧ tentOut s u.val < 4 then
        effTentative u.val r n j s
      else s)

/-! ### The prefetch fence (R283) -/

/-- A fence completes: `STRM_FENCE_SEQ` goes on by 1 and FENCE_DONE is raised. -/
def fenceFinish (u : Nat) (s : State) : State :=
  let n := (rdF s (pgSTRM u) 0x09C 15 0 + 1) % 65536
  raise (pgSTRM u) 0x100 sevINFO n (wrN (pgSTRM u) 0x09C n (modUnit u (fun v => { v with fencing := false }) s))

/-- A write of 1 to `STRM_FENCE`: lines are discarded; an idle unit's fence is complete at once. -/
def effStrmFence (q : Port) (u : Nat) (s : State) : State :=
  if (unitOf s u).fencing then cmdRej q (pgSTRM u) 0x098 0 s
  else
    let t := modUnit u (fun v => { v with lines := [] }) s
    if (running s (pgSTRM u)).isNone then fenceFinish u t else modUnit u (fun v => { v with fencing := true }) t

/-- STRM_FENCE (R283). -/
def execStrmFence (q : Port) (u : Fin 32) (s : State) : Host.Outcome State Fault Refusal :=
  settle s (gateWrite q (pgSTRM u.val) 0x098 (effStrmFence q u.val) s)

/-- FENCE_DONE (R283): the last read issued before a pending fence arrives. -/
def execFenceDone (u : Fin 32) (s : State) : Host.Outcome State Fault Refusal :=
  settle s (if (unitOf s u.val).fencing && pageOn s (pgSTRM u.val) then fenceFinish u.val s else s)

/-! ### What the page shows (R262) -/

/-- `STRM_STATE`: 0 idle, 2 running, 3 waiting, 4 draining, 5 held on its trigger; PC, HS and what is awaited. -/
def strmStateWord (s : State) (u : Nat) : Nat :=
  let v := unitOf s u
  let st := match running s (pgSTRM u), (pageJobs s (pgSTRM u)).queue with
    | some _, _ => if v.draining then 4 else if v.waitKind ≠ 0 then 3 else 2
    | none, j :: _ => (match strmTrig j with
      | some i => if depsMet s (pgSTRM u) j (strmAddrs j) ∧ trigCount s (pgSTRM u) i = 0 then 5 else 0
      | none => 0)
    | none, [] => 0
  st + v.pc % 128 * 256 + b2n v.hs * 65536 + v.waitKind * 2 ^ 20 + v.waitSem * 2 ^ 24

end Sys2Proof.Machine
end

