-- ==== Sys2Proof/Machine/TcMath.lean ====
section
/-!
DEFINITION. The arithmetic of the tensor cores (R306 to R325): weight and activation layouts, dot products, the epilogue,
conversion to the output format, and the vector operations, over the bytes of a half.
-/
namespace Sys2Proof.Machine

/-! ### FP32 in a core: subnormal results become zero (R314) -/

def tAdd (a b : Nat) : Nat := Fp.flush (Fp.add a b)
def tSub (a b : Nat) : Nat := Fp.flush (Fp.sub a b)
def tMul (a b : Nat) : Nat := Fp.flush (Fp.mul a b)
def tDiv (a b : Nat) : Nat := Fp.flush (Fp.div a b)
def tSqrt (a : Nat) : Nat := Fp.flush (Fp.sqrt a)

/-! ### The layer descriptor (R317, R319) -/

def ldOPC (d : List Byte) : Nat := byteAt d 0
def ldWFmt (d : List Byte) : Nat := bitsOf (byteAt d 1) 2 0
def ldSparse (d : List Byte) : Bool := bitOf (byteAt d 1) 3
/-- The INT4 group in K-positions. -/
def ldGroup (d : List Byte) : Nat := 32 * 2 ^ bitsOf (byteAt d 1) 5 4
def ldIn (d : List Byte) : Nat := bitsOf (byteAt d 2) 2 0
def ldOut (d : List Byte) : Nat := bitsOf (byteAt d 2) 5 3
def ldAcc (d : List Byte) : Bool := bitOf (byteAt d 2) 6
def ldPos (d : List Byte) : Nat := bitsOf (byteAt d 3) 1 0
/-- CHAIN.LEN as coded: the length less 1. -/
def ldLen (d : List Byte) : Nat := bitsOf (byteAt d 3) 3 2
def ldOrder (d : List Byte) : Bool := bitOf (byteAt d 3) 4
def ldSem (d : List Byte) (port : Nat) : Nat := byteAt d (4 + (if port = 0 then 0 else if port = 1 then 1 else if port = 2 then 2 else 3))
def ldSemEn (d : List Byte) : Nat := byteAt d 8
def ldActFn (d : List Byte) : Nat := byteAt d 9
def ldEpiW (d : List Byte) : Bool := bitOf (byteAt d 10) 0
def ldEpiB (d : List Byte) : Bool := bitOf (byteAt d 10) 1
def ldEpiR (d : List Byte) : Bool := bitOf (byteAt d 10) 2
def ldTag (d : List Byte) : Nat := leAt d 12 2
def ldParam (d : List Byte) : Nat := leAt d 14 2
def ldAScale (d : List Byte) : Nat := leAt d 16 4
def ldORScale (d : List Byte) : Nat := leAt d 20 4
def ldXScale (d : List Byte) : Nat := leAt d 24 4
def ldD (d : List Byte) (i : Nat) : Nat := leAt d (32 + 4 * i) 4

/-- Division rounding up. -/
def ceilDiv (a b : Nat) : Nat := (a + b - 1) / b

/-! ### Geometry -/

def isArray (op : Nat) : Bool := decide (op = 0x01 ∨ op = 0x02 ∨ op = 0x04 ∨ op = 0x05)
def isAttn (op : Nat) : Bool := decide (op = 0x04 ∨ op = 0x05)
def isConv (op : Nat) : Bool := decide (op = 0x02 ∨ op = 0x03)

/-- Kernel, stride, padding and dilation of a convolution along rows (h) or columns. -/
def cK (d : List Byte) (h : Bool) : Nat := byteAt d (if h then 64 else 65)
def cS (d : List Byte) (h : Bool) : Nat := if h then bitsOf (byteAt d 66) 3 0 else bitsOf (byteAt d 66) 7 4
def cP (d : List Byte) (h : Bool) : Nat := if h then bitsOf (byteAt d 67) 3 0 else bitsOf (byteAt d 67) 7 4
def cD (d : List Byte) (h : Bool) : Nat := if h then bitsOf (byteAt d 68) 3 0 else bitsOf (byteAt d 68) 7 4

/-- H_out or W_out (R320); 0 where the kernel does not fit. -/
def cOut (d : List Byte) (h : Bool) : Nat :=
  let n : Int := (ldD d (if h then 0 else 1) : Int) + 2 * (cP d h : Int) - (cD d h : Int) * ((cK d h : Int) - 1) - 1
  if n < 0 ∨ cS d h = 0 then 0 else n.toNat / cS d h + 1

/-- M rows, N columns and K positions of an array operation, per head. -/
def gM (d : List Byte) : Nat := if ldOPC d = 0x02 then cOut d true * cOut d false else if isAttn (ldOPC d) then ldD d 1 else ldD d 0
def gN (d : List Byte) : Nat :=
  let op := ldOPC d
  if op = 0x02 then ldD d 3 else if op = 0x04 then ldD d 2 else if op = 0x05 then ldD d 3 else if op = 0x03 then ldD d 2
  else ldD d 1
def gK (d : List Byte) : Nat :=
  let op := ldOPC d
  if op = 0x02 then cK d true * cK d false * ldD d 2 else if op = 0x04 then ldD d 3 else if op = 0x05 then ldD d 2 else ldD d 2
/-- Columns per weight half. -/
def gNB (d : List Byte) : Nat := if ldOPC d = 0x01 then ldD d 4 else if isArray (ldOPC d) then ldD d 5 else gN d
def gHeads (d : List Byte) : Nat := if isAttn (ldOPC d) then ldD d 0 else 1

/-- Rows (array operations: rows of M; convolutions: output rows; vector operations: rows, elements, indices or tokens) in
all, and per activation half. -/
def gRows (d : List Byte) : Nat := if isConv (ldOPC d) then cOut d true else if isArray (ldOPC d) then gM d
  else if ldOPC d = 0x0C then ldD d 0 * ldD d 1 else ldD d 0
/-- [DEDUCED, log entry 110] -/
def gPer (d : List Byte) : Nat :=
  let op := ldOPC d
  if op = 0x01 then ldD d 3 else if isAttn op then ldD d 4 else if isConv op then ldD d 4 else ldD d 3

def gNA (d : List Byte) : Nat := ceilDiv (gRows d) (gPer d)
def gNW (d : List Byte) : Nat := if isArray (ldOPC d) then ceilDiv (gN d) (gNB d) else 1
/-- Output blocks of the layer (for SAMPLE_PREP, halves to consume). -/
def gBlocks (d : List Byte) : Nat := gHeads d * gNW d * gNA d

/-- Head, weight half and activation block of output block `i` (R311). -/
def blkOf (d : List Byte) (i : Nat) : Nat × Nat × Nat :=
  let per := gNW d * gNA d
  let r := i % per
  if ldOrder d then (i / per, r % gNW d, r / gNW d) else (i / per, r / gNA d, r % gNA d)

/-- Rows of activation block `a` and columns of weight half `w`. -/
def blkRows (d : List Byte) (a : Nat) : Nat := min (gPer d) (gRows d - a * gPer d)
def blkCols (d : List Byte) (w : Nat) : Nat := min (gNB d) (gN d - w * gNB d)

/-- Output elements of a block. -/
def blkElems (d : List Byte) (w a : Nat) : Nat :=
  let op := ldOPC d
  if isConv op then blkRows d a * cOut d false * (if op = 0x02 then blkCols d w else ldD d 2)
  else if isArray op then blkRows d a * blkCols d w
  else if op = 0x06 ∨ op = 0x07 then blkRows d a * ldD d 1
  else if op = 0x0B then blkRows d a * ldD d 1 * ldD d 2
  else blkRows d a

def inBytes (f : Nat) : Nat := if f = 1 then 1 else 2
def outBytes (f : Nat) : Nat := if f = 1 then 1 else if f = 5 then 4 else 2

/-- Bytes of a weight block, and of an N-tile, in its format (R307, R309). -/
def wBlock (d : List Byte) : Nat :=
  if ldWFmt d = 1 then (if ldSparse d then 640 else 1024) else if ldWFmt d = 2 then (if ldSparse d then 384 else 512) else 2048
def wTile (d : List Byte) : Nat :=
  let nb := ceilDiv (gK d) 32
  nb * wBlock d + (if ldWFmt d = 2 then ceilDiv nb (ldGroup d / 32) * 64 else 0)

/-- The first input row and the input rows of a convolution's activation half (R320). -/
def convRows (d : List Byte) (a : Nat) : Nat × Nat :=
  let r0 : Int := ((a * gPer d : Nat) : Int) * (cS d true : Int) - (cP d true : Int)
  let r1 : Int := ((a * gPer d + blkRows d a - 1 : Nat) : Int) * (cS d true : Int) - (cP d true : Int)
    + (cD d true : Int) * ((cK d true : Int) - 1)
  let lo := (max 0 r0).toNat
  let hi := (min ((ldD d 0 : Int) - 1) r1 + 1).toNat
  (lo, hi - lo)

/-- Bytes of one activation half. -/
def aHalfBytes (d : List Byte) (a : Nat) : Nat :=
  let op := ldOPC d
  let b := inBytes (ldIn d)
  if isConv op then (convRows d a).2 * ldD d 1 * ldD d 2 * b
  else if isArray op then blkRows d a * 32 * ceilDiv (gK d) 32 * b
  else if op = 0x0A then blkRows d a * 4
  else blkElems d 0 a * b

/-! ### Elements -/

/-- An input element as FP32, and as an integer: INT8 exact; a BF16 subnormal is zero (R314). -/
def elemInt (f : Nat → Nat) (i : Nat) : Int := toSigned 8 (f i)
def elemF (fmt : Nat) (f : Nat → Nat) (i : Nat) : Nat :=
  if fmt = 1 then Fp.ofInt (elemInt f i)
  else
    let h := f (2 * i) + 256 * f (2 * i + 1)
    if fmt = 3 then Fp.flush (Fp.ofB16 h) else Fp.ofF16 h

/-- The activation element (row `m` of the block, position `k`) of an array operation: its index in the half, or none where
it counts as zero. -/
def aIndex (d : List Byte) (a m k : Nat) : Option Nat :=
  if ldOPC d = 0x02 then
    let wo := cOut d false
    let oy := a * gPer d + m / wo
    let ox := m % wo
    let ci := ldD d 2
    let kw := (k / ci) % cK d false
    let kh := (k / ci) / cK d false
    let y : Int := ((oy * cS d true + kh * cD d true : Nat) : Int) - (cP d true : Int)
    let x : Int := ((ox * cS d false + kw * cD d false : Nat) : Int) - (cP d false : Int)
    if y < 0 ∨ (ldD d 0 : Int) ≤ y ∨ x < 0 ∨ (ldD d 1 : Int) ≤ x then none
    else some (((y.toNat - (convRows d a).1) * ldD d 1 + x.toNat) * ci + k % ci)
  else some (m * (32 * ceilDiv (gK d) 32) + k)

/-! ### Weights (R307 to R309) -/

/-- A little-endian number read from bytes by position. -/
def rdN (f : Nat → Nat) (o : Nat) : Nat → Nat
  | 0 => 0
  | n + 1 => f o + 256 * rdN f (o + 1) n

/-- Offset of block `b` in an N-tile. -/
def blockOff (d : List Byte) (b : Nat) : Nat :=
  b * wBlock d + (if ldWFmt d = 2 then (b / (ldGroup d / 32) + 1) * 64 else 0)

/-- A raw INT8 or INT4 value at index `i` of a run of values at `o`. -/
def rawInt (d : List Byte) (f : Nat → Nat) (o i : Nat) : Int :=
  if ldWFmt d = 1 then toSigned 8 (f (o + i))
  else if i % 2 = 0 then toSigned 4 (bitsOf (f (o + i / 2)) 3 0) else toSigned 4 (bitsOf (f (o + i / 2)) 7 4)

/-- The integer weight of column `n`, position `k` of the block at `o`; whether its 2:4 code is invalid (R308). -/
def wInt (d : List Byte) (f : Nat → Nat) (o n k : Nat) : Int × Bool :=
  let kept := if ldWFmt d = 1 then 16 else 8
  if ldSparse d then
    let c := o + (kept + 4) * n
    let code := bitsOf (rdN f (c + kept) 4) (4 * (k / 4) + 3) (4 * (k / 4))
    let p0 := code % 4
    let p1 := code / 4
    if p1 ≤ p0 then (0, true)
    else if k % 4 = p0 then (rawInt d f c (2 * (k / 4)), false)
    else if k % 4 = p1 then (rawInt d f c (2 * (k / 4) + 1), false)
    else (0, false)
  else (rawInt d f (o + (if ldWFmt d = 1 then 32 else 16) * n) k, false)

/-- The floating weight of column `n`, position `k` of the block at `o`. -/
def wFp (d : List Byte) (f : Nat → Nat) (o n k : Nat) : Nat := elemF (ldWFmt d) (fun i => f (o + i)) (32 * n + k)

/-! ### Accumulation (R312 to R314) -/

/-- A sum over `0 ≤ i < n`, ascending. -/
def sumTo {α : Type} (f : Nat → α → α) : Nat → Nat → α → α
  | 0, _, x => x
  | n + 1, i, x => sumTo f n (i + 1) (f i x)

/-- The integer partial sum of block `b` over column `n`: value and whether a code was invalid. -/
def intBlock (d : List Byte) (wf : Nat → Nat) (t n b kk : Nat) (av : Nat → Int) (acc : Int × Bool) : Int × Bool :=
  sumTo (fun i x =>
    let k := 32 * b + i
    if k < kk then
      let w := wInt d wf (t + blockOff d b) n i
      (x.1 + w.1 * av k, x.2 || w.2)
    else x) 32 0 acc

/-- The pairwise sum of the eight products of one step (R314). -/
def prodStep (p : Nat → Nat) : Nat :=
  tAdd (tAdd (tAdd (p 0) (p 1)) (tAdd (p 2) (p 3))) (tAdd (tAdd (p 4) (p 5)) (tAdd (p 6) (p 7)))

/-- The accumulator value of one output as FP32 (R312 to R315 step 1) and whether an invalid code was met. `t` is the offset
of the column's N-tile, `n` the column in it. -/
def dotAcc (d : List Byte) (wf af : Nat → Nat) (t n a m : Nat) : Nat × Bool :=
  let kk := gK d
  let nb := ceilDiv kk 32
  let avI : Nat → Int := fun k => match aIndex d a m k with | some i => elemInt af i | none => 0
  if ldWFmt d = 1 then
    let r := sumTo (fun b x => intBlock d wf t n b kk avI x) nb 0 ((0 : Int), false)
    (Fp.ofInt r.1, r.2)
  else if ldWFmt d = 2 then
    let per := ldGroup d / 32
    sumTo (fun g (x : Nat × Bool) =>
      let r := sumTo (fun j y => if g * per + j < nb then intBlock d wf t n (g * per + j) kk avI y else y) per 0 ((0 : Int), x.2)
      let so := t + blockOff d (g * per) - 64 + 2 * n
      let sc := Fp.flush (Fp.ofB16 (rdN wf so 2))
      (tAdd x.1 (tMul (Fp.ofInt r.1) sc), r.2)) (ceilDiv nb per) 0 (0, false)
  else
    (sumTo (fun st (x : Nat) =>
      tAdd x (prodStep (fun i =>
        let k := 8 * st + i
        let w := wFp d wf (t + blockOff d (k / 32)) n (k % 32)
        let v := match aIndex d a m k with
          | some j => if k < kk ∨ ldOPC d ≠ 0x02 then elemF (ldIn d) af j else 0
          | none => 0
        tMul w v))) (4 * nb) 0 0, false)

/-- The accumulator value of a depth-wise output (channel `c`, output row and column): weights dense as [c][kh][kw] from `t`; an
input outside the image counts as zero, and is multiplied by its weight as any other (R320). -/
def dwAcc (d : List Byte) (wf af : Nat → Nat) (t c a oy ox : Nat) : Nat :=
  let kw := cK d false
  let kk := cK d true * kw
  let idx : Nat → Option Nat := fun k =>
    let y : Int := ((oy * cS d true + k / kw * cD d true : Nat) : Int) - (cP d true : Int)
    let x : Int := ((ox * cS d false + k % kw * cD d false : Nat) : Int) - (cP d false : Int)
    if y < 0 ∨ (ldD d 0 : Int) ≤ y ∨ x < 0 ∨ (ldD d 1 : Int) ≤ x then none
    else some (((y.toNat - (convRows d a).1) * ldD d 1 + x.toNat) * ldD d 2 + c)
  if ldWFmt d = 1 then
    Fp.ofInt (sumTo (fun k (x : Int) => match idx k with
      | some i => x + toSigned 8 (wf (t + c * kk + k)) * elemInt af i
      | none => x) kk 0 0)
  else
    sumTo (fun st (x : Nat) => tAdd x (prodStep (fun i =>
      let k := 8 * st + i
      if k < kk then
        tMul (elemF (ldWFmt d) (fun z => wf (t + z)) (c * kk + k)) (match idx k with | some j => elemF (ldIn d) af j | none => 0)
      else 0))) (ceilDiv kk 8) 0 0

/-! ### Activation functions (R318) -/

def relu (x : Nat) : Nat := if Fp.lt x 0 then 0 else x
def relu6 (x : Nat) : Nat := if Fp.lt 0x40C00000 x then 0x40C00000 else relu x

/-- x × ReLU6(x + 3) / 6, exactly, rounded once. [DEDUCED, log entry 112] -/
def hardSwish (x : Nat) : Nat :=
  let v := Fp.dec32 x
  if Fp.isNan x then Fp.qnan
  else if Fp.le x 0xC0400000 then 0
  else if Fp.le 0x40400000 x then x
  else Fp.flush (Fp.enc32 (Fp.divV (Fp.mulV v (Fp.addV v (Fp.dec32 0x40400000))) (Fp.dec32 0x40C00000)))

/-- A function of one value in a core: a NaN gives a NaN, a subnormal result becomes zero (R314). -/
def coreFn (f : Nat → Nat) (x : Nat) : Nat := if Fp.isNan x then Fp.qnan else Fp.flush (f x)

/-- ACTFN (R318): 3 to 6 within 2 units in the last place of the exact function. [DEDUCED, log entry 113] -/
def actFn (n x : Nat) : Nat :=
  if n = 1 then relu x else if n = 2 then relu6 x else if n = 3 then coreFn Fix.geluFp x
  else if n = 4 then coreFn Fix.siluFp x else if n = 5 then coreFn Fix.sigmoidFp x
  else if n = 6 then coreFn Fix.tanhFp x else if n = 7 then hardSwish x else x

/-! ### Output (R315, R316) -/

/-- What a block produced beside its bytes: saturated outputs, NaN results, and the other layer flags. -/
structure OutStat where
  sat : Nat
  nan : Nat
  flags : Nat
deriving DecidableEq, Repr

def OutStat.zero : OutStat := ⟨0, 0, 0⟩
def OutStat.plus (a b : OutStat) : OutStat := ⟨a.sat + b.sat, a.nan + b.nan, a.flags ||| b.flags⟩

/-- FP32 to a 16-bit format of `eb` exponent bits: a finite result beyond the largest finite value saturates to it. -/
def toHalf (eb mb nan maxv y : Nat) : Nat × Bool :=
  match Fp.dec32 y with
  | .nan => (nan, false)
  | .inf s => (Fp.encode eb mb (.inf s), false)
  | v =>
    let r := Fp.encode eb mb v
    if bitsOf r (eb + mb - 1) mb = 2 ^ eb - 1 then (b2n (bitOf y 31) * 32768 + maxv, true) else (r, false)

/-- Conversion to OUT: the bytes, and whether it saturated. -/
def toOut (fmt rscale y : Nat) : List Byte × Bool :=
  if fmt = 1 then
    let q := tMul y rscale
    match Fp.dec32 q with
    | .nan => ([0], false)
    | .inf s => (leBytes 1 (if s then 0x80 else 0x7F), true)
    | _ =>
      let i := (Fp.toIntRne q).getD 0
      let c := clampI (-128) 127 i
      (leBytes 1 (ofSigned 8 c), decide (c ≠ i))
  else if fmt = 3 then let r := toHalf 8 7 0x7FC0 0x7F7F y; (leBytes 2 r.1, r.2)
  else if fmt = 4 then let r := toHalf 5 10 0x7E00 0x7BFF y; (leBytes 2 r.1, r.2)
  else (leBytes 4 y, false)

/-- One output element: its bytes and what it counts (layer flags [0] SAT, [1] NAN, [2] SPARSE_CODE). -/
def outElem (d : List Byte) (y : Nat) (badCode : Bool) : List Byte × OutStat :=
  let r := toOut (ldOut d) (ldORScale d) y
  let nan := Fp.isNan y || (decide (ldOut d = 1) && Fp.isNan (tMul y (ldORScale d)))
  (r.1, ⟨b2n r.2, b2n nan, b2n r.2 + 2 * b2n nan + 4 * b2n badCode⟩)

/-- The elements of a block, in order. -/
def outAll : List (List Byte × OutStat) → List Byte × OutStat
  | [] => ([], OutStat.zero)
  | x :: t => let r := outAll t; (x.1 ++ r.1, x.2.plus r.2)

/-- The parameter vectors of a layer (R306): W_SCALE, BIAS, then GAMMA and BETA of a NORM, each only if used. -/
def pWScale (_d pb : List Byte) (n : Nat) : Nat := leAt pb (4 * n) 4
def pBias (d pb : List Byte) (n : Nat) : Nat := leAt pb (4 * ((if ldEpiW d then gN d else 0) + n)) 4
def pGamma (_d pb : List Byte) (i : Nat) : Nat := leAt pb (4 * i) 4
def pBeta (d pb : List Byte) (i : Nat) : Nat := leAt pb (4 * (ldD d 1 + i)) 4

/-- The bytes of parameters a layer uses. [DEDUCED, log entry 112] -/
def paramUsed (d : List Byte) : Nat :=
  4 * ((if ldEpiW d then gN d else 0) + (if ldEpiB d then gN d else 0))
    + (if ldOPC d = 0x07 then 4 * ldD d 1 * (if byteAt d 64 = 0 then 2 else 1) else 0)

/-- The epilogue of R315 from step 2 on, for column `n` of the layer and the output's row and index in the block.
[DEDUCED, log entry 110] -/
def epilogue (d pb : List Byte) (xf : Nat → Nat) (masked : Bool) (n idx y0 : Nat) : Nat :=
  let y := if isAttn (ldOPC d) then tMul y0 (leAt d 64 4) else y0
  let y := if masked then Fp.negInf else y
  let y := if ldIn d = 1 then (if ldEpiW d then tMul y (tMul (ldAScale d) (pWScale d pb n)) else tMul y (ldAScale d)) else y
  let y := if ldEpiB d then tAdd y (pBias d pb n) else y
  let y := if ldEpiR d then
      let x := elemF (ldIn d) xf idx
      tAdd y (if ldIn d = 1 then tMul x (ldXScale d) else x)
    else y
  actFn (ldActFn d) y

/-! ### Blocks of the array operations and of DWCONV -/

/-- Output block (weight half `w`, activation block `a`) of an array operation: rows × columns, row-major (R311). -/
def arrayBlock (d pb : List Byte) (wf af xf : Nat → Nat) (w a : Nat) : List Byte × OutStat :=
  let cols := blkCols d w
  let rows := if ldOPC d = 0x02 then blkRows d a * cOut d false else blkRows d a
  let t0 := if w = 0 then ldParam d * 64 else 0
  outAll ((List.range rows).flatMap (fun m => (List.range cols).map (fun c =>
    let r := dotAcc d wf af (t0 + c / 32 * wTile d) (c % 32) a m
    let j := w * gNB d + c
    let masked := decide (ldOPC d = 0x04) && decide (byteAt d 68 = 1) && decide (leAt d 72 4 + (a * gPer d + m) < j)
    let o := outElem d (epilogue d pb xf masked j (m * cols + c) r.1) r.2
    -- a NaN that the mask replaces was produced all the same (R314)
    (o.1, o.2.plus ⟨0, 0, 2 * b2n (Fp.isNan r.1)⟩))))

/-- Output band `a` of a DWCONV, in [row][column][channel] order. -/
def dwBlock (d pb : List Byte) (wf af xf : Nat → Nat) (a : Nat) : List Byte × OutStat :=
  let wo := cOut d false
  let ch := ldD d 2
  outAll ((List.range (blkRows d a)).flatMap (fun r => (List.range wo).flatMap (fun x => (List.range ch).map (fun c =>
    outElem d (epilogue d pb xf false c ((r * wo + x) * ch + c)
      (dwAcc d wf af (ldParam d * 64) c a (a * gPer d + r) x)) false))))

/-! ### Vector operations (R322 to R325) -/

/-- An input of a vector operation as FP32: INT8 elements times A_SCALE. [DEDUCED, log entry 106] -/
def vecIn (d : List Byte) (af : Nat → Nat) (i : Nat) : Nat :=
  let x := elemF (ldIn d) af i
  if ldIn d = 1 then tMul x (ldAScale d) else x

/-- The sum of a row by 256 lanes: each lane in ascending index, then the lanes in ascending order (R322). -/
def laneSum (n : Nat) (f : Nat → Nat) : Nat :=
  sumTo (fun l x => tAdd x (sumTo (fun i y => if l + 256 * i < n then tAdd y (f (l + 256 * i)) else y) (ceilDiv n 256) 0 0))
    256 0 0

/-- One row of SOFTMAX, exp rounded to nearest (R322); true where no element was unmasked. -/
def softmaxRow (n : Nat) (maskInf : Bool) (x : Nat → Nat) : List Nat × Bool :=
  let masked : Nat → Bool := fun i => maskInf && decide (x i = Fp.negInf)
  let live := (List.range n).filter (fun i => !masked i)
  match live with
  | [] => (List.replicate n 0, true)
  | i0 :: rest =>
    let m := rest.foldl (fun m i => if Fp.isNan m then m else if Fp.isNan (x i) then x i else Fp.max m (x i)) (x i0)
    let e : Nat → Nat := fun i => if masked i then 0 else coreFn Fix.expFp (tSub (x i) m)
    let inv := tDiv Fp.one (laneSum n e)
    ((List.range n).map (fun i => if masked i then 0 else tMul (e i) inv), false)

/-- One row of NORM; RMSNorm takes mean 0 and BETA 0 (R322). -/
def normRow (d pb : List Byte) (n : Nat) (x : Nat → Nat) : List Nat :=
  let rms := decide (byteAt d 64 = 1)
  let len := Fp.ofNat n
  let mean := if rms then 0 else tDiv (laneSum n x) len
  let dev : Nat → Nat := fun i => tSub (x i) mean
  let var := tDiv (laneSum n (fun i => tMul (dev i) (dev i))) len
  let inv := tDiv Fp.one (tSqrt (tAdd var (leAt d 68 4)))
  (List.range n).map (fun i =>
    tAdd (tMul (tMul (dev i) inv) (pGamma d pb i)) (if rms then 0 else pBeta d pb i))

/-- Block `a` of SOFTMAX or NORM: rows of `ldD d 1` elements. -/
def rowsBlock (d pb : List Byte) (af : Nat → Nat) (a : Nat) : List Byte × OutStat :=
  let n := ldD d 1
  outAll ((List.range (blkRows d a)).flatMap (fun r =>
    let x : Nat → Nat := fun i => vecIn d af (r * n + i)
    let ys : List Nat × Bool := if ldOPC d = 0x06 then softmaxRow n (bitOf (byteAt d 68) 0) x else (normRow d pb n x, false)
    (ys.1.map (fun y => outElem d (actFn (ldActFn d) y) false)) ++ [([], ⟨0, 0, 16 * b2n ys.2⟩)]))

/-- The element-wise operation of an ELTW (OPX 64). -/
def eltw (k a b : Nat) : Nat :=
  if k = 0 then tAdd a b else if k = 1 then tSub a b else if k = 2 then tMul a b
  else if Fp.isNan a || Fp.isNan b then Fp.qnan else Fp.max a b

/-- Block `a` of ACT or ELTW. -/
def elemBlock (d : List Byte) (af xf : Nat → Nat) (a : Nat) : List Byte × OutStat :=
  outAll ((List.range (blkRows d a)).map (fun i =>
    let x := vecIn d af i
    let y := if ldOPC d = 0x09 then
        let b := elemF (ldIn d) xf i
        eltw (byteAt d 64) x (if ldIn d = 1 then tMul b (ldXScale d) else b)
      else x
    outElem d (actFn (ldActFn d) y) false))

/-- Block `a` of GATHER: rows of D1 bytes copied from the table; an index beyond it gives a zero row and IDX_RANGE. -/
def gatherBlock (d : List Byte) (wf af : Nat → Nat) (a : Nat) : List Byte × OutStat :=
  let n := ldD d 1
  outAll ((List.range (blkRows d a)).map (fun r =>
    let idx := rdN af (4 * r) 4
    if ldD d 2 ≤ idx then (zeros n, ⟨0, 0, 8⟩)
    else ((List.range n).map (fun i => BitVec.ofNat 8 (wf (ldParam d * 64 + 32 * ceilDiv n 32 * idx + i))), OutStat.zero)))

/-- Block `a` of ROTARY (R324): tokens of heads of d elements, cos and sin of the exact angle within 2 units in the last place.
[DEDUCED, log entry 113] -/
def rotaryBlock (d : List Byte) (af : Nat → Nat) (a : Nat) : List Byte × OutStat :=
  let heads := ldD d 1
  let n := ldD d 2
  let split := bitOf (byteAt d 72) 0
  outAll ((List.range (blkRows d a)).flatMap (fun t => (List.range heads).flatMap (fun h =>
    let base := (t * heads + h) * n
    let x : Nat → Nat := fun i => vecIn d af (base + i)
    (List.range n).map (fun k =>
      let i := if split then k % (n / 2) else k / 2
      let first := if split then decide (k < n / 2) else decide (k % 2 = 0)
      let ia := if split then i else 2 * i
      let ib := if split then i + n / 2 else 2 * i + 1
      let pos := leAt d 68 4 + a * gPer d + t
      let c := Fp.flush (Fix.rotaryTrig Fix.cos Config.cos pos (leAt d 64 4) i n)
      let sn := Fp.flush (Fix.rotaryTrig Fix.sin Config.sin pos (leAt d 64 4) i n)
      let y := if first then tSub (tMul (x ia) c) (tMul (x ib) sn) else tAdd (tMul (x ia) sn) (tMul (x ib) c)
      outElem d (actFn (ldActFn d) y) false))))

/-! ### SAMPLE_PREP (R325) -/

/-- Candidate (value, index) `p` ranks before `q`: higher value, ties to the lower index, NaN last. -/
def candBefore (p q : Nat × Nat) : Bool :=
  if Fp.isNan p.1 then Fp.isNan q.1 && decide (p.2 < q.2)
  else if Fp.isNan q.1 then true
  else Fp.lt q.1 p.1 || (Fp.eq p.1 q.1 && decide (p.2 < q.2))

/-- Inserts a candidate into a ranked list. -/
def candInsert (p : Nat × Nat) : List (Nat × Nat) → List (Nat × Nat)
  | [] => [p]
  | q :: t => if candBefore p q then p :: q :: t else q :: candInsert p t

/-- The scaled logit of element `i` of a half. -/
def prepVal (d : List Byte) (af : Nat → Nat) (i : Nat) : Nat := tMul (vecIn d af i) (leAt d 64 4)

/-- The candidates of one row after the elements of half `a`: the 64 best. -/
def candHalf (d : List Byte) (af : Nat → Nat) (a : Nat) (cs : List (Nat × Nat × Nat)) : List (Nat × Nat × Nat) :=
  let v := ldD d 1
  let add := (List.range (blkRows d a)).map (fun i =>
    let g := a * gPer d + i
    (g / v, prepVal d af i, g % v))
  let all := cs ++ add
  (List.range (ldD d 0)).flatMap (fun r =>
    (((all.filter (fun c => decide (c.1 = r))).foldl (fun l c => candInsert c.2 l) []).take 64).map (fun c => (r, c.1, c.2)))

/-- The candidate rows: 64 candidates of 8 bytes each, padding after the real ones. [DEDUCED, log entry 111] -/
def candBytes (d : List Byte) (cs : List (Nat × Nat × Nat)) : List Byte :=
  (List.range (ldD d 0)).flatMap (fun r =>
    let l := cs.filter (fun c => decide (c.1 = r))
    l.flatMap (fun c => leBytes 4 c.2.1 ++ leBytes 4 c.2.2)
      ++ (List.replicate (64 - l.length) (leBytes 4 Fp.negInf ++ leBytes 4 0xFFFFFFFF)).flatten)

/-- One output block of any operation but SAMPLE_PREP. -/
def layerBlock (d pb : List Byte) (wf af xf : Nat → Nat) (w a : Nat) : List Byte × OutStat :=
  let op := ldOPC d
  if isArray op then arrayBlock d pb wf af xf w a
  else if op = 0x03 then dwBlock d pb wf af xf a
  else if op = 0x06 ∨ op = 0x07 then rowsBlock d pb af a
  else if op = 0x08 ∨ op = 0x09 then elemBlock d af xf a
  else if op = 0x0A then gatherBlock d wf af a
  else rotaryBlock d af a

/-- Array steps of a block (R327); vector operations perform none. -/
def blkSteps (d : List Byte) (w a : Nat) : Nat :=
  if isArray (ldOPC d) then
    let rows := if ldOPC d = 0x02 then blkRows d a * cOut d false else blkRows d a
    let step := if ldWFmt d = 1 then (if ldSparse d then 64 else 32) else if ldWFmt d = 2 then (if ldSparse d then 128 else 64)
      else 8
    ceilDiv rows 32 * ceilDiv (blkCols d w) 32 * ceilDiv (gK d) step
  else 0

end Sys2Proof.Machine
end

