-- ==== Sys2Proof/Machine/Tensor.lean ====
section
/-!
DEFINITION. The tensor cores (chapter 10): the LAYERS job, the checks of a layer descriptor, the taking and freeing of
operand halves, the weight chain, output blocks and the end of a layer.
-/
namespace Sys2Proof.Machine

/-! ### Cores -/

def TcHalf.empty : TcHalf := ⟨false, false, false⟩

def TcCore.idle : TcCore :=
  { active := false, layer := 0, desc := [], flags := 0, blk := 0, w := [], wNext := 0, wTaken := 0, wSend := 0, aNext := 0, oNext := 0,
    xNext := 0, wHeld := false, aHeld := false, oHeld := false, xHeld := false, oPair := 0, oLast := 0, params := [], cands := [],
    st := 0, chainSince := none }

def coreOf (s : State) (c : Nat) : TcCore := s.tc.get TcCore.idle c
def setCore (c : Nat) (v : TcCore) (s : State) : State := { s with tc := s.tc.put TcCore.idle c v }
def modCore (c : Nat) (f : TcCore → TcCore) (s : State) : State := setCore c (f (coreOf s c)) s

def wHalf (v : TcCore) (h : Nat) : TcHalf := v.w.get TcHalf.empty h
def setW (h : Nat) (x : TcHalf) (v : TcCore) : TcCore := { v with w := v.w.put TcHalf.empty h x }

/-! ### The LAYERS job (R292) -/

def tcRules : HeaderRules := ⟨[0x001], fun _ => 0, 4⟩

def tcList (j : Job) : Nat := leAt j.desc 32 8
def tcCount (j : Job) : Nat := leAt j.desc 40 2

/-- The first field in error of a LAYERS job. -/
def tcBad (s : State) (j : Job) : Option (Nat × Nat) :=
  let d := j.desc
  descBad d 64 [headerBad s tcRules j,
    badIf (decide (tcList j % 128 ≠ 0) || !isData s (tcList j) (128 * max 1 (min (tcCount j) 4096))) 32 0x04,
    badIf (decide (tcCount j = 0) || decide (4096 < tcCount j)) 40 0x06,
    badIf (decide (bitsOf (byteAt d 42) 7 3 ≠ 0)) 42 0x01, reservedBad d 43 d.length]

def tcAddrs (j : Job) : List Nat := [tcList j]

def tcTrig (j : Job) : Option Nat :=
  if bitOf (byteAt j.desc 42) 0 then some (bitsOf (byteAt j.desc 42) 2 1) else none

/-- Every core of each chain the job's layers name has its domain on and its page READY. -/
def chainReady (s : State) (c : Nat) (j : Job) : Bool :=
  (List.range (tcCount j)).all (fun i =>
    let b := (getByte s (tcList j + 128 * i + 3)).toNat
    let head := c - bitsOf b 1 0
    (List.range (bitsOf b 3 2 + 1)).all (fun k => decide (3 < head + k) || ready s (pgTC (head + k))))

/-- A core between jobs: its output halves may still await their reader. -/
def TcCore.rest (v : TcCore) : TcCore := { TcCore.idle with oPair := v.oPair, oLast := v.oLast }

/-- A wait on the chain is over: its µs are counted (`TC_CHAIN_WAIT`). [DEDUCED, log entry 236] -/
def chainEnd (c : Nat) (s : State) : State :=
  match (coreOf s c).chainSince with
  | some t0 =>
    let t := modCore c (fun v => { v with st := if v.st = 6 then 4 else v.st, chainSince := none }) s
    if (now s - t0) / 1000 = 0 then t else incCnt (pgTC c) 0x0A8 ((now s - t0) / 1000) t
  | none => s

/-- Everything the end of a core's job does: waits withdrawn, no half released (R296). -/
def tcStop (c : Nat) (s : State) : State :=
  modCore c TcCore.rest (wrN (pgTC c) 0x084 0
    (semWithdraw (fun w => match w with | .tc d _ => decide (d = c) | _ => false) (chainEnd c s)))

/-- The core's job ends with a status. -/
def tcEnd (c status detail : Nat) (s : State) : State := finish (pgTC c) status detail (tcStop c s)

/-- LAYERS_JOB_START (R295). -/
def execLayersJobStart (c : Fin 4) (s : State) : Host.Outcome State Fault Refusal :=
  let p := pgTC c.val
  settle s (match (pageJobs s p).queue with
    | j :: _ =>
      if depsMet s p j (tcAddrs j) && !chainReady s c.val j && (pageJobs s p).running.isEmpty then tellHeldJob p j s
      else startJob p tcTrig tcAddrs (fun _ t => modCore c.val (fun v => { v.rest with st := 1 }) t) s
    | [] => s)

/-! ### Checks of a layer descriptor (R298, R306, R317, R319) -/

/-- The operands a layer uses, as SEM_EN bits: W, A, O, X. [DEDUCED, log entry 107] -/
def ldUses (d : List Byte) : Nat :=
  let op := ldOPC d
  b2n (isArray op || decide (op = 0x03 ∨ op = 0x07 ∨ op = 0x0A)) + 2 + 4 + 8 * b2n (ldEpiR d || decide (op = 0x09))

/-- Value `D i` lies in [lo, hi]. -/
def dRange (d : List Byte) (i lo hi : Nat) : Option (Nat × Nat) :=
  badIf (decide (ldD d i < lo) || decide (hi < ldD d i)) (32 + 4 * i) 0x06

/-- `D i` is reserved. -/
def dZero (d : List Byte) (i : Nat) : Option (Nat × Nat) := reservedBad d (32 + 4 * i) (36 + 4 * i)

def big : Nat := 2 ^ 32 - 1

/-- NB holds whole N-tiles: a multiple of 32, or all of N. [DEDUCED, log entry 109] -/
def nbBad (d : List Byte) (i : Nat) : Option (Nat × Nat) :=
  badIf (decide (ldD d i = 0) || (decide (ldD d i % 32 ≠ 0) && decide (ldD d i ≠ gN d))) (32 + 4 * i) 0x06

/-- The convolution bytes of OPX. -/
def convBad (d : List Byte) : List (Option (Nat × Nat)) :=
  let kk := cK d true * cK d false
  [badIf (decide (byteAt d 64 = 0) || decide (15 < byteAt d 64) || (decide (ldOPC d = 0x03) && decide (32 < kk))) 64 0x06,
   badIf (decide (byteAt d 65 = 0) || decide (15 < byteAt d 65)) 65 0x06,
   badIf (decide (cS d true = 0) || decide (cS d false = 0)) 66 0x06,
   badIf (decide (cD d true = 0) || decide (cD d false = 0)) 68 0x06, reservedBad d 69 128]

/-- The dimensions and operation-specific bytes of each operation, ascending. -/
def dimsBad (d : List Byte) : List (Option (Nat × Nat)) :=
  let op := ldOPC d
  if op = 0x01 then
    [dRange d 0 1 1048576, dRange d 1 1 4096, dRange d 2 1 65536,
     badIf (decide (ldD d 3 = 0) || decide (ldD d 3 % 32 ≠ 0)) 44 0x06,
     badIf (decide (ldD d 4 = 0) || decide (ldD d 4 % 32 ≠ 0)) 48 0x06,
     dZero d 5, dZero d 6, dZero d 7, reservedBad d 64 128]
  else if op = 0x02 then
    [badIf (decide (ldD d 0 = 0) || decide (4096 < ldD d 0) || decide (cOut d true = 0)) 32 0x06,
     badIf (decide (ldD d 1 = 0) || decide (4096 < ldD d 1) || decide (cOut d false = 0)) 36 0x06,
     badIf (decide (ldD d 2 = 0) || decide (65536 < gK d)) 40 0x06, dRange d 3 1 4096, dRange d 4 1 big, nbBad d 5,
     dZero d 6, dZero d 7] ++ convBad d
  else if op = 0x03 then
    [badIf (decide (ldD d 0 = 0) || decide (4096 < ldD d 0) || decide (cOut d true = 0)) 32 0x06,
     badIf (decide (ldD d 1 = 0) || decide (4096 < ldD d 1) || decide (cOut d false = 0)) 36 0x06,
     dRange d 2 1 4096, dZero d 3, dRange d 4 1 big, dZero d 5, dZero d 6, dZero d 7] ++ convBad d
  else if op = 0x04 then
    [dRange d 0 1 64, dRange d 1 1 big, dRange d 2 1 32768, dRange d 3 1 256, dRange d 4 1 big, nbBad d 5, dZero d 6,
     dZero d 7, badIf (decide (1 < byteAt d 68)) 68 0x06, reservedBad d 69 72, reservedBad d 76 128]
  else if op = 0x05 then
    [dRange d 0 1 64, dRange d 1 1 big, dRange d 2 1 32768, dRange d 3 1 256, dRange d 4 1 big,
     badIf (decide (ldD d 3 < ldD d 5)) 52 0x06, nbBad d 5, dZero d 6, dZero d 7,
     badIf (decide (leAt d 64 4 ≠ Fp.one)) 64 0x06, reservedBad d 68 128]
  else if op = 0x06 then
    [dRange d 0 1 big, dRange d 1 1 32768, dZero d 2, dRange d 3 1 big, dZero d 4, dZero d 5, dZero d 6, dZero d 7,
     reservedBad d 64 68, badIf (decide (1 < byteAt d 68)) 68 0x06, reservedBad d 69 128]
  else if op = 0x07 then
    [dRange d 0 1 big, dRange d 1 1 4096, dZero d 2, dRange d 3 1 big, dZero d 4, dZero d 5, dZero d 6, dZero d 7,
     badIf (decide (1 < byteAt d 64)) 64 0x06, reservedBad d 65 68, reservedBad d 72 128]
  else if op = 0x08 then
    [dRange d 0 1 big, dZero d 1, dZero d 2, dRange d 3 1 big, dZero d 4, dZero d 5, dZero d 6, dZero d 7, reservedBad d 64 128]
  else if op = 0x09 then
    [dRange d 0 1 big, dZero d 1, dZero d 2, dRange d 3 1 big, dZero d 4, dZero d 5, dZero d 6, dZero d 7,
     badIf (decide (3 < byteAt d 64)) 64 0x06, reservedBad d 65 128]
  else if op = 0x0A then
    [dRange d 0 1 big, dRange d 1 1 4096, dRange d 2 1 big, dRange d 3 1 big, dZero d 4, dZero d 5, dZero d 6, dZero d 7,
     reservedBad d 64 128]
  else if op = 0x0B then
    [dRange d 0 1 big, dRange d 1 1 big, badIf (decide (ldD d 2 < 2) || decide (256 < ldD d 2) || decide (ldD d 2 % 2 = 1)) 40 0x06,
     dRange d 3 1 big, dZero d 4, dZero d 5, dZero d 6, dZero d 7, badIf (decide (1 < byteAt d 72)) 72 0x01, reservedBad d 73 128]
  else
    [dRange d 0 1 16, dRange d 1 1 262144, dZero d 2, dRange d 3 1 big, dZero d 4, dZero d 5, dZero d 6, dZero d 7,
     reservedBad d 68 128]

/-- The weight format a layer may carry and the pairing of R312. [DEDUCED, log entry 108] -/
def wfmtBad (d : List Byte) : Bool :=
  let op := ldOPC d
  let f := ldWFmt d
  let dots := isArray op || decide (op = 0x03)
  decide (4 < f) || (dots && decide (f = 0)) || (ldSparse d && (decide (f ≠ 1 ∧ f ≠ 2) || decide (op = 0x03)))
    || (decide (f ≠ 2) && decide (bitsOf (byteAt d 1) 5 4 ≠ 0)) || decide (bitsOf (byteAt d 1) 5 4 = 3)
    || (decide (op = 0x03) && decide (f = 2))

def afmtBad (d : List Byte) : Bool :=
  let op := ldOPC d
  let f := ldWFmt d
  let i := ldIn d
  let o := ldOut d
  decide (i ≠ 1 ∧ i ≠ 3 ∧ i ≠ 4) || decide (o ≠ 1 ∧ o ≠ 3 ∧ o ≠ 4 ∧ o ≠ 5)
    || ((isArray op || decide (op = 0x03)) &&
      (if f = 1 then ldAcc d || decide (i ≠ 1) else if f = 2 then !ldAcc d || decide (i ≠ 1) else !ldAcc d || decide (i = 1)))

/-- Bits of EPI an operation admits: all for MATMUL and CONV2D, scale and bias for DWCONV, RESIDUAL for none of the
attention operations nor the vector operations. [DEDUCED, log entry 106] -/
def epiOk (op : Nat) : Nat := if op = 0x01 ∨ op = 0x02 then 7 else if op = 0x03 then 3 else 0

/-- The first error of a layer descriptor on core `c`: byte offset and reason. [DEDUCED, log entry 108] -/
def layerBad (c : Nat) (d : List Byte) : Option (Nat × Nat) :=
  firstBad ([badIf (decide (ldOPC d = 0) || decide (0x0C < ldOPC d)) 0 0x06,
    badIf (decide (bitsOf (byteAt d 1) 7 6 ≠ 0)) 1 0x01, badIf (wfmtBad d) 1 0x06,
    badIf (bitOf (byteAt d 2) 7) 2 0x01, badIf (afmtBad d) 2 0x06,
    badIf (decide (bitsOf (byteAt d 3) 7 5 ≠ 0)) 3 0x01,
    badIf (decide (ldLen d < ldPos d) || decide (c < ldPos d) || decide (4 < c - ldPos d + ldLen d + 1)) 3 0x06,
    badIf (decide (bitsOf (ldSemEn d) 7 4 ≠ 0)) 8 0x01, badIf (decide (ldSemEn d ≠ ldUses d)) 8 0x06,
    badIf (decide (7 < ldActFn d)) 9 0x06, badIf (decide (bitsOf (byteAt d 10) 7 3 ≠ 0)) 10 0x01,
    badIf (decide (byteAt d 10 % 8 &&& epiOk (ldOPC d) ≠ byteAt d 10 % 8)) 10 0x06,
    reservedBad d 11 12, badIf (decide (ldParam d ≠ ceilDiv (paramUsed d) 64)) 14 0x06, reservedBad d 28 32] ++ dimsBad d)

/-- The lowest limit of R326 a layer exceeds; 0 for none. [DEDUCED, log entry 111] -/
def layerCapacity (d : List Byte) : Nat :=
  let op := ldOPC d
  let big1 := if op = 0x0A ∨ op = 0x0C then 0 else blkElems d 0 0
  let wBytes := ldParam d * 64 + (if isArray op then ceilDiv (min (gNB d) (gN d)) 32 * wTile d
    else if op = 0x03 then ldD d 2 * cK d true * cK d false * inBytes (ldWFmt d)
    else if op = 0x0A then 32 * ceilDiv (ldD d 1) 32 * ldD d 2 else 0)
  let aMax := (List.range (min (gNA d) 4096)).foldl (fun m a => max m (aHalfBytes d a)) 0
  let oBytes := if op = 0x0A then blkRows d 0 * ldD d 1 else if op = 0x0C then 512 * ldD d 0 else blkElems d 0 0 * outBytes (ldOut d)
  if 32768 < big1 then 1
  else if 393216 < aMax then 2
  else if 524288 < wBytes then 3
  else if 32768 < ldParam d * 64 then 4
  else if 131072 < oBytes then 5
  else 0

/-- A core waits for its next layer: no layer is under way and layers remain. -/
def layerDue (s : State) (c : Nat) : Option Job :=
  match running s (pgTC c) with
  | some j => if !(coreOf s c).active && decide ((coreOf s c).layer < tcCount j) then some j else none
  | none => none

/-- LAYER_START (R293, R296): the descriptor is read and checked, the deadline first. -/
def execLayerStart (c : Fin 4) (s : State) : Host.Outcome State Fault Refusal :=
  let p := pgTC c.val
  settle s (match layerDue s c.val with
    | none => s
    | some j =>
      let v := coreOf s c.val
      let a := tcList j + 128 * v.layer
      if !pageOn s p || !canUse s (srcJob j) a 128 then s
      else if pastDeadline s j.deadline then tcEnd c.val stABORT_DEADLINE (now s) (missEvent p j s)
      else
        let r := readAs (srcJob j) a 128 s
        match r.2.1 with
        | some x => tcEnd c.val stABORT_POISON x r.2.2
        | none =>
          let d := r.1
          match layerBad c.val d with
          | some b => tcEnd c.val stABORT_BAD_DESC (badDetail b + v.layer * 65536) r.2.2
          | none =>
            let cap := layerCapacity d
            if cap ≠ 0 then tcEnd c.val stABORT_CAPACITY (cap + v.layer * 65536) r.2.2
            else touch p (wrN p 0x084 (ldPos d + ldLen d * 4 + 16 * b2n (decide (0 < ldLen d)))
              (setCore c.val { v with active := true, desc := d, blk := 0, wTaken := 0, params := [], cands := [], st := 4 } r.2.2)))

/-! ### Halves of the operands (R297, R298, R303) -/

/-- A core's own name for its wait at a port. -/
def tcWho (c port : Nat) : SemWho := .tc c port

/-- Asks for the next half of a port unless asked already; true where granted, and the grant is taken. -/
def askHalf (c port : Nat) (e : Bool) (s : State) : Bool × State :=
  let who := tcWho c port
  let nnn := ldSem (coreOf s c).desc port
  let t := if semGranted s who || semWaiting s who then s else semWait nnn e 1 who s
  if semGranted t who then (true, semTake who t) else (false, t)

/-- The layer uses the operand of a SEM_EN bit. [DEDUCED, log entry 107] -/
def usesBit (d : List Byte) (i : Nat) : Bool := bitOf (ldUses d) i

/-- The core has a successor in the chain of its layer. -/
def hasNext (d : List Byte) : Bool := decide (ldPos d < ldLen d)

/-- Frees weight half `h` once it is used and, with a successor, sent: the head signals SEM_W.E (R303). -/
def freeW (c h : Nat) (s : State) : State :=
  let v := coreOf s c
  let x := wHalf v h
  if x.full && x.used && (x.sent || !hasNext v.desc) then
    let t := setCore c (setW h TcHalf.empty v) s
    if ldPos v.desc = 0 then semSignal (ldSem v.desc 0) true 1 t else t
  else s

/-- The weight halves a layer takes: one for each block that begins a half. -/
def wTotal (d : List Byte) : Nat :=
  if usesBit d 0 then (if ldOrder d then gBlocks d else gBlocks d / max 1 (gNA d)) else 0

/-- A layer takes weight half `h`: the first one is also the first it forwards. -/
def gotW (h : Nat) (v : TcCore) : TcCore :=
  { setW h ⟨true, false, false⟩ v with wTaken := v.wTaken + 1, wSend := if v.wTaken = 0 then h else v.wSend }

/-- The head, or a core without a chain, takes a weight half when it is granted, as long as its layer needs one (R302). -/
def takeW (c : Nat) (s : State) : Bool × State :=
  let v := coreOf s c
  if (wHalf v v.wNext).full then (!(wHalf v v.wNext).used, s)
  else if ldPos v.desc ≠ 0 ∨ wTotal v.desc ≤ v.wTaken then (false, s)
  else
    let g := askHalf c 0 false s
    if g.1 then (true, modCore c (fun v => gotW v.wNext v) g.2) else (false, g.2)

/-- The bytes of half `h` of a core's port, by offset. -/
def halfByte (s : State) (c port h : Nat) : Nat → Nat :=
  let e := endpointOf s (pgTC c) port
  fun i => (e.bytes.get 0 (h * 2 ^ 20 + i)).toNat

/-- Which operands output block `blk` begins with and ends: new W, new A, W done, A done. -/
def blkEdges (d : List Byte) (blk : Nat) : Bool × Bool × Bool × Bool :=
  let b := blkOf d blk
  if ldOrder d then (true, decide (b.2.1 = 0), true, decide (b.2.1 + 1 = gNW d))
  else (decide (b.2.2 = 0), true, decide (b.2.2 + 1 = gNA d), true)

/-- Waits: `TC_STATE.STATE`; a wait on the chain (6) begins now unless it has begun, and any other ends it. -/
def tcWait (c st : Nat) (s : State) : State :=
  if st = 6 then modCore c (fun v => { v with st := st, chainSince := some (v.chainSince.getD (now s)) }) s
  else modCore c (fun v => { v with st := st }) (chainEnd c s)

/-- Gets the W half of the block, if the layer uses weights: the parameter block is taken from the layer's first half. A core waits
on the chain where its predecessor has not sent the half, or its successor not received the one that stood in its place (R303). -/
def needW (c : Nat) (s : State) : Bool × State :=
  let v := coreOf s c
  if !usesBit v.desc 0 || v.wHeld then (true, s)
  else
    let g := takeW c s
    if g.1 then
      let h := (coreOf g.2 c).wNext
      (true, modCore c (fun v => { v with
        wHeld := true,
        params := if v.blk = 0 then (List.range (ldParam v.desc * 64)).map (fun i => BitVec.ofNat 8 (halfByte g.2 c 0 h i))
          else v.params }) g.2)
    else (false, tcWait c (if ldPos v.desc = 0 ∧ (wHalf v v.wNext).full = false then 2 else 6) g.2)

/-- Gets the A half, the X half and the O half of the block. -/
def needA (c : Nat) (s : State) : Bool × State :=
  if (coreOf s c).aHeld then (true, s)
  else let g := askHalf c 1 false s; if g.1 then (true, modCore c (fun v => { v with aHeld := true }) g.2) else (false, tcWait c 3 g.2)

def needX (c : Nat) (s : State) : Bool × State :=
  if (coreOf s c).xHeld || !usesBit (coreOf s c).desc 3 then (true, s)
  else let g := askHalf c 3 false s; if g.1 then (true, modCore c (fun v => { v with xHeld := true }) g.2) else (false, tcWait c 3 g.2)

def needO (c : Nat) (s : State) : Bool × State :=
  if (coreOf s c).oHeld then (true, s)
  else
    let g := askHalf c 2 true s
    if g.1 then (true, modCore c (fun v => { v with oHeld := true }) g.2)
    else (false, tcWait c 5 g.2)

/-- The block writes its output half: SAMPLE_PREP only with its last half. -/
def blkWrites (d : List Byte) (blk : Nat) : Bool := decide (ldOPC d ≠ 0x0C) || decide (blk + 1 = gBlocks d)

/-- The counts and flags of a block. -/
def tcCount3 (c : Nat) (o : OutStat) (steps : Nat) (s : State) : State :=
  let p := pgTC c
  let t := if o.sat = 0 then s else incCnt p 0x0A0 o.sat s
  let t := if o.nan = 0 then t else incCnt p 0x0A4 o.nan t
  let t := if steps = 0 then t else incCnt64 p 0x098 steps t
  modCore c (fun v => { v with flags := v.flags ||| o.flags }) t

/-- Computes output block `blk`, stores it in the O half, signals, and releases what is done with (R300, R303, R311). -/
def doBlock (c : Nat) (s : State) : State :=
  let v := coreOf s c
  let d := v.desc
  let b := blkOf d v.blk
  let wf := halfByte s c 0 v.wNext
  let af := halfByte s c 1 v.aNext
  let xf := halfByte s c 3 v.xNext
  let edges := blkEdges d v.blk
  let prep := decide (ldOPC d = 0x0C)
  let cs := if prep then candHalf d af b.2.2 v.cands else []
  let out : List Byte × OutStat :=
    if prep then (if blkWrites d v.blk then candBytes d cs else [],
      ⟨0, ((List.range (blkRows d b.2.2)).filter (fun i => Fp.isNan (prepVal d af i))).length,
        2 * b2n ((List.range (blkRows d b.2.2)).any (fun i => Fp.isNan (prepVal d af i)))⟩)
    else layerBlock d v.params wf af xf b.2.1 b.2.2
  let t := tcCount3 c out.2 (blkSteps d b.2.1 b.2.2) (chainEnd c s)
  let t := modCore c (fun v => { v with cands := cs, blk := v.blk + 1, st := 4 }) t
  -- the output half
  let t := if blkWrites d v.blk then
      let t := putPort (pgTC c) 2 (decide (v.oNext = 1)) 0 out.1 t
      let e := endpointOf t (pgTC c) 2
      let t := setEndpoint (pgTC c) 2 { e with lens := e.lens.put 0 v.oNext out.1.length } t
      semSignal (ldSem d 2) false 1 (modCore c (fun v => { v with
        oHeld := false, oPair := ldSem d 2 + 1, oLast := v.oNext, oNext := 1 - v.oNext }) t)
    else t
  -- the operand halves
  let t := if usesBit d 3 then
      semSignal (ldSem d 3) true 1 (modCore c (fun v => { v with xHeld := false, xNext := 1 - v.xNext }) t)
    else t
  let t := if edges.2.2.2 then
      semSignal (ldSem d 1) true 1 (modCore c (fun v => { v with aHeld := false, aNext := 1 - v.aNext }) t)
    else t
  let t := if usesBit d 0 && edges.2.2.1 then
      let h := v.wNext
      freeW c h (modCore c (fun v => { setW h { wHalf v h with used := true } v with wHeld := false, wNext := 1 - h }) t)
    else t
  touch (pgTC c) t

/-- The block to come begins a weight half: the deadline is checked there (R296). -/
def atBoundary (v : TcCore) : Bool := usesBit v.desc 0 && !v.wHeld && (blkEdges v.desc v.blk).1

/-- OUTPUT_BLOCK (R311): the block's halves are waited for, each in turn; with all of them the block is done. -/
def execOutputBlock (c : Fin 4) (s : State) : Host.Outcome State Fault Refusal :=
  let p := pgTC c.val
  settle s (match running s p with
    | none => s
    | some j =>
      let v := coreOf s c.val
      if !v.active || decide (gBlocks v.desc ≤ v.blk) || !pageOn s p then s
      else if atBoundary v && pastDeadline s j.deadline then tcEnd c.val stABORT_DEADLINE (now s) (missEvent p j s)
      else
        let g1 := needW c.val s
        if !g1.1 then g1.2
        else
          let g2 := needA c.val g1.2
          if !g2.1 then g2.2
          else
            let g3 := needX c.val g2.2
            if !g3.1 then g3.2
            else if !blkWrites v.desc v.blk then doBlock c.val g3.2
            else let g4 := needO c.val g3.2; if !g4.1 then g4.2 else doBlock c.val g4.2)

/-! ### The chain (R301 to R304) -/

/-- What the members of a chain must agree on: tag, length, weight format, parameter block, weight dimensions and NB. -/
def chainGeometry (d : List Byte) : List Nat :=
  let op := ldOPC d
  [op, ldTag d, ldLen d, byteAt d 1, ldParam d, gNB d] ++
    (if op = 0x01 then [ldD d 1, ldD d 2]
     else if op = 0x02 then [ldD d 2, ldD d 3, byteAt d 64, byteAt d 65]
     else if op = 0x03 then [ldD d 2, byteAt d 64, byteAt d 65]
     else if isAttn op then [ldD d 0, ldD d 2, ldD d 3]
     else if op = 0x07 then [ldD d 1] else [ldD d 1, ldD d 2])

/-- CHAIN_HALF_ARRIVE at member `c`: the half its predecessor forwards next arrives whole, in the half of the same index, which the
member then uses (R302). A member whose layer does not match aborts its own job (R304); one that has all the halves of its own
layer and still works on them does not accept another yet. The predecessor may free its own. -/
def effChainArrive (c : Nat) (s : State) : State :=
  let v := coreOf s c
  let s := if (coreOf s (c - 1)).active ∧ ldPos (coreOf s (c - 1)).desc = 0 then (takeW (c - 1) s).2 else s
  let u := coreOf s (c - 1)
  let h := u.wSend
  let x := wHalf u h
  if !(v.active && u.active && hasNext u.desc && x.full && !x.sent) then s
  else if ldPos v.desc ≠ 0 ∧ wTotal v.desc ≤ v.wTaken then s
  else if chainGeometry v.desc ≠ chainGeometry u.desc ∨ ldPos v.desc ≠ ldPos u.desc + 1 then
    let det := ldTag u.desc + v.layer * 65536
    raise (pgTC c) 0x101 sevJOB det (tcEnd c 0x0500 det s)
  else if (wHalf v h).full then s
  else
    let bytes := portBytes s (pgTC (c - 1)) 0 (decide (h = 1)) 0 524288
    let t := chainEnd c (putPort (pgTC c) 0 (decide (h = 1)) 0 bytes s)
    let t := modCore c (fun v => { gotW h v with wNext := if v.wTaken = 0 then h else v.wNext }) t
    touch (pgTC c) (freeW (c - 1) h (chainEnd (c - 1)
      (modCore (c - 1) (fun u => { setW h { wHalf u h with sent := true } u with wSend := 1 - h }) t)))

/-- CHAIN_HALF_ARRIVE (R302). -/
def execChainHalfArrive (c : Fin 4) (s : State) : Host.Outcome State Fault Refusal :=
  settle s (if c.val = 0 ∨ !pageOn s (pgTC c.val) ∨ !pageOn s (pgTC (c.val - 1)) then s else effChainArrive c.val s)

/-! ### The end of a layer (R294) -/

/-- LAYER_END: every block is done and every weight half is released; the last layer ends the job. -/
def execLayerEnd (c : Fin 4) (s : State) : Host.Outcome State Fault Refusal :=
  let p := pgTC c.val
  settle s (match running s p with
    | none => s
    | some j =>
      let v := coreOf s c.val
      if !v.active || decide (v.blk < gBlocks v.desc) || (wHalf v 0).full || (wHalf v 1).full || !pageOn s p then s
      else
        let t := incCnt p 0x094 1 (wrN p 0x084 0 (setCore c.val { v with
          active := false, layer := v.layer + 1, desc := [], params := [], cands := [], st := 1 } s))
        if v.layer + 1 < tcCount j then touch p t
        else tcEnd c.val (if v.flags = 0 then stDONE else stDONE_FLAGGED) v.flags t)

/-! ### What the page shows (R328) -/

/-- `TC_STATE`. -/
def tcStateWord (s : State) (c : Nat) : Nat :=
  let v := coreOf s c
  let st := match running s (pgTC c), (pageJobs s (pgTC c)).queue with
    | some _, _ => v.st
    | none, j :: _ => (match tcTrig j with
      | some i => if depsMet s (pgTC c) j (tcAddrs j) ∧ trigCount s (pgTC c) i = 0 then 7 else 0
      | none => 0)
    | none, [] => 0
  st + v.layer % 4096 * 16 + ldTag v.desc * 65536

/-- The output halves that await their reader: those signalled on the F side of SEM_O that have not come back on its E side
(R297, R272). [DEDUCED, log entry 236] -/
def oAwaiting (s : State) (c : Nat) : Nat :=
  let v := coreOf s c
  let nnn := v.oPair - 1
  let held := b2n v.oHeld + b2n (semGranted s (tcWho c 2))
  let n := if v.oPair = 0 then 0 else semRest s nnn true - semCount s nnn true - held
  if n = 0 then 0 else if n = 1 then 2 ^ v.oLast else 3

/-- `TC_CHAIN_WAIT`, with the wait that is under way. -/
def tcChainWord (s : State) (c : Nat) : Nat :=
  (rd s (pgTC c) 0x0A8).toNat + (match (coreOf s c).chainSince with | some t0 => (now s - t0) / 1000 | none => 0)

/-- `TC_BUF`. -/
def tcBufWord (s : State) (c : Nat) : Nat :=
  let v := coreOf s c
  b2n (wHalf v 0).full + 2 * b2n (wHalf v 1).full + 4 * (b2n v.aHeld * 2 ^ v.aNext) + 16 * (b2n v.xHeld * 2 ^ v.xNext)
    + 64 * oAwaiting s c

end Sys2Proof.Machine
end

