-- ==== Sys2Proof/Machine/Generation.lean ====
section
/-!
DEFINITION. The generation sequencer (chapter 11): its jobs and slots, the model image, steps and their actions, the KV
mover, draft verification and the sampler.
-/
namespace Sys2Proof.Machine

/-! ### Slots -/

def GenSlot.free : GenSlot :=
  { st := 0, owner := 0, job := none, next := 0, fed := 0, pend := 0, emitted := 0, stop := false, deferred := false,
    pages := [], drafts := [], fromPos := 0, ending := 0 }

def GenState.none : GenState :=
  { bound := false, ws := 0, semCand := 0, actions := 0, actionCount := 0, kvLayers := 0, kvHeads := 0, headDim := 0,
    vocab := 0, slots := [], step := false, plan := [], nextAct := 0, nextPlan := 0, seq := 0, sent := [], mover := [],
    sampled := false, startAt := 0, retryAt := 0 }

def slotOf (s : State) (n : Nat) : GenSlot := s.gen.slots.get GenSlot.free n
def setSlot (n : Nat) (v : GenSlot) (s : State) : State :=
  { s with gen := { s.gen with slots := s.gen.slots.put GenSlot.free n v } }
def modSlot (n : Nat) (f : GenSlot → GenSlot) (s : State) : State := setSlot n (f (slotOf s n)) s
def modGen (f : GenState → GenState) (s : State) : State := { s with gen := f s.gen }

/-! ### Jobs (R329 to R334, R346) -/

def genRules : HeaderRules := ⟨[0x001, 0x002, 0x003, 0x004], fun _ => 0, 1⟩

def seqSlot (j : Job) : Nat := bitsOf (byteAt j.desc 32) 3 0
def seqKeep (j : Job) : Bool := bitOf (byteAt j.desc 32) 4
def seqContinue (j : Job) : Bool := bitOf (byteAt j.desc 32) 5
def seqMode (j : Job) : Nat := byteAt j.desc 33
def seqTopK (j : Job) : Nat := byteAt j.desc 34
def seqTopP (j : Job) : Nat := leAt j.desc 36 4
def seqRTemp (j : Job) : Nat := leAt j.desc 40 4
def seqPromptLen (j : Job) : Nat := leAt j.desc 44 4
def seqPrompt (j : Job) : Nat := leAt j.desc 48 8
def seqOut (j : Job) : Nat := leAt j.desc 56 8
def seqMaxNew (j : Job) : Nat := leAt j.desc 64 4
def seqSeed (j : Job) : Nat := leAt j.desc 72 8
def seqCtr0 (j : Job) : Nat := leAt j.desc 80 8
def seqEos (j : Job) (i : Nat) : Nat := leAt j.desc (88 + 4 * i) 4

/-- The body of a SEQ job. -/
def seqBodyBad (s : State) (j : Job) : List (Option (Nat × Nat)) :=
  let d := j.desc
  [badIf (decide (bitsOf (byteAt d 32) 7 6 ≠ 0)) 32 0x01, badIf (decide (1 < seqMode j)) 33 0x06,
   badIf (if seqMode j = 0 then decide (seqTopK j ≠ 0) else decide (seqTopK j = 0) || decide (64 < seqTopK j)) 34 0x06,
   reservedBad d 35 36, badIf (!(Fp.lt 0 (seqTopP j) && Fp.le (seqTopP j) Fp.one)) 36 0x06,
   badIf (!(Fp.lt 0 (seqRTemp j) && Fp.isFinite (seqRTemp j)) || (decide (seqMode j = 0) && decide (seqRTemp j ≠ Fp.one))) 40 0x06,
   badIf (decide (seqPromptLen j = 0) || decide (32767 < seqPromptLen j)) 44 0x06,
   badIf (decide (seqPrompt j % 4 ≠ 0) || !isData s (seqPrompt j) (4 * max 1 (seqPromptLen j))) 48 0x04,
   badIf (decide (seqOut j % 4 ≠ 0) || !isData s (seqOut j) (4 * max 1 (min (seqMaxNew j) 32767))) 56 0x04,
   badIf (decide (seqMaxNew j = 0) || decide (32767 < seqMaxNew j)) 64 0x06, reservedBad d 68 72, reservedBad d 104 d.length]

/-- The first field in error of a GEN job. -/
def genBad (s : State) (j : Job) : Option (Nat × Nat) :=
  let d := j.desc
  let need := if j.op = 0x002 then 128 else if j.op = 0x003 then 96 else 64
  descBad d need (headerBad s genRules j ::
    (if j.op = 0x001 then
      let ws := leAt d 40 8
      [badIf (decide (leAt d 32 8 % 64 ≠ 0) || !isData s (leAt d 32 8) 64) 32 0x04,
       badIf (decide (ws % 65536 ≠ 0) || !isData s ws (65536 * max 1 (leAt d 48 4))) 40 0x04,
       badIf (decide (leAt d 48 4 = 0)) 48 0x06, reservedBad d 53 d.length]
     else if j.op = 0x002 then seqBodyBad s j
     else if j.op = 0x003 then
      [badIf (decide (bitsOf (byteAt d 32) 7 4 ≠ 0)) 32 0x01,
       badIf (decide (byteAt d 33 = 0) || decide (8 < byteAt d 33)) 33 0x06, reservedBad d 34 36] ++
      (List.range 8).map (fun i => badIf (decide (byteAt d 33 ≤ i) && !zerosAt d (40 + 4 * i) 4) (40 + 4 * i) 0x06) ++
      [reservedBad d 72 d.length]
     else [badIf (decide (bitsOf (byteAt d 32) 7 4 ≠ 0)) 32 0x01, reservedBad d 33 d.length]))

/-- The memory a GEN job names. -/
def genAddrs (j : Job) : List Nat :=
  if j.op = 0x001 then [leAt j.desc 32 8, leAt j.desc 40 8] else if j.op = 0x002 then [seqPrompt j, seqOut j] else []

/-- The BIND that binds now. -/
def bindingJob (s : State) : Option Job := (pageJobs s pgGEN).running.find? (fun j => decide (j.op = 0x001))

/-- The first queued job of an operation starts, if its dependencies hold; other jobs may run (R329), but none starts while a
BIND binds. [DESIGN CHOICE, log entry 237] -/
def genStart (op : Nat) (k : Job → State → State) (s : State) : State :=
  match (pageJobs s pgGEN).queue.find? (fun j => decide (j.op = op)) with
  | none => s
  | some j =>
    if (bindingJob s).isSome then s
    else if !depsMet s pgGEN j (genAddrs j) then tellHeldJob pgGEN j s
    else if pastDeadline s j.deadline then refuseQueued pgGEN j stABORT_DEADLINE (now s) (missEvent pgGEN j s)
    else k { j with accepted := now s } (startIf pgGEN (fun x => decide (x = j)) s)

/-- A running GEN job ends with a status. -/
def genEnd (j : Job) (status detail : Nat) (s : State) : State := finishIf pgGEN (fun x => decide (x = j)) status detail s

/-! ### The image (R335 to R337) -/

/-- A little-endian field of an image read, and a check of it. -/
def genImageBad (s : State) (h : List Byte) : Option Nat :=
  let bad (c : Bool) (off : Nat) : Option (Nat × Nat) := badIf c off 0
  (firstBad [bad (decide (leAt h 0 4 ≠ 0x00010000)) 0, bad (decide (leAt h 4 4 = 0) || decide (512 < leAt h 4 4)) 4,
    bad (decide (leAt h 8 8 % 32 ≠ 0) || !isData s (leAt h 8 8) (32 * max 1 (min (leAt h 4 4) 512))) 8,
    bad (decide (leAt h 16 2 = 0) || decide (128 < leAt h 16 2)) 16, bad (decide (leAt h 18 2 = 0) || decide (64 < leAt h 18 2)) 18,
    bad (decide (leAt h 20 2 = 0) || decide (256 < leAt h 20 2) || decide (leAt h 20 2 % 32 ≠ 0)) 20,
    (reservedBad h 22 24), bad (decide (leAt h 24 4 = 0) || decide (262144 < leAt h 24 4)) 24, reservedBad h 28 64]).map (·.1)

/-- An action's kind, and the size of the copy it delivers (0 for the KV kinds). -/
def actKind (a : List Byte) : Nat := byteAt a 0
def actPerSeq (a : List Byte) : Bool := bitOf (byteAt a 2) 0
def actSize (s : State) (a : List Byte) : Nat :=
  if actKind a = 1 then 160
  else if actKind a = 2 then 64 + 128 * leNat (getBytes s (leAt a 8 8 + 40) 2)
  else 0

/-- The value of a per-sequence source (R337). -/
def srcPerSeq (n : Nat) : Bool := decide (0x10 ≤ n) && decide (n ≤ 0x14)
def srcKnown (n : Nat) : Bool := (decide (1 ≤ n) && decide (n ≤ 4)) || srcPerSeq n

/-- The first bad field of an action entry, as an offset in the entry. [DEDUCED, log entry 118] -/
def actionBad (s : State) (h a : List Byte) : Option Nat :=
  let kv := decide (actKind a = 3 ∨ actKind a = 4)
  let hd := leAt h 20 2
  (firstBad [badIf (decide (actKind a = 0) || decide (4 < actKind a)) 0 0,
    badIf (decide ((if actKind a = 1 then 32 else 4) ≤ byteAt a 1)) 1 0,
    badIf (decide (bitsOf (byteAt a 2) 7 2 ≠ 0) || (!kv && bitOf (byteAt a 2) 1) || (decide (actKind a = 3) && !actPerSeq a)) 2 0,
    badIf (decide (15 < byteAt a 3)) 3 0,
    badIf (if kv then decide (leAt h 16 2 ≤ leAt a 4 2) else decide (leAt a 4 2 ≠ 0)) 4 0, reservedBad a 7 8,
    badIf (if kv then decide (leAt a 8 8 ≠ 0) else !isData s (leAt a 8 8) 160
      || (decide (actKind a = 2) && (decide (actSize s a ≤ 64) || decide (4096 < actSize s a) || !isData s (leAt a 8 8) (actSize s a)))) 8 0,
    badIf (decide (byteAt a 3 ≠ 0) && !isData s (leAt a 16 8) (8 * byteAt a 3)) 16 0,
    badIf (decide (actKind a = 3) && (decide (leAt a 24 2 = 0) || decide (leAt a 24 2 % 32 ≠ 0)
      || decide (524288 < leAt a 24 2 * hd * 2))) 24 0, reservedBad a 26 32]).map (·.1)

/-- The first bad patch entry of an action, as an offset from its table. -/
def patchesBad (s : State) (a ps : List Byte) : Option Nat :=
  let size := actSize s a
  (firstBad ((List.range (byteAt a 3)).flatMap (fun i =>
    let o := 8 * i
    let w := byteAt ps (o + 2)
    [badIf (decide (w = 0) || decide (leAt ps o 2 % max w 1 ≠ 0) || decide (size < leAt ps o 2 + w)) o 0,
     badIf (decide (w ≠ 4 ∧ w ≠ 8)) (o + 2) 0,
     badIf (!srcKnown (byteAt ps (o + 3)) || (srcPerSeq (byteAt ps (o + 3)) && !actPerSeq a)) (o + 3) 0]))).map (·.1)

/-- The image check over its actions from index `i`: the failing offset and action index. [DEDUCED, log entry 118] -/
def actionsBad (s : State) (h : List Byte) (tab : Nat) : Nat → Nat → Option (Nat × Nat)
  | 0, _ => none
  | n + 1, i =>
    let a := getBytes s (tab + 32 * i) 32
    match actionBad s h a with
    | some o => some (32 * i + o, i)
    | none =>
      match patchesBad s a (getBytes s (leAt a 16 8) (8 * byteAt a 3)) with
      | some o => some (o, i)
      | none => actionsBad s h tab n (i + 1)

/-- Slots that are running or kept, as a mask. -/
def busyMask (s : State) : Nat := s.gen.slots.foldl (fun m e => m + (if e.2.st ≠ 0 then 2 ^ e.1 else 0)) 0

/-- A BIND is decided: refused while a slot is running or kept (R330), else it binds (`GEN_STATE` 1). -/
def effBindStart (j : Job) (s : State) : State := if busyMask s ≠ 0 then genEnd j 0x0502 (busyMask s) s else s

/-- The binding BIND checks its image and binds it (R330, R335); it waits while the image's memory is not ready. -/
def effBind (j : Job) (s : State) : State :=
  if !canUse s .generation (leAt j.desc 32 8) 64 then s
  else
    let img := leAt j.desc 32 8
    let r := readAs .generation img 64 s
    let h := r.1
    match r.2.1 with
    | some a => genEnd j stABORT_POISON a r.2.2
    | none =>
      match genImageBad r.2.2 h with
      | some o => genEnd j 0x0500 o r.2.2
      | none =>
        let n := leAt h 4 4
        let tab := leAt h 8 8
        let q := readAs .generation tab (32 * n) r.2.2
        match q.2.1 with
        | some a => genEnd j stABORT_POISON a q.2.2
        | none =>
          match actionsBad q.2.2 h tab n 0 with
          | some b => genEnd j 0x0500 (b.1 % 2 ^ 32 + b.2 % 256 * 2 ^ 32) q.2.2
          | none =>
            if leAt j.desc 48 4 * 65536 < 4194304 + 262144 * leAt h 16 2 then
              genEnd j stABORT_BAD_DESC (badDetail (48, 0x06)) q.2.2
            else
              genEnd j stDONE 0 (wrN pgGEN 0x088 (Crypto.crc32 (h ++ q.1)) (modGen (fun g => { g with
                bound := true, ws := leAt j.desc 40 8, semCand := byteAt j.desc 52, actions := tab, actionCount := n,
                kvLayers := leAt h 16 2, kvHeads := leAt h 18 2, headDim := leAt h 20 2, vocab := leAt h 24 4 }) q.2.2))

/-- GEN_BIND (R330, R335): a queued BIND is decided; at the next GEN_BIND it checks the image. [DESIGN CHOICE, log entry 237] -/
def execGenBind (s : State) : Host.Outcome State Fault Refusal :=
  settle s (match bindingJob s with
    | some j => if pageOn s pgGEN then effBind j s else s
    | none => genStart 0x001 effBindStart s)

/-- The kept pages of a slot pass to the owner of the SEQ that continues it, so that every KV page is under it (R331); a page
whose TRANSFER the Mews refuses stays as it is. [DEDUCED, log entry 238] -/
def passPages (n o : Nat) (s : State) : State :=
  let v := slotOf s n
  if v.owner = o then s else v.pages.foldl (fun t e => (mewsTransfer e.2 o (some v.owner) t).2) s

/-- A SEQ takes its slot (R332, R352). -/
def effSeq (j : Job) (s : State) : State :=
  let n := seqSlot j
  let v := slotOf s n
  if !s.gen.bound then genEnd j 0x0501 0 s
  else if v.st = 1 ∨ (v.st = 2 ∧ seqContinue j = false) then genEnd j 0x0503 n s
  else if v.st = 0 ∧ seqContinue j = true then genEnd j stABORT_BAD_DESC (badDetail (32, 0x06)) s
  else if 32767 < v.next + seqPromptLen j then genEnd j stABORT_BAD_DESC (badDetail (44, 0x06)) s
  else setSlot n { v with
    st := 1, owner := j.owner, job := some j, fed := 0, emitted := 0, stop := false, deferred := false, ending := 0 }
    (wrN pgGEN (0x104 + 0x10 * n) 0 (passPages n j.owner s))

/-- SEQ (R332). -/
def execSeq (s : State) : Host.Outcome State Fault Refusal := settle s (genStart 0x002 effSeq s)

/-- A DRAFT replaces the slot's pending drafts (R346). -/
def effDraft (j : Job) (s : State) : State :=
  if !s.gen.bound then genEnd j 0x0501 0 s
  else genEnd j stDONE 0 (modSlot (bitsOf (byteAt j.desc 32) 3 0) (fun v => { v with
    drafts := (List.range (byteAt j.desc 33)).map (fun i => leAt j.desc (40 + 4 * i) 4), fromPos := leAt j.desc 36 4 }) s)

/-- DRAFT (R346). -/
def execDraft (s : State) : Host.Outcome State Fault Refusal := settle s (genStart 0x003 effDraft s)

/-- The KV pages of a slot return to the Mews, under its owner. -/
def freePages (n : Nat) (s : State) : State :=
  modSlot n (fun v => { v with pages := [] })
    ((slotOf s n).pages.foldl (fun t e => (mewsFree e.2 (some (slotOf s n).owner) t).2) s)

/-- A slot's sequence ends (R333): SEQ_END, the pages freed or kept, the SEQ job's completion. [DEDUCED, log entry 117] -/
def endSequence (n reason : Nat) (s : State) : State :=
  let v := slotOf s n
  match v.job with
  | none => s
  | some j =>
    let t := raise pgGEN 0x101 sevINFO (n + reason * 16 + v.next * 65536) s
    let t := if seqKeep j then modSlot n (fun v => { v with
        st := 2, job := none, stop := false, ending := 0, drafts := [] }) t
      else modSlot n (fun v => { GenSlot.free with emitted := v.emitted }) (freePages n t)
    genEnd j stDONE (v.emitted + reason * 2 ^ 32 + v.next * 2 ^ 48) t

/-- A STOP (R334): recorded for a running slot; a kept slot is freed. -/
def effStop (j : Job) (s : State) : State :=
  let n := bitsOf (byteAt j.desc 32) 3 0
  let v := slotOf s n
  genEnd j stDONE 0 (if v.st = 1 then modSlot n (fun v => { v with stop := true }) s
    else if v.st = 2 then modSlot n (fun v => { GenSlot.free with emitted := v.emitted }) (freePages n s)
    else s)

/-- STOP (R334). -/
def execStop (s : State) : Host.Outcome State Fault Refusal := settle s (genStart 0x004 effStop s)

/-! ### Planning (R340 to R343) -/

def genMaxRows (s : State) : Nat := min 512 (max 32 (rdF s pgGEN 0x084 9 0))
def genChunk (s : State) : Nat := min 512 (max 1 (rdF s pgGEN 0x084 25 16))

/-- Prompt tokens a running slot still has to feed. -/
def promptLeft (v : GenSlot) : Nat := match v.job with | some j => seqPromptLen j - v.fed | none => 0

/-- Rows per running slot, ascending, within `room` rows: (slot, rows, sampled). Later slots get none once a slot crosses. -/
def planRows (s : State) : List Nat → Nat → List (Nat × Nat × Bool)
  | [], _ => []
  | n :: t, room =>
    let v := slotOf s n
    if v.st ≠ 1 then planRows s t room
    else
      let left := promptLeft v
      let want := if left = 0 then 1 else min left (genChunk s)
      if want ≤ room then (n, want, decide (left ≤ want)) :: planRows s t (room - want)
      else if left ≠ 0 ∧ room ≠ 0 then [(n, room, false)]
      else []

/-- The drafts each slot of the rows may use, in order, from `room` sampled rows left (R340, R346); no row lies beyond the
2,048 pages of a slot's page table (R345). [DEDUCED, log entry 119] -/
def planDrafts (s : State) : List (Nat × Nat × Bool) → Nat → List (Nat × Nat × Bool × List Nat)
  | [], _ => []
  | (n, r, b) :: t, room =>
    let v := slotOf s n
    let ds := if promptLeft v = 0 ∧ v.fromPos = v.next + 1 then v.drafts.take (min room (32767 - v.next)) else []
    (n, r, b, ds) :: planDrafts s t (room - ds.length)

/-- The size of a KV page (R342). -/
def pageBytes (s : State) : Nat := 64 * s.gen.kvHeads * s.gen.headDim

/-- Where a slot's page table of a layer holds the DPA of page `j`; the key of that page is `layer * 2048 + j`. The table lies
in the workspace's 262,144 bytes per layer (R330, R345). -/
def wsPage (s : State) (n key : Nat) : Nat := s.gen.ws + 4194304 + 262144 * (key / 2048) + 16384 * n + 8 * (key % 2048)

/-- A page granted to a slot enters its page table, in State and in the workspace (R345). -/
def putPage (n key h : Nat) (s : State) : State :=
  storeAs .generation (wsPage s n key) (leBytes 8 (bufAddr s h))
    (modSlot n (fun v => { v with pages := v.pages.put 0 key h }) s)

/-- Obtains one page for a slot; true where the slot holds it. -/
def getPage (n key : Nat) (s : State) : Bool × State :=
  let v := slotOf s n
  if v.pages.get 0 key ≠ 0 then (true, s)
  else
    let recov := (match v.job with | some j => j.recovery | none => false) || decide (v.owner = 63)
    let a := mewsAsk ⟨.gen n, v.owner, pageBytes s, recov⟩ false false false s
    if a.1 = mwOK then (true, putPage n key a.2.1 a.2.2) else (false, a.2.2)

/-- Obtains every page of the layers and pages listed; false where one is not granted. -/
def getPages (n : Nat) : List Nat → State → Bool × State
  | [], s => (true, s)
  | k :: t, s =>
    let a := getPage n k s
    let b := getPages n t a.2
    (a.1 && b.1, b.2)

/-- The pages a slot needs for rows up to position `last`, over all layers. [DESIGN CHOICE, log entry 115] -/
def pageKeys (s : State) (last : Nat) : List Nat :=
  (List.range s.gen.kvLayers).flatMap (fun l => (List.range (last / 16 + 1)).map (fun j => l * 2048 + j))

/-- The rows that keep their pages; a slot that cannot obtain all of them is deferred, with KV_DEFER the first time.
[DESIGN CHOICE, log entry 115] -/
def planPages : List (Nat × Nat × Bool × List Nat) → State → List (Nat × Nat × Bool × List Nat) × State
  | [], s => ([], s)
  | (n, r, b, ds) :: t, s =>
    let v := slotOf s n
    let g := getPages n (pageKeys s (v.next + r + ds.length - 1)) s
    if g.1 then let q := planPages t g.2; ((n, r, b, ds) :: q.1, q.2)
    else
      let u := if v.deferred then g.2
        else raise pgGEN 0x104 sevDEGRADED (n + (homePool g.2 (pageBytes g.2)).getD 0 * 16)
          (modSlot n (fun v => { v with deferred := true }) g.2)
      planPages t u

/-- The plan of a step from its rows (R341). -/
def mkPlan (s : State) : List (Nat × Nat × Bool × List Nat) → Nat → Nat → List GenPlan
  | [], _, _ => []
  | (n, r, b, ds) :: t, row, srow =>
    let ns := b2n b + (if b then ds.length else 0)
    let rows := r + ds.length
    ⟨n, row, rows, srow, ns, (slotOf s n).next, ds⟩ :: mkPlan s t (row + rows) (srow + ns)

/-- The workspace: step lists, template copies and completion records. Where they lie in it is the model's choice.
[DESIGN CHOICE, log entry 114; DEDUCED, log entry 116] -/
def wsTokIn (s : State) : Nat := s.gen.ws + 2097152
def wsSMap (s : State) : Nat := s.gen.ws + 2162688
/-- [DESIGN CHOICE, log entry 114] -/
def wsCopy (s : State) (k : Nat) : Nat := s.gen.ws + 8192 * (k % 256)
def wsDone (s : State) (k : Nat) : Nat := s.gen.ws + 3145728 + 32 * (k % 1024)

/-- The input tokens of a slot's rows: prompt tokens, or the pending token and the drafts; the first poisoned address. -/
def rowTokens (p : GenPlan) (s : State) : List Byte × Option Nat × State :=
  let v := slotOf s p.slot
  match v.job with
  | none => ([], none, s)
  | some j =>
    if promptLeft v = 0 then ((v.pend :: p.drafts).flatMap (leBytes 4), none, s)
    else readAs .generation (seqPrompt j + 4 * v.fed) (4 * p.nrows) s

/-- A sequence ends with an abort status; its pages stay under its owner, the slot kept until a STOP (R339).
[DEDUCED, log entry 117] -/
def abortSequence (n status detail : Nat) (s : State) : State :=
  match (slotOf s n).job with
  | none => s
  | some j => genEnd j status detail (modSlot n (fun v => { v with
      st := 2, job := none, stop := false, ending := 0, drafts := [] }) s)

/-- The tokens of all rows; a slot whose prompt is poisoned ends with ABORT_POISON. -/
def allTokens : List GenPlan → State → List Byte × Bool × State
  | [], s => ([], true, s)
  | p :: t, s =>
    let r := rowTokens p s
    match r.2.1 with
    | some a => ([], false, abortSequence p.slot stABORT_POISON a r.2.2)
    | none => let q := allTokens t r.2.2; (r.1 ++ q.1, q.2.1, q.2.2)

/-- Drafts that do not meet the slot's next position are discarded with DRAFT_STALE (R346). [DEDUCED, log entry 119] -/
def dropStale (n : Nat) (s : State) : State :=
  let v := slotOf s n
  if v.st = 1 ∧ v.drafts ≠ [] ∧ v.fromPos ≠ v.next + 1 then
    raise pgGEN 0x103 sevINFO (n + v.fromPos % 65536 * 65536)
      (incCnt pgGEN 0x098 v.drafts.length (modSlot n (fun v => { v with drafts := [] }) s))
  else s

/-- Drafts planned for are taken from the slot; those left over are discarded (R347). -/
def takeDrafts (p : GenPlan) (s : State) : State :=
  let v := slotOf s p.slot
  if promptLeft v ≠ 0 ∨ v.drafts = [] then s
  else
    let stale := v.drafts.length - p.drafts.length
    let t := modSlot p.slot (fun v => { v with drafts := [] }) s
    if stale = 0 then t else incCnt pgGEN 0x098 stale t

/-- The start of a planned step: its lists written to the workspace. -/
def startStep (plan : List GenPlan) (toks : List Byte) (s : State) : State :=
  let sm := plan.flatMap (fun p => (List.range p.ns).map (fun i => p.row0 + p.nrows - p.ns + i))
  let t := storeAs .generation (wsTokIn s) toks s
  let t := storeAs .generation (wsSMap s) (sm.flatMap (leBytes 4)) t
  let t := plan.foldl (fun t p => takeDrafts p t) t
  touch pgGEN (modGen (fun g => { g with
    step := true, plan := plan, nextAct := 0, nextPlan := 0, sent := [], mover := [], sampled := false, startAt := now s }) t)

/-- STEP_PLANNING (R340). -/
def effPlanning (s : State) : State :=
  let all := List.range 16
  let s := all.foldl (fun t n => if (slotOf t n).st = 1 ∧ (slotOf t n).stop = true then endSequence n 4 t else t) s
  let s := all.foldl (fun t n => dropStale n t) s
  let rows := planRows s all (genMaxRows s)
  let sampled := (rows.filter (fun r => r.2.2)).length
  let g := planPages (planDrafts s rows (16 - sampled)) s
  let plan := mkPlan g.2 g.1 0 0
  if plan = [] then modGen (fun x => { x with retryAt := now s + 1000000 }) g.2
  else
    let t := allTokens plan g.2
    if t.2.1 then startStep plan t.1 t.2.2 else t.2.2

/-- A step is to be planned (R340, R352): no step running, ENABLE 1, a slot running, and the retry time of an empty plan
reached. -/
def planningDue (s : State) : Bool :=
  !s.gen.step && s.gen.bound && enabled s pgGEN && pageOn s pgGEN && decide (s.gen.retryAt ≤ now s)
    && s.gen.slots.any (fun e => decide (e.2.st = 1))

/-- The memory the planning uses is ready: the workspace, and the prompts still to be fed. -/
def planningReady (s : State) : Bool :=
  canUse s .generation s.gen.ws 1 && s.gen.slots.all (fun e => match e.2.job with
    | some j =>
      decide (promptLeft e.2 = 0) ||
        canUse s .generation (seqPrompt j + 4 * e.2.fed) (4 * min (genChunk s) (promptLeft e.2))
    | none => true)

/-- STEP_PLANNING (R340, R352). [DEDUCED, log entry 121] -/
def execStepPlanning (s : State) : Host.Outcome State Fault Refusal :=
  settle s (if planningDue s && planningReady s then effPlanning s else s)

/-! ### Delivering actions (R336 to R339) -/

/-- The value of a patch source for a delivery to slot plan `p`. -/
def srcValue (s : State) (p : GenPlan) (n : Nat) : Nat :=
  let pl := s.gen.plan
  if n = 0x01 then (pl.map (·.nrows)).sum
  else if n = 0x02 then (pl.map (·.ns)).sum
  else if n = 0x03 then wsTokIn s
  else if n = 0x04 then wsSMap s
  else if n = 0x10 then p.pos
  else if n = 0x11 then p.pos + p.nrows
  else if n = 0x12 then p.row0
  else if n = 0x13 then p.nrows
  else p.srow0

/-- The patches of an action applied to its copy, in entry order. -/
def applyPatches (s : State) (p : GenPlan) (ps : List Byte) : Nat → Nat → List Byte → List Byte
  | 0, _, c => c
  | n + 1, i, c =>
    let o := 8 * i
    let w := byteAt ps (o + 2)
    let v : Int := (srcValue s p (byteAt ps (o + 3)) : Nat) + toSigned 32 (leAt ps (o + 4) 4)
    applyPatches s p ps n (i + 1) (patch c (leAt ps o 2) (leBytes w (v % (2 ^ (8 * w) : Int)).toNat))

/-- [DEDUCED, log entry 121] -/
def noPlan : GenPlan := ⟨0, 0, 0, 0, 0, 0, []⟩

/-- Ends a step whose action aborted (R339): nothing further is delivered, and every sequence with rows ends. -/
def abortStep (action status : Nat) (s : State) : State :=
  let t := raise pgGEN 0x105 sevJOB (action + status * 65536) s
  let t := s.gen.plan.foldl (fun t p =>
    abortSequence p.slot 0x0504 (action + status * 65536 + (slotOf t p.slot).emitted * 2 ^ 32) t) t
  let t := semWithdraw (fun w => match w with | .kv _ _ => true | .sampler => true | _ => false) t
  modGen (fun g => { g with step := false, plan := [], sent := [], mover := [], retryAt := 0 }) t

/-- A job the sequencer delivered has completed (called where its record is written). -/
def genJobDone (compl status : Nat) (s : State) : State :=
  match s.gen.sent.find? (fun e => decide (e.1 = compl)) with
  | none => s
  | some e =>
    let t := modGen (fun g => { g with sent := g.sent.erase e }) s
    if isAbort status ∧ t.gen.step = true then abortStep e.2 status t else t

/-- The action to deliver next, moved on: a PER_SEQ action goes over the step's slots. -/
def actAdvance (perSeq : Bool) (s : State) : State :=
  modGen (fun g =>
    if perSeq && decide (g.nextPlan + 1 < g.plan.length) then { g with nextPlan := g.nextPlan + 1 }
    else { g with nextAct := g.nextAct + 1, nextPlan := 0 }) s

/-- A template copied, patched and delivered to its target's queue; it waits while that queue is full or the memory it reads
is not ready. -/
def deliverTemplate (i : Nat) (a : List Byte) (p : GenPlan) (s : State) : State :=
  let k := s.gen.seq
  let target := if actKind a = 1 then pgSTRM (byteAt a 1) else pgTC (byteAt a 1)
  let size := actSize s a
  if 4 ≤ (pageJobs s target).queue.length ∨ !pageOn s target ∨ goingOff s target ∨ !canUse s .generation (leAt a 8 8) size
      ∨ (byteAt a 3 ≠ 0 ∧ !canUse s .generation (leAt a 16 8) (8 * byteAt a 3)) then s
  else
    let r := readAs .generation (leAt a 8 8) size s
    let q := readAs .generation (leAt a 16 8) (8 * byteAt a 3) r.2.2
    match (match r.2.1 with | some x => some x | none => q.2.1) with
    | some _ => abortStep i stABORT_POISON q.2.2
    | none =>
      let c := patch r.1 16 (leBytes 8 (wsDone s k))
      let c := if actKind a = 2 then patch c 32 (leBytes 8 (wsCopy s k + 64)) else c
      let c := applyPatches s p q.1 (byteAt a 3) 0 c
      let t := storeAs .generation (wsCopy s k) c q.2.2
      let j : Job := ⟨c.take (if actKind a = 1 then 160 else 64), owner s pgGEN, 17, false, now s⟩
      let t := modGen (fun g => { g with seq := g.seq + 1, sent := g.sent ++ [(j.complAddr, i)] }) t
      let bad := if actKind a = 1 then strmBad t j else tcBad t j
      actAdvance (actPerSeq a) (touch pgGEN (deliver target bad (if actKind a = 1 then strmAddrs j else tcAddrs j) j t))

/-- ACTION_DELIVER (R336, R337). -/
def execActionDeliver (s : State) : Host.Outcome State Fault Refusal :=
  settle s (if !s.gen.step || decide (s.gen.actionCount ≤ s.gen.nextAct) || !pageOn s pgGEN
        || !canUse s .generation s.gen.actions 32 || !canUse s .generation s.gen.ws 1 then s
    else
      let i := s.gen.nextAct
      let r := readAs .generation (s.gen.actions + 32 * i) 32 s
      let a := r.1
      match r.2.1 with
      | some _ => abortStep i stABORT_POISON r.2.2
      | none =>
        let p := if actPerSeq a then s.gen.plan.getD s.gen.nextPlan noPlan else noPlan
        if actKind a = 1 ∨ actKind a = 2 then deliverTemplate i a p r.2.2
        else
          let act : KvAct := ⟨decide (actKind a = 3), byteAt a 1, bitOf (byteAt a 2) 1, leAt a 4 2, byteAt a 6, leAt a 24 2,
            if actPerSeq a then some p.slot else none, i, 0, 0, false, 0⟩
          actAdvance (actPerSeq a) (touch pgGEN (modGen (fun g => { g with mover := g.mover ++ [act] }) r.2.2)))

/-! ### The KV mover (R343 to R345) -/

/-- The address of a 1,024-byte run: keys or values of head `h`, block `b` of 32 dimensions, in page `page` of a layer.
[DEDUCED, log entry 116] -/
def kvRun (s : State) (slot layer page : Nat) (values : Bool) (h b : Nat) : Nat :=
  let per := s.gen.headDim / 32
  bufAddr s ((slotOf s slot).pages.get 0 (layer * 2048 + page)) + b2n values * (s.gen.kvHeads * per * 1024)
    + (h * per + b) * 1024

/-- The byte addresses of the 2,048-byte weight block of positions 32t to 32t + 31 and dimensions 32b to 32b + 31 (R307), or
zero where the position lies at or beyond `ctx`. -/
def kvBlock (s : State) (slot layer : Nat) (values : Bool) (h b t ctx : Nat) : List (Option Nat) :=
  (List.range 2048).map (fun i =>
    let n := i / 64
    let k := i % 64 / 2
    let pos := 32 * t + (if values then k else n)
    let dim := if values then n else k
    if ctx ≤ pos then none
    else
      let run := kvRun s slot layer (pos / 16) values h b
      some (run + (if values then dim * 32 + pos % 16 * 2 else pos % 16 * 64 + dim * 2) + i % 2))

/-- The pages a load touches are readable: their poison, and the state after reading them. -/
def kvReadRuns : List Nat → State → Option Nat × State
  | [], s => (none, s)
  | a :: t, s =>
    let r := readAs .generation a 1024 s
    let q := kvReadRuns t r.2.2
    ((match r.2.1 with | some x => some x | none => q.1), q.2)

/-- Moves the mover's head action on, or takes it off when it is done. -/
def kvSet (a : Option KvAct) (s : State) : State :=
  touch pgGEN (modGen (fun g => { g with mover := (match a with | some x => [x] | none => []) ++ g.mover.drop 1 }) s)

/-- One half of a KV_LOAD: waits for a free half and for its pages' memory, writes it and signals (R344). Each half holds
NB_TOK positions, a head's last one too: those at or beyond CTX are zeros. -/
def effKvLoad (a : KvAct) (p : GenPlan) (s : State) : State :=
  let ctx := p.pos + p.nrows
  let who := SemWho.kv a.core 0
  let t := if semGranted s who || semWaiting s who then s else semWait a.sem true 1 who s
  if !semGranted t who then t
  else
    let tiles := (List.range (a.nbTok / 32)).map (a.tok / 32 + ·)
    let dims := List.range (s.gen.headDim / 32)
    let pages := (List.range (ceilDiv (min a.nbTok (ctx - a.tok)) 16)).map (a.tok / 16 + ·)
    let runs := pages.flatMap (fun pg => dims.map (fun b => kvRun s p.slot a.layer pg a.values a.head b))
    let blocks := if a.values then dims.flatMap (fun b => tiles.map (fun x => (b, x)))
      else tiles.flatMap (fun x => dims.map (fun b => (b, x)))
    if !runs.all (fun x => canUse t .generation x 1024) then t
    else
    let r := kvReadRuns runs (semTake who t)
    match r.1 with
    | some _ => abortStep a.action stABORT_POISON r.2
    | none =>
      let bytes := blocks.flatMap (fun e => (kvBlock r.2 p.slot a.layer a.values a.head e.1 e.2 ctx).map (fun o =>
        match o with | some x => getByte r.2 x | none => 0))
      let u := semSignal a.sem false 1 (portWrite pgGEN (pgTC a.core) 0 a.hs 0 bytes r.2)
      let tok := a.tok + a.nbTok
      if tok < ctx then kvSet (some { a with tok := tok, hs := !a.hs }) u
      else if a.head + 1 < s.gen.kvHeads then kvSet (some { a with head := a.head + 1, tok := 0, hs := !a.hs }) u
      else kvSet none u

/-- KV_LOAD (R344): the mover's head action, one half at a time. -/
def execKvLoad (s : State) : Host.Outcome State Fault Refusal :=
  settle s (match s.gen.mover with
    | a :: _ =>
      (match a.slot.bind (fun n => s.gen.plan.find? (fun p => decide (p.slot = n))) with
       | some p => if a.load && pageOn s pgGEN && pageOn s (pgTC a.core) then effKvLoad a p s else s
       | none => if a.load then kvSet none s else s)
    | [] => s)

/-- The rows a KV_STORE covers: of its slot, or of the step, each with its slot and position. -/
def kvRows (s : State) (a : KvAct) : List (Nat × Nat) :=
  (s.gen.plan.filter (fun p => match a.slot with | some n => decide (p.slot = n) | none => true)).flatMap (fun p =>
    (List.range p.nrows).map (fun i => (p.slot, p.pos + i)))

/-- Writes one row: keys of heads 0 on, then values, 32 dimensions at a time for keys and one at a time for values. -/
def kvWriteRow (layer : Nat) (slot pos : Nat) (row : List Byte) (s : State) : State :=
  let hd := s.gen.headDim
  let hs := s.gen.kvHeads
  let t := (List.range (hs * (hd / 32))).foldl (fun t i =>
    let run := kvRun t slot layer (pos / 16) false (i / (hd / 32)) (i % (hd / 32))
    storeAs .generation (run + pos % 16 * 64) ((row.drop (i * 64)).take 64) t) s
  (List.range (hs * hd)).foldl (fun t i =>
    let run := kvRun t slot layer (pos / 16) true (i / hd) (i % hd / 32)
    storeAs .generation (run + i % 32 * 32 + pos % 16 * 2) ((row.drop (hs * hd * 2 + i * 2)).take 2) t) t

/-- One output block of a KV_STORE: waits for a full half, writes its rows and releases it. A block read from a fenced core is
poisoned (R629). -/
def effKvStore (a : KvAct) (s : State) : State :=
  let who := SemWho.kv a.core 2
  let t := if semGranted s who || semWaiting s who then s else semWait a.sem false 1 who s
  if !semGranted t who then t
  else if fenceBit t (pgTC a.core) then abortStep a.action stABORT_POISON (semTake who t)
  else
    let w := 2 * s.gen.kvHeads * s.gen.headDim * 2
    let e := endpointOf t (pgTC a.core) 2
    let n := e.lens.get 0 (b2n a.hs) / w
    let rows := ((kvRows s a).drop a.rows).take n
    if !rows.all (fun x => canUse t .generation (kvRun t x.1 a.layer (x.2 / 16) false 0 0) (pageBytes t)) then t
    else
    let bytes := portBytes t (pgTC a.core) 2 a.hs 0 (n * w)
    let u := (rows.zipIdx).foldl (fun t x => kvWriteRow a.layer x.1.1 x.1.2 ((bytes.drop (x.2 * w)).take w) t) (semTake who t)
    let u := semSignal a.sem true 1 u
    let k := a.rows + max 1 n
    if k < (kvRows s a).length then kvSet (some { a with rows := k, hs := !a.hs }) u else kvSet none u

/-- KV_STORE (R344): the mover's head action, one output block at a time. -/
def execKvStore (s : State) : Host.Outcome State Fault Refusal :=
  settle s (match s.gen.mover with
    | a :: _ => if !a.load && pageOn s pgGEN && pageOn s (pgTC a.core) then effKvStore a s else s
    | [] => s)

/-! ### The sampler (R349, R350) -/

def rotl32 (x : Word) (n : Nat) : Word := x.rotateLeft n

/-- The generator's ten rounds from round `r`. -/
def vgenRounds (k0 k1 : Word) : Nat → Nat → Word → Word → Word → Word → Word × Word × Word × Word
  | 0, _, x0, x1, x2, x3 => (x0, x1, x2, x3)
  | n + 1, r, x0, x1, x2, x3 =>
    let x0 := x0 + x1
    let x3 := rotl32 (x3 ^^^ x0) 16
    let x2 := x2 + x3
    let x1 := rotl32 (x1 ^^^ x2) 12
    let x0 := x0 + x1
    let x3 := rotl32 (x3 ^^^ x0) 8
    let x2 := x2 + x3
    let x1 := rotl32 (x1 ^^^ x2) 7
    vgenRounds k0 k1 n (r + 1) (x0 + k0) (x1 + k1) (x2 + BitVec.ofNat 32 (r + 1)) x3

/-- The generator (R350). -/
def vgen (seed ctr : Nat) : Nat :=
  let k0 := BitVec.ofNat 32 seed
  let k1 := BitVec.ofNat 32 (seed / 2 ^ 32)
  let r := vgenRounds k0 k1 10 0 (BitVec.ofNat 32 ctr) (BitVec.ofNat 32 (ctr / 2 ^ 32)) k0 (k1 ^^^ 0x6A09E667)
  (r.2.1 ^^^ r.2.2.2).toNat * 2 ^ 32 + (r.1 ^^^ r.2.2.1).toNat

/-- The draw U of a counter. -/
def draw (seed ctr : Nat) : Nat := Fp.ofScaled (bitsOf (vgen seed (ctr % 2 ^ 64)) 63 40 : Nat) (-24)

/-- E(z) for z ≤ 0 (R349). [DESIGN CHOICE, log entry 120] -/
def sampE (z : Nat) : Nat :=
  if Fp.isNan z then Config.sampleE z
  else if Fp.lt z 0xC2FC0000 then 0
  else
    let n := (Fp.toIntFloor z).getD 0
    let f := Fp.sub z (Fp.ofInt n)
    let h (p c : Nat) : Nat := Fp.add (Fp.mul p f) c
    let p := h (h (h (h (h 0x3AAEC3FC 0x3C1D955C) 0x3D635847) 0x3E75FDF0) 0x3F317218) 0x3F800000
    Fp.flush (match Fp.dec32 p with | .fin s m e => Fp.enc32 (.fin s m (e + n)) | v => Fp.enc32 v)

/-- The running sums of weights. -/
def runSums : Nat → List Nat → List Nat
  | _, [] => []
  | s, w :: t => let s' := Fp.add s w; s' :: runSums s' t

/-- The token chosen from a row's candidates for the token emitted at position `q`. -/
def sampleRow (j : Job) (vocab q : Nat) (vals idxs : List Nat) : Nat :=
  let v := vals.map (fun x => Fp.mul x (seqRTemp j))
  if seqMode j = 0 then idxs.headD 0
  else
    let k := min (seqTopK j) vocab
    let v0 := v.headD 0
    let w := (v.take k).map (fun x => sampE (Fp.mul (Fp.sub x v0) 0x3FB8AA3B))
    let ss := runSums 0 w
    let lim := Fp.mul (seqTopP j) (ss.getD (k - 1) 0)
    let jj := ((List.range k).find? (fun i => Fp.le lim (ss.getD i 0))).getD (k - 1)
    let t := Fp.mul (draw (seqSeed j) (seqCtr0 j + q)) (ss.getD jj 0)
    let i := ((List.range (jj + 1)).find? (fun i => Fp.lt t (ss.getD i 0))).getD jj
    idxs.getD i 0

/-- TOKEN, posted whatever `PG_EVT_EN` holds with FLAGS.NOTIFY (R351). -/
def raiseToken (notify : Bool) (detail : Nat) (s : State) : State :=
  let t := raise pgGEN 0x100 sevINFO detail s
  if notify && !evtEnabled s pgGEN (some 16) then postTo (owner s pgGEN) pgGEN 0x100 sevINFO detail t else t

/-- Emits a slot's sampled tokens in order until one ends the sequence or is not confirmed (R333, R347, R351): the outputs,
the drafts still to compare, the drafts confirmed so far. -/
def emitTokens (n : Nat) (j : Job) : List Nat → List Nat → Nat → State → Nat × State
  | [], _, acc, s => (acc, s)
  | o :: os, ds, acc, s =>
    let v := slotOf s n
    let q := v.next
    let conf := match ds with | d :: _ => decide (d = o) | [] => false
    let reason := if (List.range 4).any (fun i => decide (seqEos j i ≠ 0xFFFFFFFF) && decide (seqEos j i = o)) then 1
      else if v.emitted + 1 = seqMaxNew j then 2 else if q = 32767 then 3 else 0
    let t := storeAs .generation (seqOut j + 4 * v.emitted) (leBytes 4 o) s
    let t := modSlot n (fun v => { v with emitted := v.emitted + 1, pend := o, ending := reason })
      (incCnt pgGEN (0x104 + 0x10 * n) 1 (incCnt pgGEN 0x090 1 t))
    let t := raiseToken j.notify
      (o % 2 ^ 18 + n * 2 ^ 18 + b2n (decide (reason ≠ 0)) * 2 ^ 22 + b2n conf * 2 ^ 23 + q % 256 * 2 ^ 24) t
    let acc := acc + b2n conf
    if reason ≠ 0 ∨ conf = false then (acc, t)
    else emitTokens n j os (ds.drop 1) acc (modSlot n (fun v => { v with next := v.next + 1 }) t)

/-- One slot's part of a sampled step: its position moves on past its first rows, its tokens are emitted, its drafts judged. -/
def sampleSlot (rows : Nat → List Nat × List Nat) (p : GenPlan) (s : State) : State :=
  let v := slotOf s p.slot
  match v.job with
  | none => s
  | some j =>
    let q0 := p.pos + (p.nrows - p.drafts.length)
    let outs := (List.range p.ns).map (fun i => let c := rows (p.srow0 + i); sampleRow j s.gen.vocab (q0 + i) c.1 c.2)
    let t := modSlot p.slot (fun v => { v with next := q0 }) s
    let e := emitTokens p.slot j outs p.drafts 0 t
    if p.drafts = [] then e.2
    else
      let rej := p.drafts.length - e.1
      let t := if e.1 = 0 then e.2 else incCnt pgGEN 0x094 e.1 e.2
      let t := if rej = 0 then t else incCnt pgGEN 0x098 rej t
      raise pgGEN 0x102 sevINFO (p.slot + p.drafts.length * 16 + e.1 * 256) t

/-- The output arrays of the step's slots are ready for the tokens a step may emit. -/
def outsReady (s : State) : Bool :=
  s.gen.plan.all (fun p => match (slotOf s p.slot).job with
    | some j =>
      let n := (slotOf s p.slot).emitted
      decide (p.ns = 0) || canUse s .generation (seqOut j + 4 * n) (4 * min p.ns (seqMaxNew j - n))
    | none => true)

/-- SAMPLE_TOKEN (R349): the step's candidate half arrives; every sampled row's token is chosen, written and raised. -/
def effSample (s : State) : State :=
  let who := SemWho.sampler
  let t := if semGranted s who || semWaiting s who then s else semWait s.gen.semCand false 1 who s
  if !semGranted t who || !outsReady t then t
  else
    let b := portBytes t pgGEN 0 false 0 8192
    let rows : Nat → List Nat × List Nat := fun r =>
      ((List.range 64).map (fun i => leAt b (512 * r + 8 * i) 4), (List.range 64).map (fun i => leAt b (512 * r + 8 * i + 4) 4))
    let u := (s.gen.plan.filter (fun p => decide (p.ns ≠ 0))).foldl (fun t p => sampleSlot rows p t) (semTake who t)
    touch pgGEN (semSignal s.gen.semCand true 1 (modGen (fun g => { g with sampled := true }) u))

/-- SAMPLE_TOKEN (R349). -/
def execSampleToken (s : State) : Host.Outcome State Fault Refusal :=
  settle s (if s.gen.step && !s.gen.sampled && pageOn s pgGEN && s.gen.plan.any (fun p => decide (p.ns ≠ 0)) then effSample s else s)

/-! ### The end of a step (R339) -/

/-- A slot's prompt rows are fed; a slot that sampled has moved on already. -/
def feedSlot (p : GenPlan) (s : State) : State :=
  let v := slotOf s p.slot
  let t := if promptLeft v = 0 then s
    else modSlot p.slot (fun v => { v with fed := v.fed + p.nrows, next := if p.ns = 0 then v.next + p.nrows else v.next }) s
  let w := slotOf t p.slot
  if w.ending ≠ 0 then endSequence p.slot w.ending t else t

/-- STEP_END (R339). -/
def effStepEnd (s : State) : State :=
  let rows := (s.gen.plan.map (·.nrows)).sum
  let srows := (s.gen.plan.map (·.ns)).sum
  let us := satN 17 ((now s - s.gen.startAt) / 1000)
  let t := s.gen.plan.foldl (fun t p => feedSlot p t) s
  let t := incCnt pgGEN 0x08C 1 (wrN pgGEN 0x09C (rows % 1024 + srows * 1024 + us * 32768) t)
  touch pgGEN (modGen (fun g => { g with step := false, plan := [], retryAt := 0 }) t)

/-- STEP_END (R339): every delivered job has completed, the mover is done, every candidate has arrived. -/
def execStepEnd (s : State) : Host.Outcome State Fault Refusal :=
  settle s (if s.gen.step && decide (s.gen.nextAct = s.gen.actionCount) && s.gen.sent.isEmpty && s.gen.mover.isEmpty
      && (s.gen.sampled || s.gen.plan.all (fun p => decide (p.ns = 0))) && pageOn s pgGEN
    then effStepEnd s else s)

/-! ### What the page shows (R353) -/

/-- What is left of the running step is its sampling: every action delivered and done, and a row sampled. -/
def sampling (s : State) : Bool :=
  decide (s.gen.nextAct = s.gen.actionCount) && s.gen.sent.isEmpty && s.gen.mover.isEmpty
    && s.gen.plan.any (fun p => decide (p.ns ≠ 0))

/-- The STATE of the sequencer: 0 unbound, 1 binding, 2 idle, 3 planning, 4 step running, 5 sampling. -/
def genStateOf (s : State) : Nat :=
  if (bindingJob s).isSome then 1
  else if !s.gen.bound then 0
  else if s.gen.step then (if sampling s then 5 else 4)
  else if planningDue s then 3
  else 2

/-- `GEN_STATE`: STATE; BOUND; ACTIVE. -/
def genStateWord (s : State) : Nat :=
  let act := s.gen.slots.foldl (fun m e => m + (if e.2.st = 1 then 2 ^ e.1 else 0)) 0
  genStateOf s + 256 * b2n s.gen.bound + act * 65536

/-- `GEN_SLOTs_STATE`. -/
def genSlotWord (s : State) (n : Nat) : Nat :=
  let v := slotOf s n
  v.st + 4 * b2n (decide (promptLeft v ≠ 0)) + v.owner * 256 + v.next % 65536 * 65536

end Sys2Proof.Machine
end

