-- ==== Sys2Proof/Machine/GoshawkMath.lean ====
section
/-!
DEFINITION. The arithmetic of Goshawk on plain data (chapter 15): FP32 pairs, quaternions, the residuals and Jacobians of the
three kinds, assembly, the LDLᵀ factorisation with its pivot test, the Schur step, refinement, and the damped loop.
-/
namespace Sys2Proof.Machine

/-! ### Pairs (R472) -/

/-- A pair (hi, lo) of FP32 words standing for their sum. -/
abbrev P2 := Nat × Nat

/-- TwoSum: the sum and its error. -/
def twoSum (a b : Nat) : P2 :=
  let s := fa a b
  let b' := fs s a
  (s, fa (fs a (fs s b')) (fs b b'))

def renorm (hi lo : Nat) : P2 :=
  let s := fa hi lo
  (s, fs lo (fs s hi))

def padd (a b : P2) : P2 :=
  let s := twoSum a.1 b.1
  renorm s.1 (fa (fa s.2 a.2) b.2)

/-- Dekker's split with the constant 4,097. -/
def split (a : Nat) : P2 :=
  let c := fm 0x45800800 a
  let hi := fs c (fs c a)
  (hi, fs a hi)

def pmul (a b : P2) : P2 :=
  let p := fm a.1 b.1
  let x := split a.1
  let y := split b.1
  let e := fa (fa (fa (fs (fm x.1 y.1) p) (fm x.1 y.2)) (fm x.2 y.1)) (fm x.2 y.2)
  renorm p (fa e (fa (fm a.1 b.2) (fm a.2 b.1)))

def pneg (a : P2) : P2 := (Fp.neg a.1, Fp.neg a.2)
def psub (a b : P2) : P2 := padd a (pneg b)
/-- A pair rounded to FP32. -/
def pround (a : P2) : Nat := fa a.1 a.2
def plt (a b : P2) : Bool := Fp.lt a.1 b.1 || (Fp.eq a.1 b.1 && Fp.lt a.2 b.2)
def pzero : P2 := (0, 0)

/-- Sparse values by index. -/
def pget (m : SMap P2) (k : Nat) : P2 := m.get pzero k
def padAt (k : Nat) (v : P2) (m : SMap P2) : SMap P2 := m.put pzero k (padd (pget m k) v)

/-! ### Rotations (R468) -/

/-- A quaternion (w, x, y, z) and a 3-vector, as lists of words. -/
def el (l : List Nat) (i : Nat) : Nat := l.getD i 0

def norm3 (v : List Nat) : Nat := Fix.sqrtFp (fa (fa (fm (el v 0) (el v 0)) (fm (el v 1) (el v 1))) (fm (el v 2) (el v 2)))

def quatUnit (q : List Nat) : List Nat :=
  let n := Fix.sqrtFp (fa (fa (fa (fm (el q 0) (el q 0)) (fm (el q 1) (el q 1))) (fm (el q 2) (el q 2))) (fm (el q 3) (el q 3)))
  q.map (fun x => fd x n)

def quatMul (a b : List Nat) : List Nat :=
  let m (i k : Nat) : Nat := fm (el a i) (el b k)
  [fs (fs (fs (m 0 0) (m 1 1)) (m 2 2)) (m 3 3), fs (fa (fa (m 0 1) (m 1 0)) (m 2 3)) (m 3 2),
   fa (fa (fs (m 0 2) (m 1 3)) (m 2 0)) (m 3 1), fa (fs (fa (m 0 3) (m 1 2)) (m 2 1)) (m 3 0)]

def quatConj (q : List Nat) : List Nat := [el q 0, Fp.neg (el q 1), Fp.neg (el q 2), Fp.neg (el q 3)]

/-- The rotation matrix of a unit quaternion, row-major. -/
def quatMat (q : List Nat) : List Nat :=
  let m (i k : Nat) : Nat := fm (el q i) (el q k)
  let dg (a b : Nat) : Nat := fs Fp.one (fm f2 (fa a b))
  let tw (a : Nat) : Nat := fm f2 a
  [dg (m 2 2) (m 3 3), tw (fs (m 1 2) (m 0 3)), tw (fa (m 1 3) (m 0 2)),
   tw (fa (m 1 2) (m 0 3)), dg (m 1 1) (m 3 3), tw (fs (m 2 3) (m 0 1)),
   tw (fs (m 1 3) (m 0 2)), tw (fa (m 2 3) (m 0 1)), dg (m 1 1) (m 2 2)]

def dot3 (a b c x y z : Nat) : Nat := fa (fa (fm a x) (fm b y)) (fm c z)

/-- R·v and Rᵀ·v. -/
def matVec (r v : List Nat) : List Nat :=
  (List.range 3).map (fun i => dot3 (el r (3 * i)) (el r (3 * i + 1)) (el r (3 * i + 2)) (el v 0) (el v 1) (el v 2))
def matTVec (r v : List Nat) : List Nat :=
  (List.range 3).map (fun i => dot3 (el r i) (el r (3 + i)) (el r (6 + i)) (el v 0) (el v 1) (el v 2))
/-- A·B, row-major. -/
def matMul (a b : List Nat) : List Nat :=
  (List.range 9).map (fun k => dot3 (el a (k / 3 * 3)) (el a (k / 3 * 3 + 1)) (el a (k / 3 * 3 + 2)) (el b (k % 3)) (el b (3 + k % 3)) (el b (6 + k % 3)))
def matT (a : List Nat) : List Nat := [el a 0, el a 3, el a 6, el a 1, el a 4, el a 7, el a 2, el a 5, el a 8]
def vecAdd (a b : List Nat) : List Nat := List.zipWith fa a b
def vecSub (a b : List Nat) : List Nat := List.zipWith fs a b

def f2m12 : Nat := 0x39800000

def quatExp (v : List Nat) : List Nat :=
  let th := norm3 v
  if Fp.lt th f2m12 then Fp.one :: v.map (fun x => fm x f05)
  else
    let h := fm th f05
    let s := Fix.sinFp h
    Fix.cosFp h :: v.map (fun x => fd (fm s x) th)

def quatLog (q : List Nat) : List Nat :=
  let q := if Fp.lt (el q 0) 0 then q.map Fp.neg else q
  let v := q.drop 1
  let n := norm3 v
  let th := fm f2 (Fix.atan2Fp n (el q 0))
  if Fp.lt th f2m12 then v.map (fun x => fm x f2) else v.map (fun x => fd (fm th x) n)

/-! ### Problems (R464, R485) -/

def GshProb.none : GshProb := ⟨0, [], [], [], [], [], [], []⟩

def isFixed (w : Nat) : Bool := bitOf w 0
/-- The rank of each free entry among the free ones, by index. -/
def freeRanks : List Bool → Nat → List (Option Nat)
  | [], _ => []
  | true :: t, n => none :: freeRanks t n
  | false :: t, n => some n :: freeRanks t (n + 1)

def poseRanks (p : GshProb) : List (Option Nat) := freeRanks (p.poses.map (fun x => isFixed (el x 7))) 0
def lmRanks (p : GshProb) : List (Option Nat) := freeRanks (p.lms.map (fun x => isFixed (el x 3))) 0
def freeCountOf (l : List (Option Nat)) : Nat := (l.filter (·.isSome)).length

/-- U_P, or N of a DENSE_LS. -/
def gshUP (p : GshProb) : Nat := if p.kind = 1 then p.xs.length else 6 * freeCountOf (poseRanks p)
def gshUL (p : GshProb) : Nat := if p.kind = 2 then freeCountOf (lmRanks p) else 0

/-- An observation's fields. -/
def obsLm (o : List Nat) : Nat := bitsOf (el o 0) 16 0
def obsPose (o : List Nat) : Nat := bitsOf (el o 0) 26 17
def obsCam (o : List Nat) : Nat := bitsOf (el o 0) 29 27
def obsActive (o : List Nat) : Bool := bitOf (el o 0) 31
/-- An edge's fields: I, J, ACTIVE, quaternion, translation, Ω. -/
def edgeI (e : List Nat) : Nat := bitsOf (el e 0) 15 0
def edgeJ (e : List Nat) : Nat := bitsOf (el e 0) 31 16
def edgeActive (e : List Nat) : Bool := bitOf (el e 1) 0

/-- An edge with its quaternion divided by its norm. An inactive edge whose quaternion has no such quotient keeps it, so that a
problem which EXPORT writes is one that HOST reads (R476). -/
def edgeUnit (e : List Nat) : List Nat :=
  let q := quatUnit ((e.drop 2).take 4)
  if edgeActive e || q.all Fp.isFinite then e.take 2 ++ q ++ e.drop 6 else e

/-- Every quaternion divided by its norm, as at load. [DEDUCED, log entry 157] -/
def gshNormalise (p : GshProb) : GshProb :=
  { p with poses := p.poses.map (fun x => quatUnit (x.take 4) ++ x.drop 4), edges := p.edges.map edgeUnit }

/-! ### Residuals (R465 to R467, R469) -/

/-- One term of F: excluded, its w × ρ, and its components: weight of assembly, residual, Jacobian by unknown. -/
structure Term where
  excl : Bool
  rho : P2
  comps : List (Nat × P2 × List (Nat × Nat))
deriving DecidableEq, Repr

/-- w × ρ(n) and the assembly weight of a residual of norm `n` and squared norm `n2`. -/
def huber (d w n : Nat) (n2 : P2) : P2 × Nat :=
  if Fp.eq d 0 || Fp.le n d then (pmul (w, 0) n2, w)
  else (pmul (w, 0) (psub (pmul (fm f2 d, 0) (n, 0)) (pmul (d, 0) (d, 0))), fm w (fd d n))

def sqSum (l : List (Nat × Nat)) : P2 := l.foldl (fun a x => padd a (pmul (x.1, 0) (pmul (x.2, 0) (x.2, 0)))) pzero

/-- A row of a DENSE_LS; its residual is accumulated in pairs (R465, R473). -/
def denseTerm (d : Nat) (xs row : List Nat) : Term :=
  let a := row.drop 2
  let r := psub ((List.zipWith (fun x y => pmul (x, 0) (y, 0)) a xs).foldl padd pzero) (el row 0, 0)
  let h := huber d (el row 1) (Fp.abs (pround r)) (pmul r r)
  ⟨false, h.1, [(h.2, r, a.zipIdx.map (fun x => (x.2, x.1)))]⟩

/-- [DEDUCED, log entry 156] -/
def baTerm (d : Nat) (p : GshProb) (pr lr : List (Option Nat)) (up : Nat) (o : List Nat) : Term :=
  let ps := p.poses.getD (obsPose o) []
  let x := p.lms.getD (obsLm o) []
  let cam := p.cams.getD (obsCam o) []
  let r := quatMat (ps.take 4)
  let xc := vecAdd (matVec r (x.take 3)) ((ps.drop 4).take 3)
  let z := el xc 2
  if Fp.lt z f001 then ⟨true, pzero, []⟩
  else
    let e0 := fs (fa (fd (fm (el cam 0) (el xc 0)) z) (el cam 2)) (el o 1)
    let e1 := fs (fa (fd (fm (el cam 1) (el xc 1)) z) (el cam 3)) (el o 2)
    let n := Fix.sqrtFp (fa (fm e0 e0) (fm e1 e1))
    let h := huber d (el o 3) n (sqSum [(Fp.one, e0), (Fp.one, e1)])
    let z2 := fm z z
    let rows := [[fd (el cam 0) z, 0, Fp.neg (fd (fm (el cam 0) (el xc 0)) z2)],
                 [0, fd (el cam 1) z, Fp.neg (fd (fm (el cam 1) (el xc 1)) z2)]]
    let skew := [0, z, Fp.neg (el xc 1), Fp.neg z, 0, el xc 0, el xc 1, Fp.neg (el xc 0), 0]
    let jac (g : List Nat) : List (Nat × Nat) :=
      (match pr.getD (obsPose o) none with
        | some k => (g ++ matTVec skew g).zipIdx.map (fun v => (6 * k + v.2, v.1))
        | none => []) ++
      (match lr.getD (obsLm o) none with
        | some k => (matTVec r g).zipIdx.map (fun v => (up + 3 * k + v.2, v.1))
        | none => [])
    ⟨false, h.1, List.zipWith (fun e g => (h.2, (e, 0), jac g)) [e0, e1] rows⟩

/-- [DEDUCED, log entry 156] -/
def edgeTerm (d : Nat) (p : GshProb) (pr : List (Option Nat)) (e : List Nat) : Term :=
  let a := p.poses.getD (edgeI e) []
  let b := p.poses.getD (edgeJ e) []
  let qz := (e.drop 2).take 4
  let tz := (e.drop 6).take 3
  let om := (e.drop 9).take 6
  let ta := (a.drop 4).take 3
  let tb := (b.drop 4).take 3
  let te := matTVec (quatMat qz) (vecSub (matTVec (quatMat (a.take 4)) (vecSub tb ta)) tz)
  let qe := quatMul (quatConj qz) (quatMul (quatConj (a.take 4)) (b.take 4))
  let er := te ++ quatLog qe
  let n := Fix.sqrtFp (sumOf (List.zipWith (fun o x => fm o (fm x x)) om er))
  let h := huber d Fp.one n (sqSum (om.zip er))
  let rb := quatMat (b.take 4)
  let rr := matMul (matT rb) (quatMat (a.take 4))
  let t := matTVec rb (vecSub ta tb)
  let sk := [0, Fp.neg (el t 2), el t 1, el t 2, 0, Fp.neg (el t 0), Fp.neg (el t 1), el t 0, 0]
  let tr := matMul sk rr
  let adRow (k : Nat) : List Nat :=
    if k < 3 then (rr.drop (3 * k)).take 3 ++ (tr.drop (3 * k)).take 3 else [0, 0, 0] ++ (rr.drop (3 * (k - 3))).take 3
  let jac (k : Nat) : List (Nat × Nat) :=
    (match pr.getD (edgeI e) none with
      | some i => (adRow k).zipIdx.map (fun v => (6 * i + v.2, Fp.neg v.1))
      | none => []) ++
    (match pr.getD (edgeJ e) none with
      | some i => [(6 * i + k, Fp.one)]
      | none => [])
  ⟨false, h.1, er.zipIdx.map (fun x => (fm (el om x.2) h.2, (x.1, 0), jac x.2))⟩

/-- The terms of F at a point, in ascending order. -/
def gshTerms (d : Nat) (p : GshProb) : List Term :=
  if p.kind = 1 then p.rows.map (denseTerm d p.xs)
  else if p.kind = 2 then (p.obs.filter obsActive).map (baTerm d p (poseRanks p) (lmRanks p) (gshUP p))
  else (p.edges.filter edgeActive).map (edgeTerm d p (poseRanks p))

def sumF (l : List Term) : P2 := l.foldl (fun a t => padd a t.rho) pzero

/-! ### Assembly (R473) -/

/-- Key of entry (r, c), r ≥ c, of the normal matrix. -/
def hKey (r c : Nat) : Nat := if c ≤ r then r * 2 ^ 24 + c else c * 2 ^ 24 + r

/-- An assembled point: F, g, H, the exclusions. -/
structure Asm where
  f : P2
  g : SMap P2
  h : SMap P2
  excl : List Bool
deriving DecidableEq, Repr

/-- Adds one component of a term. -/
def addComp (a : SMap P2 × SMap P2) (c : Nat × P2 × List (Nat × Nat)) : SMap P2 × SMap P2 :=
  c.2.2.foldl (fun a j =>
    let wj := (fm c.1 j.2, 0)
    (padAt j.1 (pmul wj c.2.1) a.1,
     c.2.2.foldl (fun h k => if k.1 ≤ j.1 then padAt (hKey j.1 k.1) (pmul wj (k.2, 0)) h else h) a.2)) a

def assemble (d : Nat) (p : GshProb) : Asm :=
  let ts := gshTerms d p
  let gh := ts.foldl (fun a t => t.comps.foldl addComp a) (([], []) : SMap P2 × SMap P2)
  ⟨sumF ts, gh.1, gh.2, ts.map (·.excl)⟩

/-! ### Factorisation (R474) -/

/-- Parameters of a solve. -/
structure GshPar where
  iterMax : Nat
  refineMax : Nat
  tolF : Nat
  tolG : Nat
  eps : Nat
  lam : Nat
  mu0 : Nat
  huber : Nat
deriving DecidableEq, Repr

/-- A factor: rows of L below the diagonal, D, flagged pivots with the change each made to its diagonal entry, and the first
unknown whose d is not finite. -/
structure Fac where
  l : Array (Array Nat)
  d : Array Nat
  piv : List Pivot
  fix : List (Nat × Nat)
  bad : Option Nat
deriving DecidableEq, Repr

def pow2 (k : Int) : Nat := Fp.ofScaled 1 k

/-- Adds row `i` (entries a_i0 … a_ii) to a factor, which ends at a non-finite d (R474). -/
def facRow (eps lam base : Nat) (maxDiag : Nat) (f : Fac) (a : Array Nat) : Fac :=
  let i := f.d.size
  let li := (List.range i).foldl (fun (li : Array Nat) j =>
    let lj := f.l.getD j #[]
    let s := (List.range j).foldl (fun s k => fa s (fm (fm (li.getD k 0) (lj.getD k 0)) (f.d.getD k 0))) 0
    li.push (fd (fs (a.getD j 0) s) (f.d.getD j 0))) #[]
  let s := (List.range i).foldl (fun s k => fa s (fm (fm (li.getD k 0) (li.getD k 0)) (f.d.getD k 0))) 0
  let d := fs (a.getD i 0) s
  if f.bad.isSome then f
  else if !Fp.isFinite d then { f with bad := some (base + i) }
  else if Fp.lt d (fm (pow2 (-(eps : Int))) maxDiag) then
    let r := fa (Fp.max d 0) (fm (pow2 (-(lam : Int))) maxDiag)
    { f with l := f.l.push li, d := f.d.push r, piv := f.piv ++ [⟨base + i, Fp.le d 0, d⟩], fix := f.fix ++ [(i, fs r d)] }
  else { f with l := f.l.push li, d := f.d.push d }

/-- Nothing factorised, with the unknown at which an earlier block ended the solve. -/
def Fac.none (bad : Option Nat) : Fac := ⟨#[], #[], [], [], bad⟩

/-- Factorises the FP32 matrix whose lower rows are given; `base` is the global index of its first unknown. -/
def factorise (eps lam base : Nat) (rows : List (Array Nat)) : Fac :=
  let m := rows.zipIdx.foldl (fun m r => let x := r.1.getD r.2 0; if Fp.lt m x then x else m) ((rows.headD #[]).getD 0 0)
  let m := if Fp.lt 0 m then m else Fp.one
  rows.foldl (facRow eps lam base m) (Fac.none none)

/-- Solves with a factor: forward, by D, back. -/
def facSolve (f : Fac) (b : List Nat) : List Nat :=
  let n := f.d.size
  let y := (b.zipIdx).foldl (fun (y : Array Nat) x =>
    let li := f.l.getD x.2 #[]
    y.push (fs x.1 ((List.range x.2).foldl (fun s k => fa s (fm (li.getD k 0) (y.getD k 0))) 0))) #[]
  let z := (List.range n).map (fun i => fd (y.getD i 0) (f.d.getD i 0))
  let x := (List.range n).foldl (fun (x : Array Nat) t =>
    let i := n - 1 - t
    let s := (List.range (n - 1 - i)).foldl (fun s k => let r := i + 1 + k; fa s (fm ((f.l.getD r #[]).getD i 0) (x.getD r 0))) 0
    x.setIfInBounds i (fs (z.getD i 0) s)) (Array.replicate n 0)
  x.toList

/-! ### One damped solve (R470 step 5, R473, R475) -/

/-- What a solve gives: the step in FP32, the landmarks eliminated and their flagged pivots, the columns factorised and theirs,
refinement steps, REFINE_CAP, the unknown with a non-finite d. -/
structure Step where
  delta : List Nat
  lms : Nat
  pivL : List Pivot
  cols : Nat
  pivC : List Pivot
  steps : Nat
  cap : Bool
  bad : Option Nat
deriving DecidableEq, Repr

def infNorm (l : List Nat) : Nat := l.foldl (fun m x => if Fp.lt m (Fp.abs x) then Fp.abs x else m) 0

/-- Refinement: up to `n` steps; the pair solution, the steps made, whether the last met the test. -/
def refine (f : Fac) (a : Nat → Nat → P2) (rhs : List P2) : Nat → List P2 → Nat → List P2 × Nat × Bool
  | 0, x, k => (x, k, false)
  | n + 1, x, k =>
    let s := rhs.zipIdx.map (fun b => psub b.1 (x.zipIdx.foldl (fun acc v => padd acc (pmul (a b.2 v.2) v.1)) pzero))
    let c := facSolve f (s.map pround)
    let x' := List.zipWith (fun v w => padd v (w, 0)) x c
    if Fp.le (infNorm c) (fm 0x33800000 (infNorm (x'.map (·.1)))) then (x', k + 1, true)
    else refine f a rhs n x' (k + 1)

/-- The damped entry (r, c). -/
def damped (h : SMap P2) (mu : Nat) (r c : Nat) : P2 :=
  let v := pget h (hKey r c)
  if r = c then padd v (pmul (mu, 0) v) else v

/-- Eliminates one free landmark whose unknowns start at `b`: its factor, put before the earlier ones, and the reduced matrix and
gradient (R473). A non-finite d ends the solve there (R474). -/
def schurStep (par : GshPar) (h g : SMap P2) (mu up : Nat) (acc : SMap P2 × SMap P2 × List Fac) (j : Nat) :
    SMap P2 × SMap P2 × List Fac :=
  let b := up + 3 * j
  let f := factorise par.eps par.lam b
    ((List.range 3).map (fun r => ((List.range (r + 1)).map (fun c => pround (damped h mu (b + r) (b + c)))).toArray))
  if ((acc.2.2.head?).bind (·.bad)).isSome then acc
  else if f.bad.isSome then (acc.1, acc.2.1, f :: acc.2.2)
  else
  let w (p : Nat) : List P2 := (List.range 3).map (fun c => pget h (hKey (b + c) p))
  let ps := (List.range up).filter (fun p => (w p).any (fun x => decide (x ≠ pzero)))
  let y := ps.map (fun p => (p, w p, facSolve f ((w p).map pround)))
  let gy := facSolve f ((List.range 3).map (fun c => pround (pget g (b + c))))
  let dotp (u : List P2) (v : List Nat) : P2 := (List.zipWith (fun a x => pmul a (x, 0)) u v).foldl padd pzero
  let s := y.foldl (fun s p => y.foldl (fun s q => if q.1 ≤ p.1 then padAt (hKey p.1 q.1) (pneg (dotp p.2.1 q.2.2)) s else s) s) acc.1
  let gr := y.foldl (fun m p => padAt p.1 (pneg (dotp p.2.1 gy)) m) acc.2.1
  (s, gr, f :: acc.2.2)

/-- The damped solve of the whole system: `up` pose unknowns (or all of them) and `nl` free landmarks. -/
def solveStep (par : GshPar) (a : Asm) (mu up nl : Nat) : Step :=
  let diag := (List.range up).foldl (fun m r => m.put pzero (hKey r r) (damped a.h mu r r)) a.h
  let red := (List.range nl).foldl (schurStep par a.h a.g mu up) (diag, a.g, [])
  let facs := red.2.2.reverse
  let lmBad := facs.findSome? (·.bad)
  let f := if lmBad.isSome then Fac.none lmBad else factorise par.eps par.lam 0
    ((List.range up).map (fun r => ((List.range (r + 1)).map (fun c => pround (pget red.1 (hKey r c)))).toArray))
  let mat (r c : Nat) : P2 :=
    let v := pget red.1 (hKey r c)
    if r = c then (match f.fix.find? (fun x => decide (x.1 = r)) with | some x => padd v (x.2, 0) | none => v) else v
  let rhs := (List.range up).map (fun r => pneg (pget red.2.1 r))
  let d0 := (facSolve f (rhs.map pround)).map (fun x => (x, 0))
  let ref := if par.refineMax = 0 then (d0, 0, true) else refine f mat rhs par.refineMax d0 0
  let dp := ref.1.map pround
  let dl := facs.zipIdx.flatMap (fun fj =>
    let b := up + 3 * fj.2
    facSolve fj.1 ((List.range 3).map (fun c =>
      pround (dp.zipIdx.foldl (fun s v => psub s (pmul (pget a.h (hKey (b + c) v.2)) (v.1, 0))) (pneg (pget a.g (b + c)))))))
  let lms := (facs.filter (·.bad.isNone)).length
  if f.bad.isSome then ⟨[], lms, facs.flatMap (·.piv), f.d.size, f.piv, 0, false, f.bad⟩
  else ⟨dp ++ dl, lms, facs.flatMap (·.piv), f.d.size, f.piv, ref.2.1, !ref.2.2, none⟩

/-! ### Updates (R468) -/

/-- A pose moved by its six unknowns. -/
def movePose (kind : Nat) (x d : List Nat) : List Nat :=
  let rho := d.take 3
  let qe := quatExp ((d.drop 3).take 3)
  let q := x.take 4
  let t := (x.drop 4).take 3
  if kind = 2 then quatUnit (quatMul qe q) ++ vecAdd (matVec (quatMat qe) t) rho ++ x.drop 7
  else quatUnit (quatMul q qe) ++ vecAdd t (matVec (quatMat q) rho) ++ x.drop 7

/-- The trial point. -/
def movePoint (p : GshProb) (d : List Nat) : GshProb :=
  if p.kind = 1 then { p with xs := List.zipWith fa p.xs d }
  else
    let up := gshUP p
    { p with
      poses := List.zipWith (fun x k => match k with | some i => movePose p.kind x ((d.drop (6 * i)).take 6) | none => x) p.poses (poseRanks p),
      lms := List.zipWith (fun x k => match k with
        | some i => vecAdd (x.take 3) ((d.drop (up + 3 * i)).take 3) ++ x.drop 3
        | none => x) p.lms (lmRanks p) }

/-! ### The loop (R470, R471) -/

def fTop : Nat := 0x49800000
def fBot : Nat := 0x35800000

/-- Flagged pivots counted and kept. -/
def notePivots (ps : List Pivot) (r : GshRun) : GshRun :=
  let n := (ps.filter (·.nonpos)).length
  let m := ps.length - n
  { r with
    small := r.small + m, nonpos := r.nonpos + n, first := match r.first with | some p => some p | none => ps.head?,
    flags := r.flags ||| b2n (decide (0 < m)) ||| (2 * b2n (decide (0 < n))) }

/-- A solve's counts and flags: a solve that ends at a non-finite d was not made. -/
def noteStep (r : GshRun) (st : Step) : GshRun :=
  let r := notePivots (st.pivL ++ st.pivC) r
  if st.bad.isSome then { r with bad := st.bad }
  else { r with iters := r.iters + 1, steps := r.steps + st.steps, flags := r.flags ||| (8 * b2n st.cap) }

/-- The pieces of an assembly (3) or evaluation (6) of `n` terms: a block boundary after every 4,096 (R477). -/
def termMarks (state n : Nat) (r : GshRun) : List GshMark :=
  List.replicate (n / 4096) ⟨state, true, r⟩ ++ [⟨state, false, r⟩]

/-- The pieces of a solve: a block boundary after every 256 landmarks, every block column (one column of a DENSE_LS) and every
refinement step (R477). -/
def stepMarks (r : GshRun) (st : Step) : List GshMark :=
  let up := gshUP r.prob
  let w := if r.prob.kind = 1 then 1 else 6
  let all := notePivots (st.pivL ++ st.pivC) r
  (List.range (st.lms / 256)).map (fun k =>
    ⟨4, true, notePivots (st.pivL.filter (fun p => decide (p.idx < up + 768 * (k + 1)))) r⟩)
  ++ (List.range (st.cols / w)).map (fun k =>
    ⟨4, true, notePivots (st.pivL ++ st.pivC.filter (fun p => decide (p.idx < w * (k + 1)))) r⟩)
  ++ [⟨4, false, all⟩]
  ++ (List.range st.steps).map (fun k => ⟨5, true, { all with steps := r.steps + k + 1 }⟩)

/-- The loop from a point: `asm` holds the assembly while steps are rejected; `n` solves remain; the pieces of the work are put
after those in `ms`. [DEDUCED, log entry 157] -/
def gshLoop (par : GshPar) : Nat → GshRun → List GshMark → Option Asm → GshRun × List GshMark
  | n, r, ms, asm =>
    let a := match asm with | some a => a | none => assemble par.huber r.prob
    let ms := if asm.isSome then ms else ms ++ termMarks 3 a.excl.length r
    let ex := (a.excl.filter id).length
    let g := infNorm (a.g.map (fun e => pround e.2))
    let r : GshRun := if asm.isSome then r else { r with
      f := a.f, f0 := if r.accepted = 0 then a.f else r.f0, gInf := g, excl := ex,
      flags := r.flags ||| (4 * b2n (decide (0 < ex))) }
    if asm.isNone && Fp.eq (pround a.f) 0 then ({ r with stop := 3 }, ms)
    else if asm.isNone && Fp.lt g par.tolG then ({ r with stop := 2 }, ms)
    else match n with
      | 0 => ({ r with stop := 4 }, ms)
      | n + 1 =>
        let st := solveStep par a r.mu (gshUP r.prob) (gshUL r.prob)
        let ms := ms ++ stepMarks r st
        let r := noteStep r st
        if r.bad.isSome then (r, ms)
        else
          let trial := movePoint r.prob st.delta
          let ts := gshTerms par.huber trial
          let ms := ms ++ termMarks 6 ts.length r
          let fNew := sumF ts
          let newEx := (List.zipWith (fun o t => !o && t.excl) a.excl ts).any id
          let r := { r with flags := r.flags ||| (4 * b2n (ts.any (·.excl))) }
          if !Fp.isFinite (pround fNew) || !plt fNew a.f || newEx then
            let m := Fp.max (fm r.mu 0x41200000) fBot
            let top := Fp.lt fTop m
            gshLoop par n { r with mu := if top then fTop else m, flags := r.flags ||| (16 * b2n top) } ms (some a)
          else
            let m := fm r.mu f01
            let top := Fp.lt fTop m
            let r := { r with
              prob := trial, accepted := r.accepted + 1, f := fNew
              mu := if Fp.lt m 0x2B800000 then 0 else if top then fTop else m
              flags := r.flags ||| (16 * b2n top), excl := (ts.filter (·.excl)).length }
            if plt (psub a.f fNew) (pmul (par.tolF, 0) a.f) then ({ r with stop := 1 }, ms)
            else gshLoop par n r ms none

def GshRun.start (p : GshProb) (mu : Nat) : GshRun :=
  { prob := p, iters := 0, accepted := 0, steps := 0, flags := 0, small := 0, nonpos := 0, first := none, f0 := pzero, f := pzero,
    gInf := 0, mu := mu, excl := 0, stop := 0, bad := none }

/-- A solve of a problem: how it ends, and the pieces of its work. -/
def gshSolve (par : GshPar) (p : GshProb) : GshRun × List GshMark :=
  gshLoop par par.iterMax (GshRun.start (gshNormalise p) par.mu0) [] none

/-! ### Capacity (R463, R473, R481) -/

/-- Symbolic Cholesky: column structures in natural order, each merged into that of its lowest row below. -/
def symbolic : Nat → List (Nat × List Nat) → Nat
  | 0, _ => 0
  | _, [] => 0
  | n + 1, (_, st) :: t =>
    let below := st.eraseDups
    let par := below.foldl min (below.headD 0)
    let t := if below.isEmpty then t else t.map (fun c => if c.1 = par then (c.1, c.2 ++ below.filter (· ≠ par)) else c)
    1 + below.length + symbolic n t

/-- Blocks of the reduced factor. -/
def gshNzb (p : GshProb) : Nat :=
  let pr := poseRanks p
  let n := freeCountOf pr
  let links : List (Nat × Nat) :=
    if p.kind = 2 then
      let act := p.obs.filter obsActive
      let lr := lmRanks p
      (List.range p.lms.length).flatMap (fun j =>
        if (lr.getD j none).isNone then []
        else
          let seen := ((act.filter (fun o => decide (obsLm o = j))).filterMap (fun o => pr.getD (obsPose o) none)).eraseDups
          seen.flatMap (fun a => (seen.filter (fun b => decide (a < b))).map (fun b => (a, b))))
    else (p.edges.filter edgeActive).filterMap (fun e =>
      match pr.getD (edgeI e) none, pr.getD (edgeJ e) none with
      | some a, some b => if a < b then some (a, b) else if b < a then some (b, a) else none
      | _, _ => none)
  symbolic n ((List.range n).map (fun k => (k, (links.filter (fun l => decide (l.1 = k))).map (·.2))))

/-- Structure and scratch bytes Q and C; the image size for DENSE_LS is given. -/
def gshQC (p : GshProb) (image : Nat) : Nat × Nat :=
  let np := p.poses.length
  let nl := p.lms.length
  let no := p.obs.length
  let ne := p.edges.length
  if p.kind = 1 then (image, 65536 + 12 * p.xs.length ^ 2 + 64 * p.xs.length)
  else if p.kind = 2 then
    (128 + 32 * np + 16 * nl + 16 * no, 65536 + 448 * gshNzb p + 64 * nl + 80 * no + 64 * gshUP p)
  else (32 * np + 64 * ne, 65536 + 448 * gshNzb p + 96 * ne + 64 * gshUP p)

end Sys2Proof.Machine
end

