-- ==== Sys2Proof/Machine/Goshawk.lean ====
section
/-!
DEFINITION. Goshawk (chapter 15): its jobs SOLVE, LOAD, FREE and EXPORT, resident problems and their deltas, result headers and
calibration proposals.
-/
namespace Sys2Proof.Machine

def GshRes.free : GshRes := ⟨false, 0, 0, 0, GshProb.none⟩
def resOf (s : State) (h : Nat) : GshRes := s.gsh.get GshRes.free h
def setGshRun (r : Option GshActive) (s : State) : State := { s with gshRun := r }
/-- The work under way stops. [DEDUCED, log entry 242] -/
def gshStop (s : State) : State := setGshRun none s
def setRes (h : Nat) (v : GshRes) (s : State) : State := { s with gsh := s.gsh.put GshRes.free h v }

/-! ### Bodies (R462, R486, R487) -/

def gshRules : HeaderRules := ⟨[0x001, 0x002, 0x003, 0x004], fun _ => 0, 1⟩

def gshDelta (d : List Byte) : Bool := bitOf (byteAt d 44) 0
/-- [DEDUCED, log entry 160] -/
def gshPropose (d : List Byte) : Bool := bitOf (byteAt d 58) 1

/-- An FP32 field that must be at least 0. -/
def nonNegBad (d : List Byte) (off : Nat) : Option (Nat × Nat) := badIf (!Fp.le 0 (leAt d off 4)) off 0x06
def dataBad (s : State) (d : List Byte) (off n : Nat) : Option (Nat × Nat) := badIf (!isData s (leAt d off 8) n) off 0x04

def solveBad (s : State) (d : List Byte) : List (Option (Nat × Nat)) :=
  let delta := gshDelta d
  [(if delta then badIf (decide (0 < leAt d 40 4) && !isData s (leAt d 32 8) (32 * max 1 (min (leAt d 40 4) 1048576))) 32 0x04
    else dataBad s d 32 64),
   badIf (if delta then decide (1048576 < leAt d 40 4) else decide (leAt d 40 4 ≠ 0)) 40 0x06,
   badIf (decide (1 < byteAt d 44)) 44 0x01,
   badIf (if delta then false else decide (byteAt d 45 ≠ 0)) 45 0x06, badIf (decide (3 < byteAt d 45)) 45 0x01,
   rangeBad d 47 1 0 8, nonNegBad d 48, nonNegBad d 52, rangeBad d 56 1 0 60, rangeBad d 57 1 0 60,
   badIf (decide (3 < byteAt d 58)) 58 0x01, trig8Bad d 59, nonNegBad d 60, nonNegBad d 64, flag1Bad d 68, dataBad s d 72 128,
   (if delta then badIf (decide (leAt d 80 8 ≠ 0)) 80 0x06
    else badIf (decide (spaceOf s (leAt d 80 8) ≠ .dram) || !isData s (leAt d 80 8) (65536 * max 1 (leAt d 88 4))) 80 0x04),
   (if delta then badIf (decide (leAt d 88 4 ≠ 0)) 88 0x06 else none), reservedBad d 92 96,
   (if gshPropose d then badIf (decide (leAt d 96 8 % 32 ≠ 0) || !isData s (leAt d 96 8) 96) 96 0x04 else none),
   (if gshPropose d then badIf (decide (2 < byteAt d 108)) 108 0x06 else none),
   (if gshPropose d then badIf (decide (7 < byteAt d 109) && decide (byteAt d 109 ≠ 0xFF)) 109 0x06 else none),
   reservedBad d 116 d.length]

def loadBad (s : State) (d : List Byte) : List (Option (Nat × Nat)) :=
  [dataBad s d 32 64, badIf (decide (3 < byteAt d 40)) 40 0x01, reservedBad d 41 42, rangeBad d 42 2 0 127, rangeBad d 44 2 1 128,
   reservedBad d 46 d.length]

def freeBad (d : List Byte) : List (Option (Nat × Nat)) :=
  [reservedBad d 32 40, badIf (decide (3 < byteAt d 40)) 40 0x01, reservedBad d 41 d.length]

def exportBad (s : State) (d : List Byte) : List (Option (Nat × Nat)) :=
  [reservedBad d 32 40, badIf (decide (3 < byteAt d 40)) 40 0x01, reservedBad d 41 48, dataBad s d 48 64, reservedBad d 56 d.length]

/-- The first field in error of a Goshawk job. -/
def gshBad (s : State) (j : Job) : Option (Nat × Nat) :=
  let d := j.desc
  descBad d (if j.op = 0x001 then 128 else 64) (headerBad s gshRules j ::
    (if j.op = 0x001 then solveBad s d else if j.op = 0x002 then loadBad s d else if j.op = 0x003 then freeBad d
      else exportBad s d))

/-- The memory a Goshawk job names. -/
def gshAddrs (j : Job) : List Nat :=
  let d := j.desc
  if j.op = 0x001 then
    [leAt d 32 8, leAt d 72 8] ++ (if gshDelta d then [] else [leAt d 80 8]) ++ (if gshPropose d then [leAt d 96 8] else [])
  else if j.op = 0x002 then [leAt d 32 8]
  else if j.op = 0x004 then [leAt d 48 8]
  else []

def gshTrig (j : Job) : Option (Nat × Nat) := if j.op = 0x001 then trigByte (byteAt j.desc 59) else none

/-! ### Images (R485) -/

/-- Words of `n` bytes at an offset of a record. -/
def wordsAt (bs : List Byte) (off n : Nat) : List Nat := (List.range n).map (fun i => leAt bs (off + 4 * i) 4)

/-- `count` entries of `size` bytes, the first `w` words of each. -/
def entriesOf (bs : List Byte) (count size w : Nat) : List (List Nat) := (List.range count).map (fun i => wordsAt bs (size * i) w)

def gshRowBytes (n : Nat) : Nat := ceilTo (8 + 4 * n) 64 * 64

/-- The limit of R463 that the counts of an image exceed; 0 for none. -/
def gshCountLimit (kind a b c : Nat) : Nat :=
  if kind = 1 then (if 384 < a then 1 else if 65536 < b then 2 else 0)
  else if kind = 2 then (if 1024 < a then 3 else if 131072 < b then 4 else if 1048576 < c then 5 else 0)
  else (if 16384 < a then 3 else if 131072 < b then 5 else 0)

/-- The first entry of a list of word lists whose words `ix` are not all finite. -/
def nonFinite (l : List (List Nat)) (ix : List Nat) : Option Nat :=
  (l.zipIdx.find? (fun e => ix.any (fun i => !Fp.isFinite (el e.1 i)))).map (·.2)

def gshNonFinite (p : GshProb) : Option Nat :=
  ((p.xs.zipIdx.find? (fun x => !Fp.isFinite x.1)).map (·.2)).orElse (fun _ =>
  (nonFinite p.rows (List.range (2 + p.xs.length))).orElse (fun _ =>
  (nonFinite p.cams [0, 1, 2, 3]).orElse (fun _ =>
  (nonFinite p.poses (List.range 7)).orElse (fun _ =>
  (nonFinite p.lms [0, 1, 2]).orElse (fun _ =>
  (nonFinite p.obs [1, 2, 3]).orElse (fun _ => nonFinite p.edges ((List.range 13).map (2 + ·))))))))

/-- Reserved bits of the entries of sections A, B and C, and the padding of a row, that are set (R485). -/
def poseReserved (x : List Nat) : Bool := decide (1 < el x 7)
def lmReserved (x : List Nat) : Bool := decide (1 < el x 3)
def obsReserved (o : List Nat) : Bool := bitOf (el o 0) 30
def edgeReserved (e : List Nat) : Bool := decide (1 < el e 1) || decide (el e 15 ≠ 0)
def rowReserved (na : Nat) (bs : List Byte) (i : Nat) : Bool :=
  !zerosAt bs (gshRowBytes na * i + 8 + 4 * na) (gshRowBytes na - 8 - 4 * na)

def gshReserved (p : GshProb) : Bool :=
  p.poses.any poseReserved || p.lms.any lmReserved || p.obs.any obsReserved || p.edges.any edgeReserved

/-- The first pose, or active edge, whose quaternion divided by its norm is not finite (R468). -/
def gshUnfit (p : GshProb) : Option Nat :=
  let q := gshNormalise p
  (nonFinite q.poses [0, 1, 2, 3]).orElse (fun _ => nonFinite (q.edges.map (fun e => if edgeActive e then e else [])) [2, 3, 4, 5])

/-- An observation or edge refers beyond the counts. -/
def obsDangling (p : GshProb) (o : List Nat) : Bool :=
  obsActive o && (decide (p.lms.length ≤ obsLm o) || decide (p.poses.length ≤ obsPose o))
def edgeDangling (p : GshProb) (e : List Nat) : Bool :=
  edgeActive e && (decide (p.poses.length ≤ edgeI e) || decide (p.poses.length ≤ edgeJ e))

/-- A weight or Ω below 0. -/
def gshNegative (p : GshProb) : Bool :=
  p.rows.any (fun r => Fp.lt (el r 1) 0) || p.obs.any (fun o => Fp.lt (el o 3) 0)
    || p.edges.any (fun e => (List.range 6).any (fun k => Fp.lt (el e (9 + k)) 0))

/-- Reads a section of an image. -/
def readSection (base ofs n : Nat) : Eng (List Byte) := do
  let s ← get
  if n = 0 then pure []
  else if ofs % 64 ≠ 0 then ebad 32 0x06
  else if !isData s (base + ofs) n then ebad 32 0x04
  else eread (base + ofs) n

/-- Reads and checks a problem image whose header is `h`: the problem and the image's size. -/
def readBody (a : Nat) (h : List Byte) : Eng (GshProb × Nat) := do
  let kind := byteAt h 0
  let na := leAt h 4 4
  let nb := leAt h 8 4
  let nc := leAt h 12 4
  let ofs (i : Nat) : Nat := leAt h (16 + 4 * i) 4
  if kind = 0 ∨ 3 < kind ∨ (kind ≠ 2 ∧ nc ≠ 0) then ebad 32 0x06
  else if zerosAt h 1 3 = false ∨ zerosAt h 32 32 = false then ebad 32 0x01
  else if gshCountLimit kind na nb nc ≠ 0 then estop stABORT_CAPACITY (gshCountLimit kind na nb nc)
  else
    let sa := na * (if kind = 1 then 4 else 32)
    let sb := nb * (if kind = 1 then gshRowBytes na else if kind = 2 then 16 else 64)
    let sc := nc * 16
    let cam := if kind = 2 then 128 else 0
    if (kind = 1 ∧ ofs 2 ≠ 0) ∨ (kind = 3 ∧ ofs 2 ≠ 0) ∨ (kind ≠ 2 ∧ ofs 3 ≠ 0) then ebad 32 0x06
    let ba ← readSection a (ofs 0) sa
    let bb ← readSection a (ofs 1) sb
    let bc ← readSection a (ofs 2) sc
    let bcam ← readSection a (ofs 3) cam
    let p : GshProb :=
      { kind := kind, xs := if kind = 1 then wordsAt ba 0 na else [],
        rows := if kind = 1 then entriesOf bb nb (gshRowBytes na) (2 + na) else [],
        cams := entriesOf bcam (cam / 16) 16 4, poses := if kind = 1 then [] else entriesOf ba na 32 8,
        lms := if kind = 2 then entriesOf bb nb 16 4 else [], obs := entriesOf bc nc 16 4,
        edges := if kind = 3 then entriesOf bb nb 64 16 else [] }
    if gshReserved p || (decide (kind = 1) && (List.range nb).any (rowReserved na bb)) then ebad 32 0x01
    match gshNonFinite p with
    | some i => estop 0x0500 (1 + i % 2 ^ 24 * 256)
    | none =>
      if p.obs.any (obsDangling p) || p.edges.any (edgeDangling p) || gshNegative p then ebad 32 0x06
      else
        let ends := [ofs 0 + sa, ofs 1 + sb, ofs 2 + sc, ofs 3 + cam, 64]
        pure (p, ends.foldl max 0)

/-- Reads a problem image. -/
def readImage (a : Nat) : Eng (GshProb × Nat) := do
  let h ← eread a 64
  readBody a h

/-- [DEDUCED, log entry 159] -/
def imageWords (l : List (List Nat)) : List Byte := l.flatMap (fun w => w.flatMap (leBytes 4))
/-- Entries as the part writes them, reserved bits zero (R8). -/
def poseOut (x : List Nat) : List Nat := x.take 7 ++ [el x 7 % 2]
def lmOut (x : List Nat) : List Nat := x.take 3 ++ [el x 3 % 2]
def obsOut (o : List Nat) : List Nat := putBits (el o 0) 30 30 0 :: o.drop 1
def edgeOut (e : List Nat) : List Nat := (e.set 1 (el e 1 % 2)).take 15 ++ [0]
def pad64 (bs : List Byte) : List Byte := bs ++ zeros (ceilTo bs.length 64 * 64 - bs.length)

/-- A resident problem as an image: sections A, B, C, CAM in this order, each 64-byte aligned. [DEDUCED, log entry 159] -/
def writeImage (p : GshProb) : List Byte :=
  let a := pad64 (imageWords (p.poses.map poseOut))
  let b := pad64 (if p.kind = 2 then imageWords (p.lms.map lmOut) else imageWords (p.edges.map edgeOut))
  let c := pad64 (imageWords (p.obs.map obsOut))
  let cam := imageWords p.cams
  let has (bs : List Byte) (o : Nat) : Nat := if bs.isEmpty then 0 else o
  leBytes 1 p.kind ++ zeros 3 ++ leBytes 4 p.poses.length
    ++ leBytes 4 (if p.kind = 2 then p.lms.length else p.edges.length) ++ leBytes 4 p.obs.length
    ++ leBytes 4 (has a 64) ++ leBytes 4 (has b (64 + a.length)) ++ leBytes 4 (has c (64 + a.length + b.length))
    ++ leBytes 4 (has cam (64 + a.length + b.length + c.length)) ++ zeros 32 ++ a ++ b ++ c ++ cam

/-! ### Deltas (R482, R483) -/

/-- Sets entry `i` of a list, or appends it. -/
def putEntry (l : List (List Nat)) (i : Nat) (x : List Nat) : List (List Nat) := if i < l.length then l.set i x else l ++ [x]

/-- A list of entries cut to, or filled up to, a count. -/
def resizeTo (l : List (List Nat)) (n : Nat) (x : List Nat) : List (List Nat) := l.take n ++ List.replicate (n - l.length) x

/-- The words of a record: type, FIXED, index, and its payload from byte 4. -/
def recType (r : List Byte) : Nat := byteAt r 0
def recFixed (r : List Byte) : Nat := b2n (bitOf (leAt r 0 4) 8)
def recIndex (r : List Byte) : Nat := bitsOf (leAt r 0 4) 31 9

/-- A record applied to a problem. -/
def applyRecord (p : GshProb) (r : List Byte) : GshProb :=
  let i := recIndex r
  match recType r with
  | 0x01 => { p with poses := putEntry p.poses i (wordsAt r 4 7 ++ [recFixed r]) }
  | 0x02 => { p with lms := putEntry p.lms i (wordsAt r 4 3 ++ [recFixed r]) }
  | 0x03 => { p with obs := putEntry p.obs i (wordsAt r 4 4) }
  | 0x04 => { p with cams := p.cams.set i (wordsAt r 4 4) }
  | 0x05 => { p with edges := putEntry p.edges i (wordsAt r 4 15 ++ [0]) }
  | 0x06 => { p with
      poses := resizeTo p.poses (leAt r 4 4) [Fp.one, 0, 0, 0, 0, 0, 0, 0],
      lms := if p.kind = 2 then resizeTo p.lms (leAt r 8 4) [0, 0, 0, 0] else p.lms,
      edges := if p.kind = 3 then resizeTo p.edges (leAt r 8 4) (List.replicate 16 0) else p.edges,
      obs := if p.kind = 2 then resizeTo p.obs (leAt r 12 4) [0, 0, 0, 0] else p.obs }
  | _ => p

/-- The kind of problem a record belongs to. -/
def recKindOk (kind : Nat) (r : List Byte) : Bool :=
  match recType r with
  | 0x01 => true
  | 0x02 => decide (kind = 2)
  | 0x03 => decide (kind = 2)
  | 0x04 => decide (kind = 2)
  | 0x05 => decide (kind = 3)
  | 0x06 => true
  | _ => false

/-- The count a record's INDEX may not exceed. -/
def recCount (p : GshProb) (r : List Byte) : Nat :=
  match recType r with
  | 0x01 => p.poses.length
  | 0x02 => p.lms.length
  | 0x03 => p.obs.length
  | 0x04 => 7
  | 0x05 => p.edges.length
  | _ => 0

/-- Reserved bits of a record that are set. -/
def recReserved (kind : Nat) (r : List Byte) : Bool :=
  (decide (recType r ≠ 0x01 ∧ recType r ≠ 0x02) && decide (recFixed r ≠ 0)) ||
  (match recType r with
    | 0x02 => !zerosAt r 16 16
    | 0x03 => !zerosAt r 20 12 || bitOf (leAt r 4 4) 30
    | 0x04 => !zerosAt r 20 12
    | 0x05 => decide (1 < byteAt r 8) || !zerosAt r 9 3
    | 0x06 => !zerosAt r 16 16 || (decide (kind = 3) && !zerosAt r 12 4) || decide (recIndex r ≠ 0)
    | _ => false)

/-- Words of the payload that must be finite. -/
def recFloats (r : List Byte) : List Nat :=
  match recType r with
  | 0x01 => wordsAt r 4 7
  | 0x02 => wordsAt r 4 3
  | 0x03 => wordsAt r 8 3
  | 0x04 => wordsAt r 4 4
  | 0x05 => wordsAt r 12 13
  | _ => []

def zeroQuat (q : List Nat) : Bool := q.all (fun x => Fp.eq x 0)

/-- The reason a record is refused in the problem `p` as it stands before it, and `fin` as the whole delta leaves it. -/
def recReason (p fin : GshProb) (r : List Byte) : Nat :=
  if !recKindOk p.kind r then 0x01
  else if recCount p r < recIndex r then 0x02
  else if recReserved p.kind r then 0x03
  else if (recFloats r).any (fun x => !Fp.isFinite x) then 0x04
  else if (match recType r with
    | 0x03 => obsDangling fin (wordsAt r 4 4)
    | 0x05 => edgeDangling fin (wordsAt r 4 15)
    | 0x06 => fin.obs.any (obsDangling fin) || fin.edges.any (edgeDangling fin)
    | _ => false) then 0x05
  else if (match recType r with
    | 0x01 => zeroQuat (wordsAt r 4 4)
    | 0x05 => zeroQuat (wordsAt r 12 4)
    | _ => false) then 0x06
  else 0

/-- The first refused record, from index `i` on. -/
def firstRecBad (fin : GshProb) : Nat → GshProb → List (List Byte) → Option (Nat × Nat)
  | _, _, [] => none
  | i, p, r :: t => if recReason p fin r ≠ 0 then some (i, recReason p fin r) else firstRecBad fin (i + 1) (applyRecord p r) t

/-- Reads `n` records; an EDGE record is 64 bytes, every other 32. [DEDUCED, log entry 158] -/
def readRecords : Nat → Nat → Eng (List (List Byte))
  | 0, _ => pure []
  | n + 1, a => do
    let s ← get
    if !isData s a 32 then ebad 32 0x04
    else
      let r ← eread a 32
      if recType r = 0x05 then
        if !isData s a 64 then ebad 32 0x04
        else
          let q ← eread (a + 32) 32
          let t ← readRecords n (a + 64)
          pure ((r ++ q) :: t)
      else
        let t ← readRecords n (a + 32)
        pure (r :: t)

/-! ### SOLVE (R470, R478, R484, R488, R489) -/

def gshPar (d : List Byte) : GshPar :=
  let dflt (x v : Nat) : Nat := if x = 0 then v else x
  ⟨dflt (byteAt d 46) 20, byteAt d 47, leAt d 48 4, leAt d 52 4, dflt (byteAt d 56) 20, dflt (byteAt d 57) 10, leAt d 60 4, leAt d 64 4⟩

/-- The 128-byte result header. -/
def gshHeader (d : List Byte) (valid : Bool) (kind : Nat) (r : GshRun) : List Byte :=
  let first := r.first.getD ⟨0, false, 0⟩
  leBytes 1 (b2n valid) ++ leBytes 1 kind ++ leBytes 1 (if valid then r.stop else 0)
    ++ leBytes 1 (if gshDelta d then byteAt d 45 else 0xFF) ++ leBytes 4 r.flags ++ leBytes 2 r.iters ++ leBytes 2 r.accepted
    ++ [r.steps, r.f0.1, r.f0.2, r.f.1, r.f.2, r.gInf, r.mu, r.small, r.nonpos, first.idx, first.value, r.excl].flatMap (leBytes 4)
    ++ zeros 68

/-- The parameters after the header. -/
def gshOutput (posesOnly : Bool) (p : GshProb) : List Byte :=
  if p.kind = 1 then p.xs.flatMap (leBytes 4)
  else imageWords (p.poses.map poseOut) ++ (if posesOnly then [] else imageWords (p.lms.map lmOut))

/-- The 96-byte proposal (R484). -/
def gshProposal (d : List Byte) (p : GshProb) : List Byte :=
  let pose (i : Nat) : List Nat := p.poses.getD i []
  let a := pose (leAt d 104 2)
  let b := pose (leAt d 106 2)
  let ra := quatMat (a.take 4)
  let rb := quatMat (b.take 4)
  let ta := (a.drop 4).take 3
  let tb := (b.drop 4).take 3
  let r := if p.kind = 2 then matMul ra (matT rb) else matMul (matT ra) rb
  let t := if p.kind = 2 then vecSub ta (matVec r tb) else matTVec ra (vecSub tb ta)
  let m := (List.range 3).flatMap (fun i => (r.drop (3 * i)).take 3 ++ [el t i]) ++ [0, 0, 0, Fp.one]
  let cam := if byteAt d 109 = 0xFF then [0, 0, 0, 0] else p.cams.getD (byteAt d 109) [0, 0, 0, 0]
  let body := m.flatMap (leBytes 4) ++ leBytes 4 (leAt d 112 4) ++ cam.flatMap (leBytes 4) ++ leBytes 1 (byteAt d 108)
    ++ leBytes 1 1 ++ leBytes 2 (leAt d 110 2) ++ leBytes 4 0x58460001
  body ++ leBytes 4 (Crypto.crc32 body)

/-- What a job that ends counts (R490). -/
def gshCount (r : GshRun) (s : State) : State :=
  let add (off n : Nat) (s : State) : State := if n = 0 then s else incCnt pgGSH off n s
  add 0x094 r.nonpos (add 0x090 r.small (add 0x08C r.iters s))

/-- An aborted SOLVE writes its header with VALID 0 and its counts so far; a header that cannot be written changes nothing more.
[DEDUCED, log entry 161] -/
def solveAborted (d : List Byte) (kind : Nat) (r : GshRun) (e : Halt) : Eng (Nat × Nat) :=
  match e with
  | .wait => throw .wait
  | .stop _ _ => do
    tryCatch (ewrite (leAt d 72 8) (gshHeader d false kind r)) (fun _ => pure ())
    emod (gshCount r)
    throw e

/-- Work of a SOLVE before its iterations, which writes the header where it aborts. -/
def solveEarly {α : Type} (d : List Byte) (kind : Nat) (m : Eng α) : Eng α :=
  tryCatch m (fun e => do
    let _ ← solveAborted d kind (GshRun.start GshProb.none (gshPar d).mu0) e
    throw e)

/-- The problem of a SOLVE, with its deltas, the size of a fed image, and whether there are deltas to commit. -/
def solveProblem (d : List Byte) : Eng (GshProb × Nat × Bool) := do
  let s ← get
  let res := resOf s (byteAt d 45)
  if gshDelta d then
    solveEarly d res.prob.kind (do
      if !res.loaded then estop 0x0501 (byteAt d 45)
      else
        let recs ← readRecords (leAt d 40 4) (leAt d 32 8)
        let fin := recs.foldl applyRecord res.prob
        match firstRecBad fin 0 res.prob recs with
        | some e => estop 0x0502 (e.1 + e.2 * 2 ^ 24)
        | none => pure (fin, 0, !recs.isEmpty))
  else
    let h ← solveEarly d 0 (eread (leAt d 32 8) 64)
    let p ← solveEarly d (if byteAt h 0 < 4 then byteAt h 0 else 0) (readBody (leAt d 32 8) h)
    pure (p.1, p.2, false)

/-- The limits of R463 and R481 after the deltas. -/
def solveLimits (s : State) (d : List Byte) (p : GshProb) (image : Nat) : Option (Nat × Nat) :=
  let lim := gshCountLimit p.kind (if p.kind = 1 then p.xs.length else p.poses.length)
    (if p.kind = 1 then p.rows.length else if p.kind = 2 then p.lms.length else p.edges.length) p.obs.length
  let qc := gshQC p image
  if lim ≠ 0 then some (stABORT_CAPACITY, lim)
  else if p.kind ≠ 1 ∧ 16384 < gshNzb p then some (stABORT_CAPACITY, 6)
  else if (if gshDelta d then decide ((resOf s (byteAt d 45)).size * 65536 < qc.1 + qc.2) else decide (leAt d 88 4 * 65536 < qc.2)) then
    some (stABORT_CAPACITY, 7)
  else none

/-- PROPOSE fields that need the problem (R484, R486). [DEDUCED, log entry 160] -/
def solvePropose (d : List Byte) (p : GshProb) : Option (Nat × Nat) :=
  if !gshPropose d then none
  else if p.kind = 1 then some (58, 0x06)
  else if p.poses.length ≤ leAt d 104 2 then some (104, 0x06)
  else if p.poses.length ≤ leAt d 106 2 then some (106, 0x06)
  else if p.kind = 3 ∧ byteAt d 109 ≠ 0xFF then some (109, 0x06)
  else none

/-- Why a SOLVE aborts once it has its problem, before its iterations. A negative weight that a delta set aborts it as it does in
the image that EXPORT would write (R476). -/
def solveStop (s : State) (d : List Byte) (p : GshProb) (image : Nat) : Option (Nat × Nat) :=
  let field (e : Nat × Nat) : Option (Nat × Nat) := some (stABORT_BAD_DESC, badDetail e)
  match solveLimits s d p image with
  | some e => some e
  | none =>
    if gshNegative p then field (32, 0x06)
    else match solvePropose d p with
      | some e => field e
      | none =>
        if !isData s (leAt d 72 8) (128 + (gshOutput (bitOf (byteAt d 58) 0) p).length) then field (72, 0x04)
        else (gshUnfit p).map (fun i => (0x0500, 2 + i % 2 ^ 24 * 256))

/-- A SOLVE reads and checks its problem at its start, and with it what its iterations, its output and its abort depend on alone
(R476). -/
def solveWork (j : Job) : Eng GshActive := do
  let d := j.desc
  let p ← solveProblem d
  let s ← get
  let zero := GshRun.start p.1 (gshPar d).mu0
  let early : List GshMark := ⟨1, false, zero⟩ :: (if gshDelta d then [⟨2, false, zero⟩] else [])
  let fin := if p.2.2 then some p.1 else none
  match solveStop s d p.1 p.2.1 with
  | some e => pure ⟨early, fin, zero, some e, false⟩
  | none =>
    let r := gshSolve (gshPar d) p.1
    pure ⟨early ++ r.2, fin, r.1, r.1.bad.map (fun i => (0x0500, 2 + i % 2 ^ 24 * 256)), false⟩

/-- A commit to the resident problem of a DELTA job (R478, R483). -/
def gshCommit (d : List Byte) (p : GshProb) (s : State) : State :=
  let h := byteAt d 45
  setRes h { resOf s h with prob := p, epoch := (resOf s h).epoch + 1 } s

/-- The proposal is written (R484). -/
def solvePropo (d : List Byte) (p : GshProb) : Eng Unit := do
  ewrite (leAt d 96 8) (gshProposal d p)
  emod (fun s => raise pgGSH 0x103 sevINFO (leAt d 110 2 * 2 ^ 16) (incCnt pgGSH 0x09C 1 s))

/-- The end of a SOLVE that completes: outputs, proposal, commit, flag. One that cannot set its flag aborts before its proposal and
its commit (R478, R484). [DEDUCED, log entry 161] -/
def solveDone (d : List Byte) (r : GshRun) : Eng (Nat × Nat) := do
  let prop := gshPropose d && decide (r.stop ≠ 4)
  let flag := bitOf (leAt d 68 4) 31
  ewrite (leAt d 72 8) (gshHeader d true r.prob.kind (if prop then { r with flags := r.flags ||| 32 } else r)
    ++ gshOutput (bitOf (byteAt d 58) 0) r.prob)
  if flag then eflagReady (leAt d 68 4 % 2 ^ 19)
  if prop then solvePropo d r.prob
  if gshDelta d then emod (gshCommit d r.prob)
  if flag then eflag (leAt d 68 4 % 2 ^ 19) true
  emod (gshCount r)
  if r.stop = 4 then
    emod (incCnt pgGSH 0x098 1)
    pure (stNOT_CONVERGED, r.iters)
  else if r.flags % 32 ≠ 0 then pure (stDONE_FLAGGED, if prop then r.flags ||| 32 else r.flags)
  else pure (stDONE, 0)

/-- The end of a SOLVE. -/
def solveEnd (d : List Byte) (v : GshActive) : Eng (Nat × Nat) :=
  match v.stop with
  | some e => solveAborted d v.run.prob.kind v.run (.stop e.1 e.2)
  | none => tryCatch (solveDone d v.run) (solveAborted d v.run.prob.kind v.run)

/-- A missed deadline aborts a SOLVE at a block boundary, with the counts there (R477, R478). -/
def solveMissed (j : Job) (m : GshMark) : Eng (Nat × Nat) := do
  emod (missEvent pgGSH j)
  solveAborted j.desc m.run.prob.kind m.run (.stop stABORT_DEADLINE (now (← get)))

/-- What the end of a piece leaves: after reading, the scratch of a HOST job holds its work, of which the spec gives no value
(R479); after the deltas, they are committed (R483); the first flagged pivot is told once (R490). -/
def passMark (d : List Byte) (m : GshMark) (v : GshActive) (s : State) : GshActive × State :=
  let lo := leAt d 80 8
  let s := if m.state = 1 ∧ gshDelta d = false ∧ 1 < v.marks.length then
      fillRange lo (lo + 65536 * leAt d 88 4) (.work s.freeCtr) (nextFree s) else s
  let s := match v.fin with | some p => if m.state = 2 then gshCommit d p s else s | none => s
  let v := { v with marks := v.marks.drop 1, fin := if m.state = 2 then none else v.fin }
  match m.run.first with
  | some p => if v.told then (v, s)
      else ({ v with told := true }, raise pgGSH 0x100 sevINFO (p.idx % 2 ^ 24 + b2n p.nonpos * 2 ^ 24) s)
  | none => (v, s)

/-- A piece of the running SOLVE ends; after the last, its end. [DESIGN CHOICE, log entry 155] -/
def solveAdvance (j : Job) (v : GshActive) (s : State) : State :=
  match v.marks with
  | [] => runEng pgGSH gshStop (some <$> solveEnd j.desc v) s
  | m :: t =>
    let r := passMark j.desc m v s
    if m.check && pastDeadline s j.deadline then runEngFrom s pgGSH gshStop (some <$> solveMissed j m) r.2
    else if t.isEmpty && v.stop.isSome then runEngFrom s pgGSH gshStop (some <$> solveEnd j.desc v) r.2
    else touch pgGSH (setGshRun (some r.1) r.2)

/-! ### LOAD, FREE, EXPORT (R480) -/

/-- The reason a region cannot be taken. -/
def regionReason (s : State) (h base size kind : Nat) : Nat :=
  if (resOf s h).loaded then 0x1
  else if 128 < base + size then 0x2
  else if (List.range 4).any (fun i => (resOf s i).loaded && decide (base < (resOf s i).base + (resOf s i).size)
    && decide ((resOf s i).base < base + size)) then 0x3
  else if kind = 1 then 0x4
  else 0

def loadWork (j : Job) : Eng (Nat × Nat) := do
  let d := j.desc
  let h := byteAt d 40
  let base := leAt d 42 2
  let size := leAt d 44 2
  let s ← get
  let hd ← eread (leAt d 32 8) 64
  let why := regionReason s h base size (byteAt hd 0)
  if why ≠ 0 then estop 0x0503 (h + why * 256)
  else
    let p ← readImage (leAt d 32 8)
    let qc := gshQC p.1 p.2
    if 16384 < gshNzb p.1 then estop stABORT_CAPACITY 6
    else if size * 65536 < qc.1 + qc.2 then estop stABORT_CAPACITY 7
    else match gshUnfit p.1 with
    | some i => estop 0x0500 (2 + i % 2 ^ 24 * 256)
    | none =>
      emod (fun s => raise pgGSH 0x101 sevINFO (h + size * 256)
        (setRes h ⟨true, base, size, (resOf s h).epoch + 1, gshNormalise p.1⟩ s))
      pure (stDONE, 0)

/-- [DEDUCED, log entry 158] -/
def gshFreeWork (j : Job) : Eng (Nat × Nat) := do
  let h := byteAt j.desc 40
  let s ← get
  if (resOf s h).loaded then
    emod (fun s => raise pgGSH 0x102 sevINFO h (setRes h { GshRes.free with epoch := (resOf s h).epoch } s))
  pure (stDONE, 0)

def exportWork (j : Job) : Eng (Nat × Nat) := do
  let d := j.desc
  let h := byteAt d 40
  let s ← get
  if !(resOf s h).loaded then estop 0x0501 h
  else
    let img := writeImage (resOf s h).prob
    if !isData s (leAt d 48 8) img.length then ebad 48 0x04
    else
      ewrite (leAt d 48 8) img
      pure (stDONE, 0)

/-! ### The commands -/

/-- A command that ends one of the short jobs, LOAD, FREE or EXPORT, at once. -/
def gshCommand (op : Nat) (work : Job → Eng (Nat × Nat)) (s : State) : State :=
  oneShot pgGSH (fun j => decide (j.op = op)) gshAddrs gshTrig gshStop work s

/-- A running SOLVE moves on by a piece of its work; else the head job starts, if it is one. -/
def solveCommand (s : State) : State :=
  match running s pgGSH, s.gshRun with
  | some j, some v => if pageOn s pgGSH then solveAdvance j v s else s
  | _, _ => startShot pgGSH (fun j => decide (j.op = 0x001)) gshAddrs gshTrig gshStop (fun j => do
      let v ← solveWork j
      emod (setGshRun (some v))
      pure none) s

/-- SOLVE (R470, R477). [DESIGN CHOICE, log entry 155] -/
def execSolve (s : State) : Host.Outcome State Fault Refusal := settle s (solveCommand s)

/-- LOAD (R480). -/
def execLoad (s : State) : Host.Outcome State Fault Refusal := settle s (gshCommand 0x002 loadWork s)

/-- GSH_FREE (R480). -/
def execGshFree (s : State) : Host.Outcome State Fault Refusal := settle s (gshCommand 0x003 gshFreeWork s)

/-- EXPORT (R480). -/
def execGshExport (s : State) : Host.Outcome State Fault Refusal := settle s (gshCommand 0x004 exportWork s)

/-! ### What the page shows (R490) -/

/-- `GSH_STATE`: the piece of a running SOLVE, or writing; its ITERS and its handle. The trigger hold of the head job. -/
def gshStateWord (s : State) : Nat :=
  match running s pgGSH, s.gshRun, (pageJobs s pgGSH).queue with
  | some j, some v, _ =>
    let h := if gshDelta j.desc then byteAt j.desc 45 % 4 else 0
    (match v.marks with
      | m :: _ => m.state + m.run.iters % 256 * 256
      | [] => 7 + v.run.iters % 256 * 256) + h * 65536
  | _, _, j :: _ => if depsMet s pgGSH j (gshAddrs j) && trigHeld s pgGSH (gshTrig j) then 8 else 0
  | _, _, [] => 0

/-- `GSH_RESh`. -/
def gshResWord (s : State) (h : Nat) : Nat :=
  let v := resOf s h
  if v.loaded then 1 + v.prob.kind * 2 + v.base * 256 + v.size * 65536 else 0

end Sys2Proof.Machine
end

