-- ==== Sys2Proof/Machine/Plk.lean ====
section
/-!
DEFINITION. The Dexvor link (chapter 20): bring-up and loss, SEND jobs, frames, acknowledgement, retransmission and credits,
and reception into posted buffers. The other module is outside: what it sends arrives as commands.
-/
namespace Sys2Proof.Machine

def Link.fresh : Link := ⟨0, false, false, 0, 0, [], 0, 0, 0, 0, [], 0, [], [], [], none, none, []⟩
def PostRing.none : PostRing := ⟨0, 16, 0⟩
def modPlk (f : Link → Link) (s : State) : State := { s with plk := f s.plk }

def stPLK_LINK_FAULT : Nat := 0x0500
def stPLK_RX_REFUSED : Nat := 0x0501
def stPLK_RX_ABANDONED : Nat := 0x0502
def stPLK_RX_TOO_SMALL : Nat := 0x0503

/-- `PLK_LINK.UP` and TRAINING. -/
def plkUp (s : State) : Bool := pageOn s pgPLK && rdB s pgPLK 0x080 0
def plkTraining (s : State) : Bool := pageOn s pgPLK && rdB s pgPLK 0x080 5

/-! ### SEND jobs (R613) -/

def plkRules : HeaderRules := ⟨[0x001], fun _ => 0, 1⟩

/-- The channel of a SEND. -/
def sendChan (j : Job) : Nat := bitsOf (byteAt j.desc 44) 1 0

/-- The first field of a SEND in error (R613). -/
def plkBad (s : State) (j : Job) : Option (Nat × Nat) :=
  let d := j.desc
  let src := leAt d 32 8
  let len := leAt d 40 4
  descBad d 64 [headerBad s plkRules j,
    badIf (decide (src % 64 ≠ 0) || !isData s src (max 1 (min len 16777216))) 32 0x04,
    badIf (decide (len = 0) || decide (16777216 < len)) 40 0x06, badIf (decide (byteAt d 44 / 4 ≠ 0)) 44 0x01,
    reservedBad d 45 48, reservedBad d 52 d.length]

/-- The memory a SEND names. -/
def plkAddrs (j : Job) : List Nat := [leAt j.desc 32 8]

/-- A SEND's dependencies: those of R141, and the link up (R603). -/
def plkDeps (s : State) (j : Job) : Bool := depsMet s pgPLK j (plkAddrs j) && plkUp s

/-- The jobs of a channel. -/
def ofChan (c : Nat) (j : Job) : Bool := decide (sendChan j = c)

def txOf (s : State) (c : Nat) : Option TxMsg := s.plk.tx.get none c
def setTx (c : Nat) (m : Option TxMsg) (s : State) : State := modPlk (fun l => { l with tx := l.tx.put none c m }) s
def rxOf (s : State) (c : Nat) : Option RxMsg := s.plk.rx.get none c
def setRx (c : Nat) (m : Option RxMsg) (s : State) : State := modPlk (fun l => { l with rx := l.rx.put none c m }) s

/-- The frames of a message (R598). -/
def framesOf (len : Nat) : Nat := (len + 4095) / 4096

/-- A control block's 16 bytes (R615). -/
def controlBlock (type value : Nat) : List Byte :=
  let b := leBytes 1 type ++ zeros 3 ++ leBytes 8 value
  b ++ leBytes 4 (Crypto.crc32 b)

def sendControl (type value : Nat) (s : State) : State := modPlk (fun l => { l with control := controlBlock type value }) s

/-- SEND: the first job of a channel that sends nothing starts. -/
def execSend (c : Fin 4) (s : State) : Host.Outcome State Fault Refusal :=
  let f := ofChan c.val
  settle s (if (pageJobs s pgPLK).running.any f then s
    else match (pageJobs s pgPLK).queue.find? f with
      | none => s
      | some j =>
        if !plkDeps s j then tellHeldJob pgPLK j s
        else if pastDeadline s j.deadline then refuseQueued pgPLK j stABORT_DEADLINE (now s) (missEvent pgPLK j s)
        else setTx c.val (some ⟨s.plk.nextMsg, leAt j.desc 32 8, leAt j.desc 40 4, leAt j.desc 48 4, 0, 0⟩)
          (modPlk (fun l => { l with nextMsg := (l.nextMsg + 1) % 2 ^ 32 }) (startIf pgPLK f s)))

/-- A channel's SEND ends. -/
def endSend (c status detail : Nat) (s : State) : State := finishIf pgPLK (ofChan c) status detail (setTx c none s)

/-! ### Reception ends (R603, R609, R611, R612) -/

/-- Writes the completion record of a posted entry: RX_ID, status, DETAIL, arrival of frame 0, end. -/
def rxRecord (e : Nat × Nat × Nat) (status detail start : Nat) (s : State) : State :=
  storeAs .record e.2.1 (leBytes 4 e.2.2 ++ leBytes 2 status ++ [0, 0] ++ leBytes 8 detail ++ leBytes 8 start ++ leBytes 8 (now s)) s

/-- A channel's reception is abandoned: its buffer, where it has one, completes with PLK_RX_ABANDONED. -/
def abandonRx (c : Nat) (s : State) : State :=
  match rxOf s c with
  | none => s
  | some m =>
    let t := setRx c none s
    match m.entry with | some e => rxRecord e stPLK_RX_ABANDONED m.written m.start t | none => t

/-! ### Bring-up and loss (R600 to R603) -/

/-- Everything that was under way on the link ends: running SENDs with PLK_LINK_FAULT, receptions abandoned.
[DEDUCED, log entries 200, 204] -/
def linkEnds (s : State) : State :=
  let t := (List.range 4).foldl (fun (a : State) (c : Nat) =>
    abandonRx c (match txOf a c with | some m => endSend c stPLK_LINK_FAULT m.acked a | none => a)) s
  wrF pgPLK 0x088 6 0 0 (wrF pgPLK 0x080 6 0 0
    (modPlk (fun l => { l with unacked := [], sends := 0, resend := 0, tx := [], rx := [], ack := none, nak := none }) t))

/-- LINK_FAULT with a reason (R602, R603); the queued SENDs are held from here on and told of (R143). -/
def linkFault (reason seq : Nat) (s : State) : State :=
  let t := raise pgPLK 0x101 sevBLOCK (reason + seq % 2 ^ 24 * 2 ^ 8) (linkEnds s)
  (pageJobs t pgPLK).queue.foldl (fun u j => tellHeldJob pgPLK j u) t

/-- The effect of a write of ENABLE: 1 starts training where the link is not up; 0 ends the link and tells the peer.
[DEDUCED, log entry 204] -/
def effPlkEnable (on : Bool) (s : State) : State :=
  if on then
    (if plkUp s || plkTraining s then s
     else wrB pgPLK 0x080 5 true (modPlk (fun l => { l with trainAt := now s, slowTold := false, clashTold := false }) s))
  else if plkUp s then sendControl 0x16 0 (linkEnds s)
  else wrF pgPLK 0x080 6 0 0 s

/-- PLK_ENABLE: the owner writes 1 to `PG_CTRL.ENABLE`. -/
def execPlkEnable (q : Port) (s : State) : Host.Outcome State Fault Refusal :=
  settle s (gateWrite q pgPLK 0x00C (fun s => effPlkEnable true (wrB pgPLK 0x00C 0 true s)) s)

/-- PLK_TRAINING_DONE: training and the exchange of module IDs end (R600, R601). [DEDUCED, log entry 200] -/
def execPlkTrainingDone (peerId : Byte) (reversed : Bool) (s : State) : Host.Outcome State Fault Refusal :=
  if !plkTraining s || !enabled s pgPLK then .next s
  else
    let own := rdF s pgPLK 0x084 7 0
    let peer := peerId.toNat
    let t := wrF pgPLK 0x080 15 8 peer s
    if own = 0 ∨ peer = 0 ∨ own = peer then
      settle s (if s.plk.clashTold then t
        else raise pgPLK 0x105 sevINFO peer (modPlk (fun l => { l with clashTold := true }) t))
    else
      let t := wrF pgPLK 0x080 6 0 (0x1F + 64 * b2n reversed) t
      let t := modPlk (fun l =>
        { l with
          nextSeq := 0, unacked := [], sends := 0, resend := 0, rxSeq := 0, tx := [], rx := [], ack := none, nak := none,
          lastControl := now s }) t
      settle s (raise pgPLK 0x100 sevINFO ((now s - s.plk.trainAt) / 1000) t)

/-- TRAIN_SLOW: UP not reached 100 ms after ENABLE was set, told once. -/
def execTrainSlow (s : State) : Host.Outcome State Fault Refusal :=
  if plkTraining s && enabled s pgPLK && !s.plk.slowTold && decide (s.plk.trainAt + 100000000 ≤ now s) then
    settle s (raise pgPLK 0x104 sevDEGRADED 0 (modPlk (fun l => { l with slowTold := true }) s))
  else .next s

/-- The link faults where it is up. -/
def faultIfUp (reason : Nat) (s : State) : State :=
  if plkUp s then linkFault reason (match s.plk.unacked with | f :: _ => f.seq | [] => s.plk.nextSeq) s else s

/-- LANE_LOCK_LOSS: block lock on a lane was lost for 10 µs. -/
def execLaneLockLoss (lane : Fin 4) (s : State) : Host.Outcome State Fault Refusal :=
  settle s (if plkUp s then faultIfUp 0x2 (wrB pgPLK 0x080 (1 + lane.val) false s) else s)

/-- CONTROL_BLOCK_TIMEOUT: no control block for 100 µs. [DEDUCED, log entry 205] -/
def execControlBlockTimeout (s : State) : Host.Outcome State Fault Refusal :=
  settle s (if s.plk.lastControl + 100000 ≤ now s then faultIfUp 0x4 s else s)

/-! ### Sending (R604 to R608) -/

/-- A frame slot has come. [DEDUCED, log entry 205] -/
def slotDue (s : State) : Bool := decide (s.plk.lastSlot + 1000 ≤ now s) || decide (s.plk.lastSlot = 0)

/-- The frame to resend: the resend count runs from the oldest. -/
def resendFrame (s : State) : Option (Nat × LinkFrame) :=
  let l := s.plk
  if l.resend = 0 then none else (l.unacked[l.unacked.length - l.resend]?).map (fun f => (l.unacked.length - l.resend, f))

/-- One retransmitted frame goes out. -/
def resendOne (i : Nat) (f : LinkFrame) (s : State) : State :=
  incCnt pgPLK 0x094 1 (modPlk (fun l =>
    { l with
      resend := l.resend - 1, wire := f.bytes, sends := if i = 0 then l.sends + 1 else l.sends, lastSlot := now s
      unacked := l.unacked.set i { f with sentAt := now s } }) s)

/-- A data frame's bytes (R615). -/
def frameBytes (c seq : Nat) (m : TxMsg) (payload : List Byte) : List Byte :=
  let b := leBytes 1 1 ++ leBytes 1 c ++ zeros 2 ++ leBytes 4 seq ++ leBytes 4 m.id ++ leBytes 4 m.next ++ leBytes 4 m.len ++
    leBytes 4 m.tag ++ zeros 8 ++ payload ++ zeros (4096 - payload.length)
  b ++ leBytes 4 (Crypto.crc32 b)

/-- The channel whose running message has a frame to send. -/
def txChan (s : State) : Option (Nat × TxMsg) :=
  (List.range 4).findSome? (fun c => match txOf s c with
    | some m => if m.next < framesOf m.len then some (c, m) else none
    | none => none)

/-- The next frame of a message is read and goes out, or its job ends by its deadline or a poisoned read (R612). -/
def sendOne (c : Nat) (m : TxMsg) (s : State) : State :=
  let late := match (pageJobs s pgPLK).running.find? (ofChan c) with | some j => pastDeadline s j.deadline | none => false
  let a := m.src + 4096 * m.next
  let n := min 4096 (m.len - 4096 * m.next)
  if late then sendControl 0x15 m.id (setTx c none (abortDeadlineIf pgPLK (ofChan c) s))
  else if !canUse s .dexvor a n then s
  else
    let r := readAs .dexvor a n s
    match r.2.1 with
    | some w => sendControl 0x15 m.id (endSend c stABORT_POISON w r.2.2)
    | none =>
      let seq := s.plk.nextSeq
      let b := frameBytes c seq m r.1
      let t := setTx c (some { m with next := m.next + 1 }) r.2.2
      let t := modPlk (fun l =>
        { l with
          nextSeq := (seq + 1) % 2 ^ 32, unacked := l.unacked ++ [⟨seq, now s, b⟩], wire := b, lastSlot := now s
          sends := if l.unacked.isEmpty then 1 else l.sends }) t
      touch pgPLK (incCnt pgPLK 0x08C 1 (wrF pgPLK 0x088 6 0 (rdF s pgPLK 0x088 6 0 - 1) t))

/-- DATA_FRAME_SEND: at a frame slot, a retransmitted frame, or the next frame of the lowest channel that has one and a
credit. -/
def execDataFrameSend (s : State) : Host.Outcome State Fault Refusal :=
  if !plkUp s || !slotDue s then .next s
  else match resendFrame s with
    | some f => settle s (resendOne f.1 f.2 s)
    | none =>
      match txChan s with
      | none => .next s
      | some x =>
        if rdF s pgPLK 0x088 6 0 = 0 ∨ 64 ≤ s.plk.unacked.length then .next s else settle s (sendOne x.1 x.2 s)

/-- A control block arrives: one with a bad CRC is discarded and counted (R615). -/
def takeControl (crcOk : Bool) (k : State → State) (s : State) : Host.Outcome State Fault Refusal :=
  if !plkUp s then .next s
  else if !crcOk then settle s (incCnt pgPLK 0x098 1 s)
  else settle s (k (modPlk (fun l => { l with lastControl := now s }) s))

/-- A frame of a channel's message was acknowledged. [DEDUCED, log entry 201] -/
def countAcked (f : LinkFrame) (s : State) : State :=
  let c := byteAt f.bytes 1
  match txOf s c with
  | some m => if m.id = leAt f.bytes 8 4 then setTx c (some { m with acked := m.acked + 1 }) s else s
  | none => s

/-- Sequence `a` lies at or before `b`, modulo 2^32, within half the range. [DEDUCED, log entry 201] -/
def seqLe (a b : Nat) : Bool := decide ((b + 2 ^ 32 - a) % 2 ^ 32 < 2 ^ 31)

/-- ACK: every unacknowledged frame up to `seq` is acknowledged (R606). -/
def execAck (seq : Nat) (crcOk : Bool) (s : State) : Host.Outcome State Fault Refusal :=
  takeControl crcOk (fun s =>
    let gone := s.plk.unacked.filter (fun f => seqLe f.seq (seq % 2 ^ 32))
    let rest := s.plk.unacked.filter (fun f => !seqLe f.seq (seq % 2 ^ 32))
    let t := gone.foldl (fun (a : State) (f : LinkFrame) => countAcked f a) s
    modPlk (fun l =>
      { l with unacked := rest, resend := min l.resend rest.length, sends := if gone.isEmpty then l.sends else b2n (!rest.isEmpty) }) t) s

/-- Every unacknowledged frame is to be resent; the oldest after its fourth sending faults the link (R607).
[DEDUCED, log entry 202] -/
def startResend (s : State) : State :=
  match s.plk.unacked with
  | [] => s
  | f :: _ =>
    if 4 ≤ s.plk.sends then linkFault 0x1 f.seq s else modPlk (fun l => { l with resend := l.unacked.length }) s

/-- NAK: while its resending is under way, a further copy changes nothing. [DEDUCED, log entry 202] -/
def execNak (_seq : Nat) (crcOk : Bool) (s : State) : Host.Outcome State Fault Refusal :=
  takeControl crcOk (fun s => if s.plk.resend ≠ 0 then s else startResend s) s

/-- RETX_TIMEOUT: the oldest unacknowledged frame has waited 20 µs since its last sending. -/
def execRetxTimeout (s : State) : Host.Outcome State Fault Refusal :=
  if !plkUp s then .next s
  else match s.plk.unacked with
    | [] => .next s
    | f :: _ => if s.plk.resend ≠ 0 ∨ now s < f.sentAt + 20000 then .next s else settle s (startResend s)

/-- CREDIT: the credits the peer grants. -/
def execCredit (credits : Fin 65) (crcOk : Bool) (s : State) : Host.Outcome State Fault Refusal :=
  takeControl crcOk (wrF pgPLK 0x088 6 0 credits.val) s

/-- The channel that sends message `msg`. -/
def chanOfMsg (s : State) (msg : Nat) : Option Nat :=
  (List.range 4).find? (fun c => match txOf s c with | some m => decide (m.id = msg) | none => false)

/-- DELIVERED: the SEND of the message completes with DONE (R611). -/
def execDelivered (msg : Nat) (crcOk : Bool) (s : State) : Host.Outcome State Fault Refusal :=
  takeControl crcOk (fun s => match chanOfMsg s msg with | some c => endSend c stDONE 0 s | none => s) s

/-- REFUSE: the SEND of the message completes with PLK_RX_REFUSED and the peer's reason (R609). -/
def execRefuse (msg reason : Nat) (crcOk : Bool) (s : State) : Host.Outcome State Fault Refusal :=
  takeControl crcOk (fun s => match chanOfMsg s msg with | some c => endSend c stPLK_RX_REFUSED (reason % 256) s | none => s) s

/-- ABANDON: the reception of the message ends with PLK_RX_ABANDONED (R612). -/
def execAbandon (msg : Nat) (crcOk : Bool) (s : State) : Host.Outcome State Fault Refusal :=
  takeControl crcOk (fun s =>
    match (List.range 4).find? (fun c => match rxOf s c with | some m => decide (m.id = msg) | none => false) with
    | some c => abandonRx c s
    | none => s) s

/-- DOWN: the peer's ENABLE has been cleared. -/
def execDown (crcOk : Bool) (s : State) : Host.Outcome State Fault Refusal := takeControl crcOk (faultIfUp 0x3) s

/-! ### Receiving (R606, R609 to R611, R614) -/

def postReg (c off : Nat) : Nat := 0x100 + 0x20 * c + off
def postRing (s : State) (c : Nat) : PostRing := s.plk.post.get PostRing.none c
def setPost (c : Nat) (r : PostRing) (s : State) : State := modPlk (fun l => { l with post := l.post.put PostRing.none c r }) s
def postOn (s : State) (c : Nat) : Bool := rdB s pgPLK (postReg c 0x08) 31

/-- `PLK_RXc_CFG.LOG2_DEPTH`: values outside 4 to 10 act as 4. -/
def postDepth (s : State) (c : Nat) : Nat :=
  let n := rdF s pgPLK (postReg c 0x08) 3 0
  2 ^ (if n < 4 ∨ 10 < n then 4 else n)

/-- The part of a write of `PLK_RXc_CFG` that enables the ring. -/
def effPostCfg (c : Nat) (old : Bool) (s : State) : State :=
  if postOn s c && !old then
    let base := (rd s pgPLK (postReg c 0)).toNat / 32 * 32 + rdF s pgPLK (postReg c 4) 7 0 * 2 ^ 32
    if !isData s base (postDepth s c * 32) then hwClearLost pgPLK (postReg c 0x08) 31 s
    else wrN pgPLK (postReg c 0x0C) 0 (setPost c ⟨base, postDepth s c, 0⟩ s)
  else s

/-- The doorbell of a posting ring (R109). -/
def effPostDb (q : Port) (c tail : Nat) (s : State) : State :=
  let depth := if postOn s c then (postRing s c).depth else postDepth s c
  if depth ≤ tail then cmdRej q pgPLK (postReg c 0x10) 0 s
  else setPost c { postRing s c with tail := tail } s

/-- PLK_RX_DOORBELL. -/
def execPlkRxDoorbell (q : Port) (c : Fin 4) (tail : Nat) (s : State) : Host.Outcome State Fault Refusal :=
  settle s (gateWrite q pgPLK (postReg c.val 0x10) (effPostDb q c.val (tail % 1024)) s)

/-- An entry breaks R614. [DEDUCED, log entry 203] -/
def entryBad (s : State) (e : List Byte) : Bool :=
  let buf := leAt e 0 8
  let cap := leAt e 8 4
  let cpl := leAt e 16 8
  decide (buf % 4096 ≠ 0) || decide (cap = 0) || decide (16777216 < cap) || !isData s buf cap || decide (cpl % 32 ≠ 0) ||
    !isData s cpl 32 || !zerosAt e 12 4 || !zerosAt e 28 4

/-- The frames of a message are discarded, its sender told by REFUSE with a reason. [DEDUCED, log entry 203] -/
def refuseRx (c id len reason : Nat) (s : State) : State :=
  sendControl 0x14 (id + reason * 2 ^ 32) (setRx c (some ⟨id, len, 0, none, now s, 0⟩) s)

/-- Frame 0 of a message takes the entry at HEAD (R609, R614). -/
def takeEntry (c id len : Nat) (s : State) : State :=
  let r := postRing s c
  let head := rdF s pgPLK (postReg c 0x0C) 9 0
  let none1 (t : State) : State := refuseRx c id len 0x1 (raise pgPLK 0x102 sevINFO (c + 0x1 * 2 ^ 8) t)
  if !postOn s c || decide (head = r.tail) then none1 s
  else
    let e := readAs .dexvor (r.base + 32 * head) 32 s
    if e.2.1.isSome || entryBad s e.1 then
      none1 (raise pgPLK 0x106 sevJOB (c + head * 2 ^ 8) (hwClear pgPLK (postReg c 0x08) 31 e.2.2))
    else
      let ent := (leAt e.1 0 8, leAt e.1 16 8, leAt e.1 24 4)
      let t := wrF pgPLK (postReg c 0x0C) 9 0 ((head + 1) % r.depth) e.2.2
      if leAt e.1 8 4 < len then refuseRx c id len 0x2 (rxRecord ent stPLK_RX_TOO_SMALL len (now s) t)
      else setRx c (some ⟨id, len, 0, some ent, now s, 0⟩) t

/-- One accepted frame of the message a channel receives is written; the last one completes the entry (R609, R611). -/
def takePayload (c tag : Nat) (payload : List Byte) (s : State) : State :=
  match rxOf s c with
  | none => s
  | some m =>
    match m.entry with
    | none => if m.next + 1 = framesOf m.len then setRx c none s else setRx c (some { m with next := m.next + 1 }) s
    | some e =>
      let n := min 4096 (m.len - 4096 * m.next)
      let w := writeAs .dexvor (e.1 + 4096 * m.next) (payload.take n) s
      match w.1 with
      | some a =>
        sendControl 0x14 (m.id + 0x4 * 2 ^ 32) (setRx c (some { m with entry := none, next := m.next + 1 })
          (rxRecord e stWR_POISONED a m.start w.2))
      | none =>
        if m.next + 1 = framesOf m.len then
          let t := rxRecord e stDONE (m.len + tag * 2 ^ 32) m.start w.2
          let t := incCnt pgPLK (postReg c 0x14) 1 (raise pgPLK 0x103 sevINFO (c + e.2.2 % 2 ^ 24 * 2 ^ 8) t)
          sendControl 0x13 m.id (setRx c none t)
        else setRx c (some { m with next := m.next + 1, written := m.written + n }) w.2

/-- The memory a frame needs: the entry of its channel's ring for frame 0, and the buffer, can be used now. -/
def frameMemory (s : State) (c idx : Nat) : Bool :=
  let r := postRing s c
  let head := rdF s pgPLK (postReg c 0x0C) 9 0
  if idx = 0 then
    !postOn s c || decide (head = r.tail) ||
      (canUse s .dexvor (r.base + 32 * head) 32 && (let e := getBytes s (r.base + 32 * head) 32
        entryBad s e || (canUse s .dexvor (leAt e 0 8) (leAt e 8 4) && canUse s .record (leAt e 16 8) 32)))
  else match rxOf s c with
    | some m => (match m.entry with | some e => canUse s .dexvor (e.1 + 4096 * idx) (min 4096 (m.len - 4096 * idx)) && canUse s .record e.2.1 32 | none => true)
    | none => true

/-- DATA_FRAME_RECEIVE: a frame with a CRC error or out of sequence is discarded with NAK; an accepted one is acknowledged
and written to its buffer. A frame that waits for memory has not been accepted yet. -/
def execDataFrameReceive (frame : List Byte) (s : State) : Host.Outcome State Fault Refusal :=
  if !plkUp s then .next s
  else if frame.length ≠ 4132 ∨ leAt frame 4128 4 ≠ Crypto.crc32 (frame.take 4128) then
    settle s (modPlk (fun l => { l with nak := some l.rxSeq }) (incCnt pgPLK 0x098 1 s))
  else if leAt frame 4 4 ≠ s.plk.rxSeq ∨ byteAt frame 0 ≠ 1 then settle s (modPlk (fun l => { l with nak := some l.rxSeq }) s)
  else
    let c := byteAt frame 1
    let idx := leAt frame 12 4
    if c < 4 ∧ frameMemory s c idx = false then .next s
    else
      let t := incCnt pgPLK 0x090 1 (modPlk (fun l =>
        { l with ack := some l.rxSeq, nak := none, rxSeq := (l.rxSeq + 1) % 2 ^ 32 }) s)
      if 4 ≤ c then settle s t
      else
        let t := if idx = 0 then takeEntry c (leAt frame 8 4) (leAt frame 16 4) t else t
        match rxOf t c with
        | some m =>
          settle s (if m.id = leAt frame 8 4 ∧ m.next = idx then takePayload c (leAt frame 20 4) ((frame.drop 32).take 4096) t else t)
        | none => settle s t

/-- The fence of the page (R633, R612): ABANDON for the message of each running SEND; the link stays up.
[DEDUCED, log entry 206] -/
def plkFence (s : State) : State :=
  (List.range 4).foldl (fun s c => match txOf s c with
    | some m => setTx c none (sendControl 0x15 m.id s)
    | none => s) s

end Sys2Proof.Machine
end

