-- ==== Sys2Proof/Machine/Pages.lean ====
section
/-!
DEFINITION. What every page shares beyond its registers: which pages run jobs and how each checks them, readiness, ENABLE and
QUIESCE, fences and their release (R629 to R633), stall timers (R627, R628), the latched fault and the fault mirror's commands
(R64, R620 to R622), event tests (R63), locks (R73) and register time-outs (R80).
-/
namespace Sys2Proof.Machine

/-! ### Jobs by page -/

/-- The page takes jobs: stream units, tensor cores, generation, vision, Goshawk, fusion, Fishhawk and the Dexvor link.
[DEDUCED, log entry 31] -/
def runsJobs (p : Nat) : Bool :=
  match kindOf p with
  | some k => decide (k = .strm ∨ k = .tc ∨ k = .gen ∨ k = .wrp ∨ k = .pyr ∨ k = .hwk ∨ k = .owl ∨ k = .kes ∨ k = .gsh
      ∨ k = .fus ∨ k = .fsh ∨ k = .plk)
  | none => false

/-- FENCE acts on the page: those that run jobs and those of the table of R633. [DEDUCED, log entry 27] -/
def fenceable (p : Nat) : Bool :=
  runsJobs p || (match kindOf p with
    | some k => decide (k = .mews ∨ k = .csi ∨ k = .eth ∨ k = .can ∨ k = .spi ∨ k = .uart ∨ k = .gpio ∨ k = .fst ∨ k = .mbr)
    | none => false)

/-- The memory a job of a page names, and the first field of it in error. -/
def jobAddrs (p : Nat) (j : Job) : List Nat :=
  match kindOf p with
  | some .strm => strmAddrs j
  | some .tc => tcAddrs j
  | some .gen => genAddrs j
  | some .gsh => gshAddrs j
  | some .fus => fusAddrs j
  | some .fsh => fshAddrs j
  | some .plk => plkAddrs j
  | _ => visAddrs (p - 0x090) j

def jobBad (s : State) (p : Nat) (j : Job) : Option (Nat × Nat) :=
  match kindOf p with
  | some .strm => strmBad s j
  | some .tc => tcBad s j
  | some .gen => genBad s j
  | some .gsh => gshBad s j
  | some .fus => fusBad s j
  | some .fsh => fshBad s j
  | some .plk => plkBad s j
  | _ => visBad (p - 0x090) s j

/-- The queue a job would join has no room: 4 jobs on a stream unit or core, 32 on GEN, 8 elsewhere, on Fishhawk for each unit
and on the Dexvor link for each channel. -/
def queueFull (s : State) (p : Nat) (j : Job) : Bool :=
  let l := (pageJobs s p).queue
  match kindOf p with
  | some .strm => decide (4 ≤ l.length)
  | some .tc => decide (4 ≤ l.length)
  | some .gen => decide (32 ≤ l.length)
  | some .fsh => decide (8 ≤ (l.filter (fun x => isSearch x == isSearch j)).length)
  | some .plk => decide (8 ≤ (l.filter (ofChan (sendChan j))).length)
  | _ => decide (8 ≤ l.length)

/-- A queued job waits for a dependency (R141): those of every job, the cores of its chains, the link of a SEND.
[DEDUCED, log entry 24] -/
def depHeld (s : State) (p : Nat) (j : Job) : Bool :=
  !depsMet s p j (jobAddrs p j) ||
    (match kindOf p with
     | some .tc => !chainReady s (p - 0x080) j
     | some .plk => !plkUp s
     | _ => false)

/-- A job at the head of its queue is held by its trigger, its frame or, as a BIND, by the search unit (R258, R295, R390, R398,
R493). -/
def headHeld (s : State) (p : Nat) (j : Job) : Bool :=
  match kindOf p with
  | some .strm => (match strmTrig j with | some i => decide (trigCount s p i = 0) | none => false)
  | some .tc => (match tcTrig j with | some i => decide (trigCount s p i = 0) | none => false)
  | some .gen => false
  | some .gsh => trigHeld s p (gshTrig j)
  | some .fus => trigHeld s p (fusTrig j)
  | some .fsh => trigHeld s p (fshTrig j) || decide (j.op = 0x001) && (pageJobs s p).running.any isSearch
  | some .plk => false
  | _ => decide (visHold s (p - 0x090) j ≠ 0)

/-- The job is the first of its queue: of its unit on Fishhawk, of its channel on the Dexvor link. -/
def isHead (s : State) (p : Nat) (j : Job) : Bool :=
  let l := (pageJobs s p).queue
  match kindOf p with
  | some .fsh => decide ((l.filter (fun x => isSearch x == isSearch j)).head? = some j)
  | some .plk => decide ((l.filter (ofChan (sendChan j))).head? = some j)
  | _ => decide (l.head? = some j)

/-- A queued job is held (R143, R144). -/
def jobHeld (s : State) (p : Nat) (j : Job) : Bool := depHeld s p j || (isHead s p j && headHeld s p j)

/-- Every queued job of a page that is held by a dependency now has been told of (R143). [DEDUCED, log entry 52] -/
def tellAll (p : Nat) (s : State) : State :=
  (pageJobs s p).queue.foldl (fun t j => if depHeld t p j then tellHeldJob p j t else t) s

/-- The same on every page that runs jobs: after what may hold jobs elsewhere. -/
def tellPages (s : State) : State := (allPages.filter runsJobs).foldl (fun t p => tellAll p t) s

/-- The same on the pages whose jobs may depend on page `p`: `p` itself, and where it is a core every core, for its chains. -/
def tellLinked (p : Nat) (s : State) : State :=
  if kindOf p = some .tc then tellPages s else if runsJobs p then tellAll p s else s

/-- A page counts as busy or queued for R146; a page past FENCE_SLOW counts as neither (R631). [DEDUCED, log entry 66] -/
def busyForOff (s : State) (p : Nat) : Bool :=
  runsJobs p && !(fenceOf s p).slow && (!(pageJobs s p).running.isEmpty || !(pageJobs s p).queue.isEmpty)

/-! ### Fences (R629 to R633) -/

/-- A slot whose sequence a fence has ended: its pages stay under their owner (R633). [DESIGN CHOICE, log entry 30] -/
def keepSlot (v : GenSlot) : GenSlot :=
  { v with st := 2, job := none, stop := false, ending := 0, drafts := [] }

/-- What the fence of a page takes back and stops beside its jobs: waits, run-ahead, requests at the Mews; the effects of the
table of R633. [DEDUCED, log entry 27] -/
def fenceHook (p : Nat) (s : State) : State :=
  match kindOf p with
  | some .strm => strmStop (p - 0x040) s
  | some .tc => tcStop (p - 0x080) s
  | some .gen =>
    let t := (List.range 16).foldl (fun t n => if (slotOf t n).st = 1 then modSlot n keepSlot t else t) s
    let t := (List.range 16).foldl (fun t n => mewsDrop (.gen n) t) t
    let t := semWithdraw (fun w => match w with | .kv _ _ => true | .sampler => true | _ => false) t
    modGen (fun g => { g with step := false, plan := [], sent := [], mover := [], retryAt := 0 }) t
  | some .fsh => fshStop s
  | some .fus => fusStop s
  | some .gsh => gshStop s
  | some .plk => plkFence s
  | some .mews => mewsWithdraw (fun r => match r.src with | .host _ => false | _ => true) true s
  | some .eth => ethFence (p - 0x0D8) s
  | some .fst => fstFence s
  | some .wrp | some .pyr | some .hwk | some .owl | some .kes => unpinAborted p (visStop (p - 0x090) s)
  | _ => s

/-- The running and queued jobs of a page end with ABORT_FENCED, their triggers not posted; a queued one was refused now
(R88). -/
def endFenced (p : Nat) (s : State) : State :=
  modJobs p (fun j => { j with
    running := [], queue := [],
    done := j.done ++ j.running.map (fun r => DoneJob.mk r stABORT_FENCED 0 (now s) true false false j.started) ++
      j.queue.map (fun r => DoneJob.mk { r with accepted := now s } stABORT_FENCED 0 (now s) true false false 0) }) s

/-- FENCE becomes 1 on a page that it acts on (R629); jobs of other cores' chains that it holds are told of (R143).
[DEDUCED, log entries 26, 28] -/
def startFence (p : Nat) (s : State) : State :=
  let t := setFence p ⟨true, now s, false, false, 0⟩ s
  if runsJobs p then tellLinked p (syncQuiesced p (wrB p 0x010 2 false (endFenced p (fenceHook p t)))) else fenceHook p t

/-- A fence is released (R632): FENCED clears; READY follows by PAGE_READY.
[DEDUCED, log entry 26; DESIGN CHOICE, log entry 30] -/
def releaseFence (p : Nat) (s : State) : State := setReadyBit p 2 false (setFence p FenceState.none s)

/-- What a write of FENCE does: 1 fences, or takes back an early 0; 0 releases once FENCED is set. -/
def effFence (p : Nat) (on : Bool) (s : State) : State :=
  let f := fenceOf s p
  if !fenceable p then s
  else if on then (if f.active then setFence p { f with release := false } s else startFence p s)
  else if !f.active then s
  else if fenced s p then releaseFence p s
  else setFence p { f with release := true } s

/-- Every handshake in flight at the fence has completed: the completion records are written. -/
def fenceIdle (s : State) (p : Nat) : Bool := (pageJobs s p).done.isEmpty

/-- FENCE_COMPLETE (R631, R632). [DEDUCED, log entry 29] -/
def execFenceComplete (page : Nat) (s : State) : Host.Outcome State Fault Refusal :=
  settle s (if pageOn s page && fenceBit s page && !fenced s page && fenceIdle s page then
    let v := putBits (putBits (rd s page 0x008).toNat 0 0 0) 2 2 1
    let t := setReady page v s
    if (fenceOf s page).release then releaseFence page t else t
  else s)

/-- FENCE_SLOW (R631). [DEDUCED, log entry 29] -/
def execFenceSlow (page : Nat) (s : State) : Host.Outcome State Fault Refusal :=
  let f := fenceOf s page
  settle s (if pageOn s page && f.active && !f.slow && !fenced s page && decide (f.since + 1000000 ≤ now s) then
    let n := (pageJobs s page).done.length
    raise page cFENCE_SLOW sevBLOCK n (setFence page { f with slow := true, lost := n } s)
  else s)

/-! ### `PG_CTRL` -/

/-- What a write of `PG_CTRL` does after its fields have landed: ENABLE starts or ends the Dexvor link and opens the Mews; jobs
held from now on are told of; QUIESCED follows QUIESCE; FENCE acts. -/
def effPgCtrl (p : Nat) (old : Word) (s : State) : State :=
  let on := enabled s p
  let t := if on = flag old 0 then s
    else if p = pgPLK then effPlkEnable on s
    else if p = pgMEWS && on then effServe s
    else s
  let t := if runsJobs p then syncQuiesced p (tellLinked p t) else t
  effFence p (rdB s p 0x00C 1) t

/-- A write of `PG_CTRL`. -/
def writePgCtrl (q : Port) (p : Nat) (w : Word) (s : State) : State :=
  effPgCtrl p (rd s p 0x00C) (landAt q p 0x00C false w s)

/-- A write of one field of `PG_CTRL`, its other fields as they stand. -/
def writeCtrlBit (q : Port) (p i : Nat) (b : Bool) (s : State) : State :=
  gateWrite q p 0x00C (fun s => writePgCtrl q p (setFld (rd s p 0x00C) i i (b2n b)) s) s

/-- PAGE_ENABLE (R141). -/
def execPageEnable (q : Port) (page : Nat) (on : Bool) (s : State) : Host.Outcome State Fault Refusal :=
  settle s (writeCtrlBit q page 0 on s)

/-- PAGE_QUIESCE (R141, `PG_READY.QUIESCED`). -/
def execPageQuiesce (q : Port) (page : Nat) (on : Bool) (s : State) : Host.Outcome State Fault Refusal :=
  settle s (writeCtrlBit q page 2 on s)

/-- PAGE_FENCE (R629). -/
def execPageFence (q : Port) (page : Nat) (s : State) : Host.Outcome State Fault Refusal :=
  settle s (writeCtrlBit q page 1 true s)

/-- PAGE_UNFENCE (R632). -/
def execPageUnfence (q : Port) (page : Nat) (s : State) : Host.Outcome State Fault Refusal :=
  settle s (writeCtrlBit q page 1 false s)

/-! ### Readiness (R139, R140) -/

/-- The pages that PAGE_READY makes ready: all but the memory pages, whose own rows do. [DEDUCED, log entry 33] -/
def readyByRow (p : Nat) : Bool :=
  match kindOf p with
  | some k => decide (k ≠ .dmc ∧ k ≠ .res ∧ k ≠ .flg)
  | none => false

/-- PAGE_READY (R139). [DEDUCED, log entry 33; DESIGN CHOICE, log entry 212] -/
def execPageReady (page : Nat) (s : State) : Host.Outcome State Fault Refusal :=
  settle s (if readyByRow page && pageOn s page && !ready s page && !fenceBit s page then
    syncQuiesced' page (setReadyBit page 0 true s)
  else s)
where
  /-- A page that runs jobs and is quiesced is QUIESCED as well. -/
  syncQuiesced' (p : Nat) (s : State) : State := if runsJobs p then syncQuiesced p s else s

/-! ### Stalls (R627, R628) -/

/-- `PG_STALL_MS`: 0 acts as 1, values above 1,000 act as 1,000. [DEDUCED, log entry 32] -/
def stallMs (s : State) (p : Nat) : Nat := min 1000 (max 1 (rdF s p 0x038 9 0))

/-- STALL (R628): once per stall, while a job runs. -/
def execStall (page : Nat) (s : State) : Host.Outcome State Fault Refusal :=
  let ms := msSince s (pageJobs s page).progress
  settle s (if runsJobs page && pageOn s page && !(pageJobs s page).running.isEmpty && !rdB s page 0x010 2 &&
      decide (stallMs s page ≤ ms) then
    raise page cSTALL sevDEGRADED (satN 32 ms) (wrB page 0x010 2 true s)
  else s)

/-! ### The latched fault (R64, R620 to R622) -/

/-- A write of 1 to `PG_FAULT.VALID`: VALID, CODE, SEV and `PG_FAULT_INFO` clear, and the mirror's TIMEOUT bit.
[DEDUCED, log entry 19] -/
def clearFault (p : Nat) (s : State) : State :=
  let t := wrN p 0x024 0 (wrN p 0x020 (rdF s p 0x020 17 17 * 2 ^ 17) s)
  { t with timeouts := t.timeouts.put false p false }

/-- PG_FAULT_CLEAR: with a fault (code, severity, detail) that arrives in the same instant, whose set wins (R67).
[DEDUCED, log entry 19] -/
def execPgFaultClear (q : Port) (page : Nat) (fault : Option (Nat × Nat × Nat)) (s : State) :
    Host.Outcome State Fault Refusal :=
  settle s (gateWrite q page 0x020 (fun s =>
    let t := clearFault page s
    match fault with
    | some f => if 3 ≤ f.2.1 ∧ f.2.1 ≤ 6 then raise page (f.1 % 4096) f.2.1 f.2.2 t else t
    | none => t) s)

/-- FM_CLR (R622). -/
def effFmClr (q : Port) (p : Nat) (s : State) : State := if assigned p then clearFault p s else cmdRej q pgFM 0x0E0 0 s

/-- A write of 1 to the FENCE of a page, without a handshake. -/
def setFenceBit (p : Nat) (s : State) : State := effFence p true (wrB p 0x00C 1 true s)

/-- FM_FENCE (R622). -/
def effFmFence (q : Port) (p : Nat) (s : State) : State := if pageOn s p then setFenceBit p s else cmdRej q pgFM 0x0E4 0 s

/-- FM_CLR. -/
def execFmClr (q : Port) (page : Nat) (s : State) : Host.Outcome State Fault Refusal :=
  settle s (gateWrite q pgFM 0x0E0 (effFmClr q (page % 4096)) s)

/-- FM_FENCE. -/
def execFmFence (q : Port) (page : Nat) (s : State) : Host.Outcome State Fault Refusal :=
  settle s (gateWrite q pgFM 0x0E4 (effFmFence q (page % 4096)) s)

/-! ### Event tests, locks, time-outs -/

/-- A write of `PG_EVT_SET` (R63): each bit written 1 sets its `PG_EVT` bit and posts one EVT_TEST. -/
def effEvtSet (p : Nat) (bits : Word) (s : State) : State :=
  ((List.range 32).filter (fun i => decide (i ≤ 12 ∨ 16 ≤ i) && flag bits i)).foldl
    (fun t i => raise p cEVT_TEST sevINFO i (setEvt p (some i) t)) s

/-- EVT_TEST (R63). [DEDUCED, log entry 18] -/
def execEvtTest (q : Port) (page : Nat) (bits : Word) (s : State) : Host.Outcome State Fault Refusal :=
  settle s (gateWrite q page 0x01C (effEvtSet page bits) s)

/-- PAGE_LOCK (R73): a write of 1 to `PG_LOCK.LOCK`; on a locked page it is dropped with LOCKED. -/
def execPageLock (q : Port) (page : Nat) (s : State) : Host.Outcome State Fault Refusal :=
  settle s (gateWrite q page 0x03C (landLck q page 0x03C 1) s)

/-- REG_TIMEOUT (R80, R621): the host port completes the access; a read returns all ones. The page does not answer, so
its `PG_EVT` bits stand and only the records are posted (chapter 3, common event codes). [DEDUCED, log entry 217] -/
def execRegTimeout (q : Port) (page off : Nat) (write : Bool) (s : State) : Host.Outcome State Fault Refusal :=
  settle s (if portLive s q && pageOn s page && decide (off < 4096) then
    let t := { s with timeouts := s.timeouts.put false page true }
    let t := if write then t else t.modPort q (fun p => { p with readData := 0xFFFFFFFF, readEP := false })
    let t := raise page cREG_TIMEOUT sevBLOCK (off + q.num * 2 ^ 20 + b2n write * 2 ^ 21) t
    wr page 0x014 (rd s page 0x014) (tellLinked page t)
  else s)

end Sys2Proof.Machine
end

