-- ==== Sys2Proof/Machine/Rings.lean ====
section
/-!
DEFINITION. The host's data paths beside the register pages and the data aperture: the command rings (R105 to R113), the
enabling of the event rings (R113, R116), held jobs past their deadline (R144) and the end of every job (R86, R87,
R90).
-/
namespace Sys2Proof.Machine

/-! ### Command rings (R105 to R113) -/

/-- `HPx_CR_CFG.LOG2_DEPTH`: values outside 4 to 12 act as 4. [DEDUCED, log entry 47] -/
def crDepth (s : State) (q : Port) (n : Nat) : Nat :=
  let l := rdF s (pgHP q) (crOff n 0x08) 3 0
  2 ^ (if l < 4 ∨ 12 < l then 4 else l)

def crBase (s : State) (q : Port) (n : Nat) : Nat :=
  (rd s (pgHP q) (crOff n 0)).toNat / 64 * 64 + rdF s (pgHP q) (crOff n 4) 7 0 * 2 ^ 32

def crHead (s : State) (q : Port) (n : Nat) : Nat := rdF s (pgHP q) (crOff n 0x0C) 11 0

/-- A doorbell write (R109): the depth is the latched one while the ring is enabled. [DEDUCED, log entry 47] -/
def effCrDb (q : Port) (n tail : Nat) (s : State) : State :=
  let depth := if crEnabled s q n then (cmdRing s q n).depth else crDepth s q n
  if depth ≤ tail then cmdRej q (pgHP q) (crOff n 0x10) 0 s
  else setCmdRing q n { cmdRing s q n with tail := tail } s

/-- What a write of `HPx_CR_CFG` does after it has landed: a ring that becomes enabled latches base, depth and target and
starts at 0; a ring outside DRAM and resident-store data is not enabled (R113). [DEDUCED, log entry 46] -/
def effCrCfg (q : Port) (n : Nat) (old : Bool) (s : State) : State :=
  if !crEnabled s q n || old then s
  else
    let base := crBase s q n
    let depth := crDepth s q n
    if !isData s base (64 * depth) then hwClearLost (pgHP q) (crOff n 0x08) 31 s
    else
      let r := cmdRing s q n
      wrB (pgHP q) (crOff n 0x14) 0 false (wrN (pgHP q) (crOff n 0x0C) 0 (setCmdRing q n { r with
        base := base, depth := depth, target := rdF s (pgHP q) (crOff n 0x08) 19 8, tail := 0, told := false } s))

/-- A write of `HPx_CR_CFG`. -/
def writeCrCfg (q : Port) (n : Nat) (w : Word) (s : State) : State :=
  effCrCfg q n (crEnabled s q n) (landAt q (pgHP q) (crOff n 0x08) false w s)

/-- `HPx_ER_CFG.LOG2_DEPTH`: values outside 6 to 16 act as 6. -/
def erDepth (s : State) (q : Port) (m : Nat) : Nat :=
  let l := rdF s (pgHP q) (erOff m 0x08) 4 0
  2 ^ (if l < 6 ∨ 16 < l then 6 else l)

def erBase (s : State) (q : Port) (m : Nat) : Nat :=
  (rd s (pgHP q) (erOff m 0)).toNat / 16 * 16 + rdF s (pgHP q) (erOff m 4) 7 0 * 2 ^ 32

/-- What a write of `HPx_ER_CFG` does after it has landed: an enable latches base and depth and sets HEAD and TAIL to 0; a
disable stops moderation. [DEDUCED, log entry 46] -/
def effErCfg (q : Port) (m : Nat) (old : Bool) (s : State) : State :=
  let r := evtRing s q m
  if !erEnabled s q m then setEvtRing q m { r with unsent := 0 } s
  else if old then s
  else
    let base := erBase s q m
    let depth := erDepth s q m
    if !isData s base (16 * depth) then hwClearLost (pgHP q) (erOff m 0x08) 31 s
    else wrN (pgHP q) (erOff m 0x10) 0 (wrN (pgHP q) (erOff m 0x0C) 0
      (setEvtRing q m { r with base := base, depth := depth, unsent := 0 } s))

/-- A write of `HPx_ER_CFG`. -/
def writeErCfg (q : Port) (m : Nat) (w : Word) (s : State) : State :=
  effErCfg q m (erEnabled s q m) (landAt q (pgHP q) (erOff m 0x08) false w s)

/-- CR_DOORBELL (R109). -/
def execCrDoorbell (q : Port) (ring : Fin 16) (tail : Nat) (s : State) : Host.Outcome State Fault Refusal :=
  settle s (gateWrite q (pgHP q) (crOff ring.val 0x10) (effCrDb q ring.val (tail % 4096)) s)

/-- CR_ENABLE (R113): a write of `HPx_CR_CFG` with ENABLE 1, its other fields as they stand. -/
def execCrEnable (q : Port) (ring : Fin 16) (s : State) : Host.Outcome State Fault Refusal :=
  settle s (gateWrite q (pgHP q) (crOff ring.val 0x08) (fun s =>
    writeCrCfg q ring.val (setFld (rd s (pgHP q) (crOff ring.val 0x08)) 31 31 1) s) s)

/-- ER_ENABLE (R113, R116): a write of `HPx_ER_CFG` with ENABLE 1, its other fields as they stand. -/
def execErEnable (q : Port) (ring : Fin 4) (s : State) : Host.Outcome State Fault Refusal :=
  settle s (gateWrite q (pgHP q) (erOff ring.val 0x08) (fun s =>
    writeErCfg q ring.val (setFld (rd s (pgHP q) (erOff ring.val 0x08)) 31 31 1) s) s)

/-- A ring halts at its entry at HEAD (R112). [DEDUCED, log entry 42] -/
def haltRing (q : Port) (n reason : Nat) (s : State) : State :=
  let head := crHead s q n
  let t := hwClear (pgHP q) (crOff n 0x08) 31 (setCmdRing q n { cmdRing s q n with told := false } s)
  let v := putBits (putBits (putBits (rd t (pgHP q) (crOff n 0x14)).toNat 0 0 1) 15 8 reason) 27 16 head
  raise (pgHP q) 0x100 sevJOB (n + reason * 2 ^ 8 + head * 2 ^ 16) (wrN (pgHP q) (crOff n 0x14) v t)

/-- HEAD advances past an entry, which counts as taken (R108). -/
def advanceRing (q : Port) (n : Nat) (s : State) : State :=
  let r := cmdRing s q n
  incCnt (pgHP q) (crOff n 0x18) 1 (wrN (pgHP q) (crOff n 0x0C) ((crHead s q n + 1) % r.depth)
    (setCmdRing q n { r with told := false } s))

/-- One more job of the ring runs. [DEDUCED, log entry 45] -/
def ringRuns (q : Port) (n : Nat) (s : State) : State :=
  setCmdRing q n { cmdRing s q n with running := (cmdRing s q n).running + 1 } s

/-- The first check of an entry alone that fails (R105, R112); 0 for none. [DEDUCED, log entries 42, 43] -/
def entryReason (s : State) (e : List Byte) : Nat :=
  let kind := leAt e 0 2
  let len := leAt e 2 2
  let addr := leAt e 8 8
  if 2 < kind then 0x01
  else if kind = 1 ∧ (len % 32 ≠ 0 ∨ len < 32 ∨ 4096 < len) then 0x02
  else if kind ≠ 1 ∧ len ≠ 0 then 0x02
  else if kind = 1 ∧ (addr % 32 ≠ 0 ∨ isData s addr len = false) then 0x03
  else if kind ≠ 1 ∧ addr ≠ 0 then 0x03
  else if !zerosAt e 4 4 || !zerosAt e 16 48 then 0x05
  else 0

/-- The page a job of a ring with this TARGET goes to (R106); only the tensor cores have several units. [DEDUCED, log entry 43] -/
def targetOf (target engine : Nat) : Nat := if target = 0x080 then target + engine else target

/-- `ENGINE` names a unit of the target type (R106). [DEDUCED, log entry 44] -/
def engineOk (target engine : Nat) : Bool := decide (target = 0x080 ∨ engine = 0)

/-- A job entry whose descriptor has been read: halted, held in its ring, skipped (none), or delivered (R106, R108, R110,
R111, R142). -/
def takeJob (q : Port) (n : Nat) (j : Job) (s : State) : Option State :=
  let r := cmdRing s q n
  let p := targetOf r.target j.engine
  if !runsJobs p || decide (owner s p ≠ q) then some (haltRing q n 0x04 s)
  else if !pageOn s p then
    if r.told then none else some (setCmdRing q n { cmdRing s q n with told := true } (raise p cWAIT_DEP sevINFO j.id s))
  else if r.told && !ready s p && !fenced s p then none
  else if queueFull s p j || goingOff s p then none
  else
    let bad := if engineOk r.target j.engine then jobBad s p j else some (4, 0x02)
    some (advanceRing q n (tellAll p (deliver p bad (jobAddrs p j) { j with told := r.told } (ringRuns q n s))))

/-- A ring's turn: what the port does with the entry at HEAD; none where the ring is skipped (R107, R110). -/
def takeEntryAt (q : Port) (n : Nat) (s : State) : Option State :=
  let r := cmdRing s q n
  let a := r.base + 64 * crHead s q n
  if !crEnabled s q n || decide (crHead s q n = r.tail) then none
  else if !isData s a 64 then some (haltRing q n 0x06 s)
  else if !canUse s (srcPort q) a 64 then none
  else
    let g := readAs (srcPort q) a 64 s
    if g.2.1.isSome then some (haltRing q n 0x06 g.2.2)
    else
      let e := g.1
      let why := entryReason s e
      if why ≠ 0 then some (haltRing q n why g.2.2)
      else if leAt e 0 2 = 0 then some (advanceRing q n g.2.2)
      else if leAt e 0 2 = 2 then (if r.running = 0 then some (advanceRing q n g.2.2) else none)
      else if !canUse s (srcPort q) (leAt e 8 8) (leAt e 2 2) then none
      else
        let d := readAs (srcPort q) (leAt e 8 8) (leAt e 2 2) g.2.2
        if d.2.1.isSome then some (haltRing q n 0x06 d.2.2)
        else takeJob q n ⟨d.1, q, n, false, now s⟩ d.2.2

/-- The rings of a port in the order of their turns from `k` on. -/
def takeFrom (q : Port) (s : State) : List Nat → State
  | [] => s
  | n :: t =>
    match takeEntryAt q n s with
    | some u => u.modPort q (fun p => { p with nextRing := (n + 1) % 16 })
    | none => takeFrom q s t

/-- CR_ENTRY_TAKE (R110); the port's aperture writes before its doorbell are done first where they can be (R100).
[DEDUCED, log entry 45] -/
def execCrEntryTake (q : Port) (s : State) : Host.Outcome State Fault Refusal :=
  settle s (if domOn s 1 then takeFrom q (serveHeld q s) ((List.range 16).map (fun i => ((s.port q).nextRing + i) % 16)) else s)

/-! ### Held jobs past their deadline (R144) -/

/-- Counts on a page whose domain is on; a page whose domain is off holds no counter. [DEDUCED, log entry 49] -/
def countJob (p off : Nat) (s : State) : State := if pageOn s p then incCnt p off 1 s else s

/-- An event whose record goes to the owner whatever `PG_EVT_EN` holds (R83 NOTIFY, R86). -/
def raiseAlways (p code sev detail : Nat) (s : State) : State :=
  postTo (owner s p) p code sev detail (latch p code sev detail (setEvt p (evtBit p code sev) s))

/-- The completion address of a job can hold its record. [DEDUCED, log entry 51] -/
def complOk (s : State) (a : Nat) : Bool := decide (a % 32 = 0) && isData s a 32

/-- The counters and the JOB_ABORT of a job that ends with an abort status; where it gets no completion record the event goes
to the owner whatever `PG_EVT_EN` holds (R86). -/
def abortEvent (p : Nat) (j : Job) (recorded : Bool) (s : State) : State :=
  let t := countJob p 0x034 (countJob p 0x030 s)
  if recorded then raise p cJOB_ABORT sevJOB j.id t else raiseAlways p cJOB_ABORT sevJOB j.id t

/-- A held job misses its deadline: told of at once, its record to follow when its memory is ready. [DEDUCED, log entry 53] -/
def expire (p : Nat) (j : Job) (s : State) : State :=
  let t := abortEvent p j (complOk s j.complAddr) (missEvent p j s)
  modJobs p (fun q => { q with
    done := q.done ++ [DoneJob.mk { j with accepted := now s } stABORT_DEADLINE (now s) (now s) false false true 0] }) t

/-- The job of a ring that is held for page `p` and past its deadline. [DEDUCED, log entry 48] -/
def expiredInRing (s : State) (p : Nat) (q : Port) (n : Nat) : Option Job :=
  let r := cmdRing s q n
  let a := r.base + 64 * crHead s q n
  if !crEnabled s q n || !r.told || decide (crHead s q n = r.tail) || !isData s a 64 then none
  else
    let e := getBytes s a 64
    let j : Job := ⟨getBytes s (leAt e 8 8) (leAt e 2 2), q, n, true, now s⟩
    if targetOf r.target j.engine = p ∧ pastDeadline s j.deadline = true then some j else none

/-- HELD_JOB_DEADLINE: a job held in the page's queue, else one held in a ring for the page; the ring's entry counts as
taken. -/
def execHeldJobDeadline (page : Nat) (s : State) : Host.Outcome State Fault Refusal :=
  settle s (match (pageJobs s page).queue.find? (fun j => jobHeld s page j && pastDeadline s j.deadline) with
    | some j => expire page j (modJobs page (fun q => { q with queue := q.queue.erase j }) s)
    | none =>
      let rings := [Port.a, Port.b].flatMap (fun q => (List.range 16).map (fun n => (q, n)))
      match rings.findSome? (fun x => (expiredInRing s page x.1 x.2).map (fun j => (x, j))) with
      | some x => expire page x.2 (advanceRing x.1.1 x.1.2 (ringRuns x.1.1 x.1.2 s))
      | none => s)

/-! ### The end of a job (R86, R87, R90) -/

/-- The ring that submitted a job runs one job less. [DEDUCED, log entry 48] -/
def ringDone (j : Job) (s : State) : State :=
  if j.ring < 16 then setCmdRing j.port j.ring
    { cmdRing s j.port j.ring with running := (cmdRing s j.port j.ring).running - 1 } s
  else s

/-- A job posts a trigger target where it is valid. -/
def postJobTrigger (p t : Nat) (s : State) : State :=
  if bitOf t 12 && trigOk t then trigPost p (bitsOf t 7 0) (bitsOf t 11 8) s else s

/-- The triggers of a finished job (R90). -/
def doneTriggers (p : Nat) (d : DoneJob) (s : State) : State :=
  if d.noTrig || (isAbort d.status && !d.job.trigOnError) then s
  else postJobTrigger p (d.job.trigger 1) (postJobTrigger p (d.job.trigger 0) s)

/-- The counters and the event of a finished job that was not told of before. [DEDUCED, log entry 51] -/
def doneEvents (p : Nat) (d : DoneJob) (recorded : Bool) (s : State) : State :=
  if d.reported then s
  else if isAbort d.status then abortEvent p d.job recorded s
  else
    let t := countJob p 0x030 s
    if d.job.notify then raiseAlways p cJOB_END sevINFO d.job.id t else raise p cJOB_END sevINFO d.job.id t

/-- A finished job completes: its record, its triggers, its counters and event, and everything that waited for its
completion. -/
def complete (p : Nat) (d : DoneJob) (s : State) : State :=
  let ok := complOk s d.job.complAddr && !d.noRecord
  let t := modJobs p (fun q => { q with done := q.done.erase d }) s
  let t := if ok then storeAs .record d.job.complAddr (completionRecord d) t else t
  let t := doneEvents p d ok (doneTriggers p d t)
  let t := unpinFrames p d.serial (ringDone d.job t)
  if d.job.ring = 17 then genJobDone d.job.complAddr d.status t else t

/-- The memory of a finished job's record can be written, or it gets none. [DESIGN CHOICE, log entry 50] -/
def canComplete (s : State) (d : DoneJob) : Bool :=
  d.noRecord || !complOk s d.job.complAddr || canUse s .record d.job.complAddr 32

/-- JOB_COMPLETION (R87): the page's oldest finished job whose record can be written. [DESIGN CHOICE, log entry 50] -/
def execJobCompletion (page : Nat) (s : State) : Host.Outcome State Fault Refusal :=
  settle s (match (pageJobs s page).done.find? (canComplete s) with
    | some d => complete page d s
    | none => s)

end Sys2Proof.Machine
end

