-- ==== Sys2Proof/Machine/Power.lean ====
section
/-!
DEFINITION. Power (chapters 5 and 22): the module's start, the boot ROM and its trim image (R134 to R138), what a domain loses
when it is switched (R79, R145 to R149), the DOMAIN and VCORE orders on the power page, the supervisor (R642 to R650), the rated
pace that follows VCORE and heat (R27 to R29, R152).
-/
namespace Sys2Proof.Machine

def modPower (f : PowerState → PowerState) (s : State) : State := { s with power := f s.power }
def modSup (f : SupState → SupState) (s : State) : State := { s with sup := f s.sup }

/-! ### Domains still to switch (R147) -/

/-- The domains that orders have left to switch; `PWR_DOM_STATE.BUSY` shows them. -/
def setSwitching (l : List (Nat × Bool)) (s : State) : State :=
  let busy : Nat := ((List.range 9).map (fun (d : Nat) => b2n (l.any (fun e => decide (e.1 = d))) * 2 ^ d)).foldl (· + ·) 0
  wrF pgPWR 0x080 24 16 busy (modPower (fun p => { p with switching := l }) s)

/-- Domain `d` as the earlier orders will leave it (R147). -/
def domTarget (s : State) (d : Nat) : Bool :=
  match (s.power.switching.filter (fun e => decide (e.1 = d))).getLast? with
  | some e => e.2
  | none => domOn s d

/-! ### What a switch does to the pages of a domain (R66, R79, R148, R149) -/

/-- Registers that PD0 holds for a page of a switched domain: the fault latch, the owner, the fusion mode, the memory map and
the ECC regions (R64, R65, R79, R170, R445). [DEDUCED, log entry 69] -/
def heldInPd0 (p off : Nat) : Bool :=
  decide (off = 0x020 ∨ off = 0x024 ∨ off = 0x028) || decide (p = pgFUS ∧ off = 0x084) ||
    decide (p = pgDMC 0 ∧ (off = 0x100 ∨ off = 0x108))

/-- The page belongs to domain `d`. -/
def inDomain (d p : Nat) : Bool := assigned p && decide (domainOf p = d)

def pagesOf (d : Nat) : List Nat := allPages.filter (inDomain d)

/-- Every register of the domain's pages outside PD0 takes its reset value. -/
def dropRegs (d : Nat) (s : State) : State :=
  { s with regs := s.regs.dropKeys (fun k => inDomain d (k / 0x1000) && !heldInPd0 (k / 0x1000) (k % 0x1000)) }

/-- The jobs of a page are gone with its domain: their rings and frames do not wait for them. With `keep`, where a DOMAIN order
switches it off, the jobs that have ended still get their records (R87, R144), unless the page is past FENCE_SLOW (R631).
[DEDUCED, log entry 67] -/
def dropJobs (keep : Bool) (p : Nat) (s : State) : State :=
  let j := pageJobs s p
  let kept := if keep && !(fenceOf s p).slow then j.done else []
  let gone := j.done.drop kept.length
  let t := (j.running ++ j.queue ++ gone.map (·.job)).foldl (fun t r => ringDone r t)
    (setJobs p { PageJobs.none with done := kept, started := j.started } s)
  ((if j.running = [] then [] else [j.started]) ++ gone.map (·.serial)).foldl (fun t n => unpinFrames p n t) t

/-- The endpoints of the pages [lo, hi] lose their contents. -/
def dropEndpoints (lo hi : Nat) (s : State) : State :=
  { s with endpoints := s.endpoints.dropKeys (fun k => decide (lo ≤ k / 16 ∧ k / 16 ≤ hi)) }

/-- An initialisation cut short leaves its region undefined (R175). -/
def abandonInit (s : State) : State :=
  match s.dram.initRegion with
  | some r => scrambleDram (fun k => decide (k = r)) (modDram (fun d => { d with initRegion := none }) s)
  | none => s

/-- The private state of a domain's blocks is lost; DRAM stays, in self-refresh, and so does what PD0 holds.
[DEDUCED, log entries 67, 70] -/
def dropBlocks (d : Nat) (s : State) : State :=
  match d with
  | 1 => { s with portA := PortState.reset, portB := PortState.reset, plk := Link.fresh }
  | 2 =>
    let t := abandonInit (zeroResident s)
    { t with
      mews := MewsState.none, sema := SemaState.none, strm := [], flg := ⟨none, 0⟩, regul := State.reset.regul
      dram := { t.dram with lastReq := [], trainAt := [], scrubNext := [] } }
  | 3 => dropEndpoints 0x080 0x081 { s with tc := s.tc.dropKeys (fun c => decide (c < 2)) }
  | 4 => dropEndpoints 0x082 0x084 { s with tc := s.tc.dropKeys (fun c => decide (2 ≤ c)), gen := GenState.none }
  | 5 => { s with vis := [] }
  | 6 => { s with gsh := [], gshRun := none, fus := { s.fus with named := none, run := none } }
  | 7 => let t := mergeScrap s; { t with fsh := { t.fsh with bound := none, snap := none, search := none, maint := none } }
  | 8 => { s with rings := [], fst := [], eth := [], spi := [], uart := [], canRecover := [], mbr := Bridge.fresh }
  | _ => s

/-- Everything a domain loses at its switch-off. -/
def dropDomain (keep : Bool) (d : Nat) (s : State) : State :=
  let t := (pagesOf d).foldl (fun t p => setFence p FenceState.none (dropJobs keep p t)) s
  dropRegs d (dropBlocks d t)

/-- READY_CHANGE with a value for every page of a domain, ascending (R139). -/
def tellReady (d v : Nat) (s : State) : State := (pagesOf d).foldl (fun t p => raise p cREADY_CHANGE sevINFO v t) s

/-- A domain is on (R145, R149): DOMAIN_OFF clears, the pages hold their reset values; with PD2 the controllers train again
(R148) and `DMC_MAP.OFFER` starts at 0xF. -/
def domainUp (d : Nat) (s : State) : State :=
  let t := modPower (fun p => { p with domainOnAt := p.domainOnAt.put 0 d (now s) }) (wrB pgPWR 0x080 d true (dropRegs d s))
  let t := if d = 2 then (List.range 12).foldl (fun t c => startTraining c t) (wrF (pgDMC 0) 0x100 7 4 0xF t) else t
  incCnt pgPWR 0x09C 1 (raise pgPWR 0x100 sevINFO d (tellReady d 0 t))

/-- A domain is off (R146): its pages read DOMAIN_OFF alone, and jobs on other pages that it holds from now on are told of
(R143). [DESIGN CHOICE, log entry 233] -/
def domainDown (keep : Bool) (d : Nat) (s : State) : State :=
  let t := tellReady d 0x10 (wrB pgPWR 0x080 d false (dropDomain keep d s))
  tellPages (incCnt pgPWR 0x09C 1 (raise pgPWR 0x101 sevINFO d t))

/-- DOMAIN_ON_DONE (R138, R145): the next domain to switch on is on. [DESIGN CHOICE, log entry 212] -/
def execDomainOnDone (d : Nat) (s : State) : Host.Outcome State Fault Refusal :=
  settle s (match s.power.switching with
    | e :: t => if s.pd0 && s.power.vcoreOn && decide (e = (d, true)) && decide (1 ≤ d ∧ d ≤ 8) then setSwitching t (domainUp d s) else s
    | [] => s)

/-- DOMAIN_OFF_DONE (R146, R148): the next domain to switch off is off. -/
def execDomainOffDone (d : Nat) (s : State) : Host.Outcome State Fault Refusal :=
  settle s (match s.power.switching with
    | e :: t => if s.pd0 && decide (e = (d, false)) && decide (1 ≤ d ∧ d ≤ 8) then setSwitching t (domainDown true d s) else s
    | [] => s)

/-! ### The DOMAIN order (R145 to R147) -/

/-- `PWR_LAST`: domains, direction, RESULT and CULPRIT of an order. -/
def setLast (doms : Nat) (on : Bool) (result culprit : Nat) (s : State) : State :=
  wrN pgPWR 0x098 (doms + b2n on * 2 ^ 8 + result * 2 ^ 9 + culprit % 256 * 2 ^ 12) s

/-- The domains 1 to 8 that an order names. [DEDUCED, log entry 68] -/
def domsNamed (doms : Nat) : List Nat := (List.range 8).filterMap (fun i => if bitOf doms i then some (i + 1) else none)

/-- The order would leave one of PD3 to PD8 on with PD2 off (R145). -/
def pd2Bad (s : State) (doms : Nat) (on : Bool) : Bool :=
  let after (d : Nat) : Bool := if bitOf doms (d - 1) then on else domTarget s d
  !after 2 && [3, 4, 5, 6, 7, 8].any after

/-- The lowest page of the named domains that answers busy (R146). -/
def busyPage (s : State) (doms : Nat) : Option Nat :=
  allPages.find? (fun p => decide (1 ≤ domainOf p) && bitOf doms (domainOf p - 1) && pageOn s p && busyForOff s p)

/-- The DOMAIN order at the power page: the refusal reason (0 where it is applied) and the state after. [DEDUCED, log entry 68] -/
def applyDomain (arg : Nat) (s : State) : Nat × State :=
  let doms := arg % 256
  let on := bitOf arg 8
  if arg / 2 ^ 9 ≠ 0 ∨ (on = false ∧ doms % 2 = 1) then (0x01, setLast doms on 5 0 s)
  else if on && decide (doms / 2 ≠ 0) && !s.power.trimValid then (0x04, setLast doms on 4 0 s)
  else if pd2Bad s doms on then (0x04, setLast doms on 3 0 s)
  else match (if on then none else busyPage s doms) with
    | some p => (0x04, setLast doms on 2 p s)
    | none =>
      let l := (domsNamed doms).filter (fun d => domTarget s d != on)
      let l := if on then l else l.reverse
      (0, setLast doms on 1 0 (setSwitching (s.power.switching ++ l.map (fun d => (d, on))) s))

/-! ### VCORE (R150 to R152) -/

def vcoreSet (s : State) : Nat := rdF s pgPWR 0x084 9 0
/-- [DEDUCED, log entry 75] -/
def ramping (s : State) : Bool := rdB s pgPWR 0x08C 2

/-- The VCORE order at the power page: a reserved bit of the argument refuses it (R130); a set point that R151 refuses raises
VCORE_REFUSED too. -/
def applyVcore (arg : Nat) (s : State) : Nat × State :=
  let no (why : Nat) : Nat × State := (why, raise pgPWR 0x103 sevJOB (arg % 1024 + why * 2 ^ 12) s)
  if arg / 1024 ≠ 0 then (0x1, s)
  else if arg % 1024 < 600 ∨ 900 < arg % 1024 ∨ arg % 10 ≠ 0 then no 0x1
  else if s.fuses.variantE && decide (800 < arg) then no 0x5
  else
    let low := if ramping s then min s.power.rampFloor arg else min (vcoreSet s) arg
    (0, wrF pgPWR 0x084 9 0 arg (wrB pgPWR 0x08C 2 true
      (modPower (fun p => { p with rampFloor := low, devSince := none, devTold := false })
        (modSup (fun u => { u with setMv := arg }) s))))

/-- Two voltages lie within `n` mV. -/
def withinMv (a b n : Nat) : Bool := decide (a ≤ b + n) && decide (b ≤ a + n)

/-- VCORE_DONE (R150): the measured VCORE is within 10 mV of the set point. -/
def execVcoreDone (s : State) : Host.Outcome State Fault Refusal :=
  settle s (if s.pd0 && ramping s && rdB s pgPWR 0x088 16 && withinMv (rdF s pgPWR 0x088 9 0) (vcoreSet s) 10 then
    raise pgPWR 0x102 sevINFO (vcoreSet s) (wrB pgPWR 0x08C 2 false (modPower (fun p => { p with rampFloor := vcoreSet s }) s))
  else s)

/-- The set point whose rated pace holds now (R152). -/
def ratedVcore (s : State) : Nat := if ramping s then s.power.rampFloor else vcoreSet s

/-- The rated pace in hundredths by VCORE (600, 700, 800, 900 mV) and Tj (R27). -/
def paceRow (mv : Nat) : List Nat :=
  if mv = 600 then [58, 55, 52, 50, 47] else if mv = 700 then [80, 77, 74, 71, 68]
  else if mv = 800 then [106, 103, 100, 96, 92] else [124, 121, 118, 113, 108]

/-- The Tj columns of R27, in °C. -/
def paceTj : List Int := [-40, 25, 85, 105, 125]

/-- Rated P in hundredths at `mv` mV and `t` sixteenths of a °C: linear in VCORE, then in Tj, rounded down (R28); none outside
the table. -/
def ratedPace (mv : Nat) (t : Int) : Option Nat :=
  if mv < 600 ∨ 900 < mv ∨ t < -640 ∨ 2000 < t then none
  else
    let lo := mv / 100 * 100
    let i : Nat := if t < 400 then 0 else if t < 1360 then 1 else if t < 1680 then 2 else 3
    let at' (k : Nat) : Int := ((paceRow lo).getD k 0 : Int) * (100 - (mv - lo : Nat)) + ((paceRow (lo + 100)).getD k 0 : Int) * (mv - lo : Nat)
    let t0 := paceTj.getD i 0 * 16
    let t1 := paceTj.getD (i + 1) 0 * 16
    some (((at' i * (t1 - t) + at' (i + 1) * (t - t0)) / ((t1 - t0) * 100)).toNat)

/-- Rated P of the part now; none while no sensor is valid (R29). -/
def ratedNow (s : State) : Option Nat :=
  if rdB s pgTHM 0x0A0 20 then ratedPace (ratedVcore s) (toSigned 16 (rdF s pgTHM 0x0A0 15 0)) else none

/-! ### Start and stop of the module (R642 to R644) -/

/-- The module's flash mode: VIO alone is raised, PD0 does not start. -/
def enterFlash (vinMv : Nat) (s : State) : State :=
  modSup (fun u => { u with modEn := true, flashMode := true, vinMv := vinMv }) s

/-- MOD_EN_RISE: MOD_EN is high and VIN is `vinMv`; FL_PROG_N counts at the edge alone. [DEDUCED, log entry 72] -/
def execModEnRise (flProgLow : Bool) (vinMv : Nat) (s : State) : Host.Outcome State Fault Refusal :=
  settle s (if s.sup.modPg || s.sup.flashMode then s
    else if flProgLow && !s.sup.modEn then enterFlash vinMv s
    else if 9000 ≤ vinMv then
      modPower (fun p => { p with vcoreOn := true })
        (modSup (fun u => { u with modEn := true, modPg := true, vinMv := vinMv, vcoreMv := 800, setMv := 800, critMs := 0 }) s)
    else modSup (fun u => { u with modEn := true, vinMv := vinMv }) s)

/-- FLASH_PROG_MODE (R644): FL_PROG_N low at the rising edge of MOD_EN. [DEDUCED, log entry 72] -/
def execFlashProgMode (vinMv : Nat) (s : State) : Host.Outcome State Fault Refusal :=
  settle s (if s.sup.modEn then s else enterFlash vinMv s)

/-- Everything but the compartment, the fuses and the supervisor is without power: DRAM contents, the time base and every PD0
state are lost. [DEDUCED, log entry 73] -/
def loseRails (s : State) : State :=
  let d := scrambleDram (fun _ => true) (zeroResident s)
  { State.reset with fuses := s.fuses, mem := d.mem, marks := d.marks, freeCtr := d.freeCtr, met := s.met, pending := s.pending,
                     sup := { s.sup with modEn := false, modPg := false, flashMode := false, critMs := 0 } }

/-- MODULE_POWER_DOWN (R643): MOD_EN is low, or VIN was below 8.5 V for 1 ms. [DEDUCED, log entry 73] -/
def execModulePowerDown (s : State) : Host.Outcome State Fault Refusal :=
  settle s (if s.sup.modEn then loseRails s else s)

/-- PD0_POWER_GOOD (R134, R637): the time base starts at 0, the straps are sampled, the boot ROM verifies the trim image.
[DEDUCED, log entry 76] -/
def execPd0PowerGood (straps : Nat) (s : State) : Host.Outcome State Fault Refusal :=
  settle s (if s.sup.modPg && !s.pd0 then
    let t := { s with pd0 := true, tb := State.reset.tb, regs := [], heat := State.reset.heat }
    let t := wrN pgMGT 0x08C (straps % 2 ^ 12) t
    let t := wrN pgMGT 0x080 (if s.fuses.variantE then 2 + 80 * 2 ^ 8 else 1 + 90 * 2 ^ 8) t
    wrN pgMGT 0x084 (1 + s.fuses.romVersion % 256 * 2 ^ 8) t
  else s)

/-! ### The trim image (R135 to R138) -/

/-- The reason of a slot that fails; none for a valid one. -/
def trimReason (o : TrimOutcome) : Option Nat :=
  match o with | .valid => none | .unreadable => some 1 | .signature => some 2 | .foreign => some 3

def slotBad (slot : Nat) (o : TrimOutcome) (s : State) : State :=
  match trimReason o with
  | none => s
  | some why => raise pgMGT 0x101 sevDEGRADED (slot + why * 2 ^ 8) s

/-- The slot applied: 1 for slot 0, 2 for slot 1, 0 for none. -/
def slotUsed (r : TrimResult) : Nat := if r.slot0 = .valid then 1 else if r.slot1 = .valid then 2 else 0

/-- TRIM_VERIFY_DONE. -/
def execTrimVerifyDone (r : TrimResult) (s : State) : Host.Outcome State Fault Refusal :=
  settle s (if s.pd0 && !s.power.trimTried then
    let us := now s / 1000 % 2 ^ 32
    let t := slotBad 0 r.slot0 s
    let t := if r.slot0 = .valid then t else slotBad 1 r.slot1 t
    let slot := slotUsed r
    let t := modPower (fun p => { p with trimTried := true, trimValid := decide (slot ≠ 0) }) (wrN pgMGT 0x090 us t)
    if slot = 0 then setSwitching [(1, true)] (raise pgMGT 0x102 sevDEVICE 0 (wrF pgMGT 0x084 2 0 4 t))
    else
      let t := wrF pgMGT 0x084 31 16 r.version (wrF pgMGT 0x084 5 4 slot (wrF pgMGT 0x084 2 0 3 t))
      let t := wrN pgMGT 0x094 (r.repairs % 2 ^ 16 + r.failed % 2 ^ 16 * 2 ^ 16) (wrN pgMGT 0x088 r.crc t)
      let t := if r.failed % 2 ^ 16 = 0 then t else raise pgMGT 0x103 sevDEGRADED (r.failed % 2 ^ 16) t
      setSwitching [(1, true), (2, true)] (raise pgMGT 0x100 sevINFO us t)
  else s)

/-! ### The supervisor's measurements (R161) -/

/-- VCORE_DEV: more than 1 ms beyond ±20 mV of the set point outside a ramp, once per excursion. [DEDUCED, log entry 65] -/
def trackDeviation (mv : Nat) (s : State) : State :=
  if ramping s || !s.power.vcoreOn || withinMv mv (vcoreSet s) 20 then modPower (fun p => { p with devSince := none, devTold := false }) s
  else match s.power.devSince with
    | none => modPower (fun p => { p with devSince := some (now s) }) s
    | some t =>
      if s.power.devTold || decide (now s ≤ t + 1000000) then s
      else raise pgPWR 0x106 sevDEGRADED mv (modPower (fun p => { p with devTold := true }) s)

/-- SUP_MEASUREMENT: a report, or no answer; a value beyond its field reads as the field's largest, `PWR_VCORE_MEAS.MV` among them
(10 bits). [DEDUCED, log entries 64, 77] -/
def execSupMeasurement (r : Option SupReport) (s : State) : Host.Outcome State Fault Refusal :=
  settle s (if !s.pd0 then s
    else match r with
    | none =>
      let t := wrB pgPWR 0x088 16 false (wrB pgPWR 0x08C 0 false s)
      if s.power.supLost then t else raise pgPWR 0x104 sevBLOCK 0 (modPower (fun p => { p with supLost := true }) t)
    | some m =>
      let vin := min m.vinMv 65535
      let old := (rd s pgPWR 0x090).toNat
      let ok := decide (9000 ≤ vin ∧ vin ≤ 16000)
      let t := modSup (fun u => { u with vinMv := vin, vcoreMv := min m.vcoreMv 65535, icoreCa := min m.icoreCa 65535 }) s
      let t := modPower (fun p => { p with supLost := false }) t
      let t := wrN pgPWR 0x094 (min m.moduleMw 65535) (wrN pgPWR 0x090 vin t)
      let t := wrN pgPWR 0x088 (min m.vcoreMv 1023 + 2 ^ 16) t
      let t := wrB pgPWR 0x08C 3 ok (wrB pgPWR 0x08C 1 s.sup.critAction (wrB pgPWR 0x08C 0 true t))
      let t := if 9000 ≤ old ∧ vin < 9000 then raise pgPWR 0x105 sevDEGRADED vin t else t
      trackDeviation (min m.vcoreMv 1023) t)

/-! ### Removal and return of VCORE (R154, R647 to R649) -/

/-- The supervisor removes VCORE for a cause (a bit of `SUP_CAUSE`). [DESIGN CHOICE, log entry 71] -/
def removeVcore (bit : Nat) (s : State) : State :=
  modPower (fun p => { p with vcoreOn := false })
    (modSup (fun u => { u with cause := u.cause ||| 2 ^ bit, removals := (u.removals + 1) % 256 }) s)

/-- SUP_PROTECTION (R647). [DEDUCED, log entry 75] -/
def execSupProtection (p : Protection) (s : State) : Host.Outcome State Fault Refusal :=
  let bit := match p with | .overcurrent => 1 | .overvoltage => 2 | .undervoltage => 3
  settle s (if s.power.vcoreOn && !(decide (p = .undervoltage) && s.pd0 && ramping s) then removeVcore bit s else s)

/-- Some domain of PD1 to PD8 is on or is to switch. -/
def coreBusy (s : State) : Bool := [1, 2, 3, 4, 5, 6, 7, 8].any (domOn s) || !s.power.switching.isEmpty

/-- VCORE_LOST (R154): PD1 to PD8 are off, and the cause is told. Each domain that was on reports as a switch-off does, in
descending order, and counts in `PWR_SWITCHES`. Where the supervisor's side has not been
commanded, it happens here; which of the three protections tripped is then open. [DESIGN CHOICE, log entries 71, 233] -/
def execVcoreLost (critAction : Bool) (s : State) : Host.Outcome State Fault Refusal :=
  settle s (if s.pd0 && (s.power.vcoreOn || coreBusy s) then
    let t := if s.power.vcoreOn then
        (if critAction then removeVcore 0 s else nextFree (removeVcore (1 + Config.freeNat s.freeCtr % 3) s))
      else s
    let t := setSwitching [] (wrB pgPWR 0x08C 2 false t)
    let t := [8, 7, 6, 5, 4, 3, 2, 1].foldl (fun t d => if domOn t d then domainDown false d t else t) t
    raise pgPWR 0x107 sevDEVICE (if critAction then 1 else 2) t
  else s)

/-- VCORE_RETURN (R154): at 800 mV, and the boot switch-on of R138 (or R136) runs again. -/
def execVcoreReturn (s : State) : Host.Outcome State Fault Refusal :=
  settle s (if s.pd0 && s.power.trimTried && s.power.vcoreOn && !coreBusy s then
    let t := wrF pgPWR 0x084 9 0 800 (modPower (fun p => { p with rampFloor := 800, devSince := none, devTold := false }) s)
    setSwitching (if s.power.trimValid then [(1, true), (2, true)] else [(1, true)]) t
  else s)

/-- CRIT_N as the supervisor sees it: released while PD0 has no power. [DESIGN CHOICE, log entry 74] -/
def critSeen (s : State) : Bool := s.pd0 && critN s

/-- A write of `SUP_RESTORE` (R649). -/
def effRestore (value : Nat) (s : State) : State :=
  if bitOf value 0 && s.sup.modPg && !critSeen s && decide (9000 ≤ s.sup.vinMv) && !s.power.vcoreOn then
    modPower (fun p => { p with vcoreOn := true }) (modSup (fun u => { u with setMv := 800 }) s)
  else s

/-- A write of `SUP_CAUSE`: each bit written 1 clears. -/
def effCauseClear (bits : Nat) (s : State) : State :=
  modSup (fun u => { u with cause := u.cause - (u.cause &&& bits) }) s

/-- SUP_RESTORE. -/
def execSupRestore (value : Nat) (s : State) : Host.Outcome State Fault Refusal := settle s (effRestore value s)

/-- SUP_CAUSE_CLEAR (R650). -/
def execSupCauseClear (bits : Nat) (s : State) : Host.Outcome State Fault Refusal := settle s (effCauseClear bits s)

/-- An I2C write of one supervisor register (R650). -/
def supWrite (w : Nat × Nat) (s : State) : State :=
  if w.1 = 0x02 then modSup (fun u => { u with critAction := bitOf w.2 0 }) s
  else if w.1 = 0x03 then modSup (fun u => { u with critDelay := w.2 % 256 }) s
  else if w.1 = 0x04 then effRestore w.2 s
  else if w.1 = 0x05 then effCauseClear w.2 s
  else if w.1 = 0x06 then modSup (fun u => { u with removals := w.2 % 256 }) s
  else s

/-- SUP_CRIT_EVAL (R648): the writes whose STOP came first apply; then the evaluation. `critMs` counts the whole milliseconds
for which CRIT_N has been seen asserted. [DESIGN CHOICE, log entry 74] -/
def execSupCritEval (writes : List (Nat × Nat)) (s : State) : Host.Outcome State Fault Refusal :=
  let t := writes.foldl (fun t w => supWrite w t) s
  settle s (if !critSeen t then modSup (fun u => { u with critMs := 0 }) t
    else
      let u := modSup (fun u => { u with critMs := u.critMs + 1 }) t
      if t.sup.critAction && t.power.vcoreOn && decide (t.sup.critDelay ≤ t.sup.critMs) then removeVcore 0 u else u)

/-- An I2C read of a supervisor register (R650). -/
def supReg (s : State) (a : Nat) : Nat :=
  let u := s.sup
  match a with
  | 0x00 => 0x73
  | 0x01 => b2n (decide (9000 ≤ u.vinMv)) + 2 * b2n s.power.vcoreOn + 4 * b2n (critSeen s) + 8 * b2n u.flashMode + 16 * b2n s.fuses.variantE
  | 0x02 => b2n u.critAction
  | 0x03 => u.critDelay
  | 0x05 => u.cause
  | 0x06 => u.removals
  | 0x08 => u.vinMv % 256
  | 0x09 => u.vinMv / 256 % 256
  | 0x0A => u.vcoreMv % 256
  | 0x0B => u.vcoreMv / 256 % 256
  | 0x0C => u.icoreCa % 256
  | 0x0D => u.icoreCa / 256 % 256
  | _ => 0

end Sys2Proof.Machine
end

