-- ==== Sys2Proof/Machine/Heat.lean ====
section
/-!
DEFINITION. Heat (R155 to R158, R162): the 16 sensors, THM_TJ_MAX and its peak, THERM_ALERT_N and CRIT_N.
-/
namespace Sys2Proof.Machine

/-- A reading is valid: −55 °C to +150 °C, in sixteenths (R155). -/
def thmValid (r : Option Int) : Option Int :=
  match r with
  | some t => if -880 ≤ t ∧ t ≤ 2400 then some t else none
  | none => none

/-- The hottest valid sensor, the lowest-numbered of equals, and its reading. [DEDUCED, log entry 78] -/
def hottest (l : List (Option Int)) : Option (Nat × Int) :=
  (l.zipIdx).foldl (fun best e => match e.1, best with
    | some t, some b => if b.2 < t then some (e.2, t) else best
    | some t, none => some (e.2, t)
    | none, _ => best) none

/-- THRESH_C and HYST_C, outside values as the nearer limit (R162), in °C. -/
def alertThresh (s : State) : Int := (min 120 (max 90 (rdF s pgTHM 0x0A4 7 0)) : Nat)
def alertHyst (s : State) : Int := (min 10 (max 1 (rdF s pgTHM 0x0A4 11 8)) : Nat)

/-- The sensors read of: 16, invalid where the list is short. -/
def sixteen (l : List (Option Int)) : List (Option Int) := (List.range 16).map (fun i => thmValid ((l[i]?).getD none))

/-- `THM_T0_1` to `THM_T14_15`, `THM_SENSOR_OK`. -/
def writeSensors (l : List (Option Int)) (s : State) : State :=
  let w (i : Nat) : Nat := match (l[i]?).getD none with | some t => ofSigned 16 t | none => 0x8000
  let t := (List.range 8).foldl (fun t m => wrN pgTHM (0x080 + 4 * m) (w (2 * m) + w (2 * m + 1) * 2 ^ 16) t) s
  let ok : Nat := ((l.zipIdx).map (fun (e : Option Int × Nat) => b2n e.1.isSome * 2 ^ e.2)).foldl (· + ·) 0
  wrN pgTHM 0x0AC ok t

/-- SENSOR_FAULT: at the first sample for every invalid sensor, later for one that has just become invalid.
[DEDUCED, log entry 79] -/
def sensorFaults (l : List (Option Int)) (ok : Word) (first : Bool) (s : State) : State :=
  (l.zipIdx).foldl (fun t e => if e.1.isNone && (first || flag ok e.2) then raise pgTHM 0x104 sevDEGRADED e.2 t else t) s

/-- THERM_ALERT_N asserts; every assertion counts (R162). -/
def assertAlert (s : State) : State := if thermAlertN s then s else incCnt pgTHM 0x0B8 1 (wrB pgTHM 0x0A8 0 true s)

/-- THERM_ALERT_N follows its rule (R156). -/
def alertRule (n : Nat) (t : Int) (s : State) : State :=
  let v := ofSigned 16 t
  if alertThresh s * 16 ≤ t then
    (if thermAlertN s then s else raise pgTHM 0x100 sevDEGRADED (v + n * 2 ^ 16) (assertAlert s))
  else if thermAlertN s && decide (t < (alertThresh s - alertHyst s) * 16) then raise pgTHM 0x101 sevINFO v (wrB pgTHM 0x0A8 0 false s)
  else s

/-- CRIT_N follows its rule (R157); a release starts the supervisor's delay again (R648). -/
def critRule (n : Nat) (t : Int) (s : State) : State :=
  let v := ofSigned 16 t
  if 2000 ≤ t then (if critN s then s else raise pgTHM 0x102 sevDEVICE (v + n * 2 ^ 16) (wrB pgTHM 0x0A8 1 true s))
  else if critN s && decide (t < 1920) then
    raise pgTHM 0x103 sevINFO v (wrB pgTHM 0x0A8 1 false (modSup (fun u => { u with critMs := 0 }) s))
  else s

/-- No sensor is valid (R158). -/
def goBlind (s : State) : State :=
  let t := if s.heat.blind then s else raise pgTHM 0x105 sevBLOCK 0 { s with heat := { s.heat with blind := true } }
  wrN pgTHM 0x0A0 0x8000 (wrB pgTHM 0x0A8 1 true (assertAlert t))

/-- A sample with a hottest sensor: `THM_TJ_MAX`, `THM_PEAK`, both pins. -/
def seeHottest (n : Nat) (t : Int) (s : State) : State :=
  let v := ofSigned 16 t
  let u := wrN pgTHM 0x0A0 (v + n * 2 ^ 16 + 2 ^ 20) { s with heat := { s.heat with blind := false } }
  let u := if toSigned 16 (rdF u pgTHM 0x0B0 15 0) < t then wrN pgTHM 0x0B0 v u else u
  critRule n t (alertRule n t u)

/-- THM_SAMPLE: every 100,000 TB ns. [DEDUCED, log entries 78, 79] -/
def execThmSample (readings : List (Option Int)) (s : State) : Host.Outcome State Fault Refusal :=
  settle s (if s.pd0 && (!s.heat.sampled || decide (s.heat.lastAt + 100000 ≤ now s)) then
    let l := sixteen readings
    let t := sensorFaults l (rd s pgTHM 0x0AC) (!s.heat.sampled) s
    let t := writeSensors l { t with heat := { t.heat with sampled := true, lastAt := now s } }
    match hottest l with
    | none => goBlind t
    | some h => seeHottest h.1 h.2 t
  else s)

/-- A write of 1 to `THM_PEAK_CLR`. -/
def effPeakClr (s : State) : State := wrN pgTHM 0x0B0 (rdF s pgTHM 0x0A0 15 0) s

/-- THM_PEAK_CLR. -/
def execThmPeakClr (q : Port) (s : State) : Host.Outcome State Fault Refusal := settle s (gateWrite q pgTHM 0x0B4 effPeakClr s)

end Sys2Proof.Machine
end

