-- ==== Sys2Proof/Machine/Joint.lean ====
section
/-!
DEFINITION. Joint orders (R119, R121 to R133): the ballots, the agreement window, sole votes, the ten orders and their checks.
-/
namespace Sys2Proof.Machine

/-! ### Registers of the joint-order unit -/

def jntOpen (s : State) : Bool := rdB s pgJNT 0x0A0 0
def jntOpener (s : State) : Port := Port.ofNum (rdF s pgJNT 0x0A0 1 1)
def jntSeq (s : State) : Nat := rdF s pgJNT 0x0A0 31 16
/-- `JNT_VA_ORDER` or `JNT_VB_ORDER`, and the argument registers. -/
def voteOrder (s : State) (q : Port) : Nat := rdF s pgJNT (0x080 + 0x10 * q.num) 7 0
def voteArg (s : State) (q : Port) : Nat := rd64 s pgJNT (0x084 + 0x10 * q.num)
/-- The offset of a port's cast register. -/
def castOff (q : Port) : Nat := 0x08C + 0x10 * q.num
/-- The ballot a port cast last, and whether it is pending. -/
def ballotOrder (s : State) (q : Port) : Nat := rdF s pgJNT (0x0E0 + 0x10 * q.num) 7 0
def ballotArg (s : State) (q : Port) : Nat := rd64 s pgJNT (0x0E4 + 0x10 * q.num)
def ballotOpen (s : State) (q : Port) : Bool := rdB s pgJNT (0x0E0 + 0x10 * q.num) 8

/-- The snapshot of R123. -/
def setBallot (q : Port) (opened : Bool) (s : State) : State :=
  wr64 pgJNT (0x0E4 + 0x10 * q.num) (voteArg s q) (wrN pgJNT (0x0E0 + 0x10 * q.num) (voteOrder s q + b2n opened * 2 ^ 8) s)

/-- The sequence number of a new window or sole vote. -/
def nextSeq (s : State) : State := wrF pgJNT 0x0A0 31 16 (jntSeq s + 1) s

/-- The window closes: no ballot is pending. -/
def closeWindow (s : State) : State :=
  wrB pgJNT 0x0F0 8 false (wrB pgJNT 0x0E0 8 false (wrB pgJNT 0x0A0 0 false s))

/-- `JNT_LAST`: 1 APPLIED, 2 DISAGREE, 3 TIMEOUT, 4 REFUSED, 5 SOLE_APPLIED. [DEDUCED, log entries 59, 61] -/
def setOutcome (order outcome reason : Nat) (s : State) : State :=
  wrN pgJNT 0x0B0 (order + outcome * 2 ^ 8 + reason * 2 ^ 16) s

/-! ### The orders and their checks (R129, R130) -/

/-- SET_OWNER of one page: counted where it changes. [DEDUCED, log entry 56] -/
def setOwnerOf (n : Nat) (p : Nat) (s : State) : State :=
  if rdF s p 0x028 0 0 = n then s else wrF p 0x028 31 16 (rdF s p 0x028 31 16 + 1) (wrF p 0x028 0 0 n s)

/-- SET_OWNER (0x01): every assigned page of the range; the unassigned ones are skipped (R130). [DEDUCED, log entry 56] -/
def applySetOwner (arg : Nat) (s : State) : Nat × State :=
  let lo := bitsOf arg 11 0
  let hi := bitsOf arg 23 12
  let l := allPages.filter (fun p => decide (lo ≤ p ∧ p ≤ hi))
  if arg / 2 ^ 25 ≠ 0 ∨ hi < lo then (0x01, s)
  else (0, l.foldl (fun t p => setOwnerOf (bitsOf arg 24 24) p t) s)

/-- UNLOCK (0x04). -/
def applyUnlock (arg : Nat) (s : State) : Nat × State :=
  if arg / 2 ^ 12 ≠ 0 then (0x01, s)
  else if !assigned arg then (0x02, s)
  else (0, wrB arg 0x03C 0 false s)

/-- No domain from PD3 on is on and the streams are idle (R168). -/
def mapQuiet (s : State) : Bool :=
  [3, 4, 5, 6, 7, 8].all (fun d => !domOn s d) &&
    (List.range 32).all (fun u => (pageJobs s (pgSTRM u)).running.isEmpty && (pageJobs s (pgSTRM u)).queue.isEmpty)

/-- Every controller of a map has passed training. -/
def mapPassed (s : State) (m : Nat) : Bool := domOn s 2 && (mapMembers m).all (fun c => decide (trainState s c = 2))

/-- The regions with ECC in force, ascending. -/
def eccRegions (s : State) : List Nat := (List.range 32).filter (fun r => rdB s (pgDMC 0) 0x108 r)

/-- The map in force changes (R169): DRAM becomes undefined and the regions with ECC are owed an initialisation; the aperture
accesses held for DRAM are served once it is ready again. [DEDUCED, log entry 69] -/
def changeMap (m : Nat) (s : State) : State :=
  let l := eccRegions s
  let t := scrambleDram (fun _ => true) (wrF (pgDMC 0) 0x100 3 0 m s)
  let t := wrB (pgDMC 0) 0x100 8 (!l.isEmpty) (modDram (fun d => { d with owed := l }) t)
  tellPages (serveApertures (nextOwed (raise (pgDMC 0) 0x108 sevINFO m t)))

/-- DMC_MAP (0x05) (R168, R169). -/
def applyDmcMap (arg : Nat) (s : State) : Nat × State :=
  if arg / 16 ≠ 0 ∨ (0xC ≤ arg ∧ arg ≤ 0xE) then (0x01, s)
  else if !mapQuiet s || !mapPassed s arg || s.dram.initRegion.isSome then (0x04, s)
  else if arg = mapInForce s then (0, s)
  else (0, changeMap arg s)

/-- FUS_XFORM (0x06) (R434, R435). -/
def applyFusXform (arg : Nat) (s : State) : Nat × State :=
  if arg / 2 ^ 46 ≠ 0 ∨ bitsOf arg 39 0 % 32 ≠ 0 ∨ isData s (bitsOf arg 39 0) 96 = false then (0x01, s)
  else
    let r := fusXformApply (bitsOf arg 45 40) (bitsOf arg 39 0) s
    (if r.1 then 0 else 0x04, r.2)

/-- FUS_MODE (0x07) (R445). -/
def applyFusMode (arg : Nat) (s : State) : Nat × State := if fusModeBad arg then (0x01, s) else (0, fusModeApply arg s)

/-- MET_JOURNEY (0x08) (R528, R557). -/
def applyMetJourney (arg : Nat) (s : State) : Nat × State :=
  if journeyOrderRefused s arg ≠ 0 then (journeyOrderRefused s arg, s) else (0, applyJourneyOrder arg s)

/-- CONSENT (0x09) (R131). [DEDUCED, log entry 58] -/
def applyConsent (arg : Nat) (s : State) : Nat × State :=
  let t := bitsOf arg 15 0
  let off := 0x0D0 + 4 * bitsOf arg 16 16
  if arg / 2 ^ 18 ≠ 0 then (0x01, s)
  else if !bitOf arg 17 then (0, wrB pgJNT off 16 false s)
  else if t < 100 ∨ 60000 < t then (0x01, s)
  else (0, wrN pgJNT off (t + 2 ^ 16) s)

/-- WINDOW (0x0A). -/
def applyWindow (arg : Nat) (s : State) : Nat × State :=
  if arg < 1 ∨ 1000 < arg then (0x01, s) else (0, wrN pgJNT 0x0A4 arg s)

/-- An order handed to its target: the refusal reason (0 where it is applied) and the state after. A sole vote carries neither
CONSENT nor WINDOW (R133). [DEDUCED, log entry 63] -/
def applyOrder (order arg : Nat) (sole : Bool) (s : State) : Nat × State :=
  if sole && decide (order = 0x09 ∨ order = 0x0A) then (0x03, s)
  else match order with
    | 0x01 => applySetOwner arg s
    | 0x02 => applyDomain arg s
    | 0x03 => applyVcore arg s
    | 0x04 => applyUnlock arg s
    | 0x05 => applyDmcMap arg s
    | 0x06 => applyFusXform arg s
    | 0x07 => applyFusMode arg s
    | 0x08 => applyMetJourney arg s
    | 0x09 => applyConsent arg s
    | 0x0A => applyWindow arg s
    | _ => (0x01, s)

/-- The order is in the table of R130. -/
def orderKnown (o : Nat) : Bool := decide (1 ≤ o ∧ o ≤ 0x0A)

/-! ### Casts (R123 to R128, R131 to R133) -/

/-- The outcome of an agreed order or a sole vote (R126, R129). [DEDUCED, log entries 57, 63] -/
def outcomeOf (order arg : Nat) (sole : Bool) (s : State) : State :=
  let r := applyOrder order arg sole s
  let seq := jntSeq s * 2 ^ 16
  if r.1 = 0 then
    raise pgJNT 0x100 sevINFO (order + seq) (incCnt pgJNT (if sole then 0x0C0 else 0x0B4) 1 (setOutcome order (if sole then 5 else 1) 0 r.2))
  else raise pgJNT 0x103 sevJOB (order + r.1 * 2 ^ 8 + seq) (setOutcome order 4 r.1 r.2)

/-- How long a port's link has been down for R132: a return decided in this instant counts as still down.
[DEDUCED, log entry 62] -/
def downFor (s : State) (q : Port) : Nat :=
  let p := s.port q
  if p.down then downMs s q else if p.upAt = now s then satN 32 ((p.upAt - p.downAt) / 1000000) else 0

/-- A port may vote alone now (R132). [DEDUCED, log entry 62] -/
def maySole (s : State) (q : Port) : Bool :=
  rdB s pgJNT (0x0D0 + 4 * q.num) 16 && decide (rdF s pgJNT (0x0D0 + 4 * q.num) 15 0 ≤ downFor s q.other)

/-- A sole vote. [DEDUCED, log entries 57, 59] -/
def soleVote (q : Port) (s : State) : State :=
  let t := setBallot q false (nextSeq s)
  let o := voteOrder s q
  outcomeOf o (voteArg s q) true (raise pgJNT 0x104 sevDEGRADED (o + q.num * 2 ^ 8 + jntSeq t * 2 ^ 16) t)

/-- The opening cast of a window (R125). [DEDUCED, log entry 60] -/
def openWindow (q : Port) (s : State) : State :=
  let t := setBallot q true (nextSeq s)
  let t := wr64 pgJNT 0x0A8 (now s) (wrB pgJNT 0x0A0 1 (q = .b) (wrB pgJNT 0x0A0 0 true t))
  let t := { t with joint := ⟨now s + rdF s pgJNT 0x0A4 9 0 * 1000000⟩ }
  raise pgJNT 0x105 sevINFO (voteOrder s q + q.num * 2 ^ 8 + jntSeq t * 2 ^ 16) t

/-- The second cast of a window (R126). [DEDUCED, log entries 60, 61] -/
def answerWindow (q : Port) (s : State) : State :=
  let t := closeWindow (setBallot q true s)
  if ballotOrder s q.other = voteOrder s q ∧ ballotArg s q.other = voteArg s q then outcomeOf (voteOrder s q) (voteArg s q) false t
  else
    raise pgJNT 0x101 sevJOB (ballotOrder t .a + ballotOrder t .b * 2 ^ 8 + jntSeq t * 2 ^ 16)
      (incCnt pgJNT 0x0B8 1 (setOutcome (ballotOrder s q.other) 2 0 t))

/-- A window that ends with one ballot (R128). -/
def timeoutWindow (s : State) : State :=
  let q := jntOpener s
  raise pgJNT 0x102 sevJOB (ballotOrder s q + q.num * 2 ^ 8 + jntSeq s * 2 ^ 16)
    (incCnt pgJNT 0x0BC 1 (setOutcome (ballotOrder s q) 3 0 (closeWindow s)))

/-- The open window has ended; its last instant still belongs to it (R128). [DEDUCED, log entry 55] -/
def windowOver (s : State) : Bool := jntOpen s && decide (s.joint.windowEnd < now s)

/-- The open window's end has come: JOINT_TIMEOUT may be taken from its last instant on (R128). [DEDUCED, log entry 55] -/
def windowEnded (s : State) : Bool := jntOpen s && decide (s.joint.windowEnd ≤ now s)

/-- A write of 1 to a port's cast register. [DEDUCED, log entry 54] -/
def effCast (q : Port) (s : State) : State :=
  let s := if windowOver s then timeoutWindow s else s
  if !orderKnown (voteOrder s q) || ballotOpen s q then cmdRej q pgJNT (castOff q) 0 s
  else if jntOpen s then answerWindow q s
  else if maySole s q then soleVote q s
  else openWindow q s

/-- A cast by a port whose vote register holds a given order. [DEDUCED, log entry 54] -/
def castOrder (order : Nat) (q : Port) (s : State) : State :=
  gateWrite q pgJNT (castOff q) (fun s => if voteOrder s q = order then effCast q s else s) s

/-- VOTE_CAST. -/
def execVoteCast (q : Port) (s : State) : Host.Outcome State Fault Refusal := settle s (gateWrite q pgJNT (castOff q) (effCast q) s)

/-- JOINT_TIMEOUT (R128). -/
def execJointTimeout (s : State) : Host.Outcome State Fault Refusal :=
  settle s (if s.pd0 && windowEnded s then timeoutWindow s else s)

/-- SET_OWNER: the cast of this order (as are the rows that follow). -/
def execSetOwner (q : Port) (s : State) : Host.Outcome State Fault Refusal := settle s (castOrder 0x01 q s)
/-- DOMAIN. -/
def execDomain (q : Port) (s : State) : Host.Outcome State Fault Refusal := settle s (castOrder 0x02 q s)
/-- VCORE. -/
def execVcore (q : Port) (s : State) : Host.Outcome State Fault Refusal := settle s (castOrder 0x03 q s)
/-- UNLOCK. -/
def execUnlock (q : Port) (s : State) : Host.Outcome State Fault Refusal := settle s (castOrder 0x04 q s)
/-- DMC_MAP. -/
def execDmcMap (q : Port) (s : State) : Host.Outcome State Fault Refusal := settle s (castOrder 0x05 q s)
/-- FUS_XFORM. -/
def execFusXform (q : Port) (s : State) : Host.Outcome State Fault Refusal := settle s (castOrder 0x06 q s)
/-- FUS_MODE. -/
def execFusMode (q : Port) (s : State) : Host.Outcome State Fault Refusal := settle s (castOrder 0x07 q s)
/-- MET_JOURNEY. -/
def execMetJourney (q : Port) (s : State) : Host.Outcome State Fault Refusal := settle s (castOrder 0x08 q s)
/-- CONSENT. -/
def execConsent (q : Port) (s : State) : Host.Outcome State Fault Refusal := settle s (castOrder 0x09 q s)
/-- WINDOW. -/
def execWindow (q : Port) (s : State) : Host.Outcome State Fault Refusal := settle s (castOrder 0x0A q s)

end Sys2Proof.Machine
end

