-- ==== Sys2Proof/Machine/Jtag.lean ====
section
/-!
DEFINITION. The JTAG port (R638, IEEE 1149.1): the controller's sixteen states, BYPASS, IDCODE, SAMPLE/PRELOAD and EXTEST.
-/
namespace Sys2Proof.Machine

/-- The controller's next state at a rising edge of TCK. [DESIGN CHOICE, log entry 208; PRESUMED, log entry 213] -/
def TapState.step (tms : Bool) : TapState → TapState
  | .testLogicReset => if tms then .testLogicReset else .runTestIdle
  | .runTestIdle => if tms then .selectDr else .runTestIdle
  | .selectDr => if tms then .selectIr else .captureDr
  | .captureDr => if tms then .exit1Dr else .shiftDr
  | .shiftDr => if tms then .exit1Dr else .shiftDr
  | .exit1Dr => if tms then .updateDr else .pauseDr
  | .pauseDr => if tms then .exit2Dr else .pauseDr
  | .exit2Dr => if tms then .updateDr else .shiftDr
  | .updateDr => if tms then .selectDr else .runTestIdle
  | .selectIr => if tms then .testLogicReset else .captureIr
  | .captureIr => if tms then .exit1Ir else .shiftIr
  | .shiftIr => if tms then .exit1Ir else .shiftIr
  | .exit1Ir => if tms then .updateIr else .pauseIr
  | .pauseIr => if tms then .exit2Ir else .pauseIr
  | .exit2Ir => if tms then .updateIr else .shiftIr
  | .updateIr => if tms then .selectDr else .runTestIdle

/-- `n` bits of a number, bit 0 first. -/
def bitList (n v : Nat) : List Bool := (List.range n).map (bitOf v)

/-- IDCODE of a part of issue `k` (R638). -/
def idcodeOf (k : Nat) : Nat := k % 16 * 2 ^ 28 + 0x736058B

/-- The instruction a code selects; every other code, and all ones, acts as BYPASS. [DESIGN CHOICE, log entry 209] -/
def jtagDecode (ir : List Bool) : JtagInsn :=
  if ir.all id then .bypass
  else if ir = Config.jtagCode 0 then .idcode
  else if ir = Config.jtagCode 1 then .sample
  else if ir = Config.jtagCode 2 then .extest
  else .bypass

/-- What the data register captures. [DESIGN CHOICE, log entry 209] -/
def captureDr (s : State) : List Bool :=
  match s.jtag.insn with
  | .bypass => [false]
  | .idcode => bitList 32 (idcodeOf s.fuses.issue)
  | .sample | .extest => (List.range Config.jtagCells).map (Config.jtagPin s.freeCtr)

/-- What the state the edge finds the controller in does at it. -/
def tapAct (tdi : Bool) (s : State) : JtagState :=
  let j := s.jtag
  match j.tap with
  | .captureDr => { j with dr := captureDr s }
  | .shiftDr => { j with dr := j.dr.drop 1 ++ [tdi] }
  | .captureIr => { j with ir := true :: false :: Config.jtagIrRest }
  | .shiftIr => { j with ir := j.ir.drop 1 ++ [tdi] }
  | _ => j

/-- What the state the edge leads to does: an update, a reset, TDO. [PRESUMED, log entry 213] -/
def tapEnter (n : TapState) (j : JtagState) : JtagState :=
  match n with
  | .testLogicReset => { j with tap := n, insn := .idcode, tdo := false }
  | .updateIr => { j with tap := n, insn := jtagDecode j.ir, tdo := false }
  | .updateDr =>
    if j.insn = .sample ∨ j.insn = .extest then { j with tap := n, boundary := j.dr, tdo := false } else { j with tap := n, tdo := false }
  | .shiftDr => { j with tap := n, tdo := j.dr.headD false }
  | .shiftIr => { j with tap := n, tdo := j.ir.headD false }
  | _ => { j with tap := n, tdo := false }

/-- JTAG_BOUNDARY_SCAN: one cycle of TCK; TRST_N low (`trst`) resets the controller. [DESIGN CHOICE, log entry 208] -/
def execJtagBoundaryScan (tms tdi trst : Bool) (s : State) : Host.Outcome State Fault Refusal :=
  settle s (if !s.pd0 then s
    else if trst then { s with jtag := tapEnter .testLogicReset s.jtag }
    else nextFree { s with jtag := tapEnter (s.jtag.tap.step tms) (tapAct tdi s) })

end Sys2Proof.Machine
end

