-- ==== Sys2Proof/Machine/TimeBase.lean ====
section
/-!
DEFINITION. The time base (chapter 2): its tick, the source modes, the PPS servo, holdover, slewing, the shadows, and the
pace counters.
-/
namespace Sys2Proof.Machine

/-! ### Counting (R45) -/

/-- `n / d` rounded to the nearest integer, ties to even. -/
def divRne (n d : Nat) : Nat :=
  let q := n / d
  let r := n % d
  if d < 2 * r ∨ (2 * r = d ∧ q % 2 = 1) then q + 1 else q

/-- The increment of one tick at a rate of `r` ppb: 40 ns × (1 + r × 10^-9) to the nearest multiple of 2^-32 ns. -/
def tickInc (r : Int) : Nat := divRne (40 * 2 ^ 32 * (1000000000 + r).toNat) 1000000000

/-- The quotient truncated toward zero (R48). [DEDUCED, log entry 11] -/
def truncDiv (x : Int) (d : Nat) : Int := if x < 0 then -(((-x).toNat / d : Nat) : Int) else ((x.toNat / d : Nat) : Int)

/-- `TB_RATE_NOW` and the rate limit of R45. -/
def rateNow (s : State) : Int := toSigned 32 (rd s pgTB 0x094).toNat
def rateLimit : Int := 200000

/-- The rate a slew adds: ±100 ppm while some of it remains (R55). [DEDUCED, log entry 10] -/
def slewRate (s : State) : Int := if s.tb.slewRest = 0 then 0 else if s.tb.slewReq < 0 then -100000 else 100000

/-- Forms the increment anew (R45). -/
def formInc (s : State) : State := { s with tb := { s.tb with inc := tickInc (rateNow s + slewRate s) } }

/-- Sets `TB_RATE_NOW` and forms the increment. -/
def setRate (r : Int) (s : State) : State := formInc (wrN pgTB 0x094 (ofSigned 32 r) s)

/-- What one tick gains, or loses, by the slew: the rounded increment against that of the same rate without it (R45, R55). -/
def slewGain (s : State) : Nat :=
  let plain := tickInc (rateNow s)
  if s.tb.slewReq < 0 then plain - s.tb.inc else s.tb.inc - plain

/-- `TB_SLEW_LEFT` with `n` units of 2^-32 ns still to apply: whole ns, rounded up. -/
def slewLeft (s : State) (n : Nat) : Int :=
  let k : Int := ((n + (2 ^ 32 - 1)) / 2 ^ 32 : Nat)
  if s.tb.slewReq < 0 then -k else k

/-- One TCXO tick: the increment is added, a slew advances by what it gained, and the extra rate ends once the whole of it is
gained or lost. [DESIGN CHOICE, log entry 1; DEDUCED, log entry 10] -/
def tick (s : State) : State :=
  if !s.pd0 then s
  else
    let t := { s with tb := { s.tb with count := s.tb.count + s.tb.inc } }
    if s.tb.slewRest = 0 then t
    else
      let n := s.tb.slewRest - slewGain s
      let u := wrN pgTB 0x09C (ofSigned 32 (slewLeft t n)) { t with tb := { t.tb with slewRest := n } }
      if n = 0 then formInc (wrB pgTB 0x08C 3 false u) else u

/-! ### Modes -/

/-- `TB_CTRL.SRC`: 0 FREE, 1 PPS, 2 GPTP (R46). -/
def tbSrc (s : State) : Nat := rdF s pgTB 0x088 1 0
def tbLocked (s : State) : Bool := rdB s pgTB 0x08C 0
def tbHoldover (s : State) : Bool := rdB s pgTB 0x08C 1
def tbAcquiring (s : State) : Bool := rdB s pgTB 0x08C 2

/-- A setting of which 0 acts as 1. -/
def atLeast1 (n : Nat) : Nat := if n = 0 then 1 else n

def missLimit (s : State) : Nat := atLeast1 (rdF s pgTB 0x088 7 4)
def lockCount (s : State) : Nat := atLeast1 (rdF s pgTB 0x088 11 8)
def gptpTimeoutNs (s : State) : Nat := atLeast1 (rdF s pgTB 0x088 27 16) * 1000000
/-- The acceptance half-window in ns (`TB_PPS_WIN_US`). -/
def ppsWindow (s : State) : Nat := min 1000 (atLeast1 (rdF s pgTB 0x0A0 9 0)) * 1000
def ppsLast (s : State) : Nat := rd64 s pgTB 0x0A4
def holdStart (s : State) : Nat := rd64 s pgTB 0x0B8

/-- Enters holdover: LOCKED clears, HOLDOVER sets, the rate is frozen, the start is recorded (R49, R50). -/
def enterHoldover (why : Nat) (s : State) : State :=
  let t := wrB pgTB 0x08C 1 true (wrB pgTB 0x08C 0 false s)
  raise pgTB 0x102 sevDEGRADED why
    (wr64 pgTB 0x0B8 (now s) { t with tb := { t.tb with boundTold := false, edgeCount := 0 } })

/-- Leaves holdover as LOCKED sets (R52, R53). -/
def exitHoldover (s : State) : State :=
  if tbHoldover s then raise pgTB 0x103 sevINFO (msSince s (holdStart s)) (wrB pgTB 0x08C 1 false s) else s

/-- The drift bound in ns: 2 ppm of the time in holdover, saturating; 0 outside holdover (R51). -/
def holdBound (s : State) : Nat := if tbHoldover s then satN 32 (2 * (now s - holdStart s) / 1000000) else 0

/-! ### Software writes -/

/-- A write of `TB_RATE_SET`: clamped, stored, applied at once in FREE, and in GPTP outside holdover (R46, R50). -/
def effRateSet (value : Word) (s : State) : State :=
  let v := toSigned 32 value.toNat
  let c := clampI (-rateLimit) rateLimit v
  let t := wrN pgTB 0x090 (ofSigned 32 c) s
  let u := if c = v then t else raise pgTB 0x106 sevINFO value.toNat t
  if tbSrc s = 0 ∨ (tbSrc s = 2 ∧ !tbHoldover s) then setRate c u else u

/-- A new source: the rate keeps its value but for FREE, which applies `TB_RATE_SET`; the lock state starts over (R53, R54), without
HOLDOVER_EXIT. [DESIGN CHOICE, log entry 223] -/
def changeSrc (src : Nat) (s : State) : State :=
  let t := wrF pgTB 0x08C 5 4 src (wrF pgTB 0x08C 2 0 0 s)
  let u := { t with tb := { t.tb with edgeSeen := false, edgeCount := 0, missRun := 0, keepAt := now s, boundTold := false } }
  if src = 0 then setRate (toSigned 32 (rd u pgTB 0x090).toNat) u else u

/-- A write of `TB_CTRL`: SRC 0b11 is not accepted and leaves the field; a change of SRC selects the source. -/
def effTbCtrl (value : Word) (s : State) : State :=
  let old := rdF s pgTB 0x088 1 0
  let src := if fld value 1 0 = 3 then old else fld value 1 0
  let t := wr pgTB 0x088 (landWord (fieldsAt pgTB 0x088) false (rd s pgTB 0x088) (setFld value 1 0 src)) s
  if src = old then t else changeSrc src t

/-- A write of `TB_SLEW` (R55); a slew of 0 ns is over at once and raises nothing. [DESIGN CHOICE, log entry 224] -/
def effSlew (q : Port) (value : Word) (s : State) : State :=
  let v := toSigned 32 value.toNat
  if s.tb.slewRest ≠ 0 ∨ 1000000000 < v.natAbs then cmdRej q pgTB 0x098 0 s
  else if v = 0 then s
  else formInc (wrB pgTB 0x08C 3 true (wr pgTB 0x09C value
    { s with tb := { s.tb with slewReq := v, slewRest := v.natAbs * 2 ^ 32 } }))

/-- A write of 1 to `TB_GPTP_KEEP`: restarts the time-out; in GPTP mode LOCKED sets if it was clear, and holdover ends with
`TB_RATE_NOW` taking `TB_RATE_SET` (R50, R53). -/
def effGptpKeep (s : State) : State :=
  if tbSrc s = 2 then
    let t := { s with tb := { s.tb with keepAt := now s } }
    if tbLocked s then t
    else
      let u := if tbHoldover t then setRate (toSigned 32 (rd t pgTB 0x090).toNat) t else t
      exitHoldover (wrB pgTB 0x08C 0 true u)
  else s

/-- A read of `TB_NOW_LO` by a port: the value is returned and the high half latched into the port's shadow (R56). -/
def latchShadow (q : Port) (s : State) : State :=
  let h : Word := BitVec.ofNat 32 (now s / 2 ^ 32)
  match q with
  | .a => { s with tb := { s.tb with shadowA := h } }
  | .b => { s with tb := { s.tb with shadowB := h } }

def shadow (s : State) (q : Port) : Word := match q with | .a => s.tb.shadowA | .b => s.tb.shadowB

/-! ### Meanings -/

/-- TB_SLEW (R55). -/
def execTbSlew (q : Port) (value : Word) (s : State) : Host.Outcome State Fault Refusal :=
  settle s (gateWrite q pgTB 0x098 (effSlew q value) s)

/-- SLEW_DONE (R55): raised once the whole slew is made. -/
def execSlewDone (s : State) : Host.Outcome State Fault Refusal :=
  settle s (if s.pd0 && decide (s.tb.slewReq ≠ 0) && decide (s.tb.slewRest = 0) then
    raise pgTB 0x105 sevINFO (ofSigned 32 s.tb.slewReq) { s with tb := { s.tb with slewReq := 0 } }
  else s)

/-- TB_RATE_SET_WRITE (R46). -/
def execTbRateSetWrite (q : Port) (value : Word) (s : State) : Host.Outcome State Fault Refusal :=
  settle s (gateWrite q pgTB 0x090 (effRateSet value) s)

/-- TB_SRC_CHANGE (R54): a write of `TB_CTRL` with the given SRC, its other fields as they stand. -/
def execTbSrcChange (q : Port) (src : Fin 4) (s : State) : Host.Outcome State Fault Refusal :=
  settle s (gateWrite q pgTB 0x088 (fun t => effTbCtrl (setFld (rd t pgTB 0x088) 1 0 src.val) t) s)

/-- TB_NOW_LO_READ (R56): a 32-bit or 64-bit read from either port. -/
def execTbNowLoRead (q : Port) (wide : Bool) (s : State) : Host.Outcome State Fault Refusal :=
  settle s (if portLive s q then
    (latchShadow q s).modPort q (fun p => { p with
      readData := if wide then now s % 2 ^ 64 else now s % 2 ^ 32, readEP := false })
  else s)

/-- The number of the expected edge nearest to `t`, at least 1 (R47). -/
def nearestEdge (last t : Nat) : Nat := max 1 ((t - last + 500000000) / 1000000000)

/-- An accepted edge at `t`, its interval error known: the servo in LOCKED, acquisition otherwise (R48, R52).
[DEDUCED, log entry 11] -/
def acceptEdge (t : Nat) (e : Int) (s : State) : State :=
  let u := wrN pgTB 0x0AC (ofSigned 32 e) (wr64 pgTB 0x0A4 t { s with tb := { s.tb with missRun := 0 } })
  if tbLocked s then setRate (clampI (-rateLimit) rateLimit (rateNow s - truncDiv e 4)) u
  else
    let n := s.tb.edgeCount + 1
    let v := { u with tb := { u.tb with edgeCount := n } }
    if lockCount s ≤ n then
      exitHoldover (raise pgTB 0x100 sevINFO (rd v pgTB 0x0AC).toNat (wrB pgTB 0x08C 2 false (wrB pgTB 0x08C 0 true v)))
    else v

/-- The first edge of an acquisition: accepted without a window test (R52). -/
def firstEdge (t : Nat) (s : State) : State :=
  let u := wr64 pgTB 0x0A4 t { s with tb := { s.tb with edgeSeen := true, edgeCount := 1, missRun := 0 } }
  if lockCount s ≤ 1 then
    exitHoldover (raise pgTB 0x100 sevINFO (rd u pgTB 0x0AC).toNat (wrB pgTB 0x08C 0 true u))
  else wrB pgTB 0x08C 2 true u

/-- A selected edge in PPS mode (R47, R48, R52); the offset in PPS_REJECT is truncated toward zero to whole µs.
[DESIGN CHOICE, log entry 225] -/
def ppsSelected (s : State) : State :=
  let t := now s
  if !tbLocked s && !tbAcquiring s then firstEdge t s
  else
    let last := ppsLast s
    let n := nearestEdge last t
    let d : Int := (t : Int) - (last + n * 1000000000 : Nat)
    if d.natAbs ≤ ppsWindow s then acceptEdge t (truncDiv d n) s
    else raise pgTB 0x101 sevINFO (ofSigned 32 (truncDiv d 1000)) (incCnt pgTB 0x0B4 1 s)

/-- PPS_EDGE (R47): an edge of the PPS input. The PPS/GPIO page, while it accepts (R355), counts every
selected edge (`GPIO_PPS_EDGES`). -/
def execPpsEdge (rising : Bool) (s : State) : Host.Outcome State Fault Refusal :=
  settle s (if s.pd0 then
    let t := if pageOn s pgGPIO then wrB pgGPIO 0x088 16 rising s else s
    if rising = rdB s pgTB 0x088 2 then t
    else
      let u := if pageOn t pgGPIO && enabled t pgGPIO && !fenceBit t pgGPIO then incCnt pgGPIO 0x094 1 t else t
      if tbSrc s = 1 then ppsSelected u else u
  else s)

/-- The window of the next expected edge has passed (R49). -/
def ppsOverdue (s : State) : Bool :=
  decide (ppsLast s + (s.tb.missRun + 1) * 1000000000 + ppsWindow s < now s)

/-- PPS_EDGE_MISSED (R49, R53). [DEDUCED, log entry 12] -/
def execPpsEdgeMissed (s : State) : Host.Outcome State Fault Refusal :=
  settle s (if s.pd0 && decide (tbSrc s = 1) && s.tb.edgeSeen && ppsOverdue s then
    let n := s.tb.missRun + 1
    let t := incCnt pgTB 0x0B0 1 { s with tb := { s.tb with missRun := n } }
    if n < missLimit s then t
    else if tbLocked s then enterHoldover 0x1 t
    else if tbAcquiring s then
      raise pgTB 0x107 sevINFO s.tb.edgeCount (wrB pgTB 0x08C 2 false { t with tb := { t.tb with edgeCount := 0 } })
    else t
  else s)

/-- TB_GPTP_KEEP (R53). -/
def execTbGptpKeep (q : Port) (s : State) : Host.Outcome State Fault Refusal :=
  settle s (gateWrite q pgTB 0x0C8 effGptpKeep s)

/-- GPTP_TIMEOUT (R50): nothing while LOCKED is clear (R53). -/
def execGptpTimeout (s : State) : Host.Outcome State Fault Refusal :=
  settle s (if s.pd0 && decide (tbSrc s = 2) && tbLocked s && decide (s.tb.keepAt + gptpTimeoutNs s ≤ now s) then
    enterHoldover 0x2 s
  else s)

/-- The drift of R51, before it is rounded to nanoseconds, exceeds `TB_HOLD_ALARM_NS`; a saturated bound exceeds nothing.
[DEDUCED, log entry 222] -/
def boundOver (s : State) : Bool :=
  let a := (rd s pgTB 0x0C4).toNat
  decide (a < 0xFFFFFFFF) && decide (a * 1000000 < 2 * (now s - holdStart s))

/-- HOLD_BOUND_EXCEEDED (R51): once per holdover. -/
def execHoldBoundExceeded (s : State) : Host.Outcome State Fault Refusal :=
  settle s (if s.pd0 && tbHoldover s && !s.tb.boundTold && boundOver s then
    raise pgTB 0x104 sevDEGRADED (holdBound s) { s with tb := { s.tb with boundTold := true } }
  else s)

/-- The window of R39: 1,024,000 TB ns. -/
def paceWindow : Nat := 1024000

/-- When the pace window of a page began: at the last update, or when its domain came on. -/
def paceFrom (s : State) (p : Nat) : Nat := max (s.tb.paceStart.get 0 p) (s.power.domainOnAt.get 0 (domainOf p))

/-- The handshakes a page's probe makes in one window at P = 1.00 (R37): its own constant, not 0. -/
def paceNorm (page : Nat) : Nat := Config.paceNorm page + 1

/-- PACE_WINDOW_END (R37, R39, R40): `handshakes` were counted in the window. -/
def execPaceWindowEnd (page handshakes : Nat) (s : State) : Host.Outcome State Fault Refusal :=
  settle s (if pageOn s page && decide (paceFrom s page + paceWindow ≤ now s) then
    let rate := min (16000 * handshakes / paceNorm page) 0xFFFFF
    let v := putBits (putBits (putBits (rd s page 0x02C).toNat 19 0 rate) 20 20 1) 27 24 (rdF s page 0x02C 27 24 + 1)
    wrN page 0x02C v { s with tb := { s.tb with paceStart := s.tb.paceStart.put 0 page (now s) } }
  else s)

end Sys2Proof.Machine
end

