-- ==== Sys2Proof/Machine/RegRead.lean ====
section
/-!
DEFINITION. What a read of a register returns (R58 to R61, R67, R72, R75 to R79, R669): the header words each page forms, the
fault mirror and the last-resort store (R620 to R626), and the words that show a block's private state.
-/
namespace Sys2Proof.Machine

/-! ### The header -/

/-- `PG_ID` and `PG_VER`. -/
def pgId (p : Nat) : Nat := p % 2 ^ 12 + typePage p % 256 * 2 ^ 12 + (p - typePage p) % 32 * 2 ^ 20
def pgVer (s : State) : Nat := 0x100 + s.fuses.issue % 16 * 2 ^ 16

/-- `PG_STATUS.BLOCK`, as the page's chapter defines it. -/
def blockStatus (s : State) (p : Nat) : Nat :=
  match kindOf p with
  | some .strm => let w := strmStateWord s (p - 0x040); bitsOf w 3 0 + bitsOf w 14 8 * 16
  | some .tc => tcStateWord s (p - 0x080) % 16
  | some .wrp | some .pyr | some .hwk | some .owl | some .kes => visStateWord s (p - 0x090) % 16
  | some .fus => fusStateWord s % 16
  | some .gsh => gshStateWord s % 16
  | some .fsh => fshStateWord s % 256
  | _ => 0

/-- `PG_STATUS`. [DEDUCED, log entry 24] -/
def pgStatus (s : State) (p : Nat) : Nat :=
  let j := pageJobs s p
  b2n (!j.running.isEmpty) + 2 * b2n (runsJobs p && j.queue.any (depHeld s p)) + 4 * b2n (rdB s p 0x010 2) +
    satN 8 j.queue.length * 2 ^ 8 + blockStatus s p * 2 ^ 16

/-! ### The fault mirror (R618, R620 to R622) -/

/-- Page `p` has VALID 1. -/
def faultValid (s : State) (p : Nat) : Bool := rdB s p 0x020 16

/-- `FM_PAGEp`. -/
def fmPage (s : State) (p : Nat) : Nat :=
  if !assigned p then 0
  else rdF s p 0x020 17 0 + readyWord s p % 32 * 2 ^ 18 + b2n (rdB s p 0x010 2) * 2 ^ 23 + b2n (s.timeouts.get false p) * 2 ^ 24

/-- A word of 32 pages' bits from page 32 n. -/
def pageBits (f : Nat → Bool) (n : Nat) : Nat :=
  ((List.range 32).map (fun (b : Nat) => b2n (assigned (32 * n + b) && f (32 * n + b)) * 2 ^ b)).foldl (· + ·) 0

/-- `FM_SUMMARY`. -/
def fmSummary (s : State) : Nat :=
  let sevs := (allPages.filter (faultValid s)).map (fun p => rdF s p 0x020 15 12)
  sevs.foldl max 0 + b2n (faultN s) * 2 ^ 4 + b2n (!s.lre.entries.isEmpty) * 2 ^ 5 +
    satN 8 (allPages.filter (severe s)).length * 2 ^ 16

/-- A word of the FM page. -/
def fmWord (s : State) (off : Nat) : Nat :=
  if off = 0x080 then fmSummary s
  else if 0x400 ≤ off then fmPage s ((off - 0x400) / 4)
  else if 0x0C0 ≤ off then pageBits (faultValid s) ((off - 0x0C0) / 4)
  else pageBits (severe s) ((off - 0x0A0) / 4)

/-! ### The last-resort store -/

/-- The entry in slot `i`. [DEDUCED, log entry 23] -/
def lreSlot (s : State) (i : Nat) : Option Posting := s.lre.entries[(i + 64 - s.lre.oldest) % 64]?

/-- A word of the LRE page; a delivery takes no time, so REPLAYING reads 0. [DEDUCED, log entry 23] -/
def lreWord (s : State) (off : Nat) : Nat :=
  if off = 0x080 then s.lre.entries.length + s.lre.oldest * 2 ^ 8
  else if 0x800 ≤ off then
    (match lreSlot s ((off - 0x800) / 4) with
    | some e => b2n e.toA + 2 * b2n e.toB
    | none => 0)
  else match lreSlot s ((off - 0x400) / 16) with
    | some e => leAt (eventRecord e.record) (off % 16) 4
    | none => 0

/-! ### Blocks -/

/-- `HPx_DOWN_MS`, `HPx_CR_STAT.IDLE`. -/
def hpWord (s : State) (q : Port) (off : Nat) : Option Nat :=
  if off = 0x084 then some (downMs s q)
  else if 0x100 ≤ off ∧ off < 0x300 ∧ off % 0x20 = 0x14 then
    let n := (off - 0x100) / 0x20
    let r := cmdRing s q n
    some (putBits (rd s (pgHP q) off).toNat 1 1 (b2n (decide (crHead s q n = r.tail) && decide (r.running = 0))))
  else none

/-- `DMC_STATUS.IN_MAP`, which shows the map in force from the instant PD2 is on (the spec gives its reset value 0 and no instant at
which it rises); `DMC_ECC_STATE.DONE_MIB`, which is open while an initialisation runs. [DESIGN CHOICE, log entries 21, 232] -/
def dmcWord (s : State) (p off : Nat) : Option Nat :=
  if off = 0x080 then some (putBits (rd s p off).toNat 2 2 (b2n ((mapMembers (mapInForce s)).contains (p - 0x010))))
  else if off = 0x110 ∧ s.dram.initRegion.isSome = true then
    some (putBits (rd s p off).toNat 31 16 (Config.freeNat s.freeCtr % 2049))
  else none

/-- The registers of the Mews that show its buffers; a handle that names no buffer of a pool that is on shows 0 in every field.
[DEDUCED, log entry 218] -/
def mewsWord (s : State) (off : Nat) : Option Nat :=
  if off = 0x0B4 then
    let h := (rd s pgMEWS 0x0B0).toNat
    let b := bufOf s (hPool h) (hIndex h)
    let known := (poolOf s (hPool h)).on && decide (hIndex h < (poolOf s (hPool h)).count)
    some (if !known then 0 else b.owner % 64 + b2n (b.held && !b.tent) * 2 ^ 8 + b2n (b.held && b.tent) * 2 ^ 9
      + b2n (current s h) * 2 ^ 10 + b.gen % 2 ^ 13 * 2 ^ 16)
  else if 0x200 ≤ off then
    let o := (off - 0x200) / 4
    some (s.mews.bufs.filter (fun e => e.2.held && !e.2.tent && decide (e.2.owner = o) && (poolOf s (e.1 / 65536)).on)).length
  else if 0x100 ≤ off then
    let n := (off - 0x100) / 0x20
    if off % 0x20 = 0x10 then some (freeCount s n % 2 ^ 17 + b2n (poolOf s n).on * 2 ^ 31)
    else if off % 0x20 = 0x14 then some (satN 16 (mewsQueue s n false).length + satN 16 (mewsQueue s n true).length * 2 ^ 16)
    else if off % 0x20 = 0x18 then some ((heldIn s n).filter (fun e => e.2.tent)).length
    else none
  else none

/-- Half 0 or 1 of a 64-bit value. -/
def half (v k : Nat) : Nat := if k = 0 then v % 2 ^ 32 else v / 2 ^ 32

/-- The registers that show a stream unit. -/
def strmWord (s : State) (u off : Nat) : Option Nat :=
  let v := unitOf s u
  if off = 0x080 then some (strmStateWord s u)
  else if 0x400 ≤ off then some (half (v.prog.get 0 ((off - 0x400) / 8)) (off / 4 % 2))
  else if 0x200 ≤ off then some (v.shapes.get 0 ((off - 0x200) / 4))
  else if 0x100 ≤ off then some (v.c.get 0 ((off - 0x100) / 4))
  else if 0x0C0 ≤ off then some (half (v.a.get 0 ((off - 0x0C0) / 8)) (off / 4 % 2))
  else none

/-- The waiters of a semaphore pair beside its counts. -/
def semaWord (s : State) (k off : Nat) : Option Nat :=
  if 0x100 ≤ off ∧ off % 8 = 4 then
    let n := 64 * k + (off - 0x104) / 8
    some ((rd s (pgSEMA k) off).toNat % 2 ^ 16 + satN 8 (semQueue s n false).length * 2 ^ 16 + satN 8 (semQueue s n true).length * 2 ^ 24)
  else none

/-- The registers that show a generation slot. -/
def genWord (s : State) (off : Nat) : Option Nat :=
  if off = 0x080 then some (genStateWord s)
  else if 0x100 ≤ off then
    let n := (off - 0x100) / 0x10
    if off % 0x10 = 0 then some (genSlotWord s n)
    else if off % 0x10 = 8 then some (slotOf s n).pages.length
    else if off % 0x10 = 12 then some ((slotOf s n).drafts.length % 16)
    else none
  else none

/-- `GPIO_IN`: an output pin shows the level it drives. [DEDUCED, log entry 22] -/
def gpioIn (s : State) : Nat :=
  let dir := (rd s pgGPIO 0x080).toNat
  ((List.range 16).map (fun (n : Nat) => b2n (if bitOf dir n then rdB s pgGPIO 0x084 n else rdB s pgGPIO 0x088 n) * 2 ^ n)).foldl (· + ·) 0
    + b2n (rdB s pgGPIO 0x088 16) * 2 ^ 16

/-- A block register whose word is not the stored one alone. [DESIGN CHOICE, log entry 20] -/
def blockWord (s : State) (q : Port) (p off : Nat) : Option Nat :=
  match kindOf p with
  | some .tb => if off = 0x080 then some (now s % 2 ^ 32) else if off = 0x084 then some (shadow s q).toNat
      else if off = 0x0C0 then some (holdBound s) else none
  | some .fm => some (fmWord s off)
  | some .lre => if off = 0x084 ∨ off = 0x08C then none else some (lreWord s off)
  | some .hp => hpWord s (Port.ofNum (p - 0x004)) off
  | some .dmc => dmcWord s p off
  | some .mreg => if off = 0x0B0 then some (rd (regulStatus (openInstant s)) pgMREG 0x0B0).toNat else none
  | some .flg => if off = 0x098 then some (satN 16 (s.strm.filter (fun e => e.2.waitFlag.isSome && !e.2.released)).length) else none
  | some .mews => mewsWord s off
  | some .strm => strmWord s (p - 0x040) off
  | some .sema => semaWord s (p - 0x060) off
  | some .tc => if off = 0x080 then some (tcStateWord s (p - 0x080)) else if off = 0x088 then some (tcBufWord s (p - 0x080))
      else if off = 0x0A8 then some (tcChainWord s (p - 0x080)) else none
  | some .gen => genWord s off
  | some .wrp | some .pyr | some .hwk | some .owl | some .kes =>
      if off = 0x080 then some (visStateWord s (p - 0x090)) else if off = 0x090 then some (visPinWord s (p - 0x090)) else none
  | some .gsh => if off = 0x080 then some (gshStateWord s)
      else if 0x0C0 ≤ off then some (if off % 8 = 0 then gshResWord s ((off - 0x0C0) / 8) else (resOf s ((off - 0x0C0) / 8)).epoch)
      else none
  | some .fus => if off = 0x080 then some (fusStateWord s)
      else if 0x100 ≤ off ∧ off < 0x160 then some (fusXfWord s ((off - 0x100) / 4)) else none
  | some .fsh => if off = 0x080 then some (fshStateWord s) else if 0x084 ≤ off ∧ off ≤ 0x0A4 then some (fshWord s off) else none
  | some .csi => if off = 0x084 then some (csiStatusWord s (p - 0x0D0)) else none
  | some .gpio => if off = 0x088 then some (gpioIn s) else none
  | some .fst => if off = 0x084 then some (fstLookupWord s)
      else if 0x100 ≤ off ∧ off % 0x40 = 0x20 then some (fstSlotsWord s ((off - 0x100) / 0x40)) else none
  | _ => none

/-! ### Reading -/

/-- The word's bits that read as they stand: every field but the commands (R7, R72). -/
def readMask (fs : List Field) : Word :=
  typeMask .cfg fs ||| typeMask .cfgh fs ||| typeMask .sts fs ||| typeMask .evt fs ||| typeMask .cnt fs ||| typeMask .lck fs

/-- The word of a register on a page whose domain is on. [DESIGN CHOICE, log entries 20, 21] -/
def liveWord (s : State) (q : Port) (p off : Nat) : Word :=
  let v : Word :=
    if off = 0x000 then BitVec.ofNat 32 (pgId p)
    else if off = 0x004 then BitVec.ofNat 32 (pgVer s)
    else if off = 0x010 then BitVec.ofNat 32 (pgStatus s p)
    else if off < 0x080 then rd s p off
    else match blockWord s q p off with
      | some n => BitVec.ofNat 32 n
      | none => rd s p off
  v &&& readMask (fieldsAt p off)

/-- What a read of one aligned word returns, side effects apart (R59, R60, R79, R667). -/
def regWord (s : State) (q : Port) (p off : Nat) : Word :=
  if !assigned p then 0
  else if pageOn s p then liveWord s q p off
  else if off = 0x008 then 0x10
  else if off = 0x000 ∨ off = 0x004 ∨ off = 0x020 ∨ off = 0x024 ∨ off = 0x028 then liveWord s q p off
  else 0

/-- A read of one word with what it does: the shadow latch of R56 and the memory read of R206. -/
def readReg (q : Port) (p off : Nat) (s : State) : Word × State :=
  if p = pgTB ∧ off = 0x080 then (regWord s q p off, if s.pd0 then latchShadow q s else s)
  else if p = pgFLG ∧ (off = 0x08C ∨ off = 0x090) ∧ pageOn s p = true then readGroup (decide (off = 0x090)) s
  else (regWord s q p off, s)

/-- A read of both words of a 64-bit access, from one instant (R76): `TB_NOW` whole, not its shadow. The memory read behind
a `FLG_GROUP` word is of that instant too, so `FLG_GROUP_SEL` beside it shows its outcome (R669, R206). -/
def readPair (q : Port) (p off : Nat) (s : State) : Nat × State :=
  if p = pgTB ∧ off = 0x080 then (now s % 2 ^ 64, latchShadow q s)
  else
    let b := readReg q p (off + 4) s
    let a := readReg q p off b.2
    (a.1.toNat + b.1.toNat * 2 ^ 32, a.2)

end Sys2Proof.Machine
end

