-- ==== Sys2Proof/Machine/RegWrite.lean ====
section
/-!
DEFINITION. Register accesses from a host port (R58 to R80, R667 to R670): the form of an access, what a write of one word does
on every page, the hardware updates decided in the same instant, and the enabling of the intake rings.
-/
namespace Sys2Proof.Machine

/-! ### The form of an access (R75) -/

/-- Every byte of the access is enabled. -/
def allEnabled (a : Access) : Bool := decide (a.enables % 2 ^ (a.width / 8) = 2 ^ (a.width / 8) - 1)

/-- The reason a write's form is refused, 0 for none: width, alignment, partial write. A write that fails several of them takes
the first; R670 lists the three reasons and no order. [DESIGN CHOICE, log entry 227] -/
def writeForm (a : Access) : Nat :=
  if a.width ≠ 32 ∧ a.width ≠ 64 then 0x1
  else if a.offset % (a.width / 8) ≠ 0 then 0x2
  else if !allEnabled a then 0x5
  else 0

/-- The reason a read's form is refused; a read may enable some bytes only. -/
def readForm (a : Access) : Nat :=
  if a.width ≠ 32 ∧ a.width ≠ 64 then 0x1 else if a.offset % (a.width / 8) ≠ 0 then 0x2 else 0

/-- The enabled bytes of what a read returns. [DEDUCED, log entry 16] -/
def enabledBytes (n enables v : Nat) : Nat :=
  ((List.range n).map (fun (i : Nat) => if bitOf enables i then v / 2 ^ (8 * i) % 256 * 2 ^ (8 * i) else 0)).foldl (· + ·) 0

/-! ### The header -/

/-- A write of `PG_FAULT`: MORE clears by 1, VALID with what it holds by 1 (R64). -/
def writeFault (q : Port) (p : Nat) (w : Word) (s : State) : State :=
  let t := landAt q p 0x020 false w s
  if flag w 16 then clearFault p t else t

/-- A write of a header word. [DEDUCED, log entry 13] -/
def writeHeader (q : Port) (p off : Nat) (lockedNow : Bool) (w : Word) (s : State) : State :=
  if off = 0x00C then writePgCtrl q p w s
  else if off = 0x01C then effEvtSet p w s
  else if off = 0x020 then writeFault q p w s
  else landAt q p off lockedNow w s

/-! ### Blocks -/

/-- A command bit of a word. -/
def onBit (w : Word) (f : State → State) (s : State) : State := if flag w 0 then f s else s

def writeTb (q : Port) (off : Nat) (w : Word) (s : State) : State :=
  if off = 0x088 then effTbCtrl w s
  else if off = 0x090 then effRateSet w s
  else if off = 0x098 then effSlew q w s
  else if off = 0x0C8 then onBit w effGptpKeep s
  else landAt q pgTB off false w s

def writeFm (q : Port) (off : Nat) (w : Word) (s : State) : State :=
  if off = 0x0E0 then effFmClr q (fld w 11 0) s else if off = 0x0E4 then effFmFence q (fld w 11 0) s else s

def writeLre (q : Port) (off : Nat) (w : Word) (s : State) : State :=
  if off = 0x088 then effLreDiscard q (fld w 6 0) s else landAt q pgLRE off false w s

/-- HPA and HPB: the writer is the page's own port. -/
def writeHp (q : Port) (off : Nat) (w : Word) (s : State) : State :=
  let n := (off - 0x100) / 0x20
  let m := (off - 0x300) / 0x20
  if 0x100 ≤ off ∧ off < 0x300 ∧ off % 0x20 = 0x08 then writeCrCfg q n w s
  else if 0x100 ≤ off ∧ off < 0x300 ∧ off % 0x20 = 0x10 then effCrDb q n (fld w 11 0) s
  else if 0x300 ≤ off ∧ off < 0x380 ∧ off % 0x20 = 0x08 then writeErCfg q m w s
  else landAt q (pgHP q) off false w s

def writeJnt (q : Port) (off : Nat) (w : Word) (s : State) : State :=
  if off = castOff q then onBit w (effCast q) s else landAt q pgJNT off false w s

def writeThm (q : Port) (off : Nat) (l : Bool) (w : Word) (s : State) : State :=
  if off = 0x0B4 then onBit w effPeakClr s else landAt q pgTHM off l w s

def writeDmc (q : Port) (c off : Nat) (w : Word) (s : State) : State :=
  if off = 0x084 then onBit w (effRetrain q c) (landAt q (pgDMC c) off false w s)
  else if off = 0x10C ∧ c = 0 then effEccInit q (fld w 4 0) s
  else landAt q (pgDMC c) off false w s

def writeMreg (q : Port) (off : Nat) (l : Bool) (w : Word) (s : State) : State :=
  if 0x080 ≤ off ∧ off ≤ 0x0A0 then effMregClass q [(off, w)] s
  else if off = 0x0A4 then effMregTagmin q w s
  else landAt q pgMREG off l w s

/-- [DEDUCED, log entries 25, 90] -/
def writeFlg (q : Port) (off : Nat) (w : Word) (s : State) : State :=
  if off = 0x080 then effFlg (fld w 18 0) true [] s
  else if off = 0x084 then effFlg (fld w 18 0) false [] s
  else if off = 0x088 then wrB pgFLG 0x088 31 false (landAt q pgFLG off false w s)
  else if off = 0x094 then effRangeClr q (fld w 12 0) (fld w 29 16) s
  else landAt q pgFLG off false w s

def writeMews (q : Port) (off : Nat) (w : Word) (s : State) : State :=
  if off = 0x088 then effMewsOp q (fld w 2 0) s
  else if off = 0x0A0 ∨ off = 0x0A4 then effMewsFence (decide (off = 0x0A4)) (rd s pgMEWS off) (landAt q pgMEWS off false w s)
  else if 0x100 ≤ off ∧ off < 0x200 ∧ off % 0x20 = 0x0C then effPoolCtrl q ((off - 0x100) / 0x20) w s
  else landAt q pgMEWS off false w s

def writeStrm (q : Port) (u off : Nat) (w : Word) (s : State) : State :=
  if off = 0x098 then onBit w (effStrmFence q u) s else landAt q (pgSTRM u) off false w s

def writeSema (q : Port) (k off : Nat) (w : Word) (s : State) : State :=
  if off = 0x080 then effSemaRestore k w [] s
  else if off = 0x084 then effSemaSig q k w s
  else if off = 0x0C0 then effTrigClr (pgSEMA k) w s
  else landAt q (pgSEMA k) off false w s

/-- The engine pages: their one command clears a trigger input; a write of `TC_CHAIN_WAIT` holds from its instant on. -/
def writeEngine (q : Port) (p off : Nat) (l : Bool) (w : Word) (s : State) : State :=
  if trigClrOff p = some off then effTrigClr p w s
  else if kindOf p = some .tc ∧ off = 0x0A8 then
    modCore (p - 0x080) (fun v => { v with chainSince := v.chainSince.map (fun _ => now s) }) (landAt q p off l w s)
  else landAt q p off l w s

/-- ETH, CAN, SPI and UART: their rings, and the commands of each. -/
def writeIntake (q : Port) (p off : Nat) (w : Word) (s : State) : State :=
  match (ringSpec p false).filter (fun c => decide (c.cfg = off)), (ringSpec p true).filter (fun c => decide (c.cfg = off)) with
  | some c, _ => effRingCfgWrite q p false c w s
  | _, some c => effRingCfgWrite q p true c w s
  | none, none =>
    effRxHead p off <| match kindOf p with
    | some .eth =>
      if off = 0x0D0 then effEthTxDb q (p - 0x0D8) (fld w 9 0) s
      else if off = 0x100 ∨ off = 0x140 then effLxCtrl (p - 0x0D8) ((off - 0x100) / 0x40) (landAt q p off false w s)
      else landAt q p off false w s
    | some .can => if off = 0x0B0 then onBit w (effCanRecover q (p - 0x0DA)) s else landAt q p off false w s
    | some .uart => if off = 0x0A4 then effUartTx q (p - 0x0DE) (BitVec.ofNat 8 w.toNat) s else landAt q p off false w s
    | _ => landAt q p off false w s

def writeFst (q : Port) (off : Nat) (w : Word) (s : State) : State :=
  let c := (off - 0x100) / 0x40
  if 0x100 ≤ off ∧ off < 0x500 ∧ off % 0x40 = 0 then effCamSrc c (camOn s c) (landAt q pgFST off false w s)
  else if 0x100 ≤ off ∧ off < 0x500 ∧ off % 0x40 = 0x2C then onBit w (effCamFlush c) s
  else landAt q pgFST off false w s

def writeMbr (q : Port) (off : Nat) (w : Word) (s : State) : State :=
  if off = 0x090 then effWheelCfg (ringOn s pgMBR wheelRing) (landAt q pgMBR off false w s)
  else if off = 0x0A0 then effMbrReq q (fld w 3 0) s
  else landAt q pgMBR off false w s

def writePlk (q : Port) (off : Nat) (l : Bool) (w : Word) (s : State) : State :=
  let c := (off - 0x100) / 0x20
  if 0x100 ≤ off ∧ off < 0x180 ∧ off % 0x20 = 0x08 then effPostCfg c (postOn s c) (landAt q pgPLK off false w s)
  else if 0x100 ≤ off ∧ off < 0x180 ∧ off % 0x20 = 0x10 then effPostDb q c (fld w 9 0) s
  else landAt q pgPLK off l w s

/-- A write of one word of a page by the port that may make it. An offset the page does not define takes nothing (R667). -/
def writeReg (q : Port) (p off : Nat) (lockedNow : Bool) (w : Word) (s : State) : State :=
  if (regSpec p off).isNone then s
  else if off < 0x080 then writeHeader q p off lockedNow w s
  else match kindOf p with
    | some .tb => writeTb q off w s
    | some .fm => writeFm q off w s
    | some .lre => writeLre q off w s
    | some .hp => writeHp q off w s
    | some .jnt => writeJnt q off w s
    | some .thm => writeThm q off lockedNow w s
    | some .dmc => writeDmc q (p - 0x010) off w s
    | some .mreg => writeMreg q off lockedNow w s
    | some .flg => writeFlg q off w s
    | some .mews => writeMews q off w s
    | some .strm => writeStrm q (p - 0x040) off w s
    | some .sema => writeSema q (p - 0x060) off w s
    | some .eth | some .can | some .spi | some .uart => writeIntake q p off w s
    | some .fst => writeFst q off w s
    | some .mbr => writeMbr q off w s
    | some .plk => writePlk q off lockedNow w s
    | _ => writeEngine q p off lockedNow w s

/-! ### Accesses -/

/-- The words of an access: offset in the page and data. -/
def accWords (a : Access) : List (Nat × Word) :=
  let off := a.offset % 0x1000
  if a.width = 64 then [(off, BitVec.ofNat 32 a.data), (off + 4, BitVec.ofNat 32 (a.data / 2 ^ 32))] else [(off, BitVec.ofNat 32 a.data)]

/-- A write of `SEMA_RESTORE` (`lo`) and `SEMA_SIG` (`hi`) of page `k` in one instant: the signal, where it is not rejected, comes
before the restore and is overwritten by it (R267, R269). -/
def landSema (q : Port) (k : Nat) (lo hi : Word) (s : State) : State :=
  if fld hi 15 12 = 0 then effSemaRestore k lo [] (cmdRej q (pgSEMA k) 0x084 12 s)
  else effSemaRestore k lo [⟨64 * k + fld hi 5 0, flag hi 8, fld hi 15 12⟩] s

/-- A write lands in its words in one instant (R73, R74, R76): one that sets the page's lock finds its other words locked; one of
`FLG_SET` and `FLG_CLR` leaves the flag set (R182), and settings of the regulator are evaluated together (R191). -/
def landWrite (q : Port) (a : Access) (s : State) : State :=
  let p := a.offset / 0x1000
  let lockNow := locked s p
  match accWords a with
  | [lo, hi] =>
    if p = pgFLG ∧ lo.1 = 0x080 then effFlg (fld lo.2 18 0) true [(fld hi.2 18 0, false)] s
    else if kindOf p = some .sema ∧ lo.1 = 0x080 then landSema q (p - 0x060) lo.2 hi.2 s
    else if p = pgMREG ∧ 0x080 ≤ lo.1 ∧ hi.1 ≤ 0x0A0 then effMregClass q [lo, hi] s
    else
      let sets := decide (lo.1 = 0x03C) && flag lo.2 0 || (decide (hi.1 = 0x03C) && flag hi.2 0)
      [lo, hi].foldl (fun t e => writeReg q p e.1 (lockNow || (sets && decide (e.1 ≠ 0x03C))) e.2 t) s
  | ws => ws.foldl (fun t e => writeReg q p e.1 lockNow e.2 t) s

/-- A software write of an access reaches its page: the tests of R670 after its form hold. -/
def landed (s : State) (q : Port) (a : Access) : Bool :=
  a.write && portLive s q && decide (writeForm a = 0) && assigned (a.offset / 0x1000) &&
    decide (writerOf s (a.offset / 0x1000) (a.offset % 0x1000) = q) && pageOn s (a.offset / 0x1000)

/-- A hardware clear of a CFGH bit wins over a software write of the same instant, whatever that wrote (R67): a bit that stood
at 1 in `s0`, before the instant, and that software took to 0 is hardware's to clear, so that HW_CLEAR records it.
[DEDUCED, log entry 228] -/
def clearWins (p : Nat) (hw : List HwUpdate) (s0 s : State) : State :=
  hw.foldl (fun t h => match h with
    | .clear off m => wr p off (rd t p off ||| (m &&& typeMask .cfgh (fieldsAt p off) &&& rd s0 p off)) t
    | _ => t) s

/-- A hardware update of the same instant lands after the software write (R67 to R71); one of either half of a 64-bit counter
is one of the whole. [DEDUCED, log entries 17, 228] -/
def applyHw (p : Nat) (wrote1 : Nat → Nat → Bool) (h : HwUpdate) (s : State) : State :=
  if !pageOn s p then s
  else match h with
    | .setEvt off m => wr p off (rd s p off ||| (m &&& typeMask .evt (fieldsAt p off))) s
    | .count off n =>
      if typeMask .cnt (fieldsAt p off) = 0 then s
      else if isPair p off then incCnt64 p off n s
      else if isPair p (off - 4) && decide (4 ≤ off) then incCnt64 p (off - 4) n s
      else incCnt p off n s
    | .clear off m =>
      ((List.range 32).filter (fun i => flag (m &&& typeMask .cfgh (fieldsAt p off)) i)).foldl (fun t i =>
        if rdB t p off i then raiseOnly p cHW_CLEAR sevINFO (off + i * 2 ^ 12 + b2n (wrote1 off i) * 2 ^ 21) (wrB p off i false t)
        else t) s
where
  /-- The `_LO` half of a 64-bit counter (R71). -/
  isPair (p off : Nat) : Bool :=
    match kindOf p with
    | some .dmc => decide (off = 0x0A0)
    | some .strm => decide (off = 0x0A4)
    | some .tc => decide (off = 0x098)
    | some .fsh => decide (off = 0x0B8)
    | _ => false

/-- What a read of an access returns, and what it does (R60, R75, R76, R669). [DEDUCED, log entries 16, 219] -/
def readAccess (q : Port) (a : Access) (s : State) : Nat × State :=
  let p := a.offset / 0x1000
  let off := a.offset % 0x1000
  if readForm a ≠ 0 then (0, badAccess q p off (readForm a) s)
  else if !assigned p then (0, badAccess q p off 0x3 s)
  else if a.width = 64 then
    let r := readPair q p off s
    (enabledBytes 8 a.enables r.1, r.2)
  else
    let r := readReg q p off s
    (enabledBytes 4 a.enables r.1.toNat, r.2)

/-- A write of an access, tested in the order of R670. -/
def writeAccess (q : Port) (a : Access) (s : State) : State :=
  let p := a.offset / 0x1000
  if writeForm a ≠ 0 then badAccess q p (a.offset % 0x1000) (writeForm a) s
  else gateWrite q p (a.offset % 0x1000) (landWrite q a) s

/-- REG_WRITE: a register access of a port, with the hardware updates of its page decided in the same instant.
[DESIGN CHOICE, log entries 15, 211; DEDUCED, log entry 38] -/
def execRegWrite (q : Port) (acc : Access) (hw : List HwUpdate) (s : State) : Host.Outcome State Fault Refusal :=
  let p := acc.offset / 0x1000
  let wrote1 (off i : Nat) : Bool := landed s q acc && (accWords acc).any (fun e => decide (e.1 = off) && flag e.2 i)
  settle s (if !portLive s q || decide (0x4000000 ≤ acc.offset) then s
    else
      let t := if acc.write then writeAccess q acc s else s
      let t := hw.foldl (fun t h => applyHw p wrote1 h t) (if pageOn t p then clearWins p hw s t else t)
      if acc.write then t
      else
        let r := readAccess q acc t
        r.2.modPort q (fun v => { v with readData := r.1, readEP := false }))

/-! ### The enabling of an intake ring (R357, R376, R556, R614) -/

/-- INTAKE_RING_ENABLE: a write of the configuration register of a ring: the receive or transmit ring of an intake page, the
wheel ring of the bridge, or a posting ring of the Dexvor link (that of channel 0; the others by REG_WRITE). -/
def execIntakeRingEnable (q : Port) (page : Nat) (transmit : Bool) (value : Word) (s : State) : Host.Outcome State Fault Refusal :=
  settle s (match ringSpec page transmit with
    | some c => gateWrite q page c.cfg (effRingCfgWrite q page transmit c value) s
    | none =>
      if page = pgMBR then gateWrite q page 0x090 (writeMbr q 0x090 value) s
      else if page = pgPLK then gateWrite q page (postReg 0 0x08) (writePlk q (postReg 0 0x08) false value) s
      else s)

end Sys2Proof.Machine
end

