-- ==== Sys2Proof/Machine/Dispatch.lean ====
section
/-!
DEFINITION. One arm per command: each is one call of its meaning.
-/
namespace Sys2Proof.Machine

/-- The effect of a command on everything but the queue. [DESIGN CHOICE, log entry 9; DEDUCED, log entry 215] -/
def exec (i : Instr) (s : State) : Host.Outcome State Fault Refusal :=
  match i with
  | .pd0PowerGood straps => Sys2Proof.Machine.execPd0PowerGood straps s
  | .trimVerifyDone r => Sys2Proof.Machine.execTrimVerifyDone r s
  | .pageReady page => Sys2Proof.Machine.execPageReady page s
  | .paceWindowEnd page handshakes => Sys2Proof.Machine.execPaceWindowEnd page handshakes s
  | .tbSlew q value => Sys2Proof.Machine.execTbSlew q value s
  | .slewDone => Sys2Proof.Machine.execSlewDone s
  | .tbRateSetWrite q value => Sys2Proof.Machine.execTbRateSetWrite q value s
  | .tbSrcChange q src => Sys2Proof.Machine.execTbSrcChange q src s
  | .tbNowLoRead q wide => Sys2Proof.Machine.execTbNowLoRead q wide s
  | .ppsEdge rising => Sys2Proof.Machine.execPpsEdge rising s
  | .ppsEdgeMissed => Sys2Proof.Machine.execPpsEdgeMissed s
  | .tbGptpKeep q => Sys2Proof.Machine.execTbGptpKeep q s
  | .gptpTimeout => Sys2Proof.Machine.execGptpTimeout s
  | .holdBoundExceeded => Sys2Proof.Machine.execHoldBoundExceeded s
  | .regWrite q acc hw => Sys2Proof.Machine.execRegWrite q acc hw s
  | .pageLock q page => Sys2Proof.Machine.execPageLock q page s
  | .evtTest q page bits => Sys2Proof.Machine.execEvtTest q page bits s
  | .pgFaultClear q page fault => Sys2Proof.Machine.execPgFaultClear q page fault s
  | .pageEnable q page on => Sys2Proof.Machine.execPageEnable q page on s
  | .pageQuiesce q page on => Sys2Proof.Machine.execPageQuiesce q page on s
  | .pageFence q page => Sys2Proof.Machine.execPageFence q page s
  | .pageUnfence q page => Sys2Proof.Machine.execPageUnfence q page s
  | .fenceComplete page => Sys2Proof.Machine.execFenceComplete page s
  | .fenceSlow page => Sys2Proof.Machine.execFenceSlow page s
  | .regTimeout q page off write => Sys2Proof.Machine.execRegTimeout q page off write s
  | .eventPost => Sys2Proof.Machine.execEventPost s
  | .msixModerationTimeout q ring => Sys2Proof.Machine.execMsixModerationTimeout q ring s
  | .lreReplay => Sys2Proof.Machine.execLreReplay s
  | .lreDiscard q n => Sys2Proof.Machine.execLreDiscard q n s
  | .linkDown q => Sys2Proof.Machine.execLinkDown q s
  | .linkUp q speed width cfg => Sys2Proof.Machine.execLinkUp q speed width cfg s
  | .perst q cfg => Sys2Proof.Machine.execPerst q cfg s
  | .flr q cfg => Sys2Proof.Machine.execFlr q cfg s
  | .unsupportedRequest q kind => Sys2Proof.Machine.execUnsupportedRequest q kind s
  | .apertureRead q offset len => Sys2Proof.Machine.execApertureRead q offset len s
  | .apertureWrite q offset data => Sys2Proof.Machine.execApertureWrite q offset data s
  | .crDoorbell q ring tail => Sys2Proof.Machine.execCrDoorbell q ring tail s
  | .crEnable q ring => Sys2Proof.Machine.execCrEnable q ring s
  | .erEnable q ring => Sys2Proof.Machine.execErEnable q ring s
  | .crEntryTake q => Sys2Proof.Machine.execCrEntryTake q s
  | .heldJobDeadline page => Sys2Proof.Machine.execHeldJobDeadline page s
  | .jobCompletion page => Sys2Proof.Machine.execJobCompletion page s
  | .voteCast q => Sys2Proof.Machine.execVoteCast q s
  | .jointTimeout => Sys2Proof.Machine.execJointTimeout s
  | .setOwner q => Sys2Proof.Machine.execSetOwner q s
  | .domain q => Sys2Proof.Machine.execDomain q s
  | .vcore q => Sys2Proof.Machine.execVcore q s
  | .unlock q => Sys2Proof.Machine.execUnlock q s
  | .dmcMap q => Sys2Proof.Machine.execDmcMap q s
  | .fusXform q => Sys2Proof.Machine.execFusXform q s
  | .fusMode q => Sys2Proof.Machine.execFusMode q s
  | .metJourney q => Sys2Proof.Machine.execMetJourney q s
  | .consent q => Sys2Proof.Machine.execConsent q s
  | .window q => Sys2Proof.Machine.execWindow q s
  | .domainOnDone d => Sys2Proof.Machine.execDomainOnDone d s
  | .domainOffDone d => Sys2Proof.Machine.execDomainOffDone d s
  | .vcoreDone => Sys2Proof.Machine.execVcoreDone s
  | .supMeasurement r => Sys2Proof.Machine.execSupMeasurement r s
  | .vcoreLost critAction => Sys2Proof.Machine.execVcoreLost critAction s
  | .vcoreReturn => Sys2Proof.Machine.execVcoreReturn s
  | .thmSample readings => Sys2Proof.Machine.execThmSample readings s
  | .thmPeakClr q => Sys2Proof.Machine.execThmPeakClr q s
  | .dmcTrainDone ctl failStep => Sys2Proof.Machine.execDmcTrainDone ctl failStep s
  | .trainTimeout ctl => Sys2Proof.Machine.execTrainTimeout ctl s
  | .retrain q ctl => Sys2Proof.Machine.execRetrain q ctl s
  | .dmcEccInit q region => Sys2Proof.Machine.execDmcEccInit q region s
  | .eccInitDone => Sys2Proof.Machine.execEccInitDone s
  | .mr4Read ctl aboveNominal code => Sys2Proof.Machine.execMr4Read ctl aboveNominal code s
  | .selfRefreshEntry ctl => Sys2Proof.Machine.execSelfRefreshEntry ctl s
  | .requestAdmit present done count => Sys2Proof.Machine.execRequestAdmit present done count s
  | .regulatorInterval => Sys2Proof.Machine.execRegulatorInterval s
  | .mregClassWrite q index value => Sys2Proof.Machine.execMregClassWrite q index value s
  | .mregTagminWrite q value => Sys2Proof.Machine.execMregTagminWrite q value s
  | .memRead dpa len upset => Sys2Proof.Machine.execMemRead dpa len upset s
  | .memWrite dpa data upset => Sys2Proof.Machine.execMemWrite dpa data upset s
  | .patrolScrub ctl upset => Sys2Proof.Machine.execPatrolScrub ctl upset s
  | .resInitDone bistFail repairFail => Sys2Proof.Machine.execResInitDone bistFail repairFail s
  | .flgSet q flag same => Sys2Proof.Machine.execFlgSet q flag same s
  | .flgClr q flag same => Sys2Proof.Machine.execFlgClr q flag same s
  | .flgRangeClr q first count => Sys2Proof.Machine.execFlgRangeClr q first count s
  | .rangeClrDone => Sys2Proof.Machine.execRangeClrDone s
  | .flgGroupRead q high => Sys2Proof.Machine.execFlgGroupRead q high s
  | .alloc q => Sys2Proof.Machine.execAlloc q s
  | .free q => Sys2Proof.Machine.execFree q s
  | .transfer q => Sys2Proof.Machine.execTransfer q s
  | .reclaim q => Sys2Proof.Machine.execReclaim q s
  | .reclaimDone => Sys2Proof.Machine.execReclaimDone s
  | .cancel q => Sys2Proof.Machine.execCancel q s
  | .tentative u => Sys2Proof.Machine.execTentative u s
  | .allocGranted => Sys2Proof.Machine.execAllocGranted s
  | .mewsFenceWrite q high value => Sys2Proof.Machine.execMewsFenceWrite q high value s
  | .poolOn q n => Sys2Proof.Machine.execPoolOn q n s
  | .poolOff q n => Sys2Proof.Machine.execPoolOff q n s
  | .runJobStart u => Sys2Proof.Machine.execRunJobStart u s
  | .launch u => Sys2Proof.Machine.execLaunch u s
  | .seta u => Sys2Proof.Machine.execSeta u s
  | .adda u => Sys2Proof.Machine.execAdda u s
  | .setc u => Sys2Proof.Machine.execSetc u s
  | .loop u => Sys2Proof.Machine.execLoop u s
  | .xfer u => Sys2Proof.Machine.execXfer u s
  | .pref u => Sys2Proof.Machine.execPref u s
  | .waits u => Sys2Proof.Machine.execWaits u s
  | .sigs u => Sys2Proof.Machine.execSigs u s
  | .waitf u => Sys2Proof.Machine.execWaitf u s
  | .setf u same => Sys2Proof.Machine.execSetf u same s
  | .clrf u same => Sys2Proof.Machine.execClrf u same s
  | .swap u => Sys2Proof.Machine.execSwap u s
  | .mark u => Sys2Proof.Machine.execMark u s
  | .markDeadlineMiss u => Sys2Proof.Machine.execMarkDeadlineMiss u s
  | .drain u => Sys2Proof.Machine.execDrain u s
  | .agEnd u => Sys2Proof.Machine.execAgEnd u s
  | .agPcOverrun u => Sys2Proof.Machine.execAgPcOverrun u s
  | .runaheadIssue u => Sys2Proof.Machine.execRunaheadIssue u s
  | .strmFence q u => Sys2Proof.Machine.execStrmFence q u s
  | .fenceDone u => Sys2Proof.Machine.execFenceDone u s
  | .semaSig q k value => Sys2Proof.Machine.execSemaSig q k value s
  | .semaRestore q k value same => Sys2Proof.Machine.execSemaRestore q k value same s
  | .trigClr q page value => Sys2Proof.Machine.execTrigClr q page value s
  | .stall page => Sys2Proof.Machine.execStall page s
  | .layersJobStart c => Sys2Proof.Machine.execLayersJobStart c s
  | .layerStart c => Sys2Proof.Machine.execLayerStart c s
  | .chainHalfArrive c => Sys2Proof.Machine.execChainHalfArrive c s
  | .outputBlock c => Sys2Proof.Machine.execOutputBlock c s
  | .layerEnd c => Sys2Proof.Machine.execLayerEnd c s
  | .genBind => Sys2Proof.Machine.execGenBind s
  | .seq => Sys2Proof.Machine.execSeq s
  | .draft => Sys2Proof.Machine.execDraft s
  | .stop => Sys2Proof.Machine.execStop s
  | .stepPlanning => Sys2Proof.Machine.execStepPlanning s
  | .actionDeliver => Sys2Proof.Machine.execActionDeliver s
  | .kvLoad => Sys2Proof.Machine.execKvLoad s
  | .kvStore => Sys2Proof.Machine.execKvStore s
  | .sampleToken => Sys2Proof.Machine.execSampleToken s
  | .stepEnd => Sys2Proof.Machine.execStepEnd s
  | .csiFrameStart r vc frameNo corrected => Sys2Proof.Machine.execCsiFrameStart r vc frameNo corrected s
  | .csiLongPacket r vc dt line ecc crcOk => Sys2Proof.Machine.execCsiLongPacket r vc dt line ecc crcOk s
  | .csiFrameEnd r vc corrected => Sys2Proof.Machine.execCsiFrameEnd r vc corrected s
  | .syncLost r => Sys2Proof.Machine.execSyncLost r s
  | .fstLookupRead q => Sys2Proof.Machine.execFstLookupRead q s
  | .fstCamFlush q cam => Sys2Proof.Machine.execFstCamFlush q cam s
  | .fstCamEnable q cam value => Sys2Proof.Machine.execFstCamEnable q cam value s
  | .intakeRingEnable q page transmit value => Sys2Proof.Machine.execIntakeRingEnable q page transmit value s
  | .ethFrameReceive m frame fcsOk stamp => Sys2Proof.Machine.execEthFrameReceive m frame fcsOk stamp s
  | .lidarBlockClose m x => Sys2Proof.Machine.execLidarBlockClose m x s
  | .ethTxDoorbell q m tail => Sys2Proof.Machine.execEthTxDoorbell q m tail s
  | .ethTransmit m => Sys2Proof.Machine.execEthTransmit m s
  | .linkChange m up anDone => Sys2Proof.Machine.execLinkChange m up anDone s
  | .canFrameReceive c frame => Sys2Proof.Machine.execCanFrameReceive c frame s
  | .busOff c tec recv => Sys2Proof.Machine.execBusOff c tec recv s
  | .errorPassive c tec recv => Sys2Proof.Machine.execErrorPassive c tec recv s
  | .canRecover q c => Sys2Proof.Machine.execCanRecover q c s
  | .spiTransactionStart c edge => Sys2Proof.Machine.execSpiTransactionStart c edge s
  | .spiTransactionEnd c rx => Sys2Proof.Machine.execSpiTransactionEnd c rx s
  | .uartRxByte u byte start afterIdle framing parity => Sys2Proof.Machine.execUartRxByte u byte start afterIdle framing parity s
  | .uartIdleTimeout u => Sys2Proof.Machine.execUartIdleTimeout u s
  | .uartTx q u byte => Sys2Proof.Machine.execUartTx q u byte s
  | .gpioEdge pin rising => Sys2Proof.Machine.execGpioEdge pin rising s
  | .visionFrameStart e => Sys2Proof.Machine.execVisionFrameStart e s
  | .tileDone e => Sys2Proof.Machine.execTileDone e s
  | .setup => Sys2Proof.Machine.execSetup s
  | .fusFrame => Sys2Proof.Machine.execFusFrame s
  | .grid => Sys2Proof.Machine.execGrid s
  | .solve => Sys2Proof.Machine.execSolve s
  | .load => Sys2Proof.Machine.execLoad s
  | .gshFree => Sys2Proof.Machine.execGshFree s
  | .gshExport => Sys2Proof.Machine.execGshExport s
  | .fshBind => Sys2Proof.Machine.execFshBind s
  | .search => Sys2Proof.Machine.execSearch s
  | .append => Sys2Proof.Machine.execAppend s
  | .delete => Sys2Proof.Machine.execDelete s
  | .merge => Sys2Proof.Machine.execMerge s
  | .epochSwitch => Sys2Proof.Machine.execEpochSwitch s
  | .epochRetired => Sys2Proof.Machine.execEpochRetired s
  | .metPowerUp r => Sys2Proof.Machine.execMetPowerUp r s
  | .metVinLoss => Sys2Proof.Machine.execMetVinLoss s
  | .metCycle vbatMv framFail => Sys2Proof.Machine.execMetCycle vbatMv framFail s
  | .sealChange toOpen => Sys2Proof.Machine.execSealChange toOpen s
  | .statusBlockSend => Sys2Proof.Machine.execStatusBlockSend s
  | .startJourney => Sys2Proof.Machine.execStartJourney s
  | .stopJourney => Sys2Proof.Machine.execStopJourney s
  | .readRecord => Sys2Proof.Machine.execReadRecord s
  | .readAudit => Sys2Proof.Machine.execReadAudit s
  | .readIdentity => Sys2Proof.Machine.execReadIdentity s
  | .tbSync => Sys2Proof.Machine.execTbSync s
  | .mailboxFrameReject arrived => Sys2Proof.Machine.execMailboxFrameReject arrived s
  | .tbSyncSend => Sys2Proof.Machine.execTbSyncSend s
  | .mbrBlockReceive arrived => Sys2Proof.Machine.execMbrBlockReceive arrived s
  | .tileAbsent => Sys2Proof.Machine.execTileAbsent s
  | .absentSample => Sys2Proof.Machine.execAbsentSample s
  | .mbrReadRecord q => Sys2Proof.Machine.execMbrReadRecord q s
  | .mbrReadAudit q => Sys2Proof.Machine.execMbrReadAudit q s
  | .mbrReadIdentity q => Sys2Proof.Machine.execMbrReadIdentity q s
  | .verId crc => Sys2Proof.Machine.execVerId crc s
  | .verStat => Sys2Proof.Machine.execVerStat s
  | .verRd offset => Sys2Proof.Machine.execVerRd offset s
  | .verWr offset value => Sys2Proof.Machine.execVerWr offset value s
  | .verAud n => Sys2Proof.Machine.execVerAud n s
  | .verJrn n => Sys2Proof.Machine.execVerJrn n s
  | .verGap n => Sys2Proof.Machine.execVerGap n s
  | .verify record => Sys2Proof.Machine.execVerify record s
  | .calStage text => Sys2Proof.Machine.execCalStage text s
  | .calCommit => Sys2Proof.Machine.execCalCommit s
  | .calRead => Sys2Proof.Machine.execCalRead s
  | .calSecondBoundary => Sys2Proof.Machine.execCalSecondBoundary s
  | .fastSample b0 b1 b2 b3 => Sys2Proof.Machine.execFastSample b0 b1 b2 b3 s
  | .fastSampleRelease => Sys2Proof.Machine.execFastSampleRelease s
  | .fineSample => Sys2Proof.Machine.execFineSample s
  | .fineSampleRelease => Sys2Proof.Machine.execFineSampleRelease s
  | .plkEnable q => Sys2Proof.Machine.execPlkEnable q s
  | .plkTrainingDone peerId reversed => Sys2Proof.Machine.execPlkTrainingDone peerId reversed s
  | .trainSlow => Sys2Proof.Machine.execTrainSlow s
  | .send c => Sys2Proof.Machine.execSend c s
  | .dataFrameSend => Sys2Proof.Machine.execDataFrameSend s
  | .dataFrameReceive frame => Sys2Proof.Machine.execDataFrameReceive frame s
  | .ack seq crcOk => Sys2Proof.Machine.execAck seq crcOk s
  | .nak seq crcOk => Sys2Proof.Machine.execNak seq crcOk s
  | .credit credits crcOk => Sys2Proof.Machine.execCredit credits crcOk s
  | .delivered msg crcOk => Sys2Proof.Machine.execDelivered msg crcOk s
  | .refuse msg reason crcOk => Sys2Proof.Machine.execRefuse msg reason crcOk s
  | .abandon msg crcOk => Sys2Proof.Machine.execAbandon msg crcOk s
  | .down crcOk => Sys2Proof.Machine.execDown crcOk s
  | .retxTimeout => Sys2Proof.Machine.execRetxTimeout s
  | .laneLockLoss lane => Sys2Proof.Machine.execLaneLockLoss lane s
  | .controlBlockTimeout => Sys2Proof.Machine.execControlBlockTimeout s
  | .plkRxDoorbell q c tail => Sys2Proof.Machine.execPlkRxDoorbell q c tail s
  | .fmClr q page => Sys2Proof.Machine.execFmClr q page s
  | .fmFence q page => Sys2Proof.Machine.execFmFence q page s
  | .modEnRise flProgLow vinMv => Sys2Proof.Machine.execModEnRise flProgLow vinMv s
  | .modulePowerDown => Sys2Proof.Machine.execModulePowerDown s
  | .flashProgMode vinMv => Sys2Proof.Machine.execFlashProgMode vinMv s
  | .supProtection p => Sys2Proof.Machine.execSupProtection p s
  | .supCritEval writes => Sys2Proof.Machine.execSupCritEval writes s
  | .supRestore value => Sys2Proof.Machine.execSupRestore value s
  | .busRecoveryComplete c => Sys2Proof.Machine.execBusRecoveryComplete c s
  | .uartTxByteSent u => Sys2Proof.Machine.execUartTxByteSent u s
  | .vbatBrownOut => Sys2Proof.Machine.execVbatBrownOut s
  | .msixTableWrite q offset value => Sys2Proof.Machine.execMsixTableWrite q offset value s
  | .supCauseClear bits => Sys2Proof.Machine.execSupCauseClear bits s
  | .jtagBoundaryScan tms tdi trst => Sys2Proof.Machine.execJtagBoundaryScan tms tdi trst s
  | .verLineInvalid line => Sys2Proof.Machine.execVerLineInvalid line s
  | .runJobDeadline u => Sys2Proof.Machine.execRunJobDeadline u s
  | .mergeDeadline => Sys2Proof.Machine.execMergeDeadline s

end Sys2Proof.Machine
end

