-- ==== Sys2Proof/Machine/Step.lean ====
section
/-!
DEFINITION. The step: the command at the front of the queue runs; on an empty queue one tick of the TCXO passes (R43, R45).
-/
namespace Sys2Proof.Machine

/-- One step. [DESIGN CHOICE, log entries 1, 8, 9] -/
def step (s : State) : Host.Outcome State Fault Refusal :=
  match s.pending with
  | [] => .next (tick s)
  | c :: t => exec c { s with pending := t }

/-- The state with the command a word spells put at the front of its queue; no word spells one. [DESIGN CHOICE, log entry 3] -/
def State.withFetchWord (s : State) (nbits w : Nat) : State :=
  match decodeTableWord nbits w with
  | some c => { s with pending := c :: s.pending }
  | none => s

end Sys2Proof.Machine
end

