-- ==== Sys2Proof/Laws/SMap.lean ====
section
/-!
SUPPORT. The laws of the sparse map: what a read after a write gives, what a drop leaves, and that every operation keeps the
canonical form. None of them needs the map it starts from to be canonical, but for the last group.
-/
namespace Sys2Proof.SMap

variable {α : Type}

theorem get_nil (d : α) (k : Nat) : SMap.get d k [] = d := rfl

theorem get_insert (d : α) (k j : Nat) (v : α) (m : SMap α) :
    (m.insert k v).get d j = if j = k then v else m.get d j := by
  induction m with
  | nil => simp only [insert, get, @eq_comm _ j k]
  | cons e t ih =>
    obtain ⟨k', v'⟩ := e
    simp only [insert]
    split
    · simp only [get, @eq_comm _ j k]
    · split
      · subst_vars
        simp only [get]
        by_cases h : j = k'
        · subst h; simp
        · simp [h, Ne.symm h]
      · simp only [get, ih]
        split <;> split <;> simp_all

theorem get_dropKeys (d : α) (p : Nat → Bool) (j : Nat) (m : SMap α) :
    (m.dropKeys p).get d j = if p j then d else m.get d j := by
  induction m with
  | nil => simp [dropKeys, get]
  | cons e t ih =>
    obtain ⟨k', v'⟩ := e
    by_cases h : p k'
    · rw [show dropKeys p ((k', v') :: t) = dropKeys p t by simp [dropKeys, h], ih]
      simp only [get]
      split
      · rfl
      · split
        · subst_vars; contradiction
        · rfl
    · rw [show dropKeys p ((k', v') :: t) = (k', v') :: dropKeys p t by simp [dropKeys, h]]
      simp only [get, ih]
      split
      · subst_vars; simp [h]
      · rfl

/-- A read after a write. -/
theorem get_put [DecidableEq α] (d : α) (k j : Nat) (v : α) (m : SMap α) :
    (m.put d k v).get d j = if j = k then v else m.get d j := by
  unfold put
  split
  · subst_vars; rw [get_dropKeys]; simp only [beq_iff_eq]
  · exact get_insert d k j v m

@[simp] theorem get_put_same [DecidableEq α] (d : α) (k : Nat) (v : α) (m : SMap α) : (m.put d k v).get d k = v := by
  simp [get_put]

/-- A write leaves every other key alone, whatever each key reads as where nothing is listed. -/
theorem get_put_ne [DecidableEq α] (d d' : α) {k j : Nat} (h : j ≠ k) (v : α) (m : SMap α) :
    (m.put d k v).get d' j = m.get d' j := by
  unfold put
  split
  · rw [get_dropKeys]; simp [h]
  · rw [get_insert]; simp [h]

/-- The same for a write that knows what its key reads as where nothing is listed, or does not. -/
theorem get_putKnown [DecidableEq α] (d : Option α) (d' : α) (h : ∀ x, d = some x → d' = x) (k : Nat) (v : α) (m : SMap α) :
    (m.putKnown d k v).get d' k = v := by
  unfold putKnown
  split
  · rename_i x
    rw [h x rfl, get_put, if_pos rfl]
  · rw [get_insert, if_pos rfl]

theorem get_putKnown_ne [DecidableEq α] (d : Option α) (d' : α) {k j : Nat} (h : j ≠ k) (v : α) (m : SMap α) :
    (m.putKnown d k v).get d' j = m.get d' j := by
  unfold putKnown
  split
  · exact get_put_ne _ _ h v m
  · rw [get_insert, if_neg h]

/-! ### The canonical form -/

variable [DecidableEq α]

theorem wfFrom_mono (d : Nat → Option α) {lo lo' : Nat} (h : lo' ≤ lo) {m : SMap α} (hm : m.wfFrom d lo) : m.wfFrom d lo' := by
  cases m with
  | nil => rfl
  | cons e t =>
    obtain ⟨k, v⟩ := e
    simp only [wfFrom, Bool.and_eq_true, decide_eq_true_eq] at hm ⊢
    exact ⟨by omega, hm.2⟩

theorem wfFrom_dropKeys (d : Nat → Option α) (p : Nat → Bool) {lo : Nat} {m : SMap α} (hm : m.wfFrom d lo) :
    (dropKeys p m).wfFrom d lo := by
  induction m generalizing lo with
  | nil => rfl
  | cons e t ih =>
    obtain ⟨k, v⟩ := e
    simp only [wfFrom, Bool.and_eq_true, decide_eq_true_eq] at hm
    have ht := ih hm.2.2
    by_cases h : p k
    · rw [show dropKeys p ((k, v) :: t) = dropKeys p t by simp [dropKeys, h]]
      exact wfFrom_mono d (by omega) ht
    · rw [show dropKeys p ((k, v) :: t) = (k, v) :: dropKeys p t by simp [dropKeys, h]]
      simp only [wfFrom, Bool.and_eq_true, decide_eq_true_eq]
      exact ⟨hm.1, hm.2.1, ht⟩

theorem wfFrom_insert (d : Nat → Option α) {k : Nat} {v : α} (hv : d k ≠ some v) {lo : Nat} (hk : lo ≤ k) {m : SMap α}
    (hm : m.wfFrom d lo) : (m.insert k v).wfFrom d lo := by
  induction m generalizing lo with
  | nil => simp [insert, wfFrom, hk, hv]
  | cons e t ih =>
    obtain ⟨k', v'⟩ := e
    simp only [wfFrom, Bool.and_eq_true, decide_eq_true_eq] at hm
    simp only [insert]
    split
    · simp only [wfFrom, Bool.and_eq_true, decide_eq_true_eq]
      exact ⟨hk, hv, by omega, hm.2.1, hm.2.2⟩
    · split
      · subst_vars
        simp only [wfFrom, Bool.and_eq_true, decide_eq_true_eq]
        exact ⟨hk, hv, hm.2.2⟩
      · simp only [wfFrom, Bool.and_eq_true, decide_eq_true_eq]
        exact ⟨hm.1, hm.2.1, ih (by omega) hm.2.2⟩

/-- A write keeps the canonical form. -/
theorem wf_putKnown (d : Nat → Option α) (k : Nat) (v : α) {m : SMap α} (hm : m.wf d) : (m.putKnown (d k) k v).wf d := by
  unfold putKnown
  split
  · rename_i x hx
    unfold put
    split
    · exact wfFrom_dropKeys d _ hm
    · exact wfFrom_insert d (fun e => by rw [hx] at e; exact ‹v ≠ x› (Option.some.inj e).symm) (Nat.zero_le k) hm
  · rename_i hx
    exact wfFrom_insert d (fun e => by rw [hx] at e; exact nomatch e) (Nat.zero_le k) hm

/-- The form depends on what the listed keys are known to read as, and on nothing else. -/
theorem wfFrom_congr {d d' : Nat → Option α} {lo : Nat} {m : SMap α} (h : ∀ e ∈ m, d' e.1 = d e.1) (hm : m.wfFrom d lo) :
    m.wfFrom d' lo := by
  induction m generalizing lo with
  | nil => rfl
  | cons e t ih =>
    obtain ⟨k, v⟩ := e
    simp only [wfFrom, Bool.and_eq_true, decide_eq_true_eq] at hm ⊢
    exact ⟨hm.1, h (k, v) List.mem_cons_self ▸ hm.2.1, ih (fun e he => h e (List.mem_cons_of_mem _ he)) hm.2.2⟩

theorem wf_dropKeys (d : Nat → Option α) (p : Nat → Bool) {m : SMap α} (hm : m.wf d) : (m.dropKeys p).wf d :=
  wfFrom_dropKeys d p hm

/-- What a key is known to read as. -/
def look (d : Option α) (k : Nat) : SMap α → Option α
  | [] => d
  | (k', v) :: t => if k' = k then some v else look d k t

theorem look_eq_of_lt (d : Nat → Option α) {k lo : Nat} (h : k < lo) {m : SMap α} (hm : m.wfFrom d lo) (x : Option α) :
    m.look x k = x := by
  induction m generalizing lo with
  | nil => rfl
  | cons e t ih =>
    obtain ⟨k', v'⟩ := e
    simp only [wfFrom, Bool.and_eq_true, decide_eq_true_eq] at hm
    simp only [look, if_neg (show k' ≠ k by omega)]
    exact ih (lo := k' + 1) (by omega) hm.2.2

theorem ext_from (d : Nat → Option α) {lo : Nat} {m m' : SMap α} (hm : m.wfFrom d lo) (hm' : m'.wfFrom d lo)
    (h : ∀ k, m.look (d k) k = m'.look (d k) k) : m = m' := by
  induction m generalizing lo m' with
  | nil =>
    cases m' with
    | nil => rfl
    | cons e t =>
      obtain ⟨k, v⟩ := e
      simp only [wfFrom, Bool.and_eq_true, decide_eq_true_eq] at hm'
      have := h k
      simp only [look, if_true] at this
      exact absurd this hm'.2.1
  | cons e t ih =>
    obtain ⟨k, v⟩ := e
    simp only [wfFrom, Bool.and_eq_true, decide_eq_true_eq] at hm
    cases m' with
    | nil =>
      have := h k
      simp only [look, if_true] at this
      exact absurd this.symm hm.2.1
    | cons e' t' =>
      obtain ⟨k', v'⟩ := e'
      simp only [wfFrom, Bool.and_eq_true, decide_eq_true_eq] at hm'
      have hkk : k = k' := by
        rcases Nat.lt_trichotomy k k' with hlt | heq | hgt
        · have h1 := h k
          simp only [look, if_true, if_neg (show k' ≠ k by omega)] at h1
          rw [look_eq_of_lt d (show k < k' + 1 by omega) hm'.2.2] at h1
          exact absurd h1.symm hm.2.1
        · exact heq
        · have h1 := h k'
          simp only [look, if_true, if_neg (show k ≠ k' by omega)] at h1
          rw [look_eq_of_lt d (show k' < k + 1 by omega) hm.2.2] at h1
          exact absurd h1 hm'.2.1
      subst hkk
      have hv : v = v' := by
        have := h k
        simpa only [look, if_true, Option.some.injEq] using this
      subst hv
      rw [ih (lo := k + 1) hm.2.2 hm'.2.2 fun j => ?_]
      by_cases hj : k = j
      · subst hj
        rw [look_eq_of_lt d (Nat.lt_succ_self k) hm.2.2, look_eq_of_lt d (Nat.lt_succ_self k) hm'.2.2]
      · have := h j
        simpa only [look, if_neg hj] using this

/-- Canonical maps of which every key is known to read the same are the same data. -/
theorem ext (d : Nat → Option α) {m m' : SMap α} (hm : m.wf d) (hm' : m'.wf d) (h : ∀ k, m.look (d k) k = m'.look (d k) k) :
    m = m' := ext_from d hm hm' h

end Sys2Proof.SMap
end

