-- ==== Sys2Proof/Laws/State.lean ====
section
/-!
SUPPORT. One lemma per field and update of the state, by `rfl`: the register file, the queue of a page, a fence, a byte, a mark,
the end of a command; and what a port update leaves.
-/
namespace Sys2Proof.Machine

/-! ### `wr` -/

@[simp] theorem wr_fuses (p off : Nat) (v : Word) (s : State) : (wr p off v s).fuses = s.fuses := rfl
@[simp] theorem wr_pd0 (p off : Nat) (v : Word) (s : State) : (wr p off v s).pd0 = s.pd0 := rfl
@[simp] theorem wr_tb (p off : Nat) (v : Word) (s : State) : (wr p off v s).tb = s.tb := rfl
@[simp] theorem wr_portA (p off : Nat) (v : Word) (s : State) : (wr p off v s).portA = s.portA := rfl
@[simp] theorem wr_portB (p off : Nat) (v : Word) (s : State) : (wr p off v s).portB = s.portB := rfl
@[simp] theorem wr_joint (p off : Nat) (v : Word) (s : State) : (wr p off v s).joint = s.joint := rfl
@[simp] theorem wr_jobs (p off : Nat) (v : Word) (s : State) : (wr p off v s).jobs = s.jobs := rfl
@[simp] theorem wr_fences (p off : Nat) (v : Word) (s : State) : (wr p off v s).fences = s.fences := rfl
@[simp] theorem wr_outbox (p off : Nat) (v : Word) (s : State) : (wr p off v s).outbox = s.outbox := rfl
@[simp] theorem wr_timeouts (p off : Nat) (v : Word) (s : State) : (wr p off v s).timeouts = s.timeouts := rfl
@[simp] theorem wr_lre (p off : Nat) (v : Word) (s : State) : (wr p off v s).lre = s.lre := rfl
@[simp] theorem wr_power (p off : Nat) (v : Word) (s : State) : (wr p off v s).power = s.power := rfl
@[simp] theorem wr_heat (p off : Nat) (v : Word) (s : State) : (wr p off v s).heat = s.heat := rfl
@[simp] theorem wr_mem (p off : Nat) (v : Word) (s : State) : (wr p off v s).mem = s.mem := rfl
@[simp] theorem wr_marks (p off : Nat) (v : Word) (s : State) : (wr p off v s).marks = s.marks := rfl
@[simp] theorem wr_dram (p off : Nat) (v : Word) (s : State) : (wr p off v s).dram = s.dram := rfl
@[simp] theorem wr_regul (p off : Nat) (v : Word) (s : State) : (wr p off v s).regul = s.regul := rfl
@[simp] theorem wr_flg (p off : Nat) (v : Word) (s : State) : (wr p off v s).flg = s.flg := rfl
@[simp] theorem wr_sup (p off : Nat) (v : Word) (s : State) : (wr p off v s).sup = s.sup := rfl
@[simp] theorem wr_jtag (p off : Nat) (v : Word) (s : State) : (wr p off v s).jtag = s.jtag := rfl
@[simp] theorem wr_mews (p off : Nat) (v : Word) (s : State) : (wr p off v s).mews = s.mews := rfl
@[simp] theorem wr_sema (p off : Nat) (v : Word) (s : State) : (wr p off v s).sema = s.sema := rfl
@[simp] theorem wr_strm (p off : Nat) (v : Word) (s : State) : (wr p off v s).strm = s.strm := rfl
@[simp] theorem wr_endpoints (p off : Nat) (v : Word) (s : State) : (wr p off v s).endpoints = s.endpoints := rfl
@[simp] theorem wr_tc (p off : Nat) (v : Word) (s : State) : (wr p off v s).tc = s.tc := rfl
@[simp] theorem wr_gen (p off : Nat) (v : Word) (s : State) : (wr p off v s).gen = s.gen := rfl
@[simp] theorem wr_rings (p off : Nat) (v : Word) (s : State) : (wr p off v s).rings = s.rings := rfl
@[simp] theorem wr_fst (p off : Nat) (v : Word) (s : State) : (wr p off v s).fst = s.fst := rfl
@[simp] theorem wr_eth (p off : Nat) (v : Word) (s : State) : (wr p off v s).eth = s.eth := rfl
@[simp] theorem wr_spi (p off : Nat) (v : Word) (s : State) : (wr p off v s).spi = s.spi := rfl
@[simp] theorem wr_uart (p off : Nat) (v : Word) (s : State) : (wr p off v s).uart = s.uart := rfl
@[simp] theorem wr_canRecover (p off : Nat) (v : Word) (s : State) : (wr p off v s).canRecover = s.canRecover := rfl
@[simp] theorem wr_vis (p off : Nat) (v : Word) (s : State) : (wr p off v s).vis = s.vis := rfl
@[simp] theorem wr_fus (p off : Nat) (v : Word) (s : State) : (wr p off v s).fus = s.fus := rfl
@[simp] theorem wr_gsh (p off : Nat) (v : Word) (s : State) : (wr p off v s).gsh = s.gsh := rfl
@[simp] theorem wr_gshRun (p off : Nat) (v : Word) (s : State) : (wr p off v s).gshRun = s.gshRun := rfl
@[simp] theorem wr_fsh (p off : Nat) (v : Word) (s : State) : (wr p off v s).fsh = s.fsh := rfl
@[simp] theorem wr_met (p off : Nat) (v : Word) (s : State) : (wr p off v s).met = s.met := rfl
@[simp] theorem wr_mbr (p off : Nat) (v : Word) (s : State) : (wr p off v s).mbr = s.mbr := rfl
@[simp] theorem wr_plk (p off : Nat) (v : Word) (s : State) : (wr p off v s).plk = s.plk := rfl
@[simp] theorem wr_freeCtr (p off : Nat) (v : Word) (s : State) : (wr p off v s).freeCtr = s.freeCtr := rfl
@[simp] theorem wr_pending (p off : Nat) (v : Word) (s : State) : (wr p off v s).pending = s.pending := rfl

/-! ### `setJobs` -/

@[simp] theorem setJobs_fuses (p : Nat) (j : PageJobs) (s : State) : (setJobs p j s).fuses = s.fuses := rfl
@[simp] theorem setJobs_pd0 (p : Nat) (j : PageJobs) (s : State) : (setJobs p j s).pd0 = s.pd0 := rfl
@[simp] theorem setJobs_tb (p : Nat) (j : PageJobs) (s : State) : (setJobs p j s).tb = s.tb := rfl
@[simp] theorem setJobs_regs (p : Nat) (j : PageJobs) (s : State) : (setJobs p j s).regs = s.regs := rfl
@[simp] theorem setJobs_portA (p : Nat) (j : PageJobs) (s : State) : (setJobs p j s).portA = s.portA := rfl
@[simp] theorem setJobs_portB (p : Nat) (j : PageJobs) (s : State) : (setJobs p j s).portB = s.portB := rfl
@[simp] theorem setJobs_joint (p : Nat) (j : PageJobs) (s : State) : (setJobs p j s).joint = s.joint := rfl
@[simp] theorem setJobs_fences (p : Nat) (j : PageJobs) (s : State) : (setJobs p j s).fences = s.fences := rfl
@[simp] theorem setJobs_outbox (p : Nat) (j : PageJobs) (s : State) : (setJobs p j s).outbox = s.outbox := rfl
@[simp] theorem setJobs_timeouts (p : Nat) (j : PageJobs) (s : State) : (setJobs p j s).timeouts = s.timeouts := rfl
@[simp] theorem setJobs_lre (p : Nat) (j : PageJobs) (s : State) : (setJobs p j s).lre = s.lre := rfl
@[simp] theorem setJobs_power (p : Nat) (j : PageJobs) (s : State) : (setJobs p j s).power = s.power := rfl
@[simp] theorem setJobs_heat (p : Nat) (j : PageJobs) (s : State) : (setJobs p j s).heat = s.heat := rfl
@[simp] theorem setJobs_mem (p : Nat) (j : PageJobs) (s : State) : (setJobs p j s).mem = s.mem := rfl
@[simp] theorem setJobs_marks (p : Nat) (j : PageJobs) (s : State) : (setJobs p j s).marks = s.marks := rfl
@[simp] theorem setJobs_dram (p : Nat) (j : PageJobs) (s : State) : (setJobs p j s).dram = s.dram := rfl
@[simp] theorem setJobs_regul (p : Nat) (j : PageJobs) (s : State) : (setJobs p j s).regul = s.regul := rfl
@[simp] theorem setJobs_flg (p : Nat) (j : PageJobs) (s : State) : (setJobs p j s).flg = s.flg := rfl
@[simp] theorem setJobs_sup (p : Nat) (j : PageJobs) (s : State) : (setJobs p j s).sup = s.sup := rfl
@[simp] theorem setJobs_jtag (p : Nat) (j : PageJobs) (s : State) : (setJobs p j s).jtag = s.jtag := rfl
@[simp] theorem setJobs_mews (p : Nat) (j : PageJobs) (s : State) : (setJobs p j s).mews = s.mews := rfl
@[simp] theorem setJobs_sema (p : Nat) (j : PageJobs) (s : State) : (setJobs p j s).sema = s.sema := rfl
@[simp] theorem setJobs_strm (p : Nat) (j : PageJobs) (s : State) : (setJobs p j s).strm = s.strm := rfl
@[simp] theorem setJobs_endpoints (p : Nat) (j : PageJobs) (s : State) : (setJobs p j s).endpoints = s.endpoints := rfl
@[simp] theorem setJobs_tc (p : Nat) (j : PageJobs) (s : State) : (setJobs p j s).tc = s.tc := rfl
@[simp] theorem setJobs_gen (p : Nat) (j : PageJobs) (s : State) : (setJobs p j s).gen = s.gen := rfl
@[simp] theorem setJobs_rings (p : Nat) (j : PageJobs) (s : State) : (setJobs p j s).rings = s.rings := rfl
@[simp] theorem setJobs_fst (p : Nat) (j : PageJobs) (s : State) : (setJobs p j s).fst = s.fst := rfl
@[simp] theorem setJobs_eth (p : Nat) (j : PageJobs) (s : State) : (setJobs p j s).eth = s.eth := rfl
@[simp] theorem setJobs_spi (p : Nat) (j : PageJobs) (s : State) : (setJobs p j s).spi = s.spi := rfl
@[simp] theorem setJobs_uart (p : Nat) (j : PageJobs) (s : State) : (setJobs p j s).uart = s.uart := rfl
@[simp] theorem setJobs_canRecover (p : Nat) (j : PageJobs) (s : State) : (setJobs p j s).canRecover = s.canRecover := rfl
@[simp] theorem setJobs_vis (p : Nat) (j : PageJobs) (s : State) : (setJobs p j s).vis = s.vis := rfl
@[simp] theorem setJobs_fus (p : Nat) (j : PageJobs) (s : State) : (setJobs p j s).fus = s.fus := rfl
@[simp] theorem setJobs_gsh (p : Nat) (j : PageJobs) (s : State) : (setJobs p j s).gsh = s.gsh := rfl
@[simp] theorem setJobs_gshRun (p : Nat) (j : PageJobs) (s : State) : (setJobs p j s).gshRun = s.gshRun := rfl
@[simp] theorem setJobs_fsh (p : Nat) (j : PageJobs) (s : State) : (setJobs p j s).fsh = s.fsh := rfl
@[simp] theorem setJobs_met (p : Nat) (j : PageJobs) (s : State) : (setJobs p j s).met = s.met := rfl
@[simp] theorem setJobs_mbr (p : Nat) (j : PageJobs) (s : State) : (setJobs p j s).mbr = s.mbr := rfl
@[simp] theorem setJobs_plk (p : Nat) (j : PageJobs) (s : State) : (setJobs p j s).plk = s.plk := rfl
@[simp] theorem setJobs_freeCtr (p : Nat) (j : PageJobs) (s : State) : (setJobs p j s).freeCtr = s.freeCtr := rfl
@[simp] theorem setJobs_pending (p : Nat) (j : PageJobs) (s : State) : (setJobs p j s).pending = s.pending := rfl

/-! ### `setFence` -/

@[simp] theorem setFence_fuses (p : Nat) (f : FenceState) (s : State) : (setFence p f s).fuses = s.fuses := rfl
@[simp] theorem setFence_pd0 (p : Nat) (f : FenceState) (s : State) : (setFence p f s).pd0 = s.pd0 := rfl
@[simp] theorem setFence_tb (p : Nat) (f : FenceState) (s : State) : (setFence p f s).tb = s.tb := rfl
@[simp] theorem setFence_regs (p : Nat) (f : FenceState) (s : State) : (setFence p f s).regs = s.regs := rfl
@[simp] theorem setFence_portA (p : Nat) (f : FenceState) (s : State) : (setFence p f s).portA = s.portA := rfl
@[simp] theorem setFence_portB (p : Nat) (f : FenceState) (s : State) : (setFence p f s).portB = s.portB := rfl
@[simp] theorem setFence_joint (p : Nat) (f : FenceState) (s : State) : (setFence p f s).joint = s.joint := rfl
@[simp] theorem setFence_jobs (p : Nat) (f : FenceState) (s : State) : (setFence p f s).jobs = s.jobs := rfl
@[simp] theorem setFence_outbox (p : Nat) (f : FenceState) (s : State) : (setFence p f s).outbox = s.outbox := rfl
@[simp] theorem setFence_timeouts (p : Nat) (f : FenceState) (s : State) : (setFence p f s).timeouts = s.timeouts := rfl
@[simp] theorem setFence_lre (p : Nat) (f : FenceState) (s : State) : (setFence p f s).lre = s.lre := rfl
@[simp] theorem setFence_power (p : Nat) (f : FenceState) (s : State) : (setFence p f s).power = s.power := rfl
@[simp] theorem setFence_heat (p : Nat) (f : FenceState) (s : State) : (setFence p f s).heat = s.heat := rfl
@[simp] theorem setFence_mem (p : Nat) (f : FenceState) (s : State) : (setFence p f s).mem = s.mem := rfl
@[simp] theorem setFence_marks (p : Nat) (f : FenceState) (s : State) : (setFence p f s).marks = s.marks := rfl
@[simp] theorem setFence_dram (p : Nat) (f : FenceState) (s : State) : (setFence p f s).dram = s.dram := rfl
@[simp] theorem setFence_regul (p : Nat) (f : FenceState) (s : State) : (setFence p f s).regul = s.regul := rfl
@[simp] theorem setFence_flg (p : Nat) (f : FenceState) (s : State) : (setFence p f s).flg = s.flg := rfl
@[simp] theorem setFence_sup (p : Nat) (f : FenceState) (s : State) : (setFence p f s).sup = s.sup := rfl
@[simp] theorem setFence_jtag (p : Nat) (f : FenceState) (s : State) : (setFence p f s).jtag = s.jtag := rfl
@[simp] theorem setFence_mews (p : Nat) (f : FenceState) (s : State) : (setFence p f s).mews = s.mews := rfl
@[simp] theorem setFence_sema (p : Nat) (f : FenceState) (s : State) : (setFence p f s).sema = s.sema := rfl
@[simp] theorem setFence_strm (p : Nat) (f : FenceState) (s : State) : (setFence p f s).strm = s.strm := rfl
@[simp] theorem setFence_endpoints (p : Nat) (f : FenceState) (s : State) : (setFence p f s).endpoints = s.endpoints := rfl
@[simp] theorem setFence_tc (p : Nat) (f : FenceState) (s : State) : (setFence p f s).tc = s.tc := rfl
@[simp] theorem setFence_gen (p : Nat) (f : FenceState) (s : State) : (setFence p f s).gen = s.gen := rfl
@[simp] theorem setFence_rings (p : Nat) (f : FenceState) (s : State) : (setFence p f s).rings = s.rings := rfl
@[simp] theorem setFence_fst (p : Nat) (f : FenceState) (s : State) : (setFence p f s).fst = s.fst := rfl
@[simp] theorem setFence_eth (p : Nat) (f : FenceState) (s : State) : (setFence p f s).eth = s.eth := rfl
@[simp] theorem setFence_spi (p : Nat) (f : FenceState) (s : State) : (setFence p f s).spi = s.spi := rfl
@[simp] theorem setFence_uart (p : Nat) (f : FenceState) (s : State) : (setFence p f s).uart = s.uart := rfl
@[simp] theorem setFence_canRecover (p : Nat) (f : FenceState) (s : State) : (setFence p f s).canRecover = s.canRecover := rfl
@[simp] theorem setFence_vis (p : Nat) (f : FenceState) (s : State) : (setFence p f s).vis = s.vis := rfl
@[simp] theorem setFence_fus (p : Nat) (f : FenceState) (s : State) : (setFence p f s).fus = s.fus := rfl
@[simp] theorem setFence_gsh (p : Nat) (f : FenceState) (s : State) : (setFence p f s).gsh = s.gsh := rfl
@[simp] theorem setFence_gshRun (p : Nat) (f : FenceState) (s : State) : (setFence p f s).gshRun = s.gshRun := rfl
@[simp] theorem setFence_fsh (p : Nat) (f : FenceState) (s : State) : (setFence p f s).fsh = s.fsh := rfl
@[simp] theorem setFence_met (p : Nat) (f : FenceState) (s : State) : (setFence p f s).met = s.met := rfl
@[simp] theorem setFence_mbr (p : Nat) (f : FenceState) (s : State) : (setFence p f s).mbr = s.mbr := rfl
@[simp] theorem setFence_plk (p : Nat) (f : FenceState) (s : State) : (setFence p f s).plk = s.plk := rfl
@[simp] theorem setFence_freeCtr (p : Nat) (f : FenceState) (s : State) : (setFence p f s).freeCtr = s.freeCtr := rfl
@[simp] theorem setFence_pending (p : Nat) (f : FenceState) (s : State) : (setFence p f s).pending = s.pending := rfl

/-! ### `setByte` -/

@[simp] theorem setByte_fuses (a : Nat) (b : Byte) (s : State) : (setByte a b s).fuses = s.fuses := rfl
@[simp] theorem setByte_pd0 (a : Nat) (b : Byte) (s : State) : (setByte a b s).pd0 = s.pd0 := rfl
@[simp] theorem setByte_tb (a : Nat) (b : Byte) (s : State) : (setByte a b s).tb = s.tb := rfl
@[simp] theorem setByte_regs (a : Nat) (b : Byte) (s : State) : (setByte a b s).regs = s.regs := rfl
@[simp] theorem setByte_portA (a : Nat) (b : Byte) (s : State) : (setByte a b s).portA = s.portA := rfl
@[simp] theorem setByte_portB (a : Nat) (b : Byte) (s : State) : (setByte a b s).portB = s.portB := rfl
@[simp] theorem setByte_joint (a : Nat) (b : Byte) (s : State) : (setByte a b s).joint = s.joint := rfl
@[simp] theorem setByte_jobs (a : Nat) (b : Byte) (s : State) : (setByte a b s).jobs = s.jobs := rfl
@[simp] theorem setByte_fences (a : Nat) (b : Byte) (s : State) : (setByte a b s).fences = s.fences := rfl
@[simp] theorem setByte_outbox (a : Nat) (b : Byte) (s : State) : (setByte a b s).outbox = s.outbox := rfl
@[simp] theorem setByte_timeouts (a : Nat) (b : Byte) (s : State) : (setByte a b s).timeouts = s.timeouts := rfl
@[simp] theorem setByte_lre (a : Nat) (b : Byte) (s : State) : (setByte a b s).lre = s.lre := rfl
@[simp] theorem setByte_power (a : Nat) (b : Byte) (s : State) : (setByte a b s).power = s.power := rfl
@[simp] theorem setByte_heat (a : Nat) (b : Byte) (s : State) : (setByte a b s).heat = s.heat := rfl
@[simp] theorem setByte_marks (a : Nat) (b : Byte) (s : State) : (setByte a b s).marks = s.marks := rfl
@[simp] theorem setByte_dram (a : Nat) (b : Byte) (s : State) : (setByte a b s).dram = s.dram := rfl
@[simp] theorem setByte_regul (a : Nat) (b : Byte) (s : State) : (setByte a b s).regul = s.regul := rfl
@[simp] theorem setByte_flg (a : Nat) (b : Byte) (s : State) : (setByte a b s).flg = s.flg := rfl
@[simp] theorem setByte_sup (a : Nat) (b : Byte) (s : State) : (setByte a b s).sup = s.sup := rfl
@[simp] theorem setByte_jtag (a : Nat) (b : Byte) (s : State) : (setByte a b s).jtag = s.jtag := rfl
@[simp] theorem setByte_mews (a : Nat) (b : Byte) (s : State) : (setByte a b s).mews = s.mews := rfl
@[simp] theorem setByte_sema (a : Nat) (b : Byte) (s : State) : (setByte a b s).sema = s.sema := rfl
@[simp] theorem setByte_strm (a : Nat) (b : Byte) (s : State) : (setByte a b s).strm = s.strm := rfl
@[simp] theorem setByte_endpoints (a : Nat) (b : Byte) (s : State) : (setByte a b s).endpoints = s.endpoints := rfl
@[simp] theorem setByte_tc (a : Nat) (b : Byte) (s : State) : (setByte a b s).tc = s.tc := rfl
@[simp] theorem setByte_gen (a : Nat) (b : Byte) (s : State) : (setByte a b s).gen = s.gen := rfl
@[simp] theorem setByte_rings (a : Nat) (b : Byte) (s : State) : (setByte a b s).rings = s.rings := rfl
@[simp] theorem setByte_fst (a : Nat) (b : Byte) (s : State) : (setByte a b s).fst = s.fst := rfl
@[simp] theorem setByte_eth (a : Nat) (b : Byte) (s : State) : (setByte a b s).eth = s.eth := rfl
@[simp] theorem setByte_spi (a : Nat) (b : Byte) (s : State) : (setByte a b s).spi = s.spi := rfl
@[simp] theorem setByte_uart (a : Nat) (b : Byte) (s : State) : (setByte a b s).uart = s.uart := rfl
@[simp] theorem setByte_canRecover (a : Nat) (b : Byte) (s : State) : (setByte a b s).canRecover = s.canRecover := rfl
@[simp] theorem setByte_vis (a : Nat) (b : Byte) (s : State) : (setByte a b s).vis = s.vis := rfl
@[simp] theorem setByte_fus (a : Nat) (b : Byte) (s : State) : (setByte a b s).fus = s.fus := rfl
@[simp] theorem setByte_gsh (a : Nat) (b : Byte) (s : State) : (setByte a b s).gsh = s.gsh := rfl
@[simp] theorem setByte_gshRun (a : Nat) (b : Byte) (s : State) : (setByte a b s).gshRun = s.gshRun := rfl
@[simp] theorem setByte_fsh (a : Nat) (b : Byte) (s : State) : (setByte a b s).fsh = s.fsh := rfl
@[simp] theorem setByte_met (a : Nat) (b : Byte) (s : State) : (setByte a b s).met = s.met := rfl
@[simp] theorem setByte_mbr (a : Nat) (b : Byte) (s : State) : (setByte a b s).mbr = s.mbr := rfl
@[simp] theorem setByte_plk (a : Nat) (b : Byte) (s : State) : (setByte a b s).plk = s.plk := rfl
@[simp] theorem setByte_freeCtr (a : Nat) (b : Byte) (s : State) : (setByte a b s).freeCtr = s.freeCtr := rfl
@[simp] theorem setByte_pending (a : Nat) (b : Byte) (s : State) : (setByte a b s).pending = s.pending := rfl

/-! ### `setMark` -/

@[simp] theorem setMark_fuses (w : Nat) (m : Mark) (s : State) : (setMark w m s).fuses = s.fuses := rfl
@[simp] theorem setMark_pd0 (w : Nat) (m : Mark) (s : State) : (setMark w m s).pd0 = s.pd0 := rfl
@[simp] theorem setMark_tb (w : Nat) (m : Mark) (s : State) : (setMark w m s).tb = s.tb := rfl
@[simp] theorem setMark_regs (w : Nat) (m : Mark) (s : State) : (setMark w m s).regs = s.regs := rfl
@[simp] theorem setMark_portA (w : Nat) (m : Mark) (s : State) : (setMark w m s).portA = s.portA := rfl
@[simp] theorem setMark_portB (w : Nat) (m : Mark) (s : State) : (setMark w m s).portB = s.portB := rfl
@[simp] theorem setMark_joint (w : Nat) (m : Mark) (s : State) : (setMark w m s).joint = s.joint := rfl
@[simp] theorem setMark_jobs (w : Nat) (m : Mark) (s : State) : (setMark w m s).jobs = s.jobs := rfl
@[simp] theorem setMark_fences (w : Nat) (m : Mark) (s : State) : (setMark w m s).fences = s.fences := rfl
@[simp] theorem setMark_outbox (w : Nat) (m : Mark) (s : State) : (setMark w m s).outbox = s.outbox := rfl
@[simp] theorem setMark_timeouts (w : Nat) (m : Mark) (s : State) : (setMark w m s).timeouts = s.timeouts := rfl
@[simp] theorem setMark_lre (w : Nat) (m : Mark) (s : State) : (setMark w m s).lre = s.lre := rfl
@[simp] theorem setMark_power (w : Nat) (m : Mark) (s : State) : (setMark w m s).power = s.power := rfl
@[simp] theorem setMark_heat (w : Nat) (m : Mark) (s : State) : (setMark w m s).heat = s.heat := rfl
@[simp] theorem setMark_mem (w : Nat) (m : Mark) (s : State) : (setMark w m s).mem = s.mem := rfl
@[simp] theorem setMark_dram (w : Nat) (m : Mark) (s : State) : (setMark w m s).dram = s.dram := rfl
@[simp] theorem setMark_regul (w : Nat) (m : Mark) (s : State) : (setMark w m s).regul = s.regul := rfl
@[simp] theorem setMark_flg (w : Nat) (m : Mark) (s : State) : (setMark w m s).flg = s.flg := rfl
@[simp] theorem setMark_sup (w : Nat) (m : Mark) (s : State) : (setMark w m s).sup = s.sup := rfl
@[simp] theorem setMark_jtag (w : Nat) (m : Mark) (s : State) : (setMark w m s).jtag = s.jtag := rfl
@[simp] theorem setMark_mews (w : Nat) (m : Mark) (s : State) : (setMark w m s).mews = s.mews := rfl
@[simp] theorem setMark_sema (w : Nat) (m : Mark) (s : State) : (setMark w m s).sema = s.sema := rfl
@[simp] theorem setMark_strm (w : Nat) (m : Mark) (s : State) : (setMark w m s).strm = s.strm := rfl
@[simp] theorem setMark_endpoints (w : Nat) (m : Mark) (s : State) : (setMark w m s).endpoints = s.endpoints := rfl
@[simp] theorem setMark_tc (w : Nat) (m : Mark) (s : State) : (setMark w m s).tc = s.tc := rfl
@[simp] theorem setMark_gen (w : Nat) (m : Mark) (s : State) : (setMark w m s).gen = s.gen := rfl
@[simp] theorem setMark_rings (w : Nat) (m : Mark) (s : State) : (setMark w m s).rings = s.rings := rfl
@[simp] theorem setMark_fst (w : Nat) (m : Mark) (s : State) : (setMark w m s).fst = s.fst := rfl
@[simp] theorem setMark_eth (w : Nat) (m : Mark) (s : State) : (setMark w m s).eth = s.eth := rfl
@[simp] theorem setMark_spi (w : Nat) (m : Mark) (s : State) : (setMark w m s).spi = s.spi := rfl
@[simp] theorem setMark_uart (w : Nat) (m : Mark) (s : State) : (setMark w m s).uart = s.uart := rfl
@[simp] theorem setMark_canRecover (w : Nat) (m : Mark) (s : State) : (setMark w m s).canRecover = s.canRecover := rfl
@[simp] theorem setMark_vis (w : Nat) (m : Mark) (s : State) : (setMark w m s).vis = s.vis := rfl
@[simp] theorem setMark_fus (w : Nat) (m : Mark) (s : State) : (setMark w m s).fus = s.fus := rfl
@[simp] theorem setMark_gsh (w : Nat) (m : Mark) (s : State) : (setMark w m s).gsh = s.gsh := rfl
@[simp] theorem setMark_gshRun (w : Nat) (m : Mark) (s : State) : (setMark w m s).gshRun = s.gshRun := rfl
@[simp] theorem setMark_fsh (w : Nat) (m : Mark) (s : State) : (setMark w m s).fsh = s.fsh := rfl
@[simp] theorem setMark_met (w : Nat) (m : Mark) (s : State) : (setMark w m s).met = s.met := rfl
@[simp] theorem setMark_mbr (w : Nat) (m : Mark) (s : State) : (setMark w m s).mbr = s.mbr := rfl
@[simp] theorem setMark_plk (w : Nat) (m : Mark) (s : State) : (setMark w m s).plk = s.plk := rfl
@[simp] theorem setMark_freeCtr (w : Nat) (m : Mark) (s : State) : (setMark w m s).freeCtr = s.freeCtr := rfl
@[simp] theorem setMark_pending (w : Nat) (m : Mark) (s : State) : (setMark w m s).pending = s.pending := rfl

/-! ### Ports -/

@[simp] theorem setPort_fuses (s : State) (q : Port) (v : PortState) : (s.setPort q v).fuses = s.fuses := by cases q <;> rfl
@[simp] theorem setPort_pd0 (s : State) (q : Port) (v : PortState) : (s.setPort q v).pd0 = s.pd0 := by cases q <;> rfl
@[simp] theorem setPort_tb (s : State) (q : Port) (v : PortState) : (s.setPort q v).tb = s.tb := by cases q <;> rfl
@[simp] theorem setPort_regs (s : State) (q : Port) (v : PortState) : (s.setPort q v).regs = s.regs := by cases q <;> rfl
@[simp] theorem setPort_joint (s : State) (q : Port) (v : PortState) : (s.setPort q v).joint = s.joint := by cases q <;> rfl
@[simp] theorem setPort_jobs (s : State) (q : Port) (v : PortState) : (s.setPort q v).jobs = s.jobs := by cases q <;> rfl
@[simp] theorem setPort_fences (s : State) (q : Port) (v : PortState) : (s.setPort q v).fences = s.fences := by cases q <;> rfl
@[simp] theorem setPort_outbox (s : State) (q : Port) (v : PortState) : (s.setPort q v).outbox = s.outbox := by cases q <;> rfl
@[simp] theorem setPort_timeouts (s : State) (q : Port) (v : PortState) : (s.setPort q v).timeouts = s.timeouts := by cases q <;> rfl
@[simp] theorem setPort_lre (s : State) (q : Port) (v : PortState) : (s.setPort q v).lre = s.lre := by cases q <;> rfl
@[simp] theorem setPort_power (s : State) (q : Port) (v : PortState) : (s.setPort q v).power = s.power := by cases q <;> rfl
@[simp] theorem setPort_heat (s : State) (q : Port) (v : PortState) : (s.setPort q v).heat = s.heat := by cases q <;> rfl
@[simp] theorem setPort_mem (s : State) (q : Port) (v : PortState) : (s.setPort q v).mem = s.mem := by cases q <;> rfl
@[simp] theorem setPort_marks (s : State) (q : Port) (v : PortState) : (s.setPort q v).marks = s.marks := by cases q <;> rfl
@[simp] theorem setPort_dram (s : State) (q : Port) (v : PortState) : (s.setPort q v).dram = s.dram := by cases q <;> rfl
@[simp] theorem setPort_regul (s : State) (q : Port) (v : PortState) : (s.setPort q v).regul = s.regul := by cases q <;> rfl
@[simp] theorem setPort_flg (s : State) (q : Port) (v : PortState) : (s.setPort q v).flg = s.flg := by cases q <;> rfl
@[simp] theorem setPort_sup (s : State) (q : Port) (v : PortState) : (s.setPort q v).sup = s.sup := by cases q <;> rfl
@[simp] theorem setPort_jtag (s : State) (q : Port) (v : PortState) : (s.setPort q v).jtag = s.jtag := by cases q <;> rfl
@[simp] theorem setPort_mews (s : State) (q : Port) (v : PortState) : (s.setPort q v).mews = s.mews := by cases q <;> rfl
@[simp] theorem setPort_sema (s : State) (q : Port) (v : PortState) : (s.setPort q v).sema = s.sema := by cases q <;> rfl
@[simp] theorem setPort_strm (s : State) (q : Port) (v : PortState) : (s.setPort q v).strm = s.strm := by cases q <;> rfl
@[simp] theorem setPort_endpoints (s : State) (q : Port) (v : PortState) : (s.setPort q v).endpoints = s.endpoints := by cases q <;> rfl
@[simp] theorem setPort_tc (s : State) (q : Port) (v : PortState) : (s.setPort q v).tc = s.tc := by cases q <;> rfl
@[simp] theorem setPort_gen (s : State) (q : Port) (v : PortState) : (s.setPort q v).gen = s.gen := by cases q <;> rfl
@[simp] theorem setPort_rings (s : State) (q : Port) (v : PortState) : (s.setPort q v).rings = s.rings := by cases q <;> rfl
@[simp] theorem setPort_fst (s : State) (q : Port) (v : PortState) : (s.setPort q v).fst = s.fst := by cases q <;> rfl
@[simp] theorem setPort_eth (s : State) (q : Port) (v : PortState) : (s.setPort q v).eth = s.eth := by cases q <;> rfl
@[simp] theorem setPort_spi (s : State) (q : Port) (v : PortState) : (s.setPort q v).spi = s.spi := by cases q <;> rfl
@[simp] theorem setPort_uart (s : State) (q : Port) (v : PortState) : (s.setPort q v).uart = s.uart := by cases q <;> rfl
@[simp] theorem setPort_canRecover (s : State) (q : Port) (v : PortState) : (s.setPort q v).canRecover = s.canRecover := by cases q <;> rfl
@[simp] theorem setPort_vis (s : State) (q : Port) (v : PortState) : (s.setPort q v).vis = s.vis := by cases q <;> rfl
@[simp] theorem setPort_fus (s : State) (q : Port) (v : PortState) : (s.setPort q v).fus = s.fus := by cases q <;> rfl
@[simp] theorem setPort_gsh (s : State) (q : Port) (v : PortState) : (s.setPort q v).gsh = s.gsh := by cases q <;> rfl
@[simp] theorem setPort_gshRun (s : State) (q : Port) (v : PortState) : (s.setPort q v).gshRun = s.gshRun := by cases q <;> rfl
@[simp] theorem setPort_fsh (s : State) (q : Port) (v : PortState) : (s.setPort q v).fsh = s.fsh := by cases q <;> rfl
@[simp] theorem setPort_met (s : State) (q : Port) (v : PortState) : (s.setPort q v).met = s.met := by cases q <;> rfl
@[simp] theorem setPort_mbr (s : State) (q : Port) (v : PortState) : (s.setPort q v).mbr = s.mbr := by cases q <;> rfl
@[simp] theorem setPort_plk (s : State) (q : Port) (v : PortState) : (s.setPort q v).plk = s.plk := by cases q <;> rfl
@[simp] theorem setPort_freeCtr (s : State) (q : Port) (v : PortState) : (s.setPort q v).freeCtr = s.freeCtr := by cases q <;> rfl
@[simp] theorem setPort_pending (s : State) (q : Port) (v : PortState) : (s.setPort q v).pending = s.pending := by cases q <;> rfl

theorem setPort_port (s : State) (q r : Port) (v : PortState) :
    (s.setPort q v).port r = if r = q then v else s.port r := by cases q <;> cases r <;> rfl

@[simp] theorem setPort_port_same (s : State) (q : Port) (v : PortState) : (s.setPort q v).port q = v := by cases q <;> rfl

/-! ### The end of a command -/

/-- A command answers a next state: what it made, with the queue and the fuses as they were. -/
theorem settle_next {s t u : State} (h : settle s t = .next u) : u = { t with fuses := s.fuses, pending := s.pending } := by
  unfold settle at h; cases h; rfl

theorem settle_eq (s t : State) : settle s t = .next { t with fuses := s.fuses, pending := s.pending } := rfl

end Sys2Proof.Machine
end

