-- ==== Sys2Proof/Laws/Word.lean ====
section
/-!
SUPPORT. The laws of fields: a field that is replaced reads as the new value, every other bit stands.
-/
namespace Sys2Proof

theorem putBits_eq (n hi lo v : Nat) (h : lo ≤ hi + 1) :
    putBits n hi lo v = (n / 2 ^ (hi + 1) * 2 ^ (hi + 1 - lo) + v % 2 ^ (hi + 1 - lo)) * 2 ^ lo + n % 2 ^ lo := by
  have hp : (2 : Nat) ^ (hi + 1) = 2 ^ lo * 2 ^ (hi + 1 - lo) := by rw [← Nat.pow_add]; congr 1; omega
  have h1 : n / 2 ^ (hi + 1) = n / 2 ^ lo / 2 ^ (hi + 1 - lo) := by rw [hp, Nat.div_div_eq_div_mul]
  have h2 := Nat.div_add_mod n (2 ^ lo)
  have h3 := Nat.div_add_mod (n / 2 ^ lo) (2 ^ (hi + 1 - lo))
  unfold putBits bitsOf
  rw [Nat.shiftRight_eq_div_pow, h1]
  generalize n / 2 ^ lo / 2 ^ (hi + 1 - lo) = q at *
  generalize n / 2 ^ lo % 2 ^ (hi + 1 - lo) = r at *
  generalize v % 2 ^ (hi + 1 - lo) = u at *
  rw [← h3] at h2
  have e : (q * 2 ^ (hi + 1 - lo) + u) * 2 ^ lo = q * 2 ^ (hi + 1 - lo) * 2 ^ lo + u * 2 ^ lo := Nat.add_mul ..
  have e2 : 2 ^ lo * (2 ^ (hi + 1 - lo) * q + r) = q * 2 ^ (hi + 1 - lo) * 2 ^ lo + r * 2 ^ lo := by
    rw [Nat.mul_comm, Nat.add_mul, Nat.mul_comm (2 ^ (hi + 1 - lo)) q]
  omega

/-- Bit by bit, a replaced field holds the new value and every other bit stands. -/
theorem testBit_putBits (n hi lo v i : Nat) (h : lo ≤ hi + 1) :
    (putBits n hi lo v).testBit i = if lo ≤ i ∧ i ≤ hi then v.testBit (i - lo) else n.testBit i := by
  rw [putBits_eq n hi lo v h, Nat.mul_comm, Nat.testBit_two_pow_mul_add _ (Nat.mod_lt _ (Nat.two_pow_pos _)),
    Nat.mul_comm, Nat.testBit_two_pow_mul_add _ (Nat.mod_lt _ (Nat.two_pow_pos _))]
  split
  · rw [Nat.testBit_mod_two_pow, if_neg (by omega)]; simp [*]
  · split
    · rw [Nat.testBit_mod_two_pow, if_pos (show lo ≤ i ∧ i ≤ hi by omega)]
      simp [show i - lo < hi + 1 - lo by assumption]
    · rw [Nat.testBit_div_two_pow, if_neg (show ¬(lo ≤ i ∧ i ≤ hi) by omega)]
      congr 1; omega

theorem testBit_bitsOf (n hi lo i : Nat) : (bitsOf n hi lo).testBit i = (decide (i < hi + 1 - lo) && n.testBit (lo + i)) := by
  unfold bitsOf
  rw [Nat.testBit_mod_two_pow, Nat.testBit_shiftRight]

theorem putBits_lt (n hi lo v : Nat) (h : lo ≤ hi + 1) (hh : hi < 32) (hn : n < 2 ^ 32) : putBits n hi lo v < 2 ^ 32 := by
  apply Nat.lt_pow_two_of_testBit
  intro i hi'
  rw [testBit_putBits n hi lo v i h, if_neg (by omega)]
  exact Nat.testBit_lt_two_pow (Nat.lt_of_lt_of_le hn (Nat.pow_le_pow_right (by decide) hi'))

theorem toNat_setFld (w : Word) (hi lo v : Nat) (h : lo ≤ hi + 1) (hh : hi < 32) :
    (setFld w hi lo v).toNat = putBits w.toNat hi lo v := by
  unfold setFld
  rw [BitVec.toNat_ofNat, Nat.mod_eq_of_lt (putBits_lt _ _ _ _ h hh w.isLt)]

/-- The replaced field reads as the new value. -/
theorem fld_setFld (w : Word) (hi lo v : Nat) (h : lo ≤ hi) (hh : hi < 32) :
    fld (setFld w hi lo v) hi lo = v % 2 ^ (hi + 1 - lo) := by
  unfold fld
  rw [toNat_setFld w hi lo v (by omega) hh]
  apply Nat.eq_of_testBit_eq
  intro i
  rw [testBit_bitsOf, testBit_putBits _ _ _ _ _ (by omega), Nat.testBit_mod_two_pow]
  by_cases hi' : i < hi + 1 - lo
  · rw [if_pos (by omega)]; simp
  · simp [hi']

/-- A field with no bit in common stands. -/
theorem fld_setFld_ne (w : Word) (hi lo v hi' lo' : Nat) (h : lo ≤ hi) (hh : hi < 32) (hd : hi' < lo ∨ hi < lo') :
    fld (setFld w hi lo v) hi' lo' = fld w hi' lo' := by
  unfold fld
  rw [toNat_setFld w hi lo v (by omega) hh]
  apply Nat.eq_of_testBit_eq
  intro i
  rw [testBit_bitsOf, testBit_bitsOf, testBit_putBits _ _ _ _ _ (by omega)]
  by_cases hi' : i < hi' + 1 - lo'
  · rw [if_neg (by omega)]
  · simp [hi']

/-- The bit that is set or cleared. -/
theorem flag_setFld (w : Word) (i : Nat) (b : Bool) (hi : i < 32) : flag (setFld w i i (b2n b)) i = b := by
  unfold flag bitOf
  rw [toNat_setFld w i i _ (by omega) hi, testBit_putBits _ _ _ _ _ (by omega)]
  cases b <;> simp [b2n]

/-- A bit outside the replaced field stands. -/
theorem flag_setFld_ne (w : Word) (hi lo v i : Nat) (h : lo ≤ hi) (hh : hi < 32) (hd : i < lo ∨ hi < i) :
    flag (setFld w hi lo v) i = flag w i := by
  unfold flag bitOf
  rw [toNat_setFld w hi lo v (by omega) hh, testBit_putBits _ _ _ _ _ (by omega), if_neg (by omega)]

end Sys2Proof
end

