-- ==== Sys2Proof/Laws/Registers.lean ====
section
/-!
SUPPORT. The laws of the register file: a read after a write of a whole register, of a field and of a bit; the gate of a host
write.
-/
namespace Sys2Proof.Machine

@[simp] theorem rd_wr_same (p off : Nat) (v : Word) (s : State) : rd (wr p off v s) p off = v := by
  simp [rd, wr]

theorem rd_wr_key {p off p' off' : Nat} (h : regKey p' off' ≠ regKey p off) (v : Word) (s : State) :
    rd (wr p off v s) p' off' = rd s p' off' := by
  simp only [rd, wr]
  exact SMap.get_put_ne _ _ h v s.regs

theorem regKey_ne {p off p' off' : Nat} (h : off < 0x1000) (h' : off' < 0x1000) (hne : ¬(p' = p ∧ off' = off)) :
    regKey p' off' ≠ regKey p off := by
  unfold regKey; omega

/-- A read after a write of a register of a page. -/
theorem rd_wr {p off p' off' : Nat} (h : off < 0x1000) (h' : off' < 0x1000) (v : Word) (s : State) :
    rd (wr p off v s) p' off' = if p' = p ∧ off' = off then v else rd s p' off' := by
  split
  · rename_i e; obtain ⟨rfl, rfl⟩ := e; exact rd_wr_same ..
  · rename_i e; exact rd_wr_key (regKey_ne h h' e) v s

/-- Two offsets of one page. -/
theorem rd_wr_off {off off' : Nat} (h : off' ≠ off) (p : Nat) (v : Word) (s : State) :
    rd (wr p off v s) p off' = rd s p off' := rd_wr_key (by unfold regKey; omega) v s

/-- Two pages. -/
theorem rd_wr_page {p p' off off' : Nat} (h : off < 0x1000) (h' : off' < 0x1000) (hp : p' ≠ p) (v : Word) (s : State) :
    rd (wr p off v s) p' off' = rd s p' off' := rd_wr_key (by unfold regKey; omega) v s

theorem rd_wrF_same (p off hi lo v : Nat) (s : State) : rd (wrF p off hi lo v s) p off = setFld (rd s p off) hi lo v := by
  simp [wrF]

theorem rdF_wrF (p off hi lo v : Nat) (s : State) (h : lo ≤ hi) (hh : hi < 32) :
    rdF (wrF p off hi lo v s) p off hi lo = v % 2 ^ (hi + 1 - lo) := by
  simp [rdF, wrF, fld_setFld _ _ _ _ h hh]

theorem rdF_wrF_ne (p off hi lo v hi' lo' : Nat) (s : State) (h : lo ≤ hi) (hh : hi < 32) (hd : hi' < lo ∨ hi < lo') :
    rdF (wrF p off hi lo v s) p off hi' lo' = rdF s p off hi' lo' := by
  simp [rdF, wrF, fld_setFld_ne _ _ _ _ _ _ h hh hd]

theorem rdB_wrB (p off i : Nat) (b : Bool) (s : State) (h : i < 32) : rdB (wrB p off i b s) p off i = b := by
  simp [rdB, wrB, wrF, flag_setFld _ _ _ h]

theorem rdB_wrB_ne (p off i j : Nat) (b : Bool) (s : State) (h : i < 32) (hj : j ≠ i) :
    rdB (wrB p off i b s) p off j = rdB s p off j := by
  simp only [rdB, wrB, wrF, rd_wr_same]
  exact flag_setFld_ne _ _ _ _ _ (Nat.le_refl i) h (by omega)

/-- The gate of R670 lets the port that may write a register, of a page that is assigned and on, through. -/
theorem gateWrite_of {q : Port} {p off : Nat} {k : State → State} {s : State} (hl : portLive s q = true)
    (ha : assigned p = true) (hw : writerOf s p off = q) (hp : pageOn s p = true) : gateWrite q p off k s = k s := by
  simp [gateWrite, hl, ha, hw, hp]

/-- A port that may not write the register is told NOT_OWNER, and nothing else happens. -/
theorem gateWrite_notOwner {q : Port} {p off : Nat} {k : State → State} {s : State} (hl : portLive s q = true)
    (ha : assigned p = true) (hw : writerOf s p off ≠ q) :
    gateWrite q p off k s = refuse q p cNOT_OWNER (off + q.num * 2 ^ 20) s := by
  simp [gateWrite, hl, ha, hw]

end Sys2Proof.Machine
end

