-- ==== Sys2Proof/Laws/Events.lean ====
section
/-!
SUPPORT. What raising an event, counting, and reporting readiness can change: the register file and the records on their way,
nothing else; and of the register file, the five registers of the page that report.
-/
namespace Sys2Proof.Machine

/-- `t` differs from `s` in the register file and the records on their way alone. -/
def ReportsOnly (s t : State) : Prop := t = { s with regs := t.regs, outbox := t.outbox }

theorem ReportsOnly.refl (s : State) : ReportsOnly s s := rfl

theorem ReportsOnly.eq {s t : State} (h : ReportsOnly s t) : t = { s with regs := t.regs, outbox := t.outbox } := h

theorem ReportsOnly.trans {s t u : State} (h : ReportsOnly s t) (g : ReportsOnly t u) : ReportsOnly s u :=
  g.eq.trans (congrArg (fun x : State => { x with regs := u.regs, outbox := u.outbox }) h.eq)

theorem ReportsOnly.mk (s : State) (r : SMap Word) (o : List Posting) : ReportsOnly s { s with regs := r, outbox := o } := rfl

theorem wr_reports (p off : Nat) (v : Word) (s : State) : ReportsOnly s (wr p off v s) := rfl

theorem post_reports (p c v d : Nat) (a b : Bool) (s : State) : ReportsOnly s (post p c v d a b s) := by
  unfold post; dsimp only; split
  · exact ReportsOnly.mk s s.regs _
  · exact ReportsOnly.refl s

@[simp] theorem post_regs (p c v d : Nat) (a b : Bool) (s : State) : (post p c v d a b s).regs = s.regs := by
  unfold post; dsimp only; split <;> rfl

theorem setEvt_reports (p : Nat) (b : Option Nat) (s : State) : ReportsOnly s (setEvt p b s) := by
  unfold setEvt; split
  · rfl
  · split <;> rfl

theorem latch_reports (p c v d : Nat) (s : State) : ReportsOnly s (latch p c v d s) := by
  unfold latch; split
  · exact ReportsOnly.refl s
  · dsimp only; split
    · exact (wr_reports ..).trans (wr_reports ..)
    · split
      · exact (wr_reports ..).trans (wr_reports ..)
      · exact wr_reports ..

theorem raiseOnly_reports (p c v d : Nat) (s : State) : ReportsOnly s (raiseOnly p c v d s) :=
  ((setEvt_reports ..).trans (latch_reports ..)).trans (post_reports ..)

theorem hwClear_reports (p off i : Nat) (s : State) : ReportsOnly s (hwClear p off i s) := by
  unfold hwClear; split
  · exact (wr_reports ..).trans (raiseOnly_reports ..)
  · rfl

/-- Raising an event changes the register file and the records on their way alone. -/
theorem raise_reports (p c v d : Nat) (s : State) : ReportsOnly s (raise p c v d s) := by
  unfold raise; dsimp only; split
  · exact (raiseOnly_reports ..).trans (hwClear_reports ..)
  · exact raiseOnly_reports ..

theorem refuse_reports (q : Port) (p c d : Nat) (s : State) : ReportsOnly s (Machine.refuse q p c d s) :=
  (setEvt_reports ..).trans (post_reports ..)

theorem incCnt_reports (p off n : Nat) (s : State) : ReportsOnly s (incCnt p off n s) := by
  unfold incCnt; dsimp only; split
  · exact (wr_reports ..).trans (raise_reports ..)
  · exact wr_reports ..

theorem incCnt64_reports (p off n : Nat) (s : State) : ReportsOnly s (incCnt64 p off n s) := by
  unfold incCnt64; dsimp only; split
  · exact ((wr_reports ..).trans (wr_reports ..)).trans (raise_reports ..)
  · exact (wr_reports ..).trans (wr_reports ..)

theorem setReady_reports (p v : Nat) (s : State) : ReportsOnly s (setReady p v s) := by
  unfold setReady; split
  · rfl
  · exact (wr_reports ..).trans (raise_reports ..)


/-! ### `raise` -/

@[simp] theorem raise_fuses (p c v d : Nat) (s : State) : (raise p c v d s).fuses = s.fuses := (congrArg State.fuses (raise_reports p c v d s).eq).trans rfl
@[simp] theorem raise_pd0 (p c v d : Nat) (s : State) : (raise p c v d s).pd0 = s.pd0 := (congrArg State.pd0 (raise_reports p c v d s).eq).trans rfl
@[simp] theorem raise_tb (p c v d : Nat) (s : State) : (raise p c v d s).tb = s.tb := (congrArg State.tb (raise_reports p c v d s).eq).trans rfl
@[simp] theorem raise_portA (p c v d : Nat) (s : State) : (raise p c v d s).portA = s.portA := (congrArg State.portA (raise_reports p c v d s).eq).trans rfl
@[simp] theorem raise_portB (p c v d : Nat) (s : State) : (raise p c v d s).portB = s.portB := (congrArg State.portB (raise_reports p c v d s).eq).trans rfl
@[simp] theorem raise_joint (p c v d : Nat) (s : State) : (raise p c v d s).joint = s.joint := (congrArg State.joint (raise_reports p c v d s).eq).trans rfl
@[simp] theorem raise_jobs (p c v d : Nat) (s : State) : (raise p c v d s).jobs = s.jobs := (congrArg State.jobs (raise_reports p c v d s).eq).trans rfl
@[simp] theorem raise_fences (p c v d : Nat) (s : State) : (raise p c v d s).fences = s.fences := (congrArg State.fences (raise_reports p c v d s).eq).trans rfl
@[simp] theorem raise_timeouts (p c v d : Nat) (s : State) : (raise p c v d s).timeouts = s.timeouts := (congrArg State.timeouts (raise_reports p c v d s).eq).trans rfl
@[simp] theorem raise_lre (p c v d : Nat) (s : State) : (raise p c v d s).lre = s.lre := (congrArg State.lre (raise_reports p c v d s).eq).trans rfl
@[simp] theorem raise_power (p c v d : Nat) (s : State) : (raise p c v d s).power = s.power := (congrArg State.power (raise_reports p c v d s).eq).trans rfl
@[simp] theorem raise_heat (p c v d : Nat) (s : State) : (raise p c v d s).heat = s.heat := (congrArg State.heat (raise_reports p c v d s).eq).trans rfl
@[simp] theorem raise_mem (p c v d : Nat) (s : State) : (raise p c v d s).mem = s.mem := (congrArg State.mem (raise_reports p c v d s).eq).trans rfl
@[simp] theorem raise_marks (p c v d : Nat) (s : State) : (raise p c v d s).marks = s.marks := (congrArg State.marks (raise_reports p c v d s).eq).trans rfl
@[simp] theorem raise_dram (p c v d : Nat) (s : State) : (raise p c v d s).dram = s.dram := (congrArg State.dram (raise_reports p c v d s).eq).trans rfl
@[simp] theorem raise_regul (p c v d : Nat) (s : State) : (raise p c v d s).regul = s.regul := (congrArg State.regul (raise_reports p c v d s).eq).trans rfl
@[simp] theorem raise_flg (p c v d : Nat) (s : State) : (raise p c v d s).flg = s.flg := (congrArg State.flg (raise_reports p c v d s).eq).trans rfl
@[simp] theorem raise_sup (p c v d : Nat) (s : State) : (raise p c v d s).sup = s.sup := (congrArg State.sup (raise_reports p c v d s).eq).trans rfl
@[simp] theorem raise_jtag (p c v d : Nat) (s : State) : (raise p c v d s).jtag = s.jtag := (congrArg State.jtag (raise_reports p c v d s).eq).trans rfl
@[simp] theorem raise_mews (p c v d : Nat) (s : State) : (raise p c v d s).mews = s.mews := (congrArg State.mews (raise_reports p c v d s).eq).trans rfl
@[simp] theorem raise_sema (p c v d : Nat) (s : State) : (raise p c v d s).sema = s.sema := (congrArg State.sema (raise_reports p c v d s).eq).trans rfl
@[simp] theorem raise_strm (p c v d : Nat) (s : State) : (raise p c v d s).strm = s.strm := (congrArg State.strm (raise_reports p c v d s).eq).trans rfl
@[simp] theorem raise_endpoints (p c v d : Nat) (s : State) : (raise p c v d s).endpoints = s.endpoints := (congrArg State.endpoints (raise_reports p c v d s).eq).trans rfl
@[simp] theorem raise_tc (p c v d : Nat) (s : State) : (raise p c v d s).tc = s.tc := (congrArg State.tc (raise_reports p c v d s).eq).trans rfl
@[simp] theorem raise_gen (p c v d : Nat) (s : State) : (raise p c v d s).gen = s.gen := (congrArg State.gen (raise_reports p c v d s).eq).trans rfl
@[simp] theorem raise_rings (p c v d : Nat) (s : State) : (raise p c v d s).rings = s.rings := (congrArg State.rings (raise_reports p c v d s).eq).trans rfl
@[simp] theorem raise_fst (p c v d : Nat) (s : State) : (raise p c v d s).fst = s.fst := (congrArg State.fst (raise_reports p c v d s).eq).trans rfl
@[simp] theorem raise_eth (p c v d : Nat) (s : State) : (raise p c v d s).eth = s.eth := (congrArg State.eth (raise_reports p c v d s).eq).trans rfl
@[simp] theorem raise_spi (p c v d : Nat) (s : State) : (raise p c v d s).spi = s.spi := (congrArg State.spi (raise_reports p c v d s).eq).trans rfl
@[simp] theorem raise_uart (p c v d : Nat) (s : State) : (raise p c v d s).uart = s.uart := (congrArg State.uart (raise_reports p c v d s).eq).trans rfl
@[simp] theorem raise_canRecover (p c v d : Nat) (s : State) : (raise p c v d s).canRecover = s.canRecover := (congrArg State.canRecover (raise_reports p c v d s).eq).trans rfl
@[simp] theorem raise_vis (p c v d : Nat) (s : State) : (raise p c v d s).vis = s.vis := (congrArg State.vis (raise_reports p c v d s).eq).trans rfl
@[simp] theorem raise_fus (p c v d : Nat) (s : State) : (raise p c v d s).fus = s.fus := (congrArg State.fus (raise_reports p c v d s).eq).trans rfl
@[simp] theorem raise_gsh (p c v d : Nat) (s : State) : (raise p c v d s).gsh = s.gsh := (congrArg State.gsh (raise_reports p c v d s).eq).trans rfl
@[simp] theorem raise_gshRun (p c v d : Nat) (s : State) : (raise p c v d s).gshRun = s.gshRun := (congrArg State.gshRun (raise_reports p c v d s).eq).trans rfl
@[simp] theorem raise_fsh (p c v d : Nat) (s : State) : (raise p c v d s).fsh = s.fsh := (congrArg State.fsh (raise_reports p c v d s).eq).trans rfl
@[simp] theorem raise_met (p c v d : Nat) (s : State) : (raise p c v d s).met = s.met := (congrArg State.met (raise_reports p c v d s).eq).trans rfl
@[simp] theorem raise_mbr (p c v d : Nat) (s : State) : (raise p c v d s).mbr = s.mbr := (congrArg State.mbr (raise_reports p c v d s).eq).trans rfl
@[simp] theorem raise_plk (p c v d : Nat) (s : State) : (raise p c v d s).plk = s.plk := (congrArg State.plk (raise_reports p c v d s).eq).trans rfl
@[simp] theorem raise_freeCtr (p c v d : Nat) (s : State) : (raise p c v d s).freeCtr = s.freeCtr := (congrArg State.freeCtr (raise_reports p c v d s).eq).trans rfl
@[simp] theorem raise_pending (p c v d : Nat) (s : State) : (raise p c v d s).pending = s.pending := (congrArg State.pending (raise_reports p c v d s).eq).trans rfl

/-! ### `Machine.refuse` -/

@[simp] theorem refuse_fuses (q : Port) (p c d : Nat) (s : State) : (Machine.refuse q p c d s).fuses = s.fuses := (congrArg State.fuses (refuse_reports q p c d s).eq).trans rfl
@[simp] theorem refuse_pd0 (q : Port) (p c d : Nat) (s : State) : (Machine.refuse q p c d s).pd0 = s.pd0 := (congrArg State.pd0 (refuse_reports q p c d s).eq).trans rfl
@[simp] theorem refuse_tb (q : Port) (p c d : Nat) (s : State) : (Machine.refuse q p c d s).tb = s.tb := (congrArg State.tb (refuse_reports q p c d s).eq).trans rfl
@[simp] theorem refuse_portA (q : Port) (p c d : Nat) (s : State) : (Machine.refuse q p c d s).portA = s.portA := (congrArg State.portA (refuse_reports q p c d s).eq).trans rfl
@[simp] theorem refuse_portB (q : Port) (p c d : Nat) (s : State) : (Machine.refuse q p c d s).portB = s.portB := (congrArg State.portB (refuse_reports q p c d s).eq).trans rfl
@[simp] theorem refuse_joint (q : Port) (p c d : Nat) (s : State) : (Machine.refuse q p c d s).joint = s.joint := (congrArg State.joint (refuse_reports q p c d s).eq).trans rfl
@[simp] theorem refuse_jobs (q : Port) (p c d : Nat) (s : State) : (Machine.refuse q p c d s).jobs = s.jobs := (congrArg State.jobs (refuse_reports q p c d s).eq).trans rfl
@[simp] theorem refuse_fences (q : Port) (p c d : Nat) (s : State) : (Machine.refuse q p c d s).fences = s.fences := (congrArg State.fences (refuse_reports q p c d s).eq).trans rfl
@[simp] theorem refuse_timeouts (q : Port) (p c d : Nat) (s : State) : (Machine.refuse q p c d s).timeouts = s.timeouts := (congrArg State.timeouts (refuse_reports q p c d s).eq).trans rfl
@[simp] theorem refuse_lre (q : Port) (p c d : Nat) (s : State) : (Machine.refuse q p c d s).lre = s.lre := (congrArg State.lre (refuse_reports q p c d s).eq).trans rfl
@[simp] theorem refuse_power (q : Port) (p c d : Nat) (s : State) : (Machine.refuse q p c d s).power = s.power := (congrArg State.power (refuse_reports q p c d s).eq).trans rfl
@[simp] theorem refuse_heat (q : Port) (p c d : Nat) (s : State) : (Machine.refuse q p c d s).heat = s.heat := (congrArg State.heat (refuse_reports q p c d s).eq).trans rfl
@[simp] theorem refuse_mem (q : Port) (p c d : Nat) (s : State) : (Machine.refuse q p c d s).mem = s.mem := (congrArg State.mem (refuse_reports q p c d s).eq).trans rfl
@[simp] theorem refuse_marks (q : Port) (p c d : Nat) (s : State) : (Machine.refuse q p c d s).marks = s.marks := (congrArg State.marks (refuse_reports q p c d s).eq).trans rfl
@[simp] theorem refuse_dram (q : Port) (p c d : Nat) (s : State) : (Machine.refuse q p c d s).dram = s.dram := (congrArg State.dram (refuse_reports q p c d s).eq).trans rfl
@[simp] theorem refuse_regul (q : Port) (p c d : Nat) (s : State) : (Machine.refuse q p c d s).regul = s.regul := (congrArg State.regul (refuse_reports q p c d s).eq).trans rfl
@[simp] theorem refuse_flg (q : Port) (p c d : Nat) (s : State) : (Machine.refuse q p c d s).flg = s.flg := (congrArg State.flg (refuse_reports q p c d s).eq).trans rfl
@[simp] theorem refuse_sup (q : Port) (p c d : Nat) (s : State) : (Machine.refuse q p c d s).sup = s.sup := (congrArg State.sup (refuse_reports q p c d s).eq).trans rfl
@[simp] theorem refuse_jtag (q : Port) (p c d : Nat) (s : State) : (Machine.refuse q p c d s).jtag = s.jtag := (congrArg State.jtag (refuse_reports q p c d s).eq).trans rfl
@[simp] theorem refuse_mews (q : Port) (p c d : Nat) (s : State) : (Machine.refuse q p c d s).mews = s.mews := (congrArg State.mews (refuse_reports q p c d s).eq).trans rfl
@[simp] theorem refuse_sema (q : Port) (p c d : Nat) (s : State) : (Machine.refuse q p c d s).sema = s.sema := (congrArg State.sema (refuse_reports q p c d s).eq).trans rfl
@[simp] theorem refuse_strm (q : Port) (p c d : Nat) (s : State) : (Machine.refuse q p c d s).strm = s.strm := (congrArg State.strm (refuse_reports q p c d s).eq).trans rfl
@[simp] theorem refuse_endpoints (q : Port) (p c d : Nat) (s : State) : (Machine.refuse q p c d s).endpoints = s.endpoints := (congrArg State.endpoints (refuse_reports q p c d s).eq).trans rfl
@[simp] theorem refuse_tc (q : Port) (p c d : Nat) (s : State) : (Machine.refuse q p c d s).tc = s.tc := (congrArg State.tc (refuse_reports q p c d s).eq).trans rfl
@[simp] theorem refuse_gen (q : Port) (p c d : Nat) (s : State) : (Machine.refuse q p c d s).gen = s.gen := (congrArg State.gen (refuse_reports q p c d s).eq).trans rfl
@[simp] theorem refuse_rings (q : Port) (p c d : Nat) (s : State) : (Machine.refuse q p c d s).rings = s.rings := (congrArg State.rings (refuse_reports q p c d s).eq).trans rfl
@[simp] theorem refuse_fst (q : Port) (p c d : Nat) (s : State) : (Machine.refuse q p c d s).fst = s.fst := (congrArg State.fst (refuse_reports q p c d s).eq).trans rfl
@[simp] theorem refuse_eth (q : Port) (p c d : Nat) (s : State) : (Machine.refuse q p c d s).eth = s.eth := (congrArg State.eth (refuse_reports q p c d s).eq).trans rfl
@[simp] theorem refuse_spi (q : Port) (p c d : Nat) (s : State) : (Machine.refuse q p c d s).spi = s.spi := (congrArg State.spi (refuse_reports q p c d s).eq).trans rfl
@[simp] theorem refuse_uart (q : Port) (p c d : Nat) (s : State) : (Machine.refuse q p c d s).uart = s.uart := (congrArg State.uart (refuse_reports q p c d s).eq).trans rfl
@[simp] theorem refuse_canRecover (q : Port) (p c d : Nat) (s : State) : (Machine.refuse q p c d s).canRecover = s.canRecover := (congrArg State.canRecover (refuse_reports q p c d s).eq).trans rfl
@[simp] theorem refuse_vis (q : Port) (p c d : Nat) (s : State) : (Machine.refuse q p c d s).vis = s.vis := (congrArg State.vis (refuse_reports q p c d s).eq).trans rfl
@[simp] theorem refuse_fus (q : Port) (p c d : Nat) (s : State) : (Machine.refuse q p c d s).fus = s.fus := (congrArg State.fus (refuse_reports q p c d s).eq).trans rfl
@[simp] theorem refuse_gsh (q : Port) (p c d : Nat) (s : State) : (Machine.refuse q p c d s).gsh = s.gsh := (congrArg State.gsh (refuse_reports q p c d s).eq).trans rfl
@[simp] theorem refuse_gshRun (q : Port) (p c d : Nat) (s : State) : (Machine.refuse q p c d s).gshRun = s.gshRun := (congrArg State.gshRun (refuse_reports q p c d s).eq).trans rfl
@[simp] theorem refuse_fsh (q : Port) (p c d : Nat) (s : State) : (Machine.refuse q p c d s).fsh = s.fsh := (congrArg State.fsh (refuse_reports q p c d s).eq).trans rfl
@[simp] theorem refuse_met (q : Port) (p c d : Nat) (s : State) : (Machine.refuse q p c d s).met = s.met := (congrArg State.met (refuse_reports q p c d s).eq).trans rfl
@[simp] theorem refuse_mbr (q : Port) (p c d : Nat) (s : State) : (Machine.refuse q p c d s).mbr = s.mbr := (congrArg State.mbr (refuse_reports q p c d s).eq).trans rfl
@[simp] theorem refuse_plk (q : Port) (p c d : Nat) (s : State) : (Machine.refuse q p c d s).plk = s.plk := (congrArg State.plk (refuse_reports q p c d s).eq).trans rfl
@[simp] theorem refuse_freeCtr (q : Port) (p c d : Nat) (s : State) : (Machine.refuse q p c d s).freeCtr = s.freeCtr := (congrArg State.freeCtr (refuse_reports q p c d s).eq).trans rfl
@[simp] theorem refuse_pending (q : Port) (p c d : Nat) (s : State) : (Machine.refuse q p c d s).pending = s.pending := (congrArg State.pending (refuse_reports q p c d s).eq).trans rfl

/-! ### `incCnt` -/

@[simp] theorem incCnt_fuses (p off n : Nat) (s : State) : (incCnt p off n s).fuses = s.fuses := (congrArg State.fuses (incCnt_reports p off n s).eq).trans rfl
@[simp] theorem incCnt_pd0 (p off n : Nat) (s : State) : (incCnt p off n s).pd0 = s.pd0 := (congrArg State.pd0 (incCnt_reports p off n s).eq).trans rfl
@[simp] theorem incCnt_tb (p off n : Nat) (s : State) : (incCnt p off n s).tb = s.tb := (congrArg State.tb (incCnt_reports p off n s).eq).trans rfl
@[simp] theorem incCnt_portA (p off n : Nat) (s : State) : (incCnt p off n s).portA = s.portA := (congrArg State.portA (incCnt_reports p off n s).eq).trans rfl
@[simp] theorem incCnt_portB (p off n : Nat) (s : State) : (incCnt p off n s).portB = s.portB := (congrArg State.portB (incCnt_reports p off n s).eq).trans rfl
@[simp] theorem incCnt_joint (p off n : Nat) (s : State) : (incCnt p off n s).joint = s.joint := (congrArg State.joint (incCnt_reports p off n s).eq).trans rfl
@[simp] theorem incCnt_jobs (p off n : Nat) (s : State) : (incCnt p off n s).jobs = s.jobs := (congrArg State.jobs (incCnt_reports p off n s).eq).trans rfl
@[simp] theorem incCnt_fences (p off n : Nat) (s : State) : (incCnt p off n s).fences = s.fences := (congrArg State.fences (incCnt_reports p off n s).eq).trans rfl
@[simp] theorem incCnt_timeouts (p off n : Nat) (s : State) : (incCnt p off n s).timeouts = s.timeouts := (congrArg State.timeouts (incCnt_reports p off n s).eq).trans rfl
@[simp] theorem incCnt_lre (p off n : Nat) (s : State) : (incCnt p off n s).lre = s.lre := (congrArg State.lre (incCnt_reports p off n s).eq).trans rfl
@[simp] theorem incCnt_power (p off n : Nat) (s : State) : (incCnt p off n s).power = s.power := (congrArg State.power (incCnt_reports p off n s).eq).trans rfl
@[simp] theorem incCnt_heat (p off n : Nat) (s : State) : (incCnt p off n s).heat = s.heat := (congrArg State.heat (incCnt_reports p off n s).eq).trans rfl
@[simp] theorem incCnt_mem (p off n : Nat) (s : State) : (incCnt p off n s).mem = s.mem := (congrArg State.mem (incCnt_reports p off n s).eq).trans rfl
@[simp] theorem incCnt_marks (p off n : Nat) (s : State) : (incCnt p off n s).marks = s.marks := (congrArg State.marks (incCnt_reports p off n s).eq).trans rfl
@[simp] theorem incCnt_dram (p off n : Nat) (s : State) : (incCnt p off n s).dram = s.dram := (congrArg State.dram (incCnt_reports p off n s).eq).trans rfl
@[simp] theorem incCnt_regul (p off n : Nat) (s : State) : (incCnt p off n s).regul = s.regul := (congrArg State.regul (incCnt_reports p off n s).eq).trans rfl
@[simp] theorem incCnt_flg (p off n : Nat) (s : State) : (incCnt p off n s).flg = s.flg := (congrArg State.flg (incCnt_reports p off n s).eq).trans rfl
@[simp] theorem incCnt_sup (p off n : Nat) (s : State) : (incCnt p off n s).sup = s.sup := (congrArg State.sup (incCnt_reports p off n s).eq).trans rfl
@[simp] theorem incCnt_jtag (p off n : Nat) (s : State) : (incCnt p off n s).jtag = s.jtag := (congrArg State.jtag (incCnt_reports p off n s).eq).trans rfl
@[simp] theorem incCnt_mews (p off n : Nat) (s : State) : (incCnt p off n s).mews = s.mews := (congrArg State.mews (incCnt_reports p off n s).eq).trans rfl
@[simp] theorem incCnt_sema (p off n : Nat) (s : State) : (incCnt p off n s).sema = s.sema := (congrArg State.sema (incCnt_reports p off n s).eq).trans rfl
@[simp] theorem incCnt_strm (p off n : Nat) (s : State) : (incCnt p off n s).strm = s.strm := (congrArg State.strm (incCnt_reports p off n s).eq).trans rfl
@[simp] theorem incCnt_endpoints (p off n : Nat) (s : State) : (incCnt p off n s).endpoints = s.endpoints := (congrArg State.endpoints (incCnt_reports p off n s).eq).trans rfl
@[simp] theorem incCnt_tc (p off n : Nat) (s : State) : (incCnt p off n s).tc = s.tc := (congrArg State.tc (incCnt_reports p off n s).eq).trans rfl
@[simp] theorem incCnt_gen (p off n : Nat) (s : State) : (incCnt p off n s).gen = s.gen := (congrArg State.gen (incCnt_reports p off n s).eq).trans rfl
@[simp] theorem incCnt_rings (p off n : Nat) (s : State) : (incCnt p off n s).rings = s.rings := (congrArg State.rings (incCnt_reports p off n s).eq).trans rfl
@[simp] theorem incCnt_fst (p off n : Nat) (s : State) : (incCnt p off n s).fst = s.fst := (congrArg State.fst (incCnt_reports p off n s).eq).trans rfl
@[simp] theorem incCnt_eth (p off n : Nat) (s : State) : (incCnt p off n s).eth = s.eth := (congrArg State.eth (incCnt_reports p off n s).eq).trans rfl
@[simp] theorem incCnt_spi (p off n : Nat) (s : State) : (incCnt p off n s).spi = s.spi := (congrArg State.spi (incCnt_reports p off n s).eq).trans rfl
@[simp] theorem incCnt_uart (p off n : Nat) (s : State) : (incCnt p off n s).uart = s.uart := (congrArg State.uart (incCnt_reports p off n s).eq).trans rfl
@[simp] theorem incCnt_canRecover (p off n : Nat) (s : State) : (incCnt p off n s).canRecover = s.canRecover := (congrArg State.canRecover (incCnt_reports p off n s).eq).trans rfl
@[simp] theorem incCnt_vis (p off n : Nat) (s : State) : (incCnt p off n s).vis = s.vis := (congrArg State.vis (incCnt_reports p off n s).eq).trans rfl
@[simp] theorem incCnt_fus (p off n : Nat) (s : State) : (incCnt p off n s).fus = s.fus := (congrArg State.fus (incCnt_reports p off n s).eq).trans rfl
@[simp] theorem incCnt_gsh (p off n : Nat) (s : State) : (incCnt p off n s).gsh = s.gsh := (congrArg State.gsh (incCnt_reports p off n s).eq).trans rfl
@[simp] theorem incCnt_gshRun (p off n : Nat) (s : State) : (incCnt p off n s).gshRun = s.gshRun := (congrArg State.gshRun (incCnt_reports p off n s).eq).trans rfl
@[simp] theorem incCnt_fsh (p off n : Nat) (s : State) : (incCnt p off n s).fsh = s.fsh := (congrArg State.fsh (incCnt_reports p off n s).eq).trans rfl
@[simp] theorem incCnt_met (p off n : Nat) (s : State) : (incCnt p off n s).met = s.met := (congrArg State.met (incCnt_reports p off n s).eq).trans rfl
@[simp] theorem incCnt_mbr (p off n : Nat) (s : State) : (incCnt p off n s).mbr = s.mbr := (congrArg State.mbr (incCnt_reports p off n s).eq).trans rfl
@[simp] theorem incCnt_plk (p off n : Nat) (s : State) : (incCnt p off n s).plk = s.plk := (congrArg State.plk (incCnt_reports p off n s).eq).trans rfl
@[simp] theorem incCnt_freeCtr (p off n : Nat) (s : State) : (incCnt p off n s).freeCtr = s.freeCtr := (congrArg State.freeCtr (incCnt_reports p off n s).eq).trans rfl
@[simp] theorem incCnt_pending (p off n : Nat) (s : State) : (incCnt p off n s).pending = s.pending := (congrArg State.pending (incCnt_reports p off n s).eq).trans rfl

/-! ### `incCnt64` -/

@[simp] theorem incCnt64_fuses (p off n : Nat) (s : State) : (incCnt64 p off n s).fuses = s.fuses := (congrArg State.fuses (incCnt64_reports p off n s).eq).trans rfl
@[simp] theorem incCnt64_pd0 (p off n : Nat) (s : State) : (incCnt64 p off n s).pd0 = s.pd0 := (congrArg State.pd0 (incCnt64_reports p off n s).eq).trans rfl
@[simp] theorem incCnt64_tb (p off n : Nat) (s : State) : (incCnt64 p off n s).tb = s.tb := (congrArg State.tb (incCnt64_reports p off n s).eq).trans rfl
@[simp] theorem incCnt64_portA (p off n : Nat) (s : State) : (incCnt64 p off n s).portA = s.portA := (congrArg State.portA (incCnt64_reports p off n s).eq).trans rfl
@[simp] theorem incCnt64_portB (p off n : Nat) (s : State) : (incCnt64 p off n s).portB = s.portB := (congrArg State.portB (incCnt64_reports p off n s).eq).trans rfl
@[simp] theorem incCnt64_joint (p off n : Nat) (s : State) : (incCnt64 p off n s).joint = s.joint := (congrArg State.joint (incCnt64_reports p off n s).eq).trans rfl
@[simp] theorem incCnt64_jobs (p off n : Nat) (s : State) : (incCnt64 p off n s).jobs = s.jobs := (congrArg State.jobs (incCnt64_reports p off n s).eq).trans rfl
@[simp] theorem incCnt64_fences (p off n : Nat) (s : State) : (incCnt64 p off n s).fences = s.fences := (congrArg State.fences (incCnt64_reports p off n s).eq).trans rfl
@[simp] theorem incCnt64_timeouts (p off n : Nat) (s : State) : (incCnt64 p off n s).timeouts = s.timeouts := (congrArg State.timeouts (incCnt64_reports p off n s).eq).trans rfl
@[simp] theorem incCnt64_lre (p off n : Nat) (s : State) : (incCnt64 p off n s).lre = s.lre := (congrArg State.lre (incCnt64_reports p off n s).eq).trans rfl
@[simp] theorem incCnt64_power (p off n : Nat) (s : State) : (incCnt64 p off n s).power = s.power := (congrArg State.power (incCnt64_reports p off n s).eq).trans rfl
@[simp] theorem incCnt64_heat (p off n : Nat) (s : State) : (incCnt64 p off n s).heat = s.heat := (congrArg State.heat (incCnt64_reports p off n s).eq).trans rfl
@[simp] theorem incCnt64_mem (p off n : Nat) (s : State) : (incCnt64 p off n s).mem = s.mem := (congrArg State.mem (incCnt64_reports p off n s).eq).trans rfl
@[simp] theorem incCnt64_marks (p off n : Nat) (s : State) : (incCnt64 p off n s).marks = s.marks := (congrArg State.marks (incCnt64_reports p off n s).eq).trans rfl
@[simp] theorem incCnt64_dram (p off n : Nat) (s : State) : (incCnt64 p off n s).dram = s.dram := (congrArg State.dram (incCnt64_reports p off n s).eq).trans rfl
@[simp] theorem incCnt64_regul (p off n : Nat) (s : State) : (incCnt64 p off n s).regul = s.regul := (congrArg State.regul (incCnt64_reports p off n s).eq).trans rfl
@[simp] theorem incCnt64_flg (p off n : Nat) (s : State) : (incCnt64 p off n s).flg = s.flg := (congrArg State.flg (incCnt64_reports p off n s).eq).trans rfl
@[simp] theorem incCnt64_sup (p off n : Nat) (s : State) : (incCnt64 p off n s).sup = s.sup := (congrArg State.sup (incCnt64_reports p off n s).eq).trans rfl
@[simp] theorem incCnt64_jtag (p off n : Nat) (s : State) : (incCnt64 p off n s).jtag = s.jtag := (congrArg State.jtag (incCnt64_reports p off n s).eq).trans rfl
@[simp] theorem incCnt64_mews (p off n : Nat) (s : State) : (incCnt64 p off n s).mews = s.mews := (congrArg State.mews (incCnt64_reports p off n s).eq).trans rfl
@[simp] theorem incCnt64_sema (p off n : Nat) (s : State) : (incCnt64 p off n s).sema = s.sema := (congrArg State.sema (incCnt64_reports p off n s).eq).trans rfl
@[simp] theorem incCnt64_strm (p off n : Nat) (s : State) : (incCnt64 p off n s).strm = s.strm := (congrArg State.strm (incCnt64_reports p off n s).eq).trans rfl
@[simp] theorem incCnt64_endpoints (p off n : Nat) (s : State) : (incCnt64 p off n s).endpoints = s.endpoints := (congrArg State.endpoints (incCnt64_reports p off n s).eq).trans rfl
@[simp] theorem incCnt64_tc (p off n : Nat) (s : State) : (incCnt64 p off n s).tc = s.tc := (congrArg State.tc (incCnt64_reports p off n s).eq).trans rfl
@[simp] theorem incCnt64_gen (p off n : Nat) (s : State) : (incCnt64 p off n s).gen = s.gen := (congrArg State.gen (incCnt64_reports p off n s).eq).trans rfl
@[simp] theorem incCnt64_rings (p off n : Nat) (s : State) : (incCnt64 p off n s).rings = s.rings := (congrArg State.rings (incCnt64_reports p off n s).eq).trans rfl
@[simp] theorem incCnt64_fst (p off n : Nat) (s : State) : (incCnt64 p off n s).fst = s.fst := (congrArg State.fst (incCnt64_reports p off n s).eq).trans rfl
@[simp] theorem incCnt64_eth (p off n : Nat) (s : State) : (incCnt64 p off n s).eth = s.eth := (congrArg State.eth (incCnt64_reports p off n s).eq).trans rfl
@[simp] theorem incCnt64_spi (p off n : Nat) (s : State) : (incCnt64 p off n s).spi = s.spi := (congrArg State.spi (incCnt64_reports p off n s).eq).trans rfl
@[simp] theorem incCnt64_uart (p off n : Nat) (s : State) : (incCnt64 p off n s).uart = s.uart := (congrArg State.uart (incCnt64_reports p off n s).eq).trans rfl
@[simp] theorem incCnt64_canRecover (p off n : Nat) (s : State) : (incCnt64 p off n s).canRecover = s.canRecover := (congrArg State.canRecover (incCnt64_reports p off n s).eq).trans rfl
@[simp] theorem incCnt64_vis (p off n : Nat) (s : State) : (incCnt64 p off n s).vis = s.vis := (congrArg State.vis (incCnt64_reports p off n s).eq).trans rfl
@[simp] theorem incCnt64_fus (p off n : Nat) (s : State) : (incCnt64 p off n s).fus = s.fus := (congrArg State.fus (incCnt64_reports p off n s).eq).trans rfl
@[simp] theorem incCnt64_gsh (p off n : Nat) (s : State) : (incCnt64 p off n s).gsh = s.gsh := (congrArg State.gsh (incCnt64_reports p off n s).eq).trans rfl
@[simp] theorem incCnt64_gshRun (p off n : Nat) (s : State) : (incCnt64 p off n s).gshRun = s.gshRun := (congrArg State.gshRun (incCnt64_reports p off n s).eq).trans rfl
@[simp] theorem incCnt64_fsh (p off n : Nat) (s : State) : (incCnt64 p off n s).fsh = s.fsh := (congrArg State.fsh (incCnt64_reports p off n s).eq).trans rfl
@[simp] theorem incCnt64_met (p off n : Nat) (s : State) : (incCnt64 p off n s).met = s.met := (congrArg State.met (incCnt64_reports p off n s).eq).trans rfl
@[simp] theorem incCnt64_mbr (p off n : Nat) (s : State) : (incCnt64 p off n s).mbr = s.mbr := (congrArg State.mbr (incCnt64_reports p off n s).eq).trans rfl
@[simp] theorem incCnt64_plk (p off n : Nat) (s : State) : (incCnt64 p off n s).plk = s.plk := (congrArg State.plk (incCnt64_reports p off n s).eq).trans rfl
@[simp] theorem incCnt64_freeCtr (p off n : Nat) (s : State) : (incCnt64 p off n s).freeCtr = s.freeCtr := (congrArg State.freeCtr (incCnt64_reports p off n s).eq).trans rfl
@[simp] theorem incCnt64_pending (p off n : Nat) (s : State) : (incCnt64 p off n s).pending = s.pending := (congrArg State.pending (incCnt64_reports p off n s).eq).trans rfl

/-! ### `setReady` -/

@[simp] theorem setReady_fuses (p v : Nat) (s : State) : (setReady p v s).fuses = s.fuses := (congrArg State.fuses (setReady_reports p v s).eq).trans rfl
@[simp] theorem setReady_pd0 (p v : Nat) (s : State) : (setReady p v s).pd0 = s.pd0 := (congrArg State.pd0 (setReady_reports p v s).eq).trans rfl
@[simp] theorem setReady_tb (p v : Nat) (s : State) : (setReady p v s).tb = s.tb := (congrArg State.tb (setReady_reports p v s).eq).trans rfl
@[simp] theorem setReady_portA (p v : Nat) (s : State) : (setReady p v s).portA = s.portA := (congrArg State.portA (setReady_reports p v s).eq).trans rfl
@[simp] theorem setReady_portB (p v : Nat) (s : State) : (setReady p v s).portB = s.portB := (congrArg State.portB (setReady_reports p v s).eq).trans rfl
@[simp] theorem setReady_joint (p v : Nat) (s : State) : (setReady p v s).joint = s.joint := (congrArg State.joint (setReady_reports p v s).eq).trans rfl
@[simp] theorem setReady_jobs (p v : Nat) (s : State) : (setReady p v s).jobs = s.jobs := (congrArg State.jobs (setReady_reports p v s).eq).trans rfl
@[simp] theorem setReady_fences (p v : Nat) (s : State) : (setReady p v s).fences = s.fences := (congrArg State.fences (setReady_reports p v s).eq).trans rfl
@[simp] theorem setReady_timeouts (p v : Nat) (s : State) : (setReady p v s).timeouts = s.timeouts := (congrArg State.timeouts (setReady_reports p v s).eq).trans rfl
@[simp] theorem setReady_lre (p v : Nat) (s : State) : (setReady p v s).lre = s.lre := (congrArg State.lre (setReady_reports p v s).eq).trans rfl
@[simp] theorem setReady_power (p v : Nat) (s : State) : (setReady p v s).power = s.power := (congrArg State.power (setReady_reports p v s).eq).trans rfl
@[simp] theorem setReady_heat (p v : Nat) (s : State) : (setReady p v s).heat = s.heat := (congrArg State.heat (setReady_reports p v s).eq).trans rfl
@[simp] theorem setReady_mem (p v : Nat) (s : State) : (setReady p v s).mem = s.mem := (congrArg State.mem (setReady_reports p v s).eq).trans rfl
@[simp] theorem setReady_marks (p v : Nat) (s : State) : (setReady p v s).marks = s.marks := (congrArg State.marks (setReady_reports p v s).eq).trans rfl
@[simp] theorem setReady_dram (p v : Nat) (s : State) : (setReady p v s).dram = s.dram := (congrArg State.dram (setReady_reports p v s).eq).trans rfl
@[simp] theorem setReady_regul (p v : Nat) (s : State) : (setReady p v s).regul = s.regul := (congrArg State.regul (setReady_reports p v s).eq).trans rfl
@[simp] theorem setReady_flg (p v : Nat) (s : State) : (setReady p v s).flg = s.flg := (congrArg State.flg (setReady_reports p v s).eq).trans rfl
@[simp] theorem setReady_sup (p v : Nat) (s : State) : (setReady p v s).sup = s.sup := (congrArg State.sup (setReady_reports p v s).eq).trans rfl
@[simp] theorem setReady_jtag (p v : Nat) (s : State) : (setReady p v s).jtag = s.jtag := (congrArg State.jtag (setReady_reports p v s).eq).trans rfl
@[simp] theorem setReady_mews (p v : Nat) (s : State) : (setReady p v s).mews = s.mews := (congrArg State.mews (setReady_reports p v s).eq).trans rfl
@[simp] theorem setReady_sema (p v : Nat) (s : State) : (setReady p v s).sema = s.sema := (congrArg State.sema (setReady_reports p v s).eq).trans rfl
@[simp] theorem setReady_strm (p v : Nat) (s : State) : (setReady p v s).strm = s.strm := (congrArg State.strm (setReady_reports p v s).eq).trans rfl
@[simp] theorem setReady_endpoints (p v : Nat) (s : State) : (setReady p v s).endpoints = s.endpoints := (congrArg State.endpoints (setReady_reports p v s).eq).trans rfl
@[simp] theorem setReady_tc (p v : Nat) (s : State) : (setReady p v s).tc = s.tc := (congrArg State.tc (setReady_reports p v s).eq).trans rfl
@[simp] theorem setReady_gen (p v : Nat) (s : State) : (setReady p v s).gen = s.gen := (congrArg State.gen (setReady_reports p v s).eq).trans rfl
@[simp] theorem setReady_rings (p v : Nat) (s : State) : (setReady p v s).rings = s.rings := (congrArg State.rings (setReady_reports p v s).eq).trans rfl
@[simp] theorem setReady_fst (p v : Nat) (s : State) : (setReady p v s).fst = s.fst := (congrArg State.fst (setReady_reports p v s).eq).trans rfl
@[simp] theorem setReady_eth (p v : Nat) (s : State) : (setReady p v s).eth = s.eth := (congrArg State.eth (setReady_reports p v s).eq).trans rfl
@[simp] theorem setReady_spi (p v : Nat) (s : State) : (setReady p v s).spi = s.spi := (congrArg State.spi (setReady_reports p v s).eq).trans rfl
@[simp] theorem setReady_uart (p v : Nat) (s : State) : (setReady p v s).uart = s.uart := (congrArg State.uart (setReady_reports p v s).eq).trans rfl
@[simp] theorem setReady_canRecover (p v : Nat) (s : State) : (setReady p v s).canRecover = s.canRecover := (congrArg State.canRecover (setReady_reports p v s).eq).trans rfl
@[simp] theorem setReady_vis (p v : Nat) (s : State) : (setReady p v s).vis = s.vis := (congrArg State.vis (setReady_reports p v s).eq).trans rfl
@[simp] theorem setReady_fus (p v : Nat) (s : State) : (setReady p v s).fus = s.fus := (congrArg State.fus (setReady_reports p v s).eq).trans rfl
@[simp] theorem setReady_gsh (p v : Nat) (s : State) : (setReady p v s).gsh = s.gsh := (congrArg State.gsh (setReady_reports p v s).eq).trans rfl
@[simp] theorem setReady_gshRun (p v : Nat) (s : State) : (setReady p v s).gshRun = s.gshRun := (congrArg State.gshRun (setReady_reports p v s).eq).trans rfl
@[simp] theorem setReady_fsh (p v : Nat) (s : State) : (setReady p v s).fsh = s.fsh := (congrArg State.fsh (setReady_reports p v s).eq).trans rfl
@[simp] theorem setReady_met (p v : Nat) (s : State) : (setReady p v s).met = s.met := (congrArg State.met (setReady_reports p v s).eq).trans rfl
@[simp] theorem setReady_mbr (p v : Nat) (s : State) : (setReady p v s).mbr = s.mbr := (congrArg State.mbr (setReady_reports p v s).eq).trans rfl
@[simp] theorem setReady_plk (p v : Nat) (s : State) : (setReady p v s).plk = s.plk := (congrArg State.plk (setReady_reports p v s).eq).trans rfl
@[simp] theorem setReady_freeCtr (p v : Nat) (s : State) : (setReady p v s).freeCtr = s.freeCtr := (congrArg State.freeCtr (setReady_reports p v s).eq).trans rfl
@[simp] theorem setReady_pending (p v : Nat) (s : State) : (setReady p v s).pending = s.pending := (congrArg State.pending (setReady_reports p v s).eq).trans rfl

/-! ### The registers an event writes -/

theorem rd_of_regs {s t : State} (h : t.regs = s.regs) (p off : Nat) : rd t p off = rd s p off := by unfold rd; rw [h]

theorem rd_post (p c v d : Nat) (a b : Bool) (s : State) (p' off' : Nat) : rd (post p c v d a b s) p' off' = rd s p' off' :=
  rd_of_regs (post_regs ..) p' off'

theorem rd_setEvt {p p' off' : Nat} (h' : off' < 0x1000) (h : ¬(p' = p ∧ off' = 0x014)) (b : Option Nat) (s : State) :
    rd (setEvt p b s) p' off' = rd s p' off' := by
  unfold setEvt; split
  · rfl
  · split
    · exact rd_wr_key (regKey_ne (by decide) h' h) _ _
    · rfl

theorem rd_latch {p p' off' : Nat} (h' : off' < 0x1000) (h : ¬(p' = p ∧ (off' = 0x020 ∨ off' = 0x024))) (c v d : Nat) (s : State) :
    rd (latch p c v d s) p' off' = rd s p' off' := by
  have h1 : ¬(p' = p ∧ off' = 0x020) := by omega
  have h2 : ¬(p' = p ∧ off' = 0x024) := by omega
  unfold latch; split
  · rfl
  · dsimp only; split
    · simp only [wrN, rd_wr_key (regKey_ne (by decide) h' h1), rd_wr_key (regKey_ne (by decide) h' h2)]
    · split
      · simp only [wrN, rd_wr_key (regKey_ne (by decide) h' h1), rd_wr_key (regKey_ne (by decide) h' h2)]
      · simp only [wrB, wrF, rd_wr_key (regKey_ne (by decide) h' h1)]

theorem rd_raiseOnly {p p' off' : Nat} (h' : off' < 0x1000) (h : ¬(p' = p ∧ (off' = 0x014 ∨ off' = 0x020 ∨ off' = 0x024)))
    (c v d : Nat) (s : State) : rd (raiseOnly p c v d s) p' off' = rd s p' off' := by
  unfold raiseOnly
  rw [rd_post, rd_latch h' (by omega), rd_setEvt h' (by omega)]

theorem rd_hwClear {p off p' off' : Nat} (ho : off < 0x1000) (h' : off' < 0x1000)
    (h : ¬(p' = p ∧ (off' = off ∨ off' = 0x014 ∨ off' = 0x020 ∨ off' = 0x024))) (i : Nat) (s : State) :
    rd (hwClear p off i s) p' off' = rd s p' off' := by
  unfold hwClear; split
  · rw [rd_raiseOnly h' (by omega)]
    exact rd_wr_key (regKey_ne ho h' (by omega)) _ _
  · rfl

/-- Raising an event changes, of all registers, only `PG_CTRL`, `PG_EVT`, `PG_FAULT` and `PG_FAULT_INFO` of its page. -/
theorem rd_raise {p p' off' : Nat} (h' : off' < 0x1000)
    (h : ¬(p' = p ∧ (off' = 0x00C ∨ off' = 0x014 ∨ off' = 0x020 ∨ off' = 0x024))) (c v d : Nat) (s : State) :
    rd (raise p c v d s) p' off' = rd s p' off' := by
  unfold raise; dsimp only; split
  · rw [rd_hwClear (by decide) h' (by omega), rd_raiseOnly h' (by omega)]
  · exact rd_raiseOnly h' (by omega) ..

/-- An event below BLOCK_FAULT leaves `PG_CTRL`; one below DEGRADED leaves the fault latch. -/
theorem rd_raise_low {p p' off' v : Nat} (h' : off' < 0x1000) (hv : v < sevDEGRADED) (h : ¬(p' = p ∧ off' = 0x014)) (c d : Nat)
    (s : State) : rd (raise p c v d s) p' off' = rd s p' off' := by
  have hb : ¬ sevBLOCK ≤ v := by simp only [sevBLOCK, sevDEGRADED] at *; omega
  unfold raise raiseOnly latch
  simp only [hb, hv, decide_false, Bool.false_and, decide_true, Bool.true_or, if_true]
  simp only [Bool.false_eq_true, if_false]
  rw [rd_post, rd_setEvt h' h]

theorem rd_refuse {p p' off' : Nat} (h' : off' < 0x1000) (h : ¬(p' = p ∧ off' = 0x014)) (q : Port) (c d : Nat) (s : State) :
    rd (Machine.refuse q p c d s) p' off' = rd s p' off' := by
  unfold Machine.refuse postTo
  rw [rd_post, rd_setEvt h' h]

/-- A counter holds the sum modulo 2^32, whether or not its wrap is reported. -/
theorem rd_incCnt {p off : Nat} (h : off < 0x1000) (hne : off ≠ 0x014) (n : Nat) (s : State) :
    rd (incCnt p off n s) p off = BitVec.ofNat 32 ((rd s p off).toNat + n) := by
  unfold incCnt; dsimp only; split
  · rw [rd_raise_low h (by decide) (by omega)]; simp [wrN]
  · simp [wrN]

theorem rd_incCnt_ne {p off p' off' : Nat} (ho : off < 0x1000) (h' : off' < 0x1000)
    (h : ¬(p' = p ∧ (off' = off ∨ off' = 0x014))) (n : Nat) (s : State) :
    rd (incCnt p off n s) p' off' = rd s p' off' := by
  unfold incCnt; dsimp only; split
  · rw [rd_raise_low h' (by decide) (by omega)]; exact rd_wr_key (regKey_ne ho h' (by omega)) _ _
  · exact rd_wr_key (regKey_ne ho h' (by omega)) _ _

theorem rd_setReady (p v : Nat) (s : State) : (rd (setReady p v s) p 0x008).toNat = if (rd s p 0x008).toNat = v then v else v % 2 ^ 32 := by
  unfold setReady; split
  · assumption
  · rw [rd_raise_low (by decide) (by decide) (by omega)]; simp [wrN]

theorem rd_setReady_ne {p p' off' : Nat} (h' : off' < 0x1000) (h : ¬(p' = p ∧ (off' = 0x008 ∨ off' = 0x014))) (v : Nat)
    (s : State) : rd (setReady p v s) p' off' = rd s p' off' := by
  unfold setReady; split
  · rfl
  · rw [rd_raise_low h' (by decide) (by omega)]; exact rd_wr_key (regKey_ne (by decide) h' (by omega)) _ _

/-! ### The records an event posts -/

theorem post_outbox (p c v d : Nat) (a b : Bool) (s : State) :
    (post p c v d a b s).outbox = s.outbox ∨ ∃ r : Posting, (post p c v d a b s).outbox = s.outbox ++ [r] ∧
      r.record = ⟨now s, p, c, v, r.toA && r.toB, false, d % 2 ^ 32⟩ := by
  unfold post; dsimp only; split
  · exact .inr ⟨_, rfl, rfl⟩
  · exact .inl rfl

@[simp] theorem setEvt_outbox (p : Nat) (b : Option Nat) (s : State) : (setEvt p b s).outbox = s.outbox := by
  unfold setEvt; split
  · rfl
  · split <;> rfl

@[simp] theorem latch_outbox (p c v d : Nat) (s : State) : (latch p c v d s).outbox = s.outbox := by
  unfold latch; split
  · rfl
  · dsimp only; split
    · exact (wr_outbox ..).trans (wr_outbox ..)
    · split
      · exact (wr_outbox ..).trans (wr_outbox ..)
      · exact wr_outbox ..

/-- An access refusal is always told to the port that made the access. -/
theorem refuse_told (q : Port) (p c d : Nat) (s : State) :
    ∃ r ∈ (Machine.refuse q p c d s).outbox, r.record.page = p ∧ r.record.code = c ∧ r.record.sev = sevINFO ∧
      r.record.detail = d % 2 ^ 32 ∧ (match q with | .a => r.toA | .b => r.toB) = true := by
  unfold Machine.refuse postTo post; dsimp only
  cases q <;> simp

end Sys2Proof.Machine
end

