-- ==== Sys2Proof/WellFormed.lean ====
section
/-!
DEFINITION. Well-formed commands: every operand lies in the range its field, its pin or its wire gives it. A meaning is defined
on ill-formed operands as well (it takes a number modulo its field's width, or does nothing); the claims that need an operand in
range name this predicate.
-/
namespace Sys2Proof

/-- A page of the register-page range (R58). -/
def wfPage (p : Nat) : Bool := decide (p < 0x100)

/-- The number fits `n` bits. -/
def wfBits (n v : Nat) : Bool := decide (v < 2 ^ n)

/-- The offset of a word of a page. -/
def wfOffset (off : Nat) : Bool := decide (off < 0x1000) && decide (off % 4 = 0)

/-- An access inside BAR0 (R58) whose data and enables fit its eight bytes. -/
def Access.wf (a : Access) : Bool := decide (a.offset < 0x4000000) && wfBits 64 a.data && wfBits 8 a.enables

/-- A hardware update names a word of the page. -/
def HwUpdate.wf : HwUpdate → Bool
  | .setEvt off _ => wfOffset off
  | .count off n => wfOffset off && wfBits 32 n
  | .clear off _ => wfOffset off

/-- An access to configuration space: a base of 64 bits, a payload of at most 256 bytes, a word of the header (R93). -/
def CfgAccess.wf : CfgAccess → Bool
  | .bar _ base => wfBits 64 base
  | .payload n => decide (n ≤ 256)
  | .read off => decide (off < 0x40) && decide (off % 4 = 0)
  | _ => true

/-- What a trim slot holds fits its registers (R160). -/
def TrimResult.wf (r : TrimResult) : Bool := wfBits 16 r.version && wfBits 32 r.crc && wfBits 16 r.repairs && wfBits 16 r.failed

/-- A measurement fits the registers that show it (R161, R650). -/
def SupReport.wf (r : SupReport) : Bool := wfBits 16 r.vinMv && wfBits 10 r.vcoreMv && wfBits 16 r.icoreCa && wfBits 16 r.moduleMw

/-- A fault that is latched: its code, a severity from DEGRADED to DEVICE_FAULT, its detail (R64). -/
def wfFault (f : Nat × Nat × Nat) : Bool := wfBits 12 f.1 && decide (3 ≤ f.2.1) && decide (f.2.1 ≤ 6) && wfBits 32 f.2.2

/-- A CAN frame: an identifier of its format, a DLC, the bytes the DLC counts at most. -/
def CanFrame.wf (f : CanFrame) : Bool :=
  wfBits (if f.ide then 29 else 11) f.id && decide (f.dlc < 16) && decide (f.data.length ≤ 64) && wfBits 64 f.stamp && wfBits 8 f.tec
    && wfBits 8 f.recv

/-- A request in DRAM of at most 64 bytes (R185). -/
def PresentedReq.wf (r : PresentedReq) : Bool := decide (r.dpa < 0x1000000000) && decide (1 ≤ r.bytes) && decide (r.bytes ≤ 64)

/-- A range of an aperture of 4 GiB: 1 to `most` bytes (R96). -/
def wfAperture (most off n : Nat) : Bool := decide (1 ≤ n) && decide (n ≤ most) && decide (off + n ≤ 2 ^ 32)

/-- The command is well formed. -/
def Instr.wf (i : Instr) : Bool :=
  match i with
  | .pd0PowerGood straps => wfBits 12 straps
  | .trimVerifyDone r => r.wf
  | .pageReady p | .paceWindowEnd p _ | .fenceComplete p | .fenceSlow p | .heldJobDeadline p | .jobCompletion p | .stall p => wfPage p
  | .regWrite _ a hw => a.wf && hw.all (·.wf)
  | .pageLock _ p | .pageEnable _ p _ | .pageQuiesce _ p _ | .pageFence _ p | .pageUnfence _ p | .evtTest _ p _ => wfPage p
  | .pgFaultClear _ p f => wfPage p && (match f with | some x => wfFault x | none => true)
  | .trigClr _ p _ | .intakeRingEnable _ p _ _ => wfPage p
  | .fmClr _ p | .fmFence _ p => wfBits 12 p
  | .regTimeout _ p off _ => wfPage p && wfOffset off
  | .lreDiscard _ n => wfBits 7 n
  | .linkUp _ speed width cfg =>
    decide (1 ≤ speed) && decide (speed ≤ 4) && decide (width = 1 ∨ width = 2 ∨ width = 4) && cfg.all CfgAccess.wf
  | .perst _ cfg | .flr _ cfg => cfg.all CfgAccess.wf
  | .apertureRead _ off n => wfAperture 4096 off n
  | .apertureWrite _ off d => wfAperture 256 off d.length
  | .crDoorbell _ _ tail => wfBits 12 tail
  | .ethTxDoorbell _ _ tail | .plkRxDoorbell _ _ tail => wfBits 10 tail
  | .domainOnDone d | .domainOffDone d => decide (1 ≤ d) && decide (d ≤ 8)
  | .supMeasurement r => (match r with | some x => x.wf | none => true)
  | .thmSample l => decide (l.length = 16)
  | .dmcTrainDone _ step => decide (step < 5)
  | .requestAdmit l d n => l.all (·.wf) && d.all (fun e => decide (e.1 ≤ 8)) && decide (n ≤ 4096)
  | .memRead a n _ => decide (1 ≤ n) && wfBits 40 (a + n - 1)
  | .memWrite a d _ => decide (1 ≤ d.length) && wfBits 40 (a + d.length - 1)
  | .resInitDone b r => b.all (fun n => decide (n < 48)) && r.all (fun n => decide (n < 48))
  | .flgSet _ f l | .flgClr _ f l => wfBits 19 f && l.all (fun e => wfBits 19 e.1)
  | .setf _ l | .clrf _ l => l.all (fun e => wfBits 19 e.1)
  | .flgRangeClr _ first n => wfBits 13 first && wfBits 14 n
  | .csiFrameStart _ _ n _ => wfBits 16 n
  | .csiLongPacket _ _ dt l _ _ => wfBits 6 dt && decide (l.length ≤ 8192)
  | .ethFrameReceive _ f _ t => decide (f.length ≤ 1518) && wfBits 64 t
  | .uartRxByte _ _ t _ _ _ => wfBits 64 t
  | .canFrameReceive _ f => f.wf
  | .errorPassive _ tec rec' => wfBits 8 tec && wfBits 8 rec'
  | .busOff _ tec rec' => wfBits 9 tec && wfBits 8 rec'
  | .dataFrameReceive f => decide (f.length = 4132)
  | .mailboxFrameReject f => (match f with | some b => decide (b.length ≤ 32) | none => true)
  | .verRd off => wfBits 16 off
  | .verWr off v => wfBits 16 off && wfBits 32 v
  | .ack k _ | .nak k _ => wfBits 32 k
  | .delivered msg _ | .abandon msg _ => wfBits 32 msg
  | .refuse msg r _ => wfBits 32 msg && wfBits 8 r
  | .supCritEval w => w.all (fun e => wfBits 8 e.1 && wfBits 8 e.2)
  | .supRestore v | .supCauseClear v => wfBits 8 v
  | .modEnRise _ mv | .flashProgMode mv => wfBits 16 mv
  | .msixTableWrite _ off _ => decide (off < 0x4000) && decide (off % 4 = 0)
  | .verLineInvalid l => decide (l.length ≤ 4096)
  | .slewDone | .tbSlew .. | .tbRateSetWrite .. | .tbSrcChange .. | .tbNowLoRead .. | .ppsEdge .. | .ppsEdgeMissed | .tbGptpKeep .. => true
  | .gptpTimeout | .holdBoundExceeded | .eventPost | .msixModerationTimeout .. | .lreReplay | .linkDown .. => true
  | .unsupportedRequest .. | .crEnable .. | .erEnable .. | .crEntryTake .. | .voteCast .. | .jointTimeout | .setOwner .. => true
  | .domain .. | .vcore .. | .unlock .. | .dmcMap .. | .fusXform .. | .fusMode .. | .metJourney .. | .consent .. | .window .. => true
  | .vcoreDone | .vcoreLost .. | .vcoreReturn | .thmPeakClr .. | .trainTimeout .. | .retrain .. | .dmcEccInit .. | .eccInitDone => true
  | .mr4Read .. | .selfRefreshEntry .. | .regulatorInterval | .mregClassWrite .. | .mregTagminWrite .. | .patrolScrub .. => true
  | .rangeClrDone | .flgGroupRead .. | .alloc .. | .free .. | .transfer .. | .reclaim .. | .reclaimDone | .cancel .. => true
  | .tentative .. | .allocGranted | .mewsFenceWrite .. | .poolOn .. | .poolOff .. | .runJobStart .. | .launch .. | .seta .. => true
  | .adda .. | .setc .. | .loop .. | .xfer .. | .pref .. | .waits .. | .sigs .. | .waitf .. | .swap .. => true
  | .mark .. | .markDeadlineMiss .. | .drain .. | .agEnd .. | .agPcOverrun .. | .runaheadIssue .. | .strmFence .. => true
  | .fenceDone .. | .semaSig .. | .semaRestore .. | .layersJobStart .. | .layerStart .. | .chainHalfArrive .. => true
  | .outputBlock .. | .layerEnd .. | .genBind | .seq | .draft | .stop | .stepPlanning | .actionDeliver | .kvLoad | .kvStore => true
  | .sampleToken | .stepEnd | .csiFrameEnd .. | .syncLost .. | .fstLookupRead .. | .fstCamFlush .. | .fstCamEnable .. => true
  | .lidarBlockClose .. | .ethTransmit .. | .linkChange .. | .canRecover .. | .spiTransactionStart .. | .spiTransactionEnd .. => true
  | .uartIdleTimeout .. | .uartTx .. | .gpioEdge .. | .visionFrameStart .. | .tileDone .. | .setup | .fusFrame => true
  | .grid | .solve | .load | .gshFree | .gshExport | .fshBind | .search | .append | .delete | .merge | .epochSwitch => true
  | .epochRetired | .metPowerUp .. | .metVinLoss | .metCycle .. | .sealChange .. | .statusBlockSend | .startJourney => true
  | .stopJourney | .readRecord | .readAudit | .readIdentity | .tbSync | .tbSyncSend | .mbrBlockReceive .. | .tileAbsent => true
  | .absentSample | .mbrReadRecord .. | .mbrReadAudit .. | .mbrReadIdentity .. | .verId .. | .verStat | .verAud .. => true
  | .verJrn .. | .verGap .. | .verify .. | .calStage .. | .calCommit | .calRead | .calSecondBoundary | .fastSample .. => true
  | .fastSampleRelease | .fineSample | .fineSampleRelease | .plkEnable .. | .plkTrainingDone .. | .trainSlow | .send .. => true
  | .dataFrameSend | .credit .. | .down .. | .retxTimeout | .laneLockLoss .. | .controlBlockTimeout | .modulePowerDown => true
  | .supProtection .. | .busRecoveryComplete .. | .uartTxByteSent .. | .vbatBrownOut | .jtagBoundaryScan .. => true
  | .runJobDeadline .. | .mergeDeadline => true

end Sys2Proof
end

