-- ==== Sys2Proof/Safety.lean ====
section
/-!
DEFINITION. The terms the claims use: canonical memory, a well-formed queue, a host access that passes the gate, what an
observer of the part sees of an event, and what it means that registers and memory stand.
-/
namespace Sys2Proof.Machine

/-- Memory is in its one canonical form: addresses rise strictly, and no listed byte is what an unlisted one is known to read as. -/
abbrev Memory.wf (m : Memory) : Bool := m.cells.wf m.known

/-- Memory and the error marks of its words are in canonical form. -/
def State.Canonical (s : State) : Prop := Memory.wf s.mem = true ∧ s.marks.wf (knownMark s.mem) = true

/-- Every waiting command is well formed. -/
def State.QueueWf (s : State) : Prop := ∀ c ∈ s.pending, c.wf = true

/-- A port may write the register at an offset of a page: its link is up, the page is assigned and on, and the port is the one
the register listens to (R670). -/
abbrev MayWrite (s : State) (q : Port) (p off : Nat) : Prop :=
  portLive s q = true ∧ assigned p = true ∧ writerOf s p off = q ∧ pageOn s p = true

/-- The state has a record on its way to a port. -/
def Told (t : State) (q : Port) (p code detail : Nat) : Prop :=
  ∃ r ∈ t.outbox, r.record.page = p ∧ r.record.code = code ∧ r.record.detail = detail ∧
    (match q with | .a => r.toA | .b => r.toB) = true

/-- Every register of every page other than those named stands. -/
def RegsStandBut (ps : List Nat) (s t : State) : Prop :=
  ∀ p off, off < 0x1000 → p ∉ ps → rd t p off = rd s p off

/-- Every byte of memory reads as before. -/
def MemStands (s t : State) : Prop := ∀ a, getByte t a = getByte s a

/-- Every byte of memory outside `n` bytes at `a` reads as before. -/
def MemStandsBut (a n : Nat) (s t : State) : Prop := ∀ x, ¬(a ≤ x ∧ x < a + n) → getByte t x = getByte s x

/-- A port's cast agrees with the open ballot of the other port: the same order and argument, in the window (R126). -/
abbrev Agrees (s : State) (q : Port) (order : Nat) : Prop :=
  MayWrite s q pgJNT (castOff q) ∧ windowOver s = false ∧ voteOrder s q = order ∧ ballotOpen s q = false ∧ jntOpen s = true ∧
    ballotOrder s q.other = order ∧ ballotArg s q.other = voteArg s q

/-- The joint-order unit shows the order as applied, and no window (R126, R129). -/
def Applied (t : State) (order : Nat) : Prop :=
  rd t pgJNT 0x0B0 = BitVec.ofNat 32 (order + 2 ^ 8) ∧ jntOpen t = false

/-- What R211 promises of the Mews: every generation lies in 1 to 8191, and no pool is larger than its indices. -/
def MewsWf (s : State) : Prop :=
  ∀ n, (poolOf s n).count ≤ 65536 ∧ ∀ i, 1 ≤ (bufOf s n i).gen ∧ (bufOf s n i).gen ≤ 8191

/-- The instruction word a stream unit stands at. -/
def insnOf (s : State) (u : Nat) : Nat := (unitOf s u).prog.get 0 (unitOf s u).pc

/-- A stream unit runs a RUN job within its deadline and stands at an instruction of the opcode (R234, R259). -/
def AtInsn (s : State) (u op : Nat) : Prop :=
  pageOn s (pgSTRM u) = true ∧ (∃ j, runningRun s u = some j ∧ pastDeadline s j.deadline = false) ∧
    (unitOf s u).pc < (unitOf s u).progLen ∧ iOp (insnOf s u) = op

/-- Only one stream unit and its page change. -/
def OnlyUnit (u : Nat) (s t : State) : Prop :=
  MemStands s t ∧ RegsStandBut [pgSTRM u] s t ∧ ∀ w, w ≠ u → unitOf t w = unitOf s w

/-- A job of a page ended: it left the running ones, and joined the finished ones with a status. -/
def Ended (s t : State) (p : Nat) (j : Job) (status : Nat) : Prop :=
  (pageJobs t p).running = (pageJobs s p).running.tail ∧
    ∃ d, (pageJobs t p).done = (pageJobs s p).done ++ [d] ∧ d.job.desc = j.desc ∧ d.status = status ∧ d.tEnd = now s

/-- A source can use the memory of a range now, and every word under a code in it is good. -/
abbrev GoodRange (s : State) (src : ReqSource) (a n : Nat) : Prop :=
  canUse s src a n = true ∧ ∀ w ∈ codedWords s a n, markOf s w = .good ∧ bankBad s w = false

/-- The place of the next record of a page's intake ring. -/
def ringSlot (s : State) (page : Nat) (c : RingSpec) : Nat := (inRing s page false).base + rdF s page c.tail 15 0 * c.entry

/-- The intake ring of a page is enabled, has room for a record in good memory, and owes no report of drops (R356, R358). -/
abbrev RingTakes (s : State) (page : Nat) (c : RingSpec) : Prop :=
  ringSpec page false = some c ∧ ringOn s page c = true ∧ (inRing s page false).lost = 0 ∧ (inRing s page false).depth ≤ 65536 ∧
    (rdF s page c.tail 15 0 + 1) % max 1 (inRing s page false).depth ≠ rdF s page c.head 15 0 % max 1 (inRing s page false).depth ∧
    GoodRange s .intake (ringSlot s page c) c.entry

/-- No aperture access of a port waits for its memory (R169, R175). -/
abbrev NoneHeld (s : State) (q : Port) : Prop := (s.port q).held = []

/-- A record of a kind has landed in the ring: its header and payload at TAIL, and TAIL past it (R356, R357). -/
def RecordLands (s t : State) (page : Nat) (c : RingSpec) (tb kind flags : Nat) (payload : List Byte) : Prop :=
  getBytes t (ringSlot s page c) (16 + payload.length) =
      leBytes 8 tb ++ leBytes 2 payload.length ++ leBytes 1 kind ++ leBytes 1 flags ++ leBytes 4 ((inRing s page false).seq % 2 ^ 32) ++
        payload ∧
    rdF t page c.tail 15 0 = (rdF s page c.tail 15 0 + 1) % max 1 (inRing s page false).depth ∧
    MemStandsBut (ringSlot s page c) c.entry s t

/-- A job is at the head of an idle page's queue, held by nothing that its page tests (R141, R144). -/
abbrev AtHead (s : State) (p : Nat) (j : Job) (rest : List Job) (addrs : List Nat) : Prop :=
  (pageJobs s p).queue = j :: rest ∧ (pageJobs s p).running = [] ∧ depsMet s p j addrs = true ∧ pastDeadline s j.deadline = false

/-- The head job of a page started and ended with a status and a detail. -/
def Finished (s t : State) (p : Nat) (j : Job) (rest : List Job) (status detail : Nat) : Prop :=
  (pageJobs t p).queue = rest ∧ (pageJobs t p).running = [] ∧
    ∃ d, (pageJobs t p).done = (pageJobs s p).done ++ [d] ∧ d.job.desc = j.desc ∧ d.status = status ∧ d.detail = detail

/-- One more job of a page finished, with a status. -/
def DoneWith (s t : State) (p : Nat) (j : Job) (status : Nat) : Prop :=
  ∃ d, (pageJobs t p).done = (pageJobs s p).done ++ [d] ∧ d.job.desc = j.desc ∧ d.status = status

/-- Only the measuring compartment changes (R11, R525). -/
def OnlyMet (s t : State) : Prop := t = { s with met := t.met, freeCtr := t.freeCtr }

/-- The next mailbox request was served (R545): it left the mailbox, and where others of the cycle still wait, its RESPONSE, with up to
96 record bytes, waits with the replies. -/
def Served (s t : State) (reply : Option (List Byte)) : Prop :=
  OnlyMet s t ∧ t.met.mailbox = s.met.mailbox.drop 1 ∧ t.met.toServe = s.met.toServe - 1 ∧
    (1 < s.met.toServe → t.met.replies = s.met.replies ++ reply.toList)

/-- The payload of a RESPONSE. -/
def responseOf (code seq result : Nat) (record : List Byte) : List Byte :=
  leBytes 1 code ++ leBytes 1 seq ++ leBytes 1 result ++ zeros 1 ++ record.take 96

/-- A request changes no stored record, parameter, key, calendar or identity (R527). -/
def RecordsStand (s t : State) : Prop :=
  t.met.journeys = s.met.journeys ∧ t.met.gapLog = s.met.gapLog ∧ t.met.audit = s.met.audit ∧ t.met.params = s.met.params ∧
    t.met.cal = s.met.cal ∧ t.met.journey = s.met.journey

/-- The link faulted (R603): not UP, nothing under way on it, ENABLE cleared, the fault latched and told to both ports. -/
def LinkLost (t : State) (reason seq : Nat) : Prop :=
  rdB t pgPLK 0x080 0 = false ∧ t.plk.unacked = [] ∧ t.plk.tx = [] ∧ t.plk.rx = [] ∧ enabled t pgPLK = false ∧
    rdB t pgPLK 0x020 16 = true ∧ Told t .a pgPLK 0x101 (reason + seq % 2 ^ 24 * 2 ^ 8) ∧
    Told t .b pgPLK 0x101 (reason + seq % 2 ^ 24 * 2 ^ 8)

end Sys2Proof.Machine
end

