-- ==== Sys2Proof/Laws/Memory.lean ====
section
/-!
SUPPORT. The laws of memory: a read after a write, what a write leaves, and that every operation on memory and on the marks of
its words keeps the canonical form.
-/
namespace Sys2Proof.Machine

/-! ### Bytes -/

/-- What an unlisted byte is known to read as, it reads as. -/
theorem unlisted_of_known (m : Memory) (a : Nat) (x : Byte) (h : m.known a = some x) : m.unlisted a = x := by
  unfold Memory.known at h; unfold Memory.unlisted
  split at h
  · rename_i ha
    rw [if_pos ha]
    split at h <;> simp_all
  · rename_i ha
    rw [if_neg ha]; exact Option.some.inj h

theorem getByte_setByte (a b : Nat) (v : Byte) (s : State) :
    getByte (setByte a v s) b = if b = a then v else getByte s b := by
  by_cases h : b = a
  · subst h
    rw [if_pos rfl]
    exact SMap.get_putKnown _ _ (unlisted_of_known s.mem b) b v s.mem.cells
  · rw [if_neg h]
    exact SMap.get_putKnown_ne _ _ h v s.mem.cells

@[simp] theorem getByte_setMark (a w : Nat) (m : Mark) (s : State) : getByte (setMark w m s) a = getByte s a := rfl

theorem getByte_of_mem {s t : State} (h : t.mem = s.mem) (a : Nat) : getByte t a = getByte s a := by unfold getByte; rw [h]

/-- Storing bytes leaves every byte outside their range, and each byte that is not enabled. -/
theorem getByte_setEnabled_out (l : List (Option Byte)) (a x : Nat) (s : State) (h : ¬(a ≤ x ∧ x < a + l.length)) :
    getByte (setEnabled a l s) x = getByte s x := by
  induction l generalizing a s with
  | nil => rfl
  | cons o t ih =>
    simp only [List.length_cons] at h
    cases o with
    | none => exact ih (a + 1) s (by omega)
    | some b =>
      refine (ih (a + 1) (setByte a b s) (by omega)).trans ?_
      rw [getByte_setByte, if_neg (by omega)]

/-- Each stored byte reads as it was written; one that is not enabled reads as before. -/
theorem getByte_setEnabled_in (l : List (Option Byte)) (a i : Nat) (s : State) (h : i < l.length) :
    getByte (setEnabled a l s) (a + i) = (l[i]).getD (getByte s (a + i)) := by
  induction l generalizing a i s with
  | nil => simp at h
  | cons o t ih =>
    cases i with
    | zero =>
      cases o with
      | none => exact getByte_setEnabled_out t (a + 1) a s (by omega)
      | some b =>
        refine (getByte_setEnabled_out t (a + 1) a (setByte a b s) (by omega)).trans ?_
        rw [getByte_setByte, if_pos rfl]; rfl
    | succ n =>
      have hn : n < t.length := by simpa using h
      have e : a + (n + 1) = a + 1 + n := by omega
      cases o with
      | none => rw [e]; exact ih (a + 1) n s hn
      | some b =>
        rw [e]
        refine (ih (a + 1) n (setByte a b s) hn).trans ?_
        rw [getByte_setByte, if_neg (by omega)]; rfl

/-! ### The canonical form -/

theorem canonical_of {s t : State} (h : t.mem = s.mem) (k : t.marks = s.marks) (c : s.Canonical) : t.Canonical := by
  unfold State.Canonical at *; rw [h, k]; exact c

theorem setByte_canonical (a : Nat) (b : Byte) {s : State} (c : s.Canonical) : (setByte a b s).Canonical :=
  ⟨SMap.wf_putKnown s.mem.known a b c.1, c.2⟩

theorem setMark_canonical (w : Nat) (m : Mark) {s : State} (c : s.Canonical) : (setMark w m s).Canonical :=
  ⟨c.1, SMap.wf_putKnown (knownMark s.mem) w m c.2⟩

theorem setEnabled_canonical (l : List (Option Byte)) (a : Nat) {s : State} (c : s.Canonical) : (setEnabled a l s).Canonical := by
  induction l generalizing a s with
  | nil => exact c
  | cons o t ih =>
    cases o with
    | none => simp only [setEnabled]; exact ih (a + 1) c
    | some b => simp only [setEnabled]; exact ih (a + 1) (setByte_canonical a b c)

theorem setBytes_canonical (a : Nat) (l : List Byte) {s : State} (c : s.Canonical) : (setBytes a l s).Canonical :=
  setEnabled_canonical _ a c

theorem poisonWord_canonical (w : Nat) {s : State} (c : s.Canonical) : (poisonWord w s).Canonical :=
  setMark_canonical _ _ (setBytes_canonical _ _ c)

theorem wr_canonical (p off : Nat) (v : Word) {s : State} (c : s.Canonical) : (wr p off v s).Canonical :=
  canonical_of (wr_mem ..) (wr_marks ..) c

theorem wrB_canonical (p off i : Nat) (b : Bool) {s : State} (c : s.Canonical) : (wrB p off i b s).Canonical :=
  wr_canonical _ _ _ c

theorem incCnt64_canonical (p off n : Nat) {s : State} (c : s.Canonical) : (incCnt64 p off n s).Canonical :=
  canonical_of (incCnt64_mem ..) (incCnt64_marks ..) c

theorem lastErr_canonical (g : WordPage) (u : Bool) {s : State} (c : s.Canonical) : (lastErr g u s).Canonical :=
  wr_canonical _ _ _ c

theorem raise_canonical (p k v d : Nat) {s : State} (c : s.Canonical) : (raise p k v d s).Canonical :=
  canonical_of (raise_mem ..) (raise_marks ..) c

theorem incCnt_canonical (p off n : Nat) {s : State} (c : s.Canonical) : (incCnt p off n s).Canonical :=
  canonical_of (incCnt_mem ..) (incCnt_marks ..) c

theorem correctWord_canonical (w : Nat) {s : State} (c : s.Canonical) : (correctWord w s).Canonical :=
  raise_canonical _ _ _ _ (lastErr_canonical _ _ (incCnt_canonical _ _ _ (setMark_canonical _ _ c)))

theorem condemnWord_canonical (w : Nat) {s : State} (c : s.Canonical) : (condemnWord w s).Canonical :=
  lastErr_canonical _ _ (incCnt_canonical _ _ _ (incCnt_canonical _ _ _ (poisonWord_canonical _ c)))

theorem readWord_canonical (w : Nat) {s : State} (c : s.Canonical) : (readWord w s).2.Canonical := by
  unfold readWord; split
  · exact c
  · split
    · exact c
    · exact correctWord_canonical w c
    · exact raise_canonical _ _ _ _ (condemnWord_canonical w c)
    · exact c

theorem readWords_canonical (l : List Nat) {s : State} (c : s.Canonical) : (readWords l s).2.Canonical := by
  induction l generalizing s with
  | nil => exact c
  | cons w t ih => simp only [readWords]; exact ih (readWord_canonical w c)

theorem countCtl_canonical (k n : Nat) {s : State} (c : s.Canonical) : (countCtl k n s).Canonical := by
  unfold countCtl
  apply incCnt64_canonical
  apply wrB_canonical
  exact ⟨c.1, c.2⟩

/-- What every step of a fold keeps, the fold keeps. -/
theorem foldl_keeps {α β : Type} (P : β → Prop) (f : β → α → β) (h : ∀ b a, P b → P (f b a)) (l : List α) {b : β} (hb : P b) :
    P (l.foldl f b) := by
  induction l generalizing b with
  | nil => exact hb
  | cons a t ih => exact ih (h b a hb)

theorem countDram_canonical (a n : Nat) {s : State} (c : s.Canonical) : (countDram a n s).Canonical := by
  unfold countDram; split
  · exact foldl_keeps _ _ (fun _ _ h => countCtl_canonical _ _ h) _ c
  · exact c

/-- Reading memory keeps the canonical form. -/
theorem readMem_canonical (a n : Nat) {s : State} (c : s.Canonical) : (readMem a n s).2.2.Canonical :=
  readWords_canonical _ (countDram_canonical a n c)

theorem prepWord_canonical (w : Nat) (l : List (Option Byte)) {s : State} (c : s.Canonical) : (prepWord w l s).2.Canonical := by
  unfold prepWord; dsimp only; split
  · exact c
  · split
    · exact raise_canonical _ _ _ _ c
    · split
      · exact setMark_canonical _ _ c
      · split
        · exact c
        · exact correctWord_canonical w c
        · exact raise_canonical _ _ _ _ (condemnWord_canonical w c)
        · exact raise_canonical _ _ _ _ c

theorem writeWords_canonical (job : Bool) (a : Nat) (bs : List (Option Byte)) (l : List Nat) {s : State} (c : s.Canonical) :
    (writeWords job a bs l s).2.Canonical := by
  induction l generalizing s with
  | nil => exact c
  | cons w t ih =>
    unfold writeWords; dsimp only; split
    · exact ih (setEnabled_canonical _ _ (prepWord_canonical _ _ c))
    · split
      · exact prepWord_canonical _ _ c
      · exact ih (prepWord_canonical _ _ c)

/-- Writing memory keeps the canonical form. -/
theorem writeEnabled_canonical (job : Bool) (a : Nat) (bs : List (Option Byte)) {s : State} (c : s.Canonical) :
    (writeEnabled job a bs s).2.Canonical := by
  unfold writeEnabled; dsimp only; split
  · exact setEnabled_canonical _ _ (countDram_canonical _ _ c)
  · exact writeWords_canonical _ _ _ _ (setEnabled_canonical _ _ (countDram_canonical _ _ c))

theorem writeMem_canonical (a : Nat) (bs : List Byte) {s : State} (c : s.Canonical) : (writeMem a bs s).2.Canonical :=
  writeEnabled_canonical true a _ c

theorem writeFlag_canonical (f : Nat) (v : Bool) {s : State} (c : s.Canonical) : (writeFlag f v s).2.Canonical := by
  unfold writeFlag; dsimp only; split
  · exact setByte_canonical _ _ (prepWord_canonical _ _ c)
  · exact incCnt_canonical _ _ _ (raise_canonical _ _ _ _ (prepWord_canonical _ _ c))

/-- A fill of a range leaves the fill of every address outside it. -/
theorem fillIn_fillRange (lo hi : Nat) (v : Fill) (a : Nat) (h : ¬(lo ≤ a ∧ a < hi)) (l : List FillRange) :
    fillIn a (⟨lo, hi, v⟩ :: l.filter (fun r => !(decide (lo ≤ r.lo) && decide (r.hi ≤ hi)))) = fillIn a l := by
  simp only [fillIn, if_neg h]
  induction l with
  | nil => rfl
  | cons r t ih =>
    by_cases hr : (decide (lo ≤ r.lo) && decide (r.hi ≤ hi)) = true
    · have hr' : lo ≤ r.lo ∧ r.hi ≤ hi := by simpa using hr
      have ha : ¬(r.lo ≤ a ∧ a < r.hi) := by omega
      rw [List.filter_cons_of_neg (by rw [hr]; decide), ih, fillIn, if_neg ha]
    · rw [List.filter_cons_of_pos (by rw [Bool.not_eq_true] at hr; rw [hr]; rfl), fillIn, fillIn, ih]

/-- A map that forgets a range is canonical for any reading of unlisted keys that agrees outside the range. -/
theorem wf_dropRange {α : Type} [DecidableEq α] {d d' : Nat → Option α} {m : SMap α} (hit : Nat → Bool)
    (h : ∀ a, hit a = false → d' a = d a) (c : m.wf d = true) : (m.dropKeys hit).wf d' = true := by
  refine SMap.wfFrom_congr (fun e he => h e.1 ?_) (SMap.wf_dropKeys d hit c)
  have := (List.mem_filter.mp he).2
  simpa using this

/-- A fill keeps the canonical form, whatever it makes the range read as. -/
theorem fillRange_canonical (lo hi : Nat) (v : Fill) {s : State} (c : s.Canonical) : (fillRange lo hi v s).Canonical := by
  have out (a : Nat) (h : (decide (lo ≤ a) && decide (a < hi)) = false) : ¬(lo ≤ a ∧ a < hi) := by simpa using h
  unfold State.Canonical fillRange Memory.wf; dsimp only
  constructor
  · refine wf_dropRange (d := s.mem.known) _ (fun a h => ?_) c.1
    simp only [Memory.known, Memory.fillOf]
    rw [fillIn_fillRange lo hi v a (out a h)]
  · refine wf_dropRange (d := knownMark s.mem) _ (fun a h => ?_) c.2
    simp only [knownMark, Memory.fillOf]
    rw [fillIn_fillRange lo hi v a (out a h)]

theorem fillRegions_canonical (f : Nat → Bool) (v : Fill) {s : State} (c : s.Canonical) : (fillRegions f v s).Canonical :=
  foldl_keeps _ _ (fun _ _ h => fillRange_canonical _ _ v h) _ c

theorem zeroRegion_canonical (r : Nat) {s : State} (c : s.Canonical) : (zeroRegion r s).Canonical :=
  foldl_keeps _ _ (fun _ _ h => countCtl_canonical _ _ h) _ (fillRegions_canonical _ _ c)

theorem zeroResident_canonical {s : State} (c : s.Canonical) : (zeroResident s).Canonical := by
  unfold State.Canonical zeroResident Memory.wf; dsimp only
  exact ⟨wf_dropRange (d := s.mem.known) _ (fun _ _ => rfl) c.1, wf_dropRange (d := knownMark s.mem) _ (fun _ _ => rfl) c.2⟩

theorem upsetAt_canonical (a : Nat) (u : Upset) {s : State} (c : s.Canonical) : (upsetAt a u s).Canonical := by
  unfold upsetAt
  repeat' split
  · exact c
  · exact incCnt_canonical _ _ _ c
  · exact c
  · exact setMark_canonical _ _ c
  · exact canonical_of rfl rfl (setByte_canonical a _ c)

/-- Undefined contents keep the canonical form, whatever the free values are. -/
theorem scrambleDram_canonical (f : Nat → Bool) {s : State} (c : s.Canonical) : (scrambleDram f s).Canonical :=
  canonical_of rfl rfl (fillRegions_canonical f (.free s.freeCtr) c)

/-- The machine at reset. -/
theorem reset_canonical : State.reset.Canonical := ⟨rfl, rfl⟩

end Sys2Proof.Machine
end

