-- ==== Sys2Proof/Certificates/Slice0/Obligations.lean ====
section
/-!
DEFINITION. The statements for the provers: what the commands do, family by family, and what every step keeps.
-/

open Sys2Proof Sys2Proof.Machine

/-! ## The time base (chapter 2) -/

/-- An idle step is one TCXO tick (the model's choice, log entry 1): the increment is added, and the increment stays the one of R45,
40 ns at `TB_RATE_NOW` plus the slew's rate, rounded to 2^-32 ns. R44: no command of the time base steps it; each changes at
most the increment. -/
def Obligations.TimeMovesOnlyByTicks : Prop :=
  (
    ∀ s : State, s.pending = [] → s.pd0 = true → s.tb.inc = tickInc (rateNow s + slewRate s) →
      ∃ t, step s = .next t ∧ t.tb.count = s.tb.count + s.tb.inc ∧ t.tb.slewRest = s.tb.slewRest - slewGain s ∧
        t.tb.inc = tickInc (rateNow t + slewRate t) ∧ rateNow t = rateNow s) ∧
  (
    ∀ (q : Port) (w : Word) (src : Fin 4) (b : Bool) (p n : Nat) (c : Instr) (s t : State),
      c ∈ [Instr.tbSlew q w, .slewDone, .tbRateSetWrite q w, .tbSrcChange q src, .tbNowLoRead q b, .ppsEdge b, .ppsEdgeMissed,
        .tbGptpKeep q, .gptpTimeout, .holdBoundExceeded, .paceWindowEnd p n] →
      exec c s = .next t → t.tb.count = s.tb.count ∧ MemStands s t ∧ t.jobs = s.jobs ∧ t.met = s.met)

/-- R55: a write of `TB_SLEW` the part accepts starts a slew of that many nanoseconds, sets SLEWING and
`TB_SLEW_LEFT`, and its ±100 ppm join the increment. SLEW_DONE, once the whole of it is gained or lost, tells the owner the amount. R46, R54: in FREE
a write of `TB_RATE_SET` is clamped to ±200,000 ppb, stored and applied at once. A change of SRC leaves `TB_RATE_NOW`, but for a
change to FREE, which applies `TB_RATE_SET`. R56: each port has its own shadow of the high half of the time base, which its read
of `TB_NOW_LO` latches. -/
def Obligations.RatesSlewsAndShadows : Prop :=
  (
    (∀ (q : Port) (w : Word) (s : State), MayWrite s q pgTB 0x098 → s.tb.slewRest = 0 → w ≠ 0 →
      (toSigned 32 w.toNat).natAbs ≤ 1000000000 →
      ∃ t, exec (.tbSlew q w) s = .next t ∧ t.tb.slewReq = toSigned 32 w.toNat ∧
        t.tb.slewRest = (toSigned 32 w.toNat).natAbs * 2 ^ 32 ∧ rd t pgTB 0x09C = w ∧ rdB t pgTB 0x08C 3 = true ∧
        t.tb.inc = tickInc (rateNow s + (if toSigned 32 w.toNat < 0 then -100000 else 100000))) ∧
    (∀ s : State, s.pd0 = true → s.tb.slewReq ≠ 0 → s.tb.slewRest = 0 →
      ∃ t, exec .slewDone s = .next t ∧ t.tb.slewReq = 0 ∧
        Told t (owner s pgTB) pgTB 0x105 (ofSigned 32 s.tb.slewReq % 2 ^ 32))) ∧
  (
    (∀ (q : Port) (w : Word) (s : State), MayWrite s q pgTB 0x090 → tbSrc s = 0 →
      ∃ t, exec (.tbRateSetWrite q w) s = .next t ∧
        rateNow t = clampI (-200000) 200000 (toSigned 32 w.toNat) ∧ rd t pgTB 0x090 = rd t pgTB 0x094 ∧
        t.tb.inc = tickInc (rateNow t + slewRate s)) ∧
    (∀ (q : Port) (src : Fin 4) (s : State), MayWrite s q pgTB 0x088 → src.val ≠ 3 → src.val ≠ tbSrc s →
      ∃ t, exec (.tbSrcChange q src) s = .next t ∧ tbSrc t = src.val ∧ tbLocked t = false ∧ tbHoldover t = false ∧
        (src.val ≠ 0 → rateNow t = rateNow s ∧ t.tb.inc = s.tb.inc) ∧
        (src.val = 0 → rd t pgTB 0x094 = rd s pgTB 0x090))) ∧
  (
    ∀ (q : Port) (wide : Bool) (s : State), portLive s q = true →
      ∃ t, exec (.tbNowLoRead q wide) s = .next t ∧ (t.port q).readData = now s % (if wide then 2 ^ 64 else 2 ^ 32) ∧
        shadow t q = BitVec.ofNat 32 (now s / 2 ^ 32) ∧ shadow t q.other = shadow s q.other ∧ t.regs = s.regs)

/-- R50, R53: a keep-alive in GPTP mode restarts the time-out and sets LOCKED; out of holdover it also ends it, with `TB_RATE_NOW`
taking `TB_RATE_SET`. Without one in time the part enters holdover and records when. R47 to R49: in PPS mode a locked time base
takes a selected edge within its window: its error corrects the rate by a quarter, clamped; an edge that misses its window
counts, and after the limit of misses the part enters holdover. R51, R39, R40: the holdover bound is reported once, as a latched
fault; a pace window's end shows the rate, valid, with the next sequence number. -/
def Obligations.ReferencesAndHoldover : Prop :=
  (
    (∀ (q : Port) (s : State), MayWrite s q pgTB 0x0C8 → tbSrc s = 2 →
      ∃ t, exec (.tbGptpKeep q) s = .next t ∧ t.tb.keepAt = now s ∧ tbLocked t = true ∧
        (tbLocked s = false → tbHoldover s = true → tbHoldover t = false ∧ rd t pgTB 0x094 = rd s pgTB 0x090)) ∧
    (∀ s : State, s.pd0 = true → tbSrc s = 2 → tbLocked s = true → s.tb.keepAt + gptpTimeoutNs s ≤ now s →
      ∃ t, exec .gptpTimeout s = .next t ∧ tbLocked t = false ∧ tbHoldover t = true ∧ holdStart t = now s % 2 ^ 64 ∧
        rateNow t = rateNow s)) ∧
  (
    (∀ (rising : Bool) (s : State), s.pd0 = true → tbSrc s = 1 → tbLocked s = true → rising ≠ rdB s pgTB 0x088 2 →
      let n := nearestEdge (ppsLast s) (now s)
      let d : Int := (now s : Int) - (ppsLast s + n * 1000000000 : Nat)
      d.natAbs ≤ ppsWindow s →
      ∃ t, exec (.ppsEdge rising) s = .next t ∧ ppsLast t = now s % 2 ^ 64 ∧ t.tb.missRun = 0 ∧
        rateNow t = clampI (-200000) 200000 (rateNow s - truncDiv (truncDiv d n) 4)) ∧
    (∀ s : State, s.pd0 = true → tbSrc s = 1 → s.tb.edgeSeen = true → ppsOverdue s = true →
      ∃ t, exec .ppsEdgeMissed s = .next t ∧ t.tb.missRun = s.tb.missRun + 1 ∧
        rd t pgTB 0x0B0 = BitVec.ofNat 32 ((rd s pgTB 0x0B0).toNat + 1) ∧
        (missLimit s ≤ s.tb.missRun + 1 → tbLocked s = true → tbLocked t = false ∧ tbHoldover t = true))) ∧
  (
    (∀ s : State, s.pd0 = true → tbHoldover s = true → s.tb.boundTold = false → boundOver s = true →
      ∃ t, exec .holdBoundExceeded s = .next t ∧ t.tb.boundTold = true ∧ rdB t pgTB 0x020 16 = true ∧
        ∃ u, exec .holdBoundExceeded t = .next u ∧ u = t) ∧
    (∀ (p h : Nat) (s : State), pageOn s p = true → paceFrom s p + paceWindow ≤ now s →
      ∃ t, exec (.paceWindowEnd p h) s = .next t ∧ rdF t p 0x02C 19 0 = min (16000 * h / paceNorm p) 0xFFFFF ∧
        rdB t p 0x02C 20 = true ∧ rdF t p 0x02C 27 24 = (rdF s p 0x02C 27 24 + 1) % 16 ∧ RegsStandBut [p] s t))

/-! ## Register pages (chapters 3 and 21) -/

/-- R67 to R71, R74: a 32-bit write of a page header lands field by field. An EVT bit written 1 clears unless hardware sets it in
the same instant; a counter takes the written value plus the increments of that instant, where the page counts jobs (R201, R221,
R287, R355: the others read 0); a CFG field takes the value; an STS word stands, with no event. -/
def Obligations.HeaderWritesLandByFieldType : Prop :=
  ∀ (q : Port) (p : Nat) (w : Word) (s : State), p < 0x100 →
    (∀ m : Word, MayWrite s q p 0x014 →
      ∃ t, exec (.regWrite q ⟨p * 0x1000 + 0x014, 32, 0xF, true, w.toNat⟩ [.setEvt 0x014 m]) s = .next t ∧
        rd t p 0x014 = (rd s p 0x014 &&& ~~~(w &&& 0xFFFF1FFF)) ||| (m &&& 0xFFFF1FFF)) ∧
    (∀ n k, MayWrite s q p 0x030 → kindOf p = some k →
      ∃ t, exec (.regWrite q ⟨p * 0x1000 + 0x030, 32, 0xF, true, w.toNat⟩ [.count 0x030 n]) s = .next t ∧
        (noJobCounts k = false → rd t p 0x030 = w + BitVec.ofNat 32 n) ∧
        (noJobCounts k = true → rd s p 0x030 = 0 → n = 0 → rd t p 0x030 = 0)) ∧
    (MayWrite s q p 0x018 →
      ∃ t, exec (.regWrite q ⟨p * 0x1000 + 0x018, 32, 0xF, true, w.toNat⟩ []) s = .next t ∧
        rd t p 0x018 = (rd s p 0x018 &&& 0xE000) ||| (w &&& 0xFFFF1FFF)) ∧
    (∀ off ∈ [0x000, 0x004, 0x008, 0x010, 0x024, 0x028, 0x02C], MayWrite s q p off →
      ∃ t, exec (.regWrite q ⟨p * 0x1000 + off, 32, 0xF, true, w.toNat⟩ []) s = .next t ∧
        RegsStandBut [] s t ∧ t.outbox = s.outbox ∧ MemStands s t)

/-- R59, R75: a register of a page other than TB and FLG reads the same through either port, and a 32-bit read returns it whole.
R77: a write from a port that does not own the page is dropped whole and raises NOT_OWNER to that port: nothing of the part
changes but `PG_EVT` of the page. So do the command rows that are writes of one register. -/
def Obligations.AccessGate : Prop :=
  (
    ∀ (q : Port) (p off : Nat) (s : State), p < 0x100 → off < 0x1000 → off % 4 = 0 → portLive s q = true → p ≠ pgTB → p ≠ pgFLG →
      ∃ t, exec (.regWrite q ⟨p * 0x1000 + off, 32, 0xF, false, 0⟩ []) s = .next t ∧
        (t.port q).readData = (regWord s q p off).toNat ∧ regWord s q.other p off = regWord s q p off ∧ t.regs = s.regs) ∧
  (
    (∀ (q : Port) (p off : Nat) (w : Word) (s : State), p < 0x100 → off < 0x1000 → off % 4 = 0 → portLive s q = true →
      assigned p = true → writerOf s p off ≠ q →
      ∃ t, exec (.regWrite q ⟨p * 0x1000 + off, 32, 0xF, true, w.toNat⟩ []) s = .next t ∧
        Told t q p cNOT_OWNER ((off + q.num * 2 ^ 20) % 2 ^ 32) ∧ MemStands s t ∧ t.jobs = s.jobs ∧
        (∀ p' off', off' < 0x1000 → ¬(p' = p ∧ off' = 0x014) → rd t p' off' = rd s p' off')) ∧
    (∀ (q : Port) (p : Nat) (s : State) (c : Instr) (off : Nat), assigned p = true → portLive s q = true →
      (c, off) ∈ [(Instr.pageLock q p, 0x03C), (.evtTest q p 1, 0x01C), (.pgFaultClear q p none, 0x020), (.pageEnable q p true, 0x00C),
        (.pageQuiesce q p true, 0x00C), (.pageFence q p, 0x00C), (.pageUnfence q p, 0x00C)] →
      writerOf s p off ≠ q →
      ∃ t, exec c s = .next t ∧ Told t q p cNOT_OWNER ((off + q.num * 2 ^ 20) % 2 ^ 32) ∧
        (∀ p' off', off' < 0x1000 → ¬(p' = p ∧ off' = 0x014) → rd t p' off' = rd s p' off')))

/-- R73, R66: PAGE_LOCK sets the lock of an unlocked page; on a locked page the write is dropped with LOCKED, and so is a write of
another LCK field. R63: a write of 1 to a `PG_EVT_SET` bit sets the `PG_EVT` bit and posts one EVT_TEST to the owner, latching
no fault and changing no other register. R64, R622: a write of 1 to VALID clears the latched fault; a fault of the same instant
is latched instead (R67). FM_CLR does the first through the fault mirror; FM_FENCE writes FENCE of a page. -/
def Obligations.LocksEventTestsAndFaultClears : Prop :=
  (
    ∀ (q : Port) (p : Nat) (s : State), p < 0x100 →
      (MayWrite s q p 0x03C → ∃ t, exec (.pageLock q p) s = .next t ∧ locked t p = true ∧
        (locked s p = true → Told t q p cLOCKED (0x03C + q.num * 2 ^ 20))) ∧
      (∀ w : Word, MayWrite s q p 0x038 → locked s p = true →
        ∃ t, exec (.regWrite q ⟨p * 0x1000 + 0x038, 32, 0xF, true, w.toNat⟩ []) s = .next t ∧
          rd t p 0x038 = rd s p 0x038 ∧ Told t q p cLOCKED (0x038 + q.num * 2 ^ 20))) ∧
  (
    ∀ (q : Port) (p n : Nat) (s : State), MayWrite s q p 0x01C → (n ≤ 12 ∨ 16 ≤ n ∧ n < 32) →
      ∃ t, exec (.evtTest q p (BitVec.ofNat 32 (2 ^ n))) s = .next t ∧ rdB t p 0x014 n = true ∧
        Told t q p cEVT_TEST n ∧ t.outbox.length = s.outbox.length + 1 ∧
        (∀ p' off', off' < 0x1000 → ¬(p' = p ∧ off' = 0x014) → rd t p' off' = rd s p' off')) ∧
  (
    (∀ (q : Port) (p : Nat) (s : State), MayWrite s q p 0x020 →
      (∃ t, exec (.pgFaultClear q p none) s = .next t ∧ rdB t p 0x020 16 = false ∧ rd t p 0x024 = 0 ∧
        rdB t p 0x020 17 = rdB s p 0x020 17 ∧ t.timeouts.get false p = false) ∧
      (∀ code sev detail, code < 0x1000 → 3 ≤ sev → sev ≤ 6 →
        ∃ t, exec (.pgFaultClear q p (some (code, sev, detail))) s = .next t ∧ rdB t p 0x020 16 = true ∧
          rdF t p 0x020 11 0 = code ∧ rdF t p 0x020 15 12 = sev ∧ rd t p 0x024 = BitVec.ofNat 32 detail)) ∧
    (∀ (q : Port) (p : Nat) (s : State), MayWrite s q pgFM 0x0E0 → assigned p = true →
      ∃ t, exec (.fmClr q p) s = .next t ∧ rdB t p 0x020 16 = false ∧ rd t p 0x024 = 0 ∧ t.timeouts.get false p = false) ∧
    (∀ (q : Port) (p : Nat) (s : State), MayWrite s q pgFM 0x0E4 → pageOn s p = true → fenceable p = true →
      ∃ t, exec (.fmFence q p) s = .next t ∧ fenceBit t p = true))

/-- R139, R141: PAGE_READY makes a page of a domain that is on ready; a write of ENABLE or QUIESCE leaves the field as written.
R629, R631, R632: a fence on a page that runs jobs empties its queue and ends its jobs with ABORT_FENCED; FENCED follows once
their records are written, and takes READY; a write of 0 then releases the fence. R631, R80, R621, R628: a fence not complete
after 1 ms and a register access that times out are BLOCK_FAULTs: told to both ports, the page's ENABLE cleared; a read that
timed out returns all ones. A stall is a latched fault and sets STALLED. -/
def Obligations.PagesReadyFenceAndStall : Prop :=
  (
    (∀ (p : Nat) (s : State), readyByRow p = true → pageOn s p = true → ready s p = false → fenceBit s p = false →
      ∃ t, exec (.pageReady p) s = .next t ∧ ready t p = true ∧ RegsStandBut [p] s t ∧ MemStands s t) ∧
    (∀ (q : Port) (p : Nat) (on : Bool) (s : State), MayWrite s q p 0x00C →
      (∃ t, exec (.pageEnable q p on) s = .next t ∧ enabled t p = on) ∧
      (∃ t, exec (.pageQuiesce q p on) s = .next t ∧ quiesce t p = on))) ∧
  (
    (∀ (q : Port) (p : Nat) (s : State), MayWrite s q p 0x00C → fenceable p = true → fenceBit s p = false →
      ∃ t, exec (.pageFence q p) s = .next t ∧ fenceBit t p = true ∧ (fenceOf t p).since = now s ∧
        (runsJobs p = true → (pageJobs t p).running = [] ∧ (pageJobs t p).queue = [])) ∧
    (∀ (p : Nat) (s : State), pageOn s p = true → fenceBit s p = true → fenced s p = false → (pageJobs s p).done = [] →
      ∃ t, exec (.fenceComplete p) s = .next t ∧
        (if (fenceOf s p).release then fenceBit t p = false ∧ fenced t p = false else fenced t p = true ∧ ready t p = false)) ∧
    (∀ (q : Port) (p : Nat) (s : State), MayWrite s q p 0x00C → fenceable p = true → fenceBit s p = true →
      ∃ t, exec (.pageUnfence q p) s = .next t ∧
        (if fenced s p then fenceBit t p = false ∧ fenced t p = false else fenceBit t p = true ∧ (fenceOf t p).release = true))) ∧
  (
    (∀ (p : Nat) (s : State), pageOn s p = true → fenceBit s p = true → (fenceOf s p).slow = false → fenced s p = false →
      (fenceOf s p).since + 1000000 ≤ now s →
      ∃ t, exec (.fenceSlow p) s = .next t ∧ (fenceOf t p).slow = true ∧ enabled t p = false ∧
        Told t .a p cFENCE_SLOW ((pageJobs s p).done.length % 2 ^ 32) ∧ Told t .b p cFENCE_SLOW ((pageJobs s p).done.length % 2 ^ 32)) ∧
    (∀ (q : Port) (p off : Nat) (write : Bool) (s : State), portLive s q = true → pageOn s p = true → off < 4096 →
      ∃ t, exec (.regTimeout q p off write) s = .next t ∧ t.timeouts.get false p = true ∧ enabled t p = false ∧
        (write = false → (t.port q).readData = 0xFFFFFFFF) ∧
        Told t .a p cREG_TIMEOUT (off + q.num * 2 ^ 20 + b2n write * 2 ^ 21) ∧
        Told t .b p cREG_TIMEOUT (off + q.num * 2 ^ 20 + b2n write * 2 ^ 21)) ∧
    (∀ (p : Nat) (s : State), runsJobs p = true → pageOn s p = true → (pageJobs s p).running ≠ [] → rdB s p 0x010 2 = false →
      stallMs s p ≤ msSince s (pageJobs s p).progress →
      ∃ t, exec (.stall p) s = .next t ∧ rdB t p 0x010 2 = true ∧ rdB t p 0x020 16 = true ∧ t.jobs = s.jobs))

/-! ## Two hosts (chapter 4) and the last-resort store (chapter 21) -/

/-- R109: a doorbell write is never rejected for being busy; a later TAIL replaces an earlier one; a TAIL not below the ring depth
raises CMD_REJ and leaves the doorbell. Frame: no byte of memory, no job and no other page changes. -/
def Obligations.DoorbellTakesTailBelowDepth : Prop :=
  ∀ (q : Port) (n : Fin 16) (tail : Nat) (s : State), tail < 4096 → MayWrite s q (pgHP q) (crOff n.val 0x10) →
    let depth := if crEnabled s q n.val then (cmdRing s q n.val).depth else crDepth s q n.val
    ∃ t, exec (.crDoorbell q n tail) s = .next t ∧ MemStands s t ∧ t.jobs = s.jobs ∧ RegsStandBut [pgHP q] s t ∧
      (tail < depth → (cmdRing t q n.val).tail = tail ∧ t.regs = s.regs) ∧
      (depth ≤ tail → cmdRing t q n.val = cmdRing s q n.val ∧
        Told t q (pgHP q) cCMD_REJ (crOff n.val 0x10 + q.num * 2 ^ 20))

/-- R113: a ring that becomes enabled latches its base, depth and target and starts at 0; writes of them while it is enabled change
nothing latched. Event rings do the same. R107, R108: a port whose turn is at an enabled ring takes its entry at HEAD. A NOP
alone advances HEAD. A JOB is copied into its target's queue, and HEAD advances past it. R144, R87: a held job whose deadline
passes leaves its queue with ABORT_DEADLINE; a finished job's completion record is written at its address, 32 bytes in one
write, and the job leaves its page. -/
def Obligations.RingsRunJobs : Prop :=
  (
    (∀ (q : Port) (n : Fin 16) (s : State), MayWrite s q (pgHP q) (crOff n.val 0x08) → crEnabled s q n.val = false →
      isData s (crBase s q n.val) (64 * crDepth s q n.val) = true →
      ∃ t, exec (.crEnable q n) s = .next t ∧ crEnabled t q n.val = true ∧ (cmdRing t q n.val).base = crBase s q n.val ∧
        (cmdRing t q n.val).depth = crDepth s q n.val ∧
        (cmdRing t q n.val).target = rdF s (pgHP q) (crOff n.val 0x08) 19 8 ∧ (cmdRing t q n.val).tail = 0 ∧ crHead t q n.val = 0) ∧
    (∀ (q : Port) (n : Fin 16) (s : State), MayWrite s q (pgHP q) (crOff n.val 0x08) → crEnabled s q n.val = true →
      ∃ t, exec (.crEnable q n) s = .next t ∧ cmdRing t q n.val = cmdRing s q n.val) ∧
    (∀ (q : Port) (m : Fin 4) (s : State), MayWrite s q (pgHP q) (erOff m.val 0x08) → erEnabled s q m.val = false →
      isData s (erBase s q m.val) (16 * erDepth s q m.val) = true →
      ∃ t, exec (.erEnable q m) s = .next t ∧ erEnabled t q m.val = true ∧ (evtRing t q m.val).base = erBase s q m.val ∧
        (evtRing t q m.val).depth = erDepth s q m.val ∧ rd t (pgHP q) (erOff m.val 0x0C) = 0 ∧
        rd t (pgHP q) (erOff m.val 0x10) = 0)) ∧
  (
    ∀ (q : Port) (s : State) (n : Nat), n < 16 → domOn s 1 = true → (s.port q).nextRing = n → crEnabled s q n = true →
      crHead s q n ≠ (cmdRing s q n).tail → 0 < (cmdRing s q n).depth → (cmdRing s q n).depth ≤ 4096 →
      let a := (cmdRing s q n).base + 64 * crHead s q n
      let g := readAs (srcPort q) a 64 s
      NoneHeld s q → isData s a 64 = true → canUse s (srcPort q) a 64 = true → g.2.1 = none → entryReason s g.1 = 0 →
      (leAt g.1 0 2 = 0 →
        ∃ t, exec (.crEntryTake q) s = .next t ∧ crHead t q n = (crHead s q n + 1) % (cmdRing s q n).depth ∧ t.jobs = s.jobs ∧
          MemStands s t) ∧
      (let d := readAs (srcPort q) (leAt g.1 8 8) (leAt g.1 2 2) g.2.2
       let j : Job := ⟨d.1, q, n, false, now s⟩
       let p := targetOf (cmdRing s q n).target j.engine
       leAt g.1 0 2 = 1 → canUse s (srcPort q) (leAt g.1 8 8) (leAt g.1 2 2) = true → d.2.1 = none → (cmdRing s q n).told = false →
       runsJobs p = true → owner s p = q → pageOn s p = true → fenceBit s p = false → queueFull s p j = false → goingOff s p = false →
       engineOk (cmdRing s q n).target j.engine = true → jobBad d.2.2 p j = none →
        ∃ t, exec (.crEntryTake q) s = .next t ∧ crHead t q n = (crHead s q n + 1) % (cmdRing s q n).depth ∧
          (pageJobs t p).queue.map (·.desc) = (pageJobs s p).queue.map (·.desc) ++ [d.1] ∧
          (pageJobs t p).running = (pageJobs s p).running ∧ MemStands s t)) ∧
  (
    (∀ (p : Nat) (j : Job) (s : State),
      (pageJobs s p).queue.find? (fun x => jobHeld s p x && pastDeadline s x.deadline) = some j →
      ∃ t, exec (.heldJobDeadline p) s = .next t ∧ (pageJobs t p).queue = (pageJobs s p).queue.erase j ∧
        ∃ d, (pageJobs t p).done = (pageJobs s p).done ++ [d] ∧ d.status = stABORT_DEADLINE ∧ d.job.desc = j.desc ∧ d.reported = true) ∧
    (∀ (p : Nat) (d : DoneJob) (s : State), (pageJobs s p).done.find? (canComplete s) = some d → d.job.ring < 17 →
      ∃ t, exec (.jobCompletion p) s = .next t ∧ (pageJobs t p).done = (pageJobs s p).done.erase d ∧
        (complOk s d.job.complAddr = true → d.noRecord = false → codedWords s d.job.complAddr 32 = [] →
          getBytes t d.job.complAddr 32 = completionRecord d ∧ MemStandsBut d.job.complAddr 32 s t)))

/-- R115, R116: the oldest decided record, for one port, is written at TAIL of the ring its routing names, and TAIL advances; a
disabled or full ring drops it and counts it. R118, R95: a ring whose oldest unsignalled record is MOD_US old sends its vector;
a masked vector becomes pending; MOD_US 0 holds nothing off. A write of a table entry's vector control unmasks it, and a pending vector is then sent. R625:
when the ring of the only stored record can take it, the store delivers it with REPLAY 1 and its original TB, and is empty. -/
def Obligations.EventsArePostedAndSignalled : Prop :=
  (
    ∀ (q : Port) (e : Posting) (rest : List Posting) (s : State), s.outbox = e :: rest →
      (q = .a ∧ e.toA = true ∧ e.toB = false ∨ q = .b ∧ e.toA = false ∧ e.toB = true) → s.lre.entries = [] →
      let m := selectRing s q e.record
      let a := (evtRing s q m).base + 16 * erTail s q m
      (erEnabled s q m = true → erFull s q m = false → canUse s .record a 16 = true → (evtRing s q m).dropped = 0 →
        codedWords s a 16 = [] →
        ∃ t, exec .eventPost s = .next t ∧ getBytes t a 16 = eventRecord e.record ∧ MemStandsBut a 16 s t ∧
          rd t (pgHP q) (erOff m 0x10) = BitVec.ofNat 32 ((erTail s q m + 1) % (evtRing s q m).depth) ∧
          rest <+: t.outbox) ∧
      ((erEnabled s q m = false ∨ erFull s q m = true) →
        ∃ t, exec .eventPost s = .next t ∧ (evtRing t q m).dropped = (evtRing s q m).dropped + 1 ∧ MemStands s t ∧
          rd t (pgHP q) (erOff m 0x14) = BitVec.ofNat 32 ((rd s (pgHP q) (erOff m 0x14)).toNat + 1) ∧ rest <+: t.outbox)) ∧
  (
    (∀ (q : Port) (m : Fin 4) (s : State), portLive s q = true → erEnabled s q m.val = true → (evtRing s q m.val).unsent ≠ 0 →
      msixLive (s.port q).config = true → (s.port q).config.msixMask = false →
      (evtRing s q m.val).oldest + rdF s (pgHP q) (erOff m.val 0x18) 15 0 * 1000 ≤ now s →
      let v := rdF s (pgHP q) (erOff m.val 0x08) 13 8
      ∃ t, exec (.msixModerationTimeout q m) s = .next t ∧ (evtRing t q m.val).unsent = 0 ∧ t.regs = s.regs ∧
        (if (msixEntry s q v).masked then (t.port q).pending.get false v = true
         else (t.port q).sent.get 0 v = (s.port q).sent.get 0 v + 1)) ∧
    (∀ (q : Port) (v : Nat) (w : Word) (s : State), portLive s q = true → v < 64 →
      (∃ t, exec (.msixTableWrite q (16 * v + 8) (some w)) s = .next t ∧ msixEntry t q v = { msixEntry s q v with data := w.toNat }) ∧
      (∃ t, exec (.msixTableWrite q (16 * v + 12) (some w)) s = .next t ∧
        msixEntry t q v = { msixEntry s q v with masked := bitOf w.toNat 0 } ∧
        (bitOf w.toNat 0 = false → (s.port q).pending.get false v = true → msixLive (s.port q).config = true →
          (s.port q).config.msixMask = false →
          (t.port q).pending.get false v = false ∧ (t.port q).sent.get 0 v = (s.port q).sent.get 0 v + 1)) ∧
      (∃ t, exec (.msixTableWrite q (16 * v + 8) none) s = .next t ∧ (t.port q).readData = (msixEntry s q v).data % 2 ^ 32 ∧
        t.regs = s.regs ∧ MemStands s t) ∧
      (∃ t, exec (.msixTableWrite q (0x2000 + v / 32 * 4) none) s = .next t ∧
        (t.port q).readData.testBit (v % 32) = (s.port q).pending.get false v))) ∧
  (
    ∀ (q : Port) (e : Posting) (s : State), s.lre.entries = [e] → s.lre.dropped = 0 →
      (q = .a ∧ e.toA = true ∧ e.toB = false ∨ q = .b ∧ e.toA = false ∧ e.toB = true) →
      let m := selectRing s q e.record
      let a := (evtRing s q m).base + 16 * erTail s q m
      erEnabled s q m = true → erFull s q m = false → canUse s .record a 16 = true → (evtRing s q m).dropped = 0 → codedWords s a 16 = [] →
      ∃ t, exec .lreReplay s = .next t ∧ t.lre.entries = [] ∧
        getBytes t a 16 = eventRecord { e.record with replay := true } ∧ MemStandsBut a 16 s t)

/-- R626: `LRE_DISCARD` with n removes the n oldest entries without delivering them; an n of 0, or one above COUNT, raises CMD_REJ
and removes nothing. -/
def Obligations.LreDiscardRemovesOldest : Prop :=
  ∀ (q : Port) (n : Nat) (s : State), n < 128 → MayWrite s q pgLRE 0x088 →
    ∃ t, exec (.lreDiscard q n) s = .next t ∧ MemStands s t ∧
      (1 ≤ n → n ≤ s.lre.entries.length → t.lre.entries = s.lre.entries.drop n ∧ t.lre.delivered = s.lre.delivered) ∧
      (n = 0 ∨ s.lre.entries.length < n → t.lre = s.lre ∧ Told t q pgLRE cCMD_REJ (0x088 + q.num * 2 ^ 20))

/-- R102, R104, R93: a link goes down and comes up, each told to both ports, with the count and the milliseconds down; PERST and FLR
clear every ring's ENABLE, the MSI-X table and, until the host configures the port again, its configuration space (log entry 230),
which names the port's device; an unsupported request is counted, and a Type 1 vendor message discarded. -/
def Obligations.LinksAndPortResets : Prop :=
  ∀ (q : Port) (s : State),
    (portLive s q = true → ∃ t, exec (.linkDown q) s = .next t ∧ (t.port q).up = false ∧ (t.port q).down = true ∧
      (t.port q).downAt = now s ∧ (t.port q).msix = [] ∧ (t.port q).config = PortConfig.reset ∧
      Told t .a (pgHP q) 0x102 0 ∧ Told t .b (pgHP q) 0x102 0 ∧
      rd t (pgHP q) 0x0A4 = BitVec.ofNat 32 ((rd s (pgHP q) 0x0A4).toNat + 1) ∧ t.port q.other = s.port q.other) ∧
    (∀ speed width cfg, domOn s 1 = true → (s.port q).up = false →
      ∃ t, exec (.linkUp q speed width cfg) s = .next t ∧ (t.port q).up = true ∧ (t.port q).down = false ∧
        (t.port q).speed = trainedSpeed s speed ∧ Told t .a (pgHP q) 0x103 (downMs s q) ∧ Told t .b (pgHP q) 0x103 (downMs s q) ∧
        t.port q.other = s.port q.other) ∧
    (∀ cfg, domOn s 1 = true → ∃ t, exec (.perst q cfg) s = .next t ∧ (∀ n < 16, crEnabled t q n = false) ∧ (∀ m < 4, erEnabled t q m = false) ∧
      (t.port q).msix = [] ∧ (t.port q).pending = [] ∧ (t.port q).up = (s.port q).up ∧
      (cfg = [] → (t.port q).config = PortConfig.reset) ∧ t.tb = s.tb ∧ MemStands s t) ∧
    (portLive s q = true → ∃ t, exec (.flr q [.read 0]) s = .next t ∧ (t.port q).readData / 2 ^ 16 = 0x7360 + q.num) ∧
    (∀ cfg, portLive s q = true → ∃ t, exec (.flr q cfg) s = .next t ∧ (∀ n < 16, crEnabled t q n = false) ∧
      (∀ m < 4, erEnabled t q m = false) ∧ (t.port q).msix = [] ∧ Told t q (pgHP q) 0x105 0 ∧ MemStands s t) ∧
    (∀ k, portLive s q = true → ∃ t, exec (.unsupportedRequest q k) s = .next t ∧ t.regs = s.regs ∧ MemStands s t ∧
      (t.port q).unsupported = (s.port q).unsupported + (if k = .vendorType1 then 0 else 1))

/-- R96, R97, R169: BAR2 offset o is DPA `HPx_AP_BASE` + o. A read of good memory returns its bytes, a write stores its enabled
bytes and leaves every other byte; a range that is not data changes nothing but the port page's event bit and returns zeros; one
whose memory cannot be used yet is held, with its address and bytes (log entry 231). -/
def Obligations.ApertureReadsAndWrites : Prop :=
  ∀ (q : Port) (off : Nat) (s : State), portLive s q = true → NoneHeld s q →
    (∀ len, 1 ≤ len → len ≤ 4096 → off + len ≤ 2 ^ 32 → canUse s (srcPort q) (apBase s q + off) len = true →
      (∀ w ∈ codedWords s (apBase s q + off) len, markOf s w = .good ∧ bankBad s w = false) →
      ∃ t, exec (.apertureRead q off len) s = .next t ∧ (t.port q).readBytes = getBytes s (apBase s q + off) len ∧
        (t.port q).readEP = false ∧ MemStands s t) ∧
    (∀ data : List (Option Byte), 1 ≤ data.length → data.length ≤ 256 → off + data.length ≤ 2 ^ 32 →
      canUse s (srcPort q) (apBase s q + off) data.length = true →
      (∀ w ∈ codedWords s (apBase s q + off) data.length, markOf s w = .good ∧ bankBad s w = false) →
      ∃ t, exec (.apertureWrite q off data) s = .next t ∧ MemStandsBut (apBase s q + off) data.length s t ∧
        ∀ (i : Nat) (h : i < data.length),
          getByte t (apBase s q + off + i) = (data[i]).getD (getByte s (apBase s q + off + i))) ∧
    (∀ len, 1 ≤ len → len ≤ 4096 → off + len ≤ 2 ^ 32 → isData s (apBase s q + off) len = false →
      ∃ t, exec (.apertureRead q off len) s = .next t ∧ (t.port q).readBytes = zeros len ∧ MemStands s t ∧
        Told t q (pgHP q) cBAD_ACCESS (off % 4096 + 3 * 2 ^ 12 + q.num * 2 ^ 20)) ∧
    (∀ data : List (Option Byte), 1 ≤ data.length → data.length ≤ 256 → off + data.length ≤ 2 ^ 32 →
      isData s (apBase s q + off) data.length = true → canUse s (srcPort q) (apBase s q + off) data.length = false →
      ∃ t, exec (.apertureWrite q off data) s = .next t ∧
        (t.port q).held = [⟨off, apBase s q + off, data.length, some data⟩] ∧ MemStands s t ∧ t.regs = s.regs)

/-! ## Bring-up, power, heat and joint orders (chapters 4, 5 and 22) -/

/-- R642 to R644: a rise of MOD_EN with VIN at 9.0 V or more starts the module at 800 mV; FL_PROG_N low at the edge selects flash
mode instead, in which PD0 does not start. Powering down loses everything but the fuses, the compartment and the supervisor's
registers. R43, R65, R134, R637: PD0 power-good starts the time base at 0, gives every page to port A and samples the straps.
R135, R136, R138: the first valid trim slot is applied and PD1, then PD2, are to switch on; with none, PD1 alone, and every host
is told. -/
def Obligations.ModuleAndPd0Start : Prop :=
  (
    (∀ (vin : Nat) (s : State), 9000 ≤ vin → s.sup.modPg = false → s.sup.flashMode = false →
      ∃ t, exec (.modEnRise false vin) s = .next t ∧ t.sup.modPg = true ∧ t.sup.setMv = 800 ∧ t.power.vcoreOn = true ∧ t.pd0 = s.pd0) ∧
    (∀ (vin : Nat) (s : State), s.sup.modEn = false →
      ∃ t, exec (.flashProgMode vin) s = .next t ∧ t.sup.flashMode = true ∧ t.sup.modPg = s.sup.modPg ∧ t.pd0 = s.pd0 ∧
        t.regs = s.regs) ∧
    (∀ s : State, s.sup.modEn = true →
      ∃ t, exec .modulePowerDown s = .next t ∧ t.pd0 = false ∧ t.regs = [] ∧ t.jobs = [] ∧ t.met = s.met ∧ t.fuses = s.fuses ∧
        t.sup.cause = s.sup.cause ∧ t.sup.removals = s.sup.removals ∧ t.pending = s.pending ∧
        ∀ a, residentBase ≤ a → getByte t a = 0)) ∧
  (
    ∀ (straps : Nat) (s : State), s.sup.modPg = true → s.pd0 = false →
      ∃ t, exec (.pd0PowerGood straps) s = .next t ∧ t.pd0 = true ∧ now t = 0 ∧ (∀ p, owner t p = .a) ∧
        rd t pgMGT 0x08C = BitVec.ofNat 32 (straps % 2 ^ 12) ∧ rdF t pgMGT 0x084 2 0 = 1 ∧
        (∀ p off, off < 0x1000 → p ≠ pgMGT → rd t p off = resetWord p off)) ∧
  (
    ∀ (r : TrimResult) (s : State), r.wf = true → s.pd0 = true → s.power.trimTried = false →
      ∃ t, exec (.trimVerifyDone r) s = .next t ∧ t.power.trimTried = true ∧
        (slotUsed r ≠ 0 → t.power.trimValid = true ∧ t.power.switching = [(1, true), (2, true)] ∧ rdF t pgMGT 0x084 2 0 = 3 ∧
          rdF t pgMGT 0x084 5 4 = slotUsed r ∧ rdF t pgMGT 0x084 31 16 = r.version ∧ rd t pgMGT 0x088 = BitVec.ofNat 32 r.crc) ∧
        (slotUsed r = 0 → t.power.trimValid = false ∧ t.power.switching = [(1, true)] ∧ rdF t pgMGT 0x084 2 0 = 4 ∧
          Told t .a pgMGT 0x102 0 ∧ Told t .b pgMGT 0x102 0))

/-- R146, R147, R149, R65: the switch that is next comes about. A domain that comes on has its pages at their reset values (their
event bit of READY_CHANGE and the training of PD2 apart); one that goes off loses its jobs, but for the completion records still to
be written (the model's choice, log entry 67); ownership is kept. R150, R154, R161: VCORE is done when it is measured within 10 mV
of its set point; a measurement shows in the registers, and no answer is told; VCORE lost takes PD1 to PD8 off; when it returns, the
boot's switch-on runs again from 800 mV. -/
def Obligations.DomainsAndVcore : Prop :=
  (
    (∀ (d : Nat) (rest : List (Nat × Bool)) (s : State), 1 ≤ d → d ≤ 8 → s.pd0 = true → s.power.vcoreOn = true →
      s.power.switching = (d, true) :: rest →
      ∃ t, exec (.domainOnDone d) s = .next t ∧ domOn t d = true ∧ t.power.switching = rest ∧ (∀ p, owner t p = owner s p) ∧
        (d ≠ 2 → ∀ p off, off < 0x1000 → off ≠ 0x014 → inDomain d p = true → heldInPd0 p off = false → rd t p off = resetWord p off)) ∧
    (∀ (d : Nat) (rest : List (Nat × Bool)) (s : State), 1 ≤ d → d ≤ 8 → s.pd0 = true → s.power.switching = (d, false) :: rest →
      ∃ t, exec (.domainOffDone d) s = .next t ∧ domOn t d = false ∧ t.power.switching = rest ∧ (∀ p, owner t p = owner s p) ∧
        (∀ p, inDomain d p = true → (pageJobs t p).queue = [] ∧ (pageJobs t p).running = [] ∧
          ((fenceOf s p).slow = false → (pageJobs t p).done = (pageJobs s p).done)))) ∧
  (
    (∀ s : State, s.pd0 = true → ramping s = true → rdB s pgPWR 0x088 16 = true →
      withinMv (rdF s pgPWR 0x088 9 0) (vcoreSet s) 10 = true →
      ∃ t, exec .vcoreDone s = .next t ∧ ramping t = false ∧ vcoreSet t = vcoreSet s ∧ t.power.rampFloor = vcoreSet s) ∧
    (∀ (m : SupReport) (s : State), m.wf = true → s.pd0 = true →
      ∃ t, exec (.supMeasurement (some m)) s = .next t ∧ rd t pgPWR 0x090 = BitVec.ofNat 32 m.vinMv ∧
        rd t pgPWR 0x088 = BitVec.ofNat 32 (m.vcoreMv + 2 ^ 16) ∧ rd t pgPWR 0x094 = BitVec.ofNat 32 m.moduleMw ∧
        t.sup.icoreCa = m.icoreCa ∧ t.power.supLost = false) ∧
    (∀ s : State, s.pd0 = true → ∃ t, exec (.supMeasurement none) s = .next t ∧ rdB t pgPWR 0x088 16 = false ∧ t.power.supLost = true ∧
      t.sup = s.sup) ∧
    (∀ (crit : Bool) (s : State), s.pd0 = true → s.power.vcoreOn = true →
      ∃ t, exec (.vcoreLost crit) s = .next t ∧ t.power.vcoreOn = false ∧ (∀ d, 1 ≤ d → d ≤ 8 → domOn t d = false) ∧
        t.power.switching = [] ∧ (∀ p, owner t p = owner s p) ∧ Told t .a pgPWR 0x107 (if crit then 1 else 2) ∧
        Told t .b pgPWR 0x107 (if crit then 1 else 2)) ∧
    (∀ s : State, s.pd0 = true → s.power.trimTried = true → s.power.vcoreOn = true → coreBusy s = false →
      ∃ t, exec .vcoreReturn s = .next t ∧ vcoreSet t = 800 ∧
        t.power.switching = (if s.power.trimValid then [(1, true), (2, true)] else [(1, true)])))

/-- R123 to R125, R128: a cast with no window open, that may not be a sole vote, opens one: the ballot is a snapshot of the vote
registers, the sequence number advances, both ports are told and nothing is applied. A window that ends with one ballot closes
with JOINT_TIMEOUT to both ports, and nothing is applied. R126, R130: the second of two equal ballots applies the order.
SET_OWNER gives the pages of its range to a port and no other; UNLOCK clears a page's lock; CONSENT and WINDOW set the grant and
the window. -/
def Obligations.VotesAndPageOrders : Prop :=
  (
    (∀ (q : Port) (s : State), MayWrite s q pgJNT (castOff q) → windowOver s = false → orderKnown (voteOrder s q) = true →
      ballotOpen s q = false → jntOpen s = false → maySole s q = false →
      ∃ t, exec (.voteCast q) s = .next t ∧ jntOpen t = true ∧ ballotOpen t q = true ∧ ballotOrder t q = voteOrder s q ∧
        ballotArg t q = voteArg s q ∧ jntSeq t = (jntSeq s + 1) % 2 ^ 16 ∧
        t.joint.windowEnd = now s + rdF s pgJNT 0x0A4 9 0 * 1000000 ∧ RegsStandBut [pgJNT] s t ∧ t.power = s.power ∧
        Told t .a pgJNT 0x105 (voteOrder s q + q.num * 2 ^ 8 + (jntSeq s + 1) % 2 ^ 16 * 2 ^ 16) ∧
        Told t .b pgJNT 0x105 (voteOrder s q + q.num * 2 ^ 8 + (jntSeq s + 1) % 2 ^ 16 * 2 ^ 16)) ∧
    (∀ (q : Port) (s : State), MayWrite s q pgJNT (castOff q) → windowOver s = false →
      (orderKnown (voteOrder s q) = false ∨ ballotOpen s q = true) →
      ∃ t, exec (.voteCast q) s = .next t ∧ Told t q pgJNT cCMD_REJ (castOff q + q.num * 2 ^ 20) ∧ jntOpen t = jntOpen s ∧
        jntSeq t = jntSeq s ∧ RegsStandBut [pgJNT] s t) ∧
    (∀ s : State, s.pd0 = true → windowEnded s = true →
      ∃ t, exec .jointTimeout s = .next t ∧ jntOpen t = false ∧
        rd t pgJNT 0x0B0 = BitVec.ofNat 32 (ballotOrder s (jntOpener s) + 3 * 2 ^ 8) ∧
        rd t pgJNT 0x0BC = BitVec.ofNat 32 ((rd s pgJNT 0x0BC).toNat + 1) ∧ RegsStandBut [pgJNT] s t ∧ t.power = s.power ∧
        ∃ d, Told t .a pgJNT 0x102 d ∧ Told t .b pgJNT 0x102 d)) ∧
  (
    (∀ (q : Port) (s : State), Agrees s q 0x01 →
      let arg := voteArg s q
      let lo := bitsOf arg 11 0
      let hi := bitsOf arg 23 12
      arg < 2 ^ 25 → lo ≤ hi →
      ∃ t, exec (.setOwner q) s = .next t ∧ Applied t 0x01 ∧
        ∀ p, assigned p = true →
          rdF t p 0x028 0 0 = (if lo ≤ p ∧ p ≤ hi then bitsOf arg 24 24 else rdF s p 0x028 0 0)) ∧
    (∀ (q : Port) (s : State), Agrees s q 0x04 → assigned (voteArg s q) = true →
      ∃ t, exec (.unlock q) s = .next t ∧ Applied t 0x04 ∧ locked t (voteArg s q) = false ∧
        ∀ p, p ≠ voteArg s q → p < 0x100 → locked t p = locked s p) ∧
    (∀ (q : Port) (s : State), Agrees s q 0x09 → voteArg s q < 2 ^ 18 →
      bitOf (voteArg s q) 17 = true → 100 ≤ bitsOf (voteArg s q) 15 0 → bitsOf (voteArg s q) 15 0 ≤ 60000 →
      ∃ t, exec (.consent q) s = .next t ∧ Applied t 0x09 ∧
        rd t pgJNT (0x0D0 + 4 * bitsOf (voteArg s q) 16 16) = BitVec.ofNat 32 (bitsOf (voteArg s q) 15 0 + 2 ^ 16)) ∧
    (∀ (q : Port) (s : State), Agrees s q 0x0A → 1 ≤ voteArg s q → voteArg s q ≤ 1000 →
      ∃ t, exec (.window q) s = .next t ∧ Applied t 0x0A ∧ rd t pgJNT 0x0A4 = BitVec.ofNat 32 (voteArg s q)))

/-- R130, R145 to R147, R150, R151, R168, R169: an agreed DOMAIN order puts the domains not yet as asked on the list of switches, in
ascending order; VCORE sets the set point and ramps to it; DMC_MAP puts its map in force, and the regions with ECC are owed an
initialisation. R434, R435, R445, R528, R557: an agreed FUS_XFORM copies its proposal into the transform table; FUS_MODE sets
the fusion mode; MET_JOURNEY sends its request to the compartment's mailbox. -/
def Obligations.AgreedPowerAndBlockOrders : Prop :=
  (
    (∀ (q : Port) (s : State), Agrees s q 0x02 → voteArg s q < 2 ^ 9 → bitOf (voteArg s q) 8 = true → s.power.trimValid = true →
      pd2Bad s (voteArg s q % 256) true = false →
      ∃ t, exec (.domain q) s = .next t ∧ Applied t 0x02 ∧
        t.power.switching = s.power.switching ++
          ((domsNamed (voteArg s q % 256)).filter (fun d => domTarget s d != true)).map (fun d => (d, true))) ∧
    (∀ (q : Port) (s : State), Agrees s q 0x03 → 600 ≤ voteArg s q → voteArg s q ≤ 900 → voteArg s q % 10 = 0 →
      (s.fuses.variantE = true → voteArg s q ≤ 800) →
      ∃ t, exec (.vcore q) s = .next t ∧ Applied t 0x03 ∧ vcoreSet t = voteArg s q ∧ ramping t = true ∧
        t.sup.setMv = voteArg s q ∧ t.power.vcoreOn = s.power.vcoreOn) ∧
    (∀ (q : Port) (s : State), Agrees s q 0x05 → (voteArg s q ≤ 11 ∨ voteArg s q = 15) → mapQuiet s = true →
      mapPassed s (voteArg s q) = true → s.dram.initRegion = none → voteArg s q ≠ mapInForce s →
      ∃ t, exec (.dmcMap q) s = .next t ∧ Applied t 0x05 ∧ mapInForce t = voteArg s q ∧
        rdB t (pgDMC 0) 0x100 8 = !(eccRegions s).isEmpty)) ∧
  (
    (∀ (q : Port) (s : State), Agrees s q 0x06 →
      let dpa := bitsOf (voteArg s q) 39 0
      let n := bitsOf (voteArg s q) 45 40
      let r := readAs .fusion dpa 96 s
      voteArg s q < 2 ^ 46 → dpa % 32 = 0 → isData s dpa 96 = true → domOn s 6 = true → canUse s .fusion dpa 96 = true → r.2.1 = none →
      xformReason r.1 = 0 →
      ∃ t, exec (.fusXform q) s = .next t ∧ Applied t 0x06 ∧ t.fus.xforms.get (zeros 96) n = r.1 ∧
        (∀ m, m ≠ n → t.fus.xforms.get (zeros 96) m = s.fus.xforms.get (zeros 96) m) ∧ MemStands s t) ∧
    (∀ (q : Port) (s : State), Agrees s q 0x07 → fusModeBad (voteArg s q) = false →
      ∃ t, exec (.fusMode q) s = .next t ∧ Applied t 0x07 ∧ rd t pgFUS 0x084 = BitVec.ofNat 32 (voteArg s q)) ∧
    (∀ (q : Port) (s : State), Agrees s q 0x08 → journeyOrderRefused s (voteArg s q) = 0 → s.met.vin = true →
      ∃ t, exec (.metJourney q) s = .next t ∧ Applied t 0x08 ∧ t.mbr.journeySeq = some s.mbr.txSeq ∧
        t.met.mailbox.map (·.bytes) = s.met.mailbox.map (·.bytes) ++
          [mkFrame (voteArg s q % 256) s.mbr.txSeq (voteArg s q / 256 * 256)]))

/-- R155 to R158, R162: a sample shows its hottest valid sensor; CRIT_N asserts at the first sample at or above 125 °C and deasserts
at the first below 120 °C; with no valid sensor it asserts. THM_PEAK_CLR puts the peak at the present maximum. R647 to R650: a
protection removes VCORE and sets its cause bit; CRIT_N seen for longer than the delay does, where the host has chosen so;
SUP_RESTORE gives it back at 800 mV; SUP_CAUSE bits clear by 1. R638: one cycle of TCK takes the test access port to its next
state; five cycles with TMS high reach Test-Logic-Reset from every state and select IDCODE; in Shift-DR the register moves one
bit towards TDO. Nothing else of the part changes but its pending free values. -/
def Obligations.HeatSupervisorAndJtag : Prop :=
  (
    (∀ (l : List (Option Int)) (n : Nat) (x : Int) (s : State), s.pd0 = true → (s.heat.sampled = false ∨ s.heat.lastAt + 100000 ≤ now s) →
      hottest (sixteen l) = some (n, x) →
      ∃ t, exec (.thmSample l) s = .next t ∧ rdF t pgTHM 0x0A0 15 0 = ofSigned 16 x ∧ rdB t pgTHM 0x0A0 20 = true ∧
        t.heat.lastAt = now s ∧ critN t = (if 2000 ≤ x then true else if x < 1920 then false else critN s)) ∧
    (∀ (l : List (Option Int)) (s : State), s.pd0 = true → (s.heat.sampled = false ∨ s.heat.lastAt + 100000 ≤ now s) →
      hottest (sixteen l) = none →
      ∃ t, exec (.thmSample l) s = .next t ∧ critN t = true ∧ thermAlertN t = true ∧ rdB t pgTHM 0x0A0 20 = false) ∧
    (∀ (q : Port) (s : State), MayWrite s q pgTHM 0x0B4 →
      ∃ t, exec (.thmPeakClr q) s = .next t ∧ rd t pgTHM 0x0B0 = BitVec.ofNat 32 (rdF s pgTHM 0x0A0 15 0) ∧
        (∀ off, off < 0x1000 → off ≠ 0x0B0 → rd t pgTHM off = rd s pgTHM off) ∧ RegsStandBut [pgTHM] s t)) ∧
  (
    (∀ (p : Protection) (s : State), s.power.vcoreOn = true → ¬(p = .undervoltage ∧ s.pd0 = true ∧ ramping s = true) →
      ∃ t, exec (.supProtection p) s = .next t ∧ t.power.vcoreOn = false ∧ t.sup.removals = (s.sup.removals + 1) % 256 ∧
        bitOf t.sup.cause (match p with | .overcurrent => 1 | .overvoltage => 2 | .undervoltage => 3) = true ∧ t.regs = s.regs) ∧
    (∀ s : State, critSeen s = true → s.sup.critAction = true → s.power.vcoreOn = true → s.sup.critDelay ≤ s.sup.critMs →
      ∃ t, exec (.supCritEval []) s = .next t ∧ t.power.vcoreOn = false ∧ bitOf t.sup.cause 0 = true) ∧
    (∀ s : State, (critSeen s = false ∨ s.sup.critAction = false ∨ s.sup.critMs < s.sup.critDelay) →
      ∃ t, exec (.supCritEval []) s = .next t ∧ t.power = s.power ∧ t.sup.critMs = if critSeen s then s.sup.critMs + 1 else 0) ∧
    (∀ (v : Nat) (s : State), bitOf v 0 = true → s.sup.modPg = true → critSeen s = false → 9000 ≤ s.sup.vinMv → s.power.vcoreOn = false →
      ∃ t, exec (.supRestore v) s = .next t ∧ t.power.vcoreOn = true ∧ t.sup.setMv = 800 ∧ t.sup.cause = s.sup.cause) ∧
    (∀ (bits : Nat) (s : State), ∃ t, exec (.supCauseClear bits) s = .next t ∧
      (∀ i, bitOf t.sup.cause i = (bitOf s.sup.cause i && !bitOf bits i)) ∧ t.power = s.power)) ∧
  (
    (∀ (tms tdi : Bool) (s : State), s.pd0 = true →
      ∃ t, exec (.jtagBoundaryScan tms tdi false) s = .next t ∧ t.jtag.tap = s.jtag.tap.step tms ∧
        (s.jtag.tap = .shiftDr → t.jtag.dr = s.jtag.dr.drop 1 ++ [tdi]) ∧ t.regs = s.regs ∧ t.mem = s.mem ∧ t.jobs = s.jobs) ∧
    (∀ (d0 d1 d2 d3 d4 : Bool) (s : State), s.pd0 = true →
      ∃ t, Host.Core.run Sys2Proof.core 5 { s with pending := [.jtagBoundaryScan true d0 false, .jtagBoundaryScan true d1 false,
          .jtagBoundaryScan true d2 false, .jtagBoundaryScan true d3 false, .jtagBoundaryScan true d4 false] } = .next t ∧
        t.jtag.tap = .testLogicReset ∧ t.jtag.insn = .idcode ∧ t.pending = []))

/-! ## Memory (chapter 6) -/

/-- R164, R165: under every map in force the interleave spreads the addresses over its controllers without loss: the controller is a
member of the map, and controller and local address together determine the address. -/
def Obligations.InterleaveLosesNoAddress : Prop :=
  ∀ m a b : Nat, (m = 0xF ∨ m < 12) →
    controllerIn m a ∈ mapMembers m ∧
    (controllerIn m a = controllerIn m b → localIn m a = localIn m b → a = b) ∧
    (m = 0xF → controllerIn m a = a / 256 % 12 ∧ localIn m a = a / 256 / 12 * 256 + a % 256)

/-- R193, R194, R196, R198: a read of good words returns their bytes. A write of good words stores its bytes and leaves every other
byte of memory. An address that R81 leaves unmapped has no memory: there both stop. Both keep memory canonical. R194, R196,
R197, R199: in one word under a code, a single-bit error is corrected and counted; an uncorrectable one becomes the poison code,
is counted, reads as POISON and never as data. R200: the patrol scrub corrects a word with a correctable error, poisons one with
an uncorrectable error, and moves on; other data stands. -/
def Obligations.MemoryWordsAndTheirErrors : Prop :=
  (
    ∀ (a : Nat) (s : State),
      (∀ n, 1 ≤ n → memUsable s a n = true → (∀ w ∈ codedWords s a n, markOf s w = .good ∧ bankBad s w = false) →
        ∃ t, exec (.memRead a n .none) s = .next t ∧ t.dram.lastData = getBytes s a n ∧ t.dram.lastPoison = false ∧ MemStands s t) ∧
      (∀ data : List Byte, data ≠ [] → memUsable s a data.length = true →
        (∀ w ∈ codedWords s a data.length, markOf s w = .good ∧ bankBad s w = false) →
        ∃ t, exec (.memWrite a data .none) s = .next t ∧ MemStandsBut a data.length s t ∧ getBytes t a data.length = data ∧
          (s.Canonical → t.Canonical)) ∧
      (∀ n u, 1 ≤ n → isData s a n = false → exec (.memRead a n u) s = .fault (.unmapped a)) ∧
      (∀ data u, data ≠ [] → isData s a data.length = false → exec (.memWrite a data u) s = .fault (.unmapped a))) ∧
  (
    ∀ (w : Nat) (s : State), memUsable s w (wordSize w) = true → codedWords s w (wordSize w) = [w] → bankBad s w = false →
      (markOf s w = .good → ∃ t, exec (.memRead w (wordSize w) .correctable) s = .next t ∧
        t.dram.lastData = getBytes s w (wordSize w) ∧ t.dram.lastPoison = false ∧ markOf t w = .good ∧ MemStands s t) ∧
      (∃ t, exec (.memRead w (wordSize w) .uncorrectable) s = .next t ∧ t.dram.lastPoison = true ∧ t.dram.lastData = [] ∧
        markOf t w = .poison) ∧
      (markOf s w = .poison → ∃ t, exec (.memRead w (wordSize w) .none) s = .next t ∧ t.dram.lastPoison = true ∧
        t.dram.lastData = [] ∧ MemStands s t)) ∧
  (
    ∀ s : State, ready s pgRES = true → rdF s pgRES 0x09C 15 0 ≠ 0 →
      let n := s.dram.scrubNext.get 0 12
      let w := residentBase + 8 * n
      n < 48 * 2 ^ 18 → bankBad s w = false →
      ∃ t, exec (.patrolScrub none .none) s = .next t ∧ t.dram.scrubNext.get 0 12 = (n + 1) % (48 * 2 ^ 18) ∧
        (markOf s w = .correctable → markOf t w = .good ∧ MemStands s t) ∧
        (markOf s w = .uncorrectable → markOf t w = .poison) ∧
        (markOf s w = .good ∨ markOf s w = .poison → markOf t w = markOf s w ∧ MemStands s t))

/-- R166, R167, R171: a controller that passes training is ready, one that fails or takes longer than 15 ms reports the step and is
not; RETRAIN starts a failed one again. R172, R173: MR4 above nominal sets HOT once, told and latched, and back at nominal
clears it; an idle trained controller enters self-refresh after its time. -/
def Obligations.TrainingAndRefresh : Prop :=
  (
    (∀ (c : Fin 12) (s : State), pageOn s (pgDMC c.val) = true → trainState s c.val = 1 → trainLate c.val s = false →
      ∃ t, exec (.dmcTrainDone c 0) s = .next t ∧ trainState t c.val = 2 ∧ rdB t (pgDMC c.val) 0x008 0 = true ∧
        rdF t (pgDMC c.val) 0x080 15 8 = 0) ∧
    (∀ (c : Fin 12) (step : Nat) (s : State), step ≤ 4 → (trainLate c.val s = true ∨ 1 ≤ step) → pageOn s (pgDMC c.val) = true →
      trainState s c.val = 1 →
      ∃ t, exec (.dmcTrainDone c step) s = .next t ∧ trainState t c.val = 3 ∧ rdB t (pgDMC c.val) 0x008 0 = false ∧
        rdF t (pgDMC c.val) 0x080 15 8 = (if trainLate c.val s then 5 else step) ∧ rdB t (pgDMC c.val) 0x020 16 = true) ∧
    (∀ (c : Fin 12) (s : State), pageOn s (pgDMC c.val) = true → trainState s c.val = 1 →
      s.dram.trainAt.get 0 c.val + 15000000 ≤ now s →
      ∃ t, exec (.trainTimeout c) s = .next t ∧ trainState t c.val = 3 ∧ rdF t (pgDMC c.val) 0x080 15 8 = 5) ∧
    (∀ (q : Port) (c : Fin 12) (s : State), MayWrite s q (pgDMC c.val) 0x084 → ready s (pgDMC c.val) = false → trainState s c.val ≠ 1 →
      ∃ t, exec (.retrain q c) s = .next t ∧ trainState t c.val = 1 ∧ t.dram.trainAt.get 0 c.val = now s ∧ MemStands s t)) ∧
  (
    (∀ (c : Fin 12) (hot : Bool) (code : Nat) (s : State), pageOn s (pgDMC c.val) = true → rdB s (pgDMC c.val) 0x080 4 ≠ hot →
      ∃ t, exec (.mr4Read c hot code) s = .next t ∧ rdB t (pgDMC c.val) 0x080 4 = hot ∧
        (hot = true → rdB t (pgDMC c.val) 0x020 16 = true) ∧ RegsStandBut [pgDMC c.val] s t ∧
        ∃ u, exec (.mr4Read c hot code) t = .next u ∧ u = t) ∧
    (∀ (c : Fin 12) (s : State), pageOn s (pgDMC c.val) = true → rdF s (pgDMC c.val) 0x084 31 16 ≠ 0 → trainState s c.val = 2 →
      rdB s (pgDMC c.val) 0x080 3 = false → s.dram.lastReq.get 0 c.val + rdF s (pgDMC c.val) 0x084 31 16 * 1000 ≤ now s →
      ∃ t, exec (.selfRefreshEntry c) s = .next t ∧ rdB t (pgDMC c.val) 0x080 3 = true ∧ trainState t c.val = 2 ∧ MemStands s t))

/-- R174, R175: an initialisation takes a region, and at its end the region reads as zeros, good, with the ECC state that was
asked for when it started;
every byte outside the region stands. R179, R180: at its initialisation the resident store reads as zeros, flag space included,
and RES and FLG become ready; the banks that fail are marked bad. -/
def Obligations.EccInitAndResidentStore : Prop :=
  (
    (∀ (q : Port) (r : Fin 32) (s : State), MayWrite s q (pgDMC 0) 0x10C → s.dram.initRegion = none → dramReady s = true →
      ∃ t, exec (.dmcEccInit q r) s = .next t ∧ t.dram.initRegion = some r.val ∧ t.dram.initOn = rdB s (pgDMC 0) 0x104 r.val ∧ MemStands s t ∧
        ∀ a, a / 2 ^ 31 = r.val → memUsable t a 1 = false) ∧
    (∀ (r : Nat) (s : State), r < 32 → s.dram.initRegion = some r → domOn s 2 = true → s.dram.owed = [] →
      NoneHeld s .a → NoneHeld s .b →
      ∃ t, exec .eccInitDone s = .next t ∧ t.dram.initRegion = none ∧ rdB t (pgDMC 0) 0x108 r = s.dram.initOn ∧
        (∀ a, a / 2 ^ 31 = r → getByte t a = 0 ∧ markOf t a = .good) ∧
        (∀ a, a / 2 ^ 31 ≠ r → getByte t a = getByte s a ∧ markOf t a = markOf s a) ∧ (s.Canonical → t.Canonical))) ∧
  (
    ∀ (bist repair : List Nat) (s : State), pageOn s pgRES = true → rdB s pgRES 0x080 0 = false → NoneHeld s .a → NoneHeld s .b →
      ∃ t, exec (.resInitDone bist repair) s = .next t ∧ (∀ a, residentBase ≤ a → getByte t a = 0 ∧ markOf t a = .good) ∧
        (∀ a, a < residentBase → getByte t a = getByte s a) ∧ ready t pgRES = true ∧ rdB t pgFLG 0x008 0 = true ∧
        (∀ b, b < 48 → bitOf (rd64 t pgRES 0x084) b =
          (bitOf (rd64 s pgRES 0x084) b || (rdB s pgMGT 0x08C 0 && bist.contains b) || repair.contains b)))

/-- R185, R188 to R191: the regulator admits the request its rules pick, which takes a tag and, unless it is a record's, has its
bytes counted; a new interval starts at a whole microsecond; the class and tag settings are LCK fields that take effect unless
locked. R186, R191: the guarantees honoured never exceed the budget, and the tags reserved never exceed 3,072; a class below its
setting leaves every lower class nothing. -/
def Obligations.RegulatorAdmitsWithinLimits : Prop :=
  (
    (∀ (r : DramReq) (s : State), pageOn s pgMREG = true → pickRequest s = some r → NoneHeld s .a → NoneHeld s .b →
      ∃ t, exec (.requestAdmit [] [] 1) s = .next t ∧ t.regul.waiting = s.regul.waiting.erase r ∧
        heldBy t r.cls = heldBy s r.cls + 1 ∧ t.regul.tagsCtl.get 0 r.ctl = s.regul.tagsCtl.get 0 r.ctl + 1 ∧
        t.regul.total = (regulNow s).total + (if r.cls = 8 then 0 else r.bytes) ∧ MemStands s t) ∧
    (∀ s : State, pageOn s pgMREG = true → s.regul.start + 1000 ≤ now s → NoneHeld s .a → NoneHeld s .b →
      ∃ t, exec .regulatorInterval s = .next t ∧ t.regul.start = now s / 1000 * 1000 ∧ t.regul.total ≤ 768 ∧
        t.regul.waiting = s.regul.waiting ∧ (∀ c, c < 8 → capOf s c = 0 → admittedBy t c = 0)) ∧
    (∀ (q : Port) (n : Fin 8) (w : Word) (s : State), MayWrite s q pgMREG (0x084 + 4 * n.val) →
      ∃ t, exec (.mregClassWrite q (some n) w) s = .next t ∧
        (locked s pgMREG = false → guarOf t n.val = fld w 12 0 ∧ capOf t n.val = fld w 28 16) ∧
        (locked s pgMREG = true → rd t pgMREG (0x084 + 4 * n.val) = rd s pgMREG (0x084 + 4 * n.val) ∧
          Told t q pgMREG cLOCKED (0x084 + 4 * n.val + q.num * 2 ^ 20))) ∧
    (∀ (q : Port) (w : Word) (s : State), MayWrite s q pgMREG 0x080 → locked s pgMREG = false →
      ∃ t, exec (.mregClassWrite q none w) s = .next t ∧ budgetOf t = fld w 12 0) ∧
    (∀ (q : Port) (w : Word) (s : State), MayWrite s q pgMREG 0x0A4 → locked s pgMREG = false →
      ∃ t, exec (.mregTagminWrite q w) s = .next t ∧ rd t pgMREG 0x0A4 = w)) ∧
  (
    ∀ s : State, ((effGuar s).map (·.2)).sum ≤ budgetOf s ∧ ((effReserve s).map (·.2)).sum ≤ 3072 ∧
      (∀ c d, d < c → c < 8 → classVal (effGuar s) c < guarOf s c → classVal (effGuar s) d = 0) ∧
      (((List.range 8).map (guarOf s)).sum ≤ budgetOf s → ∀ c, c < 8 → classVal (effGuar s) c = guarOf s c))

/-- R181 to R183, R206: a flag set or cleared by its owner's host reads so, and every other flag stands; one both set and cleared in
one instant is 1 after it; a range clear zeroes its
groups and reports how many; a read of a group shows its flags. -/
def Obligations.FlagsSetClearRead : Prop :=
  (∀ (q : Port) (f : Nat) (v : Bool) (s : State), f < 2 ^ 19 → MayWrite s q pgFLG (if v then 0x080 else 0x084) →
    bankBad s (groupAddr (f / 64)) = false → markOf s (groupAddr (f / 64)) = .good →
    ∃ t, exec (if v then .flgSet q f [] else .flgClr q f []) s = .next t ∧ flagValue t f = v ∧
      ∀ g, g ≠ f → flagValue t g = flagValue s g) ∧
  (∀ (q : Port) (f : Nat) (v : Bool) (s : State), f < 2 ^ 19 → MayWrite s q pgFLG (if v then 0x080 else 0x084) →
    bankBad s (groupAddr (f / 64)) = false → markOf s (groupAddr (f / 64)) = .good →
    ∃ t, exec (if v then .flgSet q f [(f, false)] else .flgClr q f [(f, true)]) s = .next t ∧ flagValue t f = true ∧
      ∀ u, (unitOf s u).waitFlag = some (f, false) → (unitOf s u).released = false → (unitOf t u).released = false) ∧
  (∀ (q : Port) (first n : Nat) (s : State), MayWrite s q pgFLG 0x094 → 1 ≤ n → first + n ≤ 8192 → s.flg.range = none →
    ∃ t, exec (.flgRangeClr q first n) s = .next t ∧ t.flg.range = some (first, n) ∧ MemStands s t) ∧
  (∀ (first n : Nat) (s : State), s.flg.range = some (first, n) → first + n ≤ 8192 → pageOn s pgFLG = true →
    s.flg.rangeAt + n * 2000 / 8192 ≤ now s → (∀ g, first ≤ g → g < first + n → bankBad s (groupAddr g) = false) →
    ∃ t, exec .rangeClrDone s = .next t ∧ t.flg.range = none ∧ (∀ f, first ≤ f / 64 → f / 64 < first + n → flagValue t f = false) ∧
      (∀ f, ¬(first ≤ f / 64 ∧ f / 64 < first + n) → flagValue t f = flagValue s f) ∧
      Told t (owner s pgFLG) pgFLG 0x101 n) ∧
  (∀ (q : Port) (high : Bool) (s : State), portLive s q = true → pageOn s pgFLG = true →
    let w := groupAddr (rdF s pgFLG 0x088 12 0)
    bankBad s w = false → markOf s w = .good →
    ∃ t, exec (.flgGroupRead q high) s = .next t ∧
      (t.port q).readData = leNat (getBytes s (w + 4 * b2n high) 4) ∧ rdB t pgFLG 0x088 31 = false ∧ MemStands s t)

/-! ## The Mews (chapter 7) -/

/-- R209 to R213, R216, R217, R223: ALLOC from an open home pool grants a buffer that nobody held, under a current handle of the
owner named, and every other current handle stays current. FREE makes its handle stale; TRANSFER gives the buffer to the owner
named. -/
def Obligations.AllocFreeTransfer : Prop :=
  ∀ (q : Port) (s : State), MewsWf s → MayWrite s q pgMEWS 0x088 → hostPending s = false →
    (∀ n, 1 ≤ opArg0 s → opArg0 s ≤ 4194304 → ownerFenced s (opOwner s) = false → homePool s (opArg0 s) = some n →
      openNow s n (rdB s pgMEWS 0x084 9 || decide (opOwner s = 63)) = true →
      ∃ t h, exec (.alloc q) s = .next t ∧ rd t pgMEWS 0x090 = BitVec.ofNat 32 h ∧ rdF t pgMEWS 0x08C 3 0 = mwOK ∧ hPool h = n ∧
        current t h = true ∧ (bufOf t n (hIndex h)).owner = opOwner s ∧ (bufOf s n (hIndex h)).held = false ∧
        (∀ h', current s h' = true → current t h' = true) ∧ MemStands s t) ∧
    (current s (opArg0 s) = true →
      ∃ t, exec (.free q) s = .next t ∧ rdF t pgMEWS 0x08C 3 0 = mwOK ∧ current t (opArg0 s) = false ∧ MemStands s t) ∧
    (current s (opArg0 s) = true → ownerFenced s (opOwner s) = false →
      ∃ t, exec (.transfer q) s = .next t ∧ rdF t pgMEWS 0x08C 3 0 = mwOK ∧ current t (opArg0 s) = true ∧
        (bufOf t (hPool (opArg0 s)) (hIndex (opArg0 s))).owner = opOwner s ∧ MemStands s t)

/-- R215, R224, R225, R230: RECLAIM of a fenced owner sets BUSY; at its end no buffer of the owner is held, unless a request of that
owner waits. CANCEL withdraws the host's waiting ALLOC. A fence withdraws the waiting requests of the owners it newly fences.
R208, R218, R229: a good configuration switches its pool on with every buffer free and no other pool changed; an empty pool
switches off. A waiting recovery request is served first, oldest first, while buffers are free. -/
def Obligations.ReclaimPoolsAndWaiters : Prop :=
  (
    (∀ (q : Port) (s : State), MayWrite s q pgMEWS 0x088 → hostPending s = false → opArg0 s ≤ 63 → ownerFenced s (opArg0 s) = true →
      rdB s pgMEWS 0x0A8 0 = false →
      ∃ t, exec (.reclaim q) s = .next t ∧ rdB t pgMEWS 0x0A8 0 = true ∧ rdF t pgMEWS 0x0A8 13 8 = opArg0 s ∧
        rdF t pgMEWS 0x08C 3 0 = mwOK ∧ t.mews = s.mews) ∧
    (∀ s : State, MewsWf s → pageOn s pgMEWS = true → rdB s pgMEWS 0x0A8 0 = true →
      (∀ k < 16, ∀ r ∈ s.mews.queues.get [] k, r.owner ≠ rdF s pgMEWS 0x0A8 13 8) →
      ∃ t, exec .reclaimDone s = .next t ∧ rdB t pgMEWS 0x0A8 0 = false ∧
        (∀ n i, i < 65536 → (poolOf s n).on = true → (bufOf t n i).held = true → (bufOf t n i).owner ≠ rdF s pgMEWS 0x0A8 13 8)) ∧
    (∀ (q : Port) (s : State), MayWrite s q pgMEWS 0x088 → hostPending s = true →
      ∃ t, exec (.cancel q) s = .next t ∧ rdF t pgMEWS 0x08C 3 0 = mwCANCELLED ∧ t.mews.bufs = s.mews.bufs ∧
        ∀ k < 16, ∀ r ∈ t.mews.queues.get [] k, ∀ p, r.src ≠ .host p) ∧
    (∀ (q : Port) (high : Bool) (w : Word) (s : State), MayWrite s q pgMEWS (0x0A0 + 4 * b2n high) →
      ∃ t, exec (.mewsFenceWrite q high w) s = .next t ∧ rd t pgMEWS (0x0A0 + 4 * b2n high) = w ∧ t.mews.bufs = s.mews.bufs ∧
        ∀ k < 16, ∀ r ∈ t.mews.queues.get [] k, r.owner / 32 = b2n high → flag w (r.owner % 32) = true →
          flag (rd s pgMEWS (0x0A0 + 4 * b2n high)) (r.owner % 32) = true)) ∧
  (
    (∀ (q : Port) (n : Fin 8) (s : State), MayWrite s q pgMEWS (0x10C + n.val * 0x20) → (poolOf s n.val).on = false →
      poolCfgBad s n.val = 0 →
      ∃ t, exec (.poolOn q n) s = .next t ∧ (poolOf t n.val).on = true ∧ (poolOf t n.val).count = rdF s pgMEWS (0x108 + n.val * 0x20) 16 0 ∧
        heldIn t n.val = [] ∧ (∀ m, m ≠ n.val → poolOf t m = poolOf s m ∧ heldIn t m = heldIn s m) ∧ t.regs = s.regs) ∧
    (∀ (q : Port) (n : Fin 8) (s : State), MayWrite s q pgMEWS (0x10C + n.val * 0x20) → (poolOf s n.val).on = true →
      heldIn s n.val = [] → mewsQueue s n.val true = [] → mewsQueue s n.val false = [] →
      ∃ t, exec (.poolOff q n) s = .next t ∧ poolOf t n.val = MewsPool.off ∧ (∀ m, m ≠ n.val → poolOf t m = poolOf s m) ∧
        t.regs = s.regs) ∧
    (∀ (n u : Nat) (r : MewsReq) (rest : List MewsReq) (s : State), n < 8 → MewsWf s → pageOn s pgMEWS = true →
      (poolOf s n).on = true → mewsQueue s n true = r :: rest → canGrant s n true = true → r.src = .stream u →
      ∃ t h, exec .allocGranted s = .next t ∧ mewsQueue t n true <:+ rest ∧ ⟨r.src, mwOK, h⟩ ∈ t.mews.answers ∧ hPool h = n ∧
        current t h = true ∧ (bufOf t n (hIndex h)).owner = r.owner))

/-- R211 kept by every operation of the Mews, as an invariant of its own: generations stay in 1 to 8191. -/
def Obligations.MewsCommandsKeepGenerations : Prop :=
  MewsWf State.reset ∧
  ∀ (q : Port) (n : Fin 8) (u : Fin 32) (b : Bool) (w : Word) (c : Instr) (s t : State),
    c ∈ [Instr.alloc q, .free q, .transfer q, .reclaim q, .reclaimDone, .cancel q, .tentative u, .allocGranted, .mewsFenceWrite q b w,
      .poolOn q n, .poolOff q n, .xfer u, .agEnd u] →
    MewsWf s → exec c s = .next t → MewsWf t

/-! ## Streams, semaphores and flags (chapters 8 and 9) -/

/-- R232, R233, R257, R260: a RUN job whose dependencies hold starts with the registers of its descriptor at its start PC. A LAUNCH
of one unit copies its RUN descriptor into that unit's queue and ends with DONE. -/
def Obligations.RunStartsAndLaunchDelivers : Prop :=
  (∀ (u : Fin 32) (j : Job) (rest : List Job) (s : State), (pageJobs s (pgSTRM u.val)).queue = j :: rest →
    (pageJobs s (pgSTRM u.val)).running = [] → j.op = 1 → depsMet s (pgSTRM u.val) j (strmAddrs j) = true →
    pastDeadline s j.deadline = false → strmTrig j = none → runLoadProg j = false → runLoadShapes j = false → runLoadRegs j = true →
    progBad { unitOf s u.val with progLen := runProgLen j, bind := rd s (pgSTRM u.val) 0x088 } = none →
    ∃ t, exec (.runJobStart u) s = .next t ∧ (pageJobs t (pgSTRM u.val)).queue = rest ∧
      (pageJobs t (pgSTRM u.val)).running = [{ j with accepted := now s }] ∧ (unitOf t u.val).pc = byteAt j.desc 41 ∧
      (unitOf t u.val).hs = false ∧ (unitOf t u.val).progLen = runProgLen j ∧ (unitOf t u.val).prog = (unitOf s u.val).prog ∧
      (∀ i < 8, (unitOf t u.val).a.get 0 i = leAt j.desc (64 + 8 * i) 5 ∧ (unitOf t u.val).c.get 0 i = leAt j.desc (128 + 4 * i) 3) ∧
      OnlyUnit u.val s t) ∧
  (∀ (u w : Fin 32) (i a : Nat) (j : Job) (rest : List Job) (s : State), (pageJobs s (pgSTRM u.val)).queue = j :: rest →
    (pageJobs s (pgSTRM u.val)).running = [] → j.op = 2 → depsMet s (pgSTRM u.val) j (strmAddrs j) = true →
    pastDeadline s j.deadline = false → launchEntries j = [(i, w.val, a)] → w ≠ u → owner s (pgSTRM w.val) = j.port →
    (pageJobs s (pgSTRM w.val)).queue.length < 4 → GoodRange s (srcUnit u.val) a 160 → fenceBit s (pgSTRM w.val) = false →
    strmBad s ⟨getBytes s a 160, j.port, 16, false, now s⟩ = none →
    ∃ t d, exec (.launch u) s = .next t ∧
      (pageJobs t (pgSTRM w.val)).queue.map (·.desc) = (pageJobs s (pgSTRM w.val)).queue.map (·.desc) ++ [getBytes s a 160] ∧
      (pageJobs t (pgSTRM u.val)).done = (pageJobs s (pgSTRM u.val)).done ++ [d] ∧ d.job.desc = j.desc ∧ d.status = stDONE ∧
      d.detail = 1 ∧ MemStands s t)

/-- R234, R235: SETA, ADDA, SETC and SWAP change the register they name and commit; LOOP counts down and goes to its target, or on
where the count reaches 0. Frame: no memory, no other page and no other unit changes. R182, R234, R241: SETF and CLRF write
their flag, change no other flag, commit, and release the units that wait for the value. WAITF commits where its flag has the
value, else the unit waits for it. -/
def Obligations.RegisterAndFlagInstructions : Prop :=
  (
    ∀ (u : Fin 32) (s : State),
      let v := unitOf s u.val
      let n := insnOf s u.val
      (AtInsn s u.val opSETA → ∃ t, exec (.seta u) s = .next t ∧ (unitOf t u.val).a = v.a.put 0 (iA n) (bitsOf n 39 0) ∧
        (unitOf t u.val).c = v.c ∧ (unitOf t u.val).hs = v.hs ∧ (unitOf t u.val).pc = v.pc + 1 ∧ OnlyUnit u.val s t) ∧
      (AtInsn s u.val opADDA → ∃ t, exec (.adda u) s = .next t ∧
        (((unitOf t u.val).a.get 0 (iA n) : Nat) : Int) = (((v.a.get 0 (iA n) : Nat) : Int) + toSigned 32 n) % 2 ^ 40 ∧
        (∀ i, i ≠ iA n → (unitOf t u.val).a.get 0 i = v.a.get 0 i) ∧
        (unitOf t u.val).c = v.c ∧ (unitOf t u.val).hs = v.hs ∧ (unitOf t u.val).pc = v.pc + 1 ∧ OnlyUnit u.val s t) ∧
      (AtInsn s u.val opSETC → ∃ t, exec (.setc u) s = .next t ∧ (unitOf t u.val).c = v.c.put 0 (iA n) (bitsOf n 23 0) ∧
        (unitOf t u.val).a = v.a ∧ (unitOf t u.val).hs = v.hs ∧ (unitOf t u.val).pc = v.pc + 1 ∧ OnlyUnit u.val s t) ∧
      (AtInsn s u.val opLOOP → ∃ t, exec (.loop u) s = .next t ∧ (unitOf t u.val).c.get 0 (iA n) = v.c.get 0 (iA n) - 1 ∧
        (unitOf t u.val).a = v.a ∧ (unitOf t u.val).hs = v.hs ∧
        (unitOf t u.val).pc = (if 1 < v.c.get 0 (iA n) then bitsOf n 6 0 else v.pc + 1) ∧ OnlyUnit u.val s t) ∧
      (AtInsn s u.val opSWAP → ∃ t, exec (.swap u) s = .next t ∧ (unitOf t u.val).hs = !v.hs ∧ (unitOf t u.val).a = v.a ∧
        (unitOf t u.val).c = v.c ∧ (unitOf t u.val).pc = v.pc + 1 ∧ OnlyUnit u.val s t)) ∧
  (
    ∀ (u : Fin 32) (s : State),
      let v := unitOf s u.val
      let n := insnOf s u.val
      let f := insnFlag v n
      f < 524288 → ready s pgRES = true → bankBad s (groupAddr (f / 64)) = false → markOf s (groupAddr (f / 64)) = .good →
      (∀ b, AtInsn s u.val (if b then opSETF else opCLRF) →
        ∃ t, exec (if b then .setf u [] else .clrf u []) s = .next t ∧ flagValue t f = b ∧ (∀ g, g ≠ f → flagValue t g = flagValue s g) ∧
          (unitOf t u.val).pc = v.pc + 1 ∧
          ∀ w, w ≠ u.val → (unitOf s w).waitFlag = some (f, b) → (unitOf t w).released = true) ∧
      (AtInsn s u.val opWAITF → v.released = false →
        ∃ t, exec (.waitf u) s = .next t ∧ OnlyUnit u.val s t ∧
          (if flagValue s f = bitOf n 19 then (unitOf t u.val).pc = v.pc + 1
           else (unitOf t u.val).pc = v.pc ∧ (unitOf t u.val).waitFlag = some (f, bitOf n 19))))

/-- R236 to R238, R240: an XFER of one row from good memory to good memory that passes the filter stores exactly its row, steps its
address registers by their increments and commits. A PREF commits and changes no register. -/
def Obligations.TransferMovesItsRow : Prop :=
  ∀ (u : Fin 32) (s : State),
    let v := unitOf s u.val
    let n := insnOf s u.val
    let x := shX v (iShape n)
    let src := operandBase v v.a v.hs (iA n) false (iSrcH n)
    let dst := operandBase v v.a v.hs (iDstA n) false (iDstH n)
    (AtInsn s u.val opXFER → filterInsn s v v.a v.hs n = none → iSrcPort n = false → iDstKind n = 0 → 1 ≤ x →
      shY v (iShape n) = 1 → shZ v (iShape n) = 1 → v.lines = [] → GoodRange s (srcUnit u.val) src x →
      GoodRange s (srcUnit u.val) dst x →
      ∃ t, exec (.xfer u) s = .next t ∧ getBytes t dst x = getBytes s src x ∧ MemStandsBut dst x s t ∧
        (unitOf t u.val).a = (unitOf (xferIncs u.val n s) u.val).a ∧ (unitOf t u.val).c = v.c ∧ (unitOf t u.val).pc = v.pc + 1) ∧
    (AtInsn s u.val opPREF → filterInsn s v v.a v.hs n = none →
      ∃ t, exec (.pref u) s = .next t ∧ (unitOf t u.val).a = v.a ∧ (unitOf t u.val).c = v.c ∧ (unitOf t u.val).pc = v.pc + 1)

/-- R241, R265 to R267: WAITS takes its count when the side has it and nobody waits before it, else it joins the waiters and the
unit stands. SIGS adds its count, at most 255, and commits. R265, R266, R269, R276: a host's signal adds its count and holds at
255 with the pair's overflow bit; a count of 0 is rejected. A restore puts the pairs it names at their rest counts. A trigger
clear zeroes the input it names. -/
def Obligations.SemaphoresAndTriggers : Prop :=
  (
    ∀ (u : Fin 32) (s : State),
      let v := unitOf s u.val
      let n := insnOf s u.val
      semQueue s (iSem n) (iSide n) = [] →
      (AtInsn s u.val opWAITS → semGranted s (.stream u.val) = false → semWaiting s (.stream u.val) = false →
        ∃ t, exec (.waits u) s = .next t ∧ MemStands s t ∧
          (if iK n ≤ semCount s (iSem n) (iSide n) then
            semCount t (iSem n) (iSide n) = semCount s (iSem n) (iSide n) - iK n ∧ (unitOf t u.val).pc = v.pc + 1
           else semCount t (iSem n) (iSide n) = semCount s (iSem n) (iSide n) ∧ (unitOf t u.val).pc = v.pc ∧
            semQueue t (iSem n) (iSide n) = [⟨.stream u.val, iK n⟩])) ∧
      (AtInsn s u.val opSIGS →
        ∃ t, exec (.sigs u) s = .next t ∧ MemStands s t ∧ (unitOf t u.val).pc = v.pc + 1 ∧
          semCount t (iSem n) (iSide n) = min 255 (semCount s (iSem n) (iSide n) + iK n) ∧
          (∀ m e, m < 256 → ¬(m = iSem n ∧ e = iSide n) → semCount t m e = semCount s m e))) ∧
  (
    (∀ (q : Port) (k : Fin 4) (w : Word) (s : State), MayWrite s q (pgSEMA k.val) 0x084 →
      let m := 64 * k.val + fld w 5 0
      let e := flag w 8
      ∃ t, exec (.semaSig q k w) s = .next t ∧ MemStands s t ∧
        (fld w 15 12 = 0 → semCount t m e = semCount s m e ∧ Told t q (pgSEMA k.val) cCMD_REJ (0x084 + 12 * 2 ^ 12 + q.num * 2 ^ 20)) ∧
        (fld w 15 12 ≠ 0 → semQueue s m e = [] → semCount t m e = min 255 (semCount s m e + fld w 15 12) ∧
          (255 < semCount s m e + fld w 15 12 → rdB t (pgSEMA k.val) (0x088 + 4 * (m % 64 / 32)) (m % 32) = true))) ∧
    (∀ (q : Port) (k : Fin 4) (w : Word) (s : State), MayWrite s q (pgSEMA k.val) 0x080 →
      ∃ t, exec (.semaRestore q k w []) s = .next t ∧ MemStands s t ∧
        ∀ m, m / 64 = k.val → (flag w 8 = true ∨ m % 64 = fld w 5 0) → (∀ e, semQueue s m e = []) → atRest t m = true) ∧
    (∀ (q : Port) (p off : Nat) (w : Word) (s : State), trigClrOff p = some off → MayWrite s q p off →
      ∃ t, exec (.trigClr q p w) s = .next t ∧ RegsStandBut [p] s t ∧ MemStands s t ∧
        (if kindOf p = some .sema then trigCount t (pgSTRM ((p - 0x060) * 8 + fld w 2 0)) (fld w 5 4) = 0
         else trigCount t p (fld w 1 0) = 0)))

/-- R242 to R244, R253, R259: DRAIN commits when every pair the unit signalled is at rest, else it waits; MARK commits; a missed
mark is counted once; END ends the job with DONE, running past the program with 0x0502, a passed deadline with ABORT_DEADLINE.
R226, R277, R283: run-ahead of a SETA changes only the run-ahead; a tentative request from an open pool takes a tentative
buffer; a prefetch fence discards the unit's lines, and its end advances the fence number and is told. -/
def Obligations.DrainMarkEndAndRunAhead : Prop :=
  (
    ∀ (u : Fin 32) (s : State),
      let v := unitOf s u.val
      let n := insnOf s u.val
      (AtInsn s u.val opDRAIN → ∃ t, exec (.drain u) s = .next t ∧ OnlyUnit u.val s t ∧
        (if bitOf n 0 = true ∨ v.signalled.all (atRest s) = true then (unitOf t u.val).pc = v.pc + 1
         else (unitOf t u.val).pc = v.pc ∧ (unitOf t u.val).draining = true)) ∧
      (AtInsn s u.val opMARK → ∃ t, exec (.mark u) s = .next t ∧ OnlyUnit u.val s t ∧ (unitOf t u.val).pc = v.pc + 1) ∧
      (∀ pc, (runningRun s u.val).isSome = true → rd64 s (pgSTRM u.val) 0x090 ≠ 0 → nextMark v markFuel v.pc v.c = some pc →
        v.missed.contains (bitsOf (v.prog.get 0 pc) 39 32) = false →
        rd64 s (pgSTRM u.val) 0x090 + bitsOf (v.prog.get 0 pc) 31 0 < now s →
        ∃ t, exec (.markDeadlineMiss u) s = .next t ∧ OnlyUnit u.val s t ∧
          (unitOf t u.val).missed = v.missed ++ [bitsOf (v.prog.get 0 pc) 39 32] ∧
          rd t (pgSTRM u.val) 0x0A0 = BitVec.ofNat 32 ((rd s (pgSTRM u.val) 0x0A0).toNat + 1)) ∧
      (∀ j, runningRun s u.val = some j →
        (AtInsn s u.val opEND → ∃ t, exec (.agEnd u) s = .next t ∧ Ended s t (pgSTRM u.val) j stDONE ∧ MemStands s t) ∧
        (v.progLen ≤ v.pc → ∃ t, exec (.agPcOverrun u) s = .next t ∧ Ended s t (pgSTRM u.val) j 0x0502 ∧ MemStands s t) ∧
        (pastDeadline s j.deadline = true →
          ∃ t, exec (.runJobDeadline u) s = .next t ∧ Ended s t (pgSTRM u.val) j stABORT_DEADLINE ∧ MemStands s t))) ∧
  (
    (∀ (u : Fin 32) (s : State), (runningRun s u.val).isSome = true → pageOn s (pgSTRM u.val) = true →
      let v := unitOf s u.val
      let r := raOf v
      r.pc < v.progLen → iOp (v.prog.get 0 r.pc) = opSETA →
      ∃ t, exec (.runaheadIssue u) s = .next t ∧ t.regs = s.regs ∧ t.jobs = s.jobs ∧
        unitOf t u.val = { v with paused := false, ra := some { r with
          pc := r.pc + 1, ahead := r.ahead + 1, a := r.a.put 0 (iA (v.prog.get 0 r.pc)) (bitsOf (v.prog.get 0 r.pc) 39 0)
          pend := r.pend.put 0 (iA (v.prog.get 0 r.pc)) 0 } }) ∧
    (∀ (u : Fin 32) (m : Nat) (j : Job) (s : State), MewsWf s → runningRun s u.val = some j →
      let v := unitOf s u.val
      let r := raOf v
      let n := v.prog.get 0 r.pc
      r.pc < v.progLen → iOp n = opXFER → iDstKind n = 2 → raBlind s u.val r n = false →
      filterInsn s v (raRegs s u.val r) r.hs n = none → tentDue s u.val r = true → tentOut s u.val < 4 → 1 ≤ bufSize v (iShape n) →
      bufSize v (iShape n) ≤ 4194304 →
      fenceBit s pgMEWS = false → ownerFenced s j.owner = false → homePool s (bufSize v (iShape n)).toNat = some m →
      openNow s m false = true →
      ∃ t h, exec (.tentative u) s = .next t ∧ ⟨.ahead u.val r.bufs, mwOK, h⟩ ∈ t.mews.answers ∧ current t h = true ∧
        (bufOf t m (hIndex h)).tent = true ∧ MemStands s t) ∧
    (∀ (q : Port) (u : Fin 32) (s : State), MayWrite s q (pgSTRM u.val) 0x098 → (unitOf s u.val).fencing = false →
      ∃ t, exec (.strmFence q u) s = .next t ∧ (unitOf t u.val).lines = [] ∧ OnlyUnit u.val s t ∧
        (if (pageJobs s (pgSTRM u.val)).running = [] then (unitOf t u.val).fencing = false ∧
          rdF t (pgSTRM u.val) 0x09C 15 0 = (rdF s (pgSTRM u.val) 0x09C 15 0 + 1) % 65536 else (unitOf t u.val).fencing = true)) ∧
    (∀ (u : Fin 32) (s : State), pageOn s (pgSTRM u.val) = true → (unitOf s u.val).fencing = true →
      ∃ t, exec (.fenceDone u) s = .next t ∧ (unitOf t u.val).fencing = false ∧ OnlyUnit u.val s t ∧
        rdF t (pgSTRM u.val) 0x09C 15 0 = (rdF s (pgSTRM u.val) 0x09C 15 0 + 1) % 65536 ∧
        Told t (owner s (pgSTRM u.val)) (pgSTRM u.val) 0x100 ((rdF s (pgSTRM u.val) 0x09C 15 0 + 1) % 65536)))

/-! ## Tensor cores and generation (chapters 10 and 11) -/

/-- R292 to R296, R298: a LAYERS job whose dependencies hold starts before its first layer; a layer whose descriptor is good comes
under way, and one with a bad field ends the job naming the field; a layer whose blocks are done is counted, and the last one
ends the job. R297, R300, R302, R304, R311: a core that holds its halves writes the block its operation computes from them to
its output half and goes on to the next; one whose A half is not there waits for it. A weight half arrives at the next member of
a chain whole; a member whose layer does not match ends its job. -/
def Obligations.LayersBlocksAndChains : Prop :=
  (
    ∀ (c : Fin 4) (s : State),
      let p := pgTC c.val
      let v := coreOf s c.val
      (∀ j rest, (pageJobs s p).queue = j :: rest → (pageJobs s p).running = [] → depsMet s p j (tcAddrs j) = true →
        chainReady s c.val j = true → pastDeadline s j.deadline = false → tcTrig j = none →
        ∃ t, exec (.layersJobStart c) s = .next t ∧ (pageJobs t p).running = [{ j with accepted := now s }] ∧
          (pageJobs t p).queue = rest ∧ coreOf t c.val = { v.rest with st := 1 } ∧ t.regs = s.regs ∧ MemStands s t) ∧
      (∀ j, layerDue s c.val = some j → pageOn s p = true → GoodRange s (srcJob j) (tcList j + 128 * v.layer) 128 →
        pastDeadline s j.deadline = false →
        let d := getBytes s (tcList j + 128 * v.layer) 128
        (layerBad c.val d = none → layerCapacity d = 0 →
          ∃ t, exec (.layerStart c) s = .next t ∧ (coreOf t c.val).active = true ∧ (coreOf t c.val).desc = d ∧
            (coreOf t c.val).layer = v.layer ∧ (coreOf t c.val).blk = 0 ∧ MemStands s t) ∧
        (∀ b, layerBad c.val d = some b →
          ∃ t, exec (.layerStart c) s = .next t ∧ Ended s t p j stABORT_BAD_DESC ∧ MemStands s t)) ∧
      (∀ j, running s p = some j → v.active = true → gBlocks v.desc ≤ v.blk → (wHalf v 0).full = false → (wHalf v 1).full = false →
        pageOn s p = true →
        ∃ t, exec (.layerEnd c) s = .next t ∧ MemStands s t ∧ rd t p 0x094 = BitVec.ofNat 32 ((rd s p 0x094).toNat + 1) ∧
          (v.layer + 1 < tcCount j → (coreOf t c.val).active = false ∧ (coreOf t c.val).layer = v.layer + 1) ∧
          (tcCount j ≤ v.layer + 1 → Ended s t p j (if v.flags = 0 then stDONE else stDONE_FLAGGED)))) ∧
  (
    ∀ (c : Fin 4) (s : State), pageOn s (pgTC c.val) = true →
      let p := pgTC c.val
      let v := coreOf s c.val
      let b := blkOf v.desc v.blk
      let out := (layerBlock v.desc v.params (halfByte s c.val 0 v.wNext) (halfByte s c.val 1 v.aNext) (halfByte s c.val 3 v.xNext)
        b.2.1 b.2.2).1
      ((running s p).isSome = true → v.active = true → v.blk < gBlocks v.desc → ldOPC v.desc ≠ 0x0C →
        (usesBit v.desc 0 = false ∨ v.wHeld = true) →
        (v.aHeld = true → (usesBit v.desc 3 = false ∨ v.xHeld = true) → v.oHeld = true → v.oNext ≤ 1 →
          ∃ t, exec (.outputBlock c) s = .next t ∧ (coreOf t c.val).blk = v.blk + 1 ∧ (coreOf t c.val).oNext = 1 - v.oNext ∧
            (endpointOf t p 2).lens.get 0 v.oNext = out.length ∧ portBytes t p 2 (decide (v.oNext = 1)) 0 out.length = out ∧
            MemStands s t) ∧
        (v.aHeld = false → semGranted s (.tc c.val 1) = false → semWaiting s (.tc c.val 1) = false →
          semQueue s (ldSem v.desc 1) false = [] → semCount s (ldSem v.desc 1) false = 0 →
          ∃ t, exec (.outputBlock c) s = .next t ∧ (coreOf t c.val).st = 3 ∧ (coreOf t c.val).blk = v.blk ∧
            semWaiting t (.tc c.val 1) = true ∧ t.endpoints = s.endpoints)) ∧
      (let u := coreOf s (c.val - 1)
       c.val ≠ 0 → pageOn s (pgTC (c.val - 1)) = true → v.active = true → u.active = true → hasNext u.desc = true →
        (wHalf u u.wSend).full = true → (wHalf u u.wSend).sent = false →
        (ldPos u.desc ≠ 0 ∨ wTotal u.desc ≤ u.wTaken ∨ (wHalf u u.wNext).full = true) → (ldPos v.desc = 0 ∨ v.wTaken < wTotal v.desc) →
        (chainGeometry v.desc = chainGeometry u.desc → ldPos v.desc = ldPos u.desc + 1 → (wHalf v u.wSend).full = false →
          ∃ t, exec (.chainHalfArrive c) s = .next t ∧ (wHalf (coreOf t c.val) u.wSend).full = true ∧
            (coreOf t c.val).wTaken = v.wTaken + 1 ∧ (v.wTaken = 0 → (coreOf t c.val).wNext = u.wSend) ∧
            (coreOf t (c.val - 1)).wSend = 1 - u.wSend ∧
            portBytes t p 0 (decide (u.wSend = 1)) 0 524288 = portBytes s (pgTC (c.val - 1)) 0 (decide (u.wSend = 1)) 0 524288 ∧
            MemStands s t) ∧
        (∀ j, running s p = some j → (chainGeometry v.desc ≠ chainGeometry u.desc ∨ ldPos v.desc ≠ ldPos u.desc + 1) →
          ∃ t, exec (.chainHalfArrive c) s = .next t ∧ Ended s t p j 0x0500 ∧ MemStands s t)))

/-- R330, R332, R334, R335, R346: a BIND is refused while a slot is busy, else it binds (two commands: the model's choice, log entry
237): the binding BIND of a good image binds it and shows its CRC-32; a SEQ takes a free slot, or continues a kept one with its
position and pages, under the job's owner; a DRAFT replaces the slot's drafts; a STOP marks a running slot and frees a kept one. -/
def Obligations.GenerationJobs : Prop :=
  ∀ (j : Job) (s : State), depsMet s pgGEN j (genAddrs j) = true → pastDeadline s j.deadline = false →
    let next (op : Nat) : Prop := (pageJobs s pgGEN).queue.find? (fun x => decide (x.op = op)) = some j
    let done (t : State) : Prop := ∃ d, (pageJobs t pgGEN).done = (pageJobs s pgGEN).done ++ [d] ∧ d.job.desc = j.desc ∧ d.status = stDONE
    let n := bitsOf (byteAt j.desc 32) 3 0
    (next 1 → busyMask s = 0 → bindingJob s = none →
      ∃ t, exec .genBind s = .next t ∧ bindingJob t = some { j with accepted := now s } ∧ t.gen = s.gen ∧ MemStands s t) ∧
    (next 1 → busyMask s ≠ 0 → bindingJob s = none →
      ∃ t, exec .genBind s = .next t ∧ t.gen = s.gen ∧ MemStands s t ∧
        ∃ d, (pageJobs t pgGEN).done = (pageJobs s pgGEN).done ++ [d] ∧ d.job.desc = j.desc ∧ d.status = 0x0502 ∧ d.detail = busyMask s) ∧
    (bindingJob s = some j → pageOn s pgGEN = true → GoodRange s .generation (leAt j.desc 32 8) 64 →
      let h := getBytes s (leAt j.desc 32 8) 64
      let tab := getBytes s (leAt h 8 8) (32 * leAt h 4 4)
      genImageBad s h = none → GoodRange s .generation (leAt h 8 8) (32 * leAt h 4 4) → actionsBad s h (leAt h 8 8) (leAt h 4 4) 0 = none →
      4194304 + 262144 * leAt h 16 2 ≤ leAt j.desc 48 4 * 65536 →
      ∃ t, exec .genBind s = .next t ∧ done t ∧ t.gen.bound = true ∧ t.gen.ws = leAt j.desc 40 8 ∧ t.gen.actions = leAt h 8 8 ∧
        t.gen.actionCount = leAt h 4 4 ∧ rd t pgGEN 0x088 = BitVec.ofNat 32 (Crypto.crc32 (h ++ tab)) ∧ MemStands s t) ∧
    (next 2 → bindingJob s = none → s.gen.bound = true →
      ((slotOf s n).st = 0 ∧ seqContinue j = false ∨ (slotOf s n).st = 2 ∧ seqContinue j = true) →
      (slotOf s n).next + seqPromptLen j ≤ 32767 →
      ∃ t, exec .seq s = .next t ∧ (slotOf t n).st = 1 ∧ (slotOf t n).job = some { j with accepted := now s } ∧
        (slotOf t n).emitted = 0 ∧ (slotOf t n).fed = 0 ∧ (slotOf t n).next = (slotOf s n).next ∧
        (slotOf t n).pages = (slotOf s n).pages ∧ (slotOf t n).owner = j.owner ∧ (∀ m, m ≠ n → slotOf t m = slotOf s m) ∧ MemStands s t ∧
        (pageJobs t pgGEN).running = (pageJobs s pgGEN).running ++ [{ j with accepted := now s }]) ∧
    (next 3 → bindingJob s = none → s.gen.bound = true →
      ∃ t, exec .draft s = .next t ∧ done t ∧ (slotOf t n).fromPos = leAt j.desc 36 4 ∧
        (slotOf t n).drafts = (List.range (byteAt j.desc 33)).map (fun i => leAt j.desc (40 + 4 * i) 4) ∧
        (∀ m, m ≠ n → slotOf t m = slotOf s m) ∧ MemStands s t) ∧
    (next 4 → bindingJob s = none → ∃ t, exec .stop s = .next t ∧ done t ∧ MemStands s t ∧ (∀ m, m ≠ n → slotOf t m = slotOf s m) ∧
      ((slotOf s n).st = 1 → slotOf t n = { slotOf s n with stop := true }) ∧
      ((slotOf s n).st = 2 → (slotOf t n).st = 0 ∧ (slotOf t n).pages = []))

/-- R338 to R341: with the pages of its rows held and its prompts good, a step is planned over the rows that `GEN_CFG` admits; a
step whose actions, candidates and transfers are done ends, is counted, and its prompt rows are fed. -/
def Obligations.StepsArePlannedAndEnd : Prop :=
  (∀ s : State, s.gen.step = false → s.gen.bound = true → enabled s pgGEN = true → pageOn s pgGEN = true → s.gen.retryAt ≤ now s →
    s.gen.slots.any (fun e => decide (e.2.st = 1)) = true → planningReady s = true →
    (∀ n < 16, (slotOf s n).stop = false ∧ (slotOf s n).drafts = []) →
    let rows := planRows s (List.range 16) (genMaxRows s)
    rows ≠ [] →
    (∀ r ∈ rows, ∀ k ∈ pageKeys s ((slotOf s r.1).next + r.2.1 - 1), (slotOf s r.1).pages.get 0 k ≠ 0) →
    (∀ r ∈ rows, ∀ j, (slotOf s r.1).job = some j → promptLeft (slotOf s r.1) ≠ 0 →
      GoodRange s .generation (seqPrompt j + 4 * (slotOf s r.1).fed) (4 * r.2.1)) →
    ∃ t, exec .stepPlanning s = .next t ∧ t.gen.step = true ∧
      t.gen.plan.map (fun p => (p.slot, p.nrows)) = rows.map (fun r => (r.1, r.2.1)) ∧ t.gen.startAt = now s ∧ t.gen.nextAct = 0) ∧
  (∀ (p : GenPlan) (s : State), s.gen.step = true → s.gen.nextAct = s.gen.actionCount → s.gen.sent = [] → s.gen.mover = [] →
    s.gen.plan = [p] → p.ns = 0 → pageOn s pgGEN = true → promptLeft (slotOf s p.slot) ≠ 0 → (slotOf s p.slot).ending = 0 →
    ∃ t, exec .stepEnd s = .next t ∧ t.gen.step = false ∧ t.gen.plan = [] ∧ (slotOf t p.slot).fed = (slotOf s p.slot).fed + p.nrows ∧
      (slotOf t p.slot).next = (slotOf s p.slot).next + p.nrows ∧
      rd t pgGEN 0x08C = BitVec.ofNat 32 ((rd s pgGEN 0x08C).toNat + 1) ∧ MemStands s t)

/-- R336, R337, R344, R349: a KV action joins the mover's queue; a template is copied, patched and delivered to its target's page,
for each slot of the step in turn where it is PER_SEQ; a KV load whose semaphore has a count moves one half and signals the other
side, a KV store one block, each row to its place in its page; the sampler takes its candidates and emits the token of a sampled
row at the sequence's output. -/
def Obligations.ActionsTransfersAndTokens : Prop :=
  ∀ s : State, pageOn s pgGEN = true →
    (s.gen.step = true → s.gen.nextAct < s.gen.actionCount → canUse s .generation s.gen.actions 32 = true →
      canUse s .generation s.gen.ws 1 = true → GoodRange s .generation (s.gen.actions + 32 * s.gen.nextAct) 32 →
      let a := getBytes s (s.gen.actions + 32 * s.gen.nextAct) 32
      let p := if actPerSeq a then s.gen.plan.getD s.gen.nextPlan noPlan else noPlan
      let more := actPerSeq a && decide (s.gen.nextPlan + 1 < s.gen.plan.length)
      let moved (t : State) : Prop := t.gen.nextAct = s.gen.nextAct + (if more then 0 else 1) ∧
        t.gen.nextPlan = (if more then s.gen.nextPlan + 1 else 0)
      let target := if actKind a = 1 then pgSTRM (byteAt a 1) else pgTC (byteAt a 1)
      (actKind a ≠ 1 → actKind a ≠ 2 →
        ∃ t, exec .actionDeliver s = .next t ∧ moved t ∧ MemStands s t ∧ t.gen.mover = s.gen.mover ++
          [⟨decide (actKind a = 3), byteAt a 1, bitOf (byteAt a 2) 1, leAt a 4 2, byteAt a 6, leAt a 24 2,
            if actPerSeq a then some p.slot else none, s.gen.nextAct, 0, 0, false, 0⟩]) ∧
      ((actKind a = 1 ∨ actKind a = 2) → (pageJobs s target).queue.length < 4 → pageOn s target = true → goingOff s target = false →
        GoodRange s .generation (leAt a 8 8) (actSize s a) →
        (byteAt a 3 ≠ 0 → GoodRange s .generation (leAt a 16 8) (8 * byteAt a 3)) →
        let c := patch (getBytes s (leAt a 8 8) (actSize s a)) 16 (leBytes 8 (wsDone s s.gen.seq))
        let c := if actKind a = 2 then patch c 32 (leBytes 8 (wsCopy s s.gen.seq + 64)) else c
        let c := applyPatches s p (getBytes s (leAt a 16 8) (8 * byteAt a 3)) (byteAt a 3) 0 c
        ∃ t, exec .actionDeliver s = .next t ∧ moved t ∧ t.gen.seq = s.gen.seq + 1 ∧ t.gen.mover = s.gen.mover ∧
          (fenceBit s target = false → ∃ j, j.desc = c.take (if actKind a = 1 then 160 else 64) ∧
            ((pageJobs t target).queue = (pageJobs s target).queue ++ [j] ∨
              ∃ d, (pageJobs t target).done = (pageJobs s target).done ++ [d] ∧ d.job = j ∧ d.status = stABORT_BAD_DESC)) ∧
          (GoodRange s .generation (wsCopy s s.gen.seq) c.length → getBytes t (wsCopy s s.gen.seq) c.length = c ∧
            MemStandsBut (wsCopy s s.gen.seq) c.length s t))) ∧
    (∀ (a : KvAct) (p : GenPlan) (rest : List KvAct), s.gen.mover = a :: rest → a.load = true → pageOn s (pgTC a.core) = true →
      a.slot = some p.slot → s.gen.plan.find? (fun x => decide (x.slot = p.slot)) = some p → a.sem < 256 →
      semQueue s a.sem true = [] → 1 ≤ semCount s a.sem true → semQueue s a.sem false = [] →
      semCount s a.sem false < 255 → semGranted s (.kv a.core 0) = false → semWaiting s (.kv a.core 0) = false →
      let ctx := p.pos + p.nrows
      (∀ g b, g < ceilDiv (min a.nbTok (ctx - a.tok)) 16 → b < s.gen.headDim / 32 →
        GoodRange s .generation (kvRun s p.slot a.layer (a.tok / 16 + g) a.values a.head b) 1024) →
      ∃ t, exec .kvLoad s = .next t ∧ semCount t a.sem true = semCount s a.sem true - 1 ∧
        semCount t a.sem false = semCount s a.sem false + 1 ∧ MemStands s t ∧
        (if a.tok + a.nbTok < ctx then t.gen.mover = { a with tok := a.tok + a.nbTok, hs := !a.hs } :: rest
         else if a.head + 1 < s.gen.kvHeads then t.gen.mover = { a with head := a.head + 1, tok := 0, hs := !a.hs } :: rest
         else t.gen.mover = rest)) ∧
    (∀ (a : KvAct) (rest : List KvAct), s.gen.mover = a :: rest → a.load = false → pageOn s (pgTC a.core) = true → a.sem < 256 →
      semQueue s a.sem true = [] → 1 ≤ semCount s a.sem false → semQueue s a.sem false = [] →
      semCount s a.sem true < 255 → semGranted s (.kv a.core 2) = false → semWaiting s (.kv a.core 2) = false →
      fenceBit s (pgTC a.core) = false →
      let w := 2 * s.gen.kvHeads * s.gen.headDim * 2
      let n := (endpointOf s (pgTC a.core) 2).lens.get 0 (b2n a.hs) / w
      let rows := ((kvRows s a).drop a.rows).take n
      (∀ x ∈ rows, canUse s .generation (kvRun s x.1 a.layer (x.2 / 16) false 0 0) (pageBytes s) = true) →
      ∃ t, exec .kvStore s = .next t ∧ semCount t a.sem false = semCount s a.sem false - 1 ∧
        semCount t a.sem true = semCount s a.sem true + 1 ∧
        t.gen.mover = (if a.rows + max 1 n < (kvRows s a).length then [{ a with rows := a.rows + max 1 n, hs := !a.hs }] else []) ++ rest ∧
        (∀ slot pos, rows = [(slot, pos)] → s.gen.headDim % 32 = 0 →
          let page := kvRun s slot a.layer (pos / 16) false 0 0
          GoodRange s .generation page (pageBytes s) →
          MemStandsBut page (pageBytes s) s t ∧
          ∀ h d i, h < s.gen.kvHeads → d < s.gen.headDim → i < 2 →
            let k := (h * s.gen.headDim + d) * 2 + i
            getBytes t (kvRun s slot a.layer (pos / 16) false h (d / 32) + pos % 16 * 64 + d % 32 * 2 + i) 1 =
              portBytes s (pgTC a.core) 2 a.hs k 1 ∧
            getBytes t (kvRun s slot a.layer (pos / 16) true h (d / 32) + d % 32 * 32 + pos % 16 * 2 + i) 1 =
              portBytes s (pgTC a.core) 2 a.hs (w / 2 + k) 1)) ∧
    (∀ (p : GenPlan) (j : Job), s.gen.step = true → s.gen.sampled = false → s.gen.plan = [p] → p.ns = 1 → p.drafts = [] →
      (slotOf s p.slot).job = some j → s.gen.semCand < 256 → semQueue s s.gen.semCand false = [] →
      1 ≤ semCount s s.gen.semCand false → semGranted s .sampler = false → semWaiting s .sampler = false →
      (slotOf s p.slot).emitted < seqMaxNew j → GoodRange s .generation (seqOut j + 4 * (slotOf s p.slot).emitted) 4 →
      let b := portBytes s pgGEN 0 false 0 8192
      let o := sampleRow j s.gen.vocab (p.pos + p.nrows) ((List.range 64).map (fun i => leAt b (512 * p.srow0 + 8 * i) 4))
        ((List.range 64).map (fun i => leAt b (512 * p.srow0 + 8 * i + 4) 4))
      ∃ t, exec .sampleToken s = .next t ∧ t.gen.sampled = true ∧ (slotOf t p.slot).emitted = (slotOf s p.slot).emitted + 1 ∧
        (slotOf t p.slot).pend = o ∧ (slotOf t p.slot).next = p.pos + p.nrows ∧
        getBytes t (seqOut j + 4 * (slotOf s p.slot).emitted) 4 = leBytes 4 o ∧
        MemStandsBut (seqOut j + 4 * (slotOf s p.slot).emitted) 4 s t)

/-! ## Sensor intake (chapter 12) -/

/-- R356, R357, R373, R383 to R385: a frame, transaction or line that an interface accepts becomes one record of its ring, written
whole at TAIL; a CAN frame that finds the ring disabled is dropped and counted. -/
def Obligations.InterfacesFillTheirRings : Prop :=
  (∀ (k : Fin 2) (f : CanFrame) (s : State), accepts s (pgCAN k.val) = true → (rdF s (pgCAN k.val) 0x0A0 1 0 = 1 ∨ rdF s (pgCAN k.val) 0x0A0 1 0 = 2) →
    canState s k.val ≠ 2 → canPasses s k.val f = true →
    (∀ c, RingTakes s (pgCAN k.val) c →
      ∃ t, exec (.canFrameReceive k f) s = .next t ∧ RecordLands s t (pgCAN k.val) c f.stamp 0x01 0
        (leBytes 4 (f.id % 2 ^ 29 + b2n f.ide * 2 ^ 29 + b2n f.fdf * 2 ^ 30 + b2n f.brs * 2 ^ 31) ++ leBytes 1 (f.dlc % 16) ++
          leBytes 1 (b2n f.rtr + 2 * b2n f.esi) ++ zeros 2 ++ f.data.take 64)) ∧
    (rdB s (pgCAN k.val) 0x088 31 = false →
      ∃ t, exec (.canFrameReceive k f) s = .next t ∧ MemStands s t ∧
        rd t (pgCAN k.val) 0x094 = BitVec.ofNat 32 ((rd s (pgCAN k.val) 0x094).toNat + 1) ∧
        (inRing t (pgCAN k.val) false).lost = (inRing s (pgCAN k.val) false).lost + 1)) ∧
  (∀ (k : Fin 2) (rx : List Byte) (c : RingSpec) (s : State), (spiOf s k.val).active = true → (spiOf s k.val).len ≤ 64 →
    accepts s (pgSPI k.val) = true → RingTakes s (pgSPI k.val) c →
    ∃ t, exec (.spiTransactionEnd k rx) s = .next t ∧ (spiOf t k.val).active = false ∧
      RecordLands s t (pgSPI k.val) c (spiOf s k.val).start 0x10 0 (rx.take (spiOf s k.val).len)) ∧
  (∀ (m : Fin 2) (frame : List Byte) (stamp : Nat) (c : RingSpec) (s : State), accepts s (pgETH m.val) = true → rdB s (pgETH m.val) 0x0A4 0 = true →
    frame.length ≤ 1518 → beAt frame 12 2 ≠ 0x8808 → ethAccepts s m.val frame = true → udpOf frame = none → RingTakes s (pgETH m.val) c →
    ∃ t, exec (.ethFrameReceive m frame true stamp) s = .next t ∧ RecordLands s t (pgETH m.val) c stamp 0x30 0 frame) ∧
  (∀ (u : Fin 2) (s : State), accepts s (pgUART u.val) = true →
    let v := uartOf s u.val
    v.buf ≠ [] → v.buf.length < 111 →
    (∀ c start, rdB s (pgUART u.val) 0x0A0 25 = false → RingTakes s (pgUART u.val) c →
      ∃ t, exec (.uartRxByte u 0x0A start false false false) s = .next t ∧ (uartOf t u.val).buf = [] ∧
        RecordLands s t (pgUART u.val) c v.tb 0x20 (nmeaCheck (v.buf ++ [0x0A]) + 8 * b2n v.fresh + 16 * b2n v.err) (v.buf ++ [0x0A])) ∧
    (∀ c, rdB s (pgUART u.val) 0x0A0 25 = true → RingTakes s (pgUART u.val) c →
      ∃ t, exec (.uartIdleTimeout u) s = .next t ∧ (uartOf t u.val).buf = [] ∧
        RecordLands s t (pgUART u.val) c v.tb 0x21 (8 * b2n v.fresh + 16 * b2n v.err) v.buf) ∧
    (∀ b start, b ≠ 0x0A →
      ∃ t, exec (.uartRxByte u b start false false false) s = .next t ∧ (uartOf t u.val).buf = v.buf ++ [b] ∧ t.regs = s.regs ∧
        MemStands s t))

/-- R360 to R362, R365, R369, R370: a Frame Start gives a bound camera its next frame; each good line is stored at its place in the
frame's slot; a Frame End after the last line writes the header and makes the frame present, and one with a line lost counts the
frame as lost. A receiver that loses synchronisation says so. R358, R363, R366, R372: a lookup reads its answer and changes
nothing; a flush invalidates every slot that no job pins and hides the pinned ones; a good camera configuration is latched at
its enable, a bad one clears the enable; so do the intake rings. -/
def Obligations.CamerasAndFrameStore : Prop :=
  (
    ∀ (r : Fin 8) (vc : Fin 4) (s : State),
      (∀ c frameNo, boundCam s r.val vc.val = some c → (camOf s c).active = false → fenceBit s pgFST = false →
        (slotF (camOf s c) ((lastId s c + 1) % 65536 % 8)).pins = [] →
        ∃ t, exec (.csiFrameStart r vc frameNo false) s = .next t ∧ (camOf t c).active = true ∧
          (camOf t c).id = (lastId s c + 1) % 65536 ∧ lastId t c = (lastId s c + 1) % 65536 ∧ (camOf t c).tbFs = now s ∧
          (camOf t c).lines = 0 ∧ (camOf t c).bad = 0 ∧ (slotF (camOf t c) ((lastId s c + 1) % 65536 % 8)).valid = false ∧
          (∀ d, d ≠ c → camOf t d = camOf s d) ∧ MemStands s t) ∧
      (∀ c line, boundCam s r.val vc.val = some c → (camOf s c).active = true → (camOf s c).bad = 0 →
        (camOf s c).lines < (camOf s c).height → linePixels (camOf s c).dt line = (camOf s c).width →
        let pitch := pitchOf (camOf s c).dt (camOf s c).width
        let a := slotAddr (camOf s c) ((camOf s c).id % 8) + 64 + pitch * (camOf s c).lines
        (lineBytes (camOf s c).dt pitch line).length = pitch → GoodRange s .intake a pitch →
        ∃ t, exec (.csiLongPacket r vc (camOf s c).dt line .good true) s = .next t ∧ (camOf t c).lines = (camOf s c).lines + 1 ∧
          (camOf t c).bad = 0 ∧ getBytes t a pitch = lineBytes (camOf s c).dt pitch line ∧ MemStandsBut a pitch s t) ∧
      (∀ c dt line, boundCam s r.val vc.val = some c → (camOf s c).active = true → (camOf s c).bad = 0 →
        ∃ t, exec (.csiLongPacket r vc dt line .uncorrectable true) s = .next t ∧ (camOf t c).bad = 1 ∧ MemStands s t) ∧
      (∀ c, boundCam s r.val vc.val = some c → (camOf s c).active = true →
        ∀ corrected : Bool,
        let v := { camOf s c with corrected := (camOf s c).corrected || corrected }
        let a := slotAddr v (v.id % 8)
        (v.bad = 0 → v.height ≤ v.lines → v.miss = false → (slotF v (v.id % 8)).id = v.id → (slotF v (v.id % 8)).hidden = false →
          GoodRange s .intake a 64 →
          ∃ t, exec (.csiFrameEnd r vc corrected) s = .next t ∧ (camOf t c).active = false ∧ lookupReason t c v.id = 0 ∧
            getBytes t a 64 = frameHeader c v (now s) ∧ MemStandsBut a 64 s t ∧
            rd t pgFST (camReg c 0x24) = BitVec.ofNat 32 ((rd s pgFST (camReg c 0x24)).toNat + 1)) ∧
        (v.bad ≠ 0 →
          ∃ t, exec (.csiFrameEnd r vc corrected) s = .next t ∧ (camOf t c).active = false ∧ MemStands s t ∧
            rd t pgFST (camReg c 0x28) = BitVec.ofNat 32 ((rd s pgFST (camReg c 0x28)).toNat + 1))) ∧
      (accepts s (pgCSI r.val) = true →
        ∃ t, exec (.syncLost r) s = .next t ∧ rdB t (pgCSI r.val) 0x084 8 = false ∧ rdB t (pgCSI r.val) 0x020 16 = true ∧
          RegsStandBut [pgCSI r.val] s t ∧ MemStands s t)) ∧
  (
    (∀ (q : Port) (s : State), portLive s q = true → pageOn s pgFST = true →
      ∃ t, exec (.fstLookupRead q) s = .next t ∧ (t.port q).readData = fstLookupWord s ∧ t.regs = s.regs ∧ t.fst = s.fst) ∧
    (∀ (q : Port) (c : Fin 16) (s : State), MayWrite s q pgFST (camReg c.val 0x2C) →
      ∃ t, exec (.fstCamFlush q c) s = .next t ∧ MemStands s t ∧ (∀ d, d ≠ c.val → camOf t d = camOf s d) ∧
        (∀ n, (slotF (camOf s c.val) n).pins = [] → (slotF (camOf t c.val) n).valid = false) ∧
        (∀ n, (slotF (camOf s c.val) n).pins ≠ [] → (slotF (camOf s c.val) n).valid = true →
          (slotF (camOf t c.val) n).valid = true ∧ (slotF (camOf t c.val) n).hidden = true)) ∧
    (∀ (q : Port) (c : Fin 16) (w : Word) (s : State), MayWrite s q pgFST (camReg c.val 0) → camOn s c.val = false → flag w 31 = true →
      ∃ t, exec (.fstCamEnable q c w) s = .next t ∧
        (camCfgBad (landAt q pgFST (camReg c.val 0) false w s) c.val = 0 →
          camOn t c.val = true ∧ (camOf t c.val).rx = fld w 2 0 ∧ (camOf t c.val).vc = fld w 5 4 ∧ (camOf t c.val).dt = fld w 13 8 ∧
          (camOf t c.val).active = false) ∧
        (camCfgBad (landAt q pgFST (camReg c.val 0) false w s) c.val ≠ 0 → camOn t c.val = false ∧ camOf t c.val = camOf s c.val)) ∧
    (∀ (q : Port) (page : Nat) (tr : Bool) (w : Word) (c : RingSpec) (s : State), ringSpec page tr = some c → MayWrite s q page c.cfg →
      ringOn s page c = false → flag w 31 = true →
      let depth := cfgDepth (landAt q page c.cfg false w s) page c
      ∃ t, exec (.intakeRingEnable q page tr w) s = .next t ∧ MemStands s t ∧
        (isData s (cfgBase s page c) (depth * c.entry) = true → ringOn t page c = true ∧ (inRing t page tr).base = cfgBase s page c ∧
          (inRing t page tr).depth = depth ∧ rd t page c.head = 0 ∧ rd t page c.tail = 0) ∧
        (isData s (cfgBase s page c) (depth * c.entry) = false → ringOn t page c = false ∧ inRing t page tr = inRing s page tr)))

/-- R375, R379, R381, R383, R384, R386, R387: the transmit doorbell and queue of a MAC, a lidar block's end, link changes; bus-off,
error passive and recovery of a CAN controller; a SPI start; the UART's transmit FIFO; a GPIO edge, stamped and told. -/
def Obligations.SerialInterfacesAct : Prop :=
  (∀ (q : Port) (m : Fin 2) (tail : Nat) (s : State), tail < 1024 → MayWrite s q (pgETH m.val) 0x0D0 → rdB s (pgETH m.val) 0x0C8 31 = true →
    ∃ t, exec (.ethTxDoorbell q m tail) s = .next t ∧ MemStands s t ∧
      (tail < (inRing s (pgETH m.val) true).depth → (ethOf t m.val).tail = tail ∧ t.regs = s.regs) ∧
      ((inRing s (pgETH m.val) true).depth ≤ tail → ethOf t m.val = ethOf s m.val ∧
        Told t q (pgETH m.val) cCMD_REJ (0x0D0 + q.num * 2 ^ 20))) ∧
  (∀ (m : Fin 2) (s : State),
    let p := pgETH m.val
    let r := inRing s p true
    let a := r.base + rdF s p 0x0CC 9 0 * 2048
    let e := getBytes s a 2048
    accepts s p = true → rdB s p 0x0A4 0 = true → rdB s p 0x0C8 31 = true → rdF s p 0x0CC 9 0 ≠ (ethOf s m.val).tail →
    r.depth ≤ 1024 → GoodRange s .intake a 2048 → 60 ≤ leAt e 0 2 → leAt e 0 2 ≤ 1518 → byteAt e 2 = 0 → zerosAt e 3 13 = true →
    ∃ t, exec (.ethTransmit m) s = .next t ∧ (ethOf t m.val).last = (e.drop 16).take (leAt e 0 2) ∧
      rdF t p 0x0CC 9 0 = (rdF s p 0x0CC 9 0 + 1) % max 1 r.depth ∧ MemStands s t) ∧
  (∀ (m x : Fin 2) (s : State), accepts s (pgETH m.val) = true → blockDue s m.val x.val = true →
    ∃ t, exec (.lidarBlockClose m x) s = .next t ∧ (lxOf t m.val x.val).opened = false ∧
      (∀ y, y ≠ x.val → lxOf t m.val y = lxOf s m.val y)) ∧
  (∀ (m : Fin 2) (up done : Bool) (s : State), pageOn s (pgETH m.val) = true → (rdF s (pgETH m.val) 0x0A0 1 0 ≠ 0 ∨ up = false) →
    rdB s (pgETH m.val) 0x0A4 0 ≠ up →
    ∃ t, exec (.linkChange m up done) s = .next t ∧ rd t (pgETH m.val) 0x0A4 = BitVec.ofNat 32 (b2n up + 2 * b2n done) ∧
      rdB t (pgETH m.val) 0x020 16 = true ∧ RegsStandBut [pgETH m.val] s t ∧ MemStands s t) ∧
  (∀ (c : Fin 2) (tec recv : Nat) (s : State), accepts s (pgCAN c.val) = true → rdF s (pgCAN c.val) 0x0A0 1 0 = 1 →
    (canState s c.val ≠ 2 → ∃ t, exec (.busOff c tec recv) s = .next t ∧ canState t c.val = 2 ∧ RegsStandBut [pgCAN c.val] s t) ∧
    (canState s c.val = 0 → ∃ t, exec (.errorPassive c tec recv) s = .next t ∧ canState t c.val = 1 ∧ RegsStandBut [pgCAN c.val] s t)) ∧
  (∀ (q : Port) (c : Fin 2) (s : State), MayWrite s q (pgCAN c.val) 0x0B0 →
    ∃ t, exec (.canRecover q c) s = .next t ∧ canState t c.val = canState s c.val ∧
      (canState s c.val = 2 → t.canRecover.get false c.val = true ∧
        ∃ u, exec (.busRecoveryComplete c) t = .next u ∧ canState u c.val = 0 ∧ u.canRecover.get false c.val = false) ∧
      (canState s c.val ≠ 2 → Told t q (pgCAN c.val) cCMD_REJ (0x0B0 + q.num * 2 ^ 20))) ∧
  (∀ (c : Fin 2) (edge : Option (Fin 16 × Bool)) (s : State), accepts s (pgSPI c.val) = true → spiDue s c.val edge = true →
    (spiOf s c.val).active = false →
    ∃ t, exec (.spiTransactionStart c edge) s = .next t ∧ (spiOf t c.val).active = true ∧ (spiOf t c.val).start = now s ∧
      (spiOf t c.val).len = spiLen s c.val ∧ (spiOf t c.val).sent = spiTemplate s c.val (spiLen s c.val) ∧ t.regs = s.regs) ∧
  (∀ (q : Port) (u : Fin 2) (b : Byte) (s : State), MayWrite s q (pgUART u.val) 0x0A4 →
    ∃ t, exec (.uartTx q u b) s = .next t ∧
      ((uartOf s u.val).fifo.length < 64 → (uartOf t u.val).fifo = (uartOf s u.val).fifo ++ [b]) ∧
      (64 ≤ (uartOf s u.val).fifo.length → uartOf t u.val = uartOf s u.val ∧ Told t q (pgUART u.val) cCMD_REJ (0x0A4 + q.num * 2 ^ 20))) ∧
  (∀ (u : Fin 2) (b : Byte) (rest : List Byte) (s : State), pageOn s (pgUART u.val) = true → (uartOf s u.val).fifo = b :: rest →
    ∃ t, exec (.uartTxByteSent u) s = .next t ∧ (uartOf t u.val).fifo = rest ∧ rd t (pgUART u.val) 0x0A8 = BitVec.ofNat 32 rest.length) ∧
  (∀ (pin : Fin 16) (rising : Bool) (s : State), accepts s pgGPIO = true → rdB s pgGPIO 0x080 pin.val = false →
    rdF s pgGPIO 0x08C (2 * pin.val + 1) (2 * pin.val) = (if rising then 1 else 2) →
    ∃ t, exec (.gpioEdge pin rising) s = .next t ∧ rdB t pgGPIO 0x088 pin.val = rising ∧ rdB t pgGPIO 0x090 pin.val = true ∧
      rd64 t pgGPIO (0x100 + 8 * pin.val) = now s % 2 ^ 64 ∧ Told t (owner s pgGPIO) pgGPIO 0x100 (pin.val + 16 * b2n rising) ∧
      RegsStandBut [pgGPIO] s t ∧ MemStands s t)

/-! ## Vision, fusion, Goshawk and Fishhawk (chapters 13 to 16) -/

/-- R390, R393, R397 to R399: Warp starts on a present frame, which it pins and whose header it writes over its output; on an absent
one it writes a header with ABSENT and remembers NOREF. R391, R395, R406 to R408: a tile of the pyramid writes the filtered
pixels of its part of the level, sets its flag, and the job goes on to the next tile, or ends after the last. -/
def Obligations.VisionRunsTileByTile : Prop :=
  (
    ∀ (j : Job) (rest : List Job) (s : State), AtHead s (pgVIS 0) j rest (visAddrs 0 j) → visHold s 0 j = 0 → visTrig 0 j = none →
      clrFlags j = false → 1 ≤ leAt j.desc 36 2 → 1 ≤ leAt j.desc 38 2 → GoodRange s .vision (leAt j.desc 48 8) 64 →
      let c := byteAt j.desc 32
      let f := leAt j.desc 34 2
      let out := leAt j.desc 48 8
      let hd := getBytes s (slotAddr (camOf s c) (f % 8)) 64
      let started (t : State) : Prop := (pageJobs t (pgVIS 0)).running = [{ j with accepted := now s }] ∧
        (pageJobs t (pgVIS 0)).queue = rest ∧ (visOf t 0).tile = 0 ∧ (visOf t 0).tiles = tilesOf (leAt j.desc 36 2) (leAt j.desc 38 2) ∧
        MemStandsBut out 64 s t
      (lookupReason s c f = 0 → GoodRange s .vision (slotAddr (camOf s c) (f % 8)) 64 → dtKnown (byteAt hd 3) = true →
        1 ≤ leAt hd 4 2 → leAt hd 4 2 ≤ 4096 → 1 ≤ leAt hd 6 2 → leAt hd 6 2 ≤ 3072 →
        dataAt s (slotAddr (camOf s c) (f % 8)) (64 + pitchOf (byteAt hd 3) (leAt hd 4 2) * leAt hd 6 2) 64 = true →
        ∃ t, exec (.visionFrameStart 0) s = .next t ∧ started t ∧ (visOf t 0).absent = false ∧
          getBytes t out 64 = imgHeader 1 (leAt j.desc 36 2) (leAt j.desc 38 2) 0 c f (leAt hd 8 8) false ∧
          (slotF (camOf t c) (f % 8)).pins = (slotF (camOf s c) (f % 8)).pins ++ [(pgVIS 0, (pageJobs s (pgVIS 0)).started + 1)]) ∧
      (lookupReason s c f ≠ 0 →
        ∃ t, exec (.visionFrameStart 0) s = .next t ∧ started t ∧ (visOf t 0).absent = true ∧ (visOf t 0).status = stNOREF ∧
          getBytes t out 64 = imgHeader 1 (leAt j.desc 36 2) (leAt j.desc 38 2) 0 c f 0 true ∧ t.fst = s.fst)) ∧
  (
    ∀ (j : Job) (s : State), running s (pgVIS 1) = some j → pageOn s (pgVIS 1) = true → pastDeadline s j.deadline = false →
      let v := visOf s 1
      let k := pyrLevel (v.imgs.drop 1) 1 v.tile
      let src := v.imgs.getD (k.1 - 1) (0, 0, 0)
      let dst := v.imgs.getD k.1 (0, 0, 0)
      let sp := tileSpan dst.2.1 dst.2.2 64 32 k.2
      let y0 := min (2 * sp.2.2.1 - 2) (src.2.2 - 1)
      let n := (min (2 * (sp.2.2.1 + sp.2.2.2 - 1) + 2) (src.2.2 - 1) + 1 - y0) * imgPitch 1 src.2.1
      let a := src.1 + 64 + y0 * imgPitch 1 src.2.1
      let rows : Rows := ⟨y0, imgPitch 1 src.2.1, ((getBytes s a n).map (·.toNat)).toArray⟩
      let f := visFlagBase 1 j + v.tile
      v.absent = false → dst.2.2 * imgPitch 1 dst.2.1 ≤ 2 ^ 31 → GoodRange s .vision a n →
      GoodRange s .vision (dst.1 + 64) (dst.2.2 * imgPitch 1 dst.2.1) →
      (visFlagEn 1 j = true → ready s pgRES = true ∧ bankBad s (groupAddr (f / 64)) = false ∧ markOf s (groupAddr (f / 64)) = .good) →
      ∃ t, exec (.tileDone 1) s = .next t ∧
        (∀ i x, i < sp.2.2.2 → x < sp.2.1 → getByte t (dst.1 + 64 + (sp.2.2.1 + i) * imgPitch 1 dst.2.1 + sp.1 + x) =
          BitVec.ofNat 8 (pyrPixel rows src.2.1 src.2.2 (sp.1 + x) (sp.2.2.1 + i))) ∧
        (visFlagEn 1 j = true → flagValue t f = true) ∧
        (visFlagEn 1 j = false → MemStandsBut (dst.1 + 64) (dst.2.2 * imgPitch 1 dst.2.1) s t) ∧
        (v.tile + 1 < v.tiles → (visOf t 1).tile = v.tile + 1 ∧ running t (pgVIS 1) = some j) ∧
        (v.tiles ≤ v.tile + 1 → Ended s t (pgVIS 1) j v.status))

/-- R428, R430 to R432, R456, R461: a job of the engine begins, goes on phase by phase (one a command: the model's choice, log entry
143) and ends. A SETUP names its workspace, new or as its header says, and ends at once where the header is not the workspace's; a
FRAME without inputs plans its output and the workspace one frame on; a GRID whose blocks have no points plans the scrolled grid.
Between the phases of a job a missed deadline ends it and leaves what is kept; the end of a job writes its output, commits the
workspace and sets the flag. -/
def Obligations.FusionJobsEnd : Prop :=
  (∀ (j : Job) (rest : List Job) (s : State), AtHead s pgFUS j rest (fusAddrs j) → fusTrig j = none →
    let d := j.desc
    let a := leAt d 32 8
    let begun (t : State) : Prop := (pageJobs t pgFUS).queue = rest ∧ (pageJobs t pgFUS).running = [{ j with accepted := now s }] ∧
      t.fus.kept = s.fus.kept ∧ t.fus.named = s.fus.named ∧ MemStands s t
    (j.op = 1 → 16 ≤ leAt d 40 4 → GoodRange s .fusion a 64 →
      (bitOf (byteAt d 44) 0 = true →
        ∃ t, exec .setup s = .next t ∧ begun t ∧
          ∃ u, exec .setup t = .next u ∧ Finished s u pgFUS j rest stDONE 0 ∧ u.fus.named = some a ∧
            (wsOf u a).tracks = [] ∧ (wsOf u a).frameNo = 1 ∧ (wsOf u a).units = leAt d 40 4 ∧
            getBytes u a 64 = (wsOf u a).header ∧ MemStandsBut a 64 s u) ∧
      (bitOf (byteAt d 44) 0 = false → getBytes s a 64 = (wsOf s a).header →
        ∃ t, exec .setup s = .next t ∧ begun t ∧
          ∃ u, exec .setup t = .next u ∧ Finished s u pgFUS j rest stDONE 0 ∧ u.fus.named = some a ∧
            wsOf u a = wsOf s a ∧ MemStands s u) ∧
      (bitOf (byteAt d 44) 0 = false → getBytes s a 64 ≠ (wsOf s a).header →
        ∃ t, exec .setup s = .next t ∧ Finished s t pgFUS j rest 0x0500 3 ∧ t.fus = { s.fus with run := none } ∧ MemStands s t)) ∧
    (∀ w, j.op = 2 → s.fus.named = some w → (wsOf s w).tPrev < a → (wsOf s w).tracks = [] → leAt d 56 2 = 0 →
      leAt d 72 2 = 0 → leAt d 88 2 = 0 → byteAt d 92 = 0 → GoodRange s .fusion w 64 →
      ∃ (t : State) (r : FusRun) (v : FusWs) (out : List Byte), exec .fusFrame s = .next t ∧ begun t ∧ t.fus.run = some r ∧
        r.left = 5 ∧ r.writes = [(leAt d 40 8, out)] ∧ r.flag = fusFlag j ∧ r.ws = some (w, v) ∧ isAbort r.status = false ∧
        v.frameNo = ((wsOf s w).frameNo + 1) % 2 ^ 32 ∧ v.tPrev = a ∧ v.tracks = [] ∧ v.units = (wsOf s w).units ∧
        v.header = wsHeader w v ∧ out.length = 192 ∧ leAt out 0 4 = (wsOf s w).frameNo % 2 ^ 32 ∧ leAt out 4 4 = 0) ∧
    (let n := leAt d 64 2
     let list := getBytes s (leAt d 56 8) (8 * n)
     j.op = 3 → s.fus.named.isSome = true → GoodRange s .fusion (leAt d 56 8) (8 * n) →
      (∀ i < n, let b := leAt list (8 * i) 8
        let h := getBytes s b 64
        dataAt s b 64 64 = true ∧ GoodRange s .fusion b 64 ∧ leAt h 16 4 = 0 ∧ byteAt h 22 ≤ 3 ∧ byteAt h 23 ≤ 3 ∧
          zerosAt h 28 36 = true) →
      GoodRange s .fusion a (gridBytes d) → 1 ≤ (gridDim d).nx → 1 ≤ (gridDim d).ny → 1 ≤ (gridDim d).nz →
      ∃ t, exec .grid s = .next t ∧ begun t ∧
        t.fus.run = some (FusRun.plain [(a, (scrollGrid (gridDim d) (toSigned 8 (byteAt d 50)) (toSigned 8 (byteAt d 51))
          ((getBytes s a (gridBytes d)).map (fun b => toSigned 8 b.toNat)).toArray).toList.map
            (fun x => BitVec.ofNat 8 (ofSigned 8 x)))] (fusFlag j) none))) ∧
  (∀ c ∈ [(1, Instr.setup), (2, Instr.fusFrame), (3, Instr.grid)], ∀ (j : Job) (r : FusRun) (s : State), running s pgFUS = some j →
    s.fus.run = some r → j.op = c.1 → pageOn s pgFUS = true →
    (r.left ≠ 0 → pastDeadline s j.deadline = false →
      ∃ t, exec c.2 s = .next t ∧ t.fus = { s.fus with run := some { r with left := r.left - 1 } } ∧ MemStands s t ∧
        (pageJobs t pgFUS).running = (pageJobs s pgFUS).running ∧ (pageJobs t pgFUS).done = (pageJobs s pgFUS).done) ∧
    (r.left ≠ 0 → pastDeadline s j.deadline = true →
      ∃ t, exec c.2 s = .next t ∧ Ended s t pgFUS j stABORT_DEADLINE ∧ t.fus = { s.fus with run := none } ∧ MemStands s t) ∧
    (r.left = 0 → pastDeadline s j.deadline = false → r.writes.length ≤ 1 →
      (∀ w ∈ r.writes, GoodRange s .fusion w.1 w.2.length) →
      (∀ f, r.flag = some f → ready s pgRES = true ∧ bankBad s (groupAddr (f / 64)) = false ∧ markOf s (groupAddr (f / 64)) = .good) →
      (∀ w, c.1 ≠ 1 → r.ws = some w → w.2.header.length = 64 ∧ GoodRange s .fusion w.1 64 ∧
        ∀ x ∈ r.writes, x.1 + x.2.length ≤ w.1 ∨ w.1 + 64 ≤ x.1) →
      ∃ t, exec c.2 s = .next t ∧ Ended s t pgFUS j r.status ∧ t.fus.run = none ∧
        (∀ w ∈ r.writes, getBytes t w.1 w.2.length = w.2) ∧ (∀ f, r.flag = some f → flagValue t f = true) ∧
        (∀ w, r.ws = some w → wsOf t w.1 = w.2 ∧ (c.1 = 1 → t.fus.named = some w.1) ∧
          (c.1 ≠ 1 → getBytes t w.1 64 = w.2.header))))

/-- R470, R476 to R478, R480, R483, R484, R488: LOAD makes the problem of an image resident under its handle; EXPORT writes a
resident problem as an image; FREE gives its region back. A SOLVE that has its problem begins, goes on piece by piece (one a
command: the model's choice, log entry 155), commits its deltas, and ends with its header, its parameters, its proposal, the commit
of a DELTA job and its flag; it ends with an aborted header at the boundary where its deadline has passed, and where its abort is
known. Other handles stand. -/
def Obligations.GoshawkJobsEnd : Prop :=
  (∀ (j : Job) (rest : List Job) (s : State), AtHead s pgGSH j rest (gshAddrs j) → gshTrig j = none →
    let d := j.desc
    let h := byteAt d 40
    let s1 := startHead pgGSH s
    (∀ p n u, j.op = 2 → GoodRange s .goshawk (leAt d 32 8) 64 →
      regionReason s h (leAt d 42 2) (leAt d 44 2) (byteAt (getBytes s (leAt d 32 8) 64) 0) = 0 →
      ((readImage (leAt d 32 8)).run .goshawk).run (readAs .goshawk (leAt d 32 8) 64 s1).2.2 = (.ok (p, n), u) →
      gshNzb p ≤ 16384 → (gshQC p n).1 + (gshQC p n).2 ≤ leAt d 44 2 * 65536 → gshUnfit p = none →
      ∃ t, exec .load s = .next t ∧ Finished s t pgGSH j rest stDONE 0 ∧ (∀ k, k ≠ h → resOf t k = resOf u k) ∧
        resOf t h = ⟨true, leAt d 42 2, leAt d 44 2, (resOf u h).epoch + 1, gshNormalise p⟩) ∧
    (j.op = 3 → ∃ t, exec .gshFree s = .next t ∧ Finished s t pgGSH j rest stDONE 0 ∧ (resOf t h).loaded = false ∧
      (∀ k, k ≠ h → resOf t k = resOf s k) ∧ MemStands s t) ∧
    (j.op = 4 → (resOf s h).loaded = true → GoodRange s .goshawk (leAt d 48 8) (writeImage (resOf s h).prob).length →
      ∃ t, exec .gshExport s = .next t ∧ Finished s t pgGSH j rest stDONE 0 ∧ t.gsh = s.gsh ∧
        getBytes t (leAt d 48 8) (writeImage (resOf s h).prob).length = writeImage (resOf s h).prob ∧
        MemStandsBut (leAt d 48 8) (writeImage (resOf s h).prob).length s t) ∧
    (∀ p n c u, j.op = 1 → ((solveProblem d).run .goshawk).run s1 = (.ok (p, n, c), u) → solveStop u d p n = none →
      let r := gshSolve (gshPar d) p
      let zero := GshRun.start p (gshPar d).mu0
      ∃ t, exec .solve s = .next t ∧ (pageJobs t pgGSH).queue = rest ∧ (pageJobs t pgGSH).running = [{ j with accepted := now s }] ∧
        t.gsh = u.gsh ∧ MemStands u t ∧
        t.gshRun = some ⟨⟨1, false, zero⟩ :: (if gshDelta d then [⟨2, false, zero⟩] else []) ++ r.2, if c then some p else none, r.1,
          r.1.bad.map (fun i => (0x0500, 2 + i % 2 ^ 24 * 256)), false⟩)) ∧
  (∀ (j : Job) (v : GshActive) (s : State), running s pgGSH = some j → pageOn s pgGSH = true → s.gshRun = some v →
    let d := j.desc
    let h := byteAt d 45
    let r := v.run
    let prop := gshPropose d && decide (r.stop ≠ 4)
    let out := gshHeader d true r.prob.kind (if prop then { r with flags := r.flags ||| 32 } else r) ++
      gshOutput (bitOf (byteAt d 58) 0) r.prob
    let flag := leAt d 68 4 % 2 ^ 19
    (∀ m rest, v.marks = m :: rest → (m.check = false ∨ pastDeadline s j.deadline = false) → (rest ≠ [] ∨ v.stop = none) →
      ∃ (t : State) (told : Bool), exec .solve s = .next t ∧ (pageJobs t pgGSH).running = (pageJobs s pgGSH).running ∧
        t.gshRun = some { v with marks := rest, fin := if m.state = 2 then none else v.fin, told := told } ∧
        (∀ p, m.state = 2 → v.fin = some p → resOf t h = { resOf s h with prob := p, epoch := (resOf s h).epoch + 1 }) ∧
        (∀ k, k ≠ h → resOf t k = resOf s k) ∧ MemStandsBut (leAt d 80 8) (65536 * leAt d 88 4) s t ∧
        (gshDelta d = true → MemStands s t)) ∧
    (∀ m rest, v.marks = m :: rest → m.check = true → m.state ≠ 1 → pastDeadline s j.deadline = true →
      GoodRange s .goshawk (leAt d 72 8) 128 →
      ∃ t, exec .solve s = .next t ∧ Ended s t pgGSH j stABORT_DEADLINE ∧ t.gshRun = none ∧
        getBytes t (leAt d 72 8) 128 = gshHeader d false m.run.prob.kind m.run) ∧
    (∀ m e, v.marks = [m] → (m.check = false ∨ pastDeadline s j.deadline = false) → m.state ≠ 1 → v.stop = some e →
      GoodRange s .goshawk (leAt d 72 8) 128 →
      ∃ t, exec .solve s = .next t ∧ Ended s t pgGSH j e.1 ∧ t.gshRun = none ∧
        getBytes t (leAt d 72 8) 128 = gshHeader d false r.prob.kind r) ∧
    (v.marks = [] → v.stop = none → GoodRange s .goshawk (leAt d 72 8) out.length →
      (prop = true → GoodRange s .goshawk (leAt d 96 8) (gshProposal d r.prob).length ∧
        (leAt d 96 8 + (gshProposal d r.prob).length ≤ leAt d 72 8 ∨ leAt d 72 8 + out.length ≤ leAt d 96 8)) →
      (bitOf (leAt d 68 4) 31 = true → ready s pgRES = true ∧ bankBad s (groupAddr (flag / 64)) = false ∧
        markOf s (groupAddr (flag / 64)) = .good) →
      ∃ t, exec .solve s = .next t ∧
        Ended s t pgGSH j (if r.stop = 4 then stNOT_CONVERGED else if r.flags % 32 ≠ 0 then stDONE_FLAGGED else stDONE) ∧
        t.gshRun = none ∧ getBytes t (leAt d 72 8) out.length = out ∧
        (prop = true → getBytes t (leAt d 96 8) (gshProposal d r.prob).length = gshProposal d r.prob) ∧
        (gshDelta d = true → resOf t h = { resOf s h with prob := r.prob, epoch := (resOf s h).epoch + 1 }) ∧
        (gshDelta d = false → t.gsh = s.gsh) ∧ (bitOf (leAt d 68 4) 31 = true → flagValue t flag = true) ∧
        (prop = false → bitOf (leAt d 68 4) 31 = false → MemStandsBut (leAt d 72 8) out.length s t)))

/-- R493, R497, R501, R513, R514: a BIND with INIT of a good index, an APPEND and a DELETE read and check what they name at their
start, where nothing is bound or added yet (two commands: the model's choice, log entry 162); at their commit a BIND binds the index
with its side area, and APPEND and DELETE add their entries and tombstones under the next side sequence number, unless their
deadline has passed. -/
def Obligations.FishhawkBindsAppendsDeletes : Prop :=
  (∀ (j : Job) (s : State), unitHead s isMaint = some j → depsMet s pgFSH j (fshAddrs j) = true → pastDeadline s j.deadline = false →
    fshTrig j = none →
    let d := j.desc
    let n := leAt d 60 2
    let words (a : Nat) : List Nat := (List.range n).map (fun i => leAt (getBytes s a (4 * n)) (4 * i) 4)
    let begun (t : State) (m : FshMaint) : Prop := t.fsh = { s.fsh with maint := some m } ∧ MemStands s t ∧
      (pageJobs t pgFSH).running = (pageJobs s pgFSH).running ++ [{ j with accepted := now s }]
    (let h := getBytes s (leAt d 32 8) 128
     let dm := leAt h 4 2
     let m := byteAt h 6
     let nl := leAt h 8 4
     let ls := (List.range nl).map (fun l => let e := ((getBytes s (leAt h 40 8) (16 * nl)).drop (16 * l)).take 16; (leAt e 0 8, leAt e 8 4))
     j.op = 1 → (pageJobs s pgFSH).running = [] → GoodRange s .fishhawk (leAt d 32 8) 128 → indexHeaderBad s h = none →
      GoodRange s .fishhawk (leAt h 40 8) (16 * nl) → GoodRange s .fishhawk (leAt h 32 8) (512 * dm) →
      GoodRange s .fishhawk (leAt h 24 8) (2 * dm * nl) →
      (∀ l < nl, dirEntryBad (((getBytes s (leAt h 40 8) (16 * nl)).drop (16 * l)).take 16) = false) →
      (∀ l ∈ ls, l.2 ≠ 0 → dramAt s l.1 (listBytes m l.2) 1 = true) → regionsOverlap m ls = none →
      (ls.map (·.2)).sum = leAt h 16 8 → (∀ x ∈ halves (getBytes s (leAt h 32 8) (512 * dm)) (256 * dm), Fp.isFinite x = true) →
      (∀ x ∈ halves (getBytes s (leAt h 24 8) (2 * dm * nl)) (dm * nl), Fp.isFinite x = true) →
      bitOf (byteAt d 48) 0 = true →
      ∃ t, exec .fshBind s = .next t ∧ begun t (.bind
        ⟨dm, m, nl, leAt h 24 8, leAt h 32 8, leAt h 48 4, h, ⟨1, 0, leAt h 40 8, leAt h 16 8⟩, none, leAt d 40 8⟩
        { FshSide.none with dims := [dm, m, nl], epoch := 1 })) ∧
    (∀ b, s.fsh.bound = some b →
      let v := sideOf s b.side
      let pitch := ceilTo (2 * b.d) 64 * 64
      let vec (i : Nat) : List Nat := halves ((getBytes s (leAt d 32 8) (n * pitch)).drop (pitch * i)) b.d
      let book := bookOf b.m (b.d / b.m) (halves (getBytes s b.book (2 * 256 * b.d)) (256 * b.d))
      (j.op = 3 → leAt d 48 8 ≠ 0 → dramAt s (leAt d 32 8) (n * pitch) 64 = true → GoodRange s .fishhawk (leAt d 32 8) (n * pitch) →
        GoodRange s .fishhawk (leAt d 40 8) (4 * n) → GoodRange s .fishhawk (leAt d 48 8) (4 * n) →
        GoodRange s .fishhawk b.book (2 * 256 * b.d) →
        (∀ x ∈ words (leAt d 40 8), bitOf x 31 = false) → (∀ x ∈ words (leAt d 48 8), x < b.nlist) →
        (∀ i < n, ∀ x ∈ vec i, Fp.isFinite x = true) → v.entries.length + n ≤ 1048576 →
        ∃ t, exec .append s = .next t ∧ begun t (.append ((List.range n).map (fun i =>
          ((words (leAt d 40 8)).getD i 0, (words (leAt d 48 8)).getD i 0, encodeVec (b.d / b.m) book (vec i)))))) ∧
      (j.op = 4 → GoodRange s .fishhawk (leAt d 32 8) (4 * n) → (∀ x ∈ words (leAt d 32 8), bitOf x 31 = false) →
        v.tombs.length + n ≤ 1048576 →
        ∃ t, exec .delete s = .next t ∧ begun t (.delete (words (leAt d 32 8)))))) ∧
  (∀ (j : Job) (s : State), (pageJobs s pgFSH).running.find? isMaint = some j → pageOn s pgFSH = true →
    bitOf (leAt j.desc 56 4) 31 = false →
    let ended (t : State) : Prop := DoneWith s t pgFSH j stDONE ∧ t.fsh.maint = none
    (∀ b v, j.op = 1 → s.fsh.maint = some (.bind b v) → v.dims.length = 3 → GoodRange s .fishhawk b.side 64 →
      ∃ t, exec .fshBind s = .next t ∧ ended t ∧ t.fsh.bound = some b ∧
        sideOf t b.side = { v with header := sideHeader b.side v } ∧ getBytes t b.side 64 = sideHeader b.side v ∧
        MemStandsBut b.side 64 s t) ∧
    (∀ b, s.fsh.bound = some b → (sideOf s b.side).dims.length = 3 → GoodRange s .fishhawk b.side 64 →
      let v := sideOf s b.side
      let q := (v.seq + 1) % 2 ^ 32
      (∀ new, j.op = 3 → s.fsh.maint = some (.append new) → pastDeadline s j.deadline = false →
        ∃ t, exec .append s = .next t ∧ ended t ∧ (sideOf t b.side).seq = q ∧
          (sideOf t b.side).entries = v.entries ++ new.map (fun e => ⟨e.1, e.2.1, e.2.2, q⟩) ∧
          (sideOf t b.side).tombs = v.tombs ∧ t.fsh.bound = some b ∧ MemStandsBut b.side 64 s t) ∧
      (∀ ids, j.op = 4 → s.fsh.maint = some (.delete ids) → pastDeadline s j.deadline = false →
        ∃ t, exec .delete s = .next t ∧ ended t ∧ (sideOf t b.side).seq = q ∧
          (sideOf t b.side).tombs = v.tombs ++ ids.map (fun x => (x, q)) ∧
          (sideOf t b.side).entries = v.entries ∧ t.fsh.bound = some b ∧ MemStandsBut b.side 64 s t)) ∧
    (pastDeadline s j.deadline = true →
      (∀ new, j.op = 3 → s.fsh.maint = some (.append new) → ∃ t, exec .append s = .next t ∧
        DoneWith s t pgFSH j stABORT_DEADLINE ∧ t.fsh = { s.fsh with maint := none } ∧ MemStands s t) ∧
      (∀ ids, j.op = 4 → s.fsh.maint = some (.delete ids) → ∃ t, exec .delete s = .next t ∧
        DoneWith s t pgFSH j stABORT_DEADLINE ∧ t.fsh = { s.fsh with maint := none } ∧ MemStands s t)))

/-- R501, R502, R507, R509, R511, R512, R515, R516, R518: the candidates a SEARCH keeps are the K least by distance and ID. A SEARCH
begins with the view of the current epoch and the side sequence number, and with what that view gives its queries; it goes on piece
by piece (one a command: the model's choice, log entry 162), ends at a missed deadline, and writes its results and ends, and with it
ends the previous epoch if it was its last SEARCH. A bad query has an empty result. A MERGE begins with its snapshot, and with the
new header and directory of the lists its view gives; it writes list after list, waits, and the switch makes the new epoch current,
and keeps the old one while a SEARCH runs on it; past its deadline it ends without a switch at the next list boundary, at the
switch, and where it waits. -/
def Obligations.FishhawkSearchesAndMerges : Prop :=
  (∀ (k : Nat) (cs : List (Nat × Nat)),
    (cs.foldl (fun r c => offer k c r) ⟨[], 0, false⟩).held = (cs.mergeSort (fun a b => !rankLt b a)).take k) ∧
  (∀ (j : Job) (b : FshBound) (s : State), s.fsh.bound = some b → unitHead s isSearch = some j → j.op = 2 →
    depsMet s pgFSH j (fshAddrs j) = true → pastDeadline s j.deadline = false → bindHeld s = false → fshTrig j = none →
    leAt j.desc 64 2 ≤ b.nlist →
    let d := j.desc
    let snap := (sideOf s b.side).seq
    let pitch := ceilTo (2 * b.d) 64 * 64
    let begun (t : State) (r : FshSearch) : Prop := t.fsh = { s.fsh with snap := some (b.cur, snap), search := some r } ∧
      (pageJobs t pgFSH).running = (pageJobs s pgFSH).running ++ [{ j with accepted := now s }]
    (∀ r u, ((searchWork j b b.cur snap).run .fishhawk).run (startIf pgFSH isSearch s) = (.ok r, u) →
      ∃ t, exec .search s = .next t ∧ begun t r ∧ MemStands u t) ∧
    (leAt d 60 2 = 1 → bitOf (byteAt d 62) 0 = false → dramAt s (leAt d 32 8) pitch 64 = true → GoodRange s .fishhawk (leAt d 32 8) pitch →
      GoodRange s .fishhawk (leAt d 40 8) (4 * leAt d 64 2) → GoodRange s .fishhawk b.book (2 * 256 * b.d) →
      (halves (getBytes s (leAt d 32 8) pitch) b.d).any (fun x => !Fp.isFinite x) = true →
      ∃ t, exec .search s = .next t ∧ MemStands s t ∧
        begun t ⟨[(1, true), (2, false), (3, false)], [(leAt d 48 8, queryResult 0 b.cur snap (leAt d 66 2) 10 0 [])], 0, 10⟩)) ∧
  (∀ (j : Job) (b : FshBound) (x : FshEpoch × Nat) (r : FshSearch) (s : State), pageOn s pgFSH = true → s.fsh.bound = some b →
    (sideOf s b.side).dims.length = 3 → s.fsh.snap = some x → s.fsh.search = some r →
    (pageJobs s pgFSH).running.find? isSearch = some j →
    let gone (t : State) : Prop := t.fsh.snap = none ∧ t.fsh.search = none ∧
      (b.prev = none → t.fsh.bound = some b) ∧ (∀ p, b.prev = some p → p.num = x.1.num → t.fsh.bound = some { b with prev := none })
    (∀ m rest, r.left = m :: rest → (m.2 = false ∨ pastDeadline s j.deadline = false) →
      ∃ t, exec .search s = .next t ∧ t.fsh = { s.fsh with search := some { r with left := rest } } ∧ MemStands s t ∧
        (pageJobs t pgFSH).running = (pageJobs s pgFSH).running) ∧
    (∀ m rest, r.left = m :: rest → m.2 = true → pastDeadline s j.deadline = true →
      ∃ t, exec .search s = .next t ∧ DoneWith s t pgFSH j stABORT_DEADLINE ∧ gone t ∧ MemStandsBut b.side 64 s t) ∧
    (r.left = [] → (∀ w ∈ r.writes, GoodRange s .fishhawk w.1 w.2.length ∧ (w.1 + w.2.length ≤ b.side ∨ b.side + 64 ≤ w.1)) →
      r.writes.Pairwise (fun v w => v.1 + v.2.length ≤ w.1) → bitOf (leAt j.desc 56 4) 31 = false →
      ∃ t, exec .search s = .next t ∧ DoneWith s t pgFSH j (if r.flags = 0 then stDONE else stDONE_FLAGGED) ∧ gone t ∧
        (∀ w ∈ r.writes, getBytes t w.1 w.2.length = w.2) ∧
        (∀ a, (∀ w ∈ r.writes, ¬(w.1 ≤ a ∧ a < w.1 + w.2.length)) → ¬(b.side ≤ a ∧ a < b.side + 64) → getByte t a = getByte s a) ∧
        (∀ p, b.prev = some p → p.num = x.1.num → exec .epochRetired s = .next t))) ∧
  (∀ (j : Job) (b : FshBound) (s : State), s.fsh.bound = some b → unitHead s isMaint = some j → j.op = 5 →
    depsMet s pgFSH j (fshAddrs j) = true → pastDeadline s j.deadline = false → fshTrig j = none → b.header.length = 128 →
    let v := sideOf s b.side
    let dst := leAt j.desc 32 8
    let size := leAt j.desc 40 8
    let dir := dst + 128
    ∀ lists u,
    (((List.range b.nlist).mapM (mergedList b v v.seq)).run .fishhawk).run
      (setMaint (some (.merge ⟨dst, size, v.seq, 0, 0, []⟩)) (startIf pgFSH isMaint s)) = (.ok lists, u) →
    let pl := placeLists b.m ((dir + 16 * b.nlist + 63) / 64 * 64) lists
    let count := (lists.map (·.length)).sum
    (if lists.all (·.isEmpty) then dir + 16 * b.nlist else pl.2) ≤ dst + size → 1 ≤ b.nlist → b.nlist ≤ 1048576 →
    GoodRange u .fishhawk dst (128 + 16 * b.nlist) →
    ∃ t, exec .merge s = .next t ∧ t.fsh = { s.fsh with maint := some (.merge ⟨dst, size, v.seq, dir, count, pl.1⟩) } ∧
      (pageJobs t pgFSH).running = (pageJobs s pgFSH).running ++ [{ j with accepted := now s }] ∧
      getBytes t dst 128 = patch (patch b.header 16 (leBytes 8 count)) 40 (leBytes 8 dir) ∧
      getBytes t dir (16 * b.nlist) = (List.zipWith (fun p (l : List (List Byte × Nat)) =>
        leBytes 8 p.1 ++ leBytes 4 l.length ++ zeros 4) pl.1 lists).flatten ∧
      MemStandsBut dst (128 + 16 * b.nlist) u t) ∧
  (∀ (j : Job) (m : FshMerge) (s : State), (pageJobs s pgFSH).running.find? isMaint = some j → s.fsh.maint = some (.merge m) →
    let missed (t : State) : Prop := DoneWith s t pgFSH j stABORT_DEADLINE ∧ t.fsh = { s.fsh with maint := none } ∧
      MemStandsBut m.dst m.size s t
    (∀ w rest, m.left = w :: rest → pageOn s pgFSH = true →
      (pastDeadline s j.deadline = false → (w.2 = [] ∨ GoodRange s .fishhawk w.1 w.2.length) →
        ∃ t, exec .merge s = .next t ∧ t.fsh = { s.fsh with maint := some (.merge { m with left := rest }) } ∧
          getBytes t w.1 w.2.length = w.2 ∧ MemStandsBut w.1 w.2.length s t) ∧
      (pastDeadline s j.deadline = true → ∃ t, exec .merge s = .next t ∧ missed t)) ∧
    (∀ b, m.left = [] → s.fsh.bound = some b →
      (b.prev = none → pageOn s pgFSH = true → pastDeadline s j.deadline = false → (sideOf s b.side).dims.length = 3 →
        GoodRange s .fishhawk b.side 64 → bitOf (leAt j.desc 56 4) 31 = false →
        ∃ t, exec .epochSwitch s = .next t ∧ DoneWith s t pgFSH j stDONE ∧ t.fsh.maint = none ∧
          t.fsh.bound = some { b with
            cur := ⟨(b.cur.num + 1) % 2 ^ 32, m.snap, m.dir, m.nvec⟩
            prev := match s.fsh.snap with | some x => if x.1.num = b.cur.num then some b.cur else none | none => none } ∧
          MemStandsBut b.side 64 s t) ∧
      (b.prev = none → pageOn s pgFSH = true → pastDeadline s j.deadline = true → ∃ t, exec .epochSwitch s = .next t ∧ missed t) ∧
      (pastDeadline s j.deadline = true → ∃ t, exec .mergeDeadline s = .next t ∧ missed t)))

/-! ## The measuring compartment (chapters 17 to 19) -/

/-- R529, R532, R535, R536, R538, R546, R592, R594: power-up checks firmware, parameter copies and calendar, and an open journey
goes on with POWER_GAP; VIN loss keeps the calendar and cancels its commit; a brown-out is latched; a seal change is accepted
and audited. -/
def Obligations.CompartmentPowers : Prop :=
  (∀ (r : MetPowerUp) (s : State), s.met.vin = false →
    let m := r.damage.foldl (fun (a : Met) (d : Nat × Bool × Nat × Nat) => damageParam d a) s.met
    let ok (c : Nat × Nat) : Prop := paramCrc c.1 = c.2
    ∃ t, exec (.metPowerUp r) s = .next t ∧ OnlyMet s t ∧ t.met.vin = true ∧ t.met.sync = none ∧ t.met.cycles = 0 ∧
      t.met.mailbox = [] ∧ t.met.fwCrc = r.fwCrc.toNat ∧ t.met.fwFault = decide (r.fwCrc.toNat ≠ fwGood) ∧
      t.met.sealOpen = s.met.sealOpen ∧ t.met.cal.pending = none ∧
      (∀ off ∈ paramOffs, let p := m.param off
        (ok p.copy0 → ok p.copy1 → t.met.param off = { p with value := p.copy0.1 }) ∧
        (ok p.copy0 → ¬ok p.copy1 → t.met.param off = ⟨p.copy0.1, p.copy0, p.copy0⟩) ∧
        (¬ok p.copy0 → ok p.copy1 → t.met.param off = ⟨p.copy1.1, p.copy1, p.copy1⟩)) ∧
      (t.met.paramFault = true ↔ ∃ off ∈ paramOffs, ¬ok (m.param off).copy0 ∧ ¬ok (m.param off).copy1) ∧
      (r.calCodeOk = true → s.met.cal.brownOut = false → t.met.cal.live = s.met.cal.live ∧ t.met.cal.unset = s.met.cal.unset) ∧
      (r.calCodeOk = false ∨ s.met.cal.brownOut = true → t.met.cal.live = CalTime.epoch ∧ t.met.cal.unset = true) ∧
      (∀ j, s.met.journey = some j →
        ∃ j', t.met.journey = some j' ∧ j'.no = j.no ∧ j'.dist = j.dist ∧ bitOf j'.flags jfPOWER_GAP = true)) ∧
  (∀ s : State, s.met.vin = true →
    ∃ t, exec .metVinLoss s = .next t ∧ OnlyMet s t ∧ t.met.vin = false ∧ t.met.cal = { s.met.cal with pending := none } ∧
      t.met.journey = s.met.journey ∧ t.met.sealOpen = s.met.sealOpen ∧ RecordsStand { s with met := { s.met with cal := t.met.cal } } t) ∧
  (∀ s : State, s.met.vin = false →
    ∃ t, exec .vbatBrownOut s = .next t ∧ OnlyMet s t ∧ t.met = { s.met with cal := { s.met.cal with brownOut := true } }) ∧
  (∀ (toOpen : Bool) (s : State), s.met.sealOpen = !toOpen →
    (s.met.vin = false →
      ∃ t, exec (.sealChange toOpen) s = .next t ∧ OnlyMet s t ∧
        t.met = { s.met with sealOpen := toOpen, sealLog := s.met.sealLog ++ [(toOpen, calStamp s)] }) ∧
    (s.met.vin = true → s.met.secDue = false → s.met.toServe = 0 →
      ∃ t, exec (.sealChange toOpen) s = .next t ∧ OnlyMet s t ∧ t.met.sealOpen = toOpen ∧
        t.met.eventCtr = satN 32 (s.met.eventCtr + 1) ∧
        (s.met.auditFull = true → t.met.audit = s.met.audit) ∧
        (s.met.auditFull = false → ∃ r, t.met.audit = s.met.audit ++ [r] ∧ byteAt r 4 = (if toOpen then 1 else 2)) ∧
        (toOpen = false → t.met.cal.pending = none ∧ t.met.journey = s.met.journey) ∧
        (toOpen = true → t.met.journey = s.met.journey.map (Journey.flag jfSEAL_OPENED))))

/-- R522, R523, R545, R579: the cycle adds the legal increment, the mean over the valid channels of the mask with its remainder
carried, to the odometer and the open journey, and sends the WHEEL block; a STATUS block goes out every 100 ms. -/
def Obligations.CyclesAndBlocks : Prop :=
  (∀ (vbat : Nat) (fail : Bool) (s : State), s.met.cycleDue = true →
    let m := s.met
    let ch (c : Nat) := channelMs (m.input c) (m.k c) (m.cycles - 1) (decide (m.cycles ≠ 0)) (m.chan c)
    let good := (List.range 4).filter (fun c => m.inMask c && (ch c).1)
    let total := (good.map (fun c => (ch c).2.1)).sum + m.legalRem
    let legal := if good = [] then 0 else total / good.length
    ∃ t, exec (.metCycle vbat fail) s = .next t ∧ OnlyMet s t ∧ t.met.cycles = m.cycles + 1 ∧ t.met.vbatMv = vbat ∧
      t.met.toServe = m.mailbox.length ∧ t.met.odo = (m.odo + legal) % 2 ^ 64 ∧
      t.met.legalRem = (if good = [] then m.legalRem else total % good.length) ∧
      (fail = true → t.met.framFault = true) ∧ (fail = false → t.met.framFault = m.framFault) ∧
      (∀ c < 4, (t.met.chan c).pulses = (ch c).2.2.pulses ∧ (t.met.chan c).remainder = (ch c).2.2.remainder) ∧
      (∀ j, m.journey = some j → ∃ j', t.met.journey = some j' ∧ j'.no = j.no ∧ j'.dist = j.dist + legal ∧
        j'.gapMs = j.gapMs + b2n ((List.range 4).any (fun c => m.inMask c && !(ch c).1))) ∧
      (m.mailbox = [] → m.replies = [] → 38 ≤ m.cycles →
        ∃ b, t.met.dataPath = m.dataPath ++ [b] ∧ b.length = 128 ∧ byteAt b 0 = 1 ∧ leAt b 124 4 = Crypto.crc32 (b.take 124))) ∧
  (∀ s : State, s.met.vin = true → s.met.statusDue = true →
    ∃ (t : State) (b : List Byte), exec .statusBlockSend s = .next t ∧ OnlyMet s t ∧ t.met.dataPath = s.met.dataPath ++ [b] ∧ b.length = 128 ∧
      byteAt b 0 = 2 ∧ leAt b 8 4 = s.met.stateWord ∧ byteAt b 20 = s.met.causes ∧ leAt b 124 4 = Crypto.crc32 (b.take 124) ∧
      t.met.statusAt = s.met.cycles ∧ RecordsStand s t)

/-- R527, R543, R544, R552: the next request of the cycle is served: a journey starts unless refused, stops by its number, a stored
record, an audit record or the identity is copied, a sync is taken; a bad frame is discarded and counted. -/
def Obligations.MailboxRequestsAreServed : Prop :=
  ∀ (seq p at_ : Nat) (s : State),
    (nextRequest s 1 = some (seq, p, at_) →
      (s.met.startRefused = 0 →
        ∃ (t : State) (j : Journey), exec .startJourney s = .next t ∧ t.met.journeyNo = (s.met.journeyNo + 1) % 2 ^ 32 ∧
          t.met.journey = some j ∧ j.no = t.met.journeyNo ∧ j.dist = 0 ∧ j.hostRef = bitsOf p 39 8 ∧ bitOf j.flags jfOPEN = true ∧
          (journeyAt t j.no).isSome = true ∧ Served s t (some (responseOf 1 seq 0 ((journeyAt t j.no).getD [])))) ∧
      (s.met.startRefused ≠ 0 →
        ∃ t, exec .startJourney s = .next t ∧ RecordsStand s t ∧ Served s t (some (responseOf 1 seq s.met.startRefused [])))) ∧
    (nextRequest s 2 = some (seq, p, at_) →
      (∀ j, s.met.journey = some j → j.no = bitsOf p 39 8 →
        ∃ t, exec .stopJourney s = .next t ∧ t.met.journey = none ∧ t.met.journeyCount = s.met.journeyCount + 1 ∧
          Served s t (some (responseOf 2 seq 0 ((journeyAt t j.no).getD [])))) ∧
      ((∀ j, s.met.journey = some j → j.no ≠ bitsOf p 39 8) →
        ∃ t, exec .stopJourney s = .next t ∧ RecordsStand s t ∧ Served s t (some (responseOf 2 seq 3 [])))) ∧
    (nextRequest s 3 = some (seq, p, at_) →
      let r := if p % 2 = 1 then gapAt s (bitsOf p 39 8) else journeyAt s (bitsOf p 39 8)
      ∃ t, exec .readRecord s = .next t ∧ RecordsStand s t ∧
        Served s t (some (responseOf 3 seq (if r.isSome then 0 else 4) (r.getD [])))) ∧
    (nextRequest s 4 = some (seq, p, at_) →
      let r := auditAt s (bitsOf p 9 0)
      ∃ t, exec .readAudit s = .next t ∧ RecordsStand s t ∧
        Served s t (some (responseOf 4 seq (if r.isSome then 0 else 4) (r.getD [])))) ∧
    (nextRequest s 5 = some (seq, p, at_) →
      ∃ t, exec .readIdentity s = .next t ∧ RecordsStand s t ∧ Served s t (some (responseOf 5 seq 0 (identityText s)))) ∧
    (nextRequest s 6 = some (seq, p, at_) →
      ∃ t, exec .tbSync s = .next t ∧ RecordsStand s t ∧ Served s t none ∧ t.met.sync = some (p, at_)) ∧
    (∀ (f : MboxFrame) (rest : List MboxFrame) (arrived : Option (List Byte)), s.met.vin = true → s.met.toServe ≠ 0 →
      s.met.mailbox = f :: rest → frameOk (arrived.getD f.bytes) = false →
      ∃ t, exec (.mailboxFrameReject arrived) s = .next t ∧ RecordsStand s t ∧ Served s t none ∧
        t.met.mbxRej = (s.met.mbxRej + 1) % 2 ^ 32)

/-- R536, R538 to R540, R551, R553, R558: under MET_VIN the port answers every line: the identity with the recomputed CRC, status,
registers, records; a write with its checks, audited; VERIFY answers OK exactly where the tag matches. -/
def Obligations.VerificationPortAnswers : Prop :=
  ∀ s : State, s.met.vin = true →
    let answers (t : State) (a : VerAnswer) : Prop := OnlyMet s t ∧ t.met = { s.met with answer := a }
    let record (r : Option (List Byte)) : VerAnswer := match r with | some b => .record (hexGroups b) | none => .err .range
    (∀ crc : Word, ∃ t, exec (.verId crc) s = .next t ∧ OnlyMet s t ∧ t.met.fwCrc = crc.toNat ∧ t.met.idShown = true ∧
      (crc.toNat ≠ fwGood → t.met.fwFault = true) ∧ (crc.toNat = fwGood → t.met.fwFault = s.met.fwFault) ∧
      t.met.answer = .identity (ascii "GOI-MET 2.03") (crcText crc.toNat) (leBytes 8 Config.metSerial.toNat) Config.metIssue ∧
      (t.met.fwFault = false → s.met.paramFault = false → s.met.framFault = false → s.met.sealOpen = false →
        t.met.led = .identity ((List.range 8).map (fun i => bitsOf crc.toNat (31 - 4 * i) (28 - 4 * i) + 1)))) ∧
    (∃ t, exec .verStat s = .next t ∧
      answers t (.status s.met.sealOpen s.met.journey.isSome s.met.eventCtr s.met.audit.length s.met.causes)) ∧
    (∀ off, ∃ t, exec (.verRd off) s = .next t ∧ answers t (match metReg s off with
      | some v => if off = 0 then .crc (crcText v) else .value v
      | none => .err .range)) ∧
    (∀ n, ∃ t, exec (.verAud n) s = .next t ∧ answers t (record (auditAt s n))) ∧
    (∀ n, ∃ t, exec (.verJrn n) s = .next t ∧ answers t (record (journeyAt s n))) ∧
    (∀ n, ∃ t, exec (.verGap n) s = .next t ∧ answers t (record (gapAt s n))) ∧
    (∀ line, ∃ t, exec (.verLineInvalid line) s = .next t ∧ answers t (.err .syn)) ∧
    (∀ b : List Byte, b.length = 48 ∨ b.length = 80 → ∃ t, exec (.verify (signed b)) s = .next t ∧ answers t .ok) ∧
    (∀ b x : List Byte, x.length = 16 → x ≠ tagOf b → ∃ t, exec (.verify (b ++ x)) s = .next t ∧ answers t (.err .tag)) ∧
    (∀ off v, off ∉ paramOffs → ∃ t, exec (.verWr off v) s = .next t ∧ answers t (.err .range)) ∧
    (∀ off v, off ∈ paramOffs →
      (∀ e, s.met.writeRefused = some e → ∃ t, exec (.verWr off v) s = .next t ∧ answers t (.err e)) ∧
      (s.met.writeRefused = none → (v < (paramRange off).1 ∨ (paramRange off).2 < v) →
        ∃ t, exec (.verWr off v) s = .next t ∧ answers t (.err .range)) ∧
      (s.met.writeRefused = none → (paramRange off).1 ≤ v → v ≤ (paramRange off).2 →
        (s.met.consistent off v = false → ∃ t, exec (.verWr off v) s = .next t ∧ answers t (.err .incons)) ∧
        (s.met.consistent off v = true →
          ∃ (t : State) (r : List Byte), exec (.verWr off v) s = .next t ∧ OnlyMet s t ∧ t.met.answer = .ok ∧ t.met.param off = Param.of v ∧
            (∀ o ∈ paramOffs, o ≠ off → t.met.param o = s.met.param o) ∧ t.met.audit = s.met.audit ++ [r] ∧ byteAt r 4 = 3 ∧
            byteAt r 5 = off ∧ t.met.cal = s.met.cal)))

/-- R581, R583, R585, R587 to R591, R596: staging is refused as R540 refuses a write (that R540 reaches the staging fields is the
model's reading of R596, log entry 189), committing needs the open seal and room in the trail, and a date that fails is named by
its field; a second boundary advances the calendar, ends it at its last second, or applies the pending commit and audits it; a valid
time's next second is valid. -/
def Obligations.CalendarCommands : Prop :=
  (∀ s : State, s.met.vin = true →
    (∀ text, (∀ e, s.met.writeRefused = some e → ∃ t, exec (.calStage text) s = .next t ∧ t.met = { s.met with answer := .err e }) ∧
      (s.met.writeRefused = none →
        (∀ v, parseStage text = some v → ∃ t, exec (.calStage text) s = .next t ∧ OnlyMet s t ∧
          t.met = { s.met with cal := { s.met.cal with staged := v }, answer := .ok }) ∧
        (parseStage text = none → ∃ t, exec (.calStage text) s = .next t ∧ t.met = { s.met with answer := .err .syn }))) ∧
    (s.met.sealOpen = false → ∃ t, exec .calCommit s = .next t ∧ t.met = { s.met with answer := .err .seal }) ∧
    (s.met.sealOpen = true → s.met.auditFull = true → ∃ t, exec .calCommit s = .next t ∧ t.met = { s.met with answer := .err .full }) ∧
    (s.met.sealOpen = true → s.met.auditFull = false → s.met.cal.staged.failing ≠ 0 →
      ∃ t, exec .calCommit s = .next t ∧ OnlyMet s t ∧ t.met = { s.met with
        cal := { s.met.cal with invalid := true, rejField := s.met.cal.staged.failing }
        answer := .err .range }) ∧
    (s.met.sealOpen = true → s.met.auditFull = false → s.met.cal.staged.failing = 0 →
      ∃ t, exec .calCommit s = .next t ∧ OnlyMet s t ∧
        t.met = { s.met with cal := { s.met.cal with pending := some s.met.cal.staged, invalid := false }, answer := .ok }) ∧
    (∃ (t : State) (x : List Byte), exec .calRead s = .next t ∧ OnlyMet s t ∧ t.met = { s.met with answer := .calendar x } ∧
      x.take 19 = s.met.cal.live.iso)) ∧
  (∀ s : State, (s.met.vin = true → s.met.secDue = true) →
    (s.met.cal.pending = none →
      ∃ t, exec .calSecondBoundary s = .next t ∧ OnlyMet s t ∧ t.met.secs = s.met.secs + 1 ∧ t.met.audit = s.met.audit ∧
        (s.met.cal.live ≠ CalTime.top → t.met.cal = { s.met.cal with live := s.met.cal.live.next }) ∧
        (s.met.cal.live = CalTime.top → t.met.cal = { s.met.cal with ended := true, ovf := satN 32 (s.met.cal.ovf + 1) })) ∧
    (∀ v, s.met.cal.pending = some v → s.met.auditFull = false →
      ∃ (t : State) (r : List Byte), exec .calSecondBoundary s = .next t ∧ OnlyMet s t ∧ t.met.secs = s.met.secs + 1 ∧
        t.met.cal.live = v ∧ t.met.cal.pending = none ∧ t.met.cal.unset = false ∧ t.met.cal.ended = false ∧ t.met.cal.ovf = 0 ∧
        t.met.audit = s.met.audit ++ [r] ∧ byteAt r 4 = 6)) ∧
  (∀ v : CalTime, v.failing = 0 → v ≠ CalTime.top → v.next.failing = 0)

/-- R562, R565, R567, R568, R571, R574, R577: sixteen modulator bits give a channel's next fast sample, and two beyond the threshold
open it; the fine path gives its fine sample; each is released after its delay to the pulse detector, or to the level. -/
def Obligations.WheelSamplesFormAndRelease : Prop :=
  (∀ (b0 b1 b2 b3 : BitVec 16) (s : State), s.met.fastFormDue = true →
    let m := s.met
    let n := m.fastN + 1
    ∃ t, exec (.fastSample b0 b1 b2 b3) s = .next t ∧ OnlyMet s t ∧ t.met.fastN = n ∧
      t.met.ms = (if n % 256 = 0 then m.ms + 1 else m.ms) ∧ t.met.odo = m.odo ∧ RecordsStand { s with met := { m with journey := t.met.journey } } t ∧
      (∀ (c : Nat) (b : BitVec 16), [(0, b0), (1, b1), (2, b2), (3, b3)].contains (c, b) = true → m.input c ≠ 0 →
        let bits := newest 508 ((m.chan c).bits ++ bitVals b)
        let y := fastSat (fastRaw bits)
        (t.met.chan c).bits = bits ∧ (t.met.chan c).fast.length = (m.chan c).fast.length + 1 ∧
        ((t.met.chan c).fast.getLast?.map (fun x => (x.n, x.val))) = some (n, y) ∧
        ((m.chan c).isOpen = false → 1 ≤ (m.chan c).beyond → beyondOpen (m.input c) y = true → (t.met.chan c).isOpen = true) ∧
        ((m.chan c).isOpen = false → beyondOpen (m.input c) y = false → (t.met.chan c).isOpen = false))) ∧
  (∀ s : State, s.met.vin = true → s.met.fineFormDue = true →
    ∃ t, exec .fineSample s = .next t ∧ OnlyMet s t ∧ t.met.fineN = s.met.fineN + 1 ∧ ∀ c < 4, s.met.input c ≠ 0 →
      let w := s.met.chan c
      (t.met.chan c).fine.map (fun x => (x.n, x.val)) =
        w.fine.map (fun x => (x.n, x.val)) ++ [(s.met.fineN + 1, (finePath w.bits w.cic w.half).2.2.1)] ∧
      (t.met.chan c).fast = w.fast ∧ (t.met.chan c).hits = w.hits) ∧
  (∀ s : State, s.met.vin = true → s.met.fastRelDue = true →
    ∃ t, exec .fastSampleRelease s = .next t ∧ OnlyMet s t ∧ ∀ c < 4,
      let w := s.met.chan c
      (w.fastDue s.met.fastN = false → t.met.chan c = w) ∧
      (∀ x rest, w.fast = x :: rest → w.fastDue s.met.fastN = true →
        (t.met.chan c).fast = rest ∧
        (x.invalid = false → x.settling = false → w.below = some true →
          (t.met.chan c).hits = (if pulseUpper (s.met.input c) w.hyst ≤ x.val then w.hits ++ [x.n / 256] else w.hits)))) ∧
  (∀ s : State, s.met.vin = true → s.met.fineRelDue = true →
    ∃ t, exec .fineSampleRelease s = .next t ∧ OnlyMet s t ∧ ∀ c < 4,
      let w := s.met.chan c
      (w.fineDue s.met.fastN = false → t.met.chan c = w) ∧
      (∀ x rest, w.fine = x :: rest → w.fineDue s.met.fastN = true →
        (t.met.chan c).fine = rest ∧
        (s.met.input c = 1 → (t.met.chan c).level = max w.level (if x.val < 0 then -x.val else x.val)) ∧
        (s.met.input c ≠ 1 → (t.met.chan c).level = x.val)))

/-! ## The bridge (chapter 17) and the Dexvor link (chapter 20) -/

/-- R528, R530, R531, R552, R556, R557: a host's read request goes to the mailbox, one at a time; a sync goes out every 100 ms; a
block counts towards presence and is taken by its type; 5 ms without one is TILE_ABSENT, and absent samples follow. -/
def Obligations.BridgeTakesBlocksAndAsks : Prop :=
  (∀ (q : Port) (s : State), MayWrite s q pgMBR 0x0A0 → s.met.vin = true →
    ∀ x ∈ [((.mbrReadRecord q : Instr), 3), (.mbrReadAudit q, 4), (.mbrReadIdentity q, 5)],
      (rdB s pgMBR 0x0B4 0 = false → fenceBit s pgMBR = false →
        ∃ t, exec x.1 s = .next t ∧ rdB t pgMBR 0x0B4 0 = true ∧ t.mbr.txSeq = (s.mbr.txSeq + 1) % 256 ∧ MemStands s t ∧
          RegsStandBut [pgMBR] s t ∧
          t.met = { s.met with mailbox := s.met.mailbox ++ [⟨mkFrame x.2 s.mbr.txSeq (rd64 s pgMBR 0x0A4), s.met.ct⟩] }) ∧
      (rdB s pgMBR 0x0B4 0 = true ∨ fenceBit s pgMBR = true →
        ∃ t, exec x.1 s = .next t ∧ Told t q pgMBR cCMD_REJ (0x0A0 + q.num * 2 ^ 20) ∧ t.met = s.met ∧ t.mbr = s.mbr)) ∧
  (∀ s : State, mbrOn s = true → enabled s pgMBR = true → rdB s pgMBR 0x084 0 = true → s.mbr.lastSync + 100000000 ≤ now s →
    s.met.vin = true →
    ∃ t, exec .tbSyncSend s = .next t ∧ t.mbr.lastSync = now s ∧ t.regs = s.regs ∧ MemStands s t ∧
      t.met = { s.met with mailbox := s.met.mailbox ++ [⟨mkFrame 6 s.mbr.txSeq (now s % 2 ^ 64), s.met.ct⟩] }) ∧
  (∀ (arrived : Option (List Byte)) (b : List Byte) (rest : List (List Byte)) (s : State), s.met.dataPath = b :: rest →
    (mbrOn s = false →
      ∃ t, exec (.mbrBlockReceive arrived) s = .next t ∧ t.met = { s.met with dataPath := rest } ∧ t.regs = s.regs ∧ t.mbr = s.mbr) ∧
    (mbrOn s = true →
      let x := arrived.getD b
      (x.length ≠ 128 ∨ leAt x 124 4 ≠ Crypto.crc32 (x.take 124) →
        ∃ t, exec (.mbrBlockReceive arrived) s = .next t ∧ t.met = { s.met with dataPath := rest } ∧ t.mbr = { s.mbr with run := 0 } ∧
          rd t pgMBR 0x0BC = BitVec.ofNat 32 ((rd s pgMBR 0x0BC).toNat + 1) ∧ MemStands s t) ∧
      (x.length = 128 → leAt x 124 4 = Crypto.crc32 (x.take 124) →
        ∃ t, exec (.mbrBlockReceive arrived) s = .next t ∧ t.met = { s.met with dataPath := rest } ∧
          t.mbr.lastSeq = some (byteAt x 1) ∧ t.mbr.lastBlock = now s ∧
          rd t pgMBR 0x0B8 = BitVec.ofNat 32 ((rd s pgMBR 0x0B8).toNat + 1) ∧
          (∀ l, s.mbr.lastSeq = some l → byteAt x 1 = (l + 1) % 256 → 2 ≤ s.mbr.run →
            rdB t pgMBR 0x080 0 = true ∧ (rdB s pgMBR 0x080 0 = false → Told t (owner s pgMBR) pgMBR 0x104 0)) ∧
          (byteAt x 0 = 2 → rdB t pgMBR 0x080 2 = bitOf (leAt x 8 4) 0 ∧ rdF t pgMBR 0x080 15 8 = byteAt x 20 ∧ MemStands s t) ∧
          (byteAt x 0 = 3 → 3 ≤ byteAt x 8 → s.mbr.readSeq = some (byteAt x 9) →
            rdB t pgMBR 0x0B4 0 = false ∧ rdF t pgMBR 0x0B4 23 16 = byteAt x 10) ∧
          (let r := inRing s pgMBR false
           let tail := rdF s pgMBR 0x098 15 0
           byteAt x 0 = 1 → ringOn s pgMBR wheelRing = true → enabled s pgMBR = true → fenceBit s pgMBR = false →
            (tail + 1) % max 1 r.depth ≠ rdF s pgMBR 0x094 15 0 % max 1 r.depth → GoodRange s .intake (r.base + tail * 32) 32 →
            getBytes t (r.base + tail * 32) 32 = leBytes 8 (now s) ++ (x.drop 8).take 17 ++ zeros 7 ∧
              rd t pgMBR 0x098 = BitVec.ofNat 32 ((tail + 1) % max 1 r.depth) ∧ MemStandsBut (r.base + tail * 32) 32 s t)))) ∧
  (∀ s : State, mbrOn s = true → rdB s pgMBR 0x080 0 = true → s.mbr.lastBlock + 5000000 ≤ now s →
    ∃ t, exec .tileAbsent s = .next t ∧ rdB t pgMBR 0x080 0 = false ∧ rdB t pgMBR 0x080 1 = true ∧ t.mbr.run = 0 ∧
      rdB t pgMBR 0x020 16 = true ∧ RegsStandBut [pgMBR] s t ∧ MemStands s t) ∧
  (∀ s : State, mbrOn s = true → rdB s pgMBR 0x080 1 = true → ringOn s pgMBR wheelRing = true → s.mbr.lastAbsent + 1000000 ≤ now s →
    let r := inRing s pgMBR false
    let tail := rdF s pgMBR 0x098 15 0
    ∃ t, exec .absentSample s = .next t ∧ t.mbr.lastAbsent = now s ∧ t.met = s.met ∧
      (enabled s pgMBR = true → fenceBit s pgMBR = false →
        (tail + 1) % max 1 r.depth ≠ rdF s pgMBR 0x094 15 0 % max 1 r.depth → GoodRange s .intake (r.base + tail * 32) 32 →
        getBytes t (r.base + tail * 32) 32 = leBytes 8 (now s) ++ zeros 16 ++ [0x20] ++ zeros 7))

/-- R600 to R603, R607: ENABLE starts training; its end with two different nonzero IDs is UP, a clash is told once and goes on
training, a slow one is told once; losing a lane, the control blocks or the peer while UP faults the link. -/
def Obligations.LinkComesUpAndFaults : Prop :=
  (∀ (q : Port) (s : State), MayWrite s q pgPLK 0x00C →
    ∃ t, exec (.plkEnable q) s = .next t ∧ enabled t pgPLK = true ∧ RegsStandBut [pgPLK] s t ∧ MemStands s t ∧ t.jobs = s.jobs ∧
      (plkUp s = true → t.plk = s.plk ∧ plkUp t = true) ∧
      (plkUp s = false → plkTraining s = false → plkTraining t = true ∧ t.plk.trainAt = now s)) ∧
  (∀ (peer : Byte) (rev : Bool) (s : State), plkTraining s = true → enabled s pgPLK = true →
    let own := rdF s pgPLK 0x084 7 0
    (own ≠ 0 → peer ≠ 0 → own ≠ peer.toNat →
      ∃ t, exec (.plkTrainingDone peer rev) s = .next t ∧ plkUp t = true ∧ plkTraining t = false ∧ rdB t pgPLK 0x080 6 = rev ∧
        rdF t pgPLK 0x080 15 8 = peer.toNat ∧ t.plk.nextSeq = 0 ∧ t.plk.rxSeq = 0 ∧ t.plk.unacked = [] ∧ rdB t pgPLK 0x014 16 = true) ∧
    (own = 0 ∨ peer = 0 ∨ own = peer.toNat →
      ∃ t, exec (.plkTrainingDone peer rev) s = .next t ∧ plkUp t = plkUp s ∧ plkTraining t = true ∧
        (s.plk.clashTold = true → t.plk = s.plk ∧ t.outbox = s.outbox) ∧
        (s.plk.clashTold = false → t.plk = { s.plk with clashTold := true } ∧ rdB t pgPLK 0x014 20 = true))) ∧
  (∀ s : State, plkTraining s = true → enabled s pgPLK = true → s.plk.slowTold = false → s.plk.trainAt + 100000000 ≤ now s →
    ∃ t, exec .trainSlow s = .next t ∧ t.plk = { s.plk with slowTold := true } ∧ plkTraining t = true ∧ rdB t pgPLK 0x014 19 = true) ∧
  (∀ s : State, plkUp s = true →
    let seq := match s.plk.unacked with | f :: _ => f.seq | [] => s.plk.nextSeq
    let lost (t : State) (reason : Nat) : Prop := LinkLost t reason seq ∧
      (∀ j m, (pageJobs s pgPLK).running = [j] → s.plk.tx = [(sendChan j, some m)] → s.plk.rx = [] → DoneWith s t pgPLK j stPLK_LINK_FAULT)
    (∀ lane, ∃ t, exec (.laneLockLoss lane) s = .next t ∧ lost t 2) ∧
    (∃ t, exec (.down true) s = .next t ∧ lost t 3) ∧
    (s.plk.lastControl + 100000 ≤ now s → ∃ t, exec .controlBlockTimeout s = .next t ∧ lost t 4))

/-- R598, R603 to R608, R613: SEND starts its channel's first job; a frame slot sends the next frame against a credit, or the next
one to resend; an acknowledgement frees what it covers; NAK and the 20 µs timeout resend all, and fault the link after the
fourth sending. -/
def Obligations.FramesAreSentAndAcknowledged : Prop :=
  (∀ (c : Fin 4) (j : Job) (s : State), (pageJobs s pgPLK).running.any (ofChan c.val) = false →
    (pageJobs s pgPLK).queue.find? (ofChan c.val) = some j → plkDeps s j = true → pastDeadline s j.deadline = false →
    ∃ t, exec (.send c) s = .next t ∧ (pageJobs t pgPLK).running = (pageJobs s pgPLK).running ++ [{ j with accepted := now s }] ∧
      txOf t c.val = some ⟨s.plk.nextMsg, leAt j.desc 32 8, leAt j.desc 40 4, leAt j.desc 48 4, 0, 0⟩ ∧
      t.plk.nextMsg = (s.plk.nextMsg + 1) % 2 ^ 32 ∧ t.regs = s.regs ∧ MemStands s t) ∧
  (∀ s : State, plkUp s = true → slotDue s = true →
    (∀ i f, resendFrame s = some (i, f) →
      ∃ t, exec .dataFrameSend s = .next t ∧ t.plk.wire = f.bytes ∧ t.plk.resend = s.plk.resend - 1 ∧ t.plk.lastSlot = now s ∧
        t.plk.nextSeq = s.plk.nextSeq ∧ t.jobs = s.jobs ∧ MemStands s t) ∧
    (∀ c m, s.plk.resend = 0 → txChan s = some (c, m) → rdF s pgPLK 0x088 6 0 ≠ 0 → s.plk.unacked.length < 64 →
      (∀ j, (pageJobs s pgPLK).running.find? (ofChan c) = some j → pastDeadline s j.deadline = false) →
      let n := min 4096 (m.len - 4096 * m.next)
      let b := frameBytes c s.plk.nextSeq m (getBytes s (m.src + 4096 * m.next) n)
      GoodRange s .dexvor (m.src + 4096 * m.next) n →
      ∃ t, exec .dataFrameSend s = .next t ∧ t.plk.wire = b ∧ t.plk.unacked = s.plk.unacked ++ [⟨s.plk.nextSeq, now s, b⟩] ∧
        t.plk.nextSeq = (s.plk.nextSeq + 1) % 2 ^ 32 ∧ txOf t c = some { m with next := m.next + 1 } ∧
        rdF t pgPLK 0x088 6 0 = rdF s pgPLK 0x088 6 0 - 1 ∧ MemStands s t)) ∧
  (∀ s : State, plkUp s = true →
    (∀ seq, ∃ t, exec (.ack seq true) s = .next t ∧ t.plk.unacked = s.plk.unacked.filter (fun f => !seqLe f.seq (seq % 2 ^ 32)) ∧
      t.plk.lastControl = now s ∧ t.regs = s.regs ∧ t.jobs = s.jobs) ∧
    (∀ k, ∃ t, exec (.credit k true) s = .next t ∧ rdF t pgPLK 0x088 6 0 = k.val ∧ t.plk = { s.plk with lastControl := now s } ∧
      t.jobs = s.jobs) ∧
    (∀ seq, s.plk.resend ≠ 0 ∨ s.plk.unacked = [] →
      ∃ t, exec (.nak seq true) s = .next t ∧ t.plk = { s.plk with lastControl := now s }) ∧
    (∀ f rest seq, s.plk.resend = 0 → s.plk.unacked = f :: rest →
      (s.plk.sends < 4 →
        (∃ t, exec (.nak seq true) s = .next t ∧ t.plk = { s.plk with lastControl := now s, resend := rest.length + 1 }) ∧
        (f.sentAt + 20000 ≤ now s → ∃ t, exec .retxTimeout s = .next t ∧ t.plk = { s.plk with resend := rest.length + 1 })) ∧
      (4 ≤ s.plk.sends →
        (∃ t, exec (.nak seq true) s = .next t ∧ LinkLost t 1 f.seq) ∧
        (f.sentAt + 20000 ≤ now s → ∃ t, exec .retxTimeout s = .next t ∧ LinkLost t 1 f.seq))) ∧
    (∀ (n m : Nat) (k : Fin 65), ∀ c ∈ [(.ack n false : Instr), .nak n false, .credit k false, .delivered n false, .refuse n m false,
        .abandon n false, .down false],
      ∃ t, exec c s = .next t ∧ t.plk = s.plk ∧ rd t pgPLK 0x098 = BitVec.ofNat 32 ((rd s pgPLK 0x098).toNat + 1) ∧ t.jobs = s.jobs ∧
        MemStands s t))

/-- R606, R609, R611, R612, R614, R615: DELIVERED and REFUSE end their message's SEND, ABANDON its reception; a posting doorbell
below the depth is taken; a frame that fails CRC or sequence is answered by NAK; an accepted one fills and completes the posted
buffer, or is refused. -/
def Obligations.MessagesArriveAndEnd : Prop :=
  (∀ (msg reason c : Nat) (j : Job) (s : State), plkUp s = true → chanOfMsg s msg = some c →
    (pageJobs s pgPLK).running.find? (ofChan c) = some j →
    (∃ t, exec (.delivered msg true) s = .next t ∧ DoneWith s t pgPLK j stDONE ∧ txOf t c = none ∧ MemStands s t) ∧
    (∃ t, exec (.refuse msg reason true) s = .next t ∧ DoneWith s t pgPLK j stPLK_RX_REFUSED ∧ txOf t c = none ∧ MemStands s t)) ∧
  (∀ (msg c : Nat) (m : RxMsg) (e : Nat × Nat × Nat) (s : State), plkUp s = true → c < 4 → rxOf s c = some m → m.id = msg → m.entry = some e →
    (∀ d < 4, ∀ x, rxOf s d = some x → x.id = msg → d = c) → GoodRange s .record e.2.1 32 →
    ∃ t, exec (.abandon msg true) s = .next t ∧ rxOf t c = none ∧ MemStandsBut e.2.1 32 s t ∧
      getBytes t e.2.1 32 = leBytes 4 e.2.2 ++ leBytes 2 stPLK_RX_ABANDONED ++ [0, 0] ++ leBytes 8 m.written ++ leBytes 8 m.start ++
        leBytes 8 (now s)) ∧
  (∀ (q : Port) (c : Fin 4) (tail : Nat) (s : State), tail < 1024 → MayWrite s q pgPLK (postReg c.val 0x10) →
    let depth := if postOn s c.val then (postRing s c.val).depth else postDepth s c.val
    ∃ t, exec (.plkRxDoorbell q c tail) s = .next t ∧ MemStands s t ∧
      (tail < depth → (postRing t c.val).tail = tail ∧ t.regs = s.regs) ∧
      (depth ≤ tail → t.plk = s.plk ∧ Told t q pgPLK cCMD_REJ (postReg c.val 0x10 + q.num * 2 ^ 20))) ∧
  (∀ (frame : List Byte) (s : State), plkUp s = true →
    (frame.length ≠ 4132 ∨ leAt frame 4128 4 ≠ Crypto.crc32 (frame.take 4128) →
      ∃ t, exec (.dataFrameReceive frame) s = .next t ∧ t.plk = { s.plk with nak := some s.plk.rxSeq } ∧ MemStands s t ∧
        rd t pgPLK 0x098 = BitVec.ofNat 32 ((rd s pgPLK 0x098).toNat + 1)) ∧
    (frame.length = 4132 → leAt frame 4128 4 = Crypto.crc32 (frame.take 4128) → leAt frame 4 4 ≠ s.plk.rxSeq →
      ∃ t, exec (.dataFrameReceive frame) s = .next t ∧ t.plk = { s.plk with nak := some s.plk.rxSeq } ∧ MemStands s t ∧ t.regs = s.regs) ∧
    (let c := byteAt frame 1
     let id := leAt frame 8 4
     let len := leAt frame 16 4
     let r := postRing s c
     let head := rdF s pgPLK (postReg c 0x0C) 9 0
     let e := getBytes s (r.base + 32 * head) 32
     frame.length = 4132 → leAt frame 4128 4 = Crypto.crc32 (frame.take 4128) → leAt frame 4 4 = s.plk.rxSeq → byteAt frame 0 = 1 →
      c < 4 → leAt frame 12 4 = 0 → 1 ≤ len → len ≤ 4096 →
      (postOn s c = true → head ≠ r.tail → 1 ≤ r.depth → r.depth ≤ 1024 → GoodRange s .dexvor (r.base + 32 * head) 32 →
      entryBad s e = false → len ≤ leAt e 8 4 →
        GoodRange s .dexvor (leAt e 0 8) (leAt e 8 4) → GoodRange s .record (leAt e 16 8) 32 →
        (leAt e 0 8 + len ≤ leAt e 16 8 ∨ leAt e 16 8 + 32 ≤ leAt e 0 8) →
        ∃ t, exec (.dataFrameReceive frame) s = .next t ∧ t.plk.rxSeq = (s.plk.rxSeq + 1) % 2 ^ 32 ∧ t.plk.ack = some s.plk.rxSeq ∧
          getBytes t (leAt e 0 8) len = (frame.drop 32).take len ∧
          getBytes t (leAt e 16 8) 32 = leBytes 4 (leAt e 24 4) ++ leBytes 2 stDONE ++ [0, 0] ++ leBytes 8 (len + leAt frame 20 4 * 2 ^ 32) ++
            leBytes 8 (now s) ++ leBytes 8 (now s) ∧
          rdF t pgPLK (postReg c 0x0C) 9 0 = (head + 1) % r.depth ∧ rxOf t c = none ∧ t.plk.control = controlBlock 0x13 id ∧
          (∀ a, ¬(leAt e 0 8 ≤ a ∧ a < leAt e 0 8 + len) → ¬(leAt e 16 8 ≤ a ∧ a < leAt e 16 8 + 32) → getByte t a = getByte s a)) ∧
      (postOn s c = false ∨ head = r.tail →
        ∃ t, exec (.dataFrameReceive frame) s = .next t ∧ t.plk.rxSeq = (s.plk.rxSeq + 1) % 2 ^ 32 ∧ t.plk.ack = some s.plk.rxSeq ∧
          t.plk.control = controlBlock 0x14 (id + 2 ^ 32) ∧ rdB t pgPLK 0x014 17 = true ∧ MemStands s t)))

/-! ## The block as a whole -/

/-- A step runs the command at the front of the queue, with the queue's rest. -/
def Obligations.StepTakesFront : Prop :=
  ∀ (c : Instr) (s : State), step { s with pending := c :: s.pending } = exec c s

/-- Reset: the part is without its supplies, every register of every page reads the reset value of its table, no ring, job, event or
command waits, memory and queue are in form; every byte of DRAM reads as a free value (R673), the resident store as zeros (R179). -/
def Obligations.ResetIsTheColdModule : Prop :=
  State.reset.pending = [] ∧ State.reset.QueueWf ∧ State.reset.Canonical ∧ MewsWf State.reset ∧ State.reset.pd0 = false ∧
    State.reset.met.vin = false ∧ State.reset.outbox = [] ∧ (∀ p, pageJobs State.reset p = PageJobs.none) ∧
    (∀ p off, rd State.reset p off = resetWord p off) ∧ (∀ a, a < 2 ^ 36 → getByte State.reset a = Config.freeByte 0 a) ∧
    (∀ a, 2 ^ 36 ≤ a → getByte State.reset a = 0)

/-- Every step of a block with a well-formed queue takes exactly the first command, and leaves the fuses and the ROM as they were
made (R160, R638, R646). -/
def Obligations.EveryStepKeepsQueueAndFuses : Prop :=
  ∀ s t : State, s.QueueWf → step s = .next t → t.pending = s.pending.tail ∧ t.QueueWf ∧ t.fuses = s.fuses

/-- Every command has its effect in every state: none is refused, and only a memory access to a DPA that R81 leaves unmapped or
gives to register space stops the run. -/
def Obligations.OnlyUnmappedAccessesStop : Prop :=
  ∀ (c : Instr) (s : State), (∃ t, exec c s = .next t) ∨
    (∃ a n u, c = .memRead a n u ∧ n ≠ 0 ∧ isData s a n = false ∧ exec c s = .fault (.unmapped a)) ∨
    (∃ a d u, c = .memWrite a d u ∧ d ≠ [] ∧ isData s a d.length = false ∧ exec c s = .fault (.unmapped a))

/-- R11, R525, R541: no command of the compartment changes anything of the processor: its time base, registers, memory and jobs
stand; and no record of the audit trail is ever overwritten or erased, of which there are at most 1,024. -/
def Obligations.CompartmentKeepsToItself : Prop :=
  ∀ (p : MetPowerUp) (w : Word) (b0 b1 b2 b3 : BitVec 16) (n m : Nat) (b : Bool) (bytes : List Byte) (arrived : Option (List Byte))
    (c : Instr) (s t : State),
    c ∈ [Instr.metPowerUp p, .metVinLoss, .metCycle n b, .sealChange b, .statusBlockSend, .startJourney, .stopJourney, .readRecord,
      .readAudit, .readIdentity, .tbSync, .mailboxFrameReject arrived, .verId w, .verStat, .verRd n, .verWr n m, .verAud n, .verJrn n,
      .verGap n, .verify bytes, .verLineInvalid bytes, .calStage bytes, .calCommit, .calRead, .calSecondBoundary,
      .fastSample b0 b1 b2 b3, .fastSampleRelease, .fineSample, .fineSampleRelease, .vbatBrownOut] →
    exec c s = .next t → OnlyMet s t ∧ s.met.audit <+: t.met.audit ∧ (s.met.audit.length ≤ 1024 → t.met.audit.length ≤ 1024)

/-- Frame: the commands that only write registers, tell events or move an interface's own state store nothing: every byte of memory
and its error marks stand, and so do the jobs, the Mews, the stream units and the workspaces of the engines. -/
def Obligations.RegisterCommandsStoreNothing : Prop :=
  ∀ (q : Port) (p n m : Nat) (w : Word) (b : Bool) (ring : Fin 4) (cr : Fin 16) (ctl : Fin 2) (byte : Byte) (k : TlpKind)
    (value : Option Word) (cfg : List CfgAccess) (edge : Option (Fin 16 × Bool)) (readings : List (Option Int)) (c : Instr) (s t : State),
    c ∈ [Instr.pageLock q p, .evtTest q p w, .pgFaultClear q p none, .fmClr q p, .msixModerationTimeout q ring, .lreDiscard q n,
      .linkDown q, .linkUp q n m cfg, .unsupportedRequest q k, .msixTableWrite q n value, .crDoorbell q cr n, .thmPeakClr q,
      .thmSample readings, .mregClassWrite q none w, .mregTagminWrite q w, .trigClr q p w, .jtagBoundaryScan b b b,
      .fstLookupRead q, .ethTxDoorbell q ctl n, .linkChange ctl b b, .busOff ctl n m, .errorPassive ctl n m, .canRecover q ctl,
      .busRecoveryComplete ctl, .spiTransactionStart ctl edge, .uartTx q ctl byte, .uartTxByteSent ctl, .gpioEdge cr b,
      .plkRxDoorbell q ring n, .plkEnable q, .plkTrainingDone byte b, .trainSlow, .ack n b, .credit 0 b, .tileAbsent, .tbSyncSend,
      .mbrReadRecord q, .mbrReadAudit q, .mbrReadIdentity q] →
    exec c s = .next t →
    t.mem = s.mem ∧ t.marks = s.marks ∧ t.jobs = s.jobs ∧ t.mews = s.mews ∧ t.strm = s.strm ∧ t.gsh = s.gsh ∧ t.fus = s.fus ∧
      t.fsh = s.fsh
end

