-- ==== Sys2Proof/Laws/Bytes.lean ====
section
/-!
SUPPORT. Bytes and numbers: what little-endian bytes spell, memory where nothing is listed, and that a frame or block that ends in
its CRC-32 passes the check of it.
-/
namespace Sys2Proof.Machine

/-- An unlisted key reads as the default. -/
theorem get_unlisted {α : Type} (d : α) (k : Nat) : ∀ (m : SMap α), (∀ e ∈ m, e.1 ≠ k) → m.get d k = d
  | [], _ => rfl
  | (i, v) :: t, h => by
    unfold SMap.get
    rw [if_neg (h (i, v) List.mem_cons_self)]
    exact get_unlisted d k t (fun e he => h e (List.mem_cons_of_mem _ he))

/-- Memory above every listed byte reads as zeros where its fill is zero. -/
theorem getBytes_above {s : State} {a : Nat} (n : Nat) (h : s.mem.cells.all (fun e => decide (e.1 < a)) = true)
    (z : ∀ i, i < n → s.mem.unlisted (a + i) = 0) : getBytes s a n = zeros n := by
  refine List.eq_replicate_iff.mpr ⟨by simp [getBytes], fun b hb => ?_⟩
  obtain ⟨i, hi, rfl⟩ := List.mem_map.mp hb
  refine (get_unlisted _ _ _ (fun e he => ?_)).trans (z i (List.mem_range.mp hi))
  have := List.all_eq_true.mp h e he
  simp at this
  omega

/-- Zero bytes spell 0. -/
theorem leNat_zeros : ∀ n, leNat (zeros n) = 0
  | 0 => rfl
  | n + 1 => by
    have h : leNat (List.replicate n (0#8)) = 0 := leNat_zeros n
    simp [zeros, List.replicate_succ, leNat, h]

/-- Zeros are finite FP16 values. -/
theorem halves_zeros (n k : Nat) : ∀ x ∈ halves (zeros n) k, Fp.isFinite x = true := by
  intro x hx
  obtain ⟨i, _, rfl⟩ := List.mem_map.mp hx
  have : leAt (zeros n) (2 * i) 2 = 0 := by
    unfold leAt; rw [show ((zeros n).drop (2 * i)).take 2 = zeros (min 2 (n - 2 * i)) by simp [zeros]]; exact leNat_zeros _
  rw [this]; decide +kernel
/-! ### CRC-32 stays in 32 bits -/

theorem crcBit_lt {c : Nat} (h : c < 2 ^ 32) : Crypto.crcBit c < 2 ^ 32 := by
  unfold Crypto.crcBit
  split
  · exact Nat.xor_lt_two_pow (by omega) (by decide)
  · omega

theorem crcByte_lt {c : Nat} (b : Byte) (h : c < 2 ^ 32) : Crypto.crcByte c b < 2 ^ 32 := by
  unfold Crypto.crcByte
  iterate 8 apply crcBit_lt
  exact Nat.xor_lt_two_pow h (by omega)

theorem crc32_lt (bs : List Byte) : Crypto.crc32 bs < 2 ^ 32 := by
  unfold Crypto.crc32
  refine Nat.xor_lt_two_pow ?_ (by decide)
  have : ∀ (l : List Byte) (c : Nat), c < 2 ^ 32 → l.foldl Crypto.crcByte c < 2 ^ 32 := by
    intro l
    induction l with
    | nil => exact fun _ h => h
    | cons b t ih => exact fun c h => ih _ (crcByte_lt b h)
  exact this bs _ (by decide)
/-! ### Little-endian numbers -/

theorem length_leBytes (n v : Nat) : (leBytes n v).length = n := by
  induction n generalizing v with
  | zero => rfl
  | succ n ih => simp [leBytes, ih]

/-- The bytes of a number spell it. -/
theorem leNat_leBytes (n v : Nat) (h : v < 256 ^ n) : leNat (leBytes n v) = v := by
  induction n generalizing v with
  | zero => simp at h; subst h; rfl
  | succ n ih =>
    have h2 : v / 256 < 256 ^ n := by rw [Nat.pow_succ] at h; omega
    simp only [leBytes, leNat, ih _ h2, BitVec.toNat_ofNat]; omega

/-- A frame whose last word is the CRC-32 of what stands before it passes the check of R605. -/
theorem crc_fits (b : List Byte) (n : Nat) (h : b.length = n) :
    leAt (b ++ leBytes 4 (Crypto.crc32 b)) n 4 = Crypto.crc32 ((b ++ leBytes 4 (Crypto.crc32 b)).take n) := by
  subst h
  unfold leAt
  rw [List.drop_left, List.take_left, List.take_of_length_le (Nat.le_of_eq (length_leBytes 4 _)),
    leNat_leBytes 4 _ (crc32_lt b)]

/-- R604: a message frame has 4,132 bytes, the last four its CRC-32. -/
theorem frame_length (c seq : Nat) (m : TxMsg) (p : List Byte) (h : p.length ≤ 4096) : (frameBytes c seq m p).length = 4132 := by
  simp [frameBytes, length_leBytes, zeros]; omega

theorem frame_crc (c seq : Nat) (m : TxMsg) (p : List Byte) (h : p.length ≤ 4096) :
    leAt (frameBytes c seq m p) 4128 4 = Crypto.crc32 ((frameBytes c seq m p).take 4128) := by
  unfold frameBytes
  exact crc_fits _ 4128 (by simp [length_leBytes, zeros]; omega)

end Sys2Proof.Machine
end

