-- ==== Sys2Proof/Laws/PerInstr.lean ====
section
/-!
SUPPORT. The family Row: for each row of the command table, that a well-formed command names a page of the register-page range, where it
names one (R58).
-/
namespace Sys2Proof.Laws.Row

/-- The page a command names as an operand. -/
def pageOf (i : Instr) : Option Nat :=
  match i with
  | .pageReady page => some page
  | .paceWindowEnd page _ => some page
  | .pageLock _ page => some page
  | .evtTest _ page _ => some page
  | .pgFaultClear _ page _ => some page
  | .pageEnable _ page _ => some page
  | .pageQuiesce _ page _ => some page
  | .pageFence _ page => some page
  | .pageUnfence _ page => some page
  | .fenceComplete page => some page
  | .fenceSlow page => some page
  | .regTimeout _ page _ _ => some page
  | .heldJobDeadline page => some page
  | .jobCompletion page => some page
  | .trigClr _ page _ => some page
  | .stall page => some page
  | .intakeRingEnable _ page _ _ => some page
  | .fmClr _ page => some page
  | .fmFence _ page => some page
  | _ => none

/-- A well-formed command names, as its page operand, a page below 0x1000; one of an own page stays below 0x100 but for the two
commands of the fault mirror. -/
def Statement (i : Instr) : Prop := i.wf = true → ∀ p, pageOf i = some p → p < 0x1000

/-- A page of the register-page range is below 0x1000. -/
theorem lt_of_wfPage {p : Nat} (h : wfPage p = true) : p < 0x1000 := Nat.lt_of_lt_of_le (of_decide_eq_true h) (by decide)

/-- A number of twelve bits is below 0x1000. -/
theorem lt_of_wfBits {p : Nat} (h : wfBits 12 p = true) : p < 0x1000 := of_decide_eq_true h

/-- The first of two checks that both hold. -/
theorem left_of_and {a b : Bool} (h : (a && b) = true) : a = true := by cases a <;> simp_all

theorem pd0PowerGood : ∀ (straps : Nat), Statement (.pd0PowerGood straps) := fun _ => fun _ _ e => nomatch e
theorem trimVerifyDone : ∀ (r : TrimResult), Statement (.trimVerifyDone r) := fun _ => fun _ _ e => nomatch e
theorem pageReady : ∀ (page : Nat), Statement (.pageReady page) := fun _ => fun h _ e => Option.some.inj e ▸ lt_of_wfPage h
theorem paceWindowEnd : ∀ (page handshakes : Nat), Statement (.paceWindowEnd page handshakes) := fun _ _ => fun h _ e => Option.some.inj e ▸ lt_of_wfPage h
theorem tbSlew : ∀ (q : Port) (value : Word), Statement (.tbSlew q value) := fun _ _ => fun _ _ e => nomatch e
theorem slewDone : Statement .slewDone := fun _ _ e => nomatch e
theorem tbRateSetWrite : ∀ (q : Port) (value : Word), Statement (.tbRateSetWrite q value) := fun _ _ => fun _ _ e => nomatch e
theorem tbSrcChange : ∀ (q : Port) (src : Fin 4), Statement (.tbSrcChange q src) := fun _ _ => fun _ _ e => nomatch e
theorem tbNowLoRead : ∀ (q : Port) (wide : Bool), Statement (.tbNowLoRead q wide) := fun _ _ => fun _ _ e => nomatch e
theorem ppsEdge : ∀ (rising : Bool), Statement (.ppsEdge rising) := fun _ => fun _ _ e => nomatch e
theorem ppsEdgeMissed : Statement .ppsEdgeMissed := fun _ _ e => nomatch e
theorem tbGptpKeep : ∀ (q : Port), Statement (.tbGptpKeep q) := fun _ => fun _ _ e => nomatch e
theorem gptpTimeout : Statement .gptpTimeout := fun _ _ e => nomatch e
theorem holdBoundExceeded : Statement .holdBoundExceeded := fun _ _ e => nomatch e
theorem regWrite : ∀ (q : Port) (acc : Access) (hw : List HwUpdate), Statement (.regWrite q acc hw) := fun _ _ _ => fun _ _ e => nomatch e
theorem pageLock : ∀ (q : Port) (page : Nat), Statement (.pageLock q page) := fun _ _ => fun h _ e => Option.some.inj e ▸ lt_of_wfPage h
theorem evtTest : ∀ (q : Port) (page : Nat) (bits : Word), Statement (.evtTest q page bits) := fun _ _ _ => fun h _ e => Option.some.inj e ▸ lt_of_wfPage h
theorem pgFaultClear : ∀ (q : Port) (page : Nat) (fault : Option (Nat × Nat × Nat)), Statement (.pgFaultClear q page fault) := fun _ _ _ => fun h _ e => Option.some.inj e ▸ lt_of_wfPage (left_of_and h)
theorem pageEnable : ∀ (q : Port) (page : Nat) (on : Bool), Statement (.pageEnable q page on) := fun _ _ _ => fun h _ e => Option.some.inj e ▸ lt_of_wfPage h
theorem pageQuiesce : ∀ (q : Port) (page : Nat) (on : Bool), Statement (.pageQuiesce q page on) := fun _ _ _ => fun h _ e => Option.some.inj e ▸ lt_of_wfPage h
theorem pageFence : ∀ (q : Port) (page : Nat), Statement (.pageFence q page) := fun _ _ => fun h _ e => Option.some.inj e ▸ lt_of_wfPage h
theorem pageUnfence : ∀ (q : Port) (page : Nat), Statement (.pageUnfence q page) := fun _ _ => fun h _ e => Option.some.inj e ▸ lt_of_wfPage h
theorem fenceComplete : ∀ (page : Nat), Statement (.fenceComplete page) := fun _ => fun h _ e => Option.some.inj e ▸ lt_of_wfPage h
theorem fenceSlow : ∀ (page : Nat), Statement (.fenceSlow page) := fun _ => fun h _ e => Option.some.inj e ▸ lt_of_wfPage h
theorem regTimeout : ∀ (q : Port) (page off : Nat) (write : Bool), Statement (.regTimeout q page off write) := fun _ _ _ _ => fun h _ e => Option.some.inj e ▸ lt_of_wfPage (left_of_and h)
theorem eventPost : Statement .eventPost := fun _ _ e => nomatch e
theorem msixModerationTimeout : ∀ (q : Port) (ring : Fin 4), Statement (.msixModerationTimeout q ring) := fun _ _ => fun _ _ e => nomatch e
theorem lreReplay : Statement .lreReplay := fun _ _ e => nomatch e
theorem lreDiscard : ∀ (q : Port) (n : Nat), Statement (.lreDiscard q n) := fun _ _ => fun _ _ e => nomatch e
theorem linkDown : ∀ (q : Port), Statement (.linkDown q) := fun _ => fun _ _ e => nomatch e
theorem linkUp : ∀ (q : Port) (speed width : Nat) (cfg : List CfgAccess), Statement (.linkUp q speed width cfg) := fun _ _ _ _ => fun _ _ e => nomatch e
theorem perst : ∀ (q : Port) (cfg : List CfgAccess), Statement (.perst q cfg) := fun _ _ => fun _ _ e => nomatch e
theorem flr : ∀ (q : Port) (cfg : List CfgAccess), Statement (.flr q cfg) := fun _ _ => fun _ _ e => nomatch e
theorem unsupportedRequest : ∀ (q : Port) (kind : TlpKind), Statement (.unsupportedRequest q kind) := fun _ _ => fun _ _ e => nomatch e
theorem apertureRead : ∀ (q : Port) (offset len : Nat), Statement (.apertureRead q offset len) := fun _ _ _ => fun _ _ e => nomatch e
theorem apertureWrite : ∀ (q : Port) (offset : Nat) (data : List (Option Byte)), Statement (.apertureWrite q offset data) := fun _ _ _ => fun _ _ e => nomatch e
theorem crDoorbell : ∀ (q : Port) (ring : Fin 16) (tail : Nat), Statement (.crDoorbell q ring tail) := fun _ _ _ => fun _ _ e => nomatch e
theorem crEnable : ∀ (q : Port) (ring : Fin 16), Statement (.crEnable q ring) := fun _ _ => fun _ _ e => nomatch e
theorem erEnable : ∀ (q : Port) (ring : Fin 4), Statement (.erEnable q ring) := fun _ _ => fun _ _ e => nomatch e
theorem crEntryTake : ∀ (q : Port), Statement (.crEntryTake q) := fun _ => fun _ _ e => nomatch e
theorem heldJobDeadline : ∀ (page : Nat), Statement (.heldJobDeadline page) := fun _ => fun h _ e => Option.some.inj e ▸ lt_of_wfPage h
theorem jobCompletion : ∀ (page : Nat), Statement (.jobCompletion page) := fun _ => fun h _ e => Option.some.inj e ▸ lt_of_wfPage h
theorem voteCast : ∀ (q : Port), Statement (.voteCast q) := fun _ => fun _ _ e => nomatch e
theorem jointTimeout : Statement .jointTimeout := fun _ _ e => nomatch e
theorem setOwner : ∀ (q : Port), Statement (.setOwner q) := fun _ => fun _ _ e => nomatch e
theorem domain : ∀ (q : Port), Statement (.domain q) := fun _ => fun _ _ e => nomatch e
theorem vcore : ∀ (q : Port), Statement (.vcore q) := fun _ => fun _ _ e => nomatch e
theorem unlock : ∀ (q : Port), Statement (.unlock q) := fun _ => fun _ _ e => nomatch e
theorem dmcMap : ∀ (q : Port), Statement (.dmcMap q) := fun _ => fun _ _ e => nomatch e
theorem fusXform : ∀ (q : Port), Statement (.fusXform q) := fun _ => fun _ _ e => nomatch e
theorem fusMode : ∀ (q : Port), Statement (.fusMode q) := fun _ => fun _ _ e => nomatch e
theorem metJourney : ∀ (q : Port), Statement (.metJourney q) := fun _ => fun _ _ e => nomatch e
theorem consent : ∀ (q : Port), Statement (.consent q) := fun _ => fun _ _ e => nomatch e
theorem window : ∀ (q : Port), Statement (.window q) := fun _ => fun _ _ e => nomatch e
theorem domainOnDone : ∀ (d : Nat), Statement (.domainOnDone d) := fun _ => fun _ _ e => nomatch e
theorem domainOffDone : ∀ (d : Nat), Statement (.domainOffDone d) := fun _ => fun _ _ e => nomatch e
theorem vcoreDone : Statement .vcoreDone := fun _ _ e => nomatch e
theorem supMeasurement : ∀ (r : Option SupReport), Statement (.supMeasurement r) := fun _ => fun _ _ e => nomatch e
theorem vcoreLost : ∀ (critAction : Bool), Statement (.vcoreLost critAction) := fun _ => fun _ _ e => nomatch e
theorem vcoreReturn : Statement .vcoreReturn := fun _ _ e => nomatch e
theorem thmSample : ∀ (readings : List (Option Int)), Statement (.thmSample readings) := fun _ => fun _ _ e => nomatch e
theorem thmPeakClr : ∀ (q : Port), Statement (.thmPeakClr q) := fun _ => fun _ _ e => nomatch e
theorem dmcTrainDone : ∀ (ctl : Fin 12) (failStep : Nat), Statement (.dmcTrainDone ctl failStep) := fun _ _ => fun _ _ e => nomatch e
theorem trainTimeout : ∀ (ctl : Fin 12), Statement (.trainTimeout ctl) := fun _ => fun _ _ e => nomatch e
theorem retrain : ∀ (q : Port) (ctl : Fin 12), Statement (.retrain q ctl) := fun _ _ => fun _ _ e => nomatch e
theorem dmcEccInit : ∀ (q : Port) (region : Fin 32), Statement (.dmcEccInit q region) := fun _ _ => fun _ _ e => nomatch e
theorem eccInitDone : Statement .eccInitDone := fun _ _ e => nomatch e
theorem mr4Read : ∀ (ctl : Fin 12) (aboveNominal : Bool) (code : Nat), Statement (.mr4Read ctl aboveNominal code) := fun _ _ _ => fun _ _ e => nomatch e
theorem selfRefreshEntry : ∀ (ctl : Fin 12), Statement (.selfRefreshEntry ctl) := fun _ => fun _ _ e => nomatch e
theorem requestAdmit : ∀ (present : List PresentedReq) (done : List (Nat × Fin 12)) (count : Nat), Statement (.requestAdmit present done count) := fun _ _ _ => fun _ _ e => nomatch e
theorem regulatorInterval : Statement .regulatorInterval := fun _ _ e => nomatch e
theorem mregClassWrite : ∀ (q : Port) (index : Option (Fin 8)) (value : Word), Statement (.mregClassWrite q index value) := fun _ _ _ => fun _ _ e => nomatch e
theorem mregTagminWrite : ∀ (q : Port) (value : Word), Statement (.mregTagminWrite q value) := fun _ _ => fun _ _ e => nomatch e
theorem memRead : ∀ (dpa len : Nat) (upset : Upset), Statement (.memRead dpa len upset) := fun _ _ _ => fun _ _ e => nomatch e
theorem memWrite : ∀ (dpa : Nat) (data : List Byte) (upset : Upset), Statement (.memWrite dpa data upset) := fun _ _ _ => fun _ _ e => nomatch e
theorem patrolScrub : ∀ (ctl : Option (Fin 12)) (upset : Upset), Statement (.patrolScrub ctl upset) := fun _ _ => fun _ _ e => nomatch e
theorem resInitDone : ∀ (bistFail repairFail : List Nat), Statement (.resInitDone bistFail repairFail) := fun _ _ => fun _ _ e => nomatch e
theorem flgSet : ∀ (q : Port) (flag : Nat) (same : List (Nat × Bool)), Statement (.flgSet q flag same) := fun _ _ _ => fun _ _ e => nomatch e
theorem flgClr : ∀ (q : Port) (flag : Nat) (same : List (Nat × Bool)), Statement (.flgClr q flag same) := fun _ _ _ => fun _ _ e => nomatch e
theorem flgRangeClr : ∀ (q : Port) (first count : Nat), Statement (.flgRangeClr q first count) := fun _ _ _ => fun _ _ e => nomatch e
theorem rangeClrDone : Statement .rangeClrDone := fun _ _ e => nomatch e
theorem flgGroupRead : ∀ (q : Port) (high : Bool), Statement (.flgGroupRead q high) := fun _ _ => fun _ _ e => nomatch e
theorem alloc : ∀ (q : Port), Statement (.alloc q) := fun _ => fun _ _ e => nomatch e
theorem free : ∀ (q : Port), Statement (.free q) := fun _ => fun _ _ e => nomatch e
theorem transfer : ∀ (q : Port), Statement (.transfer q) := fun _ => fun _ _ e => nomatch e
theorem reclaim : ∀ (q : Port), Statement (.reclaim q) := fun _ => fun _ _ e => nomatch e
theorem reclaimDone : Statement .reclaimDone := fun _ _ e => nomatch e
theorem cancel : ∀ (q : Port), Statement (.cancel q) := fun _ => fun _ _ e => nomatch e
theorem tentative : ∀ (u : Fin 32), Statement (.tentative u) := fun _ => fun _ _ e => nomatch e
theorem allocGranted : Statement .allocGranted := fun _ _ e => nomatch e
theorem mewsFenceWrite : ∀ (q : Port) (high : Bool) (value : Word), Statement (.mewsFenceWrite q high value) := fun _ _ _ => fun _ _ e => nomatch e
theorem poolOn : ∀ (q : Port) (n : Fin 8), Statement (.poolOn q n) := fun _ _ => fun _ _ e => nomatch e
theorem poolOff : ∀ (q : Port) (n : Fin 8), Statement (.poolOff q n) := fun _ _ => fun _ _ e => nomatch e
theorem runJobStart : ∀ (u : Fin 32), Statement (.runJobStart u) := fun _ => fun _ _ e => nomatch e
theorem launch : ∀ (u : Fin 32), Statement (.launch u) := fun _ => fun _ _ e => nomatch e
theorem seta : ∀ (u : Fin 32), Statement (.seta u) := fun _ => fun _ _ e => nomatch e
theorem adda : ∀ (u : Fin 32), Statement (.adda u) := fun _ => fun _ _ e => nomatch e
theorem setc : ∀ (u : Fin 32), Statement (.setc u) := fun _ => fun _ _ e => nomatch e
theorem loop : ∀ (u : Fin 32), Statement (.loop u) := fun _ => fun _ _ e => nomatch e
theorem xfer : ∀ (u : Fin 32), Statement (.xfer u) := fun _ => fun _ _ e => nomatch e
theorem pref : ∀ (u : Fin 32), Statement (.pref u) := fun _ => fun _ _ e => nomatch e
theorem waits : ∀ (u : Fin 32), Statement (.waits u) := fun _ => fun _ _ e => nomatch e
theorem sigs : ∀ (u : Fin 32), Statement (.sigs u) := fun _ => fun _ _ e => nomatch e
theorem waitf : ∀ (u : Fin 32), Statement (.waitf u) := fun _ => fun _ _ e => nomatch e
theorem setf : ∀ (u : Fin 32) (same : List (Nat × Bool)), Statement (.setf u same) := fun _ _ => fun _ _ e => nomatch e
theorem clrf : ∀ (u : Fin 32) (same : List (Nat × Bool)), Statement (.clrf u same) := fun _ _ => fun _ _ e => nomatch e
theorem swap : ∀ (u : Fin 32), Statement (.swap u) := fun _ => fun _ _ e => nomatch e
theorem mark : ∀ (u : Fin 32), Statement (.mark u) := fun _ => fun _ _ e => nomatch e
theorem markDeadlineMiss : ∀ (u : Fin 32), Statement (.markDeadlineMiss u) := fun _ => fun _ _ e => nomatch e
theorem drain : ∀ (u : Fin 32), Statement (.drain u) := fun _ => fun _ _ e => nomatch e
theorem agEnd : ∀ (u : Fin 32), Statement (.agEnd u) := fun _ => fun _ _ e => nomatch e
theorem agPcOverrun : ∀ (u : Fin 32), Statement (.agPcOverrun u) := fun _ => fun _ _ e => nomatch e
theorem runaheadIssue : ∀ (u : Fin 32), Statement (.runaheadIssue u) := fun _ => fun _ _ e => nomatch e
theorem strmFence : ∀ (q : Port) (u : Fin 32), Statement (.strmFence q u) := fun _ _ => fun _ _ e => nomatch e
theorem fenceDone : ∀ (u : Fin 32), Statement (.fenceDone u) := fun _ => fun _ _ e => nomatch e
theorem semaSig : ∀ (q : Port) (k : Fin 4) (value : Word), Statement (.semaSig q k value) := fun _ _ _ => fun _ _ e => nomatch e
theorem semaRestore : ∀ (q : Port) (k : Fin 4) (value : Word) (same : List SemSignal), Statement (.semaRestore q k value same) := fun _ _ _ _ => fun _ _ e => nomatch e
theorem trigClr : ∀ (q : Port) (page : Nat) (value : Word), Statement (.trigClr q page value) := fun _ _ _ => fun h _ e => Option.some.inj e ▸ lt_of_wfPage h
theorem stall : ∀ (page : Nat), Statement (.stall page) := fun _ => fun h _ e => Option.some.inj e ▸ lt_of_wfPage h
theorem layersJobStart : ∀ (c : Fin 4), Statement (.layersJobStart c) := fun _ => fun _ _ e => nomatch e
theorem layerStart : ∀ (c : Fin 4), Statement (.layerStart c) := fun _ => fun _ _ e => nomatch e
theorem chainHalfArrive : ∀ (c : Fin 4), Statement (.chainHalfArrive c) := fun _ => fun _ _ e => nomatch e
theorem outputBlock : ∀ (c : Fin 4), Statement (.outputBlock c) := fun _ => fun _ _ e => nomatch e
theorem layerEnd : ∀ (c : Fin 4), Statement (.layerEnd c) := fun _ => fun _ _ e => nomatch e
theorem genBind : Statement .genBind := fun _ _ e => nomatch e
theorem seq : Statement .seq := fun _ _ e => nomatch e
theorem draft : Statement .draft := fun _ _ e => nomatch e
theorem stop : Statement .stop := fun _ _ e => nomatch e
theorem stepPlanning : Statement .stepPlanning := fun _ _ e => nomatch e
theorem actionDeliver : Statement .actionDeliver := fun _ _ e => nomatch e
theorem kvLoad : Statement .kvLoad := fun _ _ e => nomatch e
theorem kvStore : Statement .kvStore := fun _ _ e => nomatch e
theorem sampleToken : Statement .sampleToken := fun _ _ e => nomatch e
theorem stepEnd : Statement .stepEnd := fun _ _ e => nomatch e
theorem csiFrameStart : ∀ (r : Fin 8) (vc : Fin 4) (frameNo : Nat) (corrected : Bool), Statement (.csiFrameStart r vc frameNo corrected) := fun _ _ _ _ => fun _ _ e => nomatch e
theorem csiLongPacket : ∀ (r : Fin 8) (vc : Fin 4) (dt : Nat) (line : List Nat) (ecc : HeaderEcc) (crcOk : Bool), Statement (.csiLongPacket r vc dt line ecc crcOk) := fun _ _ _ _ _ _ => fun _ _ e => nomatch e
theorem csiFrameEnd : ∀ (r : Fin 8) (vc : Fin 4) (corrected : Bool), Statement (.csiFrameEnd r vc corrected) := fun _ _ _ => fun _ _ e => nomatch e
theorem syncLost : ∀ (r : Fin 8), Statement (.syncLost r) := fun _ => fun _ _ e => nomatch e
theorem fstLookupRead : ∀ (q : Port), Statement (.fstLookupRead q) := fun _ => fun _ _ e => nomatch e
theorem fstCamFlush : ∀ (q : Port) (cam : Fin 16), Statement (.fstCamFlush q cam) := fun _ _ => fun _ _ e => nomatch e
theorem fstCamEnable : ∀ (q : Port) (cam : Fin 16) (value : Word), Statement (.fstCamEnable q cam value) := fun _ _ _ => fun _ _ e => nomatch e
theorem intakeRingEnable : ∀ (q : Port) (page : Nat) (transmit : Bool) (value : Word), Statement (.intakeRingEnable q page transmit value) := fun _ _ _ _ => fun h _ e => Option.some.inj e ▸ lt_of_wfPage h
theorem ethFrameReceive : ∀ (m : Fin 2) (frame : List Byte) (fcsOk : Bool) (stamp : Nat), Statement (.ethFrameReceive m frame fcsOk stamp) := fun _ _ _ _ => fun _ _ e => nomatch e
theorem lidarBlockClose : ∀ (m x : Fin 2), Statement (.lidarBlockClose m x) := fun _ _ => fun _ _ e => nomatch e
theorem ethTxDoorbell : ∀ (q : Port) (m : Fin 2) (tail : Nat), Statement (.ethTxDoorbell q m tail) := fun _ _ _ => fun _ _ e => nomatch e
theorem ethTransmit : ∀ (m : Fin 2), Statement (.ethTransmit m) := fun _ => fun _ _ e => nomatch e
theorem linkChange : ∀ (m : Fin 2) (up anDone : Bool), Statement (.linkChange m up anDone) := fun _ _ _ => fun _ _ e => nomatch e
theorem canFrameReceive : ∀ (c : Fin 2) (frame : CanFrame), Statement (.canFrameReceive c frame) := fun _ _ => fun _ _ e => nomatch e
theorem busOff : ∀ (c : Fin 2) (tec recv : Nat), Statement (.busOff c tec recv) := fun _ _ _ => fun _ _ e => nomatch e
theorem errorPassive : ∀ (c : Fin 2) (tec recv : Nat), Statement (.errorPassive c tec recv) := fun _ _ _ => fun _ _ e => nomatch e
theorem canRecover : ∀ (q : Port) (c : Fin 2), Statement (.canRecover q c) := fun _ _ => fun _ _ e => nomatch e
theorem spiTransactionStart : ∀ (c : Fin 2) (edge : Option (Fin 16 × Bool)), Statement (.spiTransactionStart c edge) := fun _ _ => fun _ _ e => nomatch e
theorem spiTransactionEnd : ∀ (c : Fin 2) (rx : List Byte), Statement (.spiTransactionEnd c rx) := fun _ _ => fun _ _ e => nomatch e
theorem uartRxByte : ∀ (u : Fin 2) (byte : Byte) (start : Nat) (afterIdle framing parity : Bool), Statement (.uartRxByte u byte start afterIdle framing parity) := fun _ _ _ _ _ _ => fun _ _ e => nomatch e
theorem uartIdleTimeout : ∀ (u : Fin 2), Statement (.uartIdleTimeout u) := fun _ => fun _ _ e => nomatch e
theorem uartTx : ∀ (q : Port) (u : Fin 2) (byte : Byte), Statement (.uartTx q u byte) := fun _ _ _ => fun _ _ e => nomatch e
theorem gpioEdge : ∀ (pin : Fin 16) (rising : Bool), Statement (.gpioEdge pin rising) := fun _ _ => fun _ _ e => nomatch e
theorem visionFrameStart : ∀ (e : Fin 5), Statement (.visionFrameStart e) := fun _ => fun _ _ e => nomatch e
theorem tileDone : ∀ (e : Fin 5), Statement (.tileDone e) := fun _ => fun _ _ e => nomatch e
theorem setup : Statement .setup := fun _ _ e => nomatch e
theorem fusFrame : Statement .fusFrame := fun _ _ e => nomatch e
theorem grid : Statement .grid := fun _ _ e => nomatch e
theorem solve : Statement .solve := fun _ _ e => nomatch e
theorem load : Statement .load := fun _ _ e => nomatch e
theorem gshFree : Statement .gshFree := fun _ _ e => nomatch e
theorem gshExport : Statement .gshExport := fun _ _ e => nomatch e
theorem fshBind : Statement .fshBind := fun _ _ e => nomatch e
theorem search : Statement .search := fun _ _ e => nomatch e
theorem append : Statement .append := fun _ _ e => nomatch e
theorem delete : Statement .delete := fun _ _ e => nomatch e
theorem merge : Statement .merge := fun _ _ e => nomatch e
theorem epochSwitch : Statement .epochSwitch := fun _ _ e => nomatch e
theorem epochRetired : Statement .epochRetired := fun _ _ e => nomatch e
theorem metPowerUp : ∀ (r : MetPowerUp), Statement (.metPowerUp r) := fun _ => fun _ _ e => nomatch e
theorem metVinLoss : Statement .metVinLoss := fun _ _ e => nomatch e
theorem metCycle : ∀ (vbatMv : Nat) (framFail : Bool), Statement (.metCycle vbatMv framFail) := fun _ _ => fun _ _ e => nomatch e
theorem sealChange : ∀ (toOpen : Bool), Statement (.sealChange toOpen) := fun _ => fun _ _ e => nomatch e
theorem statusBlockSend : Statement .statusBlockSend := fun _ _ e => nomatch e
theorem startJourney : Statement .startJourney := fun _ _ e => nomatch e
theorem stopJourney : Statement .stopJourney := fun _ _ e => nomatch e
theorem readRecord : Statement .readRecord := fun _ _ e => nomatch e
theorem readAudit : Statement .readAudit := fun _ _ e => nomatch e
theorem readIdentity : Statement .readIdentity := fun _ _ e => nomatch e
theorem tbSync : Statement .tbSync := fun _ _ e => nomatch e
theorem mailboxFrameReject : ∀ (arrived : Option (List Byte)), Statement (.mailboxFrameReject arrived) := fun _ => fun _ _ e => nomatch e
theorem tbSyncSend : Statement .tbSyncSend := fun _ _ e => nomatch e
theorem mbrBlockReceive : ∀ (arrived : Option (List Byte)), Statement (.mbrBlockReceive arrived) := fun _ => fun _ _ e => nomatch e
theorem tileAbsent : Statement .tileAbsent := fun _ _ e => nomatch e
theorem absentSample : Statement .absentSample := fun _ _ e => nomatch e
theorem mbrReadRecord : ∀ (q : Port), Statement (.mbrReadRecord q) := fun _ => fun _ _ e => nomatch e
theorem mbrReadAudit : ∀ (q : Port), Statement (.mbrReadAudit q) := fun _ => fun _ _ e => nomatch e
theorem mbrReadIdentity : ∀ (q : Port), Statement (.mbrReadIdentity q) := fun _ => fun _ _ e => nomatch e
theorem verId : ∀ (crc : Word), Statement (.verId crc) := fun _ => fun _ _ e => nomatch e
theorem verStat : Statement .verStat := fun _ _ e => nomatch e
theorem verRd : ∀ (offset : Nat), Statement (.verRd offset) := fun _ => fun _ _ e => nomatch e
theorem verWr : ∀ (offset value : Nat), Statement (.verWr offset value) := fun _ _ => fun _ _ e => nomatch e
theorem verAud : ∀ (n : Nat), Statement (.verAud n) := fun _ => fun _ _ e => nomatch e
theorem verJrn : ∀ (n : Nat), Statement (.verJrn n) := fun _ => fun _ _ e => nomatch e
theorem verGap : ∀ (n : Nat), Statement (.verGap n) := fun _ => fun _ _ e => nomatch e
theorem verify : ∀ (record : List Byte), Statement (.verify record) := fun _ => fun _ _ e => nomatch e
theorem calStage : ∀ (text : List Byte), Statement (.calStage text) := fun _ => fun _ _ e => nomatch e
theorem calCommit : Statement .calCommit := fun _ _ e => nomatch e
theorem calRead : Statement .calRead := fun _ _ e => nomatch e
theorem calSecondBoundary : Statement .calSecondBoundary := fun _ _ e => nomatch e
theorem fastSample : ∀ (b0 b1 b2 b3 : BitVec 16), Statement (.fastSample b0 b1 b2 b3) := fun _ _ _ _ => fun _ _ e => nomatch e
theorem fastSampleRelease : Statement .fastSampleRelease := fun _ _ e => nomatch e
theorem fineSample : Statement .fineSample := fun _ _ e => nomatch e
theorem fineSampleRelease : Statement .fineSampleRelease := fun _ _ e => nomatch e
theorem plkEnable : ∀ (q : Port), Statement (.plkEnable q) := fun _ => fun _ _ e => nomatch e
theorem plkTrainingDone : ∀ (peerId : Byte) (reversed : Bool), Statement (.plkTrainingDone peerId reversed) := fun _ _ => fun _ _ e => nomatch e
theorem trainSlow : Statement .trainSlow := fun _ _ e => nomatch e
theorem send : ∀ (c : Fin 4), Statement (.send c) := fun _ => fun _ _ e => nomatch e
theorem dataFrameSend : Statement .dataFrameSend := fun _ _ e => nomatch e
theorem dataFrameReceive : ∀ (frame : List Byte), Statement (.dataFrameReceive frame) := fun _ => fun _ _ e => nomatch e
theorem ack : ∀ (seq : Nat) (crcOk : Bool), Statement (.ack seq crcOk) := fun _ _ => fun _ _ e => nomatch e
theorem nak : ∀ (seq : Nat) (crcOk : Bool), Statement (.nak seq crcOk) := fun _ _ => fun _ _ e => nomatch e
theorem credit : ∀ (credits : Fin 65) (crcOk : Bool), Statement (.credit credits crcOk) := fun _ _ => fun _ _ e => nomatch e
theorem delivered : ∀ (msg : Nat) (crcOk : Bool), Statement (.delivered msg crcOk) := fun _ _ => fun _ _ e => nomatch e
theorem refuse : ∀ (msg reason : Nat) (crcOk : Bool), Statement (.refuse msg reason crcOk) := fun _ _ _ => fun _ _ e => nomatch e
theorem abandon : ∀ (msg : Nat) (crcOk : Bool), Statement (.abandon msg crcOk) := fun _ _ => fun _ _ e => nomatch e
theorem down : ∀ (crcOk : Bool), Statement (.down crcOk) := fun _ => fun _ _ e => nomatch e
theorem retxTimeout : Statement .retxTimeout := fun _ _ e => nomatch e
theorem laneLockLoss : ∀ (lane : Fin 4), Statement (.laneLockLoss lane) := fun _ => fun _ _ e => nomatch e
theorem controlBlockTimeout : Statement .controlBlockTimeout := fun _ _ e => nomatch e
theorem plkRxDoorbell : ∀ (q : Port) (c : Fin 4) (tail : Nat), Statement (.plkRxDoorbell q c tail) := fun _ _ _ => fun _ _ e => nomatch e
theorem fmClr : ∀ (q : Port) (page : Nat), Statement (.fmClr q page) := fun _ _ => fun h _ e => Option.some.inj e ▸ lt_of_wfBits h
theorem fmFence : ∀ (q : Port) (page : Nat), Statement (.fmFence q page) := fun _ _ => fun h _ e => Option.some.inj e ▸ lt_of_wfBits h
theorem modEnRise : ∀ (flProgLow : Bool) (vinMv : Nat), Statement (.modEnRise flProgLow vinMv) := fun _ _ => fun _ _ e => nomatch e
theorem modulePowerDown : Statement .modulePowerDown := fun _ _ e => nomatch e
theorem flashProgMode : ∀ (vinMv : Nat), Statement (.flashProgMode vinMv) := fun _ => fun _ _ e => nomatch e
theorem supProtection : ∀ (p : Protection), Statement (.supProtection p) := fun _ => fun _ _ e => nomatch e
theorem supCritEval : ∀ (writes : List (Nat × Nat)), Statement (.supCritEval writes) := fun _ => fun _ _ e => nomatch e
theorem supRestore : ∀ (value : Nat), Statement (.supRestore value) := fun _ => fun _ _ e => nomatch e
theorem busRecoveryComplete : ∀ (c : Fin 2), Statement (.busRecoveryComplete c) := fun _ => fun _ _ e => nomatch e
theorem uartTxByteSent : ∀ (u : Fin 2), Statement (.uartTxByteSent u) := fun _ => fun _ _ e => nomatch e
theorem vbatBrownOut : Statement .vbatBrownOut := fun _ _ e => nomatch e
theorem msixTableWrite : ∀ (q : Port) (offset : Nat) (value : Word), Statement (.msixTableWrite q offset value) := fun _ _ _ => fun _ _ e => nomatch e
theorem supCauseClear : ∀ (bits : Nat), Statement (.supCauseClear bits) := fun _ => fun _ _ e => nomatch e
theorem jtagBoundaryScan : ∀ (tms tdi trst : Bool), Statement (.jtagBoundaryScan tms tdi trst) := fun _ _ _ => fun _ _ e => nomatch e
theorem verLineInvalid : ∀ (line : List Byte), Statement (.verLineInvalid line) := fun _ => fun _ _ e => nomatch e
theorem runJobDeadline : ∀ (u : Fin 32), Statement (.runJobDeadline u) := fun _ => fun _ _ e => nomatch e
theorem mergeDeadline : Statement .mergeDeadline := fun _ _ e => nomatch e

end Sys2Proof.Laws.Row
end

