-- ==== Sys2Proof/Laws/RealFn.lean ====
section
/-!
SUPPORT. What the functions of `Machine/RealFn.lean` can answer: a value within 2 units in the last place of the exact one.
-/
namespace Sys2Proof.Fix

/-- A value `near` names is finite and within 2 units in the last place (R318, R324, R439, R472). -/
theorem near_within {c : Int} {y : Nat} (h : y ∈ near c) : ∃ v, ofFp y = some v ∧ ((v - c).natAbs : Int) ≤ 2 * ulp c := by
  have hy := (List.mem_filter.mp h).2
  split at hy
  · exact ⟨_, ‹_›, of_decide_eq_true hy⟩
  · cases hy

/-- Whatever the constant, the result is one of those, or the rounded value where there is none. -/
theorem pick_or (c : Int) (choice : Nat) : pick c choice ∈ near c ∨ (near c = [] ∧ pick c choice = toFp c) := by
  by_cases h : near c = []
  · exact .inr ⟨h, by simp [pick, h]⟩
  · have hl : 0 < (near c).length := List.length_pos_iff.mpr h
    have hk : choice % max 1 (near c).length < (near c).length := by
      rw [Nat.max_eq_right hl]; exact Nat.mod_lt _ hl
    exact .inl (by unfold pick; rw [List.getD_eq_getElem?_getD, List.getElem?_eq_getElem hk]; exact List.getElem_mem hk)

/-- So what holds of each of them holds of the result. -/
theorem pick_all {P : Nat → Prop} {c : Int} (choice : Nat) (h : ∀ y ∈ toFp c :: near c, P y) : P (pick c choice) := by
  rcases pick_or c choice with hm | ⟨_, he⟩
  · exact h _ (List.mem_cons_of_mem _ hm)
  · rw [he]; exact h _ List.mem_cons_self

/-- The square root of a positive FP32 value is within 2 units in the last place of the exact root. -/
theorem sqrtFp_eq {x m : Nat} {e c : Int} (h : Fp.dec32 x = .fin false m e) (hc : ofFp x = some c) :
    sqrtFp x = pick (sqrt c) (Config.sqrt x) := by
  simp [sqrtFp, fun1, h, hc]

end Sys2Proof.Fix
end

