-- ==== Sys2Proof/Laws/Regul.lean ====
section
/-!
SUPPORT. What an access of one of the part's sources can change before it reads or writes memory: the regulator, and by it the
register file and the records on their way; and that such an access keeps the canonical form of memory.
-/
namespace Sys2Proof.Machine

/-- `t` differs from `s` in the regulator, the register file and the records on their way alone. -/
def AdmitsOnly (s t : State) : Prop := t = { s with regul := t.regul, regs := t.regs, outbox := t.outbox }

theorem AdmitsOnly.eq {s t : State} (h : AdmitsOnly s t) : t = { s with regul := t.regul, regs := t.regs, outbox := t.outbox } := h

theorem AdmitsOnly.refl (s : State) : AdmitsOnly s s := rfl

theorem AdmitsOnly.trans {s t u : State} (h : AdmitsOnly s t) (g : AdmitsOnly t u) : AdmitsOnly s u :=
  Eq.trans g (congrArg (fun x : State => { x with regul := u.regul, regs := u.regs, outbox := u.outbox }) h)

theorem AdmitsOnly.of_reports {s t : State} (h : ReportsOnly s t) : AdmitsOnly s t :=
  h.eq.trans (congrArg (fun g => ({ s with regul := g, regs := t.regs, outbox := t.outbox } : State)) (congrArg State.regul h.eq).symm)

theorem modRegul_admits (f : RegulatorState → RegulatorState) (s : State) : AdmitsOnly s (modRegul f s) := rfl

theorem openInstant_admits (s : State) : AdmitsOnly s (openInstant s) := by
  unfold openInstant; dsimp only; split
  · exact modRegul_admits ..
  · exact (modRegul_admits ..).trans (AdmitsOnly.of_reports (wr_reports ..))

theorem countClass_admits (c n : Nat) (s : State) : AdmitsOnly s (countClass c n s) := by
  unfold countClass; dsimp only; split
  · exact AdmitsOnly.refl s
  · split
    · exact modRegul_admits ..
    · exact (modRegul_admits ..).trans (AdmitsOnly.of_reports (incCnt_reports ..))

/-- Admission of an access changes the regulator and what reports it alone. -/
theorem useMem_admits (src : ReqSource) (a n : Nat) (s : State) : AdmitsOnly s (useMem src a n s) := by
  unfold useMem; split
  · exact AdmitsOnly.refl s
  · exact (openInstant_admits s).trans (countClass_admits ..)

@[simp] theorem useMem_mem (src : ReqSource) (a n : Nat) (s : State) : (useMem src a n s).mem = s.mem :=
  (congrArg State.mem (useMem_admits src a n s).eq).trans rfl

@[simp] theorem useMem_marks (src : ReqSource) (a n : Nat) (s : State) : (useMem src a n s).marks = s.marks :=
  (congrArg State.marks (useMem_admits src a n s).eq).trans rfl

theorem useMem_canonical (src : ReqSource) (a n : Nat) {s : State} (c : s.Canonical) : (useMem src a n s).Canonical :=
  canonical_of (useMem_mem ..) (useMem_marks ..) c

/-- A source's accesses keep the canonical form. -/
theorem readAs_canonical (src : ReqSource) (a n : Nat) {s : State} (c : s.Canonical) : (readAs src a n s).2.2.Canonical :=
  readMem_canonical a n (useMem_canonical src a n c)

theorem writeAs_canonical (src : ReqSource) (a : Nat) (bs : List Byte) {s : State} (c : s.Canonical) :
    (writeAs src a bs s).2.Canonical :=
  writeMem_canonical a bs (useMem_canonical src a _ c)

theorem storeAs_canonical (src : ReqSource) (a : Nat) (bs : List Byte) {s : State} (c : s.Canonical) :
    (storeAs src a bs s).Canonical :=
  writeEnabled_canonical false a _ (useMem_canonical src a _ c)

end Sys2Proof.Machine
end

