-- ==== Sys2Proof/Tests/Slice0.lean ====
section
/-!
SUPPORT. The model's own tests: a witness for the hypotheses of every clause of every statement (`wit_<statement>`), an ill-formed
term for every check of well-formedness, and the worked cases of the spec's chapters.
-/
namespace Sys2Proof.Tests
set_option Elab.async false
set_option maxRecDepth 4000
set_option synthInstance.maxSize 4096
set_option synthInstance.maxHeartbeats 200000
open Sys2Proof Sys2Proof.Machine

/-- Registers set by hand: page, offset, value. -/
def setRegs (l : List (Nat × Nat × Nat)) (s : State) : State := l.foldl (fun t e => wrN e.1 e.2.1 e.2.2 t) s
/-- A part whose domains are all on, its memory trained and ready, both links up, at TB 1,000,000,000 ns. -/
def live : State :=
  { State.reset with
    regs := [(0x008080, 0x1FE), (0x010008, 1), (0x010080, 2), (0x011008, 1), (0x011080, 2), (0x012008, 1), (0x012080, 2),
        (0x013008, 1), (0x013080, 2), (0x014008, 1), (0x014080, 2), (0x015008, 1), (0x015080, 2), (0x016008, 1), (0x016080, 2),
        (0x017008, 1), (0x017080, 2), (0x018008, 1), (0x018080, 2), (0x019008, 1), (0x019080, 2), (0x01A008, 1), (0x01A080, 2),
        (0x01B008, 1), (0x01B080, 2), (0x01D008, 1), (0x01E008, 1)]
    pd0 := true
    mem := ⟨[], [⟨0, 2 ^ 36, .zero⟩]⟩
    tb := { State.reset.tb with count := 1000000000 * 2 ^ 32 }
    portA := { PortState.reset with up := true }
    portB := { PortState.reset with up := true }
    sup := { State.reset.sup with modEn := true, modPg := true }
    power := { State.reset.power with trimTried := true, trimValid := true, vcoreOn := true } }
/-- A record of `n` bytes with fields set: offset, width, value. -/
def bytesOf (n : Nat) (l : List (Nat × Nat × Nat)) : List Byte := l.foldl (fun b e => patch b e.1 (leBytes e.2.1 e.2.2)) (zeros n)
/-- Memory set by hand. -/
def withMem (a : Nat) (b : List Byte) (s : State) : State := setBytes a b s
/-- A job of port A over a descriptor, its header's operation and completion address set. -/
def mkJob (n op : Nat) (l : List (Nat × Nat × Nat)) : Job := ⟨bytesOf n ([(5, 2, op), (16, 8, 0x300000)] ++ l), .a, 0, false, 0⟩
/-- The job at the head of a page's empty queue. -/
def queued (p : Nat) (j : Job) (s : State) : State := setJobs p ⟨[j], [], [], 0, 0⟩ (setRegs [(p, 0x008, 1), (p, 0x00C, 1)] s)
/-- The job a page runs. -/
def runs (p : Nat) (j : Job) (s : State) : State := setJobs p ⟨[], [j], [], 0, 0⟩ s
/-- A SEND of 100 bytes on channel 0. -/
def sendJob : Job := mkJob 64 1 [(32, 8, 0x100000), (40, 4, 100)]
/-- A command ring of port A at 0x200000, for the link page, its TAIL at 1. -/
def ringOf (entry : List Byte) : State :=
  withMem 0x200000 entry (withMem 0x201000 sendJob.desc (setCmdRing .a 0 ⟨0x200000, 16, 0xF8, 1, false, false, 0⟩
    (setRegs [(4, 0x108, 0x80000000)] live)))
/-- An event ring of port A at 0x400000. -/
def evtOf : State := setEvtRing .a 0 ⟨0x400000, 64, 0, 0, 0⟩ (setRegs [(4, 0x308, 0x80000006)] live)
/-- A record for port A. -/
def recA : Posting := ⟨⟨5, 0x80, 1, 1, false, false, 7⟩, true, false⟩
/-- Port B has cast a ballot in an open window, and port A's vote registers agree with it. -/
def agreed (order arg : Nat) (s : State) : State :=
  setRegs [(6, 0x080, order), (6, 0x084, arg), (6, 0x088, arg / 2 ^ 32), (6, 0x0A0, 3), (6, 0x0F0, order + 2 ^ 8), (6, 0x0F4, arg),
    (6, 0x0F8, arg / 2 ^ 32)] { s with joint := ⟨2000000000⟩ }
/-- A transform proposal: the identity. -/
def xform : List Byte :=
  let b := bytesOf 92 [(0, 4, 0x3F800000), (20, 4, 0x3F800000), (40, 4, 0x3F800000), (60, 4, 0x3F800000), (88, 4, 0x58460001)]
  b ++ leBytes 4 (Crypto.crc32 b)
/-- The part with only PD1 and PD2 on. -/
def quietPart : State := setRegs [(8, 0x080, 0x6)] live
/-- A domain switch is next. -/
def switchNext (d : Nat) (on : Bool) (s : State) : State := { s with power := { s.power with switching := [(d, on)] } }
/-- Pool 0 of the Mews on, with four buffers. -/
def mewsOn : State :=
  setRegs [(0x20, 0x00C, 1)] { live with mews := { live.mews with pools := [(0, ⟨true, 0x800000, 64, 0⟩)] } }
/-- The host's operands: ARG0, owner. -/
def mewsArgs (arg owner : Nat) (s : State) : State := setRegs [(0x20, 0x080, arg), (0x20, 0x084, owner)] s
/-- Owner 5 holds buffer 2. -/
def holds : State := { mewsOn with mews := { mewsOn.mews with bufs := [(2, ⟨3, true, false, 5⟩)] } }
/-- A stream unit that runs a RUN job and stands at an instruction. -/
def stands (u n : Nat) (v : StreamUnit) (s : State) : State :=
  runs (pgSTRM u) (mkJob 160 1 []) { s with strm := [(u, { v with prog := [(0, n)], progLen := 1 })] }
/-- A MATMUL layer over FP16: 2 by 32 by 16, its semaphores 10 to 13. -/
def matmul : List Byte :=
  bytesOf 128 [(0, 1, 1), (1, 1, 3), (2, 1, 107), (4, 4, 0x0D0C0B0A), (8, 1, 7), (16, 4, 0x3F800000), (20, 4, 0x3F800000),
    (32, 4, 2), (36, 4, 32), (40, 4, 16), (44, 4, 32), (48, 4, 32)]
/-- A LAYERS job of two layers. -/
def layersJob : Job := mkJob 64 1 [(32, 8, 0x100000), (40, 2, 2)]
/-- Core `c` runs the job, with the layer descriptor in memory and the core as given. -/
def layered (c : Nat) (v : TcCore) : State :=
  withMem 0x100000 matmul (withMem 0x100080 matmul (runs (pgTC c) layersJob { live with tc := [(c, v)] }))
/-- A core in a layer. -/
def inLayer : TcCore := { TcCore.idle with active := true, desc := matmul, w := [(0, ⟨true, false, false⟩)], st := 4 }
/-- An intake page that accepts, its ring enabled with TAIL at 63 of 64. -/
def ringed (p : Nat) (s : State) : State :=
  setInRing p false ⟨0x100000, 64, 5, 0⟩ (setRegs [(p, 0x00C, 1), (p, 0x088, 2 ^ 31 + 6), (p, 0x090, 63), (p, 0x08C, 5)] s)
/-- The receive ring's registers. -/
def rxSpec : RingSpec := ⟨0x080, 0x088, 0x08C, 0x090, 0x094, 0x098, 128, 6, 16⟩
/-- Camera 15, 4 by 2 in RAW8, bound to receiver 7 and channel 3. -/
def camera (v : FstCam) : State :=
  setCam 15 { v with rx := 7, vc := 3, dt := 0x2A, width := 4, height := 2, base := 0x100000, slotBytes := 4096 }
    (setRegs [(pgFST, 0x00C, 1), (pgCSI 7, 0x00C, 1), (pgFST, camReg 15 0, 2 ^ 31), (pgFST, camReg 15 0x1C, 65535)] live)
/-- An index of dimension 8, 8 subquantisers and one empty list, bound at epoch 1 with its side area at 0x10000000. -/
def indexHeader : List Byte :=
  bytesOf 128 [(0, 4, 0x10000), (4, 2, 8), (6, 1, 8), (8, 4, 1), (24, 8, 0x110000), (32, 8, 0x120000), (40, 8, 0x130000),
    (48, 4, 0x3F800000)]
def boundIndex : FshBound := ⟨8, 8, 1, 0x110000, 0x120000, 0x3F800000, indexHeader, ⟨1, 0, 0x130000, 0⟩, none, 0x10000000⟩
/-- Fishhawk enabled, the index bound, a job waiting. -/
def fishhawk (j : Job) (side : FshSide) : State :=
  setBound boundIndex (setSide 0x10000000 { side with dims := [8, 8, 1] } (queued pgFSH j live))
/-- The compartment with MET_VIN present. -/
def metOn (f : Met → Met) : State := { live with met := f { live.met with vin := true } }
/-- An open journey, number 5. -/
def anyJourney : Journey := ⟨5, 1, 0, 77, 3, ⟨zeros 8, 0⟩, 0, 1000, 0, 0xFFFFFFFF, []⟩
/-- One request of the cycle waits, and another behind it. -/
def asks (code p : Nat) (m : Met) : Met := { m with mailbox := [⟨mkFrame code 9 p, 7⟩, ⟨mkFrame 5 10 0, 7⟩], toServe := 2 }
/-- The Dexvor link UP, with 64 credits. -/
def linkUp (f : Link → Link) : State := setRegs [(pgPLK, 0x008, 1), (pgPLK, 0x00C, 1), (pgPLK, 0x080, 1), (pgPLK, 0x084, 7), (pgPLK, 0x088, 64)]
  { live with plk := f live.plk }
/-- The Dexvor link training. -/
def training (own : Nat) (f : Link → Link) : State := setRegs [(pgPLK, 0x080, 32), (pgPLK, 0x084, own)] (linkUp f)
/-- A message of two frames that channel 3 sends. -/
def sending : TxMsg := ⟨9, 0x100000, 5000, 77, 1, 0⟩
/-- A message frame for channel 3. -/
def dataFrame (seq len : Nat) : List Byte := frameBytes 3 seq ⟨9, 0, len, 77, 0, 0⟩ (zeros (min len 4096))
/-- Channel 3 has one posted buffer at entry 15 of 16. -/
def posted : State :=
  withMem 0x200000 (zeros 480 ++ bytesOf 32 [(0, 8, 0x300000), (8, 4, 4096), (16, 8, 0x310000), (24, 4, 99)])
    (setRegs [(pgPLK, postReg 3 0x08, 2 ^ 31), (pgPLK, postReg 3 0x0C, 15)]
      (linkUp (fun l => { l with post := [(3, ⟨0x200000, 16, 0⟩)], rxSeq := 5 })))

def w1 : State := { live with tb := { live.tb with slewReq := -5 } }
def w2 := (setRegs [(1,0x088,2)] live)
def w3 := (setRegs [(1,0x088,2),(1,0x08C,1)] live)
def w4 := (setRegs [(1,0x088,1),(1,0x08C,1),(1,0x0A4,0)] live)
def w5 : State := { setRegs [(1,0x088,1),(1,0x08C,1)] live with tb := { live.tb with count := 2000000000 * 2^32, edgeSeen := true } }
def w6 := (setRegs [(1,0x08C,2),(1,0x0C4,0)] live)
def w7 := (setRegs [(0x80,0x03C,1)] live)
def w8 := (setRegs [(0x80,0x020,0x35001)] live)
def w9 := (setRegs [(0x80,0x020,0x15001)] live)
def fencedTc : State := setFence 0x80 ⟨true, 0, false, false, 0⟩ (setRegs [(0x80,0x00C,3)] live)
def w10 := (setRegs [(0x80,0x008,4)] fencedTc)
def w11 := (modJobs 0x80 (fun j => { j with running := [⟨zeros 64, .a, 0, false, 0⟩], progress := 0 }) live)
def w12 := (setRegs [(4,0x140,0x200000),(4,0x148,0x80000)] live)
def w13 := (ringOf [])
def w14 := (setRegs [(4,0x340,0x200000)] live)
def w15 := (ringOf (zeros 64))
def w16 := (ringOf (bytesOf 64 [(0,2,1),(2,2,64),(8,8,0x201000)]))
def heldLate : State := queued 0xF8 {sendJob with desc := patch sendJob.desc 8 (leBytes 8 5)} live
def dj : DoneJob := ⟨sendJob, 0, 0, 5, false, false, false, 0⟩
def w17 := (setJobs 0xF8 ⟨[],[],[dj],0,0⟩ live)
def w18 : State := {evtOf with outbox := [recA]}
def w19 : State := {live with outbox := [recA]}
def msixOn (s : State) : State := s.modPort .a (fun p => { p with config := { p.config with msixEnable := true, busMaster := true } })
def w20 := (msixOn (setEvtRing .a 0 ⟨0x400000, 64, 0, 1, 0⟩ (setRegs [(4,0x318,1)] evtOf)))
def w21 := (msixOn {live with portA := {live.portA with pending := [(63,true)]}})
def w22 : State := {evtOf with lre := ⟨[recA],0,0,0,0⟩}
def w23 : State := {live with lre := ⟨[recA],0,0,0,0⟩}
def w24 : State := {live with portA := {live.portA with up := false, down := true}}
def w25 := (setRegs [(4,0x088,0),(4,0x08C,0x30)] live)
def cold : State := {State.reset with sup := {State.reset.sup with modEn := true, modPg := true}}
def w26 : State := {live with power := State.reset.power}
def w27 := (switchNext 8 true quietPart)
def w28 := (switchNext 1 true (setRegs [(8,0x80,0)] live))
def w29 := (switchNext 2 true (setRegs [(8,0x80,2)] live))
def w30 := (switchNext 3 false (runs 0x90 sendJob live))
def w31 := (setRegs [(8,0x088,0x10000+810),(8,0x84,800),(8,0x08C,4)] live)
def w32 := (setRegs [(8,0x80,0)] live)
def w33 := (setRegs [(6,0x080,1)] live)
def w34 := (setRegs [(6,0x080,0)] live)
def w35 := (setRegs [(6,0x080,1),(6,0x0A0,1),(6,0x0E0,0x101)] {live with joint := ⟨1⟩})
def w36 := (agreed 1 (0x080 + 0x083*2^12+2^24) live)
def w37 := (agreed 4 0x080 (setRegs [(0x80,0x03C,1)] live))
def w38 := (agreed 9 (2^17+2^16+60000) live)
def w39 := (agreed 10 1000 live)
def w40 := (agreed 2 (2^8+0x84) quietPart)
def w41 := (agreed 3 900 live)
def w42 := (agreed 5 11 quietPart)
def w43 := (agreed 6 (0x100000+ 63*2^40) (withMem 0x100000 xform live))
def w44 := (agreed 7 0x010100 live)
def w45 := (agreed 8 1 (setRegs [(0xF0,0x080,1)] {live with met := {live.met with vin := true}}))
def w46 := (setRegs [(9,0x0A8,2)] {live with sup := {live.sup with critAction := true, critMs := 10}})
def w47 : State := {live with power := {live.power with vcoreOn := false}, sup := {live.sup with vinMv := 9000}}
def w48 : State := {live with jtag := {live.jtag with tap := .shiftIr}}
def eccLive : State := setRegs [(0x10,0x108,1),(0x10,0x104,1)] live
def badWord (m : Mark) : State := setMark 0x100000 m eccLive
def w49 := (badWord .poison)
def scrubs (m : Mark) : State := setMark residentBase m (setRegs [(0x1D,0x09C,1)] live)
def w50 := (scrubs .correctable)
def dmcTrains : State := setRegs [(0x1B,0x008,0),(0x1B,0x080,1)] live
def dmcFresh : State := modDram (fun d => {d with trainAt := [(11, 990000000)]}) dmcTrains
def w53 := (setRegs [(0x1B,0x080,3)] dmcTrains)
def w54 := (setRegs [(0x1B,0x080,0x12)] live)
def w55 := (setRegs [(0x1B,0x084,0x10000)] live)
def initing : State := withMem 0x0FFFFFFF0 (leBytes 16 (2^120)) (setMark 0x80000020 .poison
  {eccLive with dram := {eccLive.dram with initRegion := some 1}})
def w56 := (withMem residentBase [1,2,3] (setRegs [(0x1D,0x008,0),(0x1E,0x008,0),(0,0x08C,1)] live))
def waits (c : Nat) : State := {live with regul := {live.regul with waiting := [⟨c, 5, 64⟩]}}
def w57 := (waits 8)
def w58 := (waits 0)
def w59 := (setRegs [(0x1C,0x3C,1)] live)
def w61 := (withMem (groupAddr 8191) [255] {live with flg := ⟨some (8191,1), 0⟩})
def w62 := (mewsArgs 256 5 mewsOn)
def w63 := (mewsArgs (2*2^13+3) 5 holds)
def w64 := (mewsArgs (2*2^13+3) 9 holds)
def fenced5 : State := setRegs [(0x20,0x0A0,32)] (mewsArgs 5 0 holds)
def w65 := (setRegs [(0x20,0x0A8,0x501)] fenced5)
def pend : State := setRegs [(0x20,0x08C,2)] {mewsOn with mews := {mewsOn.mews with queues := [(1,[⟨.host .a, 5, 256, false⟩])]}}
def w66 := (setRegs [(0x20,0x120,0x900000),(0x20,0x128,2)] live)
def wait3 : State := {mewsOn with mews := {mewsOn.mews with queues := [(0,[⟨.stream 3, 5, 256, true⟩])]}}
def runJ : Job := mkJob 160 (1+2^15) [(40,1,1),(64,5,77),(128,3,9)]
def ends : StreamUnit := {StreamUnit.fresh with prog := [(0, opEND*2^58)]}
def w67 := (queued 0x43 runJ {live with strm := [(3, ends)]})
def runD : List Byte := (mkJob 160 1 [(40,1,1)]).desc
def launchJ : Job := mkJob 48 2 [(32,1,0x85),(40,8,0x201000)]
def w68 := (queued 0x43 launchJ (withMem 0x201000 runD live))
def v0 : StreamUnit := {StreamUnit.fresh with a := [(0,0x100000),(1,0x101000)], c := [(2,1),(3,5)], shapes := [(0,64),(1,0x10001),(6,16)]}
def w69 := (stands 3 (opSETA*2^58+7*2^55+2^40-1) v0 live)
def w70 := (stands 3 (opADDA*2^58+1*2^55+2^32-1) v0 live)
def w71 := (stands 3 (opSETC*2^58+1*2^55+2^24-1) v0 live)
def w72 := (stands 3 (opLOOP*2^58+2*2^55) v0 live)
def w74 := (stands 3 (opSWAP*2^58) v0 live)
def waiting5 (f : Nat) (b : Bool) (s : State) : State := {s with strm := s.strm ++ [(9, {StreamUnit.fresh with waitFlag := some (f, b)})]}
def w75 := (waiting5 5 true (stands 3 (opSETF*2^58+5) v0 live))
def w76 := (waiting5 5 true (stands 3 (opCLRF*2^58+5) v0 live))
def w77 := (stands 3 (opWAITF*2^58+5) v0 live)
def w79 := (withMem 0x100000 [1,2,3] (stands 3 (opXFER*2^58+2^52+2^43) v0 live))
def w80 := (stands 3 (opPREF*2^58) v0 live)
def w81 := (stands 3 (opWAITS*2^58+255*2^48+2^40) v0 live)
def w83 := (stands 3 (opSIGS*2^58+255*2^48+15*2^40) v0 live)
def w84 := (setRegs [] live)
def w85 := (stands 3 (opDRAIN*2^58) v0 live)
def w86 := (stands 3 (opMARK*2^58) v0 live)
def w87 := (setRegs [(0x43,0x090,1)] (stands 3 (opMARK*2^58) v0 live))
def w88 := (stands 3 (opEND*2^58) v0 live)
def w89 : State := {stands 3 0 v0 live with strm := [(3, {v0 with pc := 5, progLen := 1})]}
def lateRun : Job := mkJob 160 1 [(8,8,5)]
def w90 := (runs 0x43 lateRun {live with strm := [(3, {v0 with progLen := 1})]})
def w91 := (stands 3 (opSETA*2^58+7*2^55+5) v0 live)
def bufV : StreamUnit := {v0 with shapes := [(0,64),(1,0x10001)]}
def w92 := (stands 3 (opXFER*2^58+2*2^46) bufV mewsOn)
def w93 : State := {live with strm := [(3,{v0 with fencing := true})]}
def w94 := (setJobs 0x82 ⟨[layersJob],[],[],0,0⟩ (setRegs [(0x82,8,1),(0x82,0xC,1)] (withMem 0x100000 matmul live)))
def w95 := (layered 2 TcCore.idle)
def w96 := (withMem 0x100020 [0,0,0] (layered 2 TcCore.idle))
def w97 := (layered 2 {inLayer with blk := 1, w := []})
def w99 := (layered 2 {inLayer with wHeld := true, aHeld := true, oHeld := true})
def w101 := (layered 2 {inLayer with wHeld := true})
def mm (p l : Nat) : List Byte := patch matmul 3 [BitVec.ofNat 8 (p + 4*l)]
def chain2 (d : List Byte) : State :=
  { layered 2 {inLayer with desc := d, w := []} with tc := [(1, {inLayer with desc := mm 0 1}), (2, {inLayer with desc := d, w := []})] }
def w102 := (chain2 (mm 1 1))
def w103 := (chain2 (mm 1 2))
def img (n : Nat) : List Byte := bytesOf 64 [(0,4,0x10000),(4,4,n),(8,8,0x20000),(16,2,1),(18,2,2),(20,2,64),(24,4,1000)]
def kvl : List Byte := bytesOf 32 [(0,1,3),(1,1,2),(2,1,1),(6,1,9),(24,2,32)]
def kvn (k : Nat) : List Byte := bytesOf 32 [(0,1,k),(1,1,2),(6,1,9),(24,2,32)]
def run0 : List Byte := bytesOf 32 [(0,1,1),(1,1,2),(8,8,0x30000)]
def bindJ : Job := mkJob 64 1 [(32,8,0x10000),(40,8,0x400000),(48,4,68),(52,1,200)]
def qg (j : Job) (g : GenState → GenState) (s : State) : State := queued pgGEN j (modGen (fun x => g
  {x with bound := true, ws := 0x400000, kvLayers := 1, kvHeads := 2, headDim := 64, vocab := 1000, actionCount := 2, actions := 0x20000})
  s)
def w104 := (queued pgGEN bindJ live)
def bindMem (s : State) : State := withMem 0x10000 (img 2) (withMem 0x20000 (kvl ++ run0) s)
def w105 := (runs pgGEN bindJ (setRegs [(pgGEN,8,1),(pgGEN,0xC,1)] (bindMem live)))
def seqJ : Job := mkJob 128 2 [(32,1,15),(36,4,0x3F800000),(40,4,0x3F800000),(44,4,20),(48,8,0x40000),(56,8,0x50000),(64,4,50)]
def w106 := (qg seqJ id live)
def draftJ : Job := mkJob 96 3 [(32,1,15),(33,1,8),(36,4,77),(40,4,5),(68,4,9)]
def w107 := (qg draftJ id live)
def stopJ : Job := mkJob 64 4 [(32,1,3)]
def slotR : GenSlot := {GenSlot.free with st := 1, job := some seqJ, next := 5, fed := 2, emitted := 1, pend := 9}
def w108 := (qg bindJ (fun g => {g with slots := [(3,slotR)]}) live)
def contJ : Job := {seqJ with desc := patch seqJ.desc 32 [0x2F]}
def w109 := (qg contJ (fun g => {g with slots := [(15,{slotR with st := 2})]}) live)
def w110 := (qg stopJ (fun g => {g with slots := [(3,slotR)]}) live)
def genOn (g : GenState → GenState) (s : State) : State := setRegs [(pgGEN,0xC,1)] (qg stopJ g s)
def w113 := (genOn (fun g => {g with slots := [(3,{slotR with pages := [(0,77),(1,78)]}), (5,{slotR with fed := 20, pages := [(0,79)]})]})
  live)
def plan1 : GenPlan := ⟨3,0,18,0,0,5,[]⟩
def w114 := (genOn (fun g => {g with slots := [(3,slotR)], step := true, nextAct := 2, plan := [plan1], sampled := true}) live)
def acting (a : List Byte) : State := withMem 0x20000 a (withMem 0x30000 (mkJob 160 1 [(40,1,1)]).desc (genOn (fun g =>
  {g with slots := [(3,slotR)], step := true, plan := [plan1]}) live))
def w116 := (acting (kvn 4))
def w118 := (acting run0)
def run1 : List Byte := patch (patch (patch run0 2 [1]) 3 [1]) 16 (leBytes 8 0x38000)
def actingSeq : State := modGen (fun g => {g with plan := [plan1, {plan1 with slot := 5}]}) (withMem 0x38000 [64, 0, 8, 1, 255, 255, 255,
  255] (acting run1))
def act1 (l : Bool) : KvAct :=
  {load := l, core := 2, values := false, layer := 0, sem := 255, nbTok := 32, slot := some 3, action := 0, head := 0, tok := 0, hs := false, rows := 0}
def kvAct2 : KvAct := {act1 true with head := 1}
def moving (a : KvAct) : State := setRegs [(0x63,0x2FC,0x0505)] (genOn (fun g =>
  {g with slots := [(3,{slotR with pages := [(0,3),(1,5)]})], step := true, plan := [plan1], mover := [a]}) mewsOn)
def w121 := (moving (act1 true))
def w122 := (moving kvAct2)
def w123 := (moving (act1 false))
def stores (a : KvAct) : State := setEndpoint (pgTC 2) 2 ⟨(List.range 512).map (fun i => (b2n a.hs * 2 ^ 20 + i, BitVec.ofNat 8 (7 * i +
  1))), [(0, 512), (1, 512)], []⟩ (moving a)
def store2 : KvAct := {act1 false with rows := 1, hs := true}
def w125 := (stores store2)
def plan2 : GenPlan := ⟨3,0,18,0,1,5,[]⟩
def samplg : State := setRegs [(0x63,0x2FC,0x0505)] (genOn (fun g =>
  {g with slots := [(3,slotR)], step := true, plan := [plan2], semCand := 255}) live)
def frm : CanFrame := ⟨2^29-1, true, true, true, false, true, 15, List.replicate 64 7, 12345, 9, 3⟩
def w126 := (setRegs [(0xDB,0x0A0,1)] (ringed 0xDB live))
def w127 := (setRegs [(0xDB,0x0A0,2),(0xDB,0x088,0)] (ringed 0xDB live))
def spiBusy : State := {ringed 0xDD live with spi := [(1, ⟨true, 77, 2, [], 0, false, 0⟩)]}
def ethF : List Byte := List.replicate 12 255 ++ [8,6] ++ List.replicate 50 3
def ethSpec : RingSpec := {rxSpec with entry := 2048}
def w128 := (setRegs [(0xD9,0x0A4,1)] (ringed 0xD9 live))
def urt (s : State) : State := {s with uart := [(1, ⟨[1,2], 99, true, true, 5, []⟩)]}
def w129 := (urt (ringed 0xDF live))
def w130 := (urt (setRegs [(0xDF,0x0A0,2^25)] (ringed 0xDF live)))
def cam0 : FstCam := FstCam.fresh
def camA : FstCam := {cam0 with active := true, id := 65535, tbFs := 5, lines := 1}
def w131 := (camera cam0)
def w132 := (camera camA)
def w133 := (camera {camA with lines := 2, slots := [(7, ⟨65535,false,false,false,0,[]⟩)]})
def w134 := (camera {camA with bad := 8})
def w135 := (camera {camA with bad := 7})
def w136 := (setRegs [(0xD7,0x084,256)] (camera {camA with bad := 7}))
def w137 := (camera {camA with slots := [(7, ⟨65535,true,false,false,0,[]⟩),(6, ⟨65534,true,false,false,0,[(5,5)]⟩)]})
def camCfg : State := setRegs [(pgFST, camReg 15 4, 2*65536+4),(pgFST, camReg 15 8, 0x100000),(pgFST, camReg 15 16, 1)] live
def w138 := (setRegs [(0xDA,0x84,255)] live)
def txOn (n : Nat) (s : State) : State := setInRing 0xD9 true ⟨0x200000, 16, 0, 0⟩ (setRegs
  [(0xD9,0x0C8,2^31+4),(0xD9,0x0C,1),(0xD9,0x0A4,1),(0xD9,0x0CC,n)] s)
def w139 := (txOn 3 live)
def w140 := (withMem (0x200000+15*2048) (leBytes 2 60) (txOn 15 live))
def lidar : State := setRegs [(0xD9,0xC,1)]
  {live with eth := [(1, ⟨0,[],[(1, ⟨true, 2*2^13+3, 4, 0, 5, 1, 1, 9, false, false⟩)]⟩)], mews := holds.mews}
def w141 := (txOn 0 live)
def w142 := (setRegs [(0xD9,0x0A0,2)] live)
def canOn (st : Nat) : State := setRegs [(0xDB,0x0A0,1),(0xDB,0x0C,1),(0xDB,0x0AC,st)] live
def w143 := (canOn 0)
def w145 := (canOn 2)
def w146 := (setRegs [(0xDD,0x0C,1),(0xDD,0x0A4,2+3*2^4)] live)
def w147 := (setRegs [(0xDD,0x0C,1),(0xDD,0x0A4,1)] live)
def w148 : State := {live with uart := [(1, ⟨[],0,false,false,0,zeros 64⟩)]}
def w149 : State := {live with uart := [(1, ⟨[],0,false,false,0,[7]⟩)]}
def w150 := (setRegs [(0xE0,0xC,1),(0xE0,0x8C,2^30)] live)
def w151 := (setRegs [(0xE0,0xC,1),(0xE0,0x8C,2)] live)
def warpJ : Job := mkJob 64 1 [(32,1,15),(34,2,65535),(36,2,65),(38,2,33),(40,8,0x200000),(48,8,0x210000)]
def hdF : List Byte := frameHeader 15 {FstCam.fresh with id := 65535, dt := 0x2A, width := 4, height := 2, tbFs := 99} 5
def warpS (v : Bool) : State := queued (pgVIS 0) warpJ (withMem 0x107000 hdF (camera
  {FstCam.fresh with slots := [(7, ⟨65535,v,false,false,0,[]⟩)]}))
def w152 := (warpS true)
def w153 := (warpS false)
def pyrJ : Job := mkJob 96 1 [(32,8,0x200000),(40,8,0x210000),(48,1,1),(52,4,2^31+524287)]
def pyrS (tile tiles : Nat) (j : Job) : State := setRegs [(pgVIS 1,0xC,1)] (runs (pgVIS 1) j (withMem 0x200040 [9,7,5,200,17]
  {live with vis := [(1, {VisEng.idle with tile := tile, tiles := tiles, imgs := [(0x200000, 160, 70), (0x210000, 80, 35)]})]}))
def w154 := (pyrS 3 4 {pyrJ with desc := patch pyrJ.desc 52 (leBytes 4 0)})
def w156 := (pyrS 0 4 pyrJ)
def setupJ (n : Nat) : Job := mkJob 64 1 [(32,8,0x200000),(40,4,16),(44,1,n)]
def w157 := (queued pgFUS (setupJ 1) live)
def ws3 : FusWs := {FusWs.fresh with units := 16, frameNo := 3}
def kept1 : State := withMem 0x200000 (wsHeader 0x200000 ws3) (setWs 0x200000 {ws3 with header := wsHeader 0x200000 ws3} live)
def w158 := (queued pgFUS (setupJ 0) kept1)
def w159 := (queued pgFUS (setupJ 0) (withMem 0x200000 [1] live))
def frameJ : Job := mkJob 192 2 [(32,8,10^9),(40,8,0x300000)]
def named1 : State := {kept1 with fus := {kept1.fus with named := some 0x200000}}
def w160 := (queued pgFUS frameJ named1)
def gridJ : Job := mkJob 96 3
  [(32,8,0x400000),(40,2,5),(42,2,3),(44,1,1),(45,1,1),(46,1,1),(47,1,255),(48,1,200),(49,1,100),(50,1,1),(51,1,255),(56,8,0x410000),(64,2,2)]
def gridS : State := withMem 0x400000 [1,2,3,4,5,6,7,8,9] (withMem 0x410000 (leBytes 8 0x420000 ++ leBytes 8 0x420000) named1)
def w161 := (queued pgFUS gridJ gridS)
def run5 : FusRun :=
  {FusRun.plain [(0x300000, [1,2,3])] (some 524287) (some (0x200000, {ws3 with frameNo := 4, header := zeros 63 ++ [7]})) with left := 5}
def fusOn (j : Job) (r : FusRun) (s : State) : State := setFusRun (some r) (setRegs [(pgFUS,8,1),(pgFUS,0xC,1)] (runs pgFUS j s))
def w162 := (fusOn frameJ run5 named1)
def frameL : Job := {frameJ with desc := patch frameJ.desc 8 (leBytes 8 5)}
def w163 := (fusOn frameL run5 named1)
def w164 := (fusOn frameJ {run5 with left := 0} named1)
def run3 : FusRun := FusRun.plain [(0x400000, [1,2,3])] none none
def w165 := (fusOn gridJ run3 named1)
def runBare : FusRun := FusRun.plain [] none (some (0x200000, ws3))
def w166 := (fusOn (setupJ 1) runBare live)
def one := 0x3F800000
def gimg : List Byte := bytesOf 64 [(0,1,3),(4,4,2),(8,4,1),(16,4,64),(20,4,128)] ++ bytesOf 64 [(0,4,one),(28,4,1),(32,4,one)] ++ bytesOf
  64 [(0,4,0x10000),(4,4,1),(8,4,one),(36,4,one),(40,4,one),(44,4,one)]
def loadJ : Job := mkJob 64 2 [(32,8,0x200000),(40,1,3),(42,2,5),(44,2,120)]
def gS (j : Job) : State := queued pgGSH j (withMem 0x200000 gimg live)
def rdL0 := ((readImage (leAt loadJ.desc 32 8)).run .goshawk).run (readAs .goshawk (leAt loadJ.desc 32 8) 64 (startHead pgGSH (gS
  loadJ))).2.2
def okOf {α : Type} (d : α) (x : Except Halt α × State) : α × State := match x with | (.ok p, u) => (p, u) | (_, u) => (d, u)
def rdL : (GshProb × Nat) × State := okOf (GshProb.none, 0) rdL0
def w167 := (gS loadJ)
def gfreeJ : Job := mkJob 64 3 [(40,1,3)]
def w168 := (setRes 3 ⟨true,5,1,9,rdL.1.1⟩ (gS gfreeJ))
def gexpJ : Job := mkJob 64 4 [(40,1,3),(48,8,0x300040)]
def w169 := (setRes 3 ⟨true,5,1,9,rdL.1.1⟩ (gS gexpJ))
def solJ : Job := mkJob 128 1 [(32,8,0x200000),(72,8,0x300000),(80,8,0x1000000),(88,4,128),(46,1,2)]
def rdS0 (j : Job) (s : State) := ((solveProblem j.desc).run .goshawk).run (startHead pgGSH s)
def rdS : (GshProb × Nat × Bool) × State := okOf (GshProb.none, 0, false) (rdS0 solJ (gS solJ))
def w170 := (gS solJ)
def delJ2 : Job := mkJob 128 1 [(72,8,0x300000),(44,1,1),(45,1,3),(46,1,2),(32,8,0x210000),(40,4,1)]
def gD : State := setRes 3 ⟨true,5,120,9,rdL.1.1⟩ (queued pgGSH delJ2 (withMem 0x210000 (bytesOf 32 [(0,1,1),(4,4,one),(1,1,1)]) live))
def rdD : (GshProb × Nat × Bool) × State := okOf (GshProb.none, 0, false) (rdS0 delJ2 gD)
def gshR (n : Nat) : GshRun := {GshRun.start rdL.1.1 0 with iters := n}
def act0 : GshActive := ⟨[⟨1,false,gshR 0⟩,⟨2,false,gshR 0⟩,⟨5,true,gshR 1⟩], some rdL.1.1, gshR 2, none, false⟩
def gRun (j : Job) (v : GshActive) : State := setGshRun (some v) (setRes 3 ⟨true,5,120,9,rdL.1.1⟩ (setRegs [(pgGSH,8,1),(pgGSH,0xC,1)]
  (runs pgGSH j live)))
def w171 := (gRun solJ act0)
def acted1 : GshActive := {act0 with marks := act0.marks.drop 1}
def w172 := (gRun delJ2 acted1)
def acted2 : GshActive := {act0 with marks := act0.marks.drop 2, fin := none}
def w173 := (gRun delJ2 acted2)
def late (j : Job) : Job := {j with desc := patch j.desc 8 (leBytes 8 5)}
def w174 := (gRun (late delJ2) acted2)
def acted3 : GshActive := {acted2 with stop := some (0x0500, 2)}
def w175 := (gRun delJ2 acted3)
def acted4 : GshActive := {acted2 with marks := []}
def w176 := (gRun delJ2 acted4)
def propJ : Job := {solJ with desc := patch (patch (patch solJ.desc 58 [2]) 96 (leBytes 8 0x310000)) 68 (leBytes 4 (2^31+524287))}
def w177 := (gRun propJ acted4)
def bindF : Job := mkJob 64 1 [(32,8,0x100000),(40,8,0x10000000),(48,1,1)]
def w178 := (queued pgFSH bindF (withMem 0x100000 indexHeader live))
def appJ : Job := mkJob 64 3 [(32,8,0x200000),(40,8,0x210000),(48,8,0x220000),(60,2,2)]
def sd : FshSide := {FshSide.none with entries := [⟨7,0,zeros 8 |>.map (·.toNat),1⟩], tombs := [(3,1)], seq := 1}
def w179 := (withMem 0x210000 [5,0,0,0,6] (fishhawk appJ sd))
def delJ : Job := mkJob 64 4 [(32,8,0x210000),(60,2,2)]
def w180 := (withMem 0x210000 [5,0,0,0,6] (fishhawk delJ sd))
def fshRun (j : Job) (m : FshMaint) (s : State) : State := setMaint (some m) (runs pgFSH j s)
def w181 := (fshRun bindF (.bind boundIndex {FshSide.none with dims := [8,8,1], epoch := 1}) (fishhawk bindF sd))
def w182 := (fshRun appJ (.append [(5,0,[1,2])]) (fishhawk appJ sd))
def w183 := (fshRun delJ (.delete [5,6]) (fishhawk delJ sd))
def w184 := (fshRun (late appJ) (.append [(5,0,[1,2])]) (fishhawk appJ sd))
def w185 := (fshRun (late delJ) (.delete [5,6]) (fishhawk delJ sd))
def seaJ : Job := mkJob 96 2 [(32,8,0x200000),(40,8,0x210000),(48,8,0x220000),(60,2,1),(64,2,1),(66,2,2)]
def sea0 : FshSearch × State := okOf ⟨[],[],0,0⟩ (((searchWork seaJ boundIndex boundIndex.cur 1).run .fishhawk).run (startIf pgFSH isSearch
  (fishhawk seaJ sd)))
def w186 := (fishhawk seaJ sd)
def w187 := (withMem 0x200000 [0,0x7C] (fishhawk seaJ sd))
def srch : FshSearch := ⟨[(1,true),(3,false)], [(0x220000, [1,2]), (0x220040, [3])], 5, 3⟩
def searching (j : Job) (b : FshBound) (r : FshSearch) : State := let s := runs pgFSH j (fishhawk j sd);
  {s with fsh := {s.fsh with snap := some (⟨1,0,0x130000,0⟩, 1), bound := some b, search := some r}}
def w188 := (searching seaJ boundIndex srch)
def bi2 : FshBound := {boundIndex with cur := ⟨2,1,0x140000,0⟩, prev := some ⟨1,0,0x130000,0⟩}
def w189 := (searching (late seaJ) bi2 srch)
def w190 := (searching seaJ bi2 {srch with left := []})
def w191 := (searching seaJ boundIndex {srch with left := []})
def merJ : Job := mkJob 64 5 [(32,8,0x20000000),(40,8,260)]
def mer0 := okOf [] ((((List.range boundIndex.nlist).mapM (mergedList boundIndex (sideOf (fishhawk merJ sd) 0x10000000) 1)).run
  .fishhawk).run (setMaint (some (.merge ⟨0x20000000,260,1,0,0,[]⟩)) (startIf pgFSH isMaint (fishhawk merJ sd))))
def w192 := (fishhawk merJ sd)
def merging (j : Job) (m : FshMerge) (sn : Option (FshEpoch × Nat)) : State := let s := fshRun j (.merge m) (fishhawk j sd);
  {s with fsh := {s.fsh with snap := sn}}
def mrg (l : List (Nat × List Byte)) : FshMerge := ⟨0x20000000, 260, 1, 0x20000080, 1, l⟩
def w193 := (merging merJ (mrg [(0x200000C0,[5,6]),(0,[])]) none)
def w194 := (merging merJ (mrg [(0,[])]) none)
def w195 := (merging (late merJ) (mrg [(0,[])]) none)
def w196 := (merging merJ (mrg []) none)
def w198 := (merging (late merJ) (mrg []) none)
def jm (m : Met) : Met := {m with journey := some anyJourney}
def offM (f : Met → Met) : State := {live with met := f {live.met with vin := false}}
def open1 (m : Met) : Met := {m with sealOpen := true, sealLog := [(true, zeros 8)]}
def w199 := (offM (jm))
def w201 := (metOn jm)
def w202 := (offM jm)
def w203 := (metOn open1)
def w204 := (metOn (fun m => {open1 m with audit := List.replicate 1024 []}))
def cyc (m : Met) : Met :=
  {m with fastN := 256*40+16, fineN := 641, cycles := 40, ms := 40, params := [(0x54, Param.of 1),(0x58, Param.of 2)], chans := [(0, {WheelCh.fresh with hits := [39,39], remainder := 777}), (1, {WheelCh.fresh with badMs := []})]}
def w205 := (metOn cyc)
def w209 := (metOn (fun m => {cyc m with cycles := 100}))
def w210 := (metOn (fun m => asks 1 (77*256) {m with cal := {m.cal with unset := false}}))
def w211 := (metOn (fun m => asks 1 (77*256) m))
def w212 := (metOn (fun m => asks 2 (5*256) (jm m)))
def w214 := (metOn (fun m => asks 2 (6*256) (jm m)))
def w215 := (metOn (fun m => asks 3 (5*256+1) (jm m)))
def w217 := (metOn (fun m => asks 3 (5*256) {m with journeys := [(5, leBytes 96 5)]}))
def w218 := (metOn (fun m => asks 4 0 {m with audit := [zeros 64]}))
def w219 := (metOn (fun m => asks 4 1 {m with audit := [zeros 64]}))
def w220 := (metOn (fun m => asks 5 0 m))
def w221 := (metOn (fun m => asks 6 (2^64-1) m))
def w222 := (metOn (fun m => asks 7 0 m))
def calM (t : CalTime) (m : Met) : Met := {open1 m with cal := {m.cal with staged := t}}
def w224 := (metOn id)
def w225 := (metOn (calM ⟨2023,2,29,23,59,59⟩))
def w226 := (metOn (calM ⟨2024,2,29,23,59,59⟩))
def w227 := (offM id)
def w229 := (metOn (fun m => {m with ms := 1000, cal := {m.cal with pending := some ⟨2024,2,29,23,59,59⟩}}))
def wh (m : Met) : Met := {m with cycles := 1, params := [(0x54, Param.of 1),(0x58, Param.of 2)]}
def w230 := (metOn wh)
def w232 := (metOn (fun m => {wh m with fastN := 16, chans := [(0, {WheelCh.fresh with bits := List.replicate 508 1, beyond := 1})]}))
def rel : WheelCh :=
  {WheelCh.fresh with fast := [⟨1, 4000, false, false⟩, ⟨2, 4000, false, false⟩], below := some true, fine := [⟨1, -5, false, false⟩]}
def w233 := (metOn (fun m => {wh m with fastN := 17, fineN := 1, chans := [(0, rel), (1, rel)]}))
def w234 := (metOn (fun m => {wh m with fastN := 48, fineN := 3, chans := [(0, rel), (1, rel)]}))
def w235 := (setRegs [(pgMBR,0x0A4,0x101),(pgMBR,0xC,1)] (metOn id))
def w236 := (setRegs [(pgMBR,0x084,1),(pgMBR,0xC,1)] (metOn id))
def blk (t : Nat) (p : List Byte) (s : State) : State :=
  {s with met := {s.met with dataPath := [mkBlock t 0 5 p, [1]]}, mbr := {s.mbr with lastSeq := some 255, run := 2, readSeq := some 9}}
def mOn (off : Bool) : State := setInRing pgMBR false ⟨0x100000, 64, 0, 0⟩ (setRegs
  [(pgMBR,0x090,2^31+6),(pgMBR,0xC,1),(pgMBR,0x98,63),(pgMBR,0xB4,1)] (if off then metOn id else setRegs [(8,0x080,6)] (metOn id)))
def w238 := (blk 1 [1,2,3] (mOn false))
def w239 := (blk 1 [1,2,3] (mOn true))
def w240 := (blk 1 (zeros 16 ++ [31]) (mOn true))
def w241 := (blk 2 (leBytes 4 1 ++ zeros 8 ++ [255]) (mOn true))
def w242 := (blk 3 [5,9,0,0,1] (mOn true))
def w243 := (blk 3 [255,9,4,0,1] (mOn true))
def w244 := (blk 9 [5,9,0,0,1] (mOn true))
def w245 := (setRegs [(pgMBR,0x080,1)] (metOn id))
def w246 := (setRegs [(pgMBR,0x080,2)] (mOn true))
def w247 := (linkUp id)
def w248 := (training 7 id)
def w249 := (training 7 (fun l => {l with clashTold := true}))
def w250 := (training 0 id)
def sendingFirst : TxMsg := {sending with next := 0}
def sj3 : Job := mkJob 64 1 [(32, 8, 0x100000), (40, 4, 5000), (44,1,3)]
def sends (f : Link → Link) : State := runs pgPLK sj3 (linkUp (fun l => f
  {l with tx := [(3, some sending)], nextSeq := 2^32-1, lastSlot := 5}))
def w251 := (sends id)
def w252 := (setJobs pgPLK ⟨[sj3],[],[],0,0⟩ (linkUp id))
def w253 := (sends (fun l => {l with unacked := [⟨5,0,[1]⟩,⟨6,0,[2]⟩], resend := 1}))
def w254 := (sends (fun l => {l with unacked := [⟨5,0,[1]⟩,⟨6,0,[2]⟩], resend := 2}))
def w255 := (sends (fun l => {l with tx := [(3, some sendingFirst)]}))
def un (l : Link) : Link := {l with unacked := [⟨5,0,[1]⟩,⟨6,0,[2]⟩]}
def w256 := (sends un)
def w257 := (sends (fun l => {un l with sends := 4}))
def rxM : RxMsg := ⟨9, 5000, 1, some (0x300000, 0x310000, 99), 4, 4096⟩
def w258 := (linkUp (fun l => {l with rx := [(3, some rxM)]}))
def w259 := (setRegs [(pgPLK, postReg 3 0x0C, 0)] posted)
def x1 := (cmdRing w15 Port.a 0).base + 64 * crHead w15 Port.a 0
def x2 :=
  { desc := (readAs (srcPort Port.a) (leAt (readAs (srcPort Port.a) ((cmdRing w16 Port.a 0).base + 64 * crHead w16 Port.a 0) 64 w16).fst 8 8) (leAt (readAs (srcPort Port.a) ((cmdRing w16 Port.a 0).base + 64 * crHead w16 Port.a 0) 64 w16).fst 2 2) (readAs (srcPort Port.a) ((cmdRing w16 Port.a 0).base + 64 * crHead w16 Port.a 0) 64 w16).snd.snd).fst, port := Port.a, ring := 0, told := false, accepted := now w16 : Job }
def x3 := readAs (srcPort Port.a) ((cmdRing w16 Port.a 0).base + 64 * crHead w16 Port.a 0) 64 w16
def x4 := targetOf (cmdRing w16 Port.a 0).target x2.engine
def x5 := readAs (srcPort Port.a) (leAt x3.fst 8 8) (leAt x3.fst 2 2) x3.snd.snd
def x6 := (evtRing w18 Port.a (selectRing w18 Port.a recA.record)).base + 16 * erTail w18 Port.a (selectRing w18 Port.a recA.record)
def x7 := (evtRing w22 Port.a (selectRing w22 Port.a recA.record)).base + 16 * erTail w22 Port.a (selectRing w22 Port.a recA.record)
def x8 := SMap.get 0 (raOf (unitOf w92 3)).pc (unitOf w92 3).prog
def x9 := getBytes w105 (leAt bindJ.desc 32 8) 64
def x10 := getBytes w118 (w118.gen.actions + 32 * w118.gen.nextAct) 32
def x11 := if actKind x10 = 1 then pgSTRM (byteAt x10 1) else pgTC (byteAt x10 1)
def x12 := getBytes actingSeq (actingSeq.gen.actions + 32 * actingSeq.gen.nextAct) 32
def x13 := if actKind x12 = 1 then pgSTRM (byteAt x12 1) else pgTC (byteAt x12 1)
def x14 := { (camOf w133 15) with corrected := (camOf w133 15).corrected || true : FstCam }
def x15 :=
  ({ base := 192, cfg := 200, head := 204, tail := 204, drop := 0, written := 0, entry := 2048, minLog := 4, maxLog := 10 : RingSpec } :
  RingSpec)
def x16 := (inRing w140 (pgETH 1) true).base + rdF w140 (pgETH 1) 204 9 0 * 2048
def x17 := slotAddr (camOf w152 (byteAt warpJ.desc 32)) (leAt warpJ.desc 34 2 % 8)
def x18 := pyrLevel (List.drop 1 (visOf w154 1).imgs) 1 (visOf w154 1).tile
def x19 := (visOf w154 1).imgs.getD x18.fst (0, 0, 0)
def x20 := (visOf w154 1).imgs.getD (x18.fst - 1) (0, 0, 0)
def x21 := { pyrJ with desc := patch pyrJ.desc 52 (leBytes 4 0) : Job }
def x22 := tileSpan x19.snd.fst x19.snd.snd 64 32 x18.snd
def x23 := groupAddr ((visFlagBase 1 x21 + (visOf w154 1).tile) / 64)
def x24 := pyrLevel (List.drop 1 (visOf w156 1).imgs) 1 (visOf w156 1).tile
def x25 := (visOf w156 1).imgs.getD x24.fst (0, 0, 0)
def x26 := (visOf w156 1).imgs.getD (x24.fst - 1) (0, 0, 0)
def x27 := tileSpan x25.snd.fst x25.snd.snd 64 32 x24.snd
def x28 := groupAddr ((visFlagBase 1 pyrJ + (visOf w156 1).tile) / 64)
def x29 := getBytes w161 (leAt gridJ.desc 56 8) (8 * leAt gridJ.desc 64 2)
def x30 := gshHeader delJ2.desc true acted4.run.prob.kind (if (gshPropose delJ2.desc && decide (acted4.run.stop ≠ 4)) = true then
  { acted4.run with flags := acted4.run.flags ||| 32 : GshRun } else acted4.run) ++ gshOutput (bitOf (byteAt delJ2.desc 58) 0)
  acted4.run.prob
def x31 := gshHeader propJ.desc true acted4.run.prob.kind (if (gshPropose propJ.desc && decide (acted4.run.stop ≠ 4)) = true then
  { acted4.run with flags := acted4.run.flags ||| 32 : GshRun } else acted4.run) ++ gshOutput (bitOf (byteAt propJ.desc 58) 0)
  acted4.run.prob
def x32 := getBytes w178 (leAt bindF.desc 32 8) 128
def x33 := getBytes w178 (leAt x32 40 8) (16 * leAt x32 8 4)
def x34 := leAt appJ.desc 60 2 * (ceilTo (2 * boundIndex.d) 64 * 64)
def x35 := getBytes posted ((postRing posted (byteAt (dataFrame 5 4096) 1)).base + 32 * rdF posted pgPLK (postReg (byteAt (dataFrame 5
  4096) 1) 12) 9 0) 32
def x36 := postRing posted (byteAt (dataFrame 5 4096) 1)
def x37 := getBytes posted ((postRing posted (byteAt (dataFrame 5 1) 1)).base + 32 * rdF posted pgPLK (postReg (byteAt (dataFrame 5 1) 1)
  12) 9 0) 32
def x38 := postRing posted (byteAt (dataFrame 5 1) 1)

/-- A unit's job, and whether it is in time. -/
def inTime (s : State) (u : Nat) : Bool :=
  match runningRun s u with
  | some j => !pastDeadline s j.deadline
  | none => false
/-- A unit stands at an instruction, told by evaluation. -/
theorem atInsn {s : State} {u op : Nat} (h : (pageOn s (pgSTRM u) && inTime s u && decide ((unitOf s u).pc < (unitOf s u).progLen) &&
    decide (iOp (insnOf s u) = op)) = true) : AtInsn s u op := by
  unfold inTime at h
  cases hj : runningRun s u with
  | none => simp [hj] at h
  | some j => simp [hj] at h; exact ⟨h.1.1.1, ⟨j, hj, h.1.1.2⟩, h.1.2, h.2⟩
/-- What every entry of a map has, and its default, a look-up has. -/
theorem look {α : Type} (P : α → Prop) (d : α) (hd : P d) : ∀ (m : SMap α), (∀ e ∈ m, P e.2) → ∀ k, P (m.get d k)
  | [], _, _ => hd
  | (i, v) :: t, hm, k => by
    unfold SMap.get
    split
    · exact hm (i, v) List.mem_cons_self
    · exact look P d hd t (fun e he => hm e (List.mem_cons_of_mem _ he)) k
/-- A read that succeeds. -/
theorem okOf_eq {α : Type} (d : α) {x : Except Halt α × State} (h : x.1.isOk = true) : x = (.ok (okOf d x).1, (okOf d x).2) := by
  obtain ⟨e, u⟩ := x
  cases e with
  | ok p => rfl
  | error e => exact absurd h (by simp [Except.isOk, Except.toBool])
/-- What holds of the value an option has, told by evaluation. -/
theorem all_some {α : Type} {o : Option α} {Q : α → Prop} [∀ t, Decidable (Q t)] (h : o.all (fun t => decide (Q t)) = true) : ∀ t, o = some t → Q t := by
  intro t ht
  subst ht
  simpa using h
/-- Where no byte is listed at or after an address, and what is not listed reads as 0, memory reads as zeros. -/
theorem getBytes_blank {s : State} {a : Nat} (n : Nat) (h : s.mem.cells.all (fun e => decide (e.1 < a)) = true)
    (f : s.mem.fills = [⟨0, 2 ^ 36, .zero⟩]) : getBytes s a n = zeros n :=
  getBytes_above n h fun i _ => by
    unfold Memory.unlisted Memory.fillOf
    rw [f]
    split
    · next hl => simp [fillIn, hl]
    · rfl
theorem all_some_below {α : Type} {n : Nat} {o : Nat → Option α} {Q : Nat → α → Prop} [∀ d t, Decidable (Q d t)]
    (h : ((List.range n).all (fun d => (o d).all (fun t => decide (Q d t)))) = true) : ∀ d, d < n → ∀ t, o d = some t → Q d t := by
  intro d hd
  exact all_some (List.all_eq_true.mp h d (List.mem_range.mpr hd))
theorem dataFrame_length (seq len : Nat) : (dataFrame seq len).length = 4132 := frame_length _ _ _ _ (by simp [zeros] <;> omega)
theorem dataFrame_crc (seq len : Nat) : leAt (dataFrame seq len) 4128 4 = Crypto.crc32 ((dataFrame seq len).take 4128) :=
  frame_crc _ _ _ _ (by simp [zeros] <;> omega)
/-- Some 16 bytes are not the tag of a record. -/
theorem tag_differs : ∃ x : List Byte, x.length = 16 ∧ x ≠ tagOf (zeros 48) := by
  by_cases h : zeros 16 = tagOf (zeros 48)
  · exact ⟨List.replicate 16 1, by decide, fun hx => absurd (hx.trans h.symm) (by decide)⟩
  · exact ⟨zeros 16, by decide, h⟩
/-- The Mews keeps what R211 promises where its tables do. -/
theorem mewsWf {s : State} (h : (s.mews.pools.all (fun e => decide (e.2.count ≤ 65536)) &&
    s.mews.bufs.all (fun e => decide (1 ≤ e.2.gen) && decide (e.2.gen ≤ 8191))) = true) : MewsWf s := by
  rw [Bool.and_eq_true] at h
  refine fun n => ⟨?_, fun i => ?_⟩
  · exact look (fun p => p.count ≤ 65536) MewsPool.off (by decide) s.mews.pools (by simpa using h.1) n
  · exact look (fun b => 1 ≤ b.gen ∧ b.gen ≤ 8191) Buf.fresh (by decide) s.mews.bufs (by simpa using h.2) _

theorem image_reads : rdL0.1.isOk = true := by decide +kernel
/-- A quaternion divided by `r`, and the poses and edges with theirs. -/
def unitBy (r : Nat) (q : List Nat) : List Nat := q.map (fun x => fd x r)
def posesBy (r : Nat) (p : GshProb) : List (List Nat) := p.poses.map (fun x => unitBy r (x.take 4) ++ x.drop 4)
def edgesBy (r : Nat) (p : GshProb) : List (List Nat) := p.edges.map (fun e =>
  if edgeActive e || (unitBy r ((e.drop 2).take 4)).all Fp.isFinite then e.take 2 ++ unitBy r ((e.drop 2).take 4) ++ e.drop 6 else e)
/-- The squared norm of a quaternion. -/
def squared (q : List Nat) : Nat := fa (fa (fa (fm (el q 0) (el q 0)) (fm (el q 1) (el q 1))) (fm (el q 2) (el q 2))) (fm (el q 3) (el q 3))
/-- A problem whose quaternions have one norm, and are finite divided by each root of it that R472 allows. -/
theorem unfit_none {p : GshProb} {n m : Nat} {e c : Int} (hd : Fp.dec32 n = .fin false m e) (hc : Fix.ofFp n = some c)
    (hp : ∀ x ∈ p.poses, squared (x.take 4) = n) (he : ∀ x ∈ p.edges, squared ((x.drop 2).take 4) = n)
    (h : ∀ r ∈ Fix.toFp (Fix.sqrt c) :: Fix.near (Fix.sqrt c), nonFinite (posesBy r p) [0, 1, 2, 3] = none ∧
      nonFinite ((edgesBy r p).map (fun e => if edgeActive e then e else [])) [2, 3, 4, 5] = none) : gshUnfit p = none := by
  obtain ⟨h1, h2⟩ := Fix.pick_all (P := fun r => nonFinite (posesBy r p) [0, 1, 2, 3] = none ∧
    nonFinite ((edgesBy r p).map (fun e => if edgeActive e then e else [])) [2, 3, 4, 5] = none) (Config.sqrt n) h
  have hq : ∀ q, squared q = n → quatUnit q = unitBy (Fix.pick (Fix.sqrt c) (Config.sqrt n)) q := by
    intro q hn
    rw [← Fix.sqrtFp_eq hd hc, ← hn]; rfl
  have hp' : (gshNormalise p).poses = posesBy (Fix.pick (Fix.sqrt c) (Config.sqrt n)) p :=
    List.map_congr_left fun x hx => by rw [hq _ (hp x hx)]
  have he' : (gshNormalise p).edges = edgesBy (Fix.pick (Fix.sqrt c) (Config.sqrt n)) p :=
    List.map_congr_left fun x hx => by unfold edgeUnit; rw [hq _ (he x hx)]
  unfold gshUnfit
  simp only [hp', he', h1, h2]
  rfl
/-- A problem that a SOLVE takes. -/
theorem stop_none {s : State} {d : List Byte} {p : GshProb} {image : Nat} (hl : solveLimits s d p image = none) (hn : gshNegative p = false)
    (hp : solvePropose d p = none) (hi : isData s (leAt d 72 8) (128 + (gshOutput (bitOf (byteAt d 58) 0) p).length) = true)
    (hu : gshUnfit p = none) : solveStop s d p image = none := by
  simp [solveStop, hl, hn, hp, hi, hu]
theorem rounds_one : Fp.dec32 one = .fin false 0x800000 (-23) ∧ Fix.ofFp one = some (2 ^ 640) := by decide +kernel
theorem image_fits : gshUnfit rdL.1.1 = none :=
  unfit_none rounds_one.1 rounds_one.2 (by decide +kernel) (by decide +kernel) (by decide +kernel)
theorem problem_fits : gshUnfit rdS.1.1 = none :=
  unfit_none rounds_one.1 rounds_one.2 (by decide +kernel) (by decide +kernel) (by decide +kernel)
theorem delta_fits : gshUnfit rdD.1.1 = none :=
  unfit_none rounds_one.1 rounds_one.2 (by decide +kernel) (by decide +kernel) (by decide +kernel)
theorem problem_reads : (rdS0 solJ (gS solJ)).1.isOk = true := by decide +kernel
theorem delta_reads : (rdS0 delJ2 gD).1.isOk = true := by decide +kernel
theorem search_reads : (((searchWork seaJ boundIndex boundIndex.cur 1).run .fishhawk).run (startIf pgFSH isSearch (fishhawk seaJ sd))).1.isOk = true := by
  decide +kernel
theorem merge_reads : ((((List.range boundIndex.nlist).mapM (mergedList boundIndex (sideOf (fishhawk merJ sd) 0x10000000) 1)).run .fishhawk).run
    (setMaint (some (.merge ⟨0x20000000, 260, 1, 0, 0, []⟩)) (startIf pgFSH isMaint (fishhawk merJ sd)))).1.isOk = true := by decide +kernel

/-- The state a command leaves, and the part as it was where it leaves none. -/
def after (c : Instr) (s : State) : State := match exec c s with | .next t => t | _ => s
/-- A write of a register by port A: page, offset, width in bits, data, and the hardware's updates of the same instant. -/
def wrote (p off width data : Nat) (hw : List HwUpdate) (s : State) : State :=
  after (.regWrite .a ⟨p * 4096 + off, width, 2 ^ (width / 8) - 1, true, data⟩ hw) s


/-- Witness: Time moves only by ticks of the TCXO. -/
theorem wit_TimeMovesOnlyByTicks :
    (live.pending = [] ∧ live.pd0 = true ∧ live.tb.inc = tickInc (rateNow live + slewRate live)) :=
  by decide +kernel

/-- Witness: Slews, rate writes, source changes and the shadows of TB_NOW. -/
theorem wit_RatesSlewsAndShadows :
    (MayWrite live Port.a pgTB 152 ∧ live.tb.slewRest = 0 ∧ 5 ≠ 0 ∧ (toSigned 32 (BitVec.toNat (5 : Word))).natAbs ≤
      1000000000) ∧
    (w1.pd0 = true ∧ w1.tb.slewReq ≠ 0 ∧ w1.tb.slewRest = 0) ∧
    (MayWrite live Port.a pgTB 144 ∧ tbSrc live = 0) ∧
    (MayWrite live Port.a pgTB 136 ∧ 2 ≠ 3 ∧ 2 ≠ tbSrc live) ∧
    (portLive live Port.b = true) :=
  by decide +kernel

/-- Witness: PPS, gPTP, holdover and the pace window. -/
theorem wit_ReferencesAndHoldover :
    (MayWrite w2 Port.a pgTB 200 ∧ tbSrc w2 = 2) ∧
    (w3.pd0 = true ∧ tbSrc w3 = 2 ∧ tbLocked w3 = true ∧ w3.tb.keepAt + gptpTimeoutNs w3 ≤ now w3) ∧
    (w4.pd0 = true ∧ tbSrc w4 = 1 ∧ tbLocked w4 = true ∧ true ≠ rdB w4 pgTB 136 2 ∧ ((now w4 : Int) - (ppsLast w4 +
      nearestEdge (ppsLast w4) (now w4) * 1000000000)).natAbs ≤ ppsWindow w4) ∧
    (w5.pd0 = true ∧ tbSrc w5 = 1 ∧ w5.tb.edgeSeen = true ∧ ppsOverdue w5 = true) ∧
    (w6.pd0 = true ∧ tbHoldover w6 = true ∧ w6.tb.boundTold = false ∧ boundOver w6 = true) ∧
    (pageOn live 128 = true ∧ paceFrom live 128 + paceWindow ≤ now live) :=
  by decide +kernel

/-- Witness: A header write lands field by field. -/
theorem wit_HeaderWritesLandByFieldType :
    (128 < 256 ∧ MayWrite live Port.a 128 20) ∧
    (128 < 256 ∧ MayWrite live Port.a 128 48 ∧ kindOf 128 = some PageKind.tc) ∧
    (pgSEMA 3 < 256 ∧ MayWrite live Port.a (pgSEMA 3) 48 ∧ kindOf (pgSEMA 3) = some PageKind.sema) ∧
    (128 < 256 ∧ MayWrite live Port.a 128 24) ∧
    (128 < 256 ∧ 8 ∈ [0, 4, 8, 16, 36, 40, 44] ∧ MayWrite live Port.a 128 8) :=
  by decide +kernel

/-- Witness: Either port reads a register; only its owner writes it. -/
theorem wit_AccessGate :
    (128 < 256 ∧ 4092 < 4096 ∧ 4092 % 4 = 0 ∧ portLive live Port.b = true ∧ 128 ≠ pgTB ∧ 128 ≠ pgFLG) ∧
    (128 < 256 ∧ 12 < 4096 ∧ 12 % 4 = 0 ∧ portLive live Port.b = true ∧ assigned 128 = true ∧ writerOf live 128 12 ≠
      Port.b) ∧
    (assigned 128 = true ∧ portLive live Port.b = true ∧ (Instr.pageLock Port.b 128, 60) ∈ [(Instr.pageLock Port.b 128,
      60), (Instr.evtTest Port.b 128 1, 28), (Instr.pgFaultClear Port.b 128 none, 32), (Instr.pageEnable Port.b 128 true,
      12), (Instr.pageQuiesce Port.b 128 true, 12), (Instr.pageFence Port.b 128, 12), (Instr.pageUnfence Port.b 128, 12)] ∧
      writerOf live 128 60 ≠ Port.b) :=
  by decide +kernel

/-- Witness: Page lock, event test, fault clear and the fault mirror. -/
theorem wit_LocksEventTestsAndFaultClears :
    (128 < 256 ∧ MayWrite live Port.a 128 60) ∧
    (128 < 256 ∧ MayWrite w7 Port.a 128 60) ∧
    (128 < 256 ∧ MayWrite w7 Port.a 128 56 ∧ locked w7 128 = true) ∧
    (MayWrite live Port.a 128 28 ∧ (31 ≤ 12 ∨ 16 ≤ 31 ∧ 31 < 32)) ∧
    (MayWrite w8 Port.a 128 32) ∧
    (MayWrite w8 Port.a 128 32 ∧ 4095 < 4096 ∧ 3 ≤ 6 ∧ 6 ≤ 6) ∧
    (MayWrite w9 Port.a pgFM 224 ∧ assigned 128 = true) ∧
    (MayWrite live Port.a pgFM 228 ∧ pageOn live 128 = true ∧ fenceable 128 = true) :=
  by decide +kernel

/-- Witness: Ready, enable, quiesce, fences, register time-outs and stalls. -/
theorem wit_PagesReadyFenceAndStall :
    (readyByRow 32 = true ∧ pageOn live 32 = true ∧ ready live 32 = false ∧ fenceBit live 32 = false) ∧
    (MayWrite live Port.a 128 12) ∧
    (MayWrite live Port.a 128 12 ∧ fenceable 128 = true ∧ fenceBit live 128 = false) ∧
    (pageOn fencedTc 128 = true ∧ fenceBit fencedTc 128 = true ∧ fenced fencedTc 128 = false ∧ (pageJobs fencedTc 128).done
      = []) ∧
    (MayWrite fencedTc Port.a 128 12 ∧ fenceable 128 = true ∧ fenceBit fencedTc 128 = true) ∧
    (MayWrite w10 Port.a 128 12 ∧ fenceable 128 = true ∧ fenceBit w10 128 = true) ∧
    (pageOn fencedTc 128 = true ∧ fenceBit fencedTc 128 = true ∧ (fenceOf fencedTc 128).slow = false ∧ fenced fencedTc 128
      = false ∧ (fenceOf fencedTc 128).since + 1000000 ≤ now fencedTc) ∧
    (portLive live Port.b = true ∧ pageOn live 128 = true ∧ 4092 < 4096) ∧
    (runsJobs 128 = true ∧ pageOn w11 128 = true ∧ (pageJobs w11 128).running ≠ [] ∧ rdB w11 128 16 2 = false ∧ stallMs w11
      128 ≤ msSince w11 (pageJobs w11 128).progress) :=
  by decide +kernel

/-- Witness: A doorbell takes a TAIL below the ring depth. -/
theorem wit_DoorbellTakesTailBelowDepth :
    (15 < 4096 ∧ MayWrite live Port.a (pgHP Port.a) (crOff 3 16)) ∧
    (16 < 4096 ∧ MayWrite live Port.b (pgHP Port.b) (crOff 3 16)) :=
  by decide +kernel

/-- Witness: Rings latch at enable, take their entries, and their jobs end with a record. -/
theorem wit_RingsRunJobs :
    (MayWrite w12 Port.a (pgHP Port.a) (crOff 2 8) ∧ crEnabled w12 Port.a 2 = false ∧ isData w12 (crBase w12 Port.a 2) (64
      * crDepth w12 Port.a 2) = true) ∧
    (MayWrite w13 Port.a (pgHP Port.a) (crOff 0 8) ∧ crEnabled w13 Port.a 0 = true) ∧
    (MayWrite w14 Port.a (pgHP Port.a) (erOff 2 8) ∧ erEnabled w14 Port.a 2 = false ∧ isData w14 (erBase w14 Port.a 2) (16
      * erDepth w14 Port.a 2) = true) ∧
    (0 < 16 ∧ domOn w15 1 = true ∧ (w15.port Port.a).nextRing = 0 ∧ crEnabled w15 Port.a 0 = true ∧ crHead w15 Port.a 0 ≠
      (cmdRing w15 Port.a 0).tail ∧ 0 < (cmdRing w15 Port.a 0).depth ∧ (cmdRing w15 Port.a 0).depth ≤ 4096 ∧ NoneHeld w15
      Port.a ∧ isData w15 x1 64 = true ∧ canUse w15 (srcPort Port.a) x1 64 = true ∧ (readAs (srcPort Port.a) x1 64
      w15).snd.fst = none ∧ entryReason w15 (readAs (srcPort Port.a) x1 64 w15).fst = 0 ∧ leAt (readAs (srcPort Port.a) x1
      64 w15).fst 0 2 = 0) ∧
    (0 < 16 ∧ domOn w16 1 = true ∧ (w16.port Port.a).nextRing = 0 ∧ crEnabled w16 Port.a 0 = true ∧ crHead w16 Port.a 0 ≠
      (cmdRing w16 Port.a 0).tail ∧ 0 < (cmdRing w16 Port.a 0).depth ∧ (cmdRing w16 Port.a 0).depth ≤ 4096 ∧ NoneHeld w16
      Port.a ∧ isData w16 ((cmdRing w16 Port.a 0).base + 64 * crHead w16 Port.a 0) 64 = true ∧ canUse w16 (srcPort Port.a)
      ((cmdRing w16 Port.a 0).base + 64 * crHead w16 Port.a 0) 64 = true ∧ x3.snd.fst = none ∧ entryReason w16 x3.fst = 0 ∧
      leAt x3.fst 0 2 = 1 ∧ canUse w16 (srcPort Port.a) (leAt x3.fst 8 8) (leAt x3.fst 2 2) = true ∧ x5.snd.fst = none ∧
      (cmdRing w16 Port.a 0).told = false ∧ runsJobs x4 = true ∧ owner w16 x4 = Port.a ∧ pageOn w16 x4 = true ∧ fenceBit
      w16 x4 = false ∧ queueFull w16 x4 x2 = false ∧ goingOff w16 x4 = false ∧ engineOk (cmdRing w16 Port.a 0).target
      x2.engine = true ∧ jobBad x5.snd.snd x4 x2 = none) ∧
    (List.find? (fun x ↦ jobHeld heldLate 248 x && pastDeadline heldLate x.deadline) (pageJobs heldLate 248).queue = some
      { sendJob with desc := patch sendJob.desc 8 (leBytes 8 5) : Job }) ∧
    (List.find? (canComplete w17) (pageJobs w17 248).done = some dj ∧ dj.job.ring < 17) :=
  by decide +kernel

/-- Witness: Event records are written to their ring, signalled, and replayed. -/
theorem wit_EventsArePostedAndSignalled :
    (w18.outbox = [recA] ∧ (Port.a = Port.a ∧ recA.toA = true ∧ recA.toB = false ∨ Port.a = Port.b ∧ recA.toA = false ∧
      recA.toB = true) ∧ w18.lre.entries = [] ∧ erEnabled w18 Port.a (selectRing w18 Port.a recA.record) = true ∧ erFull
      w18 Port.a (selectRing w18 Port.a recA.record) = false ∧ canUse w18 ReqSource.record x6 16 = true ∧ (evtRing w18
      Port.a (selectRing w18 Port.a recA.record)).dropped = 0 ∧ codedWords w18 x6 16 = []) ∧
    (w19.outbox = [recA] ∧ (Port.a = Port.a ∧ recA.toA = true ∧ recA.toB = false ∨ Port.a = Port.b ∧ recA.toA = false ∧
      recA.toB = true) ∧ w19.lre.entries = [] ∧ (erEnabled w19 Port.a (selectRing w19 Port.a recA.record) = false ∨ erFull
      w19 Port.a (selectRing w19 Port.a recA.record) = true)) ∧
    (portLive w20 Port.a = true ∧ erEnabled w20 Port.a 0 = true ∧ (evtRing w20 Port.a 0).unsent ≠ 0 ∧ msixLive (w20.port
      Port.a).config = true ∧ (w20.port Port.a).config.msixMask = false ∧ (evtRing w20 Port.a 0).oldest + rdF w20 (pgHP
      Port.a) (erOff 0 24) 15 0 * 1000 ≤ now w20) ∧
    (portLive live Port.a = true ∧ 63 < 64) ∧
    (portLive w21 Port.a = true ∧ 63 < 64) ∧
    (w22.lre.entries = [recA] ∧ w22.lre.dropped = 0 ∧ (Port.a = Port.a ∧ recA.toA = true ∧ recA.toB = false ∨ Port.a =
      Port.b ∧ recA.toA = false ∧ recA.toB = true) ∧ erEnabled w22 Port.a (selectRing w22 Port.a recA.record) = true ∧
      erFull w22 Port.a (selectRing w22 Port.a recA.record) = false ∧ canUse w22 ReqSource.record x7 16 = true ∧ (evtRing
      w22 Port.a (selectRing w22 Port.a recA.record)).dropped = 0 ∧ codedWords w22 x7 16 = []) :=
  by decide +kernel

/-- Witness: LRE_DISCARD removes the oldest entries. -/
theorem wit_LreDiscardRemovesOldest :
    (1 < 128 ∧ MayWrite w23 Port.a pgLRE 136) ∧
    (2 < 128 ∧ MayWrite w23 Port.a pgLRE 136) :=
  by decide +kernel

/-- Witness: Links go down and up; PERST and FLR reset a port. -/
theorem wit_LinksAndPortResets :
    (portLive live Port.a = true) ∧
    (domOn w24 1 = true ∧ (w24.port Port.a).up = false) ∧
    (domOn evtOf 1 = true) ∧
    (portLive evtOf Port.a = true) :=
  by decide +kernel

/-- Witness: The memory aperture reads and writes. -/
theorem wit_ApertureReadsAndWrites :
    (portLive live Port.a = true ∧ NoneHeld live Port.a ∧ 1 ≤ 4096 ∧ 4096 ≤ 4096 ∧ 1048576 + 4096 ≤ 2 ^ 32 ∧ canUse live
      (srcPort Port.a) (apBase live Port.a + 1048576) 4096 = true ∧ (∀ (w : Nat), w ∈ codedWords live (apBase live Port.a +
      1048576) 4096 → markOf live w = Mark.good ∧ bankBad live w = false)) ∧
    (portLive live Port.a = true ∧ NoneHeld live Port.a ∧ 1 ≤ [some 5, none, some 6].length ∧ [some 5, none, some 6].length
      ≤ 256 ∧ 1048577 + [some 5, none, some 6].length ≤ 2 ^ 32 ∧ canUse live (srcPort Port.a) (apBase live Port.a +
      1048577) [some 5, none, some 6].length = true ∧ (∀ (w : Nat), w ∈ codedWords live (apBase live Port.a + 1048577)
      [some 5, none, some 6].length → markOf live w = Mark.good ∧ bankBad live w = false)) ∧
    (portLive w25 Port.a = true ∧ NoneHeld w25 Port.a ∧ 1 ≤ 1 ∧ 1 ≤ 4096 ∧ 4294967295 + 1 ≤ 2 ^ 32 ∧ isData w25 (apBase w25
      Port.a + 4294967295) 1 = false) ∧
    (portLive dmcTrains Port.a = true ∧ NoneHeld dmcTrains Port.a ∧ 1 ≤ [some 5, none].length ∧ [some 5, none].length ≤ 256
      ∧ 1048576 + [some 5, none].length ≤ 2 ^ 32 ∧ isData dmcTrains (apBase dmcTrains Port.a + 1048576) [some 5,
      none].length = true ∧ canUse dmcTrains (srcPort Port.a) (apBase dmcTrains Port.a + 1048576) [some 5, none].length =
      false) :=
  by decide +kernel

/-- Witness: The module, PD0 and the trim image come up. -/
theorem wit_ModuleAndPd0Start :
    (9000 ≤ 9000 ∧ State.reset.sup.modPg = false ∧ State.reset.sup.flashMode = false) ∧
    (State.reset.sup.modEn = false) ∧
    (live.sup.modEn = true) ∧
    (cold.sup.modPg = true ∧ cold.pd0 = false) ∧
    (TrimResult.wf
      { slot0 := TrimOutcome.valid, slot1 := TrimOutcome.unreadable, version := 5, crc := 77, repairs := 3, failed := 0 : TrimResult }
      = true ∧ w26.pd0 = true ∧ w26.power.trimTried = false) ∧
    (TrimResult.wf
      { slot0 := TrimOutcome.unreadable, slot1 := TrimOutcome.unreadable, version := 5, crc := 77, repairs := 3, failed := 0 : TrimResult }
      = true ∧ w26.pd0 = true ∧ w26.power.trimTried = false) :=
  by decide +kernel

/-- Witness: Domains switch; VCORE ramps, is measured, lost and returns. -/
theorem wit_DomainsAndVcore :
    (1 ≤ 8 ∧ 8 ≤ 8 ∧ w27.pd0 = true ∧ w27.power.vcoreOn = true ∧ w27.power.switching = [(8, true)]) ∧
    (1 ≤ 1 ∧ 1 ≤ 8 ∧ w28.pd0 = true ∧ w28.power.vcoreOn = true ∧ w28.power.switching = [(1, true)]) ∧
    (1 ≤ 2 ∧ 2 ≤ 8 ∧ w29.pd0 = true ∧ w29.power.vcoreOn = true ∧ w29.power.switching = [(2, true)]) ∧
    (1 ≤ 3 ∧ 3 ≤ 8 ∧ w30.pd0 = true ∧ w30.power.switching = [(3, false)]) ∧
    (w31.pd0 = true ∧ ramping w31 = true ∧ rdB w31 pgPWR 136 16 = true ∧ withinMv (rdF w31 pgPWR 136 9 0) (vcoreSet w31) 10
      = true) ∧
    (SupReport.wf { vinMv := 12000, vcoreMv := 800, icoreCa := 100, moduleMw := 5000 : SupReport } = true ∧ live.pd0 =
      true) ∧
    (live.pd0 = true) ∧
    (live.pd0 = true ∧ live.power.vcoreOn = true) ∧
    (w32.pd0 = true ∧ w32.power.trimTried = true ∧ w32.power.vcoreOn = true ∧ coreBusy w32 = false) :=
  by decide +kernel

/-- Witness: Votes open a window; agreed page orders are applied. -/
theorem wit_VotesAndPageOrders :
    (MayWrite w33 Port.a pgJNT (castOff Port.a) ∧ windowOver w33 = false ∧ orderKnown (voteOrder w33 Port.a) = true ∧
      ballotOpen w33 Port.a = false ∧ jntOpen w33 = false ∧ maySole w33 Port.a = false) ∧
    (MayWrite w34 Port.a pgJNT (castOff Port.a) ∧ windowOver w34 = false ∧ (orderKnown (voteOrder w34 Port.a) = false ∨
      ballotOpen w34 Port.a = true)) ∧
    (w35.pd0 = true ∧ windowEnded w35 = true) ∧
    (Agrees w36 Port.a 1 ∧ voteArg w36 Port.a < 2 ^ 25 ∧ bitsOf (voteArg w36 Port.a) 11 0 ≤ bitsOf (voteArg w36 Port.a) 23
      12) ∧
    (Agrees w37 Port.a 4 ∧ assigned (voteArg w37 Port.a) = true) ∧
    (Agrees w38 Port.a 9 ∧ voteArg w38 Port.a < 2 ^ 18 ∧ bitOf (voteArg w38 Port.a) 17 = true ∧ 100 ≤ bitsOf (voteArg w38
      Port.a) 15 0 ∧ bitsOf (voteArg w38 Port.a) 15 0 ≤ 60000) ∧
    (Agrees w39 Port.a 10 ∧ 1 ≤ voteArg w39 Port.a ∧ voteArg w39 Port.a ≤ 1000) :=
  by decide +kernel

/-- Witness: Agreed orders of power, memory map, fusion and journey. -/
theorem wit_AgreedPowerAndBlockOrders :
    (Agrees w40 Port.a 2 ∧ voteArg w40 Port.a < 2 ^ 9 ∧ bitOf (voteArg w40 Port.a) 8 = true ∧ w40.power.trimValid = true ∧
      pd2Bad w40 (voteArg w40 Port.a % 256) true = false) ∧
    (Agrees w41 Port.a 3 ∧ 600 ≤ voteArg w41 Port.a ∧ voteArg w41 Port.a ≤ 900 ∧ voteArg w41 Port.a % 10 = 0 ∧
      (w41.fuses.variantE = true → voteArg w41 Port.a ≤ 800)) ∧
    (Agrees w42 Port.a 5 ∧ (voteArg w42 Port.a ≤ 11 ∨ voteArg w42 Port.a = 15) ∧ mapQuiet w42 = true ∧ mapPassed w42
      (voteArg w42 Port.a) = true ∧ w42.dram.initRegion = none ∧ voteArg w42 Port.a ≠ mapInForce w42) ∧
    (Agrees w43 Port.a 6 ∧ voteArg w43 Port.a < 2 ^ 46 ∧ bitsOf (voteArg w43 Port.a) 39 0 % 32 = 0 ∧ isData w43 (bitsOf
      (voteArg w43 Port.a) 39 0) 96 = true ∧ domOn w43 6 = true ∧ canUse w43 ReqSource.fusion (bitsOf (voteArg w43 Port.a)
      39 0) 96 = true ∧ (readAs ReqSource.fusion (bitsOf (voteArg w43 Port.a) 39 0) 96 w43).snd.fst = none ∧ xformReason
      (readAs ReqSource.fusion (bitsOf (voteArg w43 Port.a) 39 0) 96 w43).fst = 0) ∧
    (Agrees w44 Port.a 7 ∧ fusModeBad (voteArg w44 Port.a) = false) ∧
    (Agrees w45 Port.a 8 ∧ journeyOrderRefused w45 (voteArg w45 Port.a) = 0 ∧ w45.met.vin = true) :=
  by decide +kernel

/-- Witness: Heat samples, the supervisor, and the test access port. -/
theorem wit_HeatSupervisorAndJtag :
    (live.pd0 = true ∧ (live.heat.sampled = false ∨ live.heat.lastAt + 100000 ≤ now live) ∧ hottest (sixteen (List.map (fun
      (i : Nat) ↦ some ((1900 + i : Nat) : Int)) (List.range 16))) = some (15, 1915)) ∧
    (live.pd0 = true ∧ (live.heat.sampled = false ∨ live.heat.lastAt + 100000 ≤ now live) ∧ hottest (sixteen (List.map (fun
      (i : Nat) ↦ some ((2000 - i : Nat) : Int)) (List.range 16))) = some (0, 2000)) ∧
    (live.pd0 = true ∧ (live.heat.sampled = false ∨ live.heat.lastAt + 100000 ≤ now live) ∧ hottest (sixteen
      (List.replicate 16 none)) = none) ∧
    (MayWrite live Port.a pgTHM 180) ∧
    (live.power.vcoreOn = true ∧ (¬(Protection.undervoltage = Protection.undervoltage ∧ live.pd0 = true ∧ ramping live =
      true))) ∧
    (critSeen w46 = true ∧ w46.sup.critAction = true ∧ w46.power.vcoreOn = true ∧ w46.sup.critDelay ≤ w46.sup.critMs) ∧
    ((critSeen live = false ∨ live.sup.critAction = false ∨ live.sup.critMs < live.sup.critDelay)) ∧
    (bitOf 1 0 = true ∧ w47.sup.modPg = true ∧ critSeen w47 = false ∧ 9000 ≤ w47.sup.vinMv ∧ w47.power.vcoreOn = false) ∧
    (live.pd0 = true) ∧
    (w48.pd0 = true) :=
  by decide +kernel

/-- Witness: The interleave of every map loses no address. -/
theorem wit_InterleaveLosesNoAddress :
    ((15 = 15 ∨ 15 < 12)) ∧
    ((3 = 15 ∨ 3 < 12)) :=
  by decide +kernel

/-- Witness: Memory reads and writes its bytes; errors are corrected or poisoned. -/
theorem wit_MemoryWordsAndTheirErrors :
    (1 ≤ 300 ∧ memUsable live 1048831 300 = true ∧ (∀ (w : Nat), w ∈ codedWords live 1048831 300 → markOf live w =
      Mark.good ∧ bankBad live w = false)) ∧
    (1 ≤ 300 ∧ memUsable eccLive 1048577 300 = true ∧ (∀ (w : Nat), w ∈ codedWords eccLive 1048577 300 → markOf eccLive w =
      Mark.good ∧ bankBad eccLive w = false)) ∧
    (leBytes 40 (2 ^ 300 + 5) ≠ [] ∧ memUsable eccLive 1048591 (leBytes 40 (2 ^ 300 + 5)).length = true ∧ (∀ (w : Nat), w ∈
      codedWords eccLive 1048591 (leBytes 40 (2 ^ 300 + 5)).length → markOf eccLive w = Mark.good ∧ bankBad eccLive w =
      false)) ∧
    (1 ≤ 1 ∧ isData eccLive 206158430208 1 = false) ∧
    ([1, 2] ≠ [] ∧ isData eccLive 2013265919 [1, 2].length = false) ∧
    (memUsable eccLive 1048576 (wordSize 1048576) = true ∧ codedWords eccLive 1048576 (wordSize 1048576) = [1048576] ∧
      bankBad eccLive 1048576 = false ∧ markOf eccLive 1048576 = Mark.good) ∧
    (memUsable live 274877906952 (wordSize 274877906952) = true ∧ codedWords live 274877906952 (wordSize 274877906952) =
      [274877906952] ∧ bankBad live 274877906952 = false ∧ markOf live 274877906952 = Mark.good) ∧
    (memUsable eccLive 1048576 (wordSize 1048576) = true ∧ codedWords eccLive 1048576 (wordSize 1048576) = [1048576] ∧
      bankBad eccLive 1048576 = false) ∧
    (memUsable w49 1048576 (wordSize 1048576) = true ∧ codedWords w49 1048576 (wordSize 1048576) = [1048576] ∧ bankBad w49
      1048576 = false ∧ markOf w49 1048576 = Mark.poison) ∧
    (ready w50 pgRES = true ∧ rdF w50 pgRES 156 15 0 ≠ 0 ∧ SMap.get 0 12 w50.dram.scrubNext < 48 * 2 ^ 18 ∧ bankBad w50
      (residentBase + 8 * SMap.get 0 12 w50.dram.scrubNext) = false) :=
  by decide +kernel

/-- Witness: Training, refresh above nominal and self-refresh. -/
theorem wit_TrainingAndRefresh :
    (pageOn dmcFresh (pgDMC 11) = true ∧ trainState dmcFresh 11 = 1 ∧ trainLate 11 dmcFresh = false) ∧
    (4 ≤ 4 ∧ (trainLate 11 dmcFresh = true ∨ 1 ≤ 4) ∧ pageOn dmcFresh (pgDMC 11) = true ∧ trainState dmcFresh 11 = 1) ∧
    (4 ≤ 4 ∧ (trainLate 11 dmcTrains = true ∨ 1 ≤ 4) ∧ pageOn dmcTrains (pgDMC 11) = true ∧ trainState dmcTrains 11 = 1) ∧
    (pageOn dmcTrains (pgDMC 11) = true ∧ trainState dmcTrains 11 = 1 ∧ SMap.get 0 11 dmcTrains.dram.trainAt + 15000000 ≤
      now dmcTrains) ∧
    (MayWrite w53 Port.a (pgDMC 11) 132 ∧ ready w53 (pgDMC 11) = false ∧ trainState w53 11 ≠ 1) ∧
    (pageOn live (pgDMC 11) = true ∧ rdB live (pgDMC 11) 128 4 ≠ true) ∧
    (pageOn w54 (pgDMC 11) = true ∧ rdB w54 (pgDMC 11) 128 4 ≠ false) ∧
    (pageOn w55 (pgDMC 11) = true ∧ rdF w55 (pgDMC 11) 132 31 16 ≠ 0 ∧ trainState w55 11 = 2 ∧ rdB w55 (pgDMC 11) 128 3 =
      false ∧ SMap.get 0 11 w55.dram.lastReq + rdF w55 (pgDMC 11) 132 31 16 * 1000 ≤ now w55) :=
  by decide +kernel

/-- Witness: ECC initialisation and the resident store. -/
theorem wit_EccInitAndResidentStore :
    (MayWrite live Port.a (pgDMC 0) 268 ∧ live.dram.initRegion = none ∧ dramReady live = true) ∧
    (1 < 32 ∧ initing.dram.initRegion = some 1 ∧ domOn initing 2 = true ∧ initing.dram.owed = [] ∧ NoneHeld initing Port.a
      ∧ NoneHeld initing Port.b) ∧
    (pageOn w56 pgRES = true ∧ rdB w56 pgRES 128 0 = false ∧ NoneHeld w56 Port.a ∧ NoneHeld w56 Port.b) :=
  by decide +kernel

/-- Witness: The regulator admits and counts within what it honours. -/
theorem wit_RegulatorAdmitsWithinLimits :
    (pageOn w57 pgMREG = true ∧ pickRequest w57 = some { cls := 8, ctl := 5, bytes := 64 : DramReq } ∧ NoneHeld w57 Port.a
      ∧ NoneHeld w57 Port.b) ∧
    (pageOn w58 pgMREG = true ∧ pickRequest w58 = some { cls := 0, ctl := 5, bytes := 64 : DramReq } ∧ NoneHeld w58 Port.a
      ∧ NoneHeld w58 Port.b) ∧
    (pageOn w58 pgMREG = true ∧ w58.regul.start + 1000 ≤ now w58 ∧ NoneHeld w58 Port.a ∧ NoneHeld w58 Port.b) ∧
    (MayWrite live Port.a pgMREG (132 + 4 * 7)) ∧
    (MayWrite w59 Port.a pgMREG (132 + 4 * 7)) ∧
    (MayWrite live Port.a pgMREG 128 ∧ locked live pgMREG = false) ∧
    (MayWrite live Port.a pgMREG 164 ∧ locked live pgMREG = false) :=
  by decide +kernel

/-- Witness: Flags are set, cleared and read. -/
theorem wit_FlagsSetClearRead :
    (524287 < 2 ^ 19 ∧ MayWrite live Port.a pgFLG (if true = true then 128 else 132) ∧ bankBad live (groupAddr (524287 /
      64)) = false ∧ markOf live (groupAddr (524287 / 64)) = Mark.good) ∧
    (5 < 2 ^ 19 ∧ MayWrite live Port.a pgFLG (if false = true then 128 else 132) ∧ bankBad live (groupAddr (5 / 64)) =
      false ∧ markOf live (groupAddr (5 / 64)) = Mark.good) ∧
    (MayWrite live Port.a pgFLG 148 ∧ 1 ≤ 1 ∧ 8191 + 1 ≤ 8192 ∧ live.flg.range = none) ∧
    (w61.flg.range = some (8191, 1) ∧ 8191 + 1 ≤ 8192 ∧ pageOn w61 pgFLG = true ∧ w61.flg.rangeAt + 1 * 2000 / 8192 ≤ now
      w61 ∧ (∀ (g : Nat), 8191 ≤ g → g < 8191 + 1 → bankBad w61 (groupAddr g) = false)) ∧
    (portLive live Port.a = true ∧ pageOn live pgFLG = true ∧ bankBad live (groupAddr (rdF live pgFLG 136 12 0)) = false ∧
      markOf live (groupAddr (rdF live pgFLG 136 12 0)) = Mark.good) :=
  by
    refine ⟨?_, ?_, ?_,
      by refine ⟨?_, ?_, ?_, ?_, (by intro g h h2; have h3 : g = 8191 := (by omega); subst h3; decide +kernel)⟩ <;> decide +kernel,
      ?_⟩
    all_goals decide +kernel

/-- Witness: ALLOC, FREE and TRANSFER. -/
theorem wit_AllocFreeTransfer :
    (MewsWf w62 ∧ MayWrite w62 Port.a pgMEWS 136 ∧ hostPending w62 = false ∧ 1 ≤ opArg0 w62 ∧ opArg0 w62 ≤ 4194304 ∧
      ownerFenced w62 (opOwner w62) = false ∧ homePool w62 (opArg0 w62) = some 0 ∧ openNow w62 0 (rdB w62 pgMEWS 132 9 ||
      decide (opOwner w62 = 63)) = true) ∧
    (MewsWf w63 ∧ MayWrite w63 Port.a pgMEWS 136 ∧ hostPending w63 = false ∧ current w63 (opArg0 w63) = true) ∧
    (MewsWf w64 ∧ MayWrite w64 Port.a pgMEWS 136 ∧ hostPending w64 = false ∧ current w64 (opArg0 w64) = true ∧ ownerFenced
      w64 (opOwner w64) = false) :=
  ⟨by refine ⟨mewsWf (by decide +kernel), ?_, ?_, ?_, ?_, ?_, ?_, ?_⟩ <;> decide +kernel,
   by refine ⟨mewsWf (by decide +kernel), ?_, ?_, ?_⟩ <;> decide +kernel,
   by refine ⟨mewsWf (by decide +kernel), ?_, ?_, ?_, ?_⟩ <;> decide +kernel⟩

/-- Witness: RECLAIM, CANCEL, fences, pools and waiting requests. -/
theorem wit_ReclaimPoolsAndWaiters :
    (MayWrite fenced5 Port.a pgMEWS 136 ∧ hostPending fenced5 = false ∧ opArg0 fenced5 ≤ 63 ∧ ownerFenced fenced5 (opArg0
      fenced5) = true ∧ rdB fenced5 pgMEWS 168 0 = false) ∧
    (MewsWf w65 ∧ pageOn w65 pgMEWS = true ∧ rdB w65 pgMEWS 168 0 = true ∧ (∀ (k : Nat), k < 16 → ∀ (r : MewsReq), r ∈
      SMap.get [] k w65.mews.queues → r.owner ≠ rdF w65 pgMEWS 168 13 8)) ∧
    (MayWrite pend Port.a pgMEWS 136 ∧ hostPending pend = true) ∧
    (MayWrite pend Port.a pgMEWS (160 + 4 * b2n false)) ∧
    (MayWrite w66 Port.a pgMEWS (268 + 1 * 32) ∧ (poolOf w66 1).on = false ∧ poolCfgBad w66 1 = 0) ∧
    (MayWrite mewsOn Port.a pgMEWS (268 + 0 * 32) ∧ (poolOf mewsOn 0).on = true ∧ heldIn mewsOn 0 = [] ∧ mewsQueue mewsOn 0
      true = [] ∧ mewsQueue mewsOn 0 false = []) ∧
    (0 < 8 ∧ MewsWf wait3 ∧ pageOn wait3 pgMEWS = true ∧ (poolOf wait3 0).on = true ∧ mewsQueue wait3 0 true =
      [({ src := MewsSrc.stream 3, owner := 5, size := 256, recov := true : MewsReq } : MewsReq)] ∧ canGrant wait3 0 true =
      true ∧ ({ src := MewsSrc.stream 3, owner := 5, size := 256, recov := true : MewsReq } : MewsReq).src = MewsSrc.stream
      3) :=
  by
    refine ⟨?_,
      by refine ⟨mewsWf (by decide +kernel), ?_, ?_, ?_⟩ <;> decide +kernel,
      ?_, ?_, ?_, ?_,
      by refine ⟨?_, mewsWf (by decide +kernel), ?_, ?_, ?_, ?_, ?_⟩ <;> decide +kernel⟩
    all_goals decide +kernel

/-- Witness: RUN starts and LAUNCH delivers. -/
theorem wit_RunStartsAndLaunchDelivers :
    ((pageJobs w67 (pgSTRM 3)).queue = [runJ] ∧ (pageJobs w67 (pgSTRM 3)).running = [] ∧ runJ.op = 1 ∧ depsMet w67 (pgSTRM
      3) runJ (strmAddrs runJ) = true ∧ pastDeadline w67 runJ.deadline = false ∧ strmTrig runJ = none ∧ runLoadProg runJ =
      false ∧ runLoadShapes runJ = false ∧ runLoadRegs runJ = true ∧ progBad
      { (unitOf w67 3) with progLen := runProgLen runJ, bind := rd w67 (pgSTRM 3) 136 : StreamUnit } = none) ∧
    ((pageJobs w68 (pgSTRM 3)).queue = [launchJ] ∧ (pageJobs w68 (pgSTRM 3)).running = [] ∧ launchJ.op = 2 ∧ depsMet w68
      (pgSTRM 3) launchJ (strmAddrs launchJ) = true ∧ pastDeadline w68 launchJ.deadline = false ∧ launchEntries launchJ =
      [(0, 5, 2101248)] ∧ 5 ≠ 3 ∧ owner w68 (pgSTRM 5) = launchJ.port ∧ (pageJobs w68 (pgSTRM 5)).queue.length < 4 ∧
      GoodRange w68 (srcUnit 3) 2101248 160 ∧ fenceBit w68 (pgSTRM 5) = false ∧ strmBad w68
      { desc := getBytes w68 2101248 160, port := launchJ.port, ring := 16, told := false, accepted := now w68 : Job } =
      none) :=
  by decide +kernel

/-- Witness: Register and flag instructions. -/
theorem wit_RegisterAndFlagInstructions :
    (AtInsn w69 3 opSETA) ∧
    (AtInsn w70 3 opADDA) ∧
    (AtInsn w71 3 opSETC) ∧
    (AtInsn w72 3 opLOOP) ∧
    (AtInsn w74 3 opSWAP) ∧
    (insnFlag (unitOf w75 3) (insnOf w75 3) < 524288 ∧ ready w75 pgRES = true ∧ bankBad w75 (groupAddr (insnFlag (unitOf
      w75 3) (insnOf w75 3) / 64)) = false ∧ markOf w75 (groupAddr (insnFlag (unitOf w75 3) (insnOf w75 3) / 64)) =
      Mark.good ∧ AtInsn w75 3 (if true = true then opSETF else opCLRF)) ∧
    (insnFlag (unitOf w76 3) (insnOf w76 3) < 524288 ∧ ready w76 pgRES = true ∧ bankBad w76 (groupAddr (insnFlag (unitOf
      w76 3) (insnOf w76 3) / 64)) = false ∧ markOf w76 (groupAddr (insnFlag (unitOf w76 3) (insnOf w76 3) / 64)) =
      Mark.good ∧ AtInsn w76 3 (if false = true then opSETF else opCLRF)) ∧
    (insnFlag (unitOf w77 3) (insnOf w77 3) < 524288 ∧ ready w77 pgRES = true ∧ bankBad w77 (groupAddr (insnFlag (unitOf
      w77 3) (insnOf w77 3) / 64)) = false ∧ markOf w77 (groupAddr (insnFlag (unitOf w77 3) (insnOf w77 3) / 64)) =
      Mark.good ∧ AtInsn w77 3 opWAITF ∧ (unitOf w77 3).released = false) :=
  ⟨atInsn (by decide +kernel),
   atInsn (by decide +kernel),
   atInsn (by decide +kernel),
   atInsn (by decide +kernel),
   atInsn (by decide +kernel),
   by refine ⟨?_, ?_, ?_, ?_, atInsn (by decide +kernel)⟩ <;> decide +kernel,
   by refine ⟨?_, ?_, ?_, ?_, atInsn (by decide +kernel)⟩ <;> decide +kernel,
   by refine ⟨?_, ?_, ?_, ?_, atInsn (by decide +kernel), ?_⟩ <;> decide +kernel⟩

/-- Witness: XFER moves its row; PREF changes no register. -/
theorem wit_TransferMovesItsRow :
    (AtInsn w79 3 opXFER ∧ filterInsn w79 (unitOf w79 3) (unitOf w79 3).a (unitOf w79 3).hs (insnOf w79 3) = none ∧
      iSrcPort (insnOf w79 3) = false ∧ iDstKind (insnOf w79 3) = 0 ∧ 1 ≤ shX (unitOf w79 3) (iShape (insnOf w79 3)) ∧ shY
      (unitOf w79 3) (iShape (insnOf w79 3)) = 1 ∧ shZ (unitOf w79 3) (iShape (insnOf w79 3)) = 1 ∧ (unitOf w79 3).lines =
      [] ∧ GoodRange w79 (srcUnit 3) (operandBase (unitOf w79 3) (unitOf w79 3).a (unitOf w79 3).hs (iA (insnOf w79 3))
      false (iSrcH (insnOf w79 3))) (shX (unitOf w79 3) (iShape (insnOf w79 3))) ∧ GoodRange w79 (srcUnit 3) (operandBase
      (unitOf w79 3) (unitOf w79 3).a (unitOf w79 3).hs (iDstA (insnOf w79 3)) false (iDstH (insnOf w79 3))) (shX (unitOf
      w79 3) (iShape (insnOf w79 3)))) ∧
    (AtInsn w80 3 opPREF ∧ filterInsn w80 (unitOf w80 3) (unitOf w80 3).a (unitOf w80 3).hs (insnOf w80 3) = none) :=
  ⟨by refine ⟨atInsn (by decide +kernel), ?_, ?_, ?_, ?_, ?_, ?_, ?_, ?_, ?_⟩ <;> decide +kernel,
   by refine ⟨atInsn (by decide +kernel), ?_⟩ <;> decide +kernel⟩

/-- Witness: Semaphores and trigger counts. -/
theorem wit_SemaphoresAndTriggers :
    (semQueue w81 (iSem (insnOf w81 3)) (iSide (insnOf w81 3)) = [] ∧ AtInsn w81 3 opWAITS ∧ semGranted w81 (SemWho.stream
      3) = false ∧ semWaiting w81 (SemWho.stream 3) = false) ∧
    (semQueue w83 (iSem (insnOf w83 3)) (iSide (insnOf w83 3)) = [] ∧ AtInsn w83 3 opSIGS) ∧
    (MayWrite live Port.a (pgSEMA 3) 132) ∧
    (MayWrite live Port.a (pgSEMA 3) 128) ∧
    (trigClrOff 99 = some 192 ∧ MayWrite w84 Port.a 99 192) ∧
    (trigClrOff 128 = some ((trigClrOff 128).getD 0) ∧ MayWrite live Port.a 128 ((trigClrOff 128).getD 0)) :=
  by
    refine ⟨by refine ⟨?_, atInsn (by decide +kernel), ?_, ?_⟩ <;> decide +kernel,
      by refine ⟨?_, atInsn (by decide +kernel)⟩ <;> decide +kernel,
      ?_, ?_, ?_, ?_⟩
    all_goals decide +kernel

/-- Witness: DRAIN, MARK, the ends of a program, run-ahead and the stream fence. -/
theorem wit_DrainMarkEndAndRunAhead :
    (AtInsn w85 3 opDRAIN) ∧
    (AtInsn w86 3 opMARK) ∧
    ((runningRun w87 3).isSome = true ∧ rd64 w87 (pgSTRM 3) 144 ≠ 0 ∧ nextMark (unitOf w87 3) markFuel (unitOf w87 3).pc
      (unitOf w87 3).c = some 0 ∧ (unitOf w87 3).missed.contains (bitsOf (SMap.get 0 0 (unitOf w87 3).prog) 39 32) = false
      ∧ rd64 w87 (pgSTRM 3) 144 + bitsOf (SMap.get 0 0 (unitOf w87 3).prog) 31 0 < now w87) ∧
    (runningRun w88 3 = some (mkJob 160 1 []) ∧ AtInsn w88 3 opEND) ∧
    (runningRun w89 3 = some (mkJob 160 1 []) ∧ (unitOf w89 3).progLen ≤ (unitOf w89 3).pc) ∧
    (runningRun w90 3 = some lateRun ∧ pastDeadline w90 lateRun.deadline = true) ∧
    ((runningRun w91 3).isSome = true ∧ pageOn w91 (pgSTRM 3) = true ∧ (raOf (unitOf w91 3)).pc < (unitOf w91 3).progLen ∧
      iOp (SMap.get 0 (raOf (unitOf w91 3)).pc (unitOf w91 3).prog) = opSETA) ∧
    (MewsWf w92 ∧ runningRun w92 3 = some (mkJob 160 1 []) ∧ (raOf (unitOf w92 3)).pc < (unitOf w92 3).progLen ∧ iOp x8 =
      opXFER ∧ iDstKind x8 = 2 ∧ raBlind w92 3 (raOf (unitOf w92 3)) x8 = false ∧ filterInsn w92 (unitOf w92 3) (raRegs w92
      3 (raOf (unitOf w92 3))) (raOf (unitOf w92 3)).hs x8 = none ∧ tentDue w92 3 (raOf (unitOf w92 3)) = true ∧ tentOut
      w92 3 < 4 ∧ 1 ≤ bufSize (unitOf w92 3) (iShape x8) ∧ bufSize (unitOf w92 3) (iShape x8) ≤ 4194304 ∧ fenceBit w92
      pgMEWS = false ∧ ownerFenced w92 (mkJob 160 1 []).owner = false ∧ homePool w92 (bufSize (unitOf w92 3) (iShape
      x8)).toNat = some 0 ∧ openNow w92 0 false = true) ∧
    (MayWrite live Port.a (pgSTRM 3) 152 ∧ (unitOf live 3).fencing = false) ∧
    (MayWrite w88 Port.a (pgSTRM 3) 152 ∧ (unitOf w88 3).fencing = false) ∧
    (pageOn w93 (pgSTRM 3) = true ∧ (unitOf w93 3).fencing = true) :=
  by
    refine ⟨atInsn (by decide +kernel),
      atInsn (by decide +kernel),
      ?_,
      by refine ⟨?_, atInsn (by decide +kernel)⟩ <;> decide +kernel,
      ?_, ?_, ?_,
      by refine ⟨mewsWf (by decide +kernel), ?_, ?_, ?_, ?_, ?_, ?_, ?_, ?_, ?_, ?_, ?_, ?_, ?_, ?_⟩ <;> decide +kernel,
      ?_, ?_, ?_⟩
    all_goals decide +kernel

/-- Witness: Layers start and end; blocks and chain halves. -/
theorem wit_LayersBlocksAndChains :
    ((pageJobs w94 (pgTC 2)).queue = [layersJob] ∧ (pageJobs w94 (pgTC 2)).running = [] ∧ depsMet w94 (pgTC 2) layersJob
      (tcAddrs layersJob) = true ∧ chainReady w94 2 layersJob = true ∧ pastDeadline w94 layersJob.deadline = false ∧ tcTrig
      layersJob = none) ∧
    (layerDue w95 2 = some layersJob ∧ pageOn w95 (pgTC 2) = true ∧ GoodRange w95 (srcJob layersJob) (tcList layersJob +
      128 * (coreOf w95 2).layer) 128 ∧ pastDeadline w95 layersJob.deadline = false ∧ layerBad 2 (getBytes w95 (tcList
      layersJob + 128 * (coreOf w95 2).layer) 128) = none ∧ layerCapacity (getBytes w95 (tcList layersJob + 128 * (coreOf
      w95 2).layer) 128) = 0) ∧
    (layerDue w96 2 = some layersJob ∧ pageOn w96 (pgTC 2) = true ∧ GoodRange w96 (srcJob layersJob) (tcList layersJob +
      128 * (coreOf w96 2).layer) 128 ∧ pastDeadline w96 layersJob.deadline = false ∧ layerBad 2 (getBytes w96 (tcList
      layersJob + 128 * (coreOf w96 2).layer) 128) = some (32, 6)) ∧
    (running w97 (pgTC 2) = some layersJob ∧ (coreOf w97 2).active = true ∧ gBlocks (coreOf w97 2).desc ≤ (coreOf w97
      2).blk ∧ (wHalf (coreOf w97 2) 0).full = false ∧ (wHalf (coreOf w97 2) 1).full = false ∧ pageOn w97 (pgTC 2) = true) ∧
    (pageOn w99 (pgTC 2) = true ∧ (running w99 (pgTC 2)).isSome = true ∧ (coreOf w99 2).active = true ∧ (coreOf w99 2).blk
      < gBlocks (coreOf w99 2).desc ∧ ldOPC (coreOf w99 2).desc ≠ 12 ∧ (usesBit (coreOf w99 2).desc 0 = false ∨ (coreOf w99
      2).wHeld = true) ∧ (coreOf w99 2).aHeld = true ∧ (usesBit (coreOf w99 2).desc 3 = false ∨ (coreOf w99 2).xHeld =
      true) ∧ (coreOf w99 2).oHeld = true ∧ (coreOf w99 2).oNext ≤ 1) ∧
    (pageOn w101 (pgTC 2) = true ∧ (running w101 (pgTC 2)).isSome = true ∧ (coreOf w101 2).active = true ∧ (coreOf w101
      2).blk < gBlocks (coreOf w101 2).desc ∧ ldOPC (coreOf w101 2).desc ≠ 12 ∧ (usesBit (coreOf w101 2).desc 0 = false ∨
      (coreOf w101 2).wHeld = true) ∧ (coreOf w101 2).aHeld = false ∧ semGranted w101 (SemWho.tc 2 1) = false ∧ semWaiting
      w101 (SemWho.tc 2 1) = false ∧ semQueue w101 (ldSem (coreOf w101 2).desc 1) false = [] ∧ semCount w101 (ldSem (coreOf
      w101 2).desc 1) false = 0) ∧
    (pageOn w102 (pgTC 2) = true ∧ 2 ≠ 0 ∧ pageOn w102 (pgTC (2 - 1)) = true ∧ (coreOf w102 2).active = true ∧ (coreOf w102
      (2 - 1)).active = true ∧ hasNext (coreOf w102 (2 - 1)).desc = true ∧ (wHalf (coreOf w102 (2 - 1)) (coreOf w102 (2 -
      1)).wSend).full = true ∧ (wHalf (coreOf w102 (2 - 1)) (coreOf w102 (2 - 1)).wSend).sent = false ∧ (ldPos (coreOf w102
      (2 - 1)).desc ≠ 0 ∨ wTotal (coreOf w102 (2 - 1)).desc ≤ (coreOf w102 (2 - 1)).wTaken ∨ (wHalf (coreOf w102 (2 - 1))
      (coreOf w102 (2 - 1)).wNext).full = true) ∧ (ldPos (coreOf w102 2).desc = 0 ∨ (coreOf w102 2).wTaken < wTotal (coreOf
      w102 2).desc) ∧ chainGeometry (coreOf w102 2).desc = chainGeometry (coreOf w102 (2 - 1)).desc ∧ ldPos (coreOf w102
      2).desc = ldPos (coreOf w102 (2 - 1)).desc + 1 ∧ (wHalf (coreOf w102 2) (coreOf w102 (2 - 1)).wSend).full = false) ∧
    (pageOn w103 (pgTC 2) = true ∧ 2 ≠ 0 ∧ pageOn w103 (pgTC (2 - 1)) = true ∧ (coreOf w103 2).active = true ∧ (coreOf w103
      (2 - 1)).active = true ∧ hasNext (coreOf w103 (2 - 1)).desc = true ∧ (wHalf (coreOf w103 (2 - 1)) (coreOf w103 (2 -
      1)).wSend).full = true ∧ (wHalf (coreOf w103 (2 - 1)) (coreOf w103 (2 - 1)).wSend).sent = false ∧ (ldPos (coreOf w103
      (2 - 1)).desc ≠ 0 ∨ wTotal (coreOf w103 (2 - 1)).desc ≤ (coreOf w103 (2 - 1)).wTaken ∨ (wHalf (coreOf w103 (2 - 1))
      (coreOf w103 (2 - 1)).wNext).full = true) ∧ (ldPos (coreOf w103 2).desc = 0 ∨ (coreOf w103 2).wTaken < wTotal (coreOf
      w103 2).desc) ∧ running w103 (pgTC 2) = some layersJob ∧ (chainGeometry (coreOf w103 2).desc ≠ chainGeometry (coreOf
      w103 (2 - 1)).desc ∨ ldPos (coreOf w103 2).desc ≠ ldPos (coreOf w103 (2 - 1)).desc + 1)) :=
  by decide +kernel

/-- Witness: BIND, SEQ, DRAFT and STOP. -/
theorem wit_GenerationJobs :
    (depsMet w104 pgGEN bindJ (genAddrs bindJ) = true ∧ pastDeadline w104 bindJ.deadline = false ∧ List.find? (fun x ↦
      decide (x.op = 1)) (pageJobs w104 pgGEN).queue = some bindJ ∧ busyMask w104 = 0 ∧ bindingJob w104 = none) ∧
    (depsMet w105 pgGEN bindJ (genAddrs bindJ) = true ∧ pastDeadline w105 bindJ.deadline = false ∧ bindingJob w105 = some
      bindJ ∧ pageOn w105 pgGEN = true ∧ GoodRange w105 ReqSource.generation (leAt bindJ.desc 32 8) 64 ∧ genImageBad w105
      x9 = none ∧ GoodRange w105 ReqSource.generation (leAt x9 8 8) (32 * leAt x9 4 4) ∧ actionsBad w105 x9 (leAt x9 8 8)
      (leAt x9 4 4) 0 = none ∧ 4194304 + 262144 * leAt x9 16 2 ≤ leAt bindJ.desc 48 4 * 65536) ∧
    (depsMet w106 pgGEN seqJ (genAddrs seqJ) = true ∧ pastDeadline w106 seqJ.deadline = false ∧ List.find? (fun x ↦ decide
      (x.op = 2)) (pageJobs w106 pgGEN).queue = some seqJ ∧ bindingJob w106 = none ∧ w106.gen.bound = true ∧ ((slotOf w106
      (bitsOf (byteAt seqJ.desc 32) 3 0)).st = 0 ∧ seqContinue seqJ = false ∨ (slotOf w106 (bitsOf (byteAt seqJ.desc 32) 3
      0)).st = 2 ∧ seqContinue seqJ = true) ∧ (slotOf w106 (bitsOf (byteAt seqJ.desc 32) 3 0)).next + seqPromptLen seqJ ≤
      32767) ∧
    (depsMet w107 pgGEN draftJ (genAddrs draftJ) = true ∧ pastDeadline w107 draftJ.deadline = false ∧ List.find? (fun x ↦
      decide (x.op = 3)) (pageJobs w107 pgGEN).queue = some draftJ ∧ bindingJob w107 = none ∧ w107.gen.bound = true) ∧
    (depsMet w108 pgGEN bindJ (genAddrs bindJ) = true ∧ pastDeadline w108 bindJ.deadline = false ∧ List.find? (fun x ↦
      decide (x.op = 1)) (pageJobs w108 pgGEN).queue = some bindJ ∧ busyMask w108 ≠ 0 ∧ bindingJob w108 = none) ∧
    (depsMet w109 pgGEN contJ (genAddrs contJ) = true ∧ pastDeadline w109 contJ.deadline = false ∧ List.find? (fun x ↦
      decide (x.op = 2)) (pageJobs w109 pgGEN).queue = some contJ ∧ bindingJob w109 = none ∧ w109.gen.bound = true ∧
      ((slotOf w109 (bitsOf (byteAt contJ.desc 32) 3 0)).st = 0 ∧ seqContinue contJ = false ∨ (slotOf w109 (bitsOf (byteAt
      contJ.desc 32) 3 0)).st = 2 ∧ seqContinue contJ = true) ∧ (slotOf w109 (bitsOf (byteAt contJ.desc 32) 3 0)).next +
      seqPromptLen contJ ≤ 32767) ∧
    (depsMet w110 pgGEN stopJ (genAddrs stopJ) = true ∧ pastDeadline w110 stopJ.deadline = false ∧ List.find? (fun x ↦
      decide (x.op = 4)) (pageJobs w110 pgGEN).queue = some stopJ ∧ bindingJob w110 = none) :=
  by decide +kernel

/-- Witness: Generation steps are planned and end. -/
theorem wit_StepsArePlannedAndEnd :
    (w113.gen.step = false ∧ w113.gen.bound = true ∧ enabled w113 pgGEN = true ∧ pageOn w113 pgGEN = true ∧
      w113.gen.retryAt ≤ now w113 ∧ (List.any w113.gen.slots fun e ↦ decide (e.snd.st = 1)) = true ∧ planningReady w113 =
      true ∧ (∀ (n : Nat), n < 16 → (slotOf w113 n).stop = false ∧ (slotOf w113 n).drafts = []) ∧ planRows w113 (List.range
      16) (genMaxRows w113) ≠ [] ∧ (∀ (r : Nat × Nat × Bool), r ∈ planRows w113 (List.range 16) (genMaxRows w113) → ∀ (k :
      Nat), k ∈ pageKeys w113 ((slotOf w113 r.fst).next + r.snd.fst - 1) → SMap.get 0 k (slotOf w113 r.fst).pages ≠ 0) ∧ (∀
      (r : Nat × Nat × Bool), r ∈ planRows w113 (List.range 16) (genMaxRows w113) → ∀ (j : Job), (slotOf w113 r.fst).job =
      some j → promptLeft (slotOf w113 r.fst) ≠ 0 → GoodRange w113 ReqSource.generation (seqPrompt j + 4 * (slotOf w113
      r.fst).fed) (4 * r.snd.fst))) ∧
    (w114.gen.step = true ∧ w114.gen.nextAct = w114.gen.actionCount ∧ w114.gen.sent = [] ∧ w114.gen.mover = [] ∧
      w114.gen.plan = [plan1] ∧ plan1.ns = 0 ∧ pageOn w114 pgGEN = true ∧ promptLeft (slotOf w114 plan1.slot) ≠ 0 ∧ (slotOf
      w114 plan1.slot).ending = 0) :=
  by decide +kernel

/-- Witness: Actions, KV transfers and sampled tokens. -/
theorem wit_ActionsTransfersAndTokens :
    (pageOn w116 pgGEN = true ∧ w116.gen.step = true ∧ w116.gen.nextAct < w116.gen.actionCount ∧ canUse w116
      ReqSource.generation w116.gen.actions 32 = true ∧ canUse w116 ReqSource.generation w116.gen.ws 1 = true ∧ GoodRange
      w116 ReqSource.generation (w116.gen.actions + 32 * w116.gen.nextAct) 32 ∧ actKind (getBytes w116 (w116.gen.actions +
      32 * w116.gen.nextAct) 32) ≠ 1 ∧ actKind (getBytes w116 (w116.gen.actions + 32 * w116.gen.nextAct) 32) ≠ 2) ∧
    (pageOn w118 pgGEN = true ∧ w118.gen.step = true ∧ w118.gen.nextAct < w118.gen.actionCount ∧ canUse w118
      ReqSource.generation w118.gen.actions 32 = true ∧ canUse w118 ReqSource.generation w118.gen.ws 1 = true ∧ GoodRange
      w118 ReqSource.generation (w118.gen.actions + 32 * w118.gen.nextAct) 32 ∧ (actKind x10 = 1 ∨ actKind x10 = 2) ∧
      (pageJobs w118 x11).queue.length < 4 ∧ pageOn w118 x11 = true ∧ goingOff w118 x11 = false ∧ GoodRange w118
      ReqSource.generation (leAt x10 8 8) (actSize w118 x10) ∧ (byteAt x10 3 ≠ 0 → GoodRange w118 ReqSource.generation
      (leAt x10 16 8) (8 * byteAt x10 3))) ∧
    (pageOn actingSeq pgGEN = true ∧ actingSeq.gen.step = true ∧ actingSeq.gen.nextAct < actingSeq.gen.actionCount ∧ canUse
      actingSeq ReqSource.generation actingSeq.gen.actions 32 = true ∧ canUse actingSeq ReqSource.generation
      actingSeq.gen.ws 1 = true ∧ GoodRange actingSeq ReqSource.generation (actingSeq.gen.actions + 32 *
      actingSeq.gen.nextAct) 32 ∧ (actKind x12 = 1 ∨ actKind x12 = 2) ∧ (pageJobs actingSeq x13).queue.length < 4 ∧ pageOn
      actingSeq x13 = true ∧ goingOff actingSeq x13 = false ∧ GoodRange actingSeq ReqSource.generation (leAt x12 8 8)
      (actSize actingSeq x12) ∧ (byteAt x12 3 ≠ 0 → GoodRange actingSeq ReqSource.generation (leAt x12 16 8) (8 * byteAt
      x12 3))) ∧
    (pageOn w121 pgGEN = true ∧ w121.gen.mover = [act1 true] ∧ (act1 true).load = true ∧ pageOn w121 (pgTC (act1
      true).core) = true ∧ (act1 true).slot = some plan1.slot ∧ List.find? (fun x ↦ decide (x.slot = plan1.slot))
      w121.gen.plan = some plan1 ∧ (act1 true).sem < 256 ∧ semQueue w121 (act1 true).sem true = [] ∧ 1 ≤ semCount w121
      (act1 true).sem true ∧ semQueue w121 (act1 true).sem false = [] ∧ semCount w121 (act1 true).sem false < 255 ∧
      semGranted w121 (SemWho.kv (act1 true).core 0) = false ∧ semWaiting w121 (SemWho.kv (act1 true).core 0) = false ∧ (∀
      g < ceilDiv (min (act1 true).nbTok (plan1.pos + plan1.nrows - (act1 true).tok)) 16, ∀ b < w121.gen.headDim / 32,
      GoodRange w121 ReqSource.generation (kvRun w121 plan1.slot (act1 true).layer ((act1 true).tok / 16 + g) (act1
      true).values (act1 true).head b) 1024)) ∧
    (pageOn w122 pgGEN = true ∧ w122.gen.mover = [kvAct2] ∧ kvAct2.load = true ∧ pageOn w122 (pgTC kvAct2.core) = true ∧
      kvAct2.slot = some plan1.slot ∧ List.find? (fun x ↦ decide (x.slot = plan1.slot)) w122.gen.plan = some plan1 ∧
      kvAct2.sem < 256 ∧ semQueue w122 kvAct2.sem true = [] ∧ 1 ≤ semCount w122 kvAct2.sem true ∧ semQueue w122 kvAct2.sem
      false = [] ∧ semCount w122 kvAct2.sem false < 255 ∧ semGranted w122 (SemWho.kv kvAct2.core 0) = false ∧ semWaiting
      w122 (SemWho.kv kvAct2.core 0) = false ∧ (∀ g < ceilDiv (min kvAct2.nbTok (plan1.pos + plan1.nrows - kvAct2.tok)) 16,
      ∀ b < w122.gen.headDim / 32, GoodRange w122 ReqSource.generation (kvRun w122 plan1.slot kvAct2.layer (kvAct2.tok / 16
      + g) kvAct2.values kvAct2.head b) 1024)) ∧
    (pageOn w123 pgGEN = true ∧ w123.gen.mover = [act1 false] ∧ (act1 false).load = false ∧ pageOn w123 (pgTC (act1
      false).core) = true ∧ (act1 false).sem < 256 ∧ semQueue w123 (act1 false).sem true = [] ∧ 1 ≤ semCount w123 (act1
      false).sem false ∧ semQueue w123 (act1 false).sem false = [] ∧ semCount w123 (act1 false).sem true < 255 ∧ semGranted
      w123 (SemWho.kv (act1 false).core 2) = false ∧ semWaiting w123 (SemWho.kv (act1 false).core 2) = false ∧ fenceBit
      w123 (pgTC (act1 false).core) = false ∧ (∀ (x : Nat × Nat), x ∈ List.take (SMap.get 0 (b2n (act1 false).hs)
      (endpointOf w123 (pgTC (act1 false).core) 2).lens / (2 * w123.gen.kvHeads * w123.gen.headDim * 2)) (List.drop (act1
      false).rows (kvRows w123 (act1 false))) → canUse w123 ReqSource.generation (kvRun w123 x.fst (act1 false).layer
      (x.snd / 16) false 0 0) (pageBytes w123) = true)) ∧
    (pageOn w125 pgGEN = true ∧ w125.gen.mover = [store2] ∧ store2.load = false ∧ pageOn w125 (pgTC store2.core) = true ∧
      store2.sem < 256 ∧ semQueue w125 store2.sem true = [] ∧ 1 ≤ semCount w125 store2.sem false ∧ semQueue w125 store2.sem
      false = [] ∧ semCount w125 store2.sem true < 255 ∧ semGranted w125 (SemWho.kv store2.core 2) = false ∧ semWaiting
      w125 (SemWho.kv store2.core 2) = false ∧ fenceBit w125 (pgTC store2.core) = false ∧ (∀ (x : Nat × Nat), x ∈ List.take
      (SMap.get 0 (b2n store2.hs) (endpointOf w125 (pgTC store2.core) 2).lens / (2 * w125.gen.kvHeads * w125.gen.headDim *
      2)) (List.drop store2.rows (kvRows w125 store2)) → canUse w125 ReqSource.generation (kvRun w125 x.fst store2.layer
      (x.snd / 16) false 0 0) (pageBytes w125) = true)) ∧
    (pageOn samplg pgGEN = true ∧ samplg.gen.step = true ∧ samplg.gen.sampled = false ∧ samplg.gen.plan = [plan2] ∧
      plan2.ns = 1 ∧ plan2.drafts = [] ∧ (slotOf samplg plan2.slot).job = some seqJ ∧ samplg.gen.semCand < 256 ∧ semQueue
      samplg samplg.gen.semCand false = [] ∧ 1 ≤ semCount samplg samplg.gen.semCand false ∧ semGranted samplg
      SemWho.sampler = false ∧ semWaiting samplg SemWho.sampler = false ∧ (slotOf samplg plan2.slot).emitted < seqMaxNew
      seqJ ∧ GoodRange samplg ReqSource.generation (seqOut seqJ + 4 * (slotOf samplg plan2.slot).emitted) 4) :=
  by decide +kernel

/-- Witness: Interfaces fill their rings. -/
theorem wit_InterfacesFillTheirRings :
    (accepts w126 (pgCAN 1) = true ∧ (rdF w126 (pgCAN 1) 160 1 0 = 1 ∨ rdF w126 (pgCAN 1) 160 1 0 = 2) ∧ canState w126 1 ≠
      2 ∧ canPasses w126 1 frm = true ∧ RingTakes w126 (pgCAN 1) rxSpec) ∧
    (accepts w127 (pgCAN 1) = true ∧ (rdF w127 (pgCAN 1) 160 1 0 = 1 ∨ rdF w127 (pgCAN 1) 160 1 0 = 2) ∧ canState w127 1 ≠
      2 ∧ canPasses w127 1 frm = true ∧ rdB w127 (pgCAN 1) 136 31 = false) ∧
    ((spiOf spiBusy 1).active = true ∧ (spiOf spiBusy 1).len ≤ 64 ∧ accepts spiBusy (pgSPI 1) = true ∧ RingTakes spiBusy
      (pgSPI 1) rxSpec) ∧
    (accepts w128 (pgETH 1) = true ∧ rdB w128 (pgETH 1) 164 0 = true ∧ ethF.length ≤ 1518 ∧ beAt ethF 12 2 ≠ 34824 ∧
      ethAccepts w128 1 ethF = true ∧ udpOf ethF = none ∧ RingTakes w128 (pgETH 1) ethSpec) ∧
    (accepts w129 (pgUART 1) = true ∧ (uartOf w129 1).buf ≠ [] ∧ (uartOf w129 1).buf.length < 111 ∧ rdB w129 (pgUART 1) 160
      25 = false ∧ RingTakes w129 (pgUART 1) rxSpec) ∧
    (accepts w130 (pgUART 1) = true ∧ (uartOf w130 1).buf ≠ [] ∧ (uartOf w130 1).buf.length < 111 ∧ rdB w130 (pgUART 1) 160
      25 = true ∧ RingTakes w130 (pgUART 1) rxSpec) ∧
    (accepts w130 (pgUART 1) = true ∧ (uartOf w130 1).buf ≠ [] ∧ (uartOf w130 1).buf.length < 111 ∧ 11 ≠ 10) :=
  by decide +kernel

/-- Witness: Cameras store frames; frame store and ring commands. -/
theorem wit_CamerasAndFrameStore :
    (boundCam w131 7 3 = some 15 ∧ (camOf w131 15).active = false ∧ fenceBit w131 pgFST = false ∧ (slotF (camOf w131 15)
      ((lastId w131 15 + 1) % 65536 % 8)).pins = []) ∧
    (boundCam w132 7 3 = some 15 ∧ (camOf w132 15).active = true ∧ (camOf w132 15).bad = 0 ∧ (camOf w132 15).lines < (camOf
      w132 15).height ∧ linePixels (camOf w132 15).dt [1, 2, 3, 4] = (camOf w132 15).width ∧ (lineBytes (camOf w132 15).dt
      (pitchOf (camOf w132 15).dt (camOf w132 15).width) [1, 2, 3, 4]).length = pitchOf (camOf w132 15).dt (camOf w132
      15).width ∧ GoodRange w132 ReqSource.intake (slotAddr (camOf w132 15) ((camOf w132 15).id % 8) + 64 + pitchOf (camOf
      w132 15).dt (camOf w132 15).width * (camOf w132 15).lines) (pitchOf (camOf w132 15).dt (camOf w132 15).width)) ∧
    (boundCam w132 7 3 = some 15 ∧ (camOf w132 15).active = true ∧ (camOf w132 15).bad = 0) ∧
    (boundCam w133 7 3 = some 15 ∧ (camOf w133 15).active = true ∧ x14.bad = 0 ∧ x14.height ≤ x14.lines ∧ x14.miss = false
      ∧ (slotF x14 (x14.id % 8)).id = x14.id ∧ (slotF x14 (x14.id % 8)).hidden = false ∧ GoodRange w133 ReqSource.intake
      (slotAddr x14 (x14.id % 8)) 64) ∧
    (boundCam w134 7 3 = some 15 ∧ (camOf w134 15).active = true ∧
      { (camOf w134 15) with corrected := (camOf w134 15).corrected || false : FstCam }.bad ≠ 0) ∧
    (boundCam w135 7 3 = some 15 ∧ (camOf w135 15).active = true ∧
      { (camOf w135 15) with corrected := (camOf w135 15).corrected || true : FstCam }.bad ≠ 0) ∧
    (accepts w136 (pgCSI 7) = true) ∧
    (portLive live Port.b = true ∧ pageOn live pgFST = true) ∧
    (MayWrite w137 Port.a pgFST (camReg 15 44)) ∧
    (MayWrite camCfg Port.a pgFST (camReg 15 0) ∧ camOn camCfg 15 = false ∧ flag (2 ^ 31 + 7 + 48 + 10752) 31 = true) ∧
    (MayWrite camCfg Port.a pgFST (camReg 15 0) ∧ camOn camCfg 15 = false ∧ flag (2 ^ 31 + 7 + 48 + 10496) 31 = true) ∧
    (ringSpec 218 false = some rxSpec ∧ MayWrite live Port.a 218 rxSpec.cfg ∧ ringOn live 218 rxSpec = false ∧ flag (2 ^ 31
      + 6) 31 = true) ∧
    (ringSpec 218 false = some rxSpec ∧ MayWrite w138 Port.a 218 rxSpec.cfg ∧ ringOn w138 218 rxSpec = false ∧ flag (2 ^ 31
      + 6) 31 = true) ∧
    (ringSpec 216 true = some x15 ∧ MayWrite live Port.a 216 x15.cfg ∧ ringOn live 216 x15 = false ∧ flag (2 ^ 31 + 10) 31
      = true) :=
  by decide +kernel

/-- Witness: Ethernet, CAN, SPI, UART and GPIO. -/
theorem wit_SerialInterfacesAct :
    (15 < 1024 ∧ MayWrite w139 Port.a (pgETH 1) 208 ∧ rdB w139 (pgETH 1) 200 31 = true) ∧
    (16 < 1024 ∧ MayWrite w139 Port.a (pgETH 1) 208 ∧ rdB w139 (pgETH 1) 200 31 = true) ∧
    (accepts w140 (pgETH 1) = true ∧ rdB w140 (pgETH 1) 164 0 = true ∧ rdB w140 (pgETH 1) 200 31 = true ∧ rdF w140 (pgETH
      1) 204 9 0 ≠ (ethOf w140 1).tail ∧ (inRing w140 (pgETH 1) true).depth ≤ 1024 ∧ GoodRange w140 ReqSource.intake x16
      2048 ∧ 60 ≤ leAt (getBytes w140 x16 2048) 0 2 ∧ leAt (getBytes w140 x16 2048) 0 2 ≤ 1518 ∧ byteAt (getBytes w140 x16
      2048) 2 = 0 ∧ zerosAt (getBytes w140 x16 2048) 3 13 = true) ∧
    (accepts lidar (pgETH 1) = true ∧ blockDue lidar 1 1 = true) ∧
    (pageOn w141 (pgETH 1) = true ∧ (rdF w141 (pgETH 1) 160 1 0 ≠ 0 ∨ false = false) ∧ rdB w141 (pgETH 1) 164 0 ≠ false) ∧
    (pageOn w142 (pgETH 1) = true ∧ (rdF w142 (pgETH 1) 160 1 0 ≠ 0 ∨ true = false) ∧ rdB w142 (pgETH 1) 164 0 ≠ true) ∧
    (accepts w143 (pgCAN 1) = true ∧ rdF w143 (pgCAN 1) 160 1 0 = 1 ∧ canState w143 1 ≠ 2) ∧
    (accepts w143 (pgCAN 1) = true ∧ rdF w143 (pgCAN 1) 160 1 0 = 1 ∧ canState w143 1 = 0) ∧
    (MayWrite w145 Port.a (pgCAN 1) 176) ∧
    (accepts w146 (pgSPI 1) = true ∧ spiDue w146 1 (some (3, true)) = true ∧ (spiOf w146 1).active = false) ∧
    (accepts w147 (pgSPI 1) = true ∧ spiDue w147 1 none = true ∧ (spiOf w147 1).active = false) ∧
    (MayWrite live Port.a (pgUART 1) 164) ∧
    (MayWrite w148 Port.a (pgUART 1) 164) ∧
    (pageOn w149 (pgUART 1) = true ∧ (uartOf w149 1).fifo = [7]) ∧
    (accepts w150 pgGPIO = true ∧ rdB w150 pgGPIO 128 15 = false ∧ rdF w150 pgGPIO 140 (2 * 15 + 1) (2 * 15) = if true =
      true then 1 else 2) ∧
    (accepts w151 pgGPIO = true ∧ rdB w151 pgGPIO 128 0 = false ∧ rdF w151 pgGPIO 140 (2 * 0 + 1) (2 * 0) = if false = true
      then 1 else 2) :=
  by decide +kernel

/-- Witness: Vision engines start and run tile by tile. -/
theorem wit_VisionRunsTileByTile :
    (AtHead w152 (pgVIS 0) warpJ [] (visAddrs 0 warpJ) ∧ visHold w152 0 warpJ = 0 ∧ visTrig 0 warpJ = none ∧ clrFlags warpJ
      = false ∧ 1 ≤ leAt warpJ.desc 36 2 ∧ 1 ≤ leAt warpJ.desc 38 2 ∧ GoodRange w152 ReqSource.vision (leAt warpJ.desc 48
      8) 64 ∧ lookupReason w152 (byteAt warpJ.desc 32) (leAt warpJ.desc 34 2) = 0 ∧ GoodRange w152 ReqSource.vision x17 64
      ∧ dtKnown (byteAt (getBytes w152 x17 64) 3) = true ∧ 1 ≤ leAt (getBytes w152 x17 64) 4 2 ∧ leAt (getBytes w152 x17
      64) 4 2 ≤ 4096 ∧ 1 ≤ leAt (getBytes w152 x17 64) 6 2 ∧ leAt (getBytes w152 x17 64) 6 2 ≤ 3072 ∧ dataAt w152 x17 (64 +
      pitchOf (byteAt (getBytes w152 x17 64) 3) (leAt (getBytes w152 x17 64) 4 2) * leAt (getBytes w152 x17 64) 6 2) 64 =
      true) ∧
    (AtHead w153 (pgVIS 0) warpJ [] (visAddrs 0 warpJ) ∧ visHold w153 0 warpJ = 0 ∧ visTrig 0 warpJ = none ∧ clrFlags warpJ
      = false ∧ 1 ≤ leAt warpJ.desc 36 2 ∧ 1 ≤ leAt warpJ.desc 38 2 ∧ GoodRange w153 ReqSource.vision (leAt warpJ.desc 48
      8) 64 ∧ lookupReason w153 (byteAt warpJ.desc 32) (leAt warpJ.desc 34 2) ≠ 0) ∧
    (running w154 (pgVIS 1) = some x21 ∧ pageOn w154 (pgVIS 1) = true ∧ pastDeadline w154 x21.deadline = false ∧ (visOf
      w154 1).absent = false ∧ x19.snd.snd * imgPitch 1 x19.snd.fst ≤ 2 ^ 31 ∧ GoodRange w154 ReqSource.vision (x20.fst +
      64 + min (2 * x22.snd.snd.fst - 2) (x20.snd.snd - 1) * imgPitch 1 x20.snd.fst) ((min (2 * (x22.snd.snd.fst +
      x22.snd.snd.snd - 1) + 2) (x20.snd.snd - 1) + 1 - min (2 * x22.snd.snd.fst - 2) (x20.snd.snd - 1)) * imgPitch 1
      x20.snd.fst) ∧ GoodRange w154 ReqSource.vision (x19.fst + 64) (x19.snd.snd * imgPitch 1 x19.snd.fst) ∧ (visFlagEn 1
      x21 = true → ready w154 pgRES = true ∧ bankBad w154 x23 = false ∧ markOf w154 x23 = Mark.good)) ∧
    (running w156 (pgVIS 1) = some pyrJ ∧ pageOn w156 (pgVIS 1) = true ∧ pastDeadline w156 pyrJ.deadline = false ∧ (visOf
      w156 1).absent = false ∧ x25.snd.snd * imgPitch 1 x25.snd.fst ≤ 2 ^ 31 ∧ GoodRange w156 ReqSource.vision (x26.fst +
      64 + min (2 * x27.snd.snd.fst - 2) (x26.snd.snd - 1) * imgPitch 1 x26.snd.fst) ((min (2 * (x27.snd.snd.fst +
      x27.snd.snd.snd - 1) + 2) (x26.snd.snd - 1) + 1 - min (2 * x27.snd.snd.fst - 2) (x26.snd.snd - 1)) * imgPitch 1
      x26.snd.fst) ∧ GoodRange w156 ReqSource.vision (x25.fst + 64) (x25.snd.snd * imgPitch 1 x25.snd.fst) ∧ (visFlagEn 1
      pyrJ = true → ready w156 pgRES = true ∧ bankBad w156 x28 = false ∧ markOf w156 x28 = Mark.good)) :=
  by decide +kernel

/-- Witness: SETUP, FRAME and GRID. -/
theorem wit_FusionJobsEnd :
    (AtHead w157 pgFUS (setupJ 1) [] (fusAddrs (setupJ 1)) ∧ fusTrig (setupJ 1) = none ∧ (setupJ 1).op = 1 ∧ 16 ≤ leAt
      (setupJ 1).desc 40 4 ∧ GoodRange w157 ReqSource.fusion (leAt (setupJ 1).desc 32 8) 64 ∧ bitOf (byteAt (setupJ 1).desc
      44) 0 = true) ∧
    (AtHead w158 pgFUS (setupJ 0) [] (fusAddrs (setupJ 0)) ∧ fusTrig (setupJ 0) = none ∧ (setupJ 0).op = 1 ∧ 16 ≤ leAt
      (setupJ 0).desc 40 4 ∧ GoodRange w158 ReqSource.fusion (leAt (setupJ 0).desc 32 8) 64 ∧ bitOf (byteAt (setupJ 0).desc
      44) 0 = false ∧ getBytes w158 (leAt (setupJ 0).desc 32 8) 64 = (wsOf w158 (leAt (setupJ 0).desc 32 8)).header) ∧
    (AtHead w159 pgFUS (setupJ 0) [] (fusAddrs (setupJ 0)) ∧ fusTrig (setupJ 0) = none ∧ (setupJ 0).op = 1 ∧ 16 ≤ leAt
      (setupJ 0).desc 40 4 ∧ GoodRange w159 ReqSource.fusion (leAt (setupJ 0).desc 32 8) 64 ∧ bitOf (byteAt (setupJ 0).desc
      44) 0 = false ∧ getBytes w159 (leAt (setupJ 0).desc 32 8) 64 ≠ (wsOf w159 (leAt (setupJ 0).desc 32 8)).header) ∧
    (AtHead w160 pgFUS frameJ [] (fusAddrs frameJ) ∧ fusTrig frameJ = none ∧ frameJ.op = 2 ∧ w160.fus.named = some 2097152
      ∧ (wsOf w160 2097152).tPrev < leAt frameJ.desc 32 8 ∧ (wsOf w160 2097152).tracks = [] ∧ leAt frameJ.desc 56 2 = 0 ∧
      leAt frameJ.desc 72 2 = 0 ∧ leAt frameJ.desc 88 2 = 0 ∧ byteAt frameJ.desc 92 = 0 ∧ GoodRange w160 ReqSource.fusion
      2097152 64) ∧
    (AtHead w161 pgFUS gridJ [] (fusAddrs gridJ) ∧ fusTrig gridJ = none ∧ gridJ.op = 3 ∧ w161.fus.named.isSome = true ∧
      GoodRange w161 ReqSource.fusion (leAt gridJ.desc 56 8) (8 * leAt gridJ.desc 64 2) ∧ (∀ (i : Nat), i < leAt gridJ.desc
      64 2 → dataAt w161 (leAt x29 (8 * i) 8) 64 64 = true ∧ GoodRange w161 ReqSource.fusion (leAt x29 (8 * i) 8) 64 ∧ leAt
      (getBytes w161 (leAt x29 (8 * i) 8) 64) 16 4 = 0 ∧ byteAt (getBytes w161 (leAt x29 (8 * i) 8) 64) 22 ≤ 3 ∧ byteAt
      (getBytes w161 (leAt x29 (8 * i) 8) 64) 23 ≤ 3 ∧ zerosAt (getBytes w161 (leAt x29 (8 * i) 8) 64) 28 36 = true) ∧
      GoodRange w161 ReqSource.fusion (leAt gridJ.desc 32 8) (gridBytes gridJ.desc) ∧ 1 ≤ (gridDim gridJ.desc).nx ∧ 1 ≤
      (gridDim gridJ.desc).ny ∧ 1 ≤ (gridDim gridJ.desc).nz) ∧
    ((2, Instr.fusFrame) ∈ [(1, Instr.setup), (2, Instr.fusFrame), (3, Instr.grid)] ∧ running w162 pgFUS = some frameJ ∧
      w162.fus.run = some run5 ∧ frameJ.op = (2, Instr.fusFrame).fst ∧ pageOn w162 pgFUS = true ∧ run5.left ≠ 0 ∧
      pastDeadline w162 frameJ.deadline = false) ∧
    ((2, Instr.fusFrame) ∈ [(1, Instr.setup), (2, Instr.fusFrame), (3, Instr.grid)] ∧ running w163 pgFUS = some frameL ∧
      w163.fus.run = some run5 ∧ frameL.op = (2, Instr.fusFrame).fst ∧ pageOn w163 pgFUS = true ∧ run5.left ≠ 0 ∧
      pastDeadline w163 frameL.deadline = true) ∧
    ((2, Instr.fusFrame) ∈ [(1, Instr.setup), (2, Instr.fusFrame), (3, Instr.grid)] ∧ running w164 pgFUS = some frameJ ∧
      w164.fus.run = some { run5 with left := 0 : FusRun } ∧ frameJ.op = (2, Instr.fusFrame).fst ∧ pageOn w164 pgFUS = true
      ∧ { run5 with left := 0 : FusRun }.left = 0 ∧ pastDeadline w164 frameJ.deadline = false ∧
      { run5 with left := 0 : FusRun }.writes.length ≤ 1 ∧ (∀ (w : Nat × List Byte), w ∈
      { run5 with left := 0 : FusRun }.writes → GoodRange w164 ReqSource.fusion w.fst w.snd.length) ∧ (∀ (f : Nat),
      { run5 with left := 0 : FusRun }.flag = some f → ready w164 pgRES = true ∧ bankBad w164 (groupAddr (f / 64)) = false
      ∧ markOf w164 (groupAddr (f / 64)) = Mark.good) ∧ (∀ (w : Nat × FusWs), (2, Instr.fusFrame).fst ≠ 1 →
      { run5 with left := 0 : FusRun }.ws = some w → w.snd.header.length = 64 ∧ GoodRange w164 ReqSource.fusion w.fst 64 ∧
      ∀ (x : Nat × List Byte), x ∈ { run5 with left := 0 : FusRun }.writes → x.fst + x.snd.length ≤ w.fst ∨ w.fst + 64 ≤
      x.fst)) ∧
    ((3, Instr.grid) ∈ [(1, Instr.setup), (2, Instr.fusFrame), (3, Instr.grid)] ∧ running w165 pgFUS = some gridJ ∧
      w165.fus.run = some run3 ∧ gridJ.op = (3, Instr.grid).fst ∧ pageOn w165 pgFUS = true ∧ run3.left = 0 ∧ pastDeadline
      w165 gridJ.deadline = false ∧ run3.writes.length ≤ 1 ∧ (∀ (w : Nat × List Byte), w ∈ run3.writes → GoodRange w165
      ReqSource.fusion w.fst w.snd.length) ∧ (∀ (f : Nat), run3.flag = some f → ready w165 pgRES = true ∧ bankBad w165
      (groupAddr (f / 64)) = false ∧ markOf w165 (groupAddr (f / 64)) = Mark.good) ∧ (∀ (w : Nat × FusWs), (3,
      Instr.grid).fst ≠ 1 → run3.ws = some w → w.snd.header.length = 64 ∧ GoodRange w165 ReqSource.fusion w.fst 64 ∧ ∀ (x :
      Nat × List Byte), x ∈ run3.writes → x.fst + x.snd.length ≤ w.fst ∨ w.fst + 64 ≤ x.fst)) ∧
    ((1, Instr.setup) ∈ [(1, Instr.setup), (2, Instr.fusFrame), (3, Instr.grid)] ∧ running w166 pgFUS = some (setupJ 1) ∧
      w166.fus.run = some runBare ∧ (setupJ 1).op = (1, Instr.setup).fst ∧ pageOn w166 pgFUS = true ∧ runBare.left = 0 ∧
      pastDeadline w166 (setupJ 1).deadline = false ∧ runBare.writes.length ≤ 1 ∧ (∀ (w : Nat × List Byte), w ∈
      runBare.writes → GoodRange w166 ReqSource.fusion w.fst w.snd.length) ∧ (∀ (f : Nat), runBare.flag = some f → ready
      w166 pgRES = true ∧ bankBad w166 (groupAddr (f / 64)) = false ∧ markOf w166 (groupAddr (f / 64)) = Mark.good) ∧ (∀ (w
      : Nat × FusWs), (1, Instr.setup).fst ≠ 1 → runBare.ws = some w → w.snd.header.length = 64 ∧ GoodRange w166
      ReqSource.fusion w.fst 64 ∧ ∀ (x : Nat × List Byte), x ∈ runBare.writes → x.fst + x.snd.length ≤ w.fst ∨ w.fst + 64 ≤
      x.fst)) :=
  by
    refine ⟨?_, ?_, ?_, ?_, ?_, ?_, ?_,
      by refine ⟨?_, ?_, ?_, ?_, ?_, ?_, ?_, ?_, ?_, all_some (by decide +kernel), (by intro w h; first | exact absurd rfl h | (revert w; exact all_some (by decide +kernel)))⟩ <;> decide +kernel,
      by refine ⟨?_, ?_, ?_, ?_, ?_, ?_, ?_, ?_, ?_, all_some (by decide +kernel), (by intro w h; first | exact absurd rfl h | (revert w; exact all_some (by decide +kernel)))⟩ <;> decide +kernel,
      by refine ⟨?_, ?_, ?_, ?_, ?_, ?_, ?_, ?_, ?_, all_some (by decide +kernel), (by intro w h; first | exact absurd rfl h | (revert w; exact all_some (by decide +kernel)))⟩ <;> decide +kernel⟩
    all_goals decide +kernel

/-- Witness: SOLVE, LOAD, FREE and EXPORT. -/
theorem wit_GoshawkJobsEnd :
    (AtHead w167 pgGSH loadJ [] (gshAddrs loadJ) ∧ gshTrig loadJ = none ∧ loadJ.op = 2 ∧ GoodRange w167 ReqSource.goshawk
      (leAt loadJ.desc 32 8) 64 ∧ regionReason w167 (byteAt loadJ.desc 40) (leAt loadJ.desc 42 2) (leAt loadJ.desc 44 2)
      (byteAt (getBytes w167 (leAt loadJ.desc 32 8) 64) 0) = 0 ∧ (ReaderT.run (readImage (leAt loadJ.desc 32 8))
      ReqSource.goshawk).run (readAs ReqSource.goshawk (leAt loadJ.desc 32 8) 64 (startHead pgGSH w167)).snd.snd =
      (Except.ok (rdL.fst.fst, rdL.fst.snd), rdL.snd) ∧ gshNzb rdL.fst.fst ≤ 16384 ∧ (gshQC rdL.fst.fst rdL.fst.snd).fst +
      (gshQC rdL.fst.fst rdL.fst.snd).snd ≤ leAt loadJ.desc 44 2 * 65536 ∧ gshUnfit rdL.fst.fst = none) ∧
    (AtHead w168 pgGSH gfreeJ [] (gshAddrs gfreeJ) ∧ gshTrig gfreeJ = none ∧ gfreeJ.op = 3) ∧
    (AtHead w169 pgGSH gexpJ [] (gshAddrs gexpJ) ∧ gshTrig gexpJ = none ∧ gexpJ.op = 4 ∧ (resOf w169 (byteAt gexpJ.desc
      40)).loaded = true ∧ GoodRange w169 ReqSource.goshawk (leAt gexpJ.desc 48 8) (writeImage (resOf w169 (byteAt
      gexpJ.desc 40)).prob).length) ∧
    (AtHead w170 pgGSH solJ [] (gshAddrs solJ) ∧ gshTrig solJ = none ∧ solJ.op = 1 ∧ (ReaderT.run (solveProblem solJ.desc)
      ReqSource.goshawk).run (startHead pgGSH w170) = (Except.ok (rdS.fst.fst, rdS.fst.snd.fst, rdS.fst.snd.snd), rdS.snd)
      ∧ solveStop rdS.snd solJ.desc rdS.fst.fst rdS.fst.snd.fst = none) ∧
    (AtHead gD pgGSH delJ2 [] (gshAddrs delJ2) ∧ gshTrig delJ2 = none ∧ delJ2.op = 1 ∧ (ReaderT.run (solveProblem
      delJ2.desc) ReqSource.goshawk).run (startHead pgGSH gD) = (Except.ok (rdD.fst.fst, rdD.fst.snd.fst, rdD.fst.snd.snd),
      rdD.snd) ∧ solveStop rdD.snd delJ2.desc rdD.fst.fst rdD.fst.snd.fst = none) :=
  by
    refine ⟨by refine ⟨?_, ?_, ?_, ?_, ?_, okOf_eq _ image_reads, ?_, ?_, image_fits⟩ <;> decide +kernel,
      ?_, ?_,
      by refine ⟨?_, ?_, ?_, okOf_eq _ problem_reads, stop_none (by decide +kernel) (by decide +kernel) (by decide +kernel) (by decide +kernel) problem_fits⟩ <;> decide +kernel,
      by refine ⟨?_, ?_, ?_, okOf_eq _ delta_reads, stop_none (by decide +kernel) (by decide +kernel) (by decide +kernel) (by decide +kernel) delta_fits⟩ <;> decide +kernel⟩
    all_goals decide +kernel

/-- Witness: SOLVE, LOAD, FREE and EXPORT. -/
theorem wit_GoshawkJobsEnd_2 :
    (running w171 pgGSH = some solJ ∧ pageOn w171 pgGSH = true ∧ w171.gshRun = some act0 ∧ act0.marks =
      { state := 1, check := false, run := gshR 0 : GshMark } :: List.drop 1 act0.marks ∧
      ({ state := 1, check := false, run := gshR 0 : GshMark }.check = false ∨ pastDeadline w171 solJ.deadline = false) ∧
      (List.drop 1 act0.marks ≠ [] ∨ act0.stop = none)) ∧
    (running w172 pgGSH = some delJ2 ∧ pageOn w172 pgGSH = true ∧ w172.gshRun = some acted1 ∧ acted1.marks =
      { state := 2, check := false, run := gshR 0 : GshMark } :: List.drop 2 act0.marks ∧
      ({ state := 2, check := false, run := gshR 0 : GshMark }.check = false ∨ pastDeadline w172 delJ2.deadline = false) ∧
      (List.drop 2 act0.marks ≠ [] ∨ acted1.stop = none)) ∧
    (running w173 pgGSH = some delJ2 ∧ pageOn w173 pgGSH = true ∧ w173.gshRun = some acted2 ∧ acted2.marks =
      [{ state := 5, check := true, run := gshR 1 : GshMark }] ∧
      ({ state := 5, check := true, run := gshR 1 : GshMark }.check = false ∨ pastDeadline w173 delJ2.deadline = false) ∧
      (([] : List GshMark) ≠ [] ∨ acted2.stop = none)) ∧
    (running w174 pgGSH = some (late delJ2) ∧ pageOn w174 pgGSH = true ∧ w174.gshRun = some acted2 ∧ acted2.marks =
      [{ state := 5, check := true, run := gshR 1 : GshMark }] ∧
      { state := 5, check := true, run := gshR 1 : GshMark }.check = true ∧
      { state := 5, check := true, run := gshR 1 : GshMark }.state ≠ 1 ∧ pastDeadline w174 (late delJ2).deadline = true ∧
      GoodRange w174 ReqSource.goshawk (leAt (late delJ2).desc 72 8) 128) ∧
    (running w175 pgGSH = some delJ2 ∧ pageOn w175 pgGSH = true ∧ w175.gshRun = some acted3 ∧ acted3.marks =
      [{ state := 5, check := true, run := gshR 1 : GshMark }] ∧
      ({ state := 5, check := true, run := gshR 1 : GshMark }.check = false ∨ pastDeadline w175 delJ2.deadline = false) ∧
      { state := 5, check := true, run := gshR 1 : GshMark }.state ≠ 1 ∧ acted3.stop = some (1280, 2) ∧ GoodRange w175
      ReqSource.goshawk (leAt delJ2.desc 72 8) 128) :=
  by decide +kernel

/-- Witness: SOLVE, LOAD, FREE and EXPORT. -/
theorem wit_GoshawkJobsEnd_3 :
    (running w176 pgGSH = some delJ2 ∧ pageOn w176 pgGSH = true ∧ w176.gshRun = some acted4 ∧ acted4.marks = [] ∧
      acted4.stop = none ∧ GoodRange w176 ReqSource.goshawk (leAt delJ2.desc 72 8) x30.length ∧ ((gshPropose delJ2.desc &&
      decide (acted4.run.stop ≠ 4)) = true → GoodRange w176 ReqSource.goshawk (leAt delJ2.desc 96 8) (gshProposal
      delJ2.desc acted4.run.prob).length ∧ (leAt delJ2.desc 96 8 + (gshProposal delJ2.desc acted4.run.prob).length ≤ leAt
      delJ2.desc 72 8 ∨ leAt delJ2.desc 72 8 + x30.length ≤ leAt delJ2.desc 96 8)) ∧ (bitOf (leAt delJ2.desc 68 4) 31 =
      true → ready w176 pgRES = true ∧ bankBad w176 (groupAddr (leAt delJ2.desc 68 4 % 2 ^ 19 / 64)) = false ∧ markOf w176
      (groupAddr (leAt delJ2.desc 68 4 % 2 ^ 19 / 64)) = Mark.good)) ∧
    (running w177 pgGSH = some propJ ∧ pageOn w177 pgGSH = true ∧ w177.gshRun = some acted4 ∧ acted4.marks = [] ∧
      acted4.stop = none ∧ GoodRange w177 ReqSource.goshawk (leAt propJ.desc 72 8) x31.length ∧ ((gshPropose propJ.desc &&
      decide (acted4.run.stop ≠ 4)) = true → GoodRange w177 ReqSource.goshawk (leAt propJ.desc 96 8) (gshProposal
      propJ.desc acted4.run.prob).length ∧ (leAt propJ.desc 96 8 + (gshProposal propJ.desc acted4.run.prob).length ≤ leAt
      propJ.desc 72 8 ∨ leAt propJ.desc 72 8 + x31.length ≤ leAt propJ.desc 96 8)) ∧ (bitOf (leAt propJ.desc 68 4) 31 =
      true → ready w177 pgRES = true ∧ bankBad w177 (groupAddr (leAt propJ.desc 68 4 % 2 ^ 19 / 64)) = false ∧ markOf w177
      (groupAddr (leAt propJ.desc 68 4 % 2 ^ 19 / 64)) = Mark.good)) :=
  by decide +kernel

/-- Witness: BIND, APPEND and DELETE. -/
theorem wit_FishhawkBindsAppendsDeletes :
    (unitHead w178 isMaint = some bindF ∧ depsMet w178 pgFSH bindF (fshAddrs bindF) = true ∧ pastDeadline w178
      bindF.deadline = false ∧ fshTrig bindF = none ∧ bindF.op = 1 ∧ (pageJobs w178 pgFSH).running = [] ∧ GoodRange w178
      ReqSource.fishhawk (leAt bindF.desc 32 8) 128 ∧ indexHeaderBad w178 x32 = none ∧ GoodRange w178 ReqSource.fishhawk
      (leAt x32 40 8) (16 * leAt x32 8 4) ∧ GoodRange w178 ReqSource.fishhawk (leAt x32 32 8) (512 * leAt x32 4 2) ∧
      GoodRange w178 ReqSource.fishhawk (leAt x32 24 8) (2 * leAt x32 4 2 * leAt x32 8 4) ∧ (∀ (l : Nat), l < leAt x32 8 4
      → dirEntryBad (List.take 16 (List.drop (16 * l) x33)) = false) ∧ (∀ (l : Nat × Nat), l ∈ List.map (fun l ↦ (leAt
      (List.take 16 (List.drop (16 * l) x33)) 0 8, leAt (List.take 16 (List.drop (16 * l) x33)) 8 4)) (List.range (leAt x32
      8 4)) → l.snd ≠ 0 → dramAt w178 l.fst (listBytes (byteAt x32 6) l.snd) 1 = true) ∧ regionsOverlap (byteAt x32 6)
      (List.map (fun l ↦ (leAt (List.take 16 (List.drop (16 * l) x33)) 0 8, leAt (List.take 16 (List.drop (16 * l) x33)) 8
      4)) (List.range (leAt x32 8 4))) = none ∧ (List.map (fun x ↦ x.snd) (List.map (fun l ↦ (leAt (List.take 16 (List.drop
      (16 * l) x33)) 0 8, leAt (List.take 16 (List.drop (16 * l) x33)) 8 4)) (List.range (leAt x32 8 4)))).sum = leAt x32
      16 8 ∧ (∀ (x : Nat), x ∈ halves (getBytes w178 (leAt x32 32 8) (512 * leAt x32 4 2)) (256 * leAt x32 4 2) →
      Fp.isFinite x = true) ∧ (∀ (x : Nat), x ∈ halves (getBytes w178 (leAt x32 24 8) (2 * leAt x32 4 2 * leAt x32 8 4))
      (leAt x32 4 2 * leAt x32 8 4) → Fp.isFinite x = true) ∧ bitOf (byteAt bindF.desc 48) 0 = true) ∧
    (unitHead w179 isMaint = some appJ ∧ depsMet w179 pgFSH appJ (fshAddrs appJ) = true ∧ pastDeadline w179 appJ.deadline =
      false ∧ fshTrig appJ = none ∧ w179.fsh.bound = some boundIndex ∧ appJ.op = 3 ∧ leAt appJ.desc 48 8 ≠ 0 ∧ dramAt w179
      (leAt appJ.desc 32 8) x34 64 = true ∧ GoodRange w179 ReqSource.fishhawk (leAt appJ.desc 32 8) x34 ∧ GoodRange w179
      ReqSource.fishhawk (leAt appJ.desc 40 8) (4 * leAt appJ.desc 60 2) ∧ GoodRange w179 ReqSource.fishhawk (leAt
      appJ.desc 48 8) (4 * leAt appJ.desc 60 2) ∧ GoodRange w179 ReqSource.fishhawk boundIndex.book (2 * 256 *
      boundIndex.d) ∧ (∀ (x : Nat), x ∈ List.map (fun i ↦ leAt (getBytes w179 (leAt appJ.desc 40 8) (4 * leAt appJ.desc 60
      2)) (4 * i) 4) (List.range (leAt appJ.desc 60 2)) → bitOf x 31 = false) ∧ (∀ (x : Nat), x ∈ List.map (fun i ↦ leAt
      (getBytes w179 (leAt appJ.desc 48 8) (4 * leAt appJ.desc 60 2)) (4 * i) 4) (List.range (leAt appJ.desc 60 2)) → x <
      boundIndex.nlist) ∧ (∀ (i : Nat), i < leAt appJ.desc 60 2 → ∀ (x : Nat), x ∈ halves (List.drop (ceilTo (2 *
      boundIndex.d) 64 * 64 * i) (getBytes w179 (leAt appJ.desc 32 8) x34)) boundIndex.d → Fp.isFinite x = true) ∧ (sideOf
      w179 boundIndex.side).entries.length + leAt appJ.desc 60 2 ≤ 1048576) ∧
    (unitHead w180 isMaint = some delJ ∧ depsMet w180 pgFSH delJ (fshAddrs delJ) = true ∧ pastDeadline w180 delJ.deadline =
      false ∧ fshTrig delJ = none ∧ w180.fsh.bound = some boundIndex ∧ delJ.op = 4 ∧ GoodRange w180 ReqSource.fishhawk
      (leAt delJ.desc 32 8) (4 * leAt delJ.desc 60 2) ∧ (∀ (x : Nat), x ∈ List.map (fun i ↦ leAt (getBytes w180 (leAt
      delJ.desc 32 8) (4 * leAt delJ.desc 60 2)) (4 * i) 4) (List.range (leAt delJ.desc 60 2)) → bitOf x 31 = false) ∧
      (sideOf w180 boundIndex.side).tombs.length + leAt delJ.desc 60 2 ≤ 1048576) ∧
    (List.find? isMaint (pageJobs w181 pgFSH).running = some bindF ∧ pageOn w181 pgFSH = true ∧ bitOf (leAt bindF.desc 56
      4) 31 = false ∧ bindF.op = 1 ∧ w181.fsh.maint = some (FshMaint.bind boundIndex
      { FshSide.none with dims := [8, 8, 1], epoch := 1 : FshSide }) ∧
      { FshSide.none with dims := [8, 8, 1], epoch := 1 : FshSide }.dims.length = 3 ∧ GoodRange w181 ReqSource.fishhawk
      boundIndex.side 64) ∧
    (List.find? isMaint (pageJobs w182 pgFSH).running = some appJ ∧ pageOn w182 pgFSH = true ∧ bitOf (leAt appJ.desc 56 4)
      31 = false ∧ w182.fsh.bound = some boundIndex ∧ (sideOf w182 boundIndex.side).dims.length = 3 ∧ GoodRange w182
      ReqSource.fishhawk boundIndex.side 64 ∧ appJ.op = 3 ∧ w182.fsh.maint = some (FshMaint.append [(5, 0, [1, 2])]) ∧
      pastDeadline w182 appJ.deadline = false) ∧
    (List.find? isMaint (pageJobs w183 pgFSH).running = some delJ ∧ pageOn w183 pgFSH = true ∧ bitOf (leAt delJ.desc 56 4)
      31 = false ∧ w183.fsh.bound = some boundIndex ∧ (sideOf w183 boundIndex.side).dims.length = 3 ∧ GoodRange w183
      ReqSource.fishhawk boundIndex.side 64 ∧ delJ.op = 4 ∧ w183.fsh.maint = some (FshMaint.delete [5, 6]) ∧ pastDeadline
      w183 delJ.deadline = false) ∧
    (List.find? isMaint (pageJobs w184 pgFSH).running = some (late appJ) ∧ pageOn w184 pgFSH = true ∧ bitOf (leAt (late
      appJ).desc 56 4) 31 = false ∧ pastDeadline w184 (late appJ).deadline = true ∧ (late appJ).op = 3 ∧ w184.fsh.maint =
      some (FshMaint.append [(5, 0, [1, 2])])) ∧
    (List.find? isMaint (pageJobs w185 pgFSH).running = some (late delJ) ∧ pageOn w185 pgFSH = true ∧ bitOf (leAt (late
      delJ).desc 56 4) 31 = false ∧ pastDeadline w185 (late delJ).deadline = true ∧ (late delJ).op = 4 ∧ w185.fsh.maint =
      some (FshMaint.delete [5, 6])) :=
  by
    refine ⟨by refine ⟨?_, ?_, ?_, ?_, ?_, ?_, ?_, ?_, ?_, ?_, ?_, ?_, ?_, ?_, ?_, (by rw [getBytes_blank _ (by decide +kernel) (by decide +kernel)]; exact halves_zeros _ _), (by rw [getBytes_blank _ (by decide +kernel) (by decide +kernel)]; exact halves_zeros _ _), ?_⟩ <;> decide +kernel,
      ?_, ?_, ?_, ?_, ?_, ?_, ?_⟩
    all_goals decide +kernel

/-- Witness: SEARCH, MERGE and the epoch switch. -/
theorem wit_FishhawkSearchesAndMerges :
    (w186.fsh.bound = some boundIndex ∧ unitHead w186 isSearch = some seaJ ∧ seaJ.op = 2 ∧ depsMet w186 pgFSH seaJ
      (fshAddrs seaJ) = true ∧ pastDeadline w186 seaJ.deadline = false ∧ bindHeld w186 = false ∧ fshTrig seaJ = none ∧ leAt
      seaJ.desc 64 2 ≤ boundIndex.nlist ∧ (ReaderT.run (searchWork seaJ boundIndex boundIndex.cur (sideOf w186
      boundIndex.side).seq) ReqSource.fishhawk).run (startIf pgFSH isSearch w186) = (Except.ok sea0.fst, sea0.snd)) ∧
    (w187.fsh.bound = some boundIndex ∧ unitHead w187 isSearch = some seaJ ∧ seaJ.op = 2 ∧ depsMet w187 pgFSH seaJ
      (fshAddrs seaJ) = true ∧ pastDeadline w187 seaJ.deadline = false ∧ bindHeld w187 = false ∧ fshTrig seaJ = none ∧ leAt
      seaJ.desc 64 2 ≤ boundIndex.nlist ∧ leAt seaJ.desc 60 2 = 1 ∧ bitOf (byteAt seaJ.desc 62) 0 = false ∧ dramAt w187
      (leAt seaJ.desc 32 8) (ceilTo (2 * boundIndex.d) 64 * 64) 64 = true ∧ GoodRange w187 ReqSource.fishhawk (leAt
      seaJ.desc 32 8) (ceilTo (2 * boundIndex.d) 64 * 64) ∧ GoodRange w187 ReqSource.fishhawk (leAt seaJ.desc 40 8) (4 *
      leAt seaJ.desc 64 2) ∧ GoodRange w187 ReqSource.fishhawk boundIndex.book (2 * 256 * boundIndex.d) ∧ ((halves
      (getBytes w187 (leAt seaJ.desc 32 8) (ceilTo (2 * boundIndex.d) 64 * 64)) boundIndex.d).any fun x ↦ !Fp.isFinite x) =
      true) ∧
    (pageOn w188 pgFSH = true ∧ w188.fsh.bound = some boundIndex ∧ (sideOf w188 boundIndex.side).dims.length = 3 ∧
      w188.fsh.snap = some ({ num := 1, base := 0, dir := 1245184, nvec := 0 : FshEpoch }, 1) ∧ w188.fsh.search = some srch
      ∧ List.find? isSearch (pageJobs w188 pgFSH).running = some seaJ ∧ srch.left = [(1, true), (3, false)] ∧ ((1,
      true).snd = false ∨ pastDeadline w188 seaJ.deadline = false)) ∧
    (pageOn w189 pgFSH = true ∧ w189.fsh.bound = some bi2 ∧ (sideOf w189 bi2.side).dims.length = 3 ∧ w189.fsh.snap = some
      ({ num := 1, base := 0, dir := 1245184, nvec := 0 : FshEpoch }, 1) ∧ w189.fsh.search = some srch ∧ List.find?
      isSearch (pageJobs w189 pgFSH).running = some (late seaJ) ∧ srch.left = [(1, true), (3, false)] ∧ (1, true).snd =
      true ∧ pastDeadline w189 (late seaJ).deadline = true) ∧
    (pageOn w190 pgFSH = true ∧ w190.fsh.bound = some bi2 ∧ (sideOf w190 bi2.side).dims.length = 3 ∧ w190.fsh.snap = some
      ({ num := 1, base := 0, dir := 1245184, nvec := 0 : FshEpoch }, 1) ∧ w190.fsh.search = some
      { srch with left := [] : FshSearch } ∧ List.find? isSearch (pageJobs w190 pgFSH).running = some seaJ ∧
      { srch with left := [] : FshSearch }.left = [] ∧ (∀ (w : Nat × List Byte), w ∈
      { srch with left := [] : FshSearch }.writes → GoodRange w190 ReqSource.fishhawk w.fst w.snd.length ∧ (w.fst +
      w.snd.length ≤ bi2.side ∨ bi2.side + 64 ≤ w.fst)) ∧ List.Pairwise (fun v w ↦ v.fst + v.snd.length ≤ w.fst)
      { srch with left := [] : FshSearch }.writes ∧ bitOf (leAt seaJ.desc 56 4) 31 = false) ∧
    (pageOn w191 pgFSH = true ∧ w191.fsh.bound = some boundIndex ∧ (sideOf w191 boundIndex.side).dims.length = 3 ∧
      w191.fsh.snap = some ({ num := 1, base := 0, dir := 1245184, nvec := 0 : FshEpoch }, 1) ∧ w191.fsh.search = some
      { srch with left := [] : FshSearch } ∧ List.find? isSearch (pageJobs w191 pgFSH).running = some seaJ ∧
      { srch with left := [] : FshSearch }.left = [] ∧ (∀ (w : Nat × List Byte), w ∈
      { srch with left := [] : FshSearch }.writes → GoodRange w191 ReqSource.fishhawk w.fst w.snd.length ∧ (w.fst +
      w.snd.length ≤ boundIndex.side ∨ boundIndex.side + 64 ≤ w.fst)) ∧ List.Pairwise (fun v w ↦ v.fst + v.snd.length ≤
      w.fst) { srch with left := [] : FshSearch }.writes ∧ bitOf (leAt seaJ.desc 56 4) 31 = false) ∧
    (w192.fsh.bound = some boundIndex ∧ unitHead w192 isMaint = some merJ ∧ merJ.op = 5 ∧ depsMet w192 pgFSH merJ (fshAddrs
      merJ) = true ∧ pastDeadline w192 merJ.deadline = false ∧ fshTrig merJ = none ∧ boundIndex.header.length = 128 ∧
      (ReaderT.run (List.mapM (mergedList boundIndex (sideOf w192 boundIndex.side) (sideOf w192 boundIndex.side).seq)
      (List.range boundIndex.nlist)) ReqSource.fishhawk).run (setMaint (some (FshMaint.merge
      { dst := leAt merJ.desc 32 8, size := leAt merJ.desc 40 8, snap := (sideOf w192 boundIndex.side).seq, dir := 0, nvec := 0, left := [] : FshMerge }))
      (startIf pgFSH isMaint w192)) = (Except.ok mer0.fst, mer0.snd) ∧ (if (mer0.fst.all fun x ↦ x.isEmpty) = true then
      leAt merJ.desc 32 8 + 128 + 16 * boundIndex.nlist else (placeLists boundIndex.m ((leAt merJ.desc 32 8 + 128 + 16 *
      boundIndex.nlist + 63) / 64 * 64) mer0.fst).snd) ≤ leAt merJ.desc 32 8 + leAt merJ.desc 40 8 ∧ 1 ≤ boundIndex.nlist ∧
      boundIndex.nlist ≤ 1048576 ∧ GoodRange mer0.snd ReqSource.fishhawk (leAt merJ.desc 32 8) (128 + 16 *
      boundIndex.nlist)) ∧
    (List.find? isMaint (pageJobs w193 pgFSH).running = some merJ ∧ w193.fsh.maint = some (FshMaint.merge (mrg [(536871104,
      [5, 6]), (0, [])])) ∧ (mrg [(536871104, [5, 6]), (0, [])]).left = [(536871104, [5, 6]), (0, [])] ∧ pageOn w193 pgFSH
      = true ∧ pastDeadline w193 merJ.deadline = false ∧ (((536871104, [5, 6]) : Nat × List Byte).snd = [] ∨ GoodRange w193
      ReqSource.fishhawk ((536871104, [5, 6]) : Nat × List Byte).fst ((536871104, [5, 6]) : Nat × List Byte).snd.length)) ∧
    (List.find? isMaint (pageJobs w194 pgFSH).running = some merJ ∧ w194.fsh.maint = some (FshMaint.merge (mrg [(0, [])]))
      ∧ (mrg [(0, [])]).left = [(0, [])] ∧ pageOn w194 pgFSH = true ∧ pastDeadline w194 merJ.deadline = false ∧ (((0, []) :
      Nat × List Byte).snd = [] ∨ GoodRange w194 ReqSource.fishhawk ((0, []) : Nat × List Byte).fst ((0, []) : Nat × List
      Byte).snd.length)) ∧
    (List.find? isMaint (pageJobs w195 pgFSH).running = some (late merJ) ∧ w195.fsh.maint = some (FshMaint.merge (mrg [(0,
      [])])) ∧ (mrg [(0, [])]).left = [(0, [])] ∧ pageOn w195 pgFSH = true ∧ pastDeadline w195 (late merJ).deadline = true) ∧
    (List.find? isMaint (pageJobs w196 pgFSH).running = some merJ ∧ w196.fsh.maint = some (FshMaint.merge (mrg [])) ∧ (mrg
      []).left = [] ∧ w196.fsh.bound = some boundIndex ∧ boundIndex.prev = none ∧ pageOn w196 pgFSH = true ∧ pastDeadline
      w196 merJ.deadline = false ∧ (sideOf w196 boundIndex.side).dims.length = 3 ∧ GoodRange w196 ReqSource.fishhawk
      boundIndex.side 64 ∧ bitOf (leAt merJ.desc 56 4) 31 = false) ∧
    (List.find? isMaint (pageJobs w198 pgFSH).running = some (late merJ) ∧ w198.fsh.maint = some (FshMaint.merge (mrg []))
      ∧ (mrg []).left = [] ∧ w198.fsh.bound = some boundIndex ∧ boundIndex.prev = none ∧ pageOn w198 pgFSH = true ∧
      pastDeadline w198 (late merJ).deadline = true) ∧
    (List.find? isMaint (pageJobs w198 pgFSH).running = some (late merJ) ∧ w198.fsh.maint = some (FshMaint.merge (mrg []))
      ∧ (mrg []).left = [] ∧ w198.fsh.bound = some boundIndex ∧ pastDeadline w198 (late merJ).deadline = true) :=
  by
    refine ⟨by refine ⟨?_, ?_, ?_, ?_, ?_, ?_, ?_, ?_, okOf_eq _ search_reads⟩ <;> decide +kernel,
      ?_, ?_, ?_, ?_, ?_,
      by refine ⟨?_, ?_, ?_, ?_, ?_, ?_, ?_, okOf_eq _ merge_reads, ?_, ?_, ?_, ?_⟩ <;> decide +kernel,
      ?_, ?_, ?_, ?_, ?_, ?_⟩
    all_goals decide +kernel

/-- Witness: Power-up, VIN loss, brown-out and seal of the compartment. -/
theorem wit_CompartmentPowers :
    (w199.met.vin = false) ∧
    (w201.met.vin = true) ∧
    (w202.met.sealOpen = !true ∧ w202.met.vin = false) ∧
    (w201.met.sealOpen = !true ∧ w201.met.vin = true ∧ w201.met.secDue = false ∧ w201.met.toServe = 0) ∧
    (w203.met.sealOpen = !false ∧ w203.met.vin = true ∧ w203.met.secDue = false ∧ w203.met.toServe = 0) :=
  by decide +kernel

/-- Witness: The millisecond cycle and its blocks. -/
theorem wit_CyclesAndBlocks :
    (w205.met.cycleDue = true) ∧
    (w209.met.vin = true ∧ w209.met.statusDue = true) :=
  by decide +kernel

/-- Witness: Mailbox requests are served. -/
theorem wit_MailboxRequestsAreServed :
    (nextRequest w210 1 = some (9, 77 * 256, 7) ∧ w210.met.startRefused = 0) ∧
    (nextRequest w211 1 = some (9, 77 * 256, 7) ∧ w211.met.startRefused ≠ 0) ∧
    (nextRequest w212 2 = some (9, 5 * 256, 7) ∧ w212.met.journey = some anyJourney ∧ anyJourney.no = bitsOf (5 * 256) 39
      8) ∧
    (nextRequest w214 2 = some (9, 6 * 256, 7) ∧ (∀ (j : Journey), w214.met.journey = some j → j.no ≠ bitsOf (6 * 256) 39
      8)) ∧
    (nextRequest w215 3 = some (9, 5 * 256 + 1, 7)) ∧
    (nextRequest w217 3 = some (9, 5 * 256, 7)) ∧
    (nextRequest w218 4 = some (9, 0, 7)) ∧
    (nextRequest w219 4 = some (9, 1, 7)) ∧
    (nextRequest w220 5 = some (9, 0, 7)) ∧
    (nextRequest w221 6 = some (9, 2 ^ 64 - 1, 7)) ∧
    (w220.met.vin = true ∧ w220.met.toServe ≠ 0 ∧ w220.met.mailbox = [({ bytes := mkFrame 5 9 0, sentAt := 7 : MboxFrame }
      : MboxFrame), ({ bytes := mkFrame 5 10 0, sentAt := 7 : MboxFrame } : MboxFrame)] ∧ frameOk ((some (zeros 32)).getD
      ({ bytes := mkFrame 5 9 0, sentAt := 7 : MboxFrame } : MboxFrame).bytes) = false) ∧
    (w222.met.vin = true ∧ w222.met.toServe ≠ 0 ∧ w222.met.mailbox = [({ bytes := mkFrame 7 9 0, sentAt := 7 : MboxFrame }
      : MboxFrame), ({ bytes := mkFrame 5 10 0, sentAt := 7 : MboxFrame } : MboxFrame)] ∧ frameOk (none.getD
      ({ bytes := mkFrame 7 9 0, sentAt := 7 : MboxFrame } : MboxFrame).bytes) = false) :=
  by
    refine ⟨?_, ?_, ?_,
      by refine ⟨?_, all_some (by decide +kernel)⟩ <;> decide +kernel,
      ?_, ?_, ?_, ?_, ?_, ?_, ?_, ?_⟩
    all_goals decide +kernel

/-- Witness: The verification port answers. -/
theorem wit_VerificationPortAnswers :
    (w201.met.vin = true) ∧
    (w201.met.vin = true ∧ ((zeros 48).length = 48 ∨ (zeros 48).length = 80)) ∧
    (w201.met.vin = true ∧ ((zeros 80).length = 48 ∨ (zeros 80).length = 80)) ∧
    (w201.met.vin = true ∧ (∃ x : List Byte, x.length = 16 ∧ x ≠ tagOf (zeros 48))) ∧
    (w201.met.vin = true ∧ (¬100 ∈ paramOffs)) ∧
    (w201.met.vin = true ∧ 96 ∈ paramOffs ∧ w201.met.writeRefused = some VerError.seal) ∧
    (w203.met.vin = true ∧ 96 ∈ paramOffs ∧ w203.met.writeRefused = none ∧ (3 < (paramRange 96).fst ∨ (paramRange 96).snd <
      3)) ∧
    (w203.met.vin = true ∧ 32 ∈ paramOffs ∧ w203.met.writeRefused = none ∧ (paramRange 32).fst ≤ 99999 ∧ 99999 ≤
      (paramRange 32).snd ∧ w203.met.consistent 32 99999 = false) ∧
    (w203.met.vin = true ∧ 32 ∈ paramOffs ∧ w203.met.writeRefused = none ∧ (paramRange 32).fst ≤ 4001 ∧ 4001 ≤ (paramRange
      32).snd ∧ w203.met.consistent 32 4001 = true) ∧
    (w203.met.vin = true ∧ 96 ∈ paramOffs ∧ w203.met.writeRefused = none ∧ (paramRange 96).fst ≤ 2 ∧ 2 ≤ (paramRange
      96).snd ∧ w203.met.consistent 96 2 = true) ∧
    (w203.met.vin = true ∧ 80 ∈ paramOffs ∧ w203.met.writeRefused = none ∧ (paramRange 80).fst ≤ 15 ∧ 15 ≤ (paramRange
      80).snd ∧ w203.met.consistent 80 15 = true) :=
  by
    refine ⟨?_, ?_, ?_,
      by refine ⟨?_, tag_differs⟩ <;> decide +kernel,
      ?_, ?_, ?_, ?_, ?_, ?_, ?_⟩
    all_goals decide +kernel

/-- Witness: Calendar staging, commits and second boundaries. -/
theorem wit_CalendarCommands :
    (w224.met.vin = true) ∧
    (w203.met.vin = true ∧ w203.met.writeRefused = none ∧ parseStage (ascii "2024-02-29T23:59:59") = some
      ({ year := 2024, month := 2, day := 29, hour := 23, minute := 59, second := 59 : CalTime } : CalTime)) ∧
    (w203.met.vin = true ∧ w203.met.writeRefused = none ∧ parseStage (ascii "2024-02-29 23:59:59") = none) ∧
    (w224.met.vin = true ∧ w224.met.sealOpen = false) ∧
    (w204.met.vin = true ∧ w204.met.sealOpen = true ∧ w204.met.auditFull = true) ∧
    (w225.met.vin = true ∧ w225.met.sealOpen = true ∧ w225.met.auditFull = false ∧ w225.met.cal.staged.failing ≠ 0) ∧
    (w226.met.vin = true ∧ w226.met.sealOpen = true ∧ w226.met.auditFull = false ∧ w226.met.cal.staged.failing = 0) ∧
    ((w227.met.vin = true → w227.met.secDue = true) ∧ w227.met.cal.pending = none) ∧
    ((w229.met.vin = true → w229.met.secDue = true) ∧ w229.met.cal.pending = some
      ({ year := 2024, month := 2, day := 29, hour := 23, minute := 59, second := 59 : CalTime } : CalTime) ∧
      w229.met.auditFull = false) ∧
    (({ year := 2024, month := 2, day := 29, hour := 23, minute := 59, second := 59 : CalTime } : CalTime).failing = 0 ∧
      ({ year := 2024, month := 2, day := 29, hour := 23, minute := 59, second := 59 : CalTime } : CalTime) ≠ CalTime.top) ∧
    (({ year := 2000, month := 12, day := 31, hour := 23, minute := 59, second := 59 : CalTime } : CalTime).failing = 0 ∧
      ({ year := 2000, month := 12, day := 31, hour := 23, minute := 59, second := 59 : CalTime } : CalTime) ≠ CalTime.top) :=
  by decide +kernel

/-- Witness: Wheel samples form and are released. -/
theorem wit_WheelSamplesFormAndRelease :
    (w230.met.fastFormDue = true) ∧
    (w232.met.vin = true ∧ w232.met.fineFormDue = true) ∧
    (w233.met.vin = true ∧ w233.met.fastRelDue = true) ∧
    (w234.met.vin = true ∧ w234.met.fineRelDue = true) :=
  by decide +kernel

/-- Witness: The bridge takes blocks and passes requests. -/
theorem wit_BridgeTakesBlocksAndAsks :
    (MayWrite w235 Port.a pgMBR 160 ∧ w235.met.vin = true) ∧
    (mbrOn w236 = true ∧ enabled w236 pgMBR = true ∧ rdB w236 pgMBR 132 0 = true ∧ w236.mbr.lastSync + 100000000 ≤ now w236
      ∧ w236.met.vin = true) ∧
    (w238.met.dataPath = [mkBlock 1 0 5 [1, 2, 3], [1]] ∧ mbrOn w238 = false) ∧
    (w239.met.dataPath = [mkBlock 1 0 5 [1, 2, 3], [1]] ∧ mbrOn w239 = true ∧ (((some [1]).getD (mkBlock 1 0 5 [1, 2,
      3])).length ≠ 128 ∨ leAt ((some [1]).getD (mkBlock 1 0 5 [1, 2, 3])) 124 4 ≠ Crypto.crc32 (List.take 124 ((some
      [1]).getD (mkBlock 1 0 5 [1, 2, 3]))))) ∧
    (w240.met.dataPath = [mkBlock 1 0 5 (zeros 16 ++ [31]), [1]] ∧ mbrOn w240 = true ∧ (none.getD (mkBlock 1 0 5 (zeros 16
      ++ [31]))).length = 128 ∧ leAt (none.getD (mkBlock 1 0 5 (zeros 16 ++ [31]))) 124 4 = Crypto.crc32 (List.take 124
      (none.getD (mkBlock 1 0 5 (zeros 16 ++ [31]))))) ∧
    (w241.met.dataPath = [mkBlock 2 0 5 (leBytes 4 1 ++ zeros 8 ++ [255]), [1]] ∧ mbrOn w241 = true ∧ (none.getD (mkBlock 2
      0 5 (leBytes 4 1 ++ zeros 8 ++ [255]))).length = 128 ∧ leAt (none.getD (mkBlock 2 0 5 (leBytes 4 1 ++ zeros 8 ++
      [255]))) 124 4 = Crypto.crc32 (List.take 124 (none.getD (mkBlock 2 0 5 (leBytes 4 1 ++ zeros 8 ++ [255]))))) ∧
    (w242.met.dataPath = [mkBlock 3 0 5 [5, 9, 0, 0, 1], [1]] ∧ mbrOn w242 = true ∧ (none.getD (mkBlock 3 0 5 [5, 9, 0, 0,
      1])).length = 128 ∧ leAt (none.getD (mkBlock 3 0 5 [5, 9, 0, 0, 1])) 124 4 = Crypto.crc32 (List.take 124 (none.getD
      (mkBlock 3 0 5 [5, 9, 0, 0, 1])))) ∧
    (w243.met.dataPath = [mkBlock 3 0 5 [255, 9, 4, 0, 1], [1]] ∧ mbrOn w243 = true ∧ (none.getD (mkBlock 3 0 5 [255, 9, 4,
      0, 1])).length = 128 ∧ leAt (none.getD (mkBlock 3 0 5 [255, 9, 4, 0, 1])) 124 4 = Crypto.crc32 (List.take 124
      (none.getD (mkBlock 3 0 5 [255, 9, 4, 0, 1])))) ∧
    (w244.met.dataPath = [mkBlock 9 0 5 [5, 9, 0, 0, 1], [1]] ∧ mbrOn w244 = true ∧ (none.getD (mkBlock 9 0 5 [5, 9, 0, 0,
      1])).length = 128 ∧ leAt (none.getD (mkBlock 9 0 5 [5, 9, 0, 0, 1])) 124 4 = Crypto.crc32 (List.take 124 (none.getD
      (mkBlock 9 0 5 [5, 9, 0, 0, 1])))) ∧
    (mbrOn w245 = true ∧ rdB w245 pgMBR 128 0 = true ∧ w245.mbr.lastBlock + 5000000 ≤ now w245) ∧
    (mbrOn w246 = true ∧ rdB w246 pgMBR 128 1 = true ∧ ringOn w246 pgMBR wheelRing = true ∧ w246.mbr.lastAbsent + 1000000 ≤
      now w246) :=
  by decide +kernel

/-- Witness: The Dexvor link comes up and faults. -/
theorem wit_LinkComesUpAndFaults :
    (MayWrite live Port.a pgPLK 12) ∧
    (MayWrite w247 Port.a pgPLK 12) ∧
    (plkTraining w248 = true ∧ enabled w248 pgPLK = true ∧ rdF w248 pgPLK 132 7 0 ≠ 0 ∧ 9 ≠ 0 ∧ rdF w248 pgPLK 132 7 0 ≠
      BitVec.toNat (9 : Byte)) ∧
    (plkTraining w248 = true ∧ enabled w248 pgPLK = true ∧ (rdF w248 pgPLK 132 7 0 = 0 ∨ 7 = 0 ∨ rdF w248 pgPLK 132 7 0 =
      BitVec.toNat (7 : Byte))) ∧
    (plkTraining w249 = true ∧ enabled w249 pgPLK = true ∧ (rdF w249 pgPLK 132 7 0 = 0 ∨ 0 = 0 ∨ rdF w249 pgPLK 132 7 0 =
      BitVec.toNat (0 : Byte))) ∧
    (plkTraining w250 = true ∧ enabled w250 pgPLK = true ∧ (rdF w250 pgPLK 132 7 0 = 0 ∨ 5 = 0 ∨ rdF w250 pgPLK 132 7 0 =
      BitVec.toNat (5 : Byte))) ∧
    (plkTraining w248 = true ∧ enabled w248 pgPLK = true ∧ w248.plk.slowTold = false ∧ w248.plk.trainAt + 100000000 ≤ now
      w248) ∧
    (plkUp w251 = true) ∧
    (plkUp w251 = true ∧ w251.plk.lastControl + 100000 ≤ now w251) :=
  by decide +kernel

/-- Witness: Frames are sent, acknowledged and resent. -/
theorem wit_FramesAreSentAndAcknowledged :
    ((pageJobs w252 pgPLK).running.any (ofChan 3) = false ∧ List.find? (ofChan 3) (pageJobs w252 pgPLK).queue = some sj3 ∧
      plkDeps w252 sj3 = true ∧ pastDeadline w252 sj3.deadline = false) ∧
    (plkUp w253 = true ∧ slotDue w253 = true ∧ resendFrame w253 = some (1,
      ({ seq := 6, sentAt := 0, bytes := [2] : LinkFrame } : LinkFrame))) ∧
    (plkUp w254 = true ∧ slotDue w254 = true ∧ resendFrame w254 = some (0,
      ({ seq := 5, sentAt := 0, bytes := [1] : LinkFrame } : LinkFrame))) ∧
    (plkUp w251 = true ∧ slotDue w251 = true ∧ w251.plk.resend = 0 ∧ txChan w251 = some (3, sending) ∧ rdF w251 pgPLK 136 6
      0 ≠ 0 ∧ w251.plk.unacked.length < 64 ∧ (∀ (j : Job), List.find? (ofChan 3) (pageJobs w251 pgPLK).running = some j →
      pastDeadline w251 j.deadline = false) ∧ GoodRange w251 ReqSource.dexvor (sending.src + 4096 * sending.next) (min 4096
      (sending.len - 4096 * sending.next))) ∧
    (plkUp w255 = true ∧ slotDue w255 = true ∧ w255.plk.resend = 0 ∧ txChan w255 = some (3, sendingFirst) ∧ rdF w255 pgPLK
      136 6 0 ≠ 0 ∧ w255.plk.unacked.length < 64 ∧ (∀ (j : Job), List.find? (ofChan 3) (pageJobs w255 pgPLK).running = some
      j → pastDeadline w255 j.deadline = false) ∧ GoodRange w255 ReqSource.dexvor (sendingFirst.src + 4096 *
      sendingFirst.next) (min 4096 (sendingFirst.len - 4096 * sendingFirst.next))) ∧
    (plkUp w256 = true) ∧
    (plkUp w251 = true ∧ (w251.plk.resend ≠ 0 ∨ w251.plk.unacked = [])) ∧
    (plkUp w256 = true ∧ w256.plk.resend = 0 ∧ w256.plk.unacked = [({ seq := 5, sentAt := 0, bytes := [1] : LinkFrame } :
      LinkFrame), ({ seq := 6, sentAt := 0, bytes := [2] : LinkFrame } : LinkFrame)] ∧ w256.plk.sends < 4) ∧
    (plkUp w257 = true ∧ w257.plk.resend = 0 ∧ w257.plk.unacked = [({ seq := 5, sentAt := 0, bytes := [1] : LinkFrame } :
      LinkFrame), ({ seq := 6, sentAt := 0, bytes := [2] : LinkFrame } : LinkFrame)] ∧ 4 ≤ w257.plk.sends) :=
  by
    refine ⟨?_, ?_, ?_,
      by refine ⟨?_, ?_, ?_, ?_, ?_, ?_, all_some (by decide +kernel), ?_⟩ <;> decide +kernel,
      by refine ⟨?_, ?_, ?_, ?_, ?_, ?_, all_some (by decide +kernel), ?_⟩ <;> decide +kernel,
      ?_, ?_, ?_, ?_⟩
    all_goals decide +kernel

/-- Witness: Messages arrive in their buffers and end. -/
theorem wit_MessagesArriveAndEnd :
    (plkUp w256 = true ∧ chanOfMsg w256 9 = some 3 ∧ List.find? (ofChan 3) (pageJobs w256 pgPLK).running = some sj3) ∧
    (plkUp w258 = true ∧ 3 < 4 ∧ rxOf w258 3 = some rxM ∧ rxM.id = 9 ∧ rxM.entry = some (3145728, 3211264, 99) ∧ (∀ (d :
      Nat), d < 4 → ∀ (x : RxMsg), rxOf w258 d = some x → x.id = 9 → d = 3) ∧ GoodRange w258 ReqSource.record (3145728,
      3211264, 99).snd.fst 32) ∧
    (15 < 1024 ∧ MayWrite posted Port.a pgPLK (postReg 3 16)) ∧
    (16 < 1024 ∧ MayWrite posted Port.a pgPLK (postReg 3 16)) ∧
    (16 < 1024 ∧ MayWrite live Port.a pgPLK (postReg 3 16)) ∧
    (plkUp posted = true ∧ ([1].length ≠ 4132 ∨ leAt [1] 4128 4 ≠ Crypto.crc32 (List.take 4128 [1]))) ∧
    (plkUp posted = true ∧ (dataFrame 6 100).length = 4132 ∧ leAt (dataFrame 6 100) 4128 4 = Crypto.crc32 (List.take 4128
      (dataFrame 6 100)) ∧ leAt (dataFrame 6 100) 4 4 ≠ posted.plk.rxSeq) ∧
    (plkUp posted = true ∧ (dataFrame 5 4096).length = 4132 ∧ leAt (dataFrame 5 4096) 4128 4 = Crypto.crc32 (List.take 4128
      (dataFrame 5 4096)) ∧ leAt (dataFrame 5 4096) 4 4 = posted.plk.rxSeq ∧ byteAt (dataFrame 5 4096) 0 = 1 ∧ byteAt
      (dataFrame 5 4096) 1 < 4 ∧ leAt (dataFrame 5 4096) 12 4 = 0 ∧ 1 ≤ leAt (dataFrame 5 4096) 16 4 ∧ leAt (dataFrame 5
      4096) 16 4 ≤ 4096 ∧ postOn posted (byteAt (dataFrame 5 4096) 1) = true ∧ rdF posted pgPLK (postReg (byteAt (dataFrame
      5 4096) 1) 12) 9 0 ≠ x36.tail ∧ 1 ≤ x36.depth ∧ x36.depth ≤ 1024 ∧ GoodRange posted ReqSource.dexvor (x36.base + 32 *
      rdF posted pgPLK (postReg (byteAt (dataFrame 5 4096) 1) 12) 9 0) 32 ∧ entryBad posted x35 = false ∧ leAt (dataFrame 5
      4096) 16 4 ≤ leAt x35 8 4 ∧ GoodRange posted ReqSource.dexvor (leAt x35 0 8) (leAt x35 8 4) ∧ GoodRange posted
      ReqSource.record (leAt x35 16 8) 32 ∧ (leAt x35 0 8 + leAt (dataFrame 5 4096) 16 4 ≤ leAt x35 16 8 ∨ leAt x35 16 8 +
      32 ≤ leAt x35 0 8)) ∧
    (plkUp posted = true ∧ (dataFrame 5 1).length = 4132 ∧ leAt (dataFrame 5 1) 4128 4 = Crypto.crc32 (List.take 4128
      (dataFrame 5 1)) ∧ leAt (dataFrame 5 1) 4 4 = posted.plk.rxSeq ∧ byteAt (dataFrame 5 1) 0 = 1 ∧ byteAt (dataFrame 5
      1) 1 < 4 ∧ leAt (dataFrame 5 1) 12 4 = 0 ∧ 1 ≤ leAt (dataFrame 5 1) 16 4 ∧ leAt (dataFrame 5 1) 16 4 ≤ 4096 ∧ postOn
      posted (byteAt (dataFrame 5 1) 1) = true ∧ rdF posted pgPLK (postReg (byteAt (dataFrame 5 1) 1) 12) 9 0 ≠ x38.tail ∧
      1 ≤ x38.depth ∧ x38.depth ≤ 1024 ∧ GoodRange posted ReqSource.dexvor (x38.base + 32 * rdF posted pgPLK (postReg
      (byteAt (dataFrame 5 1) 1) 12) 9 0) 32 ∧ entryBad posted x37 = false ∧ leAt (dataFrame 5 1) 16 4 ≤ leAt x37 8 4 ∧
      GoodRange posted ReqSource.dexvor (leAt x37 0 8) (leAt x37 8 4) ∧ GoodRange posted ReqSource.record (leAt x37 16 8)
      32 ∧ (leAt x37 0 8 + leAt (dataFrame 5 1) 16 4 ≤ leAt x37 16 8 ∨ leAt x37 16 8 + 32 ≤ leAt x37 0 8)) ∧
    (plkUp w259 = true ∧ (dataFrame 5 1).length = 4132 ∧ leAt (dataFrame 5 1) 4128 4 = Crypto.crc32 (List.take 4128
      (dataFrame 5 1)) ∧ leAt (dataFrame 5 1) 4 4 = w259.plk.rxSeq ∧ byteAt (dataFrame 5 1) 0 = 1 ∧ byteAt (dataFrame 5 1)
      1 < 4 ∧ leAt (dataFrame 5 1) 12 4 = 0 ∧ 1 ≤ leAt (dataFrame 5 1) 16 4 ∧ leAt (dataFrame 5 1) 16 4 ≤ 4096 ∧ (postOn
      w259 (byteAt (dataFrame 5 1) 1) = false ∨ rdF w259 pgPLK (postReg (byteAt (dataFrame 5 1) 1) 12) 9 0 = (postRing w259
      (byteAt (dataFrame 5 1) 1)).tail)) :=
  by
    refine ⟨?_,
      by refine ⟨?_, ?_, ?_, ?_, ?_, all_some_below (by decide +kernel), ?_⟩ <;> decide +kernel,
      ?_, ?_, ?_, ?_,
      by refine ⟨?_, dataFrame_length _ _, dataFrame_crc _ _, ?_⟩ <;> decide +kernel,
      by refine ⟨?_, dataFrame_length _ _, dataFrame_crc _ _, ?_, ?_, ?_, ?_, ?_, ?_, ?_, ?_, ?_, ?_, ?_, ?_, ?_, ?_, ?_, ?_⟩ <;> decide +kernel,
      by refine ⟨?_, dataFrame_length _ _, dataFrame_crc _ _, ?_, ?_, ?_, ?_, ?_, ?_, ?_, ?_, ?_, ?_, ?_, ?_, ?_, ?_, ?_, ?_⟩ <;> decide +kernel,
      by refine ⟨?_, dataFrame_length _ _, dataFrame_crc _ _, ?_, ?_, ?_, ?_, ?_, ?_, ?_⟩ <;> decide +kernel⟩
    all_goals decide +kernel

/-! ### Well-formedness refuses an ill-formed term of each check -/

/-- One term for each check, out of its range by one where the range ends at a number. -/
theorem test_wf_refuses : ∀ c ∈ ([.pd0PowerGood 4096, .trimVerifyDone ⟨.valid, .valid, 65536, 0, 0, 0⟩, .pageReady 256, .fenceComplete 256,
    .fenceSlow 256, .heldJobDeadline 256, .jobCompletion 256, .stall 256, .paceWindowEnd 256 0,
    .regWrite .a ⟨0x4000000, 32, 15, true, 0⟩ [], .regWrite .a ⟨0, 64, 256, true, 0⟩ [], .regWrite .a ⟨0, 64, 255, true, 2 ^ 64⟩ [],
    .regWrite .a ⟨0, 32, 15, true, 0⟩ [.setEvt 0x1000 1], .regWrite .a ⟨0, 32, 15, true, 0⟩ [.count 2 1],
    .regWrite .a ⟨0, 32, 15, true, 0⟩ [.count 4 (2 ^ 32)], .regWrite .a ⟨0, 32, 15, true, 0⟩ [.clear 3 1], .pageLock .a 256,
    .pageEnable .a 256 true, .pageQuiesce .a 256 true, .pageFence .a 256, .pageUnfence .a 256, .evtTest .a 256 0,
    .pgFaultClear .a 256 none, .pgFaultClear .a 0 (some (0, 2, 0)), .pgFaultClear .a 0 (some (4096, 3, 0)),
    .pgFaultClear .a 0 (some (0, 7, 0)), .trigClr .a 256 0, .intakeRingEnable .a 256 true 0, .fmClr .a 4096, .fmFence .a 4096,
    .regTimeout .a 256 0 true, .regTimeout .a 0 0x1000 true, .regTimeout .a 0 2 true, .lreDiscard .a 128] : List Instr),
    c.wf = false := by decide
theorem test_wf_refuses_more : ∀ c ∈ ([.linkUp .a 0 1 [], .linkUp .a 5 1 [], .linkUp .a 4 3 [], .linkUp .a 4 4 [.payload 257],
    .perst .a [.read 2], .flr .a [.read 0x40], .flr .a [.bar 0 (2 ^ 64)], .apertureRead .a 0 0, .apertureRead .a 0 4097,
    .apertureRead .a (2 ^ 32) 1, .apertureWrite .a 0 [], .crDoorbell .a 0 4096, .ethTxDoorbell .a 0 1024, .plkRxDoorbell .a 0 1024,
    .domainOnDone 0, .domainOffDone 9, .supMeasurement (some ⟨65536, 0, 0, 0⟩), .supMeasurement (some ⟨0, 1024, 0, 0⟩), .thmSample [],
    .dmcTrainDone 0 5, .requestAdmit [⟨.vision, 0x1000000000, 64⟩] [] 1, .requestAdmit [⟨.vision, 0, 65⟩] [] 1, .requestAdmit [⟨.vision, 0, 0⟩] [] 1,
    .requestAdmit [] [(9, 0)] 1, .requestAdmit [] [] 4097, .memRead 0 0 .none, .memRead (2 ^ 40) 1 .none, .memWrite 0 [] .none, .memWrite (2 ^ 40) [0] .none,
    .resInitDone [48] [], .resInitDone [] [48], .flgSet .a (2 ^ 19) [], .flgClr .a 0 [(2 ^ 19, true)], .setf 0 [(2 ^ 19, true)], .flgRangeClr .a 8192 1, .flgRangeClr .a 0 16384,
    .csiFrameStart 0 0 65536 false, .csiLongPacket 0 0 64 [] .good true, .canFrameReceive 0 ⟨2048, false, false, false, false, false, 0, [], 0, 0, 0⟩,
    .canFrameReceive 0 ⟨0, false, false, false, false, false, 16, [], 0, 0, 0⟩, .errorPassive 0 256 0, .errorPassive 0 0 256, .busOff 0 512 0,
    .busOff 0 0 256, .dataFrameReceive [], .verRd 65536, .verWr 65536 0, .verWr 0 (2 ^ 32), .ack (2 ^ 32) true, .nak (2 ^ 32) true,
    .delivered (2 ^ 32) true, .abandon (2 ^ 32) true, .refuse (2 ^ 32) 0 true, .refuse 0 256 true, .supCritEval [(256, 0)],
    .supCritEval [(0, 256)], .supRestore 256, .supCauseClear 256, .modEnRise true 65536, .flashProgMode 65536, .msixTableWrite .a 0x4000 (some 0),
    .msixTableWrite .a 2 (some 0)] : List Instr), c.wf = false := by decide
/-- The lists that may not be longer than what carries them. -/
theorem test_wf_refuses_long : Instr.wf (.csiLongPacket 0 0 0 (List.replicate 8193 0) .good true) = false ∧
    Instr.wf (.ethFrameReceive 0 (List.replicate 1519 0) true 0) = false ∧ Instr.wf (.verLineInvalid (List.replicate 4097 0)) = false ∧
    Instr.wf (.mailboxFrameReject (some (List.replicate 33 0))) = false ∧ Instr.wf (.apertureWrite .a 0 (List.replicate 257 none)) = false ∧
    Instr.wf (.canFrameReceive 0 ⟨0, false, false, false, false, false, 0, List.replicate 65 0, 0, 0, 0⟩) = false := by decide +kernel
/-- Terms at the ends of their ranges are well formed. -/
theorem test_wf_accepts : ∀ c ∈ ([.pd0PowerGood 4095, .pageReady 255, .paceWindowEnd 255 0, .regWrite .b ⟨0x3FFFFFF, 64, 255, true, 2 ^ 64 - 1⟩
    [.setEvt 0xFFC 1, .count 4 0xFFFFFFFF, .clear 0 1], .pgFaultClear .a 0 (some (4095, 6, 0xFFFFFFFF)), .lreDiscard .a 127, .linkUp .a 4 4 [.read 0x3C],
    .apertureRead .a (2 ^ 32 - 4096) 4096, .crDoorbell .a 15 4095, .domainOnDone 8, .requestAdmit [⟨.stream 31, 0xFFFFFFFFF, 64⟩] [(8, 11)] 1,
    .memRead 0xFFFFFFFFFF 1 .none, .memWrite 0 [0] .none, .flgRangeClr .a 8191 16383, .tbSync] : List Instr), c.wf = true := by decide

/-! ### The table spells no command in bits -/

theorem test_no_row_has_bits : ∀ n ∈ [0, 8, 16, 32, 64], ∀ w ∈ [0, 1, 0xFFFFFFFF], decodeTableWord n w = none := by decide

/-! ### The worked cases of the spec -/

/-- Chapter 03: `PG_EVT` of KES reads 5; a write of 5 meets an end of a job and the stall timer. -/
theorem test_evt_set_wins : rd (wrote 0x94 0x014 32 5 [.setEvt 0x014 0x9] (setRegs [(0x94, 0x014, 5)] live)) 0x94 0x014 = 9 := by decide +kernel
/-- Chapter 03: counters written 0 in the instant of one increment, and of 64. -/
theorem test_count_lands_on_write : rd (wrote 0x82 0x030 32 0 [.count 0x030 1] (setRegs [(0x82, 0x030, 1000)] live)) 0x82 0x030 = 1 ∧
    rd (wrote 0x45 0x0A4 32 0 [.count 0x0A4 64] (setRegs [(0x45, 0x0A4, 81920)] live)) 0x45 0x0A4 = 64 := by decide +kernel
/-- Chapter 03: ENABLE written 1 in the instant in which a block fault clears it. -/
theorem test_clear_wins : let t := wrote 0x93 0x00C 32 1 [.clear 0x00C 1] (setRegs [(0x93, 0x00C, 1)] live)
    enabled t 0x93 = false ∧ t.outbox.any (fun r => decide (r.record.page = 0x93 ∧ r.record.code = 0x00A ∧ r.record.detail = 0x0020000C)) = true := by
  decide +kernel
/-- Chapter 03: one 64-bit write sets the stall timer of GSH and locks it: the lock wins. -/
theorem test_lock_wins : let t := wrote 0xA0 0x038 64 0x100000014 [] live
    rd t 0xA0 0x03C = 1 ∧ rd t 0xA0 0x038 = 50 ∧ t.outbox.any (fun r => decide (r.record.page = 0xA0 ∧ r.record.detail = 0x38)) = true := by
  decide +kernel
/-- Chapter 06: the resident word of a partial write, its index, and its bank. -/
theorem test_resident_bank : bankOf 0x400012345C = 17 ∧ (0x400012345C - residentBase) / 8 = 0x2468B := by decide
/-- Chapter 06: a partial write corrects a word with one bit in error, and poisons one with two. -/
theorem test_partial_write_words :
    let s := after (.memWrite 0x400012345C [1, 2] .correctable) live
    let t := after (.memWrite 0x4000123460 [1, 2, 3, 4] .uncorrectable) s
    getBytes s 0x4000123458 8 = [0, 0, 0, 0, 1, 2, 0, 0] ∧ rd s pgRES 0x08C = 1 ∧ getBytes t 0x4000123460 8 = zeros 8 ∧
      markOf t 0x4000123460 = .poison := by decide +kernel
/-- Chapter 04: PD7 switched on by the votes of both ports. -/
theorem test_domain_vote :
    let votes := [(6, 0x080, 2), (6, 0x084, 0x140), (6, 0x090, 2), (6, 0x094, 0x140), (6, 0x0A0, 41 * 2 ^ 16)]
    let s := after (.voteCast .a) (setRegs votes quietPart)
    let t := after (.voteCast .b) s
    s.outbox.any (fun r => decide (r.record.code = 0x105 ∧ r.record.detail = 0x002A0002) && r.toA && r.toB) = true ∧
      t.outbox.any (fun r => decide (r.record.code = 0x100 ∧ r.record.detail = 0x002A0002)) = true ∧
      t.power.switching = [(7, true)] := by decide +kernel
/-- Chapter 08: the instruction words of the tiled image read, by their fields. -/
theorem test_instruction_fields : iOp 0x0400000020000000 = 1 ∧ iOp 0x0480004001000000 = 1 ∧ iA 0x0480004001000000 = 1 ∧ iOp 0x0C00000000000016 = 3 ∧
    iOp 0x400A810000000000 = 16 ∧ iSem 0x400A810000000000 = 10 ∧ iSide 0x400A810000000000 = true ∧ iK 0x400A810000000000 = 1 ∧
    iOp 0x2010180000000000 = 8 ∧ iDstA 0x2010180000000000 = 1 ∧ iDstH 0x2010180000000000 = true ∧ iSrcInc 0x2010180000000000 = true ∧
    iOp 0x440A010000000000 = 17 ∧ iSide 0x440A010000000000 = false ∧ iOp 0x6000000000000000 = 24 ∧ iOp 0x1080000000000004 = 4 ∧
    iOp 0x080000000000009C = 2 ∧ iOp 0x6800000000000000 = 26 ∧ iOp 0x7C00000000000000 = 31 ∧
    iDstKind 0x2012580000000000 = 1 ∧ iShape 0x2012580000000000 = 1 := by decide
/-- Chapter 08: `SETA A1` and `LOOP C1, tile` on a unit. -/
theorem test_seta_loop :
    ((unitOf (after (.seta 3) (stands 3 0x0480004001000000 StreamUnit.fresh live)) 3).a.get 0 1) = 0x4001000000 ∧
    (unitOf (after (.loop 3) (stands 3 0x1080000000000004 { StreamUnit.fresh with c := [(1, 2)] } live)) 3).pc = 4 := by decide +kernel
/-- Chapter 19: the end of February in 2100 and in 2000. -/
theorem test_february : (CalTime.mk 2100 2 28 23 59 59).days = 36583 ∧ (CalTime.mk 2100 2 28 23 59 59).dow = 7 ∧
    (CalTime.mk 2100 2 28 23 59 59).stamp false = [0x34, 0x08, 0x02, 0x1C, 0x17, 0x3B, 0x3B, 0x00] ∧
    (CalTime.mk 2100 2 28 23 59 59).next = ⟨2100, 3, 1, 0, 0, 0⟩ ∧ (CalTime.mk 2100 3 1 0 0 0).dow = 1 ∧
    (CalTime.mk 2100 3 1 0 0 0).stamp false = [0x34, 0x08, 0x03, 0x01, 0, 0, 0, 0] ∧ (CalTime.mk 2100 2 29 12 0 0).failing = 3 ∧
    (CalTime.mk 2000 2 28 23 59 59).next = ⟨2000, 2, 29, 0, 0, 0⟩ ∧ (CalTime.mk 2000 2 29 0 0 0).dow = 2 ∧
    (CalTime.mk 2000 2 29 23 59 59).next = ⟨2000, 3, 1, 0, 0, 0⟩ := by decide
/-- Chapter 18: 46 ones, and 46 zeros, leave the fast path at its rails (R559, R563). -/
theorem test_fast_rails : fastRaw (List.replicate 46 1) = 4096 ∧ fastSat 4096 = 4095 ∧ fastRaw (List.replicate 46 (-1)) = -4096 := by decide +kernel
/-- The CRC-32 of IEEE 802.3 over "123456789". -/
theorem test_crc32 : Crypto.crc32 [0x31, 0x32, 0x33, 0x34, 0x35, 0x36, 0x37, 0x38, 0x39] = 0xCBF43926 := by decide
/-- An FP32 sum rounds to nearest, ties to even. -/
theorem test_fp32_ties : Fp.add 0x3F800000 0x33800000 = 0x3F800000 ∧ Fp.add 0x3F800001 0x33800000 = 0x3F800002 := by decide

/-! ### The statements over lists of commands: one of their commands answers a next state -/

/-- One of the commands the statement names. -/
theorem wit_MewsCommandsKeepGenerations : MewsWf (mewsArgs 256 5 mewsOn) ∧ ∃ t, exec (.alloc .a) (mewsArgs 256 5 mewsOn) = .next t :=
  ⟨mewsWf (by decide +kernel), ⟨_, rfl⟩⟩
/-- A queue of two commands. -/
theorem wit_EveryStepKeepsQueueAndFuses :
    State.QueueWf { live with pending := [.pageReady 0x10, .gptpTimeout] } ∧
      ∃ t, step { live with pending := [.pageReady 0x10, .gptpTimeout] } = .next t :=
  ⟨(by intro c hc; simp only [List.mem_cons, List.not_mem_nil, or_false] at hc; rcases hc with rfl | rfl <;> decide), ⟨_, rfl⟩⟩
/-- One of the commands the statement names. -/
theorem wit_CompartmentKeepsToItself : ∃ t, exec .tbSync live = .next t := ⟨_, rfl⟩
/-- One of the commands the statement names. -/
theorem wit_RegisterCommandsStoreNothing : ∃ t, exec (.pageLock .a 0x10) live = .next t := ⟨_, rfl⟩

end Sys2Proof.Tests
end

section
/-!
PROOFS. Chapter 4, the doorbell of a command ring (R109): what setting a ring's held state and refusing an access leave
unchanged, what a doorbell write does below the ring depth and from it on, and the statement assembled from these.
-/
namespace Sys2Proof.Machine

/-! ### The held state of a command ring -/

@[simp] theorem setCmdRing_regs (q : Port) (n : Nat) (r : CmdRing) (s : State) : (setCmdRing q n r s).regs = s.regs :=
  setPort_regs ..

@[simp] theorem setCmdRing_mem (q : Port) (n : Nat) (r : CmdRing) (s : State) : (setCmdRing q n r s).mem = s.mem :=
  setPort_mem ..

@[simp] theorem setCmdRing_jobs (q : Port) (n : Nat) (r : CmdRing) (s : State) : (setCmdRing q n r s).jobs = s.jobs :=
  setPort_jobs ..

@[simp] theorem cmdRing_setCmdRing_same (q : Port) (n : Nat) (r : CmdRing) (s : State) :
    cmdRing (setCmdRing q n r s) q n = r := by
  simp [cmdRing, setCmdRing, State.modPort]

/-! ### What a refusal leaves, in the terms of the statements -/

theorem port_refuse (q r : Port) (p c d : Nat) (s : State) : (Machine.refuse q p c d s).port r = s.port r := by
  cases r
  · exact refuse_portA ..
  · exact refuse_portB ..

@[simp] theorem cmdRing_refuse (q r : Port) (p c d n : Nat) (s : State) :
    cmdRing (Machine.refuse q p c d s) r n = cmdRing s r n := by
  unfold cmdRing; rw [port_refuse]

theorem memStands_of_mem {s t : State} (h : t.mem = s.mem) : MemStands s t := getByte_of_mem h

theorem regsStandBut_of_regs {s t : State} (ps : List Nat) (h : t.regs = s.regs) : RegsStandBut ps s t :=
  fun p off _ _ => rd_of_regs h p off

theorem regsStandBut_refuse (q : Port) (p c d : Nat) (s : State) : RegsStandBut [p] s (Machine.refuse q p c d s) :=
  fun _ _ ho hp => rd_refuse ho (fun h => hp (List.mem_singleton.mpr h.1)) q c d s

/-- The port that made a refused access is told, with the detail itself where it fits its 32 bits. -/
theorem told_refuse (q : Port) (p c : Nat) {d : Nat} (hd : d < 2 ^ 32) (s : State) : Told (Machine.refuse q p c d s) q p c d := by
  obtain ⟨r, hr, hpage, hcode, -, hdetail, hport⟩ := refuse_told q p c d s
  exact ⟨r, hr, hpage, hcode, hdetail.trans (Nat.mod_eq_of_lt hd), hport⟩

/-! ### A doorbell write -/

/-- The depth a doorbell's TAIL is tested against: the latched one while the ring is enabled, else the configured one
(log entry 47). -/
def doorbellDepth (s : State) (q : Port) (n : Nat) : Nat :=
  if crEnabled s q n then (cmdRing s q n).depth else crDepth s q n

theorem effCrDb_of_lt {q : Port} {n tail : Nat} {s : State} (h : tail < doorbellDepth s q n) :
    effCrDb q n tail s = setCmdRing q n { cmdRing s q n with tail := tail } s :=
  if_neg (Nat.not_le.mpr h)

theorem effCrDb_of_le {q : Port} {n tail : Nat} {s : State} (h : doorbellDepth s q n ≤ tail) :
    effCrDb q n tail s = Machine.refuse q (pgHP q) cCMD_REJ (crOff n 0x10 + q.num * 2 ^ 20) s :=
  if_pos h

/-- A doorbell of a port that may write it has its effect, whatever the ring is doing. -/
theorem exec_crDoorbell {q : Port} {n : Fin 16} {tail : Nat} {s : State} (ht : tail < 4096)
    (hw : MayWrite s q (pgHP q) (crOff n.val 0x10)) :
    exec (.crDoorbell q n tail) s = settle s (effCrDb q n.val tail s) := by
  obtain ⟨hlive, hassigned, hwriter, hon⟩ := hw
  have hgate : exec (.crDoorbell q n tail) s =
      settle s (gateWrite q (pgHP q) (crOff n.val 0x10) (effCrDb q n.val (tail % 4096)) s) := rfl
  rw [hgate, gateWrite_of hlive hassigned hwriter hon, Nat.mod_eq_of_lt ht]

/-- The offset of a doorbell and the number of its port fit the detail of a record. -/
theorem doorbell_detail_lt (q : Port) (n : Fin 16) : crOff n.val 0x10 + q.num * 2 ^ 20 < 2 ^ 32 := by
  have hq : q.num ≤ 1 := by cases q <;> decide
  unfold crOff
  omega

/-- Settles O8: below the depth the doorbell sets TAIL in the port's held state alone; from the depth on it is a refused
access, which writes `PG_EVT` of the port's page and a record alone. -/
theorem doorbellTakesTailBelowDepth : Obligations.DoorbellTakesTailBelowDepth := by
  intro q n tail s ht hw depth
  refine ⟨_, (exec_crDoorbell ht hw).trans (settle_eq ..), ?_⟩
  by_cases hlt : tail < doorbellDepth s q n.val
  case pos =>
    rw [effCrDb_of_lt hlt]
    have hregs := setCmdRing_regs q n.val { cmdRing s q n.val with tail := tail } s
    exact ⟨memStands_of_mem (setCmdRing_mem ..), setCmdRing_jobs .., regsStandBut_of_regs _ hregs,
      fun _ => ⟨congrArg CmdRing.tail (cmdRing_setCmdRing_same ..), hregs⟩,
      fun hle => absurd hlt (Nat.not_lt.mpr hle)⟩
  case neg =>
    rw [effCrDb_of_le (Nat.not_lt.mp hlt)]
    exact ⟨memStands_of_mem (refuse_mem ..), refuse_jobs .., regsStandBut_refuse q _ _ _ s,
      fun h => absurd h hlt,
      fun _ => ⟨cmdRing_refuse .., told_refuse q _ _ (doorbell_detail_lt q n) s⟩⟩

end Sys2Proof.Machine
end

section
/-!
PROOFS. Chapter 6, the interleave over the DRAM controllers (R164, R165): the members of a map, the controller of an address as
the member at its granule's slot, what a local address determines, and the statement assembled from these.
-/
namespace Sys2Proof.Machine

/-! ### The members of a map -/

theorem mem_mapMembers {m c : Nat} : c ∈ mapMembers m ↔ c < 12 ∧ (m = 0xF ∨ c ≠ m) := by
  simp only [mapMembers, List.mem_filter, List.mem_range, decide_eq_true_eq]

theorem mapMembers_nodup (m : Nat) : (mapMembers m).Nodup := List.nodup_range.filter _

@[simp] theorem mapMembers_twelveWay : mapMembers 0xF = List.range 12 := rfl

/-- A map leaves out one controller at most, so controller 0 or controller 1 is a member. -/
theorem mapMembers_length_pos (m : Nat) : 0 < (mapMembers m).length := by
  by_cases hm : m = 0
  case pos => exact List.length_pos_of_mem (mem_mapMembers.mpr ⟨by decide, .inr (by omega)⟩ : 1 ∈ mapMembers m)
  case neg => exact List.length_pos_of_mem (mem_mapMembers.mpr ⟨by decide, .inr (Ne.symm hm)⟩ : 0 ∈ mapMembers m)

/-! ### The controller of an address -/

/-- The place in the members' list of the controller that serves `a`: its granule modulo their number. -/
def slotIn (m a : Nat) : Nat := a / 256 % (mapMembers m).length

theorem slotIn_lt (m a : Nat) : slotIn m a < (mapMembers m).length := Nat.mod_lt _ (mapMembers_length_pos m)

theorem controllerIn_eq_getElem (m a : Nat) : controllerIn m a = (mapMembers m)[slotIn m a]'(slotIn_lt m a) := by
  have hget : (mapMembers m)[slotIn m a]? = some ((mapMembers m)[slotIn m a]'(slotIn_lt m a)) :=
    List.getElem?_eq_getElem (slotIn_lt m a)
  exact (List.getD_eq_getElem?_getD ..).trans (congrArg (Option.getD · 0) hget)

theorem controllerIn_mem (m a : Nat) : controllerIn m a ∈ mapMembers m :=
  controllerIn_eq_getElem m a ▸ List.getElem_mem _

/-- The members differ from one another, so the controller tells the slot. -/
theorem controllerIn_eq_iff {m a b : Nat} : controllerIn m a = controllerIn m b ↔ slotIn m a = slotIn m b := by
  rw [controllerIn_eq_getElem, controllerIn_eq_getElem, List.getElem_inj (mapMembers_nodup m)]

theorem controllerIn_twelveWay (a : Nat) : controllerIn 0xF a = a / 256 % 12 := by
  simp only [controllerIn_eq_getElem, slotIn, mapMembers_twelveWay, List.getElem_range, List.length_range]

/-! ### The local address -/

/-- A local address tells the round of the members in which the granule falls, and the place in the granule. -/
theorem localIn_eq_iff {m a b : Nat} : localIn m a = localIn m b ↔
    a / 256 / (mapMembers m).length = b / 256 / (mapMembers m).length ∧ a % 256 = b % 256 := by
  unfold localIn; omega

theorem localIn_twelveWay (a : Nat) : localIn 0xF a = a / 256 / 12 * 256 + a % 256 := by
  simp only [localIn, mapMembers_twelveWay, List.length_range]

/-- Controller and local address determine the address: the round and the slot make up the granule. -/
theorem eq_of_controllerIn_eq_of_localIn_eq {m a b : Nat} (hc : controllerIn m a = controllerIn m b)
    (hl : localIn m a = localIn m b) : a = b := by
  obtain ⟨hround, hplace⟩ := localIn_eq_iff.mp hl
  have hslot := controllerIn_eq_iff.mp hc
  have hgranule : a / 256 = b / 256 := Nat.ext_div_mod hround hslot
  exact Nat.ext_div_mod hgranule hplace

/-- Settles O19: the controller is the member at the granule's slot, and slot, round and place in the granule make up the
address. -/
theorem interleaveLosesNoAddress : Obligations.InterleaveLosesNoAddress := by
  intro m a b _
  refine ⟨controllerIn_mem m a, eq_of_controllerIn_eq_of_localIn_eq, ?_⟩
  rintro rfl
  exact ⟨controllerIn_twelveWay a, localIn_twelveWay a⟩

end Sys2Proof.Machine
end

section
/-!
PROOFS. Chapter 21, the last-resort event store (R626): what LRE_EMPTY leaves, what `LRE_DISCARD` does for a count the store holds
and for one it refuses, and the statement assembled from these.
-/
namespace Sys2Proof.Machine

/-! ### LRE_EMPTY -/

@[simp] theorem lreEmpty_lre (s : State) : (lreEmpty s).lre = s.lre := raise_lre ..

@[simp] theorem lreEmpty_mem (s : State) : (lreEmpty s).mem = s.mem := raise_mem ..

/-! ### A write of `LRE_DISCARD` -/

/-- The store without its `n` oldest entries: OLDEST moves past them, and they count as discarded. -/
def LreState.discardOldest (n : Nat) (l : LreState) : LreState :=
  { l with entries := l.entries.drop n, oldest := (l.oldest + n) % 64, discarded := l.discarded + n }

@[simp] theorem discardOldest_entries (n : Nat) (l : LreState) : (l.discardOldest n).entries = l.entries.drop n := rfl

@[simp] theorem discardOldest_delivered (n : Nat) (l : LreState) : (l.discardOldest n).delivered = l.delivered := rfl

/-- An n that the store holds is discarded; LRE_EMPTY follows where no entry is left. -/
theorem effLreDiscard_of_le {q : Port} {n : Nat} {s : State} (hpos : 1 ≤ n) (hle : n ≤ s.lre.entries.length) :
    effLreDiscard q n s =
      if (s.lre.entries.drop n).isEmpty then lreEmpty { s with lre := s.lre.discardOldest n }
      else { s with lre := s.lre.discardOldest n } :=
  if_neg (by omega)

theorem effLreDiscard_of_refused {q : Port} {n : Nat} {s : State} (h : n = 0 ∨ s.lre.entries.length < n) :
    effLreDiscard q n s = cmdRej q pgLRE 0x088 0 s :=
  if_pos h

theorem effLreDiscard_lre {q : Port} {n : Nat} {s : State} (hpos : 1 ≤ n) (hle : n ≤ s.lre.entries.length) :
    (effLreDiscard q n s).lre = s.lre.discardOldest n := by
  rw [effLreDiscard_of_le hpos hle]
  split
  · exact lreEmpty_lre _
  · rfl

/-- Neither the refusal nor the discard, with its LRE_EMPTY, stores to memory. -/
theorem effLreDiscard_mem (q : Port) (n : Nat) (s : State) : (effLreDiscard q n s).mem = s.mem := by
  by_cases h : n = 0 ∨ s.lre.entries.length < n
  case pos =>
    rw [effLreDiscard_of_refused h]
    exact refuse_mem ..
  case neg =>
    rw [effLreDiscard_of_le (by omega) (by omega)]
    split
    · exact lreEmpty_mem _
    · rfl

/-- A port that may write `LRE_DISCARD` has its effect; every n below 128 fits the field. -/
theorem exec_lreDiscard {q : Port} {n : Nat} {s : State} (hn : n < 128) (hw : MayWrite s q pgLRE 0x088) :
    exec (.lreDiscard q n) s = settle s (effLreDiscard q n s) := by
  obtain ⟨hlive, hassigned, hwriter, hon⟩ := hw
  have hgate : exec (.lreDiscard q n) s = settle s (gateWrite q pgLRE 0x088 (effLreDiscard q (n % 128)) s) := rfl
  rw [hgate, gateWrite_of hlive hassigned hwriter hon, Nat.mod_eq_of_lt hn]

/-- Settles O11: an n from 1 to COUNT takes the n oldest entries and counts no delivery; any other n is a refused access,
which leaves the store alone. -/
theorem lreDiscardRemovesOldest : Obligations.LreDiscardRemovesOldest := by
  intro q n s hn hw
  refine ⟨_, (exec_lreDiscard hn hw).trans (settle_eq ..), memStands_of_mem (effLreDiscard_mem q n s), ?_, ?_⟩
  · intro hpos hle
    have hlre := effLreDiscard_lre (q := q) hpos hle
    exact ⟨(congrArg LreState.entries hlre).trans (discardOldest_entries ..),
      (congrArg LreState.delivered hlre).trans (discardOldest_delivered ..)⟩
  · intro hrefused
    have hdetail : 0x088 + q.num * 2 ^ 20 < 2 ^ 32 := by cases q <;> decide
    rw [effLreDiscard_of_refused hrefused]
    exact ⟨refuse_lre .., told_refuse q pgLRE cCMD_REJ hdetail s⟩

end Sys2Proof.Machine
end

section
/-!
PROOFS. The block as a whole (log entries 2, 8): every command but a memory access answers the state it made, settled; what a step
therefore does with the queue and the fuses; and where a run stops.
-/
namespace Sys2Proof.Machine

/-! ### A command that has its effect -/

/-- The outcome of a command that has its effect: the state it made, settled. -/
def Acts (s : State) (o : Host.Outcome State Fault Refusal) : Prop := ∃ t, o = settle s t

theorem Acts.settle {s t : State} : Acts s (settle s t) := ⟨t, rfl⟩

/-- A command that does nothing has its effect too. -/
theorem Acts.stay {s : State} : Acts s (.next s) := ⟨s, rfl⟩

theorem Acts.ite {s : State} {c : Prop} [Decidable c] {a b : Host.Outcome State Fault Refusal} (ha : Acts s a) (hb : Acts s b) :
    Acts s (if c then a else b) := by
  split
  · exact ha
  · exact hb

theorem Acts.next {s : State} {o : Host.Outcome State Fault Refusal} (h : Acts s o) : ∃ t, o = .next t :=
  h.elim fun _ ht => ⟨_, ht⟩

/-- What a command that has its effect leaves: the queue and the fuses. -/
theorem Acts.keeps {s t : State} {o : Host.Outcome State Fault Refusal} (h : Acts s o) (ht : o = .next t) :
    t.pending = s.pending ∧ t.fuses = s.fuses := by
  obtain ⟨u, hu⟩ := h
  cases settle_next (hu.symm.trans ht)
  exact ⟨rfl, rfl⟩

/-! ### The commands that test before they act -/

theorem serve_acts (code : Nat) (k : Nat → Nat → State → State) (s : State) : Acts s (serve code k s) := by
  unfold serve; split
  · exact .settle
  · exact .stay

theorem atPort_acts (s : State) (k : State → State) : Acts s (atPort s k) := .ite .settle .stay

theorem takeControl_acts (ok : Bool) (k : State → State) (s : State) : Acts s (takeControl ok k s) :=
  .ite .stay (.ite .settle .settle)

theorem execTbSync_acts (s : State) : Acts s (execTbSync s) := by
  unfold execTbSync; split
  · exact .settle
  · exact .stay

theorem execMailboxFrameReject_acts (arrived : Option (List Byte)) (s : State) : Acts s (execMailboxFrameReject arrived s) := by
  refine .ite .stay ?_
  split
  · exact .stay
  · exact .ite .stay .settle

theorem execCalSecondBoundary_acts (s : State) : Acts s (execCalSecondBoundary s) := by
  refine .ite .stay ?_
  dsimp only; split
  · exact .ite .settle .settle
  · exact .settle

theorem execTrigClr_acts (q : Port) (p : Nat) (w : Word) (s : State) : Acts s (execTrigClr q p w s) := by
  unfold execTrigClr; split
  · exact .settle
  · exact .stay

theorem execMbrBlockReceive_acts (arrived : Option (List Byte)) (s : State) : Acts s (execMbrBlockReceive arrived s) := by
  unfold execMbrBlockReceive; split
  · exact .stay
  · exact .settle

theorem execEccInitDone_acts (s : State) : Acts s (execEccInitDone s) := by
  unfold execEccInitDone; split
  · exact .stay
  · exact .ite .stay .settle

theorem execPatrolScrub_acts (ctl : Option (Fin 12)) (u : Upset) (s : State) : Acts s (execPatrolScrub ctl u s) := by
  unfold execPatrolScrub; split
  · refine .ite .stay ?_
    split
    · exact .settle
    · exact .ite .settle (.ite .settle (.ite .stay .settle))
  · exact .ite .stay .settle

theorem execRangeClrDone_acts (s : State) : Acts s (execRangeClrDone s) := by
  unfold execRangeClrDone; split
  · exact .stay
  · exact .ite .stay .settle

theorem execRunJobStart_acts (u : Fin 32) (s : State) : Acts s (execRunJobStart u s) := by
  unfold execRunJobStart; split
  · exact .settle
  · exact .stay

theorem execLaunch_acts (u : Fin 32) (s : State) : Acts s (execLaunch u s) := by
  unfold execLaunch; split
  · exact .settle
  · exact .settle
  · exact .stay

theorem execDataFrameSend_acts (s : State) : Acts s (execDataFrameSend s) := by
  refine .ite .stay ?_
  split
  · exact .settle
  · split
    · exact .stay
    · exact .ite .stay .settle

theorem execRetxTimeout_acts (s : State) : Acts s (execRetxTimeout s) := by
  refine .ite .stay ?_
  split
  · exact .stay
  · exact .ite .stay .settle

theorem execDataFrameReceive_acts (frame : List Byte) (s : State) : Acts s (execDataFrameReceive frame s) := by
  refine .ite .stay (.ite .settle (.ite .settle (.ite .stay (.ite .settle ?_))))
  dsimp only; split
  · exact .settle
  · exact .settle

/-- Every command but a memory access has its effect, whatever the state (log entry 2). -/
theorem exec_acts (c : Instr) (s : State) (hread : ∀ a n u, c ≠ .memRead a n u) (hwrite : ∀ a d u, c ≠ .memWrite a d u) :
    Acts s (exec c s) := by
  cases c with
  | memRead a n u => exact absurd rfl (hread a n u)
  | memWrite a d u => exact absurd rfl (hwrite a d u)
  | sealChange => exact .ite .stay (.ite .settle (.ite .stay .settle))
  | metPowerUp | metVinLoss | vbatBrownOut | statusBlockSend | metCycle | fastSample | fastSampleRelease | fineSample
  | fineSampleRelease | requestAdmit | regulatorInterval | resInitDone => exact .ite .stay .settle
  | startJourney | stopJourney | readRecord | readAudit | readIdentity => unfold exec; apply serve_acts
  | verId | verStat | verRd | verWr | verAud | verJrn | verGap | verify | verLineInvalid | calStage | calCommit | calRead =>
    unfold exec; apply atPort_acts
  | ack | nak | credit | delivered | refuse | abandon | down => unfold exec; apply takeControl_acts
  | reclaimDone | tbSyncSend | tileAbsent | absentSample | dmcTrainDone | trainTimeout | selfRefreshEntry | trainSlow =>
    exact .ite .settle .stay
  | mr4Read => exact .ite .stay (.ite .settle (.ite .settle .stay))
  | flgGroupRead => exact .ite .stay (.ite .settle .settle)
  | plkTrainingDone => exact .ite .stay (.ite .settle .settle)
  | tbSync => exact execTbSync_acts s
  | mailboxFrameReject => exact execMailboxFrameReject_acts ..
  | calSecondBoundary => exact execCalSecondBoundary_acts s
  | trigClr => exact execTrigClr_acts ..
  | mbrBlockReceive => exact execMbrBlockReceive_acts ..
  | eccInitDone => exact execEccInitDone_acts s
  | patrolScrub => exact execPatrolScrub_acts ..
  | rangeClrDone => exact execRangeClrDone_acts s
  | runJobStart => exact execRunJobStart_acts ..
  | launch => exact execLaunch_acts ..
  | dataFrameSend => exact execDataFrameSend_acts s
  | retxTimeout => exact execRetxTimeout_acts s
  | dataFrameReceive => exact execDataFrameReceive_acts ..
  | _ => exact ⟨_, rfl⟩

/-! ### Memory accesses -/

/-- A memory read of no byte does nothing; one of a range that is no data stops the run; any other has its effect (R81). -/
theorem execMemRead_cases (a n : Nat) (u : Upset) (s : State) :
    Acts s (execMemRead a n u s) ∨ n ≠ 0 ∧ isData s a n = false ∧ execMemRead a n u s = .fault (.unmapped a) := by
  unfold execMemRead
  by_cases hn : n = 0
  case pos => exact .inl (by rw [if_pos hn]; exact .stay)
  case neg =>
    rw [if_neg hn]
    cases isData s a n
    case false => exact .inr ⟨hn, rfl, rfl⟩
    case true =>
      simp only [Bool.not_true, Bool.false_eq_true, if_false]
      exact .inl (.ite .stay .settle)

/-- The same for a memory write. -/
theorem execMemWrite_cases (a : Nat) (d : List Byte) (u : Upset) (s : State) :
    Acts s (execMemWrite a d u s) ∨ d ≠ [] ∧ isData s a d.length = false ∧ execMemWrite a d u s = .fault (.unmapped a) := by
  unfold execMemWrite
  cases d with
  | nil => exact .inl .stay
  | cons b l =>
    cases isData s a (b :: l).length
    case false => exact .inr ⟨List.cons_ne_nil b l, rfl, rfl⟩
    case true =>
      simp only [List.isEmpty_cons, Bool.not_true, Bool.false_eq_true, if_false]
      exact .inl (.ite .stay .settle)

/-- Every command has its effect, or is a memory access of addresses that are no data, which stops the run. -/
theorem exec_cases (c : Instr) (s : State) : Acts s (exec c s) ∨
    (∃ a n u, c = .memRead a n u ∧ n ≠ 0 ∧ isData s a n = false ∧ exec c s = .fault (.unmapped a)) ∨
    (∃ a d u, c = .memWrite a d u ∧ d ≠ [] ∧ isData s a d.length = false ∧ exec c s = .fault (.unmapped a)) := by
  by_cases hread : ∃ a n u, c = .memRead a n u
  case pos =>
    obtain ⟨a, n, u, rfl⟩ := hread
    exact (execMemRead_cases a n u s).imp_right fun h => .inl ⟨a, n, u, rfl, h⟩
  case neg =>
    by_cases hwrite : ∃ a d u, c = .memWrite a d u
    case pos =>
      obtain ⟨a, d, u, rfl⟩ := hwrite
      exact (execMemWrite_cases a d u s).imp_right fun h => .inr ⟨a, d, u, rfl, h⟩
    case neg => exact .inl (exec_acts c s (fun a n u h => hread ⟨a, n, u, h⟩) fun a d u h => hwrite ⟨a, d, u, h⟩)

/-- A command that answers a next state leaves the queue and the fuses. -/
theorem exec_keeps {c : Instr} {s t : State} (h : exec c s = .next t) : t.pending = s.pending ∧ t.fuses = s.fuses := by
  obtain hacts | ⟨_, _, _, -, -, -, hfault⟩ | ⟨_, _, _, -, -, -, hfault⟩ := exec_cases c s
  · exact hacts.keeps h
  · cases h.symm.trans hfault
  · cases h.symm.trans hfault

/-! ### The statements -/

/-- Settles O58: a command has its effect, and so answers a next state, but for the accesses of `exec_cases`. -/
theorem onlyUnmappedAccessesStop : Obligations.OnlyUnmappedAccessesStop :=
  fun c s => (exec_cases c s).imp_left Acts.next

/-- A tick moves the time base, and with it registers of its page; the rest stands. -/
theorem tick_eq (s : State) : tick s = { s with tb := (tick s).tb, regs := (tick s).regs } := by
  unfold tick; split
  · rfl
  · dsimp only; split
    · rfl
    · split <;> rfl

/-- Settles O57: on an empty queue a tick leaves queue and fuses; else the first command leaves the rest of the queue. -/
theorem everyStepKeepsQueueAndFuses : Obligations.EveryStepKeepsQueueAndFuses := by
  intro s t hwf hstep
  unfold State.QueueWf
  unfold step at hstep
  split at hstep
  next hempty =>
    cases hstep
    rw [tick_eq s, hempty]
    exact ⟨rfl, fun _ hc => absurd hc List.not_mem_nil, rfl⟩
  next c rest hfull =>
    obtain ⟨hpending, hfuses⟩ := exec_keeps hstep
    rw [hpending, hfuses, hfull]
    exact ⟨rfl, fun d hd => hwf d (hfull ▸ List.mem_cons_of_mem c hd), rfl⟩

/-- Settles O55: the command taken leaves the state as it was before it was put at the front. -/
theorem stepTakesFront : Obligations.StepTakesFront := fun _ _ => rfl

end Sys2Proof.Machine
end

section
/-!
PROOFS. Chapter 17, what the compartment can change (R11, R525, R541): the operations of the compartment one by one, each of which
keeps to it and leaves the audit trail a prefix of what it makes of it, and the statement assembled from these.
-/
namespace Sys2Proof.Machine

/-! ### Keeping to the compartment -/

/-- Only the compartment changes; the audit trail only grows, and not beyond 1,024 records. -/
def KeepsToMet (s t : State) : Prop :=
  OnlyMet s t ∧ s.met.audit <+: t.met.audit ∧ (s.met.audit.length ≤ 1024 → t.met.audit.length ≤ 1024)

theorem OnlyMet.eq {s t : State} (h : OnlyMet s t) : t = { s with met := t.met, freeCtr := t.freeCtr } := h

theorem OnlyMet.refl (s : State) : OnlyMet s s := rfl

theorem OnlyMet.trans {s t u : State} (h : OnlyMet s t) (g : OnlyMet t u) : OnlyMet s u :=
  g.eq.trans (congrArg (fun x : State => { x with met := u.met, freeCtr := u.freeCtr }) h.eq)

namespace KeepsToMet

theorem refl (s : State) : KeepsToMet s s := ⟨rfl, List.prefix_rfl, id⟩

theorem trans {s t u : State} (h : KeepsToMet s t) (g : KeepsToMet t u) : KeepsToMet s u :=
  ⟨h.1.trans g.1, h.2.1.trans g.2.1, g.2.2 ∘ h.2.2⟩

/-- The last operation first, as a function's body shows it. -/
theorem after {s t u : State} (g : KeepsToMet t u) (h : KeepsToMet s t) : KeepsToMet s u := h.trans g

theorem ite {s a b : State} {c : Prop} [Decidable c] (ha : KeepsToMet s a) (hb : KeepsToMet s b) :
    KeepsToMet s (if c then a else b) := by
  split
  · exact ha
  · exact hb

theorem foldl {α : Type} {f : State → α → State} (h : ∀ t a, KeepsToMet t (f t a)) (l : List α) (s : State) :
    KeepsToMet s (l.foldl f s) :=
  foldl_keeps (KeepsToMet s) f (fun t a ht => ht.trans (h t a)) l (refl s)

/-- A command of the compartment ends in what it made: queue and fuses stood anyway. -/
theorem of_settle {s u t : State} (ht : Machine.settle s u = .next t) (h : KeepsToMet s u) : KeepsToMet s t := by
  have hfuses : u.fuses = s.fuses := (congrArg State.fuses h.1.eq).trans rfl
  have hpending : u.pending = s.pending := (congrArg State.pending h.1.eq).trans rfl
  rw [settle_eq, ← hfuses, ← hpending] at ht
  exact Host.Outcome.next.inj ht ▸ h

theorem of_stay {s t : State} (ht : (Host.Outcome.next s : Host.Outcome State Fault Refusal) = .next t) : KeepsToMet s t :=
  Host.Outcome.next.inj ht ▸ refl s

end KeepsToMet

/-! ### The fields of the compartment -/

theorem modMet_keeps {f : Met → Met} {s : State} (h : (f s.met).audit = s.met.audit) : KeepsToMet s (modMet f s) :=
  ⟨rfl, show s.met.audit <+: (f s.met).audit from h ▸ List.prefix_rfl, by rw [show (modMet f s).met = f s.met from rfl, h]; exact id⟩

theorem modCal_keeps (f : Calendar → Calendar) (s : State) : KeepsToMet s (modCal f s) := modMet_keeps rfl

theorem modJourney_keeps (f : Journey → Journey) (s : State) : KeepsToMet s (modJourney f s) := modMet_keeps rfl

theorem nextFree_keeps (s : State) : KeepsToMet s (nextFree s) := ⟨rfl, List.prefix_rfl, id⟩

theorem answer_keeps (a : VerAnswer) (s : State) : KeepsToMet s (answer a s) := modMet_keeps rfl

theorem reply_keeps (code seq result : Nat) (record : List Byte) (s : State) : KeepsToMet s (reply code seq result record s) :=
  modMet_keeps rfl

@[simp] theorem mapChans_audit (f : Nat → WheelCh → WheelCh) (m : Met) : (m.mapChans f).audit = m.audit :=
  foldl_keeps (fun a : Met => a.audit = m.audit) (fun a c => a.setChan c (f c (a.chan c))) (fun _ _ h => h) _ rfl

@[simp] theorem sendBlock_audit (type : Nat) (payload : List Byte) (m : Met) : (sendBlock type payload m).audit = m.audit := by
  unfold sendBlock; split <;> rfl

@[simp] theorem closeCycle_audit (m : Met) : (closeCycle m).audit = m.audit := by
  unfold closeCycle; split
  · rfl
  · refine foldl_keeps (fun a : Met => a.audit = m.audit) _ (fun _ _ h => (sendBlock_audit ..).trans h) _ ?_
    dsimp only; split
    · exact sendBlock_audit ..
    · rfl

@[simp] theorem damageParam_audit (d : Nat × Bool × Nat × Nat) (m : Met) : (damageParam d m).audit = m.audit := by
  unfold damageParam; split <;> rfl

@[simp] theorem putParam_audit (off v : Nat) (m : Met) : (putParam off v m).audit = m.audit := by
  unfold putParam; dsimp only; split
  · rfl
  · split <;> rfl

/-! ### Records -/

/-- A record joins the trail where there is room for it. -/
theorem auditRecord_keeps (kind off : Nat) (cal old new : List Byte) (s : State) :
    KeepsToMet s (auditRecord kind off cal old new s) := by
  unfold auditRecord
  by_cases hfull : s.met.auditFull = true
  case pos => rw [if_pos hfull]; exact .refl s
  case neg =>
    rw [if_neg hfull]
    have hroom : s.met.audit.length < 1024 := by simpa [Met.auditFull] using hfull
    refine ⟨rfl, List.prefix_append .., fun _ => ?_⟩
    simp only [nextFree, modMet, List.length_append, List.length_singleton]
    omega

theorem auditPlain_keeps (kind : Nat) (cal : List Byte) (s : State) : KeepsToMet s (auditPlain kind cal s) :=
  (auditRecord_keeps ..).trans ((nextFree_keeps _).trans (nextFree_keeps _))

theorem stampFlags_keeps (s : State) : KeepsToMet s (stampFlags s) := modJourney_keeps _ s

theorem rewriteJourney_keeps (s : State) : KeepsToMet s (rewriteJourney s) := by
  unfold rewriteJourney; dsimp only; split
  · exact .refl s
  · exact (stampFlags_keeps s).trans (.after (nextFree_keeps _) (modMet_keeps rfl))

theorem writeGap_keeps (ch cause : Nat) (start stop : Stamp) (s : State) : KeepsToMet s (writeGap ch cause start stop s) := by
  unfold writeGap; split
  · exact .refl s
  · exact (modMet_keeps rfl).trans (modJourney_keeps _ _)

theorem recordSeal_keeps (toOpen : Bool) (cal : List Byte) (s : State) : KeepsToMet s (recordSeal toOpen cal s) := by
  have hrecord : KeepsToMet s (if s.met.auditFull then modMet (fun m => { m with eventCtr := satN 32 (m.eventCtr + 1) }) s
      else auditPlain (if toOpen then 1 else 2) cal s) := .ite (modMet_keeps rfl) (auditPlain_keeps ..)
  exact .ite (hrecord.trans (modJourney_keeps _ _)) hrecord

/-! ### Power -/

theorem checkFw_keeps (crc : Nat) (clear : Bool) (s : State) : KeepsToMet s (checkFw crc clear s) := by
  have hcrc : KeepsToMet s (modMet (fun m => { m with fwCrc := crc }) s) := modMet_keeps rfl
  exact .ite (.ite (hcrc.trans (modMet_keeps rfl)) hcrc)
    (.ite hcrc ((hcrc.trans (modMet_keeps rfl)).trans (auditPlain_keeps ..)))

theorem checkParam_keeps (off : Nat) (s : State) : KeepsToMet s (checkParam off s) := by
  unfold checkParam; dsimp only; split
  · exact modMet_keeps rfl
  · exact (auditRecord_keeps ..).trans (modMet_keeps rfl)
  · exact (auditRecord_keeps ..).trans (modMet_keeps rfl)
  · exact (modMet_keeps rfl).trans (nextFree_keeps _)

theorem checkCal_keeps (ok : Bool) (s : State) : KeepsToMet s (checkCal ok s) := .ite (.refl s) (modCal_keeps _ s)

theorem resumeJourney_keeps (s : State) : KeepsToMet s (resumeJourney s) := by
  unfold resumeJourney; split
  · exact .refl s
  · refine (modJourney_keeps _ s).trans (.trans (.foldl (fun a c => ?_) _ _) ((nextFree_keeps _).trans (rewriteJourney_keeps _)))
    exact .ite (writeGap_keeps ..) (.refl a)

theorem execMetPowerUp_keeps {r : MetPowerUp} {s t : State} (h : execMetPowerUp r s = .next t) : KeepsToMet s t := by
  unfold execMetPowerUp at h; split at h
  · exact .of_stay h
  · refine .of_settle h ?_
    refine .after (resumeJourney_keeps _) (.after (.foldl (fun _ _ => recordSeal_keeps ..) _ _) (.after (modMet_keeps rfl)
      (.after (checkFw_keeps ..) (.after (.foldl (fun _ _ => checkParam_keeps ..) _ _) (.after (checkCal_keeps ..) (modMet_keeps ?_))))))
    exact foldl_keeps (fun a : Met => a.audit = s.met.audit) _ (fun _ _ ha => (damageParam_audit ..).trans ha) _ rfl

theorem execSealChange_keeps {toOpen : Bool} {s t : State} (h : execSealChange toOpen s = .next t) : KeepsToMet s t := by
  unfold execSealChange at h; split at h
  · exact .of_stay h
  · split at h
    · exact .of_settle h (modMet_keeps rfl)
    · split at h
      · exact .of_stay h
      · refine .of_settle h ?_
        exact .trans (.trans (modMet_keeps rfl) (.ite (.refl _) (modCal_keeps ..))) (recordSeal_keeps ..)

/-! ### The cycle and the mailbox -/

theorem gapStep_keeps (at_ : Stamp) (c : Nat) (valid : Bool) (s : State) : KeepsToMet s (gapStep at_ c valid s) := by
  unfold gapStep; split
  · exact .refl s
  · split
    · exact modJourney_keeps _ s
    · exact (writeGap_keeps ..).trans (modJourney_keeps _ _)
    · exact .refl s

theorem distanceStep_keeps (s : State) : KeepsToMet s (distanceStep s) := by
  unfold distanceStep
  refine .after (modMet_keeps rfl) (.after (nextFree_keeps _) (.after (.foldl (fun a c => ?_) _ _) (.after (modJourney_keeps _ _)
    (modMet_keeps ?_))))
  · exact .ite (gapStep_keeps ..) (.refl a)
  · refine foldl_keeps (fun a : Met => a.audit = s.met.audit) _ (fun a c ha => ?_) _ rfl
    split
    · exact ha
    · exact ha

theorem framFailed_keeps (s : State) : KeepsToMet s (framFailed s) :=
  .ite (.refl s) ((modMet_keeps rfl).trans (auditPlain_keeps ..))

theorem execMetCycle_keeps {n : Nat} {b : Bool} {s t : State} (h : execMetCycle n b s = .next t) : KeepsToMet s t := by
  unfold execMetCycle at h; split at h
  · exact .of_stay h
  · refine .of_settle h ?_
    exact .trans (.trans (.trans (.trans (modMet_keeps rfl) (distanceStep_keeps _)) (.ite (framFailed_keeps _) (.refl _)))
      (.ite (rewriteJourney_keeps _) (.refl _))) (modMet_keeps (closeCycle_audit _))

theorem served_keeps (s : State) : KeepsToMet s (served s) := modMet_keeps (closeCycle_audit _)

theorem serve_keeps {code : Nat} {k : Nat → Nat → State → State} {s t : State} (h : serve code k s = .next t)
    (hk : ∀ seq p s, KeepsToMet s (k seq p s)) : KeepsToMet s t := by
  unfold serve at h; split at h
  · exact .of_settle h ((hk ..).trans (served_keeps _))
  · exact .of_stay h

theorem replyRecord_keeps (code seq : Nat) (r : Option (List Byte)) (s : State) : KeepsToMet s (replyRecord code seq r s) := by
  unfold replyRecord; split
  · exact reply_keeps ..
  · exact reply_keeps ..

theorem openJourney_keeps (hostRef : Nat) (s : State) : KeepsToMet s (openJourney hostRef s) := by
  unfold openJourney
  exact .after (rewriteJourney_keeps _) (.after (nextFree_keeps _) (modMet_keeps (by simp only [mapChans_audit])))

theorem closeJourney_keeps (s : State) : KeepsToMet s (closeJourney s) := by
  unfold closeJourney
  refine .after (modMet_keeps rfl) (.after (rewriteJourney_keeps _) (.after (modJourney_keeps _ _) (.after (nextFree_keeps _)
    (.foldl (fun a c => ?_) _ _))))
  split
  · split
    · exact writeGap_keeps ..
    · exact .refl a
  · exact .refl a

theorem execStartJourney_keeps {s t : State} (h : execStartJourney s = .next t) : KeepsToMet s t :=
  serve_keeps h (fun _ _ _ => .ite (reply_keeps ..) ((openJourney_keeps ..).trans (reply_keeps ..)))

theorem execStopJourney_keeps {s t : State} (h : execStopJourney s = .next t) : KeepsToMet s t := by
  refine serve_keeps h (fun seq p s => ?_)
  split
  · exact .ite ((closeJourney_keeps s).trans (reply_keeps ..)) (reply_keeps ..)
  · exact reply_keeps ..

theorem execReadRecord_keeps {s t : State} (h : execReadRecord s = .next t) : KeepsToMet s t :=
  serve_keeps h fun _ _ _ => replyRecord_keeps ..

theorem execReadAudit_keeps {s t : State} (h : execReadAudit s = .next t) : KeepsToMet s t :=
  serve_keeps h fun _ _ _ => replyRecord_keeps ..

theorem execReadIdentity_keeps {s t : State} (h : execReadIdentity s = .next t) : KeepsToMet s t :=
  serve_keeps h fun _ _ _ => reply_keeps ..

theorem execTbSync_keeps {s t : State} (h : execTbSync s = .next t) : KeepsToMet s t := by
  unfold execTbSync at h; split at h
  · exact .of_settle h (.after (served_keeps _) (modMet_keeps rfl))
  · exact .of_stay h

theorem execMailboxFrameReject_keeps {arrived : Option (List Byte)} {s t : State} (h : execMailboxFrameReject arrived s = .next t) :
    KeepsToMet s t := by
  unfold execMailboxFrameReject at h; split at h
  · exact .of_stay h
  · split at h
    · exact .of_stay h
    · split at h
      · exact .of_stay h
      · exact .of_settle h (.after (served_keeps _) (modMet_keeps rfl))

/-! ### Samples and the calendar -/

theorem noteSat_keeps (old : Met) (s : State) : KeepsToMet s (noteSat old s) := .ite (modJourney_keeps ..) (.refl s)

/-- A command that tests and then acts on the compartment. -/
theorem keeps_of_ite {c : Prop} [Decidable c] {s u t : State}
    (h : (if c then Host.Outcome.next s else settle s u) = .next t) (hu : KeepsToMet s u) : KeepsToMet s t := by
  split at h
  · exact .of_stay h
  · exact .of_settle h hu

/-- The clocks of the fast samples are no part of the trail. -/
theorem audit_of_clocks (m : Met) (n k : Nat) : { m with fastN := n, ms := k }.audit = m.audit := rfl

theorem execFastSample_keeps {b0 b1 b2 b3 : BitVec 16} {s t : State} (h : execFastSample b0 b1 b2 b3 s = .next t) : KeepsToMet s t := by
  unfold execFastSample at h; split at h
  · exact .of_stay h
  · exact .of_settle h (.after (noteSat_keeps ..) (modMet_keeps ((audit_of_clocks ..).trans (mapChans_audit ..))))

theorem execCalSecondBoundary_keeps {s t : State} (h : execCalSecondBoundary s = .next t) : KeepsToMet s t := by
  unfold execCalSecondBoundary at h; split at h
  · exact .of_stay h
  · dsimp only at h; split at h
    · split at h
      · exact .of_settle h (.after (modCal_keeps ..) (modMet_keeps rfl))
      · exact .of_settle h (.after (auditRecord_keeps ..) (.after (modCal_keeps ..) (modMet_keeps rfl)))
    · exact .of_settle h (.after (modCal_keeps ..) (modMet_keeps rfl))

/-! ### The verification port -/

theorem atPort_keeps {k : State → State} {s t : State} (h : atPort s k = .next t) (hk : ∀ s, KeepsToMet s (k s)) : KeepsToMet s t := by
  unfold atPort at h; split at h
  · exact .of_settle h (hk s)
  · exact .of_stay h

theorem answerRecord_keeps (r : Option (List Byte)) (s : State) : KeepsToMet s (answerRecord r s) := by
  unfold answerRecord; split
  · exact answer_keeps ..
  · exact answer_keeps ..

theorem execVerRd_keeps {n : Nat} {s t : State} (h : execVerRd n s = .next t) : KeepsToMet s t := by
  refine atPort_keeps h (fun s => ?_)
  split
  · exact answer_keeps ..
  · exact answer_keeps ..

theorem execVerWr_keeps {n m : Nat} {s t : State} (h : execVerWr n m s = .next t) : KeepsToMet s t := by
  refine atPort_keeps h (fun s => .ite (answer_keeps ..) ?_)
  split
  · exact answer_keeps ..
  · exact .ite (answer_keeps ..) (.ite (answer_keeps ..)
      ((auditRecord_keeps ..).trans ((modMet_keeps (putParam_audit ..)).trans (answer_keeps ..))))

theorem execCalStage_keeps {text : List Byte} {s t : State} (h : execCalStage text s = .next t) : KeepsToMet s t := by
  refine atPort_keeps h (fun s => ?_)
  split
  · exact answer_keeps ..
  · split
    · exact (modCal_keeps ..).trans (answer_keeps ..)
    · exact answer_keeps ..

theorem execCalCommit_keeps {s t : State} (h : execCalCommit s = .next t) : KeepsToMet s t :=
  atPort_keeps h (fun _ => .ite (answer_keeps ..) (.ite (answer_keeps ..) (.ite ((modCal_keeps ..).trans (answer_keeps ..))
    ((modCal_keeps ..).trans (answer_keeps ..)))))

/-! ### The statement -/

/-- Settles O59: each command of the compartment is made of operations that keep to it. -/
theorem compartmentKeepsToItself : Obligations.CompartmentKeepsToItself := by
  intro p w b0 b1 b2 b3 n m b bytes arrived c s t hc h
  change KeepsToMet s t
  simp only [List.mem_cons, List.not_mem_nil, or_false] at hc
  obtain rfl | rfl | rfl | rfl | rfl | rfl | rfl | rfl | rfl | rfl | rfl | rfl | rfl | rfl | rfl | rfl | rfl | rfl | rfl | rfl |
    rfl | rfl | rfl | rfl | rfl | rfl | rfl | rfl | rfl | rfl := hc <;> unfold exec at h
  case _ => exact execMetPowerUp_keeps h
  case _ => exact keeps_of_ite h (.after (nextFree_keeps _) (modMet_keeps rfl))
  case _ => exact execMetCycle_keeps h
  case _ => exact execSealChange_keeps h
  case _ => exact keeps_of_ite h (modMet_keeps (sendBlock_audit ..))
  case _ => exact execStartJourney_keeps h
  case _ => exact execStopJourney_keeps h
  case _ => exact execReadRecord_keeps h
  case _ => exact execReadAudit_keeps h
  case _ => exact execReadIdentity_keeps h
  case _ => exact execTbSync_keeps h
  case _ => exact execMailboxFrameReject_keeps h
  case _ => exact atPort_keeps h (fun _ => (checkFw_keeps ..).trans ((modMet_keeps rfl).trans (answer_keeps ..)))
  case _ => exact atPort_keeps h (fun _ => answer_keeps ..)
  case _ => exact execVerRd_keeps h
  case _ => exact execVerWr_keeps h
  case _ => exact atPort_keeps h (fun _ => answerRecord_keeps ..)
  case _ => exact atPort_keeps h (fun _ => answerRecord_keeps ..)
  case _ => exact atPort_keeps h (fun _ => answerRecord_keeps ..)
  case _ => exact atPort_keeps h (fun _ => .ite (answer_keeps ..) (answer_keeps ..))
  case _ => exact atPort_keeps h (fun _ => answer_keeps ..)
  case _ => exact execCalStage_keeps h
  case _ => exact execCalCommit_keeps h
  case _ => exact atPort_keeps h (fun _ => answer_keeps ..)
  case _ => exact execCalSecondBoundary_keeps h
  case _ => exact execFastSample_keeps h
  case _ => exact keeps_of_ite h (modMet_keeps (by simp only [mapChans_audit]))
  case _ => exact keeps_of_ite h (.after (noteSat_keeps ..) (modMet_keeps (by simp only [mapChans_audit])))
  case _ => exact keeps_of_ite h (modMet_keeps (by simp only [mapChans_audit]))
  case _ => exact keeps_of_ite h (modCal_keeps ..)

end Sys2Proof.Machine
end

section
/-!
PROOFS. What the statements' proofs share: the gate for a port that may write, what reaches a port when an event is raised, what of
the register file stands, and the frame of an event in the terms of the statements.
-/
namespace Sys2Proof.Machine

/-! ### The gate -/

theorem gateWrite_mayWrite {q : Port} {p off : Nat} {k : State → State} {s : State} (h : MayWrite s q p off) :
    gateWrite q p off k s = k s :=
  gateWrite_of h.1 h.2.1 h.2.2.1 h.2.2.2

/-- A page that is on belongs to a part with power. -/
theorem pd0_of_domOn {s : State} {d : Nat} (h : domOn s d = true) : s.pd0 = true := by
  unfold domOn at h; exact (Bool.and_eq_true_iff.mp h).1

theorem domOn_of_pageOn {s : State} {p : Nat} (h : pageOn s p = true) : domOn s (domainOf p) = true := by
  unfold pageOn at h; exact (Bool.and_eq_true_iff.mp h).2

theorem assigned_of_pageOn {s : State} {p : Nat} (h : pageOn s p = true) : assigned p = true := by
  unfold pageOn at h; exact (Bool.and_eq_true_iff.mp h).1

theorem pd0_of_pageOn {s : State} {p : Nat} (h : pageOn s p = true) : s.pd0 = true := pd0_of_domOn (domOn_of_pageOn h)

theorem domOn_of_portLive {s : State} {q : Port} (h : portLive s q = true) : domOn s 1 = true := by
  unfold portLive at h; exact (Bool.and_eq_true_iff.mp h).1

theorem up_of_portLive {s : State} {q : Port} (h : portLive s q = true) : (s.port q).up = true := by
  unfold portLive at h; exact (Bool.and_eq_true_iff.mp h).2

/-! ### Registers that stand -/

/-- A field of the state other than the register file and the records on their way stands. -/
theorem ReportsOnly.field {α : Type} {s t : State} (h : ReportsOnly s t) (f : State → α)
    (hf : ∀ x r o, f { x with regs := r, outbox := o } = f x := by exact fun _ _ _ => rfl) : f t = f s :=
  (congrArg f h.eq).trans (hf ..)

/-- Whether a domain is on shows in PD0's power and in `PWR_DOM_STATE` alone. -/
theorem domOn_congr {s t : State} (hpd0 : t.pd0 = s.pd0) (h : rd t pgPWR 0x080 = rd s pgPWR 0x080) (d : Nat) :
    domOn t d = domOn s d := by
  unfold domOn rdB; rw [hpd0, h]

theorem pageOn_congr {s t : State} (hpd0 : t.pd0 = s.pd0) (h : rd t pgPWR 0x080 = rd s pgPWR 0x080) (p : Nat) :
    pageOn t p = pageOn s p := by
  unfold pageOn; rw [domOn_congr hpd0 h]

theorem domOn_wr {p off : Nat} (h : off < 0x1000) (hne : ¬(p = pgPWR ∧ off = 0x080)) (v : Word) (s : State) (d : Nat) :
    domOn (wr p off v s) d = domOn s d :=
  domOn_congr (s := s) (wr_pd0 ..) (rd_wr_key (regKey_ne h (by decide) (fun e => hne ⟨e.1.symm, e.2.symm⟩)) v s) d

theorem pageOn_wr {p off : Nat} (h : off < 0x1000) (hne : ¬(p = pgPWR ∧ off = 0x080)) (v : Word) (s : State) (p' : Nat) :
    pageOn (wr p off v s) p' = pageOn s p' :=
  pageOn_congr (s := s) (wr_pd0 ..) (rd_wr_key (regKey_ne h (by decide) (fun e => hne ⟨e.1.symm, e.2.symm⟩)) v s) p'

theorem pageOn_setEvt (p : Nat) (b : Option Nat) (s : State) (p' : Nat) : pageOn (setEvt p b s) p' = pageOn s p' :=
  pageOn_congr ((setEvt_reports p b s).field State.pd0) (rd_setEvt (by decide) (by omega) b s) p'

theorem pageOn_raise (p c v d : Nat) (s : State) (p' : Nat) : pageOn (raise p c v d s) p' = pageOn s p' :=
  pageOn_congr (raise_pd0 ..) (rd_raise (by decide) (by omega) c v d s) p'

theorem domOn_raise (p c v d : Nat) (s : State) (n : Nat) : domOn (raise p c v d s) n = domOn s n :=
  domOn_congr (raise_pd0 ..) (rd_raise (by decide) (by omega) c v d s) n

theorem regsStandBut_refl (ps : List Nat) (s : State) : RegsStandBut ps s s := fun _ _ _ _ => rfl

theorem RegsStandBut.trans {ps : List Nat} {s t u : State} (h : RegsStandBut ps s t) (g : RegsStandBut ps t u) : RegsStandBut ps s u :=
  fun p off ho hp => (g p off ho hp).trans (h p off ho hp)

theorem regsStandBut_wr {off : Nat} (ho : off < 0x1000) (p : Nat) (v : Word) (s : State) : RegsStandBut [p] s (wr p off v s) :=
  fun _ _ ho' hp => rd_wr_page ho ho' (fun h => hp (List.mem_singleton.mpr h)) v s

theorem regsStandBut_raise (p c v d : Nat) (s : State) : RegsStandBut [p] s (raise p c v d s) :=
  fun _ _ ho hp => rd_raise ho (fun h => hp (List.mem_singleton.mpr h.1)) c v d s

theorem regsStandBut_incCnt {off : Nat} (ho : off < 0x1000) (p n : Nat) (s : State) : RegsStandBut [p] s (incCnt p off n s) :=
  fun _ _ ho' hp => rd_incCnt_ne ho ho' (fun h => hp (List.mem_singleton.mpr h.1)) n s

theorem regsStandBut_setReady (p v : Nat) (s : State) : RegsStandBut [p] s (setReady p v s) :=
  fun _ _ ho hp => rd_setReady_ne ho (fun h => hp (List.mem_singleton.mpr h.1)) v s

theorem MemStands.refl (s : State) : MemStands s s := fun _ => rfl

theorem MemStands.trans {s t u : State} (h : MemStands s t) (g : MemStands t u) : MemStands s u := fun a => (g a).trans (h a)

/-! ### What an operation leaves alone -/

/-- The part of the state that `f` shows stands. -/
def Same {α : Type} (f : State → α) (s t : State) : Prop := f t = f s

namespace Same

variable {α : Type} {f : State → α} {s t u a b : State}

theorem refl (s : State) : Same f s s := rfl

/-- The last operation first, as a function's body shows it. -/
theorem after (g : Same f t u) (h : Same f s t) : Same f s u := Eq.trans g h

theorem ite {c : Prop} [Decidable c] (ha : Same f s a) (hb : Same f s b) : Same f s (if c then a else b) := by
  split
  · exact ha
  · exact hb

theorem foldl {β : Type} {g : State → β → State} (h : ∀ t x, Same f t (g t x)) (l : List β) (s : State) : Same f s (l.foldl g s) :=
  foldl_keeps (Same f s) g (fun t x ht => (h t x).after ht) l (refl s)

/-- An operation that reports leaves everything but the register file and the records on their way. -/
theorem reports (h : ReportsOnly s t) (hf : ∀ x r o, f { x with regs := r, outbox := o } = f x := by exact fun _ _ _ => rfl) :
    Same f s t := h.field f hf

/-- A gated write leaves what a refusal and its effect leave. -/
theorem gate {q : Port} {p off : Nat} {k : State → State} (hk : Same f s (k s))
    (hf : ∀ x r o, f { x with regs := r, outbox := o } = f x := by exact fun _ _ _ => rfl) : Same f s (gateWrite q p off k s) :=
  .ite (refl s) (.ite (reports (refuse_reports ..) hf) (.ite (reports (refuse_reports ..) hf)
    (.ite (reports (refuse_reports ..) hf) hk)))

/-- What a command leaves that has its effect; the queue and the fuses are no part of it. -/
theorem of_settle (ht : settle s u = .next t) (h : Same f s u)
    (hf : ∀ z x y, f { z with fuses := x, pending := y } = f z := by exact fun _ _ _ => rfl) : Same f s t := by
  rw [settle_next ht]; exact (hf ..).trans h

end Same

/-! ### Records on their way -/

theorem Told.mono {s t : State} (h : s.outbox <+: t.outbox) {q : Port} {p c d : Nat} (ht : Told s q p c d) : Told t q p c d := by
  obtain ⟨r, hr, hrest⟩ := ht
  exact ⟨r, h.subset hr, hrest⟩

theorem post_prefix (p c v d : Nat) (a b : Bool) (s : State) : s.outbox <+: (post p c v d a b s).outbox := by
  unfold post; dsimp only; split
  · exact List.prefix_append ..
  · exact List.prefix_rfl

theorem raiseOnly_prefix (p c v d : Nat) (s : State) : s.outbox <+: (raiseOnly p c v d s).outbox := by
  unfold raiseOnly
  have h := post_prefix p c v d (destOf s p c v (evtBit p c v)).1 (destOf s p c v (evtBit p c v)).2
    (latch p c v d (setEvt p (evtBit p c v) s))
  rwa [latch_outbox, setEvt_outbox] at h

theorem hwClear_prefix (p off i : Nat) (s : State) : s.outbox <+: (hwClear p off i s).outbox := by
  unfold hwClear; split
  · exact raiseOnly_prefix p cHW_CLEAR sevINFO (off + i * 2 ^ 12) (wrB p off i false s)
  · exact List.prefix_rfl

theorem raise_prefix (p c v d : Nat) (s : State) : s.outbox <+: (raise p c v d s).outbox := by
  unfold raise; dsimp only; split
  · exact (raiseOnly_prefix ..).trans (hwClear_prefix ..)
  · exact raiseOnly_prefix ..

theorem refuse_prefix (q : Port) (p c d : Nat) (s : State) : s.outbox <+: (Machine.refuse q p c d s).outbox := by
  unfold Machine.refuse postTo
  have h := post_prefix p c sevINFO d (decide (q = .a)) (decide (q = .b)) (setEvt p (commonEvtBit c) s)
  rwa [setEvt_outbox] at h

theorem incCnt_prefix (p off n : Nat) (s : State) : s.outbox <+: (incCnt p off n s).outbox := by
  unfold incCnt; dsimp only; split
  · exact raise_prefix p cCNT_WRAP sevINFO off (wrN p off ((rd s p off).toNat + n) s)
  · exact List.prefix_rfl

theorem setReady_prefix (p v : Nat) (s : State) : s.outbox <+: (setReady p v s).outbox := by
  unfold setReady; split
  · exact List.prefix_rfl
  · exact raise_prefix p cREADY_CHANGE sevINFO v (wrN p 0x008 v s)

/-- A pair of destinations names a port. -/
def destHas (d : Bool × Bool) : Port → Bool
  | .a => d.1
  | .b => d.2

/-- A record is told to every port it is posted for. -/
theorem told_post {a b : Bool} {q : Port} (h : destHas (a, b) q = true) (p c v d : Nat) (s : State) :
    Told (post p c v d a b s) q p c (d % 2 ^ 32) := by
  cases q <;> simp_all [destHas, post, Told]

/-- An event is told to every port its record goes to (R62). -/
theorem told_raise {p c v : Nat} {s : State} {q : Port} (h : destHas (destOf s p c v (evtBit p c v)) q = true) (d : Nat) :
    Told (raise p c v d s) q p c (d % 2 ^ 32) := by
  have honly : Told (raiseOnly p c v d s) q p c (d % 2 ^ 32) := told_post h p c v d _
  unfold raise; dsimp only; split
  · exact honly.mono (hwClear_prefix ..)
  · exact honly

/-- A BLOCK_FAULT or worse goes to both ports. -/
theorem told_raise_block {v : Nat} (hv : sevBLOCK ≤ v) (q : Port) (p c d : Nat) (s : State) : Told (raise p c v d s) q p c (d % 2 ^ 32) := by
  refine told_raise ?_ d
  rw [destOf, if_pos hv]
  cases q <;> rfl

/-- On a page that no rule of the two hosts singles out, an enabled event goes to the owner. -/
theorem destOf_owner {s : State} {p c v : Nat} {b : Option Nat} {k : PageKind} (hv : v < sevBLOCK) (hk : kindOf p = some k)
    (hne : k ≠ .hp ∧ k ≠ .jnt ∧ k ≠ .mbr ∧ k ≠ .lre) (he : evtEnabled s p b = true) :
    destHas (destOf s p c v b) (owner s p) = true := by
  obtain ⟨hhp, hjnt, hmbr, hlre⟩ := hne
  rw [destOf, if_neg (Nat.not_le.mpr hv), hk]
  split <;> simp_all
  cases owner s p <;> simp [destHas]

end Sys2Proof.Machine
end

section
/-!
PROOFS. Words bit by bit: a replaced field, a software write landed field by field, signed numbers in a register, the two halves of
a 64-bit value, and what latching a fault leaves in `PG_FAULT`.
-/
namespace Sys2Proof.Machine

/-! ### Fields -/

/-- A bit of the replaced field is that of the new value. -/
theorem flag_setFld_mem (w : Word) {hi lo i : Nat} (v : Nat) (hlo : lo ≤ i) (hi' : i ≤ hi) (hh : hi < 32) :
    flag (setFld w hi lo v) i = v.testBit (i - lo) := by
  unfold flag bitOf
  rw [toNat_setFld w hi lo v (by omega) hh, testBit_putBits _ _ _ _ _ (by omega), if_pos ⟨hlo, hi'⟩]

/-- Two words with the same bits in a field hold the same field. -/
theorem fld_congr {v w : Word} {hi lo : Nat} (h : ∀ i, lo ≤ i → i ≤ hi → flag v i = flag w i) : fld v hi lo = fld w hi lo := by
  unfold fld
  apply Nat.eq_of_testBit_eq
  intro i
  rw [testBit_bitsOf, testBit_bitsOf]
  by_cases hi' : i < hi + 1 - lo
  · rw [show v.toNat.testBit (lo + i) = w.toNat.testBit (lo + i) from h (lo + i) (by omega) (by omega)]
  · simp [hi']

theorem flag_eq_getLsbD (w : Word) (i : Nat) : flag w i = w.getLsbD i := rfl

/-- A bit after a software write: taken where its field is software's, kept elsewhere, and cleared by a 1 in an event field. -/
theorem flag_landWord (fs : List Field) (lockedNow : Bool) (old w : Word) {i : Nat} (hi : i < 32) :
    flag (landWord fs lockedNow old w) i =
      ((flag old i && !flag (typeMask .cfg fs ||| typeMask .cfgh fs ||| typeMask .cnt fs ||| (if lockedNow then 0 else typeMask .lck fs)) i ||
        flag w i && flag (typeMask .cfg fs ||| typeMask .cfgh fs ||| typeMask .cnt fs ||| (if lockedNow then 0 else typeMask .lck fs)) i) &&
        !(flag w i && flag (typeMask .evt fs) i)) := by
  simp only [landWord, flag_eq_getLsbD, BitVec.getLsbD_and, BitVec.getLsbD_or, BitVec.getLsbD_not, hi, decide_true, Bool.true_and]

/-- The bits software writes: configuration, counters, and the locked fields of a page that is not locked. -/
def softMask (fs : List Field) (lockedNow : Bool) : Word :=
  typeMask .cfg fs ||| typeMask .cfgh fs ||| typeMask .cnt fs ||| (if lockedNow then 0 else typeMask .lck fs)

/-- A bit of a field that software writes takes the value written. -/
theorem flag_landWord_soft {fs : List Field} {lockedNow : Bool} (old w : Word) {i : Nat} (hi : i < 32)
    (hsoft : flag (softMask fs lockedNow) i = true) (hevt : flag (typeMask .evt fs) i = false) :
    flag (landWord fs lockedNow old w) i = flag w i := by
  rw [softMask] at hsoft
  rw [flag_landWord fs lockedNow old w hi, hsoft, hevt]
  simp

/-- A bit that is neither software's nor an event's stands. -/
theorem flag_landWord_kept {fs : List Field} {lockedNow : Bool} (old w : Word) {i : Nat} (hi : i < 32)
    (hsoft : flag (softMask fs lockedNow) i = false) (hevt : flag (typeMask .evt fs) i = false) :
    flag (landWord fs lockedNow old w) i = flag old i := by
  rw [softMask] at hsoft
  rw [flag_landWord fs lockedNow old w hi, hsoft, hevt]
  simp

/-! ### Signed numbers -/

/-- A signed value of 32 bits goes through a register unchanged. -/
theorem toSigned_ofSigned {c : Int} (hlo : -2 ^ 31 ≤ c) (hhi : c < 2 ^ 31) : toSigned 32 (BitVec.ofNat 32 (ofSigned 32 c)).toNat = c := by
  unfold toSigned ofSigned
  simp only [BitVec.toNat_ofNat]
  split <;> omega

theorem ofSigned_toSigned (w : Word) : BitVec.ofNat 32 (ofSigned 32 (toSigned 32 w.toNat)) = w := by
  apply BitVec.eq_of_toNat_eq
  have hw := w.isLt
  unfold toSigned ofSigned
  simp only [BitVec.toNat_ofNat]
  split <;> omega

theorem toSigned_eq_zero {w : Word} (h : toSigned 32 w.toNat = 0) : w = 0 := by
  have := ofSigned_toSigned w
  rw [h] at this
  exact this.symm

theorem clampI_bounds {lo hi : Int} (h : lo ≤ hi) (x : Int) : lo ≤ clampI lo hi x ∧ clampI lo hi x ≤ hi := by
  unfold clampI; split
  · exact ⟨Int.le_refl _, h⟩
  · split <;> omega

/-! ### Pairs -/

/-- The two halves of a 64-bit value. -/
theorem halves_toNat (v : Nat) :
    (BitVec.ofNat 32 v).toNat + (BitVec.ofNat 32 (v / 2 ^ 32)).toNat * 2 ^ 32 = v % 2 ^ 64 := by
  simp only [BitVec.toNat_ofNat]; omega

theorem rd64_wr64 (p off v : Nat) (s : State) : rd64 (wr64 p off v s) p off = v % 2 ^ 64 := by
  unfold rd64 wr64
  rw [show rd (wrN p (off + 4) (v / 2 ^ 32) (wrN p off v s)) p off = BitVec.ofNat 32 v from
      (rd_wr_off (by omega) ..).trans (rd_wr_same ..),
    show rd (wrN p (off + 4) (v / 2 ^ 32) (wrN p off v s)) p (off + 4) = BitVec.ofNat 32 (v / 2 ^ 32) from rd_wr_same ..]
  exact halves_toNat v

theorem rd64_congr {s t : State} {p off : Nat} (hlo : rd t p off = rd s p off) (hhi : rd t p (off + 4) = rd s p (off + 4)) :
    rd64 t p off = rd64 s p off := by
  unfold rd64; rw [hlo, hhi]

/-! ### The fault latch -/

theorem rdB_congr {s t : State} {p off : Nat} (h : rd t p off = rd s p off) (i : Nat) : rdB t p off i = rdB s p off i := by
  unfold rdB; rw [h]

theorem rdF_congr {s t : State} {p off : Nat} (h : rd t p off = rd s p off) (hi lo : Nat) : rdF t p off hi lo = rdF s p off hi lo := by
  unfold rdF; rw [h]

/-- An event of DEGRADED or above leaves a latched fault on an assigned page (R64). -/
theorem rdB_latch_valid {p v : Nat} (ha : assigned p = true) (hv : sevDEGRADED ≤ v) (hv' : v < 16) (c d : Nat) (s : State) :
    rdB (latch p c v d s) p 0x020 16 = true := by
  have hbit (n m : Nat) (hn : n < 2 ^ 16) : flag (BitVec.ofNat 32 (n + 2 ^ 16 + m * 2 ^ 17)) 16 = true := by
    unfold flag bitOf
    simp only [BitVec.toNat_ofNat, Nat.testBit_eq_decide_div_mod_eq, decide_eq_true_eq]
    omega
  have hword (x m : Nat) (hx : x = c % 2 ^ 12 + v * 2 ^ 12 + 2 ^ 16 + m * 2 ^ 17) :
      rdB (wrN p 0x024 d (wrN p 0x020 x s)) p 0x020 16 = true := by
    subst hx
    unfold rdB
    rw [show rd (wrN p 0x024 d (wrN p 0x020 _ s)) p 0x020 = BitVec.ofNat 32 _ from (rd_wr_off (by decide) ..).trans (rd_wr_same ..)]
    exact hbit _ m (by omega)
  unfold latch
  rw [if_neg (by simp [ha, Nat.not_lt.mpr hv])]
  dsimp only
  split
  · exact hword _ _ rfl
  · rename_i hvalid
    split
    · exact hword _ 1 rfl
    · rw [wrB, wrF, rdB, rd_wr_same, flag_setFld_ne _ _ _ _ _ (by decide) (by decide) (by decide)]
      simpa using hvalid

theorem latch_low {v : Nat} (hv : v < sevDEGRADED) (p c d : Nat) (s : State) : latch p c v d s = s :=
  if_pos (by simp [hv])

theorem rdB_raise_valid {p v : Nat} (ha : assigned p = true) (hv : sevDEGRADED ≤ v) (hv' : v < 16) (c d : Nat) (s : State) :
    rdB (raise p c v d s) p 0x020 16 = true := by
  have honly : rdB (raiseOnly p c v d s) p 0x020 16 = true := by
    unfold raiseOnly
    exact (rdB_congr (rd_post ..) 16).trans (rdB_latch_valid ha hv hv' ..)
  unfold raise; dsimp only; split
  · unfold hwClear; split
    · refine (rdB_congr ?_ 16).trans honly
      unfold raiseOnly
      rw [rd_post, latch_low (by decide), rd_setEvt (by decide) (by omega)]
      exact rd_wr_off (by decide) ..
    · exact honly
  · exact honly

end Sys2Proof.Machine
end

section
/-!
PROOFS. Chapter 2, the time base: what a tick does, that no command steps the count, slews, rates, sources and shadows, and the
references with their holdover.
-/
namespace Sys2Proof.Machine

/-! ### The increment -/

theorem formInc_inc (s : State) : (formInc s).tb.inc = tickInc (rateNow s + slewRate s) := by unfold formInc; dsimp only
@[simp] theorem formInc_count (s : State) : (formInc s).tb.count = s.tb.count := rfl
@[simp] theorem formInc_slewRest (s : State) : (formInc s).tb.slewRest = s.tb.slewRest := rfl
@[simp] theorem formInc_slewReq (s : State) : (formInc s).tb.slewReq = s.tb.slewReq := rfl
@[simp] theorem rd_formInc (s : State) (p off : Nat) : rd (formInc s) p off = rd s p off := rd_of_regs rfl p off
theorem slewRate_congr {s t : State} (hrest : t.tb.slewRest = s.tb.slewRest) (hreq : t.tb.slewReq = s.tb.slewReq) :
    slewRate t = slewRate s := by
  unfold slewRate; rw [hrest, hreq]

@[simp] theorem slewRate_formInc (s : State) : slewRate (formInc s) = slewRate s :=
  slewRate_congr (formInc_slewRest s) (formInc_slewReq s)

/-- The rate is that of `TB_RATE_NOW`, which a write of another register leaves. -/
theorem rateNow_congr {s t : State} (h : rd t pgTB 0x094 = rd s pgTB 0x094) : rateNow t = rateNow s := by unfold rateNow; rw [h]

@[simp] theorem rateNow_formInc (s : State) : rateNow (formInc s) = rateNow s := rateNow_congr (rd_formInc ..)

theorem rateNow_wr {off : Nat} (h : off ≠ 0x094) (v : Word) (s : State) : rateNow (wr pgTB off v s) = rateNow s :=
  rateNow_congr (rd_wr_off h.symm ..)

theorem tick_of_off {s : State} (h : s.pd0 = false) : tick s = s := by simp [tick, h]

/-- A tick of a part with power. -/
theorem tick_of_on {s : State} (h : s.pd0 = true) :
    (tick s).tb.count = s.tb.count + s.tb.inc ∧ (tick s).tb.slewRest = s.tb.slewRest - slewGain s ∧
      rateNow (tick s) = rateNow s ∧
      (s.tb.inc = tickInc (rateNow s + slewRate s) → (tick s).tb.inc = tickInc (rateNow (tick s) + slewRate (tick s))) := by
  have hrate (b : Bool) (v : Nat) (u : State) :
      rateNow (wrB pgTB 0x08C 3 b (wrN pgTB 0x09C v u)) = rateNow u :=
    (rateNow_wr (by decide) ..).trans (rateNow_wr (by decide) ..)
  have hrate' (v : Nat) (u : State) : rateNow (wrN pgTB 0x09C v u) = rateNow u := rateNow_wr (by decide) ..
  unfold tick
  simp only [h, Bool.not_true, Bool.false_eq_true, if_false]
  by_cases hrest : s.tb.slewRest = 0
  case pos =>
    rw [if_pos hrest]
    exact ⟨rfl, by simp [hrest], rfl, fun hinc => hinc⟩
  case neg =>
    rw [if_neg hrest]
    by_cases hend : s.tb.slewRest - slewGain s = 0
    case pos =>
      rw [if_pos hend]
      refine ⟨rfl, rfl, hrate .., fun _ => ?_⟩
      rw [formInc_inc, rateNow_formInc, slewRate_formInc]
    case neg =>
      rw [if_neg hend]
      refine ⟨rfl, rfl, hrate' .., fun hinc => ?_⟩
      rw [hrate']
      refine hinc.trans (congrArg (fun r => tickInc (rateNow s + r)) ?_)
      simp only [slewRate, wrN, wr_tb, if_neg hrest, hend, if_false]
      rfl

/-! ### No command steps the count -/

/-- What R44 protects from the commands of the time base: its count, and with it memory, jobs and the compartment. -/
def timeKept (s : State) : Nat × Memory × SMap PageJobs × Met := (s.tb.count, s.mem, s.jobs, s.met)

/-- What the discipline remembers is no part of it. -/
theorem setTb_timeKept {x : TimeBase} {s : State} (h : x.count = s.tb.count) : Same timeKept s { s with tb := x } := by
  unfold Same timeKept; dsimp only; rw [h]

theorem wr_timeKept (p off : Nat) (v : Word) (s : State) : Same timeKept s (wr p off v s) := .reports (wr_reports ..)

theorem formInc_timeKept (s : State) : Same timeKept s (formInc s) := by
  unfold formInc; exact setTb_timeKept rfl

theorem setRate_timeKept (r : Int) (s : State) : Same timeKept s (setRate r s) := by
  unfold setRate; exact .after (formInc_timeKept _) (wr_timeKept ..)

theorem enterHoldover_timeKept (why : Nat) (s : State) : Same timeKept s (enterHoldover why s) := by
  unfold enterHoldover
  exact .after (.reports (raise_reports ..)) (.after (wr_timeKept ..) (.after (wr_timeKept ..) (.after (setTb_timeKept rfl)
    (.after (wr_timeKept ..) (wr_timeKept ..)))))

theorem exitHoldover_timeKept (s : State) : Same timeKept s (exitHoldover s) := by
  unfold exitHoldover
  exact .ite (.after (.reports (raise_reports ..)) (wr_timeKept ..)) (.refl s)

theorem effRateSet_timeKept (w : Word) (s : State) : Same timeKept s (effRateSet w s) := by
  have hstored (c : Int) (b : Prop) [Decidable b] :
      Same timeKept s (if b then wrN pgTB 0x090 (ofSigned 32 c) s else raise pgTB 0x106 sevINFO w.toNat (wrN pgTB 0x090 (ofSigned 32 c) s)) :=
    .ite (wr_timeKept ..) (.after (.reports (raise_reports ..)) (wr_timeKept ..))
  unfold effRateSet
  exact .ite (.after (setRate_timeKept ..) (hstored ..)) (hstored ..)

theorem changeSrc_timeKept (src : Nat) (s : State) : Same timeKept s (changeSrc src s) := by
  have hstart (x : TimeBase) (hx : x.count = s.tb.count) :
      Same timeKept s { wrF pgTB 0x08C 5 4 src (wrF pgTB 0x08C 2 0 0 s) with tb := x } :=
    .after (setTb_timeKept hx) (.after (wr_timeKept ..) (wr_timeKept ..))
  unfold changeSrc
  exact .ite (.after (setRate_timeKept ..) (hstart _ rfl)) (hstart _ rfl)

theorem effTbCtrl_timeKept (w : Word) (s : State) : Same timeKept s (effTbCtrl w s) := by
  unfold effTbCtrl
  exact .ite (wr_timeKept ..) (.after (changeSrc_timeKept ..) (wr_timeKept ..))

theorem effSlew_timeKept (q : Port) (w : Word) (s : State) : Same timeKept s (effSlew q w s) := by
  unfold effSlew
  exact .ite (.reports (refuse_reports ..)) (.ite (.refl s) (.after (formInc_timeKept _) (.after (wr_timeKept ..)
    (.after (wr_timeKept ..) (setTb_timeKept rfl)))))

theorem effGptpKeep_timeKept (s : State) : Same timeKept s (effGptpKeep s) := by
  have hkeep : Same timeKept s { s with tb := { s.tb with keepAt := now s } } := setTb_timeKept rfl
  unfold effGptpKeep
  exact .ite (.ite hkeep (.after (exitHoldover_timeKept _) (.after (wr_timeKept ..)
    (.ite (.after (setRate_timeKept ..) hkeep) hkeep)))) (.refl s)

theorem acceptEdge_timeKept (n : Nat) (e : Int) (s : State) : Same timeKept s (acceptEdge n e s) := by
  have htaken (x : TimeBase) (hx : x.count = s.tb.count) :
      Same timeKept s (wrN pgTB 0x0AC (ofSigned 32 e) (wr64 pgTB 0x0A4 n { s with tb := x })) :=
    .after (wr_timeKept ..) (.after (wr_timeKept ..) (.after (wr_timeKept ..) (setTb_timeKept hx)))
  unfold acceptEdge
  refine .ite (.after (setRate_timeKept ..) (htaken _ rfl)) ?_
  exact .ite (.after (exitHoldover_timeKept _) (.after (.reports (raise_reports ..)) (.after (wr_timeKept ..) (.after (wr_timeKept ..)
    (.after (setTb_timeKept rfl) (htaken _ rfl)))))) (.after (setTb_timeKept rfl) (htaken _ rfl))

theorem firstEdge_timeKept (n : Nat) (s : State) : Same timeKept s (firstEdge n s) := by
  have htaken (x : TimeBase) (hx : x.count = s.tb.count) : Same timeKept s (wr64 pgTB 0x0A4 n { s with tb := x }) :=
    .after (wr_timeKept ..) (.after (wr_timeKept ..) (setTb_timeKept hx))
  unfold firstEdge
  exact .ite (.after (exitHoldover_timeKept _) (.after (.reports (raise_reports ..)) (.after (wr_timeKept ..) (htaken _ rfl))))
    (.after (wr_timeKept ..) (htaken _ rfl))

theorem ppsSelected_timeKept (s : State) : Same timeKept s (ppsSelected s) := by
  unfold ppsSelected
  exact .ite (firstEdge_timeKept ..) (.ite (acceptEdge_timeKept ..) (.after (.reports (raise_reports ..)) (.reports (incCnt_reports ..))))

theorem execPpsEdge_timeKept {b : Bool} {s t : State} (h : execPpsEdge b s = .next t) : Same timeKept s t := by
  have hlevel : Same timeKept s (if pageOn s pgGPIO then wrB pgGPIO 0x088 16 b s else s) := .ite (wr_timeKept ..) (.refl s)
  have hcounted (c : Bool) (u : State) : Same timeKept u (if c then incCnt pgGPIO 0x094 1 u else u) :=
    .ite (.reports (incCnt_reports ..)) (.refl u)
  exact .of_settle h (.ite (.ite hlevel (.ite (.after (ppsSelected_timeKept _) (.after (hcounted ..) hlevel))
    (.after (hcounted ..) hlevel))) (.refl s))

theorem execPpsEdgeMissed_timeKept {s t : State} (h : execPpsEdgeMissed s = .next t) : Same timeKept s t := by
  have hcounted (x : TimeBase) (hx : x.count = s.tb.count) : Same timeKept s (incCnt pgTB 0x0B0 1 { s with tb := x }) :=
    .after (.reports (incCnt_reports ..)) (setTb_timeKept hx)
  exact .of_settle h (.ite (.ite (hcounted _ rfl) (.ite (.after (enterHoldover_timeKept ..) (hcounted _ rfl))
    (.ite (.after (.reports (raise_reports ..)) (.after (wr_timeKept ..) (.after (setTb_timeKept rfl) (hcounted _ rfl))))
      (hcounted _ rfl)))) (.refl s))

theorem modPort_timeKept (q : Port) (g : PortState → PortState) (s : State) : Same timeKept s (s.modPort q g) := by
  unfold Same timeKept State.modPort; rw [setPort_tb, setPort_mem, setPort_jobs, setPort_met]

theorem latchShadow_timeKept (q : Port) (s : State) : Same timeKept s (latchShadow q s) := by
  cases q
  · exact setTb_timeKept rfl
  · exact setTb_timeKept rfl

/-- Settles O1: a tick adds the increment it keeps; each command of the time base is made of operations that leave the count. -/
theorem timeMovesOnlyByTicks : Obligations.TimeMovesOnlyByTicks := by
  refine ⟨fun s hempty hpd0 hinc => ?_, fun q w src b p n c s t hc h => ?_⟩
  · obtain ⟨hcount, hrest, hrate, hnext⟩ := tick_of_on hpd0
    exact ⟨tick s, by simp only [step, hempty], hcount, hrest, hnext hinc, hrate⟩
  · have hkept : Same timeKept s t := by
      simp only [List.mem_cons, List.not_mem_nil, or_false] at hc
      obtain rfl | rfl | rfl | rfl | rfl | rfl | rfl | rfl | rfl | rfl | rfl := hc <;> unfold exec at h
      case _ => exact .of_settle h (.gate (effSlew_timeKept ..))
      case _ => exact .of_settle h (.ite (.after (.reports (raise_reports ..)) (setTb_timeKept rfl)) (.refl s))
      case _ => exact .of_settle h (.gate (effRateSet_timeKept ..))
      case _ => exact .of_settle h (.gate (effTbCtrl_timeKept ..))
      case _ => exact .of_settle h (.ite (.after (modPort_timeKept ..) (latchShadow_timeKept ..)) (.refl s))
      case _ => exact execPpsEdge_timeKept h
      case _ => exact execPpsEdgeMissed_timeKept h
      case _ => exact .of_settle h (.gate (effGptpKeep_timeKept _))
      case _ => exact .of_settle h (.ite (enterHoldover_timeKept ..) (.refl s))
      case _ => exact .of_settle h (.ite (.after (.reports (raise_reports ..)) (setTb_timeKept rfl)) (.refl s))
      case _ => exact .of_settle h (.ite (.after (wr_timeKept ..) (setTb_timeKept rfl)) (.refl s))
    simp only [Same, timeKept, Prod.mk.injEq] at hkept
    obtain ⟨hcount, hmem, hjobs, hmet⟩ := hkept
    exact ⟨hcount, memStands_of_mem hmem, hjobs, hmet⟩

end Sys2Proof.Machine
end

section
/-!
PROOFS. Chapter 2, rates, slews, sources and shadows, and the references with their holdover: what each operation of the time base
leaves in its registers, and the two statements assembled from these.
-/
namespace Sys2Proof.Machine

/-! ### What an event on the page leaves -/

theorem rateNow_raise {v : Nat} (c d : Nat) (s : State) : rateNow (raise pgTB c v d s) = rateNow s :=
  rateNow_congr (rd_raise (by decide) (by decide) ..)

theorem slewRate_raise (p c v d : Nat) (s : State) : slewRate (raise p c v d s) = slewRate s := by
  unfold slewRate; rw [raise_tb]

theorem rd_raise_tb {off : Nat} (ho : off < 0x1000) (h : ¬(off = 0x00C ∨ off = 0x014 ∨ off = 0x020 ∨ off = 0x024)) (c v d : Nat)
    (s : State) : rd (raise pgTB c v d s) pgTB off = rd s pgTB off := rd_raise ho (fun e => h e.2) c v d s

/-- A block event of the time base has no bit of its own, and goes to the owner. -/
theorem told_raise_tb {c : Nat} (hc : 0x100 ≤ c) (d : Nat) (s : State) :
    Told (raise pgTB c sevINFO d s) (owner s pgTB) pgTB c (d % 2 ^ 32) := by
  refine told_raise (destOf_owner (k := .tb) (by decide) rfl (by decide) ?_) d
  have hbit : evtBit pgTB c sevINFO = none := by
    unfold evtBit
    rw [if_neg (by omega)]
    rfl
  rw [hbit]; rfl

/-! ### Rates -/

theorem rateNow_setRate {r : Int} (hlo : -2 ^ 31 ≤ r) (hhi : r < 2 ^ 31) (s : State) : rateNow (setRate r s) = r := by
  unfold setRate
  rw [rateNow_formInc, rateNow, wrN, rd_wr_same]
  exact toSigned_ofSigned hlo hhi

theorem rd_setRate_rate (r : Int) (s : State) : rd (setRate r s) pgTB 0x094 = BitVec.ofNat 32 (ofSigned 32 r) := by
  unfold setRate
  rw [rd_formInc, wrN, rd_wr_same]

theorem rd_setRate {off : Nat} (h : off ≠ 0x094) (r : Int) (s : State) : rd (setRate r s) pgTB off = rd s pgTB off := by
  unfold setRate
  rw [rd_formInc]
  exact rd_wr_off h ..

theorem setRate_inc (r : Int) (s : State) : (setRate r s).tb.inc = tickInc (rateNow (setRate r s) + slewRate s) := by
  unfold setRate
  rw [formInc_inc, rateNow_formInc]
  rfl


/-- The limit of a rate keeps it inside a register (R45). -/
theorem clampRate_bounds (x : Int) : -2 ^ 31 ≤ clampI (-rateLimit) rateLimit x ∧ clampI (-rateLimit) rateLimit x < 2 ^ 31 := by
  have h := clampI_bounds (lo := -rateLimit) (hi := rateLimit) (by decide) x
  simp only [rateLimit] at h ⊢
  omega

/-! ### Slews -/

theorem effSlew_of {q : Port} {w : Word} {s : State} (hrest : s.tb.slewRest = 0) (hw : w ≠ 0)
    (hle : (toSigned 32 w.toNat).natAbs ≤ 1000000000) :
    effSlew q w s = formInc (wrB pgTB 0x08C 3 true (wr pgTB 0x09C w
      { s with tb := { s.tb with slewReq := toSigned 32 w.toNat, slewRest := (toSigned 32 w.toNat).natAbs * 2 ^ 32 } })) := by
  unfold effSlew
  rw [if_neg (by rw [not_or]; exact ⟨not_not_intro hrest, Nat.not_lt.mpr hle⟩), if_neg (fun h => hw (toSigned_eq_zero h))]

/-- An accepted slew adds its ±100 ppm to the increment. -/
theorem effSlew_inc {q : Port} {w : Word} {s : State} (hrest : s.tb.slewRest = 0) (hw : w ≠ 0)
    (hle : (toSigned 32 w.toNat).natAbs ≤ 1000000000) :
    (effSlew q w s).tb.inc = tickInc (rateNow s + (if toSigned 32 w.toNat < 0 then -100000 else 100000)) := by
  have hpos : (toSigned 32 w.toNat).natAbs * 2 ^ 32 ≠ 0 := by
    have hne : toSigned 32 w.toNat ≠ 0 := fun h => hw (toSigned_eq_zero h)
    exact Nat.mul_ne_zero (Int.natAbs_ne_zero.mpr hne) (by decide)
  rw [effSlew_of hrest hw hle, formInc_inc]
  congr 2
  · exact (rateNow_wr (by decide) ..).trans ((rateNow_wr (by decide) ..).trans (rateNow_congr (rd_of_regs rfl ..)))
  · exact if_neg hpos

theorem effSlew_request {q : Port} {w : Word} {s : State} (hrest : s.tb.slewRest = 0) (hw : w ≠ 0)
    (hle : (toSigned 32 w.toNat).natAbs ≤ 1000000000) :
    (effSlew q w s).tb.slewReq = toSigned 32 w.toNat ∧ (effSlew q w s).tb.slewRest = (toSigned 32 w.toNat).natAbs * 2 ^ 32 := by
  rw [effSlew_of hrest hw hle, formInc_slewReq, formInc_slewRest]
  exact ⟨rfl, rfl⟩

theorem effSlew_regs {q : Port} {w : Word} {s : State} (hrest : s.tb.slewRest = 0) (hw : w ≠ 0)
    (hle : (toSigned 32 w.toNat).natAbs ≤ 1000000000) :
    rd (effSlew q w s) pgTB 0x09C = w ∧ rdB (effSlew q w s) pgTB 0x08C 3 = true := by
  rw [effSlew_of hrest hw hle]
  exact ⟨(rd_formInc ..).trans ((rd_wr_off (by decide) ..).trans (rd_wr_same ..)),
    (rdB_congr (rd_formInc ..) 3).trans (rdB_wrB _ _ _ _ _ (by decide))⟩

/-! ### A source -/

/-- A write of `TB_CTRL` shows its SRC. -/
theorem tbSrc_landed (old value : Word) (s : State) (h : rd s pgTB 0x088 = landWord (fieldsAt pgTB 0x088) false old value) :
    tbSrc s = fld value 1 0 := by
  unfold tbSrc rdF
  rw [h]
  refine fld_congr fun i _ hi => ?_
  obtain rfl | rfl : i = 0 ∨ i = 1 := by omega
  · exact flag_landWord_soft _ _ (by decide) (by decide +kernel) (by decide +kernel)
  · exact flag_landWord_soft _ _ (by decide) (by decide +kernel) (by decide +kernel)

theorem rd_changeSrc_ctrl (src : Nat) (s : State) : rd (changeSrc src s) pgTB 0x088 = rd s pgTB 0x088 := by
  have hstart (x : TimeBase) : rd { wrF pgTB 0x08C 5 4 src (wrF pgTB 0x08C 2 0 0 s) with tb := x } pgTB 0x088 = rd s pgTB 0x088 :=
    (rd_wr_off (by decide) ..).trans (rd_wr_off (by decide) ..)
  unfold changeSrc; dsimp only; split
  · exact (rd_setRate (by decide) ..).trans (hstart _)
  · exact hstart _

/-- The lock state starts over (R54). -/
theorem lockState_changeSrc (src : Nat) (s : State) : tbLocked (changeSrc src s) = false ∧ tbHoldover (changeSrc src s) = false := by
  have hstate : rd (changeSrc src s) pgTB 0x08C = setFld (setFld (rd s pgTB 0x08C) 2 0 0) 5 4 src := by
    have hstart (x : TimeBase) : rd { wrF pgTB 0x08C 5 4 src (wrF pgTB 0x08C 2 0 0 s) with tb := x } pgTB 0x08C =
        setFld (setFld (rd s pgTB 0x08C) 2 0 0) 5 4 src :=
      (rd_wrF_same ..).trans (congrArg (fun x => setFld x 5 4 src) (rd_wrF_same ..))
    unfold changeSrc; dsimp only; split
    · exact (rd_setRate (by decide) ..).trans (hstart _)
    · exact hstart _
  unfold tbLocked tbHoldover rdB
  have hcleared (i : Nat) (hi : i ≤ 2) : flag (setFld (setFld (rd s pgTB 0x08C) 2 0 0) 5 4 src) i = false := by
    rw [flag_setFld_ne _ _ _ _ _ (by decide) (by decide) (by omega), flag_setFld_mem _ _ (by omega) hi (by decide)]
    exact Nat.zero_testBit _
  rw [hstate]
  exact ⟨hcleared 0 (by decide), hcleared 1 (by decide)⟩

theorem rateNow_changeSrc {src : Nat} (h : src ≠ 0) (s : State) :
    rateNow (changeSrc src s) = rateNow s ∧ (changeSrc src s).tb.inc = s.tb.inc := by
  unfold changeSrc; dsimp only; rw [if_neg h]
  exact ⟨(rateNow_wr (by decide) ..).trans (rateNow_wr (by decide) ..), rfl⟩

theorem rd_changeSrc_free (s : State) : rd (changeSrc 0 s) pgTB 0x094 = rd s pgTB 0x090 := by
  have hstart (x : TimeBase) : rd { wrF pgTB 0x08C 5 4 0 (wrF pgTB 0x08C 2 0 0 s) with tb := x } pgTB 0x090 = rd s pgTB 0x090 :=
    (rd_wr_off (by decide) ..).trans (rd_wr_off (by decide) ..)
  unfold changeSrc; dsimp only
  rw [if_pos rfl, rd_setRate_rate, ofSigned_toSigned]
  exact hstart _

/-- A write of `TB_CTRL` with another SRC than 0b11 and the present one selects it. -/
theorem effTbCtrl_src {s : State} {src : Nat} (hsrc : src < 3) (hne : src ≠ tbSrc s) :
    ∃ u, effTbCtrl (setFld (rd s pgTB 0x088) 1 0 src) s = changeSrc src u ∧ tbSrc u = src ∧ rateNow u = rateNow s ∧
      u.tb = s.tb ∧ rd u pgTB 0x090 = rd s pgTB 0x090 := by
  have hfld : fld (setFld (rd s pgTB 0x088) 1 0 src) 1 0 = src := by
    rw [fld_setFld _ _ _ _ (by decide) (by decide)]; omega
  unfold effTbCtrl
  rw [hfld]
  dsimp only
  rw [if_neg (by omega : ¬ src = 3), if_neg (show ¬ src = rdF s pgTB 0x088 1 0 from hne)]
  refine ⟨_, rfl, ?_, rateNow_wr (by decide) .., rfl, rd_wr_off (by decide) ..⟩
  rw [tbSrc_landed _ _ _ (rd_wr_same ..), fld_setFld _ _ _ _ (by decide) (by decide)]
  omega

/-! ### Shadows -/

theorem latchShadow_shadow (q : Port) (s : State) :
    shadow (latchShadow q s) q = BitVec.ofNat 32 (now s / 2 ^ 32) ∧ shadow (latchShadow q s) q.other = shadow s q.other ∧
      (latchShadow q s).regs = s.regs := by
  cases q <;> exact ⟨rfl, rfl, rfl⟩

theorem shadow_modPort (q r : Port) (g : PortState → PortState) (s : State) : shadow (s.modPort q g) r = shadow s r := by
  cases q <;> cases r <;> rfl

/-! ### The statement -/

/-- A write of `TB_RATE_SET` in FREE. -/
theorem effRateSet_free {w : Word} {s : State} (hfree : tbSrc s = 0) :
    rateNow (effRateSet w s) = clampI (-200000) 200000 (toSigned 32 w.toNat) ∧
      rd (effRateSet w s) pgTB 0x090 = rd (effRateSet w s) pgTB 0x094 ∧
      (effRateSet w s).tb.inc = tickInc (rateNow (effRateSet w s) + slewRate s) := by
  obtain ⟨hlo, hhi⟩ := clampRate_bounds (toSigned 32 w.toNat)
  obtain ⟨u, hu, hset, hslew⟩ : ∃ u, effRateSet w s = setRate (clampI (-rateLimit) rateLimit (toSigned 32 w.toNat)) u ∧
      rd u pgTB 0x090 = BitVec.ofNat 32 (ofSigned 32 (clampI (-rateLimit) rateLimit (toSigned 32 w.toNat))) ∧ slewRate u = slewRate s := by
    unfold effRateSet; dsimp only
    rw [if_pos (Or.inl hfree)]
    refine ⟨_, rfl, ?_⟩
    split
    · exact ⟨rd_wr_same .., rfl⟩
    · exact ⟨(rd_raise_tb (by decide) (by decide) ..).trans (rd_wr_same ..), slewRate_raise ..⟩
  rw [hu]
  refine ⟨rateNow_setRate hlo hhi u, ?_, ?_⟩
  · rw [rd_setRate (by decide), hset, rd_setRate_rate]
  · rw [setRate_inc, hslew]

/-- Settles O2. -/
theorem ratesSlewsAndShadows : Obligations.RatesSlewsAndShadows := by
  refine ⟨⟨fun q w s hmay hrest hw hle => ?_, fun s hpd0 hreq hrest => ?_⟩, ⟨fun q w s hmay hfree => ?_, fun q src s hmay h3 hne => ?_⟩,
    fun q wide s hlive => ?_⟩
  · refine ⟨_, (congrArg (settle s) (gateWrite_mayWrite hmay)).trans (settle_eq ..), ?_⟩
    obtain ⟨hleft, hslewing⟩ := effSlew_regs (q := q) hrest hw hle
    obtain ⟨hreq, hunits⟩ := effSlew_request (q := q) hrest hw hle
    exact ⟨hreq, hunits, hleft, hslewing, effSlew_inc hrest hw hle⟩
  · have hdone : execSlewDone s = settle s (raise pgTB 0x105 sevINFO (ofSigned 32 s.tb.slewReq) { s with tb := { s.tb with slewReq := 0 } }) := by
      simp [execSlewDone, hpd0, hreq, hrest]
    refine ⟨_, hdone.trans (settle_eq ..), ?_, told_raise_tb (by decide) _ _⟩
    exact congrArg TimeBase.slewReq (raise_tb ..)
  · exact ⟨_, (congrArg (settle s) (gateWrite_mayWrite hmay)).trans (settle_eq ..), effRateSet_free hfree⟩
  · obtain ⟨u, hu, hsrc, hrate, htb, hset⟩ := effTbCtrl_src (s := s) (src := src.val) (by omega) hne
    refine ⟨_, (congrArg (settle s) ((gateWrite_mayWrite hmay).trans hu)).trans (settle_eq ..), ?_⟩
    obtain ⟨hlocked, hhold⟩ := lockState_changeSrc src.val u
    refine ⟨(rdF_congr (rd_changeSrc_ctrl ..) 1 0).trans hsrc, hlocked, hhold, fun h0 => ?_, fun h0 => ?_⟩
    · obtain ⟨hr, hi⟩ := rateNow_changeSrc h0 u
      exact ⟨hr.trans hrate, hi.trans (congrArg TimeBase.inc htb)⟩
    · rw [h0]; exact (rd_changeSrc_free u).trans hset
  · have hread : execTbNowLoRead q wide s = settle s ((latchShadow q s).modPort q (fun p => { p with
        readData := if wide then now s % 2 ^ 64 else now s % 2 ^ 32, readEP := false })) := by
      simp [execTbNowLoRead, hlive]
    obtain ⟨hown, hother, hregs⟩ := latchShadow_shadow q s
    refine ⟨_, hread.trans (settle_eq ..), ?_, (shadow_modPort ..).trans hown, (shadow_modPort ..).trans hother, ?_⟩
    · refine (congrArg PortState.readData (setPort_port_same ..)).trans ?_
      cases wide <;> rfl
    · exact (setPort_regs ..).trans hregs

end Sys2Proof.Machine
end

section
/-!
PROOFS. Chapter 2, the references: keep-alives, holdover, edges and missed edges, the holdover bound and the pace window, and the
statement assembled from these.
-/
namespace Sys2Proof.Machine

/-! ### Holdover -/

/-- The registers of the time base other than those an event of its page writes. -/
theorem rdB_raise_tb {off : Nat} (ho : off < 0x1000) (h : ¬(off = 0x00C ∨ off = 0x014 ∨ off = 0x020 ∨ off = 0x024)) (i c v d : Nat)
    (s : State) : rdB (raise pgTB c v d s) pgTB off i = rdB s pgTB off i := rdB_congr (rd_raise_tb ho h ..) i

/-- Entering holdover clears LOCKED, sets HOLDOVER and records the instant; the rate is frozen (R49). -/
theorem enterHoldover_shows (why : Nat) (s : State) :
    tbLocked (enterHoldover why s) = false ∧ tbHoldover (enterHoldover why s) = true ∧
      holdStart (enterHoldover why s) = now s % 2 ^ 64 ∧
      ∀ off, off < 0x0B8 → off ≠ 0x08C → ¬(off = 0x00C ∨ off = 0x014 ∨ off = 0x020 ∨ off = 0x024) →
        rd (enterHoldover why s) pgTB off = rd s pgTB off := by
  have hpair (off v : Nat) (u : State) (ho : off < 0x0B8) : rd (wr64 pgTB 0x0B8 v u) pgTB off = rd u pgTB off :=
    (rd_wr_off (by omega) ..).trans (rd_wr_off (by omega) ..)
  have hstate : rd (enterHoldover why s) pgTB 0x08C = setFld (setFld (rd s pgTB 0x08C) 0 0 (b2n false)) 1 1 (b2n true) := by
    unfold enterHoldover
    rw [rd_raise_tb (by decide) (by decide), hpair _ _ _ (by decide)]
    exact (rd_wrF_same ..).trans (congrArg (fun x => setFld x 1 1 (b2n true)) (rd_wrF_same ..))
  refine ⟨?_, ?_, ?_, fun off hlt hne hevt => ?_⟩
  · rw [tbLocked, rdB, hstate, flag_setFld_ne _ _ _ _ _ (by decide) (by decide) (by decide)]
    exact flag_setFld _ 0 false (by decide)
  · rw [tbHoldover, rdB, hstate]
    exact flag_setFld _ 1 true (by decide)
  · unfold holdStart enterHoldover
    rw [rd64_congr (rd_raise_tb (by decide) (by decide) ..) (rd_raise_tb (by decide) (by decide) ..), rd64_wr64]
  · unfold enterHoldover
    rw [rd_raise_tb (by omega) hevt, hpair _ _ _ hlt]
    exact (rd_wr_off hne ..).trans (rd_wr_off hne ..)

theorem rateNow_enterHoldover (why : Nat) (s : State) : rateNow (enterHoldover why s) = rateNow s :=
  rateNow_congr ((enterHoldover_shows why s).2.2.2 0x094 (by decide) (by decide) (by decide))

theorem enterHoldover_missRun (why : Nat) (s : State) : (enterHoldover why s).tb.missRun = s.tb.missRun := by
  unfold enterHoldover
  rw [raise_tb]
  rfl

/-- Leaving holdover clears HOLDOVER and changes no other register of the time base but its event bits. -/
theorem exitHoldover_shows (s : State) :
    tbHoldover (exitHoldover s) = false ∧ tbLocked (exitHoldover s) = tbLocked s ∧ (exitHoldover s).tb = s.tb ∧
      rd (exitHoldover s) pgTB 0x094 = rd s pgTB 0x094 := by
  unfold exitHoldover
  by_cases hhold : tbHoldover s = true
  case pos =>
    rw [if_pos hhold]
    exact ⟨(rdB_raise_tb (by decide) (by decide) ..).trans (rdB_wrB _ _ _ _ _ (by decide)),
      (rdB_raise_tb (by decide) (by decide) ..).trans (rdB_wrB_ne _ _ _ _ _ _ (by decide) (by decide)), raise_tb ..,
      (rd_raise_tb (by decide) (by decide) ..).trans (rd_wr_off (by decide) ..)⟩
  case neg =>
    rw [if_neg hhold]
    exact ⟨by simpa using hhold, rfl, rfl, rfl⟩

/-! ### Keep-alives -/

/-- A keep-alive in GPTP mode restarts the time-out and sets LOCKED; holdover ends with the rate of `TB_RATE_SET`. -/
theorem effGptpKeep_shows {s : State} (hsrc : tbSrc s = 2) :
    (effGptpKeep s).tb.keepAt = now s ∧ tbLocked (effGptpKeep s) = true ∧
      (tbLocked s = false → tbHoldover s = true → tbHoldover (effGptpKeep s) = false ∧ rd (effGptpKeep s) pgTB 0x094 = rd s pgTB 0x090) := by
  have hlock (u : State) : tbLocked (exitHoldover (wrB pgTB 0x08C 0 true u)) = true :=
    (exitHoldover_shows _).2.1.trans (rdB_wrB _ _ _ _ _ (by decide))
  have htb (u : State) : (exitHoldover (wrB pgTB 0x08C 0 true u)).tb = u.tb := (exitHoldover_shows _).2.2.1
  unfold effGptpKeep
  rw [if_pos hsrc]
  dsimp only
  generalize ht : ({ s with tb := { s.tb with keepAt := now s } } : State) = t
  have hat : t.tb.keepAt = now s := by rw [← ht]
  have hregs (p off : Nat) : rd t p off = rd s p off := by rw [← ht]; exact rd_of_regs rfl p off
  have hlocked : tbLocked t = tbLocked s := rdB_congr (hregs ..) 0
  have hhold : tbHoldover t = tbHoldover s := rdB_congr (hregs ..) 1
  by_cases hl : tbLocked s = true
  case pos =>
    rw [if_pos hl]
    exact ⟨hat, hlocked.trans hl, fun h => absurd hl (by rw [h]; decide)⟩
  case neg =>
    rw [if_neg hl]
    refine ⟨?_, hlock _, fun _ hh => ⟨(exitHoldover_shows _).1, ?_⟩⟩
    · rw [htb]
      split
      · exact hat
      · exact hat
    · rw [if_pos (hhold.trans hh), (exitHoldover_shows _).2.2.2]
      refine (rd_wr_off (by decide) ..).trans ((rd_setRate_rate ..).trans ?_)
      rw [ofSigned_toSigned]
      exact hregs ..

/-! ### Edges -/

/-- A locked time base takes an edge: its instant, and the rate corrected by a quarter of the error, clamped (R48). -/
theorem acceptEdge_locked {s : State} (hlocked : tbLocked s = true) (t : Nat) (e : Int) :
    ppsLast (acceptEdge t e s) = t % 2 ^ 64 ∧ (acceptEdge t e s).tb.missRun = 0 ∧
      rateNow (acceptEdge t e s) = clampI (-200000) 200000 (rateNow s - truncDiv e 4) := by
  obtain ⟨hlo, hhi⟩ := clampRate_bounds (rateNow s - truncDiv e 4)
  unfold acceptEdge
  dsimp only
  rw [if_pos hlocked]
  refine ⟨?_, rfl, rateNow_setRate hlo hhi _⟩
  unfold ppsLast
  exact (rd64_congr ((rd_setRate (by decide) ..).trans (rd_wr_off (by decide) ..))
    ((rd_setRate (by decide) ..).trans (rd_wr_off (by decide) ..))).trans (rd64_wr64 ..)

/-- The PPS input as its own page shows it. -/
def ppsLevel (b : Bool) (s : State) : State := if pageOn s pgGPIO then wrB pgGPIO 0x088 16 b s else s

/-- A selected edge as that page counts it. -/
def ppsCounted (s : State) : State :=
  if pageOn s pgGPIO && enabled s pgGPIO && !fenceBit s pgGPIO then incCnt pgGPIO 0x094 1 s else s

/-- The PPS input's own page leaves the time base. -/
theorem ppsCounted_leaves_tb (b : Bool) (s : State) :
    (ppsCounted (ppsLevel b s)).tb = s.tb ∧ ∀ off, off < 0x1000 → rd (ppsCounted (ppsLevel b s)) pgTB off = rd s pgTB off := by
  have hlevel : (ppsLevel b s).tb = s.tb ∧ ∀ off, off < 0x1000 → rd (ppsLevel b s) pgTB off = rd s pgTB off := by
    unfold ppsLevel; split
    · exact ⟨wr_tb .., fun off ho => rd_wr_page (by decide) ho (by decide) ..⟩
    · exact ⟨rfl, fun _ _ => rfl⟩
  generalize ppsLevel b s = u at hlevel
  unfold ppsCounted; split
  · exact ⟨(incCnt_tb ..).trans hlevel.1,
      fun off ho => (rd_incCnt_ne (by decide) ho (fun h => absurd h.1 (by decide)) ..).trans (hlevel.2 off ho)⟩
  · exact hlevel

theorem execPpsEdge_selected {b : Bool} {s : State} (hpd0 : s.pd0 = true) (hsrc : tbSrc s = 1) (hedge : b ≠ rdB s pgTB 0x088 2) :
    execPpsEdge b s = settle s (ppsSelected (ppsCounted (ppsLevel b s))) := by
  unfold execPpsEdge
  rw [if_pos hpd0, if_neg hedge, if_pos hsrc]
  rfl

/-! ### The pace window -/

/-- The pace word shows the rate, valid, with the next sequence number (R40). -/
theorem paceWord_fields (w : Word) (r n : Nat) (hr : r ≤ 0xFFFFF) :
    let v : Word := BitVec.ofNat 32 (putBits (putBits (putBits w.toNat 19 0 r) 20 20 1) 27 24 n)
    fld v 19 0 = r ∧ flag v 20 = true ∧ fld v 27 24 = n % 16 := by
  intro v
  have hv : v = setFld (setFld (setFld w 19 0 r) 20 20 (b2n true)) 27 24 n := by
    show BitVec.ofNat 32 _ = BitVec.ofNat 32 _
    rw [toNat_setFld _ _ _ _ (by decide) (by decide), toNat_setFld _ _ _ _ (by decide) (by decide)]
    rfl
  rw [hv]
  refine ⟨?_, ?_, ?_⟩
  · rw [fld_setFld_ne _ _ _ _ _ _ (by decide) (by decide) (by decide), fld_setFld_ne _ _ _ _ _ _ (by decide) (by decide) (by decide),
      fld_setFld _ _ _ _ (by decide) (by decide)]
    omega
  · rw [flag_setFld_ne _ _ _ _ _ (by decide) (by decide) (by decide)]
    exact flag_setFld _ 20 true (by decide)
  · exact fld_setFld _ _ _ _ (by decide) (by decide)

/-! ### The statement -/

/-- A locked PPS time base and an edge in its window. -/
theorem execPpsEdge_locked {b : Bool} {s : State} (hpd0 : s.pd0 = true) (hsrc : tbSrc s = 1) (hlocked : tbLocked s = true)
    (hedge : b ≠ rdB s pgTB 0x088 2)
    (hwin : ((now s : Int) - (ppsLast s + nearestEdge (ppsLast s) (now s) * 1000000000 : Nat)).natAbs ≤ ppsWindow s) :
    ∃ u : State, execPpsEdge b s = settle s (acceptEdge (now s)
        (truncDiv ((now s : Int) - (ppsLast s + nearestEdge (ppsLast s) (now s) * 1000000000 : Nat)) (nearestEdge (ppsLast s) (now s))) u) ∧
      tbLocked u = true ∧ rateNow u = rateNow s := by
  obtain ⟨htb, hregs⟩ := ppsCounted_leaves_tb b s
  rw [execPpsEdge_selected hpd0 hsrc hedge]
  generalize ppsCounted (ppsLevel b s) = u at htb hregs
  have hnow : now u = now s := by unfold now; rw [htb]
  have hlast : ppsLast u = ppsLast s := rd64_congr (hregs _ (by decide)) (hregs _ (by decide))
  have hwindow : ppsWindow u = ppsWindow s := by unfold ppsWindow; rw [rdF_congr (hregs _ (by decide))]
  have hlocked' : tbLocked u = true := (rdB_congr (hregs _ (by decide)) 0).trans hlocked
  refine ⟨u, ?_, hlocked', rateNow_congr (hregs _ (by decide))⟩
  unfold ppsSelected
  simp only [hlocked', Bool.not_true, Bool.false_and, Bool.false_eq_true, if_false, hnow, hlast, hwindow]
  rw [if_pos hwin]

/-- A missed edge counts, and the limit of misses ends LOCKED in holdover (R49). -/
theorem execPpsEdgeMissed_shows {s : State} (hpd0 : s.pd0 = true) (hsrc : tbSrc s = 1) (hseen : s.tb.edgeSeen = true)
    (hover : ppsOverdue s = true) :
    ∃ t, execPpsEdgeMissed s = settle s t ∧ t.tb.missRun = s.tb.missRun + 1 ∧
      rd t pgTB 0x0B0 = BitVec.ofNat 32 ((rd s pgTB 0x0B0).toNat + 1) ∧
      (missLimit s ≤ s.tb.missRun + 1 → tbLocked s = true → tbLocked t = false ∧ tbHoldover t = true) := by
  refine ⟨_, rfl, ?_⟩
  rw [if_pos (by simp [hpd0, hsrc, hseen, hover])]
  dsimp only
  generalize hu : incCnt pgTB 0x0B0 1 { s with tb := { s.tb with missRun := s.tb.missRun + 1 } } = u
  have hrun : u.tb.missRun = s.tb.missRun + 1 := by rw [← hu, incCnt_tb]
  have hcnt : rd u pgTB 0x0B0 = BitVec.ofNat 32 ((rd s pgTB 0x0B0).toNat + 1) :=
    hu ▸ (rd_incCnt (by decide) (by decide) ..).trans (congrArg (fun w : Word => BitVec.ofNat 32 (w.toNat + 1)) (rd_of_regs rfl ..))
  by_cases hlimit : s.tb.missRun + 1 < missLimit s
  case pos =>
    rw [if_pos hlimit]
    exact ⟨hrun, hcnt, fun h => absurd hlimit (Nat.not_lt.mpr h)⟩
  case neg =>
    rw [if_neg hlimit]
    by_cases hlocked : tbLocked s = true
    case pos =>
      rw [if_pos hlocked]
      obtain ⟨hl, hh, -, hstands⟩ := enterHoldover_shows 0x1 u
      exact ⟨(enterHoldover_missRun ..).trans hrun, (hstands _ (by decide) (by decide) (by decide)).trans hcnt, fun _ _ => ⟨hl, hh⟩⟩
    case neg =>
      rw [if_neg hlocked]
      have hnone (t : State) : missLimit s ≤ s.tb.missRun + 1 → tbLocked s = true → tbLocked t = false ∧ tbHoldover t = true :=
        fun _ h => absurd h hlocked
      split
      · refine ⟨?_, ?_, hnone _⟩
        · rw [raise_tb]; exact hrun
        · exact (rd_raise_tb (by decide) (by decide) ..).trans ((rd_wr_off (by decide) ..).trans hcnt)
      · exact ⟨hrun, hcnt, hnone _⟩

/-- Settles O3. -/
theorem referencesAndHoldover : Obligations.ReferencesAndHoldover := by
  refine ⟨⟨fun q s hmay hsrc => ?_, fun s hpd0 hsrc hlocked hlate => ?_⟩,
    ⟨fun b s hpd0 hsrc hlocked hedge => ?_, fun s hpd0 hsrc hseen hover => ?_⟩,
    fun s hpd0 hhold htold hover => ?_, fun p h s hon hend => ?_⟩
  · exact ⟨_, (congrArg (settle s) (gateWrite_mayWrite hmay)).trans (settle_eq ..), effGptpKeep_shows hsrc⟩
  · have htimeout : execGptpTimeout s = settle s (enterHoldover 0x2 s) := by
      simp [execGptpTimeout, hpd0, hsrc, hlocked, hlate]
    obtain ⟨hl, hh, hstart, -⟩ := enterHoldover_shows 0x2 s
    exact ⟨_, htimeout.trans (settle_eq ..), hl, hh, hstart, rateNow_enterHoldover 0x2 s⟩
  · intro n d hwin
    obtain ⟨u, hexec, hu, hrate⟩ := execPpsEdge_locked hpd0 hsrc hlocked hedge hwin
    obtain ⟨hlast, hmiss, hnow⟩ := acceptEdge_locked hu (now s) (truncDiv d n)
    exact ⟨_, hexec.trans (settle_eq ..), hlast, hmiss, hnow.trans (by rw [hrate])⟩
  · obtain ⟨t, hexec, hshows⟩ := execPpsEdgeMissed_shows hpd0 hsrc hseen hover
    exact ⟨_, hexec.trans (settle_eq ..), hshows⟩
  · have hraised : execHoldBoundExceeded s = settle s (raise pgTB 0x104 sevDEGRADED (holdBound s) { s with tb := { s.tb with boundTold := true } }) := by
      simp [execHoldBoundExceeded, hpd0, hhold, htold, hover]
    have htold' : (raise pgTB 0x104 sevDEGRADED (holdBound s) { s with tb := { s.tb with boundTold := true } }).tb.boundTold = true :=
      congrArg TimeBase.boundTold (raise_tb ..)
    refine ⟨_, hraised.trans (settle_eq ..), htold', rdB_raise_valid (by decide) (by decide) (by decide) .., ?_⟩
    refine ⟨_, ?_, rfl⟩
    generalize hu : raise pgTB 0x104 sevDEGRADED (holdBound s) { s with tb := { s.tb with boundTold := true } } = u at htold'
    simp [exec, execHoldBoundExceeded, htold', settle]
  · have hwindow : execPaceWindowEnd p h s = settle s (wrN p 0x02C (putBits (putBits (putBits (rd s p 0x02C).toNat 19 0
        (min (16000 * h / paceNorm p) 0xFFFFF)) 20 20 1) 27 24 (rdF s p 0x02C 27 24 + 1))
        { s with tb := { s.tb with paceStart := s.tb.paceStart.put 0 p (now s) } }) := by
      simp [execPaceWindowEnd, hon, hend]
    obtain ⟨hrate, hvalid, hseq⟩ := paceWord_fields (rd s p 0x02C) (min (16000 * h / paceNorm p) 0xFFFFF) (rdF s p 0x02C 27 24 + 1)
      (Nat.min_le_right ..)
    refine ⟨_, hwindow.trans (settle_eq ..), ?_, ?_, ?_, ?_⟩
    · exact (congrArg (fun w => fld w 19 0) (rd_wr_same ..)).trans hrate
    · exact (congrArg (fun w => flag w 20) (rd_wr_same ..)).trans hvalid
    · exact (congrArg (fun w => fld w 27 24) (rd_wr_same ..)).trans hseq
    · exact regsStandBut_wr (by decide) p _ { s with tb := { s.tb with paceStart := s.tb.paceStart.put 0 p (now s) } }

end Sys2Proof.Machine
end

section
/-!
PROOFS. The commands of registers, records and interfaces store nothing (O60): one equation per operation for what holds data, jobs
and workspaces.
-/
namespace Sys2Proof.Machine

/-- What holds data and work: the memory and its error marks, the jobs, the Mews, the streams and the engines' workspaces. -/
def stored (s : State) : Memory × SMap Mark × SMap PageJobs × MewsState × SMap StreamUnit × SMap GshRes × FusState × FshState :=
  (s.mem, s.marks, s.jobs, s.mews, s.strm, s.gsh, s.fus, s.fsh)

/-! ### Registers and records -/

theorem stored_of_reports {s t : State} (h : ReportsOnly s t) : stored t = stored s := h.field stored

@[simp] theorem stored_wr (p off : Nat) (v : Word) (s : State) : stored (wr p off v s) = stored s := rfl
@[simp] theorem stored_wrN (p off v : Nat) (s : State) : stored (wrN p off v s) = stored s := rfl
@[simp] theorem stored_wrF (p off hi lo v : Nat) (s : State) : stored (wrF p off hi lo v s) = stored s := rfl
@[simp] theorem stored_wrB (p off i : Nat) (b : Bool) (s : State) : stored (wrB p off i b s) = stored s := rfl
@[simp] theorem stored_wr64 (p off v : Nat) (s : State) : stored (wr64 p off v s) = stored s := rfl
@[simp] theorem stored_setEvt (p : Nat) (b : Option Nat) (s : State) : stored (setEvt p b s) = stored s := stored_of_reports (setEvt_reports ..)
@[simp] theorem stored_raise (p c v d : Nat) (s : State) : stored (raise p c v d s) = stored s := stored_of_reports (raise_reports ..)
@[simp] theorem stored_incCnt (p off n : Nat) (s : State) : stored (incCnt p off n s) = stored s := stored_of_reports (incCnt_reports ..)
@[simp] theorem stored_cmdRej (q : Port) (p off i : Nat) (s : State) : stored (cmdRej q p off i s) = stored s :=
  stored_of_reports (refuse_reports ..)

@[simp] theorem stored_landLck (q : Port) (p off : Nat) (w : Word) (s : State) : stored (landLck q p off w s) = stored s := by
  unfold landLck landAt
  dsimp only
  split
  · exact (stored_of_reports (refuse_reports ..)).trans (stored_wr ..)
  · exact stored_wr ..

/-- A list of operations each of which stores nothing. -/
theorem stored_foldl {β : Type} {g : State → β → State} (h : ∀ t x, stored (g t x) = stored t) (l : List β) (s : State) :
    stored (l.foldl g s) = stored s := Same.foldl (f := stored) h l s

theorem stored_ite {c : Prop} [Decidable c] {a b s : State} (ha : stored a = stored s) (hb : stored b = stored s) :
    stored (if c then a else b) = stored s := Same.ite (f := stored) ha hb

theorem stored_gateWrite {k : State → State} {s : State} (h : stored (k s) = stored s) (q : Port) (p off : Nat) :
    stored (gateWrite q p off k s) = stored s := Same.gate (f := stored) h

/-! ### The states of the ports, links and interfaces -/

@[simp] theorem stored_modPort (q : Port) (f : PortState → PortState) (s : State) : stored (s.modPort q f) = stored s := by cases q <;> rfl
@[simp] theorem stored_modPlk (f : Link → Link) (s : State) : stored (modPlk f s) = stored s := rfl
@[simp] theorem stored_modMbr (f : Bridge → Bridge) (s : State) : stored (modMbr f s) = stored s := rfl
@[simp] theorem stored_modMet (f : Met → Met) (s : State) : stored (modMet f s) = stored s := rfl
@[simp] theorem stored_modSup (f : SupState → SupState) (s : State) : stored (modSup f s) = stored s := rfl
@[simp] theorem stored_setSpi (c : Nat) (v : SpiState) (s : State) : stored (setSpi c v s) = stored s := rfl
@[simp] theorem stored_setUart (u : Nat) (v : UartState) (s : State) : stored (setUart u v s) = stored s := rfl
@[simp] theorem stored_setEth (m : Nat) (v : EthState) (s : State) : stored (setEth m v s) = stored s := rfl

/-! ### The effects -/

theorem stored_effEvtSet (p : Nat) (bits : Word) (s : State) : stored (effEvtSet p bits s) = stored s :=
  stored_foldl (fun t i => by simp) _ s

theorem stored_clearFault (p : Nat) (s : State) : stored (clearFault p s) = stored s := by
  have htold (u : State) (m : SMap Bool) : stored { u with timeouts := m } = stored u := rfl
  unfold clearFault
  exact (htold ..).trans ((stored_wrN ..).trans (stored_wrN ..))

theorem stored_effFmClr (q : Port) (p : Nat) (s : State) : stored (effFmClr q p s) = stored s := by
  unfold effFmClr; split
  · exact stored_clearFault ..
  · exact stored_cmdRej ..

theorem stored_sendMsix (q : Port) (v : Nat) (s : State) : stored (sendMsix q v s) = stored s := by
  unfold sendMsix; split
  · rfl
  · split <;> exact stored_modPort ..

theorem stored_signalRing (q : Port) (m : Nat) (s : State) : stored (signalRing q m s) = stored s :=
  (stored_sendMsix ..).trans (stored_modPort ..)

theorem stored_sendPending (q : Port) (vs : List Nat) (s : State) : stored (sendPending q vs s) = stored s :=
  stored_foldl (fun t v => by
    split
    · exact (stored_sendMsix ..).trans (stored_modPort ..)
    · rfl) vs s

theorem stored_configure (q : Port) (l : List CfgAccess) (s : State) : stored (configure q l s) = stored s :=
  stored_foldl (fun t a => by
    unfold cfgAccess; dsimp only; split
    · exact (stored_modPort ..).trans (stored_modPort ..)
    · exact (stored_sendPending ..).trans (stored_modPort ..)) l s

theorem stored_effLreDiscard (q : Port) (n : Nat) (s : State) : stored (effLreDiscard q n s) = stored s := by
  unfold effLreDiscard; dsimp only; split
  · exact stored_cmdRej ..
  · split
    · exact stored_raise ..
    · rfl

theorem stored_effCrDb (q : Port) (n tail : Nat) (s : State) : stored (effCrDb q n tail s) = stored s := by
  unfold effCrDb; exact stored_ite (stored_cmdRej ..) (stored_modPort ..)

theorem stored_effPostDb (q : Port) (c tail : Nat) (s : State) : stored (effPostDb q c tail s) = stored s := by
  unfold effPostDb; exact stored_ite (stored_cmdRej ..) (stored_modPlk ..)

theorem stored_effEthTxDb (q : Port) (m tail : Nat) (s : State) : stored (effEthTxDb q m tail s) = stored s := by
  unfold effEthTxDb; exact stored_ite (stored_cmdRej ..) (stored_setEth ..)

theorem stored_effCanRecover (q : Port) (c : Nat) (s : State) : stored (effCanRecover q c s) = stored s := by
  unfold effCanRecover; split
  · exact stored_cmdRej ..
  · rfl

theorem stored_effUartTx (q : Port) (u : Nat) (b : Byte) (s : State) : stored (effUartTx q u b s) = stored s := by
  unfold effUartTx; dsimp only; split
  · exact stored_cmdRej ..
  · exact (stored_wrN ..).trans (stored_setUart ..)

theorem stored_effMregClass (q : Port) (ws : List (Nat × Word)) (s : State) : stored (effMregClass q ws s) = stored s := by
  have hland : stored (ws.foldl (fun t e => landLck q pgMREG e.1 e.2 t) s) = stored s := stored_foldl (fun t e => stored_landLck ..) ws s
  unfold effMregClass; dsimp only; split
  · exact hland
  · split
    · split
      · exact hland
      · exact (stored_raise ..).trans hland
    · exact hland

theorem stored_effMregTagmin (q : Port) (w : Word) (s : State) : stored (effMregTagmin q w s) = stored s := by
  have hland := stored_landLck q pgMREG 0x0A4 w s
  unfold effMregTagmin; dsimp only; split
  · exact hland
  · split
    · split
      · exact hland
      · exact (stored_raise ..).trans hland
    · exact hland

theorem stored_effTrigClr (p : Nat) (w : Word) (s : State) : stored (effTrigClr p w s) = stored s := by
  have hset (p i : Nat) : stored (setTrig p i 0 s) = stored s := by
    unfold setTrig; split
    · exact stored_wrF ..
    · rfl
  unfold effTrigClr; split <;> exact hset ..

theorem stored_effPlkEnable_on (s : State) : stored (effPlkEnable true s) = stored s := by
  unfold effPlkEnable; split
  · split
    · rfl
    · exact (stored_wrB ..).trans (stored_modPlk ..)
  · contradiction

theorem stored_sendFrame (code param : Nat) (s : State) : stored (sendFrame code param s) = stored s := by
  unfold sendFrame; dsimp only; split
  · exact stored_modMbr ..
  · exact (stored_modMet ..).trans (stored_modMbr ..)

theorem stored_effMbrReq (q : Port) (code : Nat) (s : State) : stored (effMbrReq q code s) = stored s := by
  unfold effMbrReq; split
  · exact stored_cmdRej ..
  · exact (stored_sendFrame ..).trans ((stored_wrB ..).trans (stored_modMbr ..))

theorem stored_countAcked (f : LinkFrame) (s : State) : stored (countAcked f s) = stored s := by
  unfold countAcked; dsimp only; split
  · split
    · exact stored_modPlk ..
    · rfl
  · rfl

/-! ### Heat -/

theorem stored_sensorFaults (l : List (Option Int)) (ok : Word) (first : Bool) (s : State) : stored (sensorFaults l ok first s) = stored s :=
  stored_foldl (fun t e => by split <;> simp) _ s

theorem stored_writeSensors (l : List (Option Int)) (s : State) : stored (writeSensors l s) = stored s :=
  (stored_wrN ..).trans (stored_foldl (fun _ _ => stored_wrN ..) _ s)

@[simp] theorem stored_assertAlert (s : State) : stored (assertAlert s) = stored s := by
  unfold assertAlert; split <;> simp

@[simp] theorem stored_alertRule (n : Nat) (t : Int) (s : State) : stored (alertRule n t s) = stored s := by
  unfold alertRule; dsimp only; split
  · split <;> simp
  · split <;> simp

@[simp] theorem stored_critRule (n : Nat) (t : Int) (s : State) : stored (critRule n t s) = stored s := by
  unfold critRule; dsimp only; split
  · split <;> simp
  · split <;> simp

theorem stored_goBlind (s : State) : stored (goBlind s) = stored s := by
  unfold goBlind; dsimp only; split
  · simp
  · simp; rfl

theorem stored_seeHottest (n : Nat) (t : Int) (s : State) : stored (seeHottest n t s) = stored s := by
  have hmax (u : State) (v : Nat) : stored (wrN pgTHM 0x0A0 v { u with heat := { u.heat with blind := false } }) = stored u := rfl
  unfold seeHottest
  exact (stored_critRule ..).trans ((stored_alertRule ..).trans
    (stored_ite ((stored_wrN ..).trans (hmax ..)) (hmax ..)))

/-! ### The statement -/

/-- A command whose effect stores nothing leaves all of it. -/
theorem stored_of_settle {s t u : State} (h : settle s u = .next t) (hu : stored u = stored s) : stored t = stored s :=
  Same.of_settle (f := stored) h hu

/-- A gated write whose effect stores nothing. -/
theorem stored_of_gate {s t : State} {q : Port} {p off : Nat} {k : State → State} (h : settle s (gateWrite q p off k s) = .next t)
    (hk : stored (k s) = stored s) : stored t = stored s :=
  stored_of_settle h (stored_gateWrite hk q p off)

/-- A condition met or not: the effect, or nothing. -/
theorem stored_of_ite {s t u : State} {c : Prop} [Decidable c] (h : settle s (if c then u else s) = .next t) (hu : stored u = stored s) :
    stored t = stored s :=
  stored_of_settle h (stored_ite hu rfl)

theorem stored_of_else {s t u : State} {c : Prop} [Decidable c] (h : settle s (if c then s else u) = .next t) (hu : stored u = stored s) :
    stored t = stored s :=
  stored_of_settle h (stored_ite rfl hu)

/-- The same where the command ends at once. -/
theorem stored_of_ite_next {s t u : State} {c : Prop} [Decidable c] (h : (if c then settle s u else .next s) = .next t)
    (hu : stored u = stored s) : stored t = stored s := by
  split at h
  · exact stored_of_settle h hu
  · cases h; rfl

/-- A control block that stores nothing but the link's own state. -/
theorem stored_of_control {s t : State} {ok : Bool} {k : State → State} (h : takeControl ok k s = .next t)
    (hk : ∀ u, stored (k u) = stored u) : stored t = stored s := by
  unfold takeControl at h
  split at h
  · cases h; rfl
  · split at h
    · exact stored_of_settle h (stored_incCnt ..)
    · exact stored_of_settle h ((hk _).trans (stored_modPlk ..))

theorem execThmSample_stored {l : List (Option Int)} {s t : State} (h : execThmSample l s = .next t) : stored t = stored s := by
  unfold execThmSample at h
  refine stored_of_ite h ?_
  have hsens (u : State) (n : Nat) : stored (writeSensors (sixteen l)
      { u with heat := { u.heat with sampled := true, lastAt := n } }) = stored u := stored_writeSensors ..
  dsimp only
  split
  · exact (stored_goBlind _).trans ((hsens ..).trans (stored_sensorFaults ..))
  · exact (stored_seeHottest ..).trans ((hsens ..).trans (stored_sensorFaults ..))

theorem execPgFaultClear_stored {q : Port} {p : Nat} {s t : State} (h : execPgFaultClear q p none s = .next t) :
    stored t = stored s := by
  unfold execPgFaultClear at h
  exact stored_of_gate h (stored_clearFault ..)

theorem execMsixTableWrite_stored {q : Port} {n : Nat} {value : Option Word} {s t : State} (h : execMsixTableWrite q n value s = .next t) :
    stored t = stored s := by
  unfold execMsixTableWrite at h
  refine stored_of_ite h ?_
  split
  · exact stored_modPort ..
  · exact stored_ite ((stored_sendPending ..).trans (stored_modPort ..)) rfl

theorem execTrigClr_stored {q : Port} {p : Nat} {w : Word} {s t : State} (h : execTrigClr q p w s = .next t) : stored t = stored s := by
  unfold execTrigClr at h
  split at h
  · exact stored_of_gate h (stored_effTrigClr ..)
  · cases h; rfl

theorem execJtagBoundaryScan_stored {tms tdi trst : Bool} {s t : State} (h : execJtagBoundaryScan tms tdi trst s = .next t) :
    stored t = stored s := by
  unfold execJtagBoundaryScan at h
  exact stored_of_else h (stored_ite rfl rfl)

theorem execSpiTransactionStart_stored {c : Fin 2} {edge : Option (Fin 16 × Bool)} {s t : State}
    (h : execSpiTransactionStart c edge s = .next t) : stored t = stored s := by
  unfold execSpiTransactionStart at h
  exact stored_of_else h (stored_ite (stored_ite (by simp) (by simp)) (stored_setSpi ..))

theorem execGpioEdge_stored {pin : Fin 16} {rising : Bool} {s t : State} (h : execGpioEdge pin rising s = .next t) : stored t = stored s := by
  unfold execGpioEdge at h
  exact stored_of_else h (stored_ite (stored_wrB ..) (by simp))

theorem execPlkTrainingDone_stored {peer : Byte} {b : Bool} {s t : State} (h : execPlkTrainingDone peer b s = .next t) :
    stored t = stored s := by
  unfold execPlkTrainingDone at h
  split at h
  · cases h; rfl
  · dsimp only at h
    split at h
    · exact stored_of_settle h (stored_ite (by simp) (by simp))
    · exact stored_of_settle h (by simp)

theorem execAck_stored {n : Nat} {ok : Bool} {s t : State} (h : execAck n ok s = .next t) : stored t = stored s := by
  unfold execAck at h
  exact stored_of_control h fun u => (stored_modPlk ..).trans (stored_foldl (fun v f => stored_countAcked f v) _ u)

/-- Settles O60: command by command, each by the equations of the operations it is made of. -/
theorem registerCommandsStoreNothing : Obligations.RegisterCommandsStoreNothing := by
  intro q p n m w b ring cr ctl byte k value cfg edge readings c s t hc h
  suffices hst : stored t = stored s by simpa only [stored, Prod.mk.injEq] using hst
  simp only [List.mem_cons, List.not_mem_nil, or_false] at hc
  obtain rfl | rfl | rfl | rfl | rfl | rfl | rfl | rfl | rfl | rfl | rfl | rfl | rfl | rfl | rfl | rfl | rfl | rfl | rfl | rfl | rfl |
    rfl | rfl | rfl | rfl | rfl | rfl | rfl | rfl | rfl | rfl | rfl | rfl | rfl | rfl | rfl | rfl | rfl | rfl := hc <;> unfold exec at h
  · exact stored_of_gate h (stored_landLck ..)
  · exact stored_of_gate h (stored_effEvtSet ..)
  · exact execPgFaultClear_stored h
  · exact stored_of_gate h (stored_effFmClr ..)
  · exact stored_of_ite h (stored_signalRing ..)
  · exact stored_of_gate h (stored_effLreDiscard ..)
  · exact stored_of_ite h (by simp [portDefaults])
  · exact stored_of_ite h ((stored_configure ..).trans (by simp))
  · exact stored_of_ite h (stored_modPort ..)
  · exact execMsixTableWrite_stored h
  · exact stored_of_gate h (stored_effCrDb ..)
  · exact stored_of_gate h (stored_wrN ..)
  · exact execThmSample_stored h
  · exact stored_of_gate h (stored_effMregClass ..)
  · exact stored_of_gate h (stored_effMregTagmin ..)
  · exact execTrigClr_stored h
  · exact execJtagBoundaryScan_stored h
  · exact stored_of_ite h (stored_modPort ..)
  · exact stored_of_gate h (stored_effEthTxDb ..)
  · exact stored_of_ite h (stored_ite (stored_wrN ..) (by simp))
  · exact stored_of_ite h (by simp)
  · exact stored_of_ite h (by simp)
  · exact stored_of_gate h (stored_effCanRecover ..)
  · exact stored_of_ite h (stored_wrN ..)
  · exact execSpiTransactionStart_stored h
  · exact stored_of_gate h (stored_effUartTx ..)
  · exact stored_of_ite h (by simp)
  · exact execGpioEdge_stored h
  · exact stored_of_gate h (stored_effPostDb ..)
  · exact stored_of_gate h ((stored_effPlkEnable_on _).trans (stored_wrB ..))
  · exact execPlkTrainingDone_stored h
  · exact stored_of_ite_next h (by simp)
  · exact execAck_stored h
  · exact stored_of_control h fun u => stored_wrF ..
  · exact stored_of_ite_next h (by simp)
  · exact stored_of_ite_next h ((stored_sendFrame ..).trans (stored_modMbr ..))
  · exact stored_of_gate h (stored_effMbrReq ..)
  · exact stored_of_gate h (stored_effMbrReq ..)
  · exact stored_of_gate h (stored_effMbrReq ..)

end Sys2Proof.Machine
end

section
/-!
PROOFS. Reset (O56): the cold module, whose maps are empty.
-/
namespace Sys2Proof.Machine

/-- No byte is listed at reset: each reads as the fill of its address. -/
theorem getByte_reset (a : Nat) : getByte State.reset a = if a < 2 ^ 36 then Config.freeByte 0 a else 0 := rfl

/-- At reset no pool is on, and each buffer has its first generation. -/
theorem reset_mewsWf : MewsWf State.reset := fun _ => by
  constructor
  · exact (by decide : MewsPool.off.count ≤ 65536)
  · exact fun _ => (by decide : 1 ≤ Buf.fresh.gen ∧ Buf.fresh.gen ≤ 8191)

/-- Settles O56: every map of the reset state is empty, so that what it gives is its default. -/
theorem resetIsTheColdModule : Obligations.ResetIsTheColdModule := by
  refine ⟨rfl, fun _ hc => absurd hc List.not_mem_nil, reset_canonical, reset_mewsWf, rfl, rfl, rfl, fun _ => rfl, fun _ _ => rfl,
    fun a ha => ?_, fun a ha => ?_⟩
  · rw [getByte_reset, if_pos ha]
  · rw [getByte_reset, if_neg (Nat.not_lt.mpr ha)]

end Sys2Proof.Machine
end

section
/-!
PROOFS. Register accesses of 32 bits (O4, O5): what the header's words are made of, a whole word written by the port that may write
it, one written by another port, and a word read.
-/
namespace Sys2Proof.Machine

/-! ### The page map and the header -/

theorem and_ones (w : Word) : w &&& 4294967295#32 = w := BitVec.and_allOnes

/-- A page with a kind lies in a row of the page map. -/
theorem kindOf_row {p : Nat} {k : PageKind} (h : kindOf p = some k) : ∃ r ∈ pageMap, r.kind = k ∧ r.first ≤ p ∧ p < r.first + r.count := by
  unfold kindOf pageRow at h
  obtain ⟨r, hr, rfl⟩ := Option.map_eq_some_iff.mp h
  have hp := List.find?_some hr
  simp only [Bool.and_eq_true, decide_eq_true_eq] at hp
  exact ⟨r, List.mem_of_find?_eq_some hr, rfl, hp⟩

theorem kindOf_of_assigned {p : Nat} (h : assigned p = true) : ∃ k, kindOf p = some k := by
  unfold assigned at h
  obtain ⟨r, hr⟩ := Option.isSome_iff_exists.mp h
  exact ⟨r.kind, by rw [kindOf, hr]; rfl⟩

theorem regSpec_header {p off : Nat} {k : PageKind} (hk : kindOf p = some k) (ho : off < 0x080) :
    regSpec p off = (headerRegs k).find? (·.covers off) := by
  unfold regSpec; rw [hk]; exact if_pos ho

/-- The register of a header word, and with it its fields. -/
theorem fieldsAt_of_spec {p off : Nat} {r : RegSpec} (h : regSpec p off = some r) : fieldsAt p off = r.fields := by
  unfold fieldsAt; rw [h]

/-- Words that hold state alone stand whatever is written. -/
theorem landWord_sts {fs : List Field} (h : ∀ f ∈ fs, f.type = .sts) (l : Bool) (old w : Word) : landWord fs l old w = old := by
  have hmask (t : FType) (ht : t ≠ .sts) : typeMask t fs = 0 := by
    unfold typeMask
    rw [List.filter_eq_nil_iff.mpr fun f hf => by simpa [h f hf] using ht.symm]
    rfl
  unfold landWord
  simp [hmask, and_ones]

theorem landAt_eq {q : Port} {p off : Nat} (l : Bool) (w : Word) (s : State) (h : (l && decide (typeMask .lck (fieldsAt p off) ≠ 0)) = false) :
    landAt q p off l w s = wr p off (landWord (fieldsAt p off) l (rd s p off) w) s := by
  unfold landAt; dsimp only; rw [h]; rfl

/-! ### A 32-bit write of one word -/

/-- The write of a whole word at an aligned offset. -/
abbrev wordWrite (p off : Nat) (w : Word) : Access := ⟨p * 0x1000 + off, 32, 0xF, true, w.toNat⟩

section
variable {q : Port} {p off : Nat} {w : Word} {s : State}

theorem offset_page (ho : off < 0x1000) : (p * 0x1000 + off) / 0x1000 = p := by omega

theorem offset_mod (ho : off < 0x1000) : (p * 0x1000 + off) % 0x1000 = off := by omega

theorem writeForm_wordWrite (h4 : off % 4 = 0) : writeForm (wordWrite p off w) = 0 := by
  have : (p * 0x1000 + off) % 4 = 0 := by omega
  simp [writeForm, allEnabled, this]

theorem landWrite_wordWrite (ho : off < 0x1000) : landWrite q (wordWrite p off w) s = writeReg q p off (locked s p) w s := by
  unfold landWrite accWords
  simp only [offset_page ho, offset_mod ho, show (32 : Nat) ≠ 64 by decide, if_false, BitVec.ofNat_toNat,
    BitVec.setWidth_eq, List.foldl_cons, List.foldl_nil]

theorem writeAccess_wordWrite (ho : off < 0x1000) (h4 : off % 4 = 0) :
    writeAccess q (wordWrite p off w) s = gateWrite q p off (landWrite q (wordWrite p off w)) s := by
  unfold writeAccess
  simp only [writeForm_wordWrite h4, ne_eq, not_true_eq_false, if_false, wordWrite, offset_page ho, offset_mod ho]

/-- A whole word written with one hardware update of the same instant that sets or counts: the update lands after the write. -/
theorem exec_regWrite_hw (hw : HwUpdate) (hset : ∀ o m, hw ≠ .clear o m) (hp : p < 0x100) (ho : off < 0x1000) (h4 : off % 4 = 0)
    (hmay : MayWrite s q p off) :
    ∃ f, exec (.regWrite q (wordWrite p off w) [hw]) s = settle s (applyHw p f hw (writeReg q p off (locked s p) w s)) := by
  have hclear (t : State) : clearWins p [hw] s t = t := by
    cases hw with
    | clear o m => exact absurd rfl (hset o m)
    | _ => rfl
  have hlive : (!portLive s q || decide (0x4000000 ≤ (wordWrite p off w).offset)) = false := by
    simp only [hmay.1, Bool.not_true, Bool.false_or, decide_eq_false_iff_not]; omega
  refine ⟨fun o i => landed s q (wordWrite p off w) && (accWords (wordWrite p off w)).any (fun e => decide (e.1 = o) && flag e.2 i), ?_⟩
  unfold exec execRegWrite
  simp only [hlive, Bool.false_eq_true, if_false, writeAccess_wordWrite ho h4, gateWrite_mayWrite hmay, landWrite_wordWrite ho,
    offset_page ho, hclear, ite_self, if_true, List.foldl_cons, List.foldl_nil, wordWrite]

/-- A whole word written: what its gate makes of it. -/
theorem exec_regWrite_gate (hp : p < 0x100) (ho : off < 0x1000) (h4 : off % 4 = 0) (hlive : portLive s q = true) :
    exec (.regWrite q (wordWrite p off w) []) s = settle s (gateWrite q p off (landWrite q (wordWrite p off w)) s) := by
  have hlive : (!portLive s q || decide (0x4000000 ≤ (wordWrite p off w).offset)) = false := by
    simp only [hlive, Bool.not_true, Bool.false_or, decide_eq_false_iff_not]; omega
  unfold exec execRegWrite
  simp only [hlive, Bool.false_eq_true, if_false, writeAccess_wordWrite ho h4, offset_page ho, clearWins, ite_self, if_true,
    List.foldl_nil, wordWrite]

theorem exec_regWrite (hp : p < 0x100) (ho : off < 0x1000) (h4 : off % 4 = 0) (hmay : MayWrite s q p off) :
    exec (.regWrite q (wordWrite p off w) []) s = settle s (writeReg q p off (locked s p) w s) := by
  rw [exec_regWrite_gate hp ho h4 hmay.1, gateWrite_mayWrite hmay, landWrite_wordWrite ho]

end

/-- A header word without an effect of its own lands by its fields' types. -/
theorem writeReg_header {q : Port} {p off : Nat} {r : RegSpec} (hr : regSpec p off = some r) (ho : off < 0x080)
    (hne : off ≠ 0x00C ∧ off ≠ 0x01C ∧ off ≠ 0x020) (l : Bool) (w : Word) (s : State) :
    writeReg q p off l w s = landAt q p off l w s := by
  obtain ⟨hctrl, htest, hfault⟩ := hne
  unfold writeReg writeHeader
  rw [hr, if_neg (by simp), if_pos ho, if_neg hctrl, if_neg htest, if_neg hfault]

/-! ### Header writes -/

/-- The words of the header that hold state alone. -/
theorem header_sts {off : Nat} (h : off ∈ [0x000, 0x004, 0x008, 0x010, 0x024, 0x028, 0x02C]) (k : PageKind) :
    ∃ r, (headerRegs k).find? (·.covers off) = some r ∧ ∀ f ∈ r.fields, f.type = .sts := by
  simp only [List.mem_cons, List.not_mem_nil, or_false] at h
  obtain rfl | rfl | rfl | rfl | rfl | rfl | rfl := h <;> exact ⟨_, rfl, by decide⟩

/-- The fields of `PG_EVT`, `PG_EVT_EN` and the job counters. -/
theorem fieldsAt_evt {p : Nat} {k : PageKind} (hk : kindOf p = some k) : regSpec p 0x014 = some (reg 0x014 0 [evt 12 0, evt 31 16]) :=
  (regSpec_header hk (by decide)).trans rfl

theorem fieldsAt_evtEn {p : Nat} {k : PageKind} (hk : kindOf p = some k) :
    regSpec p 0x018 = some (reg 0x018 0xFFFF1FFE [cfg 12 0, cfg 31 16]) :=
  (regSpec_header hk (by decide)).trans rfl

theorem fieldsAt_jobs {p : Nat} {k : PageKind} (hk : kindOf p = some k) : regSpec p 0x030 = some (reg 0x030 0 [jobCount k]) := by
  rw [regSpec_header hk (by decide)]
  cases k <;> decide

/-- Events are cleared by 1 (R67). -/
theorem landWord_evt (l : Bool) (old w : Word) : landWord [evt 12 0, evt 31 16] l old w = old &&& ~~~(w &&& 0xFFFF1FFF) := by
  unfold landWord
  rw [show typeMask .evt [evt 12 0, evt 31 16] = 0xFFFF1FFF from rfl]
  simp [show typeMask .cfg [evt 12 0, evt 31 16] = 0 from rfl, show typeMask .cfgh [evt 12 0, evt 31 16] = 0 from rfl,
    show typeMask .cnt [evt 12 0, evt 31 16] = 0 from rfl, show typeMask .lck [evt 12 0, evt 31 16] = 0 from rfl, and_ones]

theorem landWord_evtEn (l : Bool) (old w : Word) :
    landWord [cfg 12 0, cfg 31 16] l old w = (old &&& 0xE000) ||| (w &&& 0xFFFF1FFF) := by
  unfold landWord
  simp [show typeMask .cfg [cfg 12 0, cfg 31 16] = 0xFFFF1FFF from rfl, show typeMask .cfgh [cfg 12 0, cfg 31 16] = 0 from rfl,
    show typeMask .cnt [cfg 12 0, cfg 31 16] = 0 from rfl, show typeMask .lck [cfg 12 0, cfg 31 16] = 0 from rfl,
    show typeMask .evt [cfg 12 0, cfg 31 16] = 0 from rfl, and_ones]

/-- A counter takes the written value (R70). -/
theorem landWord_cnt (l : Bool) (old w : Word) : landWord [cnt 31 0] l old w = w := by
  unfold landWord
  simp [show typeMask .cnt [cnt 31 0] = 0xFFFFFFFF from rfl, show typeMask .cfg [cnt 31 0] = 0 from rfl,
    show typeMask .cfgh [cnt 31 0] = 0 from rfl, show typeMask .lck [cnt 31 0] = 0 from rfl, show typeMask .evt [cnt 31 0] = 0 from rfl, and_ones]

/-- A header word without a lock lands whole, locked or not. -/
theorem landAt_header {q : Port} {p off : Nat} {r : RegSpec} (hr : regSpec p off = some r) (hl : typeMask .lck r.fields = 0)
    (l : Bool) (w : Word) (s : State) : landAt q p off l w s = wr p off (landWord r.fields l (rd s p off) w) s := by
  rw [← fieldsAt_of_spec hr]
  exact landAt_eq l w s (by rw [fieldsAt_of_spec hr, hl]; simp)

/-- A counter of the page is counted up by the hardware (R70, R71). -/
theorem applyHw_count {p : Nat} {f : Nat → Nat → Bool} {s : State} (hon : pageOn s p = true) (n : Nat) :
    applyHw p f (.count 0x030 n) s = if typeMask .cnt (fieldsAt p 0x030) = 0 then s else incCnt p 0x030 n s := by
  unfold applyHw
  simp only [hon, Bool.not_true, Bool.false_eq_true, if_false]
  have hpair (off : Nat) (ho : off = 0x030 ∨ off = 0x030 - 4) : applyHw.isPair p off = false := by
    unfold applyHw.isPair
    obtain rfl | rfl := ho <;> split <;> rfl
  rw [hpair _ (.inl rfl), hpair _ (.inr rfl)]
  rfl

/-- Settles O4: each word lands by the types of its fields; a hardware update of the instant comes after. -/
theorem headerWritesLandByFieldType : Obligations.HeaderWritesLandByFieldType := by
  intro q p w s hp
  refine ⟨fun m hmay => ?_, fun n k hmay hk => ?_, fun hmay => ?_, fun off hoff hmay => ?_⟩
  case refine_1 =>
    obtain ⟨k, hk⟩ := kindOf_of_assigned hmay.2.1
    have hr := fieldsAt_evt hk
    obtain ⟨f, hexec⟩ := exec_regWrite_hw (w := w) (.setEvt 0x014 m) (fun _ _ => by simp) hp (by decide) (by decide) hmay
    rw [writeReg_header hr (by decide) (by decide), landAt_header hr rfl] at hexec
    refine ⟨_, hexec.trans (settle_eq ..), ?_⟩
    have hon (v : Word) : pageOn (wr p 0x014 v s) p = true := (pageOn_wr (by decide) (by simp) v s p).trans hmay.2.2.2
    unfold applyHw
    simp only [hon, Bool.not_true, Bool.false_eq_true, if_false]
    refine (rd_wr_same ..).trans ?_
    rw [rd_wr_same, fieldsAt_of_spec hr, show (reg 0x014 0 [evt 12 0, evt 31 16]).fields = [evt 12 0, evt 31 16] from rfl, landWord_evt]
    rfl
  case refine_2 =>
    have hr := fieldsAt_jobs hk
    obtain ⟨f, hexec⟩ := exec_regWrite_hw (w := w) (.count 0x030 n) (fun _ _ => by simp) hp (by decide) (by decide) hmay
    have hlck : typeMask .lck [jobCount k] = 0 := by unfold jobCount; split <;> rfl
    rw [writeReg_header hr (by decide) (by decide), landAt_header hr hlck,
      applyHw_count ((pageOn_wr (by decide) (by simp) _ s p).trans hmay.2.2.2), fieldsAt_of_spec hr] at hexec
    have hfield : (reg 0x030 0 [jobCount k]).fields = [jobCount k] := rfl
    rw [hfield] at hexec
    refine ⟨_, hexec.trans (settle_eq ..), fun hno => ?_, fun hno h0 hn => ?_⟩
    · have hcnt : jobCount k = cnt 31 0 := by unfold jobCount; rw [hno]; rfl
      rw [hcnt, landWord_cnt, if_neg (by decide)]
      refine (rd_incCnt (by decide) (by decide) n (wr p 0x030 w s)).trans ?_
      rw [rd_wr_same, BitVec.ofNat_add, BitVec.ofNat_toNat, BitVec.setWidth_eq]
    · have hsts : jobCount k = sts 31 0 := by unfold jobCount; rw [hno]; rfl
      rw [hsts, if_pos (by decide)]
      exact (rd_wr_same ..).trans ((landWord_sts (by decide) ..).trans h0)
  case refine_3 =>
    obtain ⟨k, hk⟩ := kindOf_of_assigned hmay.2.1
    have hr := fieldsAt_evtEn hk
    have hexec := exec_regWrite (w := w) hp (by decide) (by decide) hmay
    rw [writeReg_header hr (by decide) (by decide), landAt_header hr rfl] at hexec
    exact ⟨_, hexec.trans (settle_eq ..), (rd_wr_same ..).trans (landWord_evtEn ..)⟩
  case refine_4 =>
    obtain ⟨k, hk⟩ := kindOf_of_assigned hmay.2.1
    obtain ⟨r, hfind, hsts⟩ := header_sts hoff k
    obtain ⟨ho, h4, hne⟩ : off < 0x080 ∧ off % 4 = 0 ∧ off ≠ 0x00C ∧ off ≠ 0x01C ∧ off ≠ 0x020 := by
      revert hoff; clear hmay hfind; revert off; decide
    have hr : regSpec p off = some r := (regSpec_header hk ho).trans hfind
    have hlck : typeMask .lck r.fields = 0 := by
      unfold typeMask
      rw [List.filter_eq_nil_iff.mpr fun f hf => by simp [hsts f hf]]
      rfl
    have hexec := exec_regWrite (w := w) hp (show off < 0x1000 by omega) h4 hmay
    rw [writeReg_header hr ho hne, landAt_header hr hlck, landWord_sts hsts] at hexec
    refine ⟨_, hexec.trans (settle_eq ..), fun p' off' ho' _ => ?_, rfl, memStands_of_mem rfl⟩
    refine (rd_of_regs rfl p' off').trans ((rd_wr (show off < 0x1000 by omega) ho' _ s).trans ?_)
    split
    · rename_i h; rw [h.1, h.2]
    · rfl

/-! ### Reads, and writes of the other port -/

/-- The words of a block show the same to both ports, but for the time base's shadow. -/
theorem blockWord_port {p : Nat} (hne : kindOf p ≠ some .tb) (s : State) (q r : Port) (off : Nat) :
    blockWord s q p off = blockWord s r p off := by
  unfold blockWord; split
  · rename_i h; exact absurd h hne
  all_goals rfl

theorem kindOf_tb {p : Nat} (h : kindOf p = some .tb) : p = pgTB := by
  obtain ⟨r, hr, hkind, hlo, hhi⟩ := kindOf_row h
  have hrow : r.first = pgTB ∧ r.count = 1 := by
    revert hkind; clear hlo hhi; revert r; decide
  rw [hrow.1] at hlo hhi; rw [hrow.2] at hhi; omega

theorem regWord_port {p : Nat} (hne : p ≠ pgTB) (s : State) (q r : Port) (off : Nat) : regWord s q p off = regWord s r p off := by
  unfold regWord liveWord
  rw [blockWord_port (fun h => hne (kindOf_tb h)) s q r]

theorem sum_range_four (g : Nat → Nat) : ((List.range 4).map g).foldl (· + ·) 0 = g 0 + g 1 + g 2 + g 3 := by
  simp [List.range, List.range.loop]

theorem enabledByte {n i k : Nat} (hi : i < 4) (hk : 2 ^ (8 * i) = k) :
    (if bitOf 0xF i then n / 2 ^ (8 * i) % 256 * 2 ^ (8 * i) else 0) = n / k % 256 * k := by
  have hall : ∀ i < 4, bitOf 0xF i = true := by decide
  rw [hk, if_pos (hall i hi)]

/-- With its four bytes enabled a word is returned whole (R75). -/
theorem enabledBytes_all {n : Nat} (h : n < 2 ^ 32) : enabledBytes 4 0xF n = n := by
  unfold enabledBytes
  rw [sum_range_four, enabledByte (k := 1) (by decide) (by decide), enabledByte (k := 256) (by decide) (by decide),
    enabledByte (k := 65536) (by decide) (by decide), enabledByte (k := 16777216) (by decide) (by decide)]
  omega

/-- The read of a whole word. -/
abbrev wordRead (p off : Nat) : Access := ⟨p * 0x1000 + off, 32, 0xF, false, 0⟩

/-- On a page of no row nothing is told by an event bit. -/
theorem badAccess_regs {p : Nat} (hp : p < 0x100) (ha : assigned p = false) (q : Port) (off reason : Nat) (s : State) :
    (badAccess q p off reason s).regs = s.regs := by
  have hoff : pageOn s p = false := by unfold pageOn; rw [ha]; rfl
  unfold badAccess Machine.refuse postTo
  rw [post_regs, Nat.mod_eq_of_lt (by omega)]
  unfold setEvt
  split
  · rfl
  · rw [hoff]; rfl

theorem regWord_unassigned {p : Nat} (ha : assigned p = false) (s : State) (q : Port) (off : Nat) : regWord s q p off = 0 := by
  unfold regWord; rw [ha]; rfl

theorem readAccess_word {q : Port} {p off : Nat} {s : State} (hp : p < 0x100) (ho : off < 0x1000) (h4 : off % 4 = 0) (htb : p ≠ pgTB)
    (hflg : p ≠ pgFLG) :
    (readAccess q (wordRead p off) s).1 = (regWord s q p off).toNat ∧ (readAccess q (wordRead p off) s).2.regs = s.regs := by
  have hform : readForm (wordRead p off) = 0 := by
    have : (p * 0x1000 + off) % 4 = 0 := by omega
    simp [readForm, this]
  have hreg : readReg q p off s = (regWord s q p off, s) := by
    unfold readReg; rw [if_neg fun h => htb h.1, if_neg fun h => hflg h.1]
  unfold readAccess
  simp only [hform, offset_page ho, offset_mod ho, ne_eq, not_true_eq_false, if_false]
  cases ha : assigned p with
  | false =>
    rw [regWord_unassigned ha]
    exact ⟨rfl, badAccess_regs hp ha ..⟩
  | true =>
    simp only [Bool.not_true, Bool.false_eq_true, if_false, show (32 : Nat) ≠ 64 by decide, hreg]
    exact ⟨enabledBytes_all (BitVec.isLt _), trivial⟩

theorem exec_regRead {q : Port} {p off : Nat} {s : State} (hp : p < 0x100) (ho : off < 0x1000) (hlive : portLive s q = true) :
    exec (.regWrite q (wordRead p off) []) s =
      settle s ((readAccess q (wordRead p off) s).2.modPort q
        (fun v => { v with readData := (readAccess q (wordRead p off) s).1, readEP := false })) := by
  have hlive : (!portLive s q || decide (0x4000000 ≤ (wordRead p off).offset)) = false := by
    simp only [hlive, Bool.not_true, Bool.false_or, decide_eq_false_iff_not]; omega
  unfold exec execRegWrite
  simp only [hlive, Bool.false_eq_true, if_false, offset_page ho, clearWins, ite_self, List.foldl_nil]

/-- A port that may not write a word is told so, and nothing else shows (R77). -/
theorem notOwner_shows {q : Port} {p off : Nat} {k : State → State} {s : State} (ho : off < 0x1000) (hlive : portLive s q = true)
    (ha : assigned p = true) (hw : writerOf s p off ≠ q) :
    Told (gateWrite q p off k s) q p cNOT_OWNER ((off + q.num * 2 ^ 20) % 2 ^ 32) ∧ MemStands s (gateWrite q p off k s) ∧
      (gateWrite q p off k s).jobs = s.jobs ∧
      ∀ p' off', off' < 0x1000 → ¬(p' = p ∧ off' = 0x014) → rd (gateWrite q p off k s) p' off' = rd s p' off' := by
  have hd : off + q.num * 2 ^ 20 < 2 ^ 32 := by cases q <;> simp only [Port.num] <;> omega
  rw [gateWrite_notOwner hlive ha hw, Nat.mod_eq_of_lt hd]
  exact ⟨told_refuse q p cNOT_OWNER hd s, memStands_of_mem (refuse_mem ..), refuse_jobs .., fun p' off' ho' hne => rd_refuse ho' hne ..⟩

/-- The command rows that are writes of one register go through its gate. -/
theorem exec_registerRow {q : Port} {p : Nat} {s : State} {c : Instr} {off : Nat}
    (h : (c, off) ∈ [(Instr.pageLock q p, 0x03C), (.evtTest q p 1, 0x01C), (.pgFaultClear q p none, 0x020), (.pageEnable q p true, 0x00C),
      (.pageQuiesce q p true, 0x00C), (.pageFence q p, 0x00C), (.pageUnfence q p, 0x00C)]) :
    off < 0x1000 ∧ ∃ k, exec c s = settle s (gateWrite q p off k s) := by
  simp only [List.mem_cons, List.not_mem_nil, or_false, Prod.mk.injEq] at h
  obtain ⟨rfl, rfl⟩ | ⟨rfl, rfl⟩ | ⟨rfl, rfl⟩ | ⟨rfl, rfl⟩ | ⟨rfl, rfl⟩ | ⟨rfl, rfl⟩ | ⟨rfl, rfl⟩ := h <;>
    exact ⟨by decide, _, rfl⟩

/-- Settles O5. -/
theorem accessGate : Obligations.AccessGate := by
  refine ⟨fun q p off s hp ho h4 hlive htb hflg => ?_, fun q p off w s hp ho h4 hlive ha hw => ?_, fun q p s c off ha hlive hc hw => ?_⟩
  · obtain ⟨hword, hregs⟩ := readAccess_word (q := q) (s := s) hp ho h4 htb hflg
    refine ⟨_, (exec_regRead hp ho hlive).trans (settle_eq ..), ?_, regWord_port htb .., ?_⟩
    · rw [← hword]; cases q <;> rfl
    · rw [← hregs]; cases q <;> rfl
  · exact ⟨_, (exec_regWrite_gate hp ho h4 hlive).trans (settle_eq ..), notOwner_shows ho hlive ha hw⟩
  · obtain ⟨ho, k, hexec⟩ := exec_registerRow (s := s) hc
    obtain ⟨htold, -, -, hregs⟩ := notOwner_shows (k := k) ho hlive ha hw
    exact ⟨_, hexec.trans (settle_eq ..), htold, hregs⟩

end Sys2Proof.Machine
end

section
/-!
PROOFS. Memory accesses (R185 to R199): what counting an access changes, that it changes nothing of what decides whether and how
memory can be used, and what a read and a write of good words therefore do.
-/
namespace Sys2Proof.Machine

/-! ### What an access counts -/

/-- The registers in which accesses are counted and the errors of words reported: of the DRAM controllers, of the resident store and
of the regulator. -/
def counted (p off : Nat) : Prop :=
  (0x010 ≤ p ∧ p < 0x01C) ∧
      (off = 0x014 ∨ off = 0x020 ∨ off = 0x024 ∨ off = 0x080 ∨ 0x088 ≤ off ∧ off ≤ 0x098 ∨ off = 0x0A0 ∨ off = 0x0A4) ∨
    p = pgRES ∧ (off = 0x014 ∨ off = 0x020 ∨ off = 0x024 ∨ 0x08C ≤ off ∧ off ≤ 0x098) ∨
    p = pgMREG ∧ (off = 0x014 ∨ off = 0x0B0 ∨ 0x0C0 ≤ off ∧ off < 0x0E4)

/-- What one access does beside its data: it is counted, its controllers note it, and the regulator moves to this instant, where its
admissions before the instant, its tags and its waiting requests stand. A controller's status stands but for its self-refresh bit. -/
structure Accounted (s t : State) : Prop where
  fields : t = { s with regs := t.regs, outbox := t.outbox, regul := t.regul, dram := { s.dram with lastReq := t.dram.lastReq },
                        mem := t.mem, marks := t.marks }
  regs : ∀ p off, off < 0x1000 → ¬counted p off → rd t p off = rd s p off
  outbox : s.outbox <+: t.outbox
  admitted : (regulNow t).admitted0 = (regulNow s).admitted0
  total : (regulNow t).total0 = (regulNow s).total0
  tagsClass : t.regul.tagsClass = s.regul.tagsClass
  tagsCtl : t.regul.tagsCtl = s.regul.tagsCtl
  waiting : t.regul.waiting = s.regul.waiting
  status : ∀ p i, i ≠ 3 → rdB t p 0x080 i = rdB s p 0x080 i

namespace Accounted

variable {s t u : State}

theorem refl (s : State) : Accounted s s :=
  ⟨rfl, fun _ _ _ _ => rfl, List.prefix_rfl, rfl, rfl, rfl, rfl, rfl, fun _ _ _ => rfl⟩

theorem trans (h : Accounted s t) (g : Accounted t u) : Accounted s u where
  fields := by
    have hf := g.fields
    rw [h.fields] at hf
    exact hf
  regs p off ho hp := (g.regs p off ho hp).trans (h.regs p off ho hp)
  outbox := h.outbox.trans g.outbox
  admitted := g.admitted.trans h.admitted
  total := g.total.trans h.total
  tagsClass := g.tagsClass.trans h.tagsClass
  tagsCtl := g.tagsCtl.trans h.tagsCtl
  waiting := g.waiting.trans h.waiting
  status p i hi := (g.status p i hi).trans (h.status p i hi)

/-- Every field but the registers, the records on their way, the regulator, the controllers and the memory stands. -/
theorem field {α : Type} (h : Accounted s t) (f : State → α)
    (hf : ∀ x r o g d m k, f { x with regs := r, outbox := o, regul := g, dram := d, mem := m, marks := k } = f x := by
      exact fun _ _ _ _ _ _ _ => rfl) : f t = f s :=
  (congrArg f h.fields).trans (hf ..)

end Accounted

/-- Counting alone leaves the memory. -/
def DataStands (s t : State) : Prop := t.mem = s.mem ∧ t.marks = s.marks

theorem DataStands.trans {s t u : State} (h : DataStands s t) (g : DataStands t u) : DataStands s u :=
  ⟨g.1.trans h.1, g.2.trans h.2⟩

/-! ### The regulator at an instant -/

theorem budgetOf_congr {s t : State} (h : rd t pgMREG 0x080 = rd s pgMREG 0x080) : budgetOf t = budgetOf s := rdF_congr h 12 0

theorem capOf_congr {s t : State} {c : Nat} (h : rd t pgMREG (0x084 + 4 * c) = rd s pgMREG (0x084 + 4 * c)) : capOf t c = capOf s c :=
  rdF_congr h 28 16

theorem guarOf_congr {s t : State} {c : Nat} (h : rd t pgMREG (0x084 + 4 * c) = rd s pgMREG (0x084 + 4 * c)) : guarOf t c = guarOf s c :=
  rdF_congr h 12 0

theorem tagMin_congr {s t : State} (h : rd t pgMREG 0x0A4 = rd s pgMREG 0x0A4) (c : Nat) : tagMin t c = tagMin s c := rdF_congr h _ _

/-- What a new interval carries depends on the regulator, the time and the settings alone. -/
theorem regulNow_congr {s t : State} (htb : t.tb = s.tb) (hregul : t.regul = s.regul) (hbudget : budgetOf t = budgetOf s)
    (hcap : ∀ c < 8, capOf t c = capOf s c) : regulNow t = regulNow s := by
  have hinterval : regulInterval t = regulInterval s := by
    unfold regulInterval now
    simp only [htb, hregul, hbudget, classesDown, List.foldl_cons, List.foldl_nil, hcap 7 (by decide), hcap 6 (by decide),
      hcap 5 (by decide), hcap 4 (by decide), hcap 3 (by decide), hcap 2 (by decide), hcap 1 (by decide), hcap 0 (by decide)]
  unfold regulNow; rw [hinterval, htb]

/-- The settings of the regulator are not counted in. -/
theorem not_counted_setting {off : Nat} (hlo : 0x080 ≤ off) (hhi : off < 0x0B0) : ¬counted pgMREG off := by
  unfold counted pgMREG pgRES; omega

/-- The registers that counting leaves hold the regulator's settings. -/
theorem settings_stand {s t : State} (h : ∀ p off, off < 0x1000 → ¬counted p off → rd t p off = rd s p off) :
    budgetOf t = budgetOf s ∧ ∀ c < 8, capOf t c = capOf s c :=
  ⟨budgetOf_congr (h _ _ (by decide) (not_counted_setting (by decide) (by decide))), fun c hc =>
    capOf_congr (h _ _ (by omega) (not_counted_setting (by omega) (by omega)))⟩

theorem Accounted.of_reports {s t : State} (h : ReportsOnly s t) (ho : s.outbox <+: t.outbox)
    (hr : ∀ p off, off < 0x1000 → ¬counted p off → rd t p off = rd s p off)
    (hs : ∀ p i, i ≠ 3 → rdB t p 0x080 i = rdB s p 0x080 i) : Accounted s t := by
  have hregul : t.regul = s.regul := h.field State.regul
  have hnow : regulNow t = regulNow s := by
    obtain ⟨hbudget, hcap⟩ := settings_stand hr
    exact regulNow_congr (h.field State.tb) hregul hbudget hcap
  refine ⟨?_, hr, ho, by rw [hnow], by rw [hnow], by rw [hregul], by rw [hregul], by rw [hregul], hs⟩
  rw [h.eq]

/-- At the interval and the instant it already is in, the regulator stands. -/
theorem regulNow_of_current {s : State} (hstart : now s / 1000 ≤ s.regul.start / 1000) (hinstant : s.regul.instant = s.tb.count) :
    regulNow s = s.regul := by
  have hm : now s / 1000 - s.regul.start / 1000 = 0 := Nat.sub_eq_zero_of_le hstart
  have hinterval : regulInterval s = s.regul := by
    unfold regulInterval; dsimp only; rw [hm]; exact if_pos rfl
  unfold regulNow; rw [hinterval, if_pos hinstant]

theorem regulNow_start (s : State) : now s / 1000 ≤ (regulNow s).start / 1000 := by
  have hinterval : now s / 1000 ≤ (regulInterval s).start / 1000 := by
    unfold regulInterval; dsimp only; split
    · omega
    · exact Nat.le_of_eq (Nat.mul_div_cancel _ (by decide)).symm
  unfold regulNow; dsimp only; split <;> exact hinterval

theorem regulNow_instant (s : State) : (regulNow s).instant = s.tb.count := by
  unfold regulNow; dsimp only; split
  · assumption
  · rfl

theorem regulNow_tags (s : State) : (regulNow s).tagsClass = s.regul.tagsClass ∧ (regulNow s).tagsCtl = s.regul.tagsCtl ∧
    (regulNow s).waiting = s.regul.waiting := by
  unfold regulNow regulInterval; dsimp only
  split <;> split <;> exact ⟨rfl, rfl, rfl⟩

/-! ### Counting -/

/-- A register that is counted in is written. -/
theorem Accounted.wr {p off : Nat} (ho : off < 0x1000) (hc : counted p off) (v : Word) (s : State) (h80 : off ≠ 0x080 := by omega) :
    Accounted s (wr p off v s) :=
  .of_reports (wr_reports ..) List.prefix_rfl (fun p' off' ho' hp => by
    refine rd_wr_key (regKey_ne ho ho' fun h => hp ?_) v s
    rw [h.1, h.2]; exact hc) fun p' i _ => rdB_congr (rd_wr_key (regKey_ne ho (by decide) fun h => h80 h.2.symm) v s) i

/-- A controller leaves self-refresh. -/
theorem Accounted.wake {c : Nat} (hc : c < 12) (b : Bool) (s : State) : Accounted s (wrB (pgDMC c) 0x080 3 b s) := by
  refine .of_reports (wr_reports ..) List.prefix_rfl (fun p' off' ho' hp => ?_) fun p' i hi => ?_
  · refine rd_wr_key (regKey_ne (by decide) ho' fun h => hp ?_) _ s
    rw [h.1, h.2]; unfold counted pgDMC; omega
  · unfold rdB
    by_cases hp : p' = pgDMC c
    · rw [hp, wrB, wrF, rd_wr_same]
      exact flag_setFld_ne _ _ _ _ _ (Nat.le_refl _) (by decide) (by omega)
    · rw [wrB, wrF, rd_wr_key (regKey_ne (by decide) (by decide) fun h => hp h.1)]

/-- An event below DEGRADED shows in its page's event register alone. -/
theorem Accounted.raise {p v : Nat} (hv : v < sevDEGRADED) (hc : counted p 0x014) (c d : Nat) (s : State) :
    Accounted s (raise p c v d s) :=
  .of_reports (raise_reports ..) (raise_prefix ..) (fun p' off' ho' hp => by
    refine rd_raise_low ho' hv (fun h => hp ?_) c d s
    rw [h.1, h.2]; exact hc) fun p' i _ => rdB_congr (rd_raise_low (by decide) hv (by omega) c d s) i

theorem Accounted.incCnt {p off : Nat} (ho : off < 0x1000) (hc : counted p off) (hevt : counted p 0x014) (n : Nat) (s : State)
    (h80 : off ≠ 0x080 := by omega) : Accounted s (incCnt p off n s) := by
  unfold Machine.incCnt; dsimp only; split
  · exact (Accounted.wr ho hc _ s).trans (.raise (by decide) hevt ..)
  · exact .wr ho hc _ s

theorem Accounted.incCnt64 {p off : Nat} (ho : off + 4 < 0x1000) (hc : counted p off) (hc' : counted p (off + 4)) (hevt : counted p 0x014)
    (n : Nat) (s : State) (h80 : off ≠ 0x080 ∧ off + 4 ≠ 0x080 := by omega) : Accounted s (incCnt64 p off n s) := by
  have hwr (v : Nat) : Accounted s (wr64 p off v s) := (Accounted.wr (by omega) hc _ s).trans (.wr ho hc' _ _)
  unfold Machine.incCnt64; dsimp only; split
  · exact (hwr _).trans (.raise (by decide) hevt ..)
  · exact hwr _

/-- An update of the regulator at this instant that keeps what was admitted before it, its tags and its requests. -/
theorem Accounted.regul {s : State} {g : RegulatorState} (hstart : now s / 1000 ≤ g.start / 1000) (hinstant : g.instant = s.tb.count)
    (hadm : g.admitted0 = (regulNow s).admitted0) (htot : g.total0 = (regulNow s).total0) (hcls : g.tagsClass = s.regul.tagsClass)
    (hctl : g.tagsCtl = s.regul.tagsCtl) (hwait : g.waiting = s.regul.waiting) : Accounted s { s with regul := g } := by
  have hnow : regulNow { s with regul := g } = g := regulNow_of_current (s := { s with regul := g }) hstart hinstant
  exact ⟨rfl, fun _ _ _ _ => rfl, List.prefix_rfl, by rw [hnow, hadm], by rw [hnow, htot], hcls, hctl, hwait, fun _ _ _ => rfl⟩

theorem openInstant_accounted (s : State) : Accounted s (openInstant s) := by
  obtain ⟨hcls, hctl, hwait⟩ := regulNow_tags s
  have hopen : Accounted s (modRegul (fun _ => regulNow s) s) :=
    .regul (regulNow_start s) (regulNow_instant s) rfl rfl hcls hctl hwait
  unfold openInstant; dsimp only; split
  · exact hopen
  · exact hopen.trans (.wr (by decide) (by unfold counted; omega) ..)

theorem openInstant_regul (s : State) : (openInstant s).regul = regulNow s ∧ (openInstant s).tb = s.tb := by
  unfold openInstant; dsimp only; split <;> exact ⟨rfl, rfl⟩

/-- Bytes of a class are counted once the regulator is at this instant. -/
theorem countClass_accounted {s : State} {c : Nat} (hc : c ≤ 8) (hnow : s.regul = regulNow s) (n : Nat) :
    Accounted s (countClass c n s) := by
  unfold countClass
  split
  · exact .refl s
  · have hreg (g : RegulatorState) (hstart : g.start = s.regul.start) (hinstant : g.instant = s.regul.instant)
        (hadm : g.admitted0 = s.regul.admitted0) (htot : g.total0 = s.regul.total0) (hcls : g.tagsClass = s.regul.tagsClass)
        (hctl : g.tagsCtl = s.regul.tagsCtl) (hwait : g.waiting = s.regul.waiting) : Accounted s { s with regul := g } :=
      .regul (by rw [hstart, hnow]; exact regulNow_start s) (by rw [hinstant, hnow]; exact regulNow_instant s)
        (by rw [hadm, ← hnow]) (by rw [htot, ← hnow]) hcls hctl hwait
    dsimp only; split
    · exact hreg _ rfl rfl rfl rfl rfl rfl rfl
    · refine Accounted.trans ?_ (.incCnt (off := 0x0C0 + 4 * c) (by omega) ?_ ?_ ..)
      · exact hreg _ rfl rfl rfl rfl rfl rfl rfl
      · unfold counted; omega
      · unfold counted; omega

theorem classOf_le (s : State) (src : ReqSource) : classOf s src ≤ 8 := by
  have hfield (w : Word) (hi lo : Nat) (h : hi + 1 - lo = 3) : fld w hi lo ≤ 8 := by
    unfold fld bitsOf
    rw [h]
    exact Nat.le_of_lt_succ (Nat.lt_of_lt_of_le (Nat.mod_lt _ (by decide)) (by decide))
  unfold classOf
  split
  case h_1 =>
    unfold classOf.streamClass; split
    · exact hfield _ _ _ rfl
    · exact hfield _ _ _ rfl
  case h_11 => exact Nat.le_refl 8
  all_goals exact hfield _ _ _ rfl

/-- An access is admitted: its bytes are counted in its class. -/
theorem useMem_accounted (src : ReqSource) (a n : Nat) (s : State) : Accounted s (useMem src a n s) := by
  unfold useMem; split
  · exact .refl s
  · have hnow : (openInstant s).regul = regulNow (openInstant s) := by
      obtain ⟨hregul, htb⟩ := openInstant_regul s
      rw [regulNow_of_current (s := openInstant s)]
      · rw [hregul]; unfold now; rw [htb]; exact regulNow_start s
      · rw [hregul, htb]; exact regulNow_instant s
    exact (openInstant_accounted s).trans (countClass_accounted (classOf_le s src) hnow n)

theorem useMem_data (src : ReqSource) (a n : Nat) (s : State) : DataStands s (useMem src a n s) := by
  have hopen : DataStands s (openInstant s) := by unfold openInstant; dsimp only; split <;> exact ⟨rfl, rfl⟩
  have hcount (c : Nat) (t : State) : DataStands t (countClass c n t) := by
    unfold countClass; split
    · exact ⟨rfl, rfl⟩
    · dsimp only; split
      · exact ⟨rfl, rfl⟩
      · exact ⟨incCnt_mem .., incCnt_marks ..⟩
  unfold useMem; split
  · exact ⟨rfl, rfl⟩
  · exact hopen.trans (hcount ..)

theorem controllerOf_lt (s : State) (a : Nat) : controllerOf s a < 12 := (mem_mapMembers.mp (controllerIn_mem _ a)).1

theorem countCtl_accounted {c : Nat} (hc : c < 12) (n : Nat) (s : State) : Accounted s (countCtl c n s) := by
  have hnoted (m : SMap Nat) : Accounted s { s with dram := { s.dram with lastReq := m } } :=
    ⟨rfl, fun _ _ _ _ => rfl, List.prefix_rfl, rfl, rfl, rfl, rfl, rfl, fun _ _ _ => rfl⟩
  have hpage (off : Nat) (h : off = 0x014 ∨ off = 0x0A0 ∨ off = 0x0A4) : counted (pgDMC c) off := by
    unfold counted pgDMC; omega
  unfold countCtl
  exact ((hnoted _).trans (.wake hc false _)).trans
    (.incCnt64 (by decide) (hpage _ (by decide)) (hpage _ (by decide)) (hpage _ (by decide)) ..)

theorem countCtl_data (c n : Nat) (s : State) : DataStands s (countCtl c n s) :=
  ⟨incCnt64_mem .., incCnt64_marks ..⟩

theorem countDram_accounted (a n : Nat) (s : State) : Accounted s (countDram a n s) := by
  unfold countDram; split
  · exact foldl_keeps (Accounted s) _ (fun t g ht => ht.trans (countCtl_accounted (controllerOf_lt t _) _ t)) _ (.refl s)
  · exact .refl s

theorem countDram_data (a n : Nat) (s : State) : DataStands s (countDram a n s) := by
  unfold countDram; split
  · exact foldl_keeps (DataStands s) _ (fun t g ht => ht.trans (countCtl_data _ _ t)) _ ⟨rfl, rfl⟩
  · exact ⟨rfl, rfl⟩

end Sys2Proof.Machine
end

section
/-!
PROOFS. What decides whether memory can be used (R140, R169, R175, R185 to R190), and that accesses of one instant leave it as it is.
-/
namespace Sys2Proof.Machine

theorem all_congr_mem {α : Type} {l : List α} {f g : α → Bool} (h : ∀ x ∈ l, f x = g x) : l.all f = l.all g := by
  rw [Bool.eq_iff_iff, List.all_eq_true, List.all_eq_true]
  exact forall₂_congr fun x hx => by rw [h x hx]

/-- Settings are honoured by the classes' values alone. -/
theorem honour_congr (limit : Nat) {want want' : Nat → Nat} : ∀ (l : List Nat) (used : Nat), (∀ c ∈ l, want c = want' c) →
    honour limit want l used = honour limit want' l used
  | [], _, _ => rfl
  | c :: l, used, h => by
    unfold honour
    rw [h c List.mem_cons_self, honour_congr limit l _ fun d hd => h d (List.mem_cons_of_mem _ hd)]

theorem classesDown_lt {c : Nat} (h : c ∈ classesDown) : c < 8 := by revert c; decide

theorem findSome?_congr_mem {α β : Type} {f g : α → Option β} : ∀ (l : List α), (∀ x ∈ l, f x = g x) → l.findSome? f = l.findSome? g
  | [], _ => rfl
  | x :: l, h => by
    rw [List.findSome?_cons, List.findSome?_cons, h x List.mem_cons_self,
      findSome?_congr_mem l fun y hy => h y (List.mem_cons_of_mem _ hy)]

/-- The pages whose registers decide how memory is used: the power page, the controllers, the regulator and the resident store. -/
def useReg (p off : Nat) : Prop := off < 0x1000 ∧ (p = pgPWR ∨ 0x010 ≤ p ∧ p ≤ pgRES) ∧ ¬counted p off

/-- Two states in which memory can be used alike. -/
structure SameUse (s t : State) : Prop where
  pd0 : t.pd0 = s.pd0
  tb : t.tb = s.tb
  regs : ∀ p off, useReg p off → rd t p off = rd s p off
  init : t.dram.initRegion = s.dram.initRegion
  admitted : (regulNow t).admitted0 = (regulNow s).admitted0
  total : (regulNow t).total0 = (regulNow s).total0
  tagsClass : t.regul.tagsClass = s.regul.tagsClass
  tagsCtl : t.regul.tagsCtl = s.regul.tagsCtl
  waiting : t.regul.waiting = s.regul.waiting

theorem Accounted.sameUse {s t : State} (h : Accounted s t) : SameUse s t where
  pd0 := h.field State.pd0
  tb := h.field State.tb
  regs p off hp := h.regs p off hp.1 hp.2.2
  init := (congrArg (fun x : State => x.dram.initRegion) h.fields).trans rfl
  admitted := h.admitted
  total := h.total
  tagsClass := h.tagsClass
  tagsCtl := h.tagsCtl
  waiting := h.waiting

namespace SameUse

variable {s t u : State}

theorem refl (s : State) : SameUse s s := (Accounted.refl s).sameUse

theorem trans (h : SameUse s t) (g : SameUse t u) : SameUse s u where
  pd0 := g.pd0.trans h.pd0
  tb := g.tb.trans h.tb
  regs p off hp := (g.regs p off hp).trans (h.regs p off hp)
  init := g.init.trans h.init
  admitted := g.admitted.trans h.admitted
  total := g.total.trans h.total
  tagsClass := g.tagsClass.trans h.tagsClass
  tagsCtl := g.tagsCtl.trans h.tagsCtl
  waiting := g.waiting.trans h.waiting

/-- A register of a page that decides the use of memory, at an offset that is not counted in. -/
theorem setting (h : SameUse s t) {off : Nat} (hlo : 0x080 ≤ off) (hhi : off < 0x0B0) : rd t pgMREG off = rd s pgMREG off :=
  h.regs _ _ ⟨by omega, .inr ⟨by decide, by decide⟩, not_counted_setting hlo hhi⟩

theorem ctlReg (h : SameUse s t) {c off : Nat} (hc : c < 12) (ho : off < 0x1000)
    
    (hne : ¬(off = 0x014 ∨ off = 0x020 ∨ off = 0x024 ∨ off = 0x080 ∨ 0x088 ≤ off ∧ off ≤ 0x098 ∨ off = 0x0A0 ∨ off = 0x0A4)) : rd t (pgDMC c) off = rd s (pgDMC c) off := by
  refine h.regs _ _ ⟨ho, .inr ?_, ?_⟩ <;> unfold pgDMC
  · unfold pgRES; omega
  · unfold counted pgMREG pgRES; omega

theorem resReg (h : SameUse s t) {off : Nat} (ho : off < 0x1000)
    (hne : ¬(off = 0x014 ∨ off = 0x020 ∨ off = 0x024 ∨ 0x08C ≤ off ∧ off ≤ 0x098)) : rd t pgRES off = rd s pgRES off :=
  h.regs _ _ ⟨ho, .inr ⟨by decide, by decide⟩, by unfold counted pgRES pgMREG; omega⟩

/-- An update of registers and fields that decide nothing about memory. -/
theorem of_regs (hpd0 : t.pd0 = s.pd0) (htb : t.tb = s.tb) (hinit : t.dram.initRegion = s.dram.initRegion) (hregul : t.regul = s.regul)
    (hr : ∀ p off, useReg p off → rd t p off = rd s p off) : SameUse s t := by
  have hnow : regulNow t = regulNow s := regulNow_congr htb hregul
    (budgetOf_congr (hr _ _ ⟨by decide, .inr ⟨by decide, by decide⟩, not_counted_setting (by decide) (by decide)⟩))
    fun c hc => capOf_congr (hr _ _ ⟨by omega, .inr ⟨by decide, by decide⟩, not_counted_setting (by omega) (by omega)⟩)
  exact ⟨hpd0, htb, hr, hinit, by rw [hnow], by rw [hnow], by rw [hregul], by rw [hregul], by rw [hregul]⟩

theorem domOn (h : SameUse s t) (d : Nat) : Machine.domOn t d = Machine.domOn s d :=
  domOn_congr h.pd0 (h.regs _ _ ⟨by decide, .inl rfl, by unfold counted pgPWR pgMREG pgRES; omega⟩) d

theorem pageOn (h : SameUse s t) (p : Nat) : Machine.pageOn t p = Machine.pageOn s p := by
  unfold Machine.pageOn; rw [h.domOn]

theorem eccOn (h : SameUse s t) (a : Nat) : Machine.eccOn t a = Machine.eccOn s a :=
  rdB_congr (h.ctlReg (by decide) (by decide) (by decide)) _

theorem spaceOf (h : SameUse s t) (a : Nat) : Machine.spaceOf t a = Machine.spaceOf s a := by
  unfold Machine.spaceOf; rw [h.eccOn]

theorem isData (h : SameUse s t) (a n : Nat) : Machine.isData t a n = Machine.isData s a n := by
  unfold Machine.isData; simp only [h.spaceOf, h.eccOn]

theorem mapInForce (h : SameUse s t) : Machine.mapInForce t = Machine.mapInForce s :=
  rdF_congr (h.ctlReg (by decide) (by decide) (by decide)) 3 0

theorem ready_ctl (h : SameUse s t) {c : Nat} (hc : c < 12) : ready t (pgDMC c) = ready s (pgDMC c) := by
  unfold ready; rw [h.pageOn, rdB_congr (h.ctlReg hc (by decide) (by decide))]

theorem ready_res (h : SameUse s t) : ready t pgRES = ready s pgRES := by
  unfold ready; rw [h.pageOn, rdB_congr (h.resReg (by decide) (by decide))]

theorem dramReady (h : SameUse s t) : Machine.dramReady t = Machine.dramReady s := by
  have hall : (mapMembers (Machine.mapInForce s)).all (fun c => ready t (pgDMC c)) =
      (mapMembers (Machine.mapInForce s)).all (fun c => ready s (pgDMC c)) :=
    all_congr_mem fun c hc => h.ready_ctl (mem_mapMembers.mp hc).1
  unfold Machine.dramReady
  rw [h.domOn, h.mapInForce, hall, rdB_congr (h.ctlReg (by decide) (by decide) (by decide))]

theorem memUsable (h : SameUse s t) (a n : Nat) : Machine.memUsable t a n = Machine.memUsable s a n := by
  have hbusy (a : Nat) : regionBusy t a = regionBusy s a := by unfold regionBusy; rw [h.init]
  unfold Machine.memUsable; rw [h.spaceOf, h.isData, h.dramReady, hbusy, hbusy, h.ready_res]

theorem codedWords (h : SameUse s t) (a n : Nat) : Machine.codedWords t a n = Machine.codedWords s a n := by
  have hecc : Machine.eccOn t = Machine.eccOn s := funext h.eccOn
  unfold Machine.codedWords; rw [hecc]

theorem bankBad (h : SameUse s t) (a : Nat) : Machine.bankBad t a = Machine.bankBad s a := by
  unfold Machine.bankBad; rw [rd64_congr (h.resReg (by decide) (by decide)) (h.resReg (by decide) (by decide))]

theorem controllerOf (h : SameUse s t) (a : Nat) : Machine.controllerOf t a = Machine.controllerOf s a := by
  unfold Machine.controllerOf; rw [h.mapInForce]

/-! The regulator's choice. -/

theorem guarOf (h : SameUse s t) {c : Nat} (hc : c < 8) : Machine.guarOf t c = Machine.guarOf s c :=
  guarOf_congr (h.setting (by omega) (by omega))

theorem capOf (h : SameUse s t) {c : Nat} (hc : c < 8) : Machine.capOf t c = Machine.capOf s c :=
  capOf_congr (h.setting (by omega) (by omega))

theorem budgetOf (h : SameUse s t) : Machine.budgetOf t = Machine.budgetOf s := budgetOf_congr (h.setting (by decide) (by decide))

theorem effReserve (h : SameUse s t) : Machine.effReserve t = Machine.effReserve s := by
  unfold Machine.effReserve
  rw [show (fun c => 64 * tagMin t c) = fun c => 64 * tagMin s c from
    funext fun c => congrArg (64 * ·) (tagMin_congr (h.setting (by decide) (by decide)) c)]

theorem effGuar (h : SameUse s t) : Machine.effGuar t = Machine.effGuar s := by
  unfold Machine.effGuar
  rw [h.budgetOf, honour_congr _ classesDown 0 fun c hc => h.guarOf (classesDown_lt hc)]

theorem heldBy (h : SameUse s t) : Machine.heldBy t = Machine.heldBy s := by
  funext c; unfold Machine.heldBy; rw [h.tagsClass]

theorem tagFree (h : SameUse s t) : Machine.tagFree t = Machine.tagFree s := by
  funext r; unfold Machine.tagFree; rw [h.effReserve, h.heldBy, h.tagsCtl]

theorem firstOf (h : SameUse s t) : Machine.firstOf t = Machine.firstOf s := by
  funext c; unfold Machine.firstOf; rw [h.waiting, h.tagFree]

theorem underGuar (h : SameUse s t) : Machine.underGuar t = Machine.underGuar s := by
  funext c; unfold Machine.underGuar admittedBy; rw [h.admitted, h.effGuar]

theorem underCap (h : SameUse s t) {c : Nat} (hc : c < 8) : Machine.underCap t c = Machine.underCap s c := by
  unfold Machine.underCap admittedBy totalBy; rw [h.admitted, h.total, h.budgetOf, h.capOf hc]

theorem pickRequest (h : SameUse s t) : Machine.pickRequest t = Machine.pickRequest s := by
  have hcap : classesDown.findSome? (fun c => if Machine.underCap t c then Machine.firstOf t c else none) =
      classesDown.findSome? (fun c => if Machine.underCap s c then Machine.firstOf s c else none) :=
    findSome?_congr_mem _ fun c hc => by rw [h.underCap (classesDown_lt hc), h.firstOf]
  unfold Machine.pickRequest; rw [hcap, h.firstOf, h.underGuar]

/-- One more waiting request is the same request in both. -/
theorem withWaiting (h : SameUse s t) (r : DramReq) : SameUse (modRegul (fun g => { g with waiting := g.waiting ++ [r] }) s)
    (modRegul (fun g => { g with waiting := g.waiting ++ [r] }) t) := by
  have hadd (x : State) (l : List DramReq) : (regulNow { x with regul := { x.regul with waiting := l } }).admitted0 = (regulNow x).admitted0 ∧
      (regulNow { x with regul := { x.regul with waiting := l } }).total0 = (regulNow x).total0 := by
    have hinterval : ∃ r, regulInterval x = r ∧ regulInterval { x with regul := { x.regul with waiting := l } } = { r with waiting := l } := by
      refine ⟨_, rfl, ?_⟩
      unfold regulInterval; dsimp only
      by_cases hm : now x / 1000 - x.regul.start / 1000 = 0
      · rw [if_pos hm]; exact if_pos hm
      · rw [if_neg hm]; exact if_neg hm
    obtain ⟨r, hr, hr'⟩ := hinterval
    unfold regulNow; rw [hr, hr']; dsimp only
    by_cases hi : r.instant = x.tb.count
    · rw [if_pos hi, if_pos hi]; exact ⟨rfl, rfl⟩
    · rw [if_neg hi, if_neg hi]; exact ⟨rfl, rfl⟩
  refine ⟨h.pd0, h.tb, h.regs, h.init, ?_, ?_, h.tagsClass, h.tagsCtl, congrArg (· ++ [r]) h.waiting⟩
  · exact (hadd t _).1.trans (h.admitted.trans (hadd s _).1.symm)
  · exact (hadd t _).2.trans (h.total.trans (hadd s _).2.symm)

theorem classAdmits (h : SameUse s t) {c : Nat} (hc : c ≤ 8) : Machine.classAdmits t c = Machine.classAdmits s c := by
  unfold Machine.classAdmits
  by_cases h8 : c = 8
  · simp [h8]
  · rw [h.waiting, h.underCap (by omega), h.underGuar, (h.withWaiting _).pickRequest]

theorem admits (h : SameUse s t) {c : Nat} (hc : c ≤ 8) (a n : Nat) : Machine.admits t c a n = Machine.admits s c a n := by
  have hctl : Machine.controllerOf t = Machine.controllerOf s := funext h.controllerOf
  unfold Machine.admits controllersOf; rw [h.tagsClass, hctl, h.tagFree, h.classAdmits hc]

/-- A source of the same class can use the same memory. -/
theorem canUse (h : SameUse s t) {src : ReqSource} (hc : classOf t src = classOf s src) (a n : Nat) :
    Machine.canUse t src a n = Machine.canUse s src a n := by
  unfold Machine.canUse; rw [h.memUsable, hc, h.admits (classOf_le s src)]

end SameUse

/-! ### Classes -/

/-- The sources whose class no job decides. -/
def fixedSource : ReqSource → Bool
  | .stream _ => false
  | _ => true

theorem SameUse.classOf {s t : State} (h : SameUse s t) {src : ReqSource} (hsrc : fixedSource src = true) :
    Machine.classOf t src = Machine.classOf s src := by
  have hm (i : Nat) : rdF t pgMREG 0x0A8 (3 * i + 2) (3 * i) = rdF s pgMREG 0x0A8 (3 * i + 2) (3 * i) :=
    rdF_congr (h.setting (by decide) (by decide)) _ _
  unfold Machine.classOf
  cases src with
  | stream u => cases hsrc
  | record => rfl
  | _ => exact hm _

/-- Counting decides no class. -/
theorem Accounted.classOf {s t : State} (h : Accounted s t) (src : ReqSource) : Machine.classOf t src = Machine.classOf s src := by
  cases hsrc : fixedSource src with
  | true => exact h.sameUse.classOf hsrc
  | false =>
    cases src with
    | stream u =>
      have hcfg : rdF t (pgSTRM u.val) 0x084 2 0 = rdF s (pgSTRM u.val) 0x084 2 0 :=
        rdF_congr (h.regs _ _ (by decide) (by unfold counted pgSTRM pgMREG pgRES; omega)) 2 0
      change Machine.classOf.streamClass t u.val = Machine.classOf.streamClass s u.val
      unfold Machine.classOf.streamClass pageJobs
      rw [h.field State.strm, h.field State.jobs, hcfg]
    | _ => cases hsrc

theorem Accounted.canUse {s t : State} (h : Accounted s t) (src : ReqSource) (a n : Nat) : canUse t src a n = canUse s src a n :=
  h.sameUse.canUse (h.classOf src) a n

end Sys2Proof.Machine
end

section
/-!
PROOFS. Good words (R193 to R199): a read of them returns their bytes, a write of them stores its bytes, and neither changes the mark
of a word.
-/
namespace Sys2Proof.Machine

/-- Every word that these bytes touch under a code is good, and its bank too. -/
abbrev GoodWords (s : State) (a n : Nat) : Prop := ∀ w ∈ codedWords s a n, markOf s w = .good ∧ bankBad s w = false

/-- The mark of every word stands. -/
def MarksStand (s t : State) : Prop := ∀ w, markOf t w = markOf s w

theorem DataStands.marksStand {s t : State} (h : DataStands s t) : MarksStand s t := fun w => by unfold markOf; rw [h.1, h.2]

theorem DataStands.memStands {s t : State} (h : DataStands s t) : MemStands s t := memStands_of_mem h.1

/-! ### Reads -/

theorem readWords_good : ∀ {l : List Nat} {s : State}, (∀ w ∈ l, markOf s w = .good ∧ bankBad s w = false) → readWords l s = (none, s)
  | [], _, _ => rfl
  | w :: l, s, h => by
    obtain ⟨hmark, hbank⟩ := h w List.mem_cons_self
    have hword : readWord w s = (false, s) := by unfold readWord; rw [hbank, hmark]; rfl
    unfold readWords
    rw [hword]
    dsimp only
    rw [readWords_good fun v hv => h v (List.mem_cons_of_mem _ hv)]
    rfl

theorem getBytes_congr {s t : State} (h : MemStands s t) (a n : Nat) : getBytes t a n = getBytes s a n :=
  List.map_congr_left fun i _ => h (a + i)

/-- An access that counts, where the words are good before, finds them good. -/
theorem GoodWords.of_accounted {s t : State} {a n : Nat} (h : GoodWords s a n) (hacc : Accounted s t) (hmarks : MarksStand s t) :
    GoodWords t a n := fun w hw => by
  rw [hacc.sameUse.codedWords] at hw
  rw [hmarks, hacc.sameUse.bankBad]
  exact h w hw

/-- A read of good words. -/
theorem readMem_good {a n : Nat} {s : State} (h : GoodWords s a n) : readMem a n s = (getBytes s a n, none, countDram a n s) := by
  have hcount := countDram_accounted a n s
  have hdata := countDram_data a n s
  have hgood : ∀ w ∈ codedWords s a n, markOf (countDram a n s) w = .good ∧ bankBad (countDram a n s) w = false := fun w hw => by
    rw [hdata.marksStand, hcount.sameUse.bankBad]; exact h w hw
  unfold readMem
  dsimp only
  rw [readWords_good hgood, getBytes_congr hdata.memStands]

/-- What a source's read of good words does: it is counted, and nothing else shows. -/
theorem readAs_good {src : ReqSource} {a n : Nat} {s : State} (h : GoodWords s a n) :
    ∃ t, readAs src a n s = (getBytes s a n, none, t) ∧ Accounted s t ∧ DataStands s t := by
  have huse := useMem_accounted src a n s
  have hdata := useMem_data src a n s
  refine ⟨_, ?_, huse.trans (countDram_accounted a n _), hdata.trans (countDram_data a n _)⟩
  unfold readAs
  rw [readMem_good (h.of_accounted huse hdata.marksStand), getBytes_congr hdata.memStands]

/-! ### Writes -/

/-- Memory after bytes are written at `a`: an enabled byte reads as written, the others as before. -/
def overlay (a : Nat) (bs : List (Option Byte)) (old : Nat → Byte) (x : Nat) : Byte :=
  if a ≤ x then ((bs[x - a]?).getD none).getD (old x) else old x

theorem getByte_setEnabled (a : Nat) (bs : List (Option Byte)) (s : State) (x : Nat) :
    getByte (setEnabled a bs s) x = overlay a bs (getByte s) x := by
  unfold overlay
  by_cases h : a ≤ x ∧ x < a + bs.length
  · have hi : x - a < bs.length := by omega
    have hin := getByte_setEnabled_in bs a (x - a) s hi
    rw [show a + (x - a) = x by omega] at hin
    rw [hin, if_pos h.1, List.getElem?_eq_getElem hi]
    rfl
  · rw [getByte_setEnabled_out bs a x s h]
    split
    · rw [List.getElem?_eq_none (by omega)]; rfl
    · rfl

theorem overlay_out {a : Nat} {bs : List (Option Byte)} {x : Nat} (h : ¬(a ≤ x ∧ x < a + bs.length)) (old : Nat → Byte) :
    overlay a bs old x = old x := by
  unfold overlay; split
  · rw [List.getElem?_eq_none (by omega)]; rfl
  · rfl

theorem overlay_in {a i : Nat} {bs : List (Option Byte)} (h : i < bs.length) (old : Nat → Byte) :
    overlay a bs old (a + i) = (bs[i]).getD (old (a + i)) := by
  unfold overlay
  rw [if_pos (Nat.le_add_right a i), Nat.add_sub_cancel_left, List.getElem?_eq_getElem h]; rfl

theorem overlay_eq_of {a x : Nat} {bs : List (Option Byte)} {f g : Nat → Byte} (h : f x = g x) : overlay a bs f x = overlay a bs g x := by
  unfold overlay; rw [h]

/-- A byte that was written already reads the same when it is written again. -/
theorem overlay_again {a x : Nat} {bs : List (Option Byte)} {f g : Nat → Byte} (h : f x = overlay a bs g x) :
    overlay a bs f x = overlay a bs g x := by
  unfold overlay at h ⊢; rw [h]
  split
  · cases (bs[x - a]?).getD none <;> rfl
  · rfl

/-- What a write of good words leaves of a state: it is as it was, accounts, memory and the listing of marks apart. -/
structure Stores (s t : State) : Prop where
  accounted : Accounted s t
  marks : MarksStand s t

theorem Stores.trans {s t u : State} (h : Stores s t) (g : Stores t u) : Stores s u :=
  ⟨h.accounted.trans g.accounted, fun w => (g.marks w).trans (h.marks w)⟩

theorem Accounted.of_data {s t : State} (h : t = { s with mem := t.mem, marks := t.marks }) : Accounted s t := by
  have hregs : t.regs = s.regs := (congrArg State.regs h).trans rfl
  have hnow : regulNow t = regulNow s := (congrArg regulNow h).trans rfl
  have hregul : t.regul = s.regul := (congrArg State.regul h).trans rfl
  refine ⟨?_, fun p off _ _ => rd_of_regs hregs p off, ?_, by rw [hnow], by rw [hnow], by rw [hregul], by rw [hregul], by rw [hregul],
    fun p i _ => rdB_congr (rd_of_regs hregs p _) i⟩
  · rw [h]
  · have hout : t.outbox = s.outbox := (congrArg State.outbox h).trans rfl
    exact hout ▸ List.prefix_rfl

theorem setEnabled_eq : ∀ (a : Nat) (bs : List (Option Byte)) (s : State),
    setEnabled a bs s = { s with mem := ⟨(setEnabled a bs s).mem.cells, s.mem.fills⟩ }
  | _, [], _ => rfl
  | a, some b :: l, s => by
    have h := setEnabled_eq (a + 1) l (setByte a b s)
    exact h
  | a, none :: l, s => setEnabled_eq (a + 1) l s

theorem setEnabled_stores (a : Nat) (bs : List (Option Byte)) (s : State) : Stores s (setEnabled a bs s) := by
  have h := setEnabled_eq a bs s
  refine ⟨.of_data ?_, fun w => ?_⟩
  · rw [h]
  · rw [h]; rfl

theorem markOf_setMark_good {s : State} {w : Nat} (h : markOf s w = .good) : MarksStand s (setMark w .good s) := fun v => by
  have hknown : ∀ x, knownMark s.mem w = some x → unlistedMark s.mem w = x := by
    unfold knownMark unlistedMark
    intro x hx
    split at hx
    · rename_i hw; rw [if_pos hw]
      split at hx
      · cases hx
      · have : x = .good := (Option.some.inj hx).symm
        subst this
        split <;> simp_all
    · rename_i hw; rw [if_neg hw]; exact Option.some.inj hx
  by_cases hv : v = w
  · subst hv
    exact (SMap.get_putKnown _ _ hknown v .good s.marks).trans h.symm
  · exact SMap.get_putKnown_ne _ _ hv _ s.marks

/-- A good word takes the bytes of a write. -/
theorem prepWord_good {w : Nat} {c : List (Option Byte)} {s : State} (hmark : markOf s w = .good) (hbank : bankBad s w = false) :
    (prepWord w c s).1 = true ∧ Stores s (prepWord w c s).2 ∧ MemStands s (prepWord w c s).2 := by
  have hstay : Stores s s := ⟨.refl s, fun _ => rfl⟩
  unfold prepWord; dsimp only; rw [hbank, hmark]
  split
  · exact ⟨rfl, hstay, .refl s⟩
  · split
    · contradiction
    · split
      · exact ⟨rfl, ⟨.of_data rfl, markOf_setMark_good hmark⟩, fun _ => rfl⟩
      · exact ⟨rfl, hstay, .refl s⟩

/-- The byte of a write at `a` that falls in the word of size `z` at `w`. -/
theorem overlay_slice (a : Nat) (bs : List (Option Byte)) (w z : Nat) (old : Nat → Byte) (x : Nat) :
    overlay (slice a bs w z).1 (slice a bs w z).2 old x = if w ≤ x ∧ x < w + z then overlay a bs old x else old x := by
  unfold slice; dsimp only
  by_cases hx : max a w ≤ x
  · unfold overlay
    rw [if_pos hx, if_pos (by omega : a ≤ x), List.getElem?_take, List.getElem?_drop]
    by_cases hz : x < w + z
    · rw [if_pos (by omega), if_pos (by omega), show max a w - a + (x - max a w) = x - a by omega]
    · rw [if_neg (by omega), if_neg (by omega)]; rfl
  · unfold overlay
    rw [if_neg hx]
    by_cases hw : w ≤ x
    · rw [if_neg (by omega : ¬a ≤ x)]; split <;> rfl
    · rw [if_neg (by omega)]

/-- Writing good words stores the bytes that fall in them, in whatever order. -/
theorem writeWords_good (job : Bool) (a : Nat) (bs : List (Option Byte)) : ∀ {l : List Nat} {s : State},
    (∀ w ∈ l, markOf s w = .good ∧ bankBad s w = false) →
    (writeWords job a bs l s).1 = none ∧ Stores s (writeWords job a bs l s).2 ∧
      ∀ x, getByte (writeWords job a bs l s).2 x =
        if ∃ w ∈ l, w ≤ x ∧ x < w + wordSize w then overlay a bs (getByte s) x else getByte s x
  | [], s, _ => ⟨rfl, ⟨.refl s, fun _ => rfl⟩, fun x => by rw [if_neg (by simp)]; rfl⟩
  | w :: l, s, h => by
    obtain ⟨hmark, hbank⟩ := h w List.mem_cons_self
    obtain ⟨hok, hprep, hmem⟩ := prepWord_good (c := (slice a bs w (wordSize w)).2) hmark hbank
    have hput := hprep.trans (setEnabled_stores (slice a bs w (wordSize w)).1 (slice a bs w (wordSize w)).2 _)
    obtain ⟨hnone, hrest, hbytes⟩ := writeWords_good job a bs (l := l) fun v hv => by
      rw [hput.marks, hput.accounted.sameUse.bankBad]; exact h v (List.mem_cons_of_mem _ hv)
    unfold writeWords; dsimp only; rw [if_pos hok]
    refine ⟨hnone, hput.trans hrest, fun x => ?_⟩
    rw [hbytes x]
    have hone : getByte (setEnabled (slice a bs w (wordSize w)).1 (slice a bs w (wordSize w)).2
        (prepWord w (slice a bs w (wordSize w)).2 s).2) x = if w ≤ x ∧ x < w + wordSize w then overlay a bs (getByte s) x else getByte s x := by
      rw [getByte_setEnabled, overlay_slice, overlay_eq_of (hmem x), hmem x]
    by_cases hw : w ≤ x ∧ x < w + wordSize w
    · rw [if_pos hw] at hone
      rw [if_pos (c := ∃ v ∈ w :: l, v ≤ x ∧ x < v + wordSize v) ⟨w, List.mem_cons_self, hw⟩, overlay_again hone, hone, ite_self]
    · rw [if_neg hw] at hone
      rw [overlay_eq_of hone, hone]
      refine ite_congr (propext ⟨fun ⟨v, hv, hx⟩ => ⟨v, List.mem_cons_of_mem _ hv, hx⟩, fun ⟨v, hv, hx⟩ => ?_⟩) (fun _ => rfl) fun _ => rfl
      rcases List.mem_cons.mp hv with rfl | hv
      · exact absurd hx hw
      · exact ⟨v, hv, hx⟩

/-! ### The words that data touches -/

theorem wordSize_pos (a : Nat) : 0 < wordSize a := by unfold wordSize; split <;> omega

/-- The data of one range lies in one space, and only its last DRAM region may have codes. -/
theorem isData_iff {s : State} {a n : Nat} (h : isData s a n = true) :
    (a < 0x1000000000 ∧ a + (n - 1) < 0x1000000000 ∧
        ∀ i, i < (a + (n - 1)) / 2 ^ 31 - a / 2 ^ 31 → eccOn s ((a / 2 ^ 31 + i) * 2 ^ 31) = false) ∨
      (residentBase ≤ a ∧ a + (n - 1) < flagBase) := by
  have hres : ∀ {x}, spaceOf s x = .resident → residentBase ≤ x ∧ x < flagBase := by
    intro x hx
    unfold spaceOf at hx
    split at hx
    · split at hx <;> cases hx
    · split at hx
      · cases hx
      · split at hx
        · omega
        · (repeat' split at hx) <;> cases hx
  have hdram : ∀ {x}, spaceOf s x = .dram → x < 0x1000000000 := by
    intro x hx
    unfold spaceOf at hx
    split at hx
    · assumption
    · (repeat' split at hx) <;> cases hx
  unfold isData at h; dsimp only at h
  split at h
  · rename_i ha he; exact .inr ⟨(hres ha).1, (hres he).2⟩
  · rename_i ha he
    refine .inl ⟨hdram ha, hdram he, fun i hi => ?_⟩
    have := List.all_eq_true.mp h i (List.mem_range.mpr hi)
    exact Bool.not_eq_true' _ |>.mp this
  · cases h

theorem mem_codedWords {s : State} {a n w : Nat} : w ∈ codedWords s a n ↔
    (∃ i, a / wordSize a ≤ i ∧ (n ≠ 0 ∧ i ≤ (a + (n - 1)) / wordSize a) ∧ w = i * wordSize a) ∧ (a < 0x1000000000 → eccOn s w = true) := by
  have hwords : w ∈ (List.range (if n = 0 then 0 else (a + (n - 1)) / wordSize a + 1 - a / wordSize a)).map
      (fun i => (a / wordSize a + i) * wordSize a) ↔
      ∃ i, a / wordSize a ≤ i ∧ (n ≠ 0 ∧ i ≤ (a + (n - 1)) / wordSize a) ∧ w = i * wordSize a := by
    constructor
    · intro h
      obtain ⟨i, hi, rfl⟩ := List.mem_map.mp h
      have hi := List.mem_range.mp hi
      by_cases hn : n = 0
      · rw [if_pos hn] at hi; omega
      · rw [if_neg hn] at hi; exact ⟨a / wordSize a + i, by omega, ⟨hn, by omega⟩, rfl⟩
    · rintro ⟨i, hlo, ⟨hn, hhi⟩, rfl⟩
      refine List.mem_map.mpr ⟨i - a / wordSize a, List.mem_range.mpr ?_, ?_⟩
      · rw [if_neg hn]; omega
      · rw [Nat.add_sub_cancel' hlo]
  unfold codedWords; dsimp only
  split
  · rename_i ha; rw [List.mem_filter, hwords]; simp [ha]
  · rename_i ha; rw [hwords]; simp [ha]

/-- The word that holds a byte of a range is one of its coded words, where it is under a code. -/
theorem coded_of_ecc {s : State} {a n x z : Nat} (hlo : a ≤ x) (hhi : x < a + n) (hz : wordSize a = z) (hw : wordSize (x / z * z) = z)
    (hpos : 0 < z) (h : a < 0x1000000000 → eccOn s (x / z * z) = true) : ∃ w ∈ codedWords s a n, w ≤ x ∧ x < w + wordSize w := by
  subst hz
  refine ⟨x / wordSize a * wordSize a, mem_codedWords.mpr ⟨⟨x / wordSize a, Nat.div_le_div_right hlo, ⟨by omega, ?_⟩, rfl⟩, h⟩,
    Nat.div_mul_le_self x _, ?_⟩
  · exact Nat.div_le_div_right (by omega)
  · rw [hw]; exact Nat.lt_div_mul_add hpos

/-- A byte of data at or past the first word under a code is in such a word. -/
theorem coded_of_ge {s : State} {a n x w₀ : Nat} (hdata : isData s a n = true) (hlo : a ≤ x) (hhi : x < a + n)
    (hw₀ : w₀ ∈ codedWords s a n) (hge : w₀ ≤ x) : ∃ w ∈ codedWords s a n, w ≤ x ∧ x < w + wordSize w := by
  rcases isData_iff hdata with ⟨ha, he, hecc⟩ | ⟨ha, he⟩
  · obtain ⟨⟨i, hai, ⟨hn, hi⟩, hw⟩, hcode⟩ := mem_codedWords.mp hw₀
    rw [show wordSize a = 32 from if_pos ha] at hai hi hw
    refine coded_of_ecc hlo hhi (if_pos ha) (if_pos (by omega)) (by decide) fun _ => ?_
    have hcode : eccOn s w₀ = true := hcode ha
    have hlast : w₀ / 2 ^ 31 = x / 32 * 32 / 2 ^ 31 := by
      refine Classical.byContradiction fun hne => ?_
      have hbit : eccOn s (w₀ / 2 ^ 31 * 2 ^ 31) = false := by
        have := hecc (w₀ / 2 ^ 31 - a / 2 ^ 31) (by omega)
        rwa [Nat.add_sub_cancel' (by omega)] at this
      unfold eccOn at hbit hcode
      rw [Nat.mul_div_cancel _ (by decide : 0 < 2 ^ 31), hcode] at hbit
      cases hbit
    unfold eccOn at hcode ⊢
    rw [← hlast]; exact hcode
  · unfold residentBase at ha
    exact coded_of_ecc (z := 8) hlo hhi (if_neg (by omega)) (if_neg (by omega)) (by decide) fun h => absurd h (by omega)

/-- Every coded word of a range reaches into it. -/
theorem coded_meets {s : State} {a n w : Nat} (h : w ∈ codedWords s a n) : n ≠ 0 ∧ w ≤ a + (n - 1) := by
  obtain ⟨⟨i, _, ⟨hn, hi⟩, rfl⟩, _⟩ := mem_codedWords.mp h
  exact ⟨hn, Nat.le_trans (Nat.mul_le_mul_right _ hi) (Nat.div_mul_le_self _ _)⟩

/-! ### Writes of data -/

theorem overlay_take (a k : Nat) (bs : List (Option Byte)) (old : Nat → Byte) (x : Nat) :
    overlay a (bs.take k) old x = if x < a + k then overlay a bs old x else old x := by
  unfold overlay
  by_cases hx : a ≤ x
  · rw [if_pos hx, if_pos hx, List.getElem?_take]
    by_cases hk : x < a + k
    · rw [if_pos (by omega), if_pos hk]
    · rw [if_neg (by omega), if_neg hk]; rfl
  · rw [if_neg hx, if_neg hx, ite_self]

/-- A write of data whose coded words are good stores its bytes. -/
theorem writeEnabled_good {job : Bool} {a : Nat} {bs : List (Option Byte)} {s : State} (hdata : isData s a bs.length = true)
    (h : GoodWords s a bs.length) :
    (writeEnabled job a bs s).1 = none ∧ Stores s (writeEnabled job a bs s).2 ∧
      ∀ x, getByte (writeEnabled job a bs s).2 x = overlay a bs (getByte s) x := by
  have hcount : Stores s (countDram a bs.length s) := ⟨countDram_accounted a bs.length s, (countDram_data a bs.length s).marksStand⟩
  have hmem := (countDram_data a bs.length s).memStands
  have hcodes := hcount.accounted.sameUse.codedWords a bs.length
  unfold writeEnabled; dsimp only; rw [hcodes]
  split
  · exact ⟨rfl, hcount.trans (setEnabled_stores ..), fun x => by rw [getByte_setEnabled, overlay_eq_of (hmem x)]⟩
  · rename_i w₀ ws hws
    have hput := hcount.trans (setEnabled_stores a (bs.take (w₀ - a)) (countDram a bs.length s))
    obtain ⟨hnone, hrest, hbytes⟩ := writeWords_good job a bs (l := w₀ :: ws)
      (s := setEnabled a (bs.take (w₀ - a)) (countDram a bs.length s)) fun w hw => by
        rw [hput.marks, hput.accounted.sameUse.bankBad]; exact h w (hws ▸ hw)
    refine ⟨hnone, hput.trans hrest, fun x => ?_⟩
    have hhead : getByte (setEnabled a (bs.take (w₀ - a)) (countDram a bs.length s)) x =
        if x < a + (w₀ - a) then overlay a bs (getByte s) x else getByte s x := by
      rw [getByte_setEnabled, overlay_take, overlay_eq_of (hmem x), hmem x]
    rw [hbytes x, ← hws]
    by_cases hx : x < a + (w₀ - a)
    · rw [if_pos hx] at hhead
      rw [overlay_again hhead, hhead, ite_self]
    · rw [if_neg hx] at hhead
      rw [overlay_eq_of hhead, hhead]
      split
      · rfl
      · rename_i hnot
        refine (overlay_out (fun hin => hnot ?_) _).symm
        exact coded_of_ge hdata hin.1 hin.2 (hws ▸ List.mem_cons_self) (by omega)

theorem isData_of_memUsable {s : State} {a n : Nat} (h : memUsable s a n = true) : isData s a n = true := by
  unfold memUsable at h
  split at h
  · simp only [Bool.and_eq_true] at h; exact h.1.1.1
  · simp only [Bool.and_eq_true] at h; exact h.1
  · cases h

theorem memUsable_of_canUse {s : State} {src : ReqSource} {a n : Nat} (h : canUse s src a n = true) : memUsable s a n = true := by
  unfold canUse at h; exact (Bool.and_eq_true _ _ |>.mp h).1

/-- All bytes of a write enabled. -/
theorem overlay_some_in {a i : Nat} {bs : List Byte} (h : i < bs.length) (old : Nat → Byte) :
    overlay a (bs.map some) old (a + i) = bs[i] := by
  rw [overlay_in (by rwa [List.length_map])]; simp

/-- A write of data left a state as it was, accounts apart, and its bytes in memory. -/
structure Wrote (a : Nat) (bs : List Byte) (s t : State) : Prop where
  stores : Stores s t
  bytes : ∀ x, getByte t x = overlay a (bs.map some) (getByte s) x

namespace Wrote

variable {a : Nat} {bs : List Byte} {s t : State}

theorem standsBut (h : Wrote a bs s t) : MemStandsBut a bs.length s t := fun x hx => by
  rw [h.bytes, overlay_out (by rwa [List.length_map])]

theorem getBytes (h : Wrote a bs s t) : Machine.getBytes t a bs.length = bs := by
  refine List.ext_getElem (by simp [Machine.getBytes]) fun i hi hi' => ?_
  simp only [Machine.getBytes, List.getElem_map, List.getElem_range, h.bytes]
  exact overlay_some_in hi' _

end Wrote

/-- A source's write into good memory. -/
theorem writeAs_good {src : ReqSource} {a : Nat} {bs : List Byte} {s : State} (h : GoodRange s src a bs.length) :
    (writeAs src a bs s).1 = none ∧ Wrote a bs s (writeAs src a bs s).2 := by
  have huse := useMem_accounted src a bs.length s
  have hdata := useMem_data src a bs.length s
  have hlen : (bs.map some).length = bs.length := List.length_map _
  have hisData : isData (useMem src a bs.length s) a (bs.map some).length = true := by
    rw [hlen, huse.sameUse.isData]; exact isData_of_memUsable (memUsable_of_canUse h.1)
  obtain ⟨hnone, hstores, hbytes⟩ := writeEnabled_good (job := true) hisData (by rw [hlen]; exact .of_accounted h.2 huse hdata.marksStand)
  refine ⟨hnone, .trans ⟨huse, hdata.marksStand⟩ hstores, fun x => (hbytes x).trans (overlay_eq_of (hdata.memStands x))⟩

theorem storeAs_good {src : ReqSource} {a : Nat} {bs : List Byte} {s : State} (h : GoodRange s src a bs.length) :
    Wrote a bs s (storeAs src a bs s) := by
  have huse := useMem_accounted src a bs.length s
  have hdata := useMem_data src a bs.length s
  have hlen : (bs.map some).length = bs.length := List.length_map _
  have hisData : isData (useMem src a bs.length s) a (bs.map some).length = true := by
    rw [hlen, huse.sameUse.isData]; exact isData_of_memUsable (memUsable_of_canUse h.1)
  obtain ⟨-, hstores, hbytes⟩ := writeEnabled_good (job := false) hisData (by rw [hlen]; exact .of_accounted h.2 huse hdata.marksStand)
  exact ⟨.trans ⟨huse, hdata.marksStand⟩ hstores, fun x => (hbytes x).trans (overlay_eq_of (hdata.memStands x))⟩

end Sys2Proof.Machine
end

section
/-!
PROOFS. Registers read after other registers were written, and what a fill makes of memory.
-/
namespace Sys2Proof.Machine

/-! ### A register other than the one written -/

section
variable {p off p' off' : Nat} (ho : off < 0x1000) (ho' : off' < 0x1000) (hne : ¬(p' = p ∧ off' = off))
include ho ho' hne

theorem rd_wr_other (v : Word) (s : State) : rd (wr p off v s) p' off' = rd s p' off' := rd_wr_key (regKey_ne ho ho' hne) v s

theorem rd_wrN_other (v : Nat) (s : State) : rd (wrN p off v s) p' off' = rd s p' off' := rd_wr_other ho ho' hne _ s

theorem rd_wrF_other (hi lo v : Nat) (s : State) : rd (wrF p off hi lo v s) p' off' = rd s p' off' := rd_wr_other ho ho' hne _ s

theorem rd_wrB_other (i : Nat) (b : Bool) (s : State) : rd (wrB p off i b s) p' off' = rd s p' off' := rd_wr_other ho ho' hne _ s

end

theorem rd_wrN_same (p off v : Nat) (s : State) : rd (wrN p off v s) p off = BitVec.ofNat 32 v := rd_wr_same ..

theorem rd_wrB_same (p off i : Nat) (b : Bool) (s : State) : rd (wrB p off i b s) p off = setFld (rd s p off) i i (b2n b) := rd_wr_same ..

theorem wrN_reports (p off v : Nat) (s : State) : ReportsOnly s (wrN p off v s) := wr_reports ..

theorem wrF_reports (p off hi lo v : Nat) (s : State) : ReportsOnly s (wrF p off hi lo v s) := wr_reports ..

theorem wrB_reports (p off i : Nat) (b : Bool) (s : State) : ReportsOnly s (wrB p off i b s) := wr_reports ..

theorem wr64_reports (p off v : Nat) (s : State) : ReportsOnly s (wr64 p off v s) := (wrN_reports ..).trans (wrN_reports ..)

theorem rd_modPower (f : PowerState → PowerState) (p off : Nat) (s : State) : rd (modPower f s) p off = rd s p off := rfl

theorem rd_modSup (f : SupState → SupState) (p off : Nat) (s : State) : rd (modSup f s) p off = rd s p off := rfl

theorem rd_setSwitching {p off : Nat} (ho : off < 0x1000) (h : ¬(p = pgPWR ∧ off = 0x080)) (l : List (Nat × Bool)) (s : State) :
    rd (setSwitching l s) p off = rd s p off := rd_wrF_other (s := modPower _ s) (by decide) ho h ..

/-! ### Fills -/

/-- The byte at an address where memory forgot some of its listed bytes. -/
theorem getByte_dropKeys {s t : State} {hit : Nat → Bool} (h : t.mem.cells = s.mem.cells.dropKeys hit) (a : Nat) :
    getByte t a = if hit a then t.mem.unlisted a else s.mem.cells.get (t.mem.unlisted a) a := by
  unfold getByte; rw [h, SMap.get_dropKeys]

/-- The resident store and the flag space zeroed (R179). -/
theorem getByte_zeroResident (a : Nat) (s : State) : getByte (zeroResident s) a = if residentBase ≤ a then 0 else getByte s a := by
  refine (getByte_dropKeys (s := s) (hit := fun a => decide (residentBase ≤ a)) rfl a).trans ?_
  by_cases h : residentBase ≤ a
  · rw [if_pos h, if_pos (decide_eq_true h)]
    exact if_neg (by unfold residentBase at h; omega)
  · rw [if_neg h, if_neg (by simpa using h)]; rfl

/-- What a byte of DRAM reads as where its range was filled. -/
def fillByte (v : Fill) (a : Nat) : Byte := match v with | .zero => 0 | .free n | .work n => Config.freeByte n a

theorem fillOf_fillRange (lo hi : Nat) (v : Fill) (a : Nat) (s : State) :
    (fillRange lo hi v s).mem.fillOf a = if lo ≤ a ∧ a < hi then v else s.mem.fillOf a := by
  by_cases h : lo ≤ a ∧ a < hi
  · rw [if_pos h]; exact if_pos h
  · rw [if_neg h]; exact fillIn_fillRange lo hi v a h s.mem.fills

theorem getByte_fillRange {lo hi a : Nat} (ha : a < 0x1000000000) (v : Fill) (s : State) :
    getByte (fillRange lo hi v s) a = if lo ≤ a ∧ a < hi then fillByte v a else getByte s a := by
  refine (getByte_dropKeys (s := s) (hit := fun a => decide (lo ≤ a) && decide (a < hi)) rfl a).trans ?_
  by_cases h : lo ≤ a ∧ a < hi
  · rw [if_pos h, if_pos (by simpa using h)]
    unfold Memory.unlisted fillByte
    cases v <;> rw [if_pos ha, fillOf_fillRange, if_pos h]
  · rw [if_neg h, if_neg (by simpa using h)]
    unfold getByte Memory.unlisted
    rw [fillOf_fillRange, if_neg h]

theorem getByte_fillRange_out {lo hi a : Nat} (h : ¬(lo ≤ a ∧ a < hi)) (v : Fill) (s : State) :
    getByte (fillRange lo hi v s) a = getByte s a := by
  refine (getByte_dropKeys (s := s) (hit := fun a => decide (lo ≤ a) && decide (a < hi)) rfl a).trans ?_
  rw [if_neg (by simpa using h)]
  unfold getByte Memory.unlisted
  rw [fillOf_fillRange, if_neg h]

/-- A fill of regions leaves every byte past the DRAM. -/
theorem getByte_fillRegions_past {a : Nat} (ha : 2 ^ 36 ≤ a) (f : Nat → Bool) (v : Fill) (s : State) :
    getByte (fillRegions f v s) a = getByte s a := by
  unfold fillRegions
  have : ∀ (l : List Nat) (u : State), (∀ r ∈ l, r < 32) →
      getByte (l.foldl (fun t r => fillRange (r * 2 ^ 31) ((r + 1) * 2 ^ 31) v t) u) a = getByte u a := by
    intro l
    induction l with
    | nil => exact fun _ _ => rfl
    | cons r l ih =>
      intro u hl
      have hr := hl r List.mem_cons_self
      exact (ih _ fun x hx => hl x (List.mem_cons_of_mem _ hx)).trans (getByte_fillRange_out (by omega) v u)
  exact this _ s fun r hr => List.mem_range.mp (List.mem_filter.mp hr).1

end Sys2Proof.Machine
end

section
/-!
PROOFS. Memory accesses whatever the state of the words (R193 to R199): an access that meets errors counts and reports them, and a word
that cannot be read stays one.
-/
namespace Sys2Proof.Machine

/-! ### The page that a word's errors show on -/

theorem wordPage_counted (s : State) (w : Nat) {off : Nat}
    (h : off = 0x014 ∨ off = 0x020 ∨ off = 0x024 ∨ off = 0x098 ∨ ((wordPage s w).cnt ≤ off ∧ off ≤ (wordPage s w).cnt + 8)) :
    counted (wordPage s w).page off := by
  have hctl := controllerOf_lt s w
  unfold wordPage at *
  split at h
  · rw [if_pos ‹_›]; unfold counted pgDMC; dsimp only at *; omega
  · rw [if_neg ‹_›]; unfold counted pgRES; dsimp only at *; omega

theorem wordPage_cnt (s : State) (w : Nat) : (wordPage s w).cnt + 8 < 0x1000 ∧ 0x088 ≤ (wordPage s w).cnt := by
  unfold wordPage; split <;> dsimp only <;> omega

/-- An event below BLOCK_FAULT writes its bit and the fault latch of its page. -/
theorem Accounted.report {p v : Nat} (hv : v < sevBLOCK) (hevt : counted p 0x014) (h20 : counted p 0x020) (h24 : counted p 0x024)
    (c d : Nat) (s : State) : Accounted s (Machine.raise p c v d s) := by
  have honly : Machine.raise p c v d s = raiseOnly p c v d s := by
    unfold Machine.raise; dsimp only
    exact if_neg (by simp [Nat.not_le.mpr hv])
  rw [honly]
  exact .of_reports (raiseOnly_reports ..) (raiseOnly_prefix ..)
    (fun p' off ho hne => rd_raiseOnly ho (by rintro ⟨rfl, rfl | rfl | rfl⟩ <;> exact hne ‹_›) ..)
    fun p' i _ => rdB_congr (rd_raiseOnly (by decide) (by omega) ..) i

section
variable {w : Nat} {s : State}

theorem raise_word_accounted {v : Nat} (hv : v < sevBLOCK) (c d : Nat) (t : State) : Accounted t (raise (wordPage s w).page c v d t) :=
  .report hv (wordPage_counted s w (.inl rfl)) (wordPage_counted s w (.inr (.inl rfl))) (wordPage_counted s w (.inr (.inr (.inl rfl)))) ..

theorem incCnt_word_accounted {k : Nat} (hk : k ≤ 8) (n : Nat) (t : State) :
    Accounted t (incCnt (wordPage s w).page ((wordPage s w).cnt + k) n t) := by
  have hcnt := wordPage_cnt s w
  exact .incCnt (by omega) (wordPage_counted s w (by omega)) (wordPage_counted s w (.inl rfl)) ..

theorem lastErr_accounted (ue : Bool) (t : State) : Accounted t (lastErr (wordPage s w) ue t) :=
  .wr (by decide) (wordPage_counted s w (by omega)) ..

end

theorem setMark_accounted (w : Nat) (m : Mark) (s : State) : Accounted s (setMark w m s) := .of_data rfl

theorem setBytes_accounted (a : Nat) (bs : List Byte) (s : State) : Accounted s (setBytes a bs s) := (setEnabled_stores ..).accounted

theorem correctWord_accounted (w : Nat) (s : State) : Accounted s (correctWord w s) :=
  (setMark_accounted w .good s).trans ((incCnt_word_accounted (Nat.zero_le 8) 1 _).trans ((lastErr_accounted ..).trans
    (raise_word_accounted (v := sevCORRECTED) (by decide) ..)))

theorem condemnWord_accounted (w : Nat) (s : State) : Accounted s (condemnWord w s) :=
  ((setBytes_accounted ..).trans (setMark_accounted ..)).trans ((incCnt_word_accounted (by decide) 1 _).trans
    ((incCnt_word_accounted (by decide) 1 _).trans (lastErr_accounted ..)))

theorem readWord_accounted (w : Nat) (s : State) : Accounted s (readWord w s).2 := by
  unfold readWord; split
  · exact .refl s
  · split
    · exact .refl s
    · exact correctWord_accounted w s
    · exact (condemnWord_accounted w s).trans (raise_word_accounted (v := sevJOB) (by decide) ..)
    · exact .refl s

theorem readWords_accounted : ∀ (l : List Nat) (s : State), Accounted s (readWords l s).2
  | [], s => .refl s
  | w :: l, s => (readWord_accounted w s).trans (readWords_accounted l _)

theorem readMem_accounted (a n : Nat) (s : State) : Accounted s (readMem a n s).2.2 :=
  (countDram_accounted a n s).trans (readWords_accounted ..)

/-- A source's read counts, corrects and reports; nothing else changes. -/
theorem readAs_accounted (src : ReqSource) (a n : Nat) (s : State) : Accounted s (readAs src a n s).2.2 :=
  (useMem_accounted src a n s).trans (readMem_accounted ..)

theorem prepWord_accounted (w : Nat) (c : List (Option Byte)) (s : State) : Accounted s (prepWord w c s).2 := by
  unfold prepWord; dsimp only; split
  · exact .refl s
  · split
    · exact raise_word_accounted (v := sevJOB) (by decide) ..
    · split
      · exact setMark_accounted ..
      · split
        · exact .refl s
        · exact correctWord_accounted w s
        · exact (condemnWord_accounted w s).trans (raise_word_accounted (v := sevJOB) (by decide) ..)
        · exact raise_word_accounted (v := sevJOB) (by decide) ..

theorem writeWords_accounted (job : Bool) (a : Nat) (bs : List (Option Byte)) : ∀ (l : List Nat) (s : State),
    Accounted s (writeWords job a bs l s).2
  | [], s => .refl s
  | w :: l, s => by
    have hprep := prepWord_accounted w (slice a bs w (wordSize w)).2 s
    unfold writeWords; dsimp only; split
    · exact hprep.trans ((setEnabled_stores ..).accounted.trans (writeWords_accounted ..))
    · split
      · exact hprep
      · exact hprep.trans (writeWords_accounted ..)

theorem writeEnabled_accounted (job : Bool) (a : Nat) (bs : List (Option Byte)) (s : State) : Accounted s (writeEnabled job a bs s).2 := by
  have hcount := countDram_accounted a bs.length s
  unfold writeEnabled; dsimp only; split
  · exact hcount.trans (setEnabled_stores ..).accounted
  · exact hcount.trans ((setEnabled_stores ..).accounted.trans (writeWords_accounted ..))

theorem writeAs_accounted (src : ReqSource) (a : Nat) (bs : List Byte) (s : State) : Accounted s (writeAs src a bs s).2 :=
  (useMem_accounted src a bs.length s).trans (writeEnabled_accounted ..)

theorem storeAs_accounted (src : ReqSource) (a : Nat) (bs : List Byte) (s : State) : Accounted s (storeAs src a bs s) :=
  (useMem_accounted src a bs.length s).trans (writeEnabled_accounted ..)

/-! ### Words that can be read -/

/-- The word gives data, corrected where its code corrects it. -/
def readable (s : State) (w : Nat) : Prop := bankBad s w = false ∧ (markOf s w = .good ∨ markOf s w = .correctable)

theorem markOf_congr {s t : State} (hmarks : t.marks = s.marks) (hfills : t.mem.fills = s.mem.fills) (w : Nat) : markOf t w = markOf s w := by
  unfold markOf unlistedMark Memory.fillOf; rw [hmarks, hfills]

theorem markOf_setMark (w : Nat) (m : Mark) (s : State) (v : Nat) : markOf (setMark w m s) v = if v = w then m else markOf s v := by
  have hknown : ∀ x, knownMark s.mem w = some x → unlistedMark s.mem w = x := by
    unfold knownMark unlistedMark
    intro x hx
    split at hx
    · rename_i hw; rw [if_pos hw]
      split at hx
      · cases hx
      · cases hx; split <;> simp_all
    · rename_i hw; rw [if_neg hw]; exact Option.some.inj hx
  by_cases hv : v = w
  · subst hv; rw [if_pos rfl]; exact SMap.get_putKnown _ _ hknown v m s.marks
  · rw [if_neg hv]; exact SMap.get_putKnown_ne _ _ hv _ s.marks

/-- What a correction leaves in memory: every byte and every other word's mark; its own word is good. -/
theorem correctWord_shows (w : Nat) (s : State) : (correctWord w s).mem = s.mem ∧
    ∀ v, markOf (correctWord w s) v = if v = w then .good else markOf s v := by
  have hreports : ReportsOnly (setMark w .good s) (correctWord w s) := by
    unfold correctWord lastErr
    exact (incCnt_reports ..).trans ((wrN_reports ..).trans (raise_reports ..))
  refine ⟨hreports.field State.mem, fun v => ?_⟩
  rw [markOf_congr (hreports.field State.marks) (congrArg Memory.fills (hreports.field State.mem)), markOf_setMark]

theorem readWord_readable {w : Nat} {s : State} (h : readable s w) :
    (readWord w s).1 = false ∧ MemStands s (readWord w s).2 ∧ ∀ v, readable (readWord w s).2 v ↔ readable s v := by
  have hbank (v : Nat) := (readWord_accounted w s).sameUse.bankBad v
  obtain ⟨hgood, hmark⟩ := h
  unfold readable
  simp only [hbank]
  unfold readWord
  rw [if_neg (by rw [hgood]; decide)]
  rcases hmark with hm | hm <;> rw [hm]
  · exact ⟨rfl, .refl s, fun _ => Iff.rfl⟩
  · obtain ⟨hmem, hmarks⟩ := correctWord_shows w s
    refine ⟨rfl, memStands_of_mem hmem, fun v => and_congr_right fun _ => ?_⟩
    dsimp only
    rw [hmarks]
    split
    · subst v; rw [hm]; simp
    · rfl

/-- A word that cannot be read is told so. -/
theorem readWord_unreadable {w : Nat} {s : State} (h : ¬readable s w) : (readWord w s).1 = true := by
  unfold readWord
  split
  · rfl
  · rename_i hbank
    split
    · rename_i hm; exact absurd ⟨by simpa using hbank, .inl hm⟩ h
    · rename_i hm; exact absurd ⟨by simpa using hbank, .inr hm⟩ h
    · rfl
    · rfl

theorem readWords_readable : ∀ {l : List Nat} {s : State}, (∀ w ∈ l, readable s w) →
    (readWords l s).1 = none ∧ MemStands s (readWords l s).2
  | [], s, _ => ⟨rfl, .refl s⟩
  | w :: l, s, h => by
    obtain ⟨hfirst, hmem, hsame⟩ := readWord_readable (h w List.mem_cons_self)
    obtain ⟨hnone, hrest⟩ := readWords_readable (l := l) (s := (readWord w s).2) fun v hv => (hsame v).mpr (h v (List.mem_cons_of_mem _ hv))
    refine ⟨?_, hmem.trans hrest⟩
    unfold readWords; dsimp only; rw [hfirst]; exact hnone

theorem readable_of_readWords : ∀ {l : List Nat} {s : State}, (readWords l s).1 = none → ∀ w ∈ l, readable s w
  | [], _, _ => fun _ hw => absurd hw List.not_mem_nil
  | w :: l, s, h => by
    unfold readWords at h; dsimp only at h
    have hw : readable s w := by
      refine Classical.byContradiction fun hnot => ?_
      rw [readWord_unreadable hnot, if_pos rfl] at h; cases h
    obtain ⟨hfirst, -, hsame⟩ := readWord_readable hw
    rw [hfirst, if_neg (by decide)] at h
    intro v hv
    rcases List.mem_cons.mp hv with rfl | hv
    · exact hw
    · exact (hsame v).mp (readable_of_readWords h v hv)

/-- Two states read alike where their memory is alike. -/
theorem SameUse.readable {s t : State} (h : SameUse s t) (hd : DataStands s t) (w : Nat) : Machine.readable t w ↔ Machine.readable s w := by
  unfold Machine.readable; rw [h.bankBad, hd.marksStand]

/-- A source's read whose words can be read gives the bytes of memory. -/
theorem readAs_readable {src : ReqSource} {a n : Nat} {s : State} (h : ∀ w ∈ codedWords s a n, readable s w) :
    (readAs src a n s).1 = getBytes s a n ∧ (readAs src a n s).2.1 = none ∧ MemStands s (readAs src a n s).2.2 := by
  have hcount := (useMem_accounted src a n s).trans (countDram_accounted a n _)
  have hdata := (useMem_data src a n s).trans (countDram_data a n _)
  obtain ⟨hnone, hmem⟩ := readWords_readable (l := codedWords (useMem src a n s) a n) (s := countDram a n (useMem src a n s)) fun w hw => by
    rw [(useMem_accounted src a n s).sameUse.codedWords] at hw
    exact (hcount.sameUse.readable hdata w).mpr (h w hw)
  exact ⟨getBytes_congr (hdata.memStands.trans hmem) a n, hnone, hdata.memStands.trans hmem⟩

/-- What a read without an error read. -/
theorem readable_of_readAs {src : ReqSource} {a n : Nat} {s : State} (h : (readAs src a n s).2.1 = none) :
    ∀ w ∈ codedWords s a n, readable s w := by
  have hcount := (useMem_accounted src a n s).trans (countDram_accounted a n _)
  have hdata := (useMem_data src a n s).trans (countDram_data a n _)
  intro w hw
  rw [← (useMem_accounted src a n s).sameUse.codedWords] at hw
  exact (hcount.sameUse.readable hdata w).mp (readable_of_readWords h w hw)

end Sys2Proof.Machine
end

section
/-!
PROOFS. The start of the module, of PD0 and the trim image (O14).
-/
namespace Sys2Proof.Machine

/-- Losing the rails keeps nothing but the compartment, the fuses, the supervisor and the pending commands; the resident store is zero. -/
theorem getByte_loseRails {a : Nat} (ha : residentBase ≤ a) (s : State) : getByte (loseRails s) a = 0 := by
  have h : (loseRails s).mem = (fillRegions (fun _ => true) (.free (zeroResident s).freeCtr) (zeroResident s)).mem := rfl
  rw [getByte_of_mem h, getByte_fillRegions_past (by unfold residentBase at ha; omega), getByte_zeroResident, if_pos ha]

theorem execModulePowerDown_shows {s : State} (hen : s.sup.modEn = true) :
    ∃ t, execModulePowerDown s = settle s t ∧ t.pd0 = false ∧ t.regs = [] ∧ t.jobs = [] ∧ t.met = s.met ∧ t.sup.cause = s.sup.cause ∧
      t.sup.removals = s.sup.removals ∧ ∀ a, residentBase ≤ a → getByte t a = 0 :=
  ⟨_, congrArg (settle s) (if_pos hen), rfl, rfl, rfl, rfl, rfl, rfl, fun _ ha => getByte_loseRails ha s⟩

/-- The management page as the boot ROM leaves it at PD0 power-good. -/
theorem execPd0PowerGood_shows (straps : Nat) {s : State} (hpg : s.sup.modPg = true) (hoff : s.pd0 = false) :
    ∃ t, execPd0PowerGood straps s = settle s t ∧ t.pd0 = true ∧ t.tb = State.reset.tb ∧
      rd t pgMGT 0x08C = BitVec.ofNat 32 (straps % 2 ^ 12) ∧ rd t pgMGT 0x084 = BitVec.ofNat 32 (1 + s.fuses.romVersion % 256 * 2 ^ 8) ∧
      (∀ p off, off < 0x1000 → ¬(p = pgMGT ∧ (off = 0x08C ∨ off = 0x080 ∨ off = 0x084)) → rd t p off = resetWord p off) := by
  refine ⟨_, if_pos (by rw [hpg, hoff]; rfl) |> congrArg (settle s), rfl, rfl, ?_, rd_wrN_same .., fun p off ho hne => ?_⟩
  · rw [rd_wrN_other (by decide) (by decide) (by decide), rd_wrN_other (by decide) (by decide) (by decide), rd_wrN_same]
  · rw [rd_wrN_other (by decide) ho (by omega), rd_wrN_other (by decide) ho (by omega), rd_wrN_other (by decide) ho (by omega)]
    rfl

/-- The registers of the management page that events do not write. -/
theorem rd_slotBad {off : Nat} (ho : off < 0x1000) (h : ¬(off = 0x00C ∨ off = 0x014 ∨ off = 0x020 ∨ off = 0x024)) (n : Nat) (o : TrimOutcome)
    (s : State) : rd (slotBad n o s) pgMGT off = rd s pgMGT off := by
  unfold slotBad; split
  · rfl
  · exact rd_raise ho (by omega) ..

theorem boot_word (w : Word) (slot version : Nat) (hs : slot < 4) (hv : version < 2 ^ 16) :
    let v := setFld (setFld (setFld w 2 0 3) 5 4 slot) 31 16 version
    fld v 2 0 = 3 ∧ fld v 5 4 = slot ∧ fld v 31 16 = version := by
  refine ⟨?_, ?_, ?_⟩
  · exact (fld_setFld_ne _ _ _ _ _ _ (by decide) (by decide) (by decide)).trans
      ((fld_setFld_ne _ _ _ _ _ _ (by decide) (by decide) (by decide)).trans ((fld_setFld _ _ _ _ (by decide) (by decide)).trans (by decide)))
  · rw [fld_setFld_ne _ _ _ _ _ _ (by decide) (by decide) (by decide), fld_setFld _ _ _ _ (by decide) (by decide)]
    omega
  · rw [fld_setFld _ _ _ _ (by decide) (by decide)]
    omega

theorem outbox_setSwitching (l : List (Nat × Bool)) (s : State) : s.outbox <+: (setSwitching l s).outbox := by
  have h : (setSwitching l s).outbox = s.outbox := wr_outbox ..
  exact h ▸ List.prefix_rfl

/-- The trim image's outcome: a valid slot applied, or none. -/
theorem execTrimVerifyDone_shows {r : TrimResult} {s : State} (hpd0 : s.pd0 = true) (hnew : s.power.trimTried = false) :
    ∃ t, execTrimVerifyDone r s = settle s t ∧ t.power.trimTried = true ∧
      (slotUsed r ≠ 0 → t.power.trimValid = true ∧ t.power.switching = [(1, true), (2, true)] ∧
        (∃ w, rd t pgMGT 0x084 = setFld (setFld (setFld w 2 0 3) 5 4 (slotUsed r)) 31 16 r.version) ∧ rd t pgMGT 0x088 = BitVec.ofNat 32 r.crc) ∧
      (slotUsed r = 0 → t.power.trimValid = false ∧ t.power.switching = [(1, true)] ∧ rdF t pgMGT 0x084 2 0 = 4 ∧
        ∀ q, Told t q pgMGT 0x102 0) := by
  refine ⟨_, if_pos (by rw [hpd0, hnew]; rfl) |> congrArg (settle s), ?_⟩
  dsimp only
  generalize hu : modPower (fun p => { p with trimTried := true, trimValid := decide (slotUsed r ≠ 0) }) (wrN pgMGT 0x090 _ _) = u
  have htried : u.power.trimTried = true := by rw [← hu]; rfl
  have hvalid : u.power.trimValid = decide (slotUsed r ≠ 0) := by rw [← hu]; rfl
  have hset (l : List (Nat × Bool)) (v : State) : (setSwitching l v).power = { v.power with switching := l } := rfl
  by_cases hslot : slotUsed r = 0
  · rw [if_pos hslot]
    refine ⟨?_, fun h => absurd hslot h, fun _ => ⟨?_, ?_, ?_, fun q => ?_⟩⟩
    · rw [hset, raise_power]; exact htried
    · rw [hset, raise_power]; exact hvalid.trans (decide_eq_false (not_not_intro hslot))
    · rw [hset]
    · refine (rdF_congr ((rd_setSwitching (by decide) (by decide) ..).trans (rd_raise (by decide) (by decide) ..)) ..).trans ?_
      exact rdF_wrF _ _ _ _ _ _ (by decide) (by decide)
    · exact (told_raise_block (v := sevDEVICE) (by decide) q pgMGT 0x102 0 (wrF pgMGT 0x084 2 0 4 u)).mono (outbox_setSwitching ..)
  · rw [if_neg hslot]
    generalize hv : wrN pgMGT 0x094 _ (wrN pgMGT 0x088 r.crc (wrF pgMGT 0x084 31 16 r.version _)) = v
    have hpower : v.power = u.power := by rw [← hv]; rfl
    have hboot : ∃ w, rd v pgMGT 0x084 = setFld (setFld (setFld w 2 0 3) 5 4 (slotUsed r)) 31 16 r.version := by
      refine ⟨rd u pgMGT 0x084, ?_⟩
      rw [← hv, rd_wrN_other (by decide) (by decide) (by decide), rd_wrN_other (by decide) (by decide) (by decide), rd_wrF_same,
        rd_wrF_same, rd_wrF_same]
    have hcrc : rd v pgMGT 0x088 = BitVec.ofNat 32 r.crc := by
      rw [← hv, rd_wrN_other (by decide) (by decide) (by decide), rd_wrN_same]
    generalize hx : (if r.failed % 2 ^ 16 = 0 then v else raise pgMGT 0x103 sevDEGRADED (r.failed % 2 ^ 16) v) = x
    have hxpower : x.power = u.power := by rw [← hx]; split <;> simp [hpower]
    have hxregs {off : Nat} (ho : off < 0x1000) (h : ¬(off = 0x00C ∨ off = 0x014 ∨ off = 0x020 ∨ off = 0x024)) :
        rd (setSwitching [(1, true), (2, true)] (raise pgMGT 0x100 sevINFO (now s / 1000 % 2 ^ 32) x)) pgMGT off = rd v pgMGT off := by
      refine (rd_setSwitching ho (fun h => absurd h.1 (by decide)) ..).trans ((rd_raise ho (by omega) ..).trans ?_)
      rw [← hx]; split
      · rfl
      · exact rd_raise ho (by omega) ..
    refine ⟨?_, fun _ => ⟨?_, ?_, ?_, ?_⟩, fun h => absurd h hslot⟩
    · rw [hset, raise_power, hxpower]; exact htried
    · rw [hset, raise_power, hxpower]; exact hvalid.trans (decide_eq_true hslot)
    · rw [hset]
    · obtain ⟨w, hw⟩ := hboot
      exact ⟨w, (hxregs (by decide) (by decide)).trans hw⟩
    · exact (hxregs (by decide) (by decide)).trans hcrc

/-- Ownership resets to port A: `PG_OWNER` is a header word, and resets to 0. -/
theorem owner_reset (p : Nat) : Port.ofNum (fld (resetWord p 0x028) 0 0) = .a := by
  unfold resetWord
  cases hk : kindOf p with
  | none => rw [show regSpec p 0x028 = none by unfold regSpec; rw [hk]]; rfl
  | some k => rw [regSpec_header hk (by decide)]; cases k <;> rfl

theorem boot_stage (version : Nat) : fld (BitVec.ofNat 32 (1 + version % 256 * 2 ^ 8)) 2 0 = 1 := by
  unfold fld bitsOf
  rw [BitVec.toNat_ofNat, Nat.shiftRight_zero]
  omega

theorem slotUsed_lt (r : TrimResult) : slotUsed r < 4 := by
  unfold slotUsed
  split
  · decide
  · split <;> decide

/-- Settles O14. -/
theorem moduleAndPd0Start : Obligations.ModuleAndPd0Start := by
  refine ⟨⟨fun vin s hvin hpg hflash => ?_, fun vin s hen => ?_, fun s hen => ?_⟩, fun straps s hpg hoff => ?_, fun r s hr hpd0 hnew => ?_⟩
  · exact ⟨_, (congrArg (settle s) ((if_neg (by rw [hpg, hflash]; decide)).trans ((if_neg (by simp)).trans (if_pos hvin)))).trans
      (settle_eq ..), rfl, rfl, rfl, rfl⟩
  · exact ⟨_, (congrArg (settle s) (if_neg (by rw [hen]; decide))).trans (settle_eq ..), rfl, rfl, rfl, rfl⟩
  · obtain ⟨t, hexec, hpd0, hregs, hjobs, hmet, hcause, hremovals, hzero⟩ := execModulePowerDown_shows hen
    exact ⟨_, hexec.trans (settle_eq ..), hpd0, hregs, hjobs, hmet, rfl, hcause, hremovals, rfl, hzero⟩
  · obtain ⟨t, hexec, hon, htb, hstraps, hboot, hregs⟩ := execPd0PowerGood_shows straps hpg hoff
    refine ⟨_, hexec.trans (settle_eq ..), hon, (congrArg (fun b : TimeBase => b.count / 2 ^ 32) htb).trans rfl, fun p => ?_, hstraps, ?_,
      fun p off ho hp => hregs p off ho fun h => hp h.1⟩
    · refine (congrArg (fun w => Port.ofNum (fld w 0 0)) (hregs p 0x028 (by decide) (by omega))).trans ?_
      exact owner_reset p
    · refine (congrArg (fun w => fld w 2 0) hboot).trans ?_
      exact boot_stage _
  · obtain ⟨t, hexec, htried, hsome, hnone⟩ := execTrimVerifyDone_shows hpd0 hnew
    refine ⟨_, hexec.trans (settle_eq ..), htried, fun hslot => ?_, fun hslot => ?_⟩
    · obtain ⟨hvalid, hswitching, ⟨w, hw⟩, hcrc⟩ := hsome hslot
      have hversion : r.version < 2 ^ 16 := by
        unfold TrimResult.wf wfBits at hr
        simp only [Bool.and_eq_true, decide_eq_true_eq] at hr
        exact hr.1.1.1
      obtain ⟨hstage, hs, hv⟩ := boot_word w (slotUsed r) r.version (slotUsed_lt r) hversion
      exact ⟨hvalid, hswitching, (congrArg (fun w => fld w 2 0) hw).trans hstage, (congrArg (fun w => fld w 5 4) hw).trans hs,
        (congrArg (fun w => fld w 31 16) hw).trans hv, hcrc⟩
    · obtain ⟨hvalid, hswitching, hstage, htold⟩ := hnone hslot
      exact ⟨hvalid, hswitching, hstage, htold .a, htold .b⟩

end Sys2Proof.Machine
end

section
/-!
PROOFS. Domains switch, and VCORE (O15): what a switched domain's pages hold, what it leaves of the others, and the core's rails.
-/
namespace Sys2Proof.Machine

/-! ### Owners, and the power that orders made -/

/-- The owner words of all pages. -/
def ownersOf (s : State) : Nat → Word := fun p => rd s p 0x028

theorem owner_congr {s t : State} (h : ownersOf t = ownersOf s) (p : Nat) : owner t p = owner s p :=
  congrArg (fun w => Port.ofNum (fld w 0 0)) (congrFun h p)

theorem ownersOf_regs {s t : State} (h : t.regs = s.regs) : ownersOf t = ownersOf s := funext fun p => rd_of_regs h p _

theorem ownersOf_wr {off : Nat} (ho : off < 0x1000) (hne : off ≠ 0x028) (p : Nat) (v : Word) (s : State) :
    ownersOf (wr p off v s) = ownersOf s := funext fun _ => rd_wr_other ho (by decide) (by omega) v s

theorem ownersOf_raise (p c v d : Nat) (s : State) : ownersOf (raise p c v d s) = ownersOf s :=
  funext fun _ => rd_raise (by decide) (by omega) ..

theorem ownersOf_incCnt {off : Nat} (ho : off < 0x1000) (hne : off ≠ 0x028) (p n : Nat) (s : State) :
    ownersOf (incCnt p off n s) = ownersOf s := funext fun _ => rd_incCnt_ne ho (by decide) (by omega) ..

/-- Every register but the event bits of the pages. -/
def quietRegs (s : State) : Nat → Nat → Word := fun p off => if off < 0x1000 ∧ off ≠ 0x014 then rd s p off else 0

theorem quietRegs_regs {s t : State} (h : t.regs = s.regs) : quietRegs t = quietRegs s :=
  funext fun p => funext fun off => by unfold quietRegs; rw [rd_of_regs h]

theorem rd_of_quiet {s t : State} (h : quietRegs t = quietRegs s) {off : Nat} (ho : off < 0x1000) (hne : off ≠ 0x014) (p : Nat) :
    rd t p off = rd s p off := by
  have := congrFun (congrFun h p) off
  unfold quietRegs at this
  rwa [if_pos ⟨ho, hne⟩, if_pos ⟨ho, hne⟩] at this

theorem quietRegs_raise {v : Nat} (hv : v < sevDEGRADED) (p c d : Nat) (s : State) : quietRegs (raise p c v d s) = quietRegs s := by
  funext p' off
  unfold quietRegs
  split
  · rename_i h; exact rd_raise_low h.1 hv (fun hp => h.2 hp.2) ..
  · rfl

/-- What a domain's switch leaves of the power state: the orders, what the jobs' pages hold and which of them are fenced. -/
def powerOf (s : State) : Bool × PowerState × SMap PageJobs × SMap FenceState := (s.pd0, s.power, s.jobs, s.fences)

/-! ### The jobs of a switched domain -/

theorem powerOf_setCmdRing (q : Port) (n : Nat) (r : CmdRing) (s : State) : powerOf (setCmdRing q n r s) = powerOf s := by cases q <;> rfl

theorem regs_setCmdRing (q : Port) (n : Nat) (r : CmdRing) (s : State) : (setCmdRing q n r s).regs = s.regs := by cases q <;> rfl

theorem powerOf_ringDone (s : State) (j : Job) : Same powerOf s (ringDone j s) := .ite (powerOf_setCmdRing ..) (.refl s)

theorem quietRegs_ringDone (s : State) (j : Job) : Same quietRegs s (ringDone j s) :=
  .ite (quietRegs_regs (regs_setCmdRing ..)) (.refl s)

theorem powerOf_setCam (c : Nat) (v : FstCam) (s : State) : Same powerOf s (setCam c v s) := rfl

theorem quietRegs_setCam (c : Nat) (v : FstCam) (s : State) : Same quietRegs s (setCam c v s) := quietRegs_regs rfl

theorem powerOf_flushDone (c : Nat) (s : State) : Same powerOf s (flushDone c s) :=
  .ite ((Same.reports (raise_reports ..)).after (powerOf_setCam ..)) (.refl s)

theorem quietRegs_flushDone (c : Nat) (s : State) : Same quietRegs s (flushDone c s) :=
  .ite ((quietRegs_raise (by decide) ..).trans (quietRegs_setCam ..)) (.refl s)

theorem powerOf_unpinFrames (p n : Nat) (s : State) : Same powerOf s (unpinFrames p n s) := by
  refine .foldl (fun t c => ?_) _ s
  dsimp only
  exact .ite (.refl t) ((powerOf_flushDone ..).after (powerOf_setCam ..))

theorem quietRegs_unpinFrames (p n : Nat) (s : State) : Same quietRegs s (unpinFrames p n s) := by
  refine .foldl (fun t c => ?_) _ s
  dsimp only
  exact .ite (.refl t) ((quietRegs_flushDone ..).after (quietRegs_setCam ..))

/-- What a page that loses its domain keeps: nothing but the records still to be written. -/
def keptJobs (keep : Bool) (s : State) (p : Nat) : PageJobs :=
  { PageJobs.none with
    done := if keep && !(fenceOf s p).slow then (pageJobs s p).done else [], started := (pageJobs s p).started }

theorem powerOf_dropJobs (keep : Bool) (p : Nat) (s : State) :
    powerOf (dropJobs keep p s) = powerOf (setJobs p (keptJobs keep s p) s) := by
  have hrings (l : List Job) (u : State) : powerOf (l.foldl (fun t r => ringDone r t) u) = powerOf u := Same.foldl powerOf_ringDone l u
  have hpins (l : List Nat) (u : State) : powerOf (l.foldl (fun t n => unpinFrames p n t) u) = powerOf u :=
    Same.foldl (fun t n => powerOf_unpinFrames p n t) l u
  exact (hpins _ _).trans (hrings _ _)

theorem quietRegs_dropJobs (keep : Bool) (p : Nat) (s : State) : quietRegs (dropJobs keep p s) = quietRegs s := by
  have hrings (l : List Job) (u : State) : quietRegs (l.foldl (fun t r => ringDone r t) u) = quietRegs u := Same.foldl quietRegs_ringDone l u
  have hpins (l : List Nat) (u : State) : quietRegs (l.foldl (fun t n => unpinFrames p n t) u) = quietRegs u :=
    Same.foldl (fun t n => quietRegs_unpinFrames p n t) l u
  exact (hpins _ _).trans (hrings _ _)

theorem pageJobs_of_power {s t : State} (h : powerOf t = powerOf s) (p : Nat) : pageJobs t p = pageJobs s p := by
  have : t.jobs = s.jobs := congrArg (fun x => x.2.2.1) h
  unfold pageJobs; rw [this]

theorem fenceOf_of_power {s t : State} (h : powerOf t = powerOf s) (p : Nat) : fenceOf t p = fenceOf s p := by
  have : t.fences = s.fences := congrArg (fun x => x.2.2.2) h
  unfold fenceOf; rw [this]

theorem pageJobs_setJobs (p : Nat) (j : PageJobs) (s : State) (p' : Nat) :
    pageJobs (setJobs p j s) p' = if p' = p then j else pageJobs s p' := SMap.get_put ..

theorem fenceOf_setFence (p : Nat) (f : FenceState) (s : State) (p' : Nat) :
    fenceOf (setFence p f s) p' = if p' = p then f else fenceOf s p' := SMap.get_put ..

/-- One page of a domain that goes off. -/
def dropPage (keep : Bool) (t : State) (p : Nat) : State := setFence p FenceState.none (dropJobs keep p t)

theorem pageJobs_dropPage (keep : Bool) (t : State) (p p' : Nat) :
    pageJobs (dropPage keep t p) p' = if p' = p then keptJobs keep t p else pageJobs t p' :=
  (pageJobs_of_power (powerOf_dropJobs keep p t) p').trans (pageJobs_setJobs ..)

theorem fenceOf_dropPage (keep : Bool) (t : State) (p p' : Nat) :
    fenceOf (dropPage keep t p) p' = if p' = p then FenceState.none else fenceOf t p' := by
  refine (fenceOf_setFence ..).trans ?_
  rw [fenceOf_of_power (powerOf_dropJobs keep p t) p']; rfl

/-- A page has no job waiting or running. -/
def Idle (s : State) (p : Nat) : Prop := (pageJobs s p).queue = [] ∧ (pageJobs s p).running = []

theorem idle_dropPage {keep : Bool} {t : State} {p x : Nat} (h : Idle t p) : Idle (dropPage keep t x) p := by
  unfold Idle; rw [pageJobs_dropPage]
  split
  · exact ⟨rfl, rfl⟩
  · exact h

/-- The pages of a domain that goes off, one after another: each is idle after it, and keeps its finished jobs unless it is past
FENCE_SLOW. -/
theorem dropPages_shows : ∀ (l : List Nat) (s : State) (p : Nat),
    (p ∈ l ∨ Idle s p → Idle (l.foldl (dropPage true) s) p) ∧
    ((fenceOf s p).slow = false → (pageJobs (l.foldl (dropPage true) s) p).done = (pageJobs s p).done)
  | [], s, p => ⟨fun h => h.resolve_left List.not_mem_nil, fun _ => rfl⟩
  | x :: l, s, p => by
    obtain ⟨hidle, hdone⟩ := dropPages_shows l (dropPage true s x) p
    refine ⟨fun h => hidle ?_, fun hslow => (hdone ?_).trans ?_⟩
    · rcases h with h | h
      · rcases List.mem_cons.mp h with rfl | h
        · exact .inr (by unfold Idle; rw [pageJobs_dropPage, if_pos rfl]; exact ⟨rfl, rfl⟩)
        · exact .inl h
      · exact .inr (idle_dropPage h)
    · rw [fenceOf_dropPage]; split
      · rfl
      · exact hslow
    · rw [pageJobs_dropPage]; split
      · subst p; exact if_pos (by rw [hslow]; rfl)
      · rfl

/-! ### What a domain's blocks lose -/

/-- The orders and the jobs stand. -/
def ordersOf (s : State) : Bool × PowerState × SMap PageJobs := (s.pd0, s.power, s.jobs)

theorem ordersOf_of_power {s t : State} (h : powerOf t = powerOf s) : ordersOf t = ordersOf s :=
  Prod.ext (congrArg (fun x => x.1) h) (Prod.ext (congrArg (fun x => x.2.1) h) (congrArg (fun x => x.2.2.1) h))

/-- What forgets memory alone. -/
def OnlyData (s t : State) : Prop := t = { s with mem := t.mem, marks := t.marks, freeCtr := t.freeCtr }

theorem OnlyData.trans {s t u : State} (h : OnlyData s t) (g : OnlyData t u) : OnlyData s u := by
  unfold OnlyData at *; rw [g, h]

theorem onlyData_fillRegions (f : Nat → Bool) (v : Fill) (s : State) : OnlyData s (fillRegions f v s) := by
  unfold fillRegions
  exact foldl_keeps (OnlyData s) _ (fun t r ht => ht.trans (u := fillRange (r * 2 ^ 31) ((r + 1) * 2 ^ 31) v t) rfl) _ rfl

theorem OnlyData.orders {s t : State} (h : OnlyData s t) : ordersOf t = ordersOf s := (congrArg ordersOf h).trans rfl

theorem OnlyData.regs {s t : State} (h : OnlyData s t) : t.regs = s.regs := (congrArg State.regs h).trans rfl

theorem abandonInit_stands (s : State) : ordersOf (abandonInit s) = ordersOf s ∧ (abandonInit s).regs = s.regs := by
  unfold abandonInit; split
  · rename_i r _
    have h := onlyData_fillRegions (fun k => decide (k = r)) (.free s.freeCtr) (modDram (fun d => { d with initRegion := none }) s)
    exact ⟨h.orders, h.regs⟩
  · exact ⟨rfl, rfl⟩

theorem dropBlocks_stands (d : Nat) (s : State) : ordersOf (dropBlocks d s) = ordersOf s ∧ (dropBlocks d s).regs = s.regs := by
  unfold dropBlocks; split
  case h_2 => exact abandonInit_stands (zeroResident s)
  case h_7 =>
    unfold mergeScrap
    split <;> exact ⟨rfl, rfl⟩
  all_goals exact ⟨rfl, rfl⟩

theorem rd_dropRegs {off : Nat} (ho : off < 0x1000) (d p : Nat) (s : State) :
    rd (dropRegs d s) p off = if inDomain d p && !heldInPd0 p off then resetWord p off else rd s p off := by
  refine (SMap.get_dropKeys _ (fun k => inDomain d (k / 0x1000) && !heldInPd0 (k / 0x1000) (k % 0x1000)) _ s.regs).trans ?_
  unfold regKey
  rw [show (p * 0x1000 + off) / 0x1000 = p by omega, show (p * 0x1000 + off) % 0x1000 = off by omega]
  rfl

theorem ownersOf_dropRegs (d : Nat) (s : State) : ownersOf (dropRegs d s) = ownersOf s :=
  funext fun p => (rd_dropRegs (by decide) d p s).trans (if_neg (by simp [heldInPd0]))

/-- Everything but the event bits of PD0's pages and those of the domain's. -/
theorem rd_tellReady {p off : Nat} (ho : off < 0x1000) (hne : off ≠ 0x014) (d v : Nat) (s : State) :
    rd (tellReady d v s) p off = rd s p off :=
  Same.foldl (f := fun t => rd t p off) (fun _ _ => rd_raise_low ho (by decide) (fun h => hne h.2) ..) (pagesOf d) s

theorem reports_tellReady (d v : Nat) (s : State) : ReportsOnly s (tellReady d v s) :=
  foldl_keeps (ReportsOnly s) _ (fun _ _ h => h.trans (raise_reports ..)) (pagesOf d) (.refl s)

/-! ### Jobs held from now on -/

/-- Telling of held jobs posts records; of the registers it changes event bits, of the jobs that they are told of. -/
structure Tells (s t : State) : Prop where
  eq : t = { s with regs := t.regs, outbox := t.outbox, jobs := t.jobs }
  regs : ∀ p off, off < 0x1000 → off ≠ 0x014 → rd t p off = rd s p off
  outbox : s.outbox <+: t.outbox
  running : ∀ p, (pageJobs t p).running = (pageJobs s p).running
  done : ∀ p, (pageJobs t p).done = (pageJobs s p).done
  queue : ∀ p, (pageJobs s p).queue = [] → (pageJobs t p).queue = []

namespace Tells

theorem refl (s : State) : Tells s s := ⟨rfl, fun _ _ _ _ => rfl, List.prefix_refl _, fun _ => rfl, fun _ => rfl, fun _ h => h⟩

theorem trans {s t u : State} (h : Tells s t) (g : Tells t u) : Tells s u where
  eq := by rw [g.eq, h.eq]
  regs p off ho hne := (g.regs p off ho hne).trans (h.regs p off ho hne)
  outbox := h.outbox.trans g.outbox
  running p := (g.running p).trans (h.running p)
  done p := (g.done p).trans (h.done p)
  queue p hp := g.queue p (h.queue p hp)

theorem tellHeldJob (p : Nat) (j : Job) (s : State) : Tells s (tellHeldJob p j s) := by
  unfold Machine.tellHeldJob; split
  · exact .refl s
  · generalize hu : modJobs p _ s = u
    have hjobs (p' : Nat) : pageJobs u p' = if p' = p then { pageJobs s p with
        queue := (pageJobs s p).queue.map fun x => if x = j then { x with told := true } else x } else pageJobs s p' := by
      rw [← hu]; exact pageJobs_setJobs ..
    have hstep : Tells s u := by
      refine ⟨by rw [← hu]; rfl, fun p off _ _ => by rw [← hu]; exact rd_of_regs rfl p off, by rw [← hu]; exact List.prefix_refl _,
        fun p' => ?_, fun p' => ?_, fun p' h => ?_⟩
      · rw [hjobs]; split
        · subst p'; rfl
        · rfl
      · rw [hjobs]; split
        · subst p'; rfl
        · rfl
      · rw [hjobs]; split
        · subst p'; simp [h]
        · exact h
    refine hstep.trans ⟨?_, fun p off ho hne => rd_raise_low ho (by decide) (fun h => hne h.2) .., raise_prefix .., fun _ => ?_,
      fun _ => ?_, fun _ h => ?_⟩
    · exact (raise_reports ..).eq.trans (by rw [raise_jobs])
    · unfold pageJobs; rw [raise_jobs]
    · unfold pageJobs; rw [raise_jobs]
    · unfold pageJobs at *; rw [raise_jobs]; exact h

theorem tellAll (p : Nat) (s : State) : Tells s (tellAll p s) := by
  refine foldl_keeps (Tells s) _ (fun t j ht => ?_) _ (.refl s)
  split
  · exact ht.trans (tellHeldJob ..)
  · exact ht

theorem tellPages (s : State) : Tells s (tellPages s) := foldl_keeps (Tells s) _ (fun _ _ ht => ht.trans (tellAll ..)) _ (.refl s)

theorem owners {s t : State} (h : Tells s t) : ownersOf t = ownersOf s := funext fun p => h.regs p _ (by decide) (by decide)

theorem power {s t : State} (h : Tells s t) : t.pd0 = s.pd0 ∧ t.power = s.power := by
  rw [h.eq]; exact ⟨rfl, rfl⟩

end Tells

/-! ### A domain comes on -/

/-- The orders, the owners, and which domains are on. -/
def powerRegs (s : State) : Bool × PowerState × (Nat → Word) × Word := (s.pd0, s.power, ownersOf s, rd s pgPWR 0x080)

theorem powerRegs_wr {p off : Nat} (ho : off < 0x1000) (hne : off ≠ 0x028) (h : ¬(pgPWR = p ∧ 0x080 = off)) (v : Word) (s : State) :
    powerRegs (wr p off v s) = powerRegs s :=
  Prod.ext rfl (Prod.ext rfl (Prod.ext (ownersOf_wr ho hne ..) (rd_wr_other ho (by decide) h ..)))

theorem powerRegs_split {s t : State} (h : powerRegs t = powerRegs s) :
    t.pd0 = s.pd0 ∧ t.power = s.power ∧ ownersOf t = ownersOf s ∧ rd t pgPWR 0x080 = rd s pgPWR 0x080 :=
  ⟨congrArg (fun x => x.1) h, congrArg (fun x => x.2.1) h, congrArg (fun x => x.2.2.1) h, congrArg (fun x => x.2.2.2) h⟩

/-- The controllers of PD2 train again. -/
theorem startTraining_stands (c : Nat) (s : State) : Same powerRegs s (startTraining c s) := by
  have hdram (f : DramState → DramState) (u : State) : powerRegs (modDram f u) = powerRegs u := rfl
  exact (hdram ..).trans (powerRegs_wr (by decide) (by decide) (by unfold pgPWR pgDMC; omega) ..)

/-- What a domain that comes on is before it is told of. -/
def wakeDomain (d : Nat) (s : State) : State :=
  let t := modPower (fun p => { p with domainOnAt := p.domainOnAt.put 0 d (now s) }) (wrB pgPWR 0x080 d true (dropRegs d s))
  if d = 2 then (List.range 12).foldl (fun t c => startTraining c t) (wrF (pgDMC 0) 0x100 7 4 0xF t) else t

theorem domainUp_eq (d : Nat) (s : State) :
    domainUp d s = incCnt pgPWR 0x09C 1 (raise pgPWR 0x100 sevINFO d (tellReady d 0 (wakeDomain d s))) := rfl

theorem wakeDomain_shows {d : Nat} (hd : d ≤ 8) (s : State) :
    (wakeDomain d s).pd0 = s.pd0 ∧ rdB (wakeDomain d s) pgPWR 0x080 d = true ∧ ownersOf (wakeDomain d s) = ownersOf s ∧
      (d ≠ 2 → ∀ p off, off < 0x1000 → p ≠ pgPWR → rd (wakeDomain d s) p off = rd (dropRegs d s) p off) := by
  unfold wakeDomain; dsimp only
  generalize ht : modPower _ (wrB pgPWR 0x080 d true (dropRegs d s)) = t
  have hpd0 : t.pd0 = s.pd0 := by rw [← ht]; rfl
  have hon : rdB t pgPWR 0x080 d = true := by
    rw [← ht, rdB_congr (rd_modPower ..) d]; exact rdB_wrB _ _ _ _ _ (by omega)
  have howners : ownersOf t = ownersOf s := by
    rw [← ht]; exact (ownersOf_regs rfl).trans ((ownersOf_wr (by decide) (by decide) ..).trans (ownersOf_dropRegs d s))
  by_cases h2 : d = 2
  · rw [if_pos h2]
    have hoffer : Same powerRegs t (wrF (pgDMC 0) 0x100 7 4 0xF t) := powerRegs_wr (by decide) (by decide) (by decide) ..
    have htrain := (Same.foldl (fun t c => startTraining_stands c t) (List.range 12) (wrF (pgDMC 0) 0x100 7 4 0xF t)).after hoffer
    obtain ⟨hp, -, ho, hr⟩ := powerRegs_split htrain
    generalize (List.range 12).foldl _ (wrF (pgDMC 0) 0x100 7 4 0xF t) = u at hp ho hr
    exact ⟨hp.trans hpd0, (rdB_congr hr d).trans hon, ho.trans howners, fun h => absurd h2 h⟩
  · rw [if_neg h2]
    refine ⟨hpd0, hon, howners, fun _ p off ho hp => ?_⟩
    rw [← ht, rd_modPower]
    exact rd_wrB_other (by decide) ho (fun h => hp h.1) ..

theorem domainUp_shows {d : Nat} (hd : d ≤ 8) (s : State) :
    (domainUp d s).pd0 = s.pd0 ∧ rdB (domainUp d s) pgPWR 0x080 d = true ∧ ownersOf (domainUp d s) = ownersOf s ∧
      (d ≠ 2 → ∀ p off, off < 0x1000 → off ≠ 0x014 → p ≠ pgPWR → rd (domainUp d s) p off = rd (dropRegs d s) p off) := by
  obtain ⟨hpd0, hon, howners, hregs⟩ := wakeDomain_shows hd s
  rw [domainUp_eq]
  generalize wakeDomain d s = u at hpd0 hon howners hregs
  have hreports := (reports_tellReady d 0 u).trans ((raise_reports pgPWR 0x100 sevINFO d _).trans (incCnt_reports pgPWR 0x09C 1 _))
  refine ⟨(hreports.field State.pd0).trans hpd0, ?_, ?_, fun h2 p off ho hne hp => (?_ : _ = _).trans (hregs h2 p off ho hp)⟩
  · refine (rdB_congr ?_ d).trans hon
    exact (rd_incCnt_ne (by decide) (by decide) (by decide) ..).trans ((rd_raise (by decide) (by decide) ..).trans
      (rd_tellReady (by decide) (by decide) ..))
  · exact (ownersOf_incCnt (by decide) (by decide) ..).trans ((ownersOf_raise ..).trans
      ((funext fun p => rd_tellReady (by decide) (by decide) ..).trans howners))
  · exact (rd_incCnt_ne (by decide) ho (fun h => hp h.1) ..).trans ((rd_raise ho (fun h => hp h.1) ..).trans (rd_tellReady ho hne ..))

/-! ### A domain goes off -/

theorem mem_pagesOf {d p : Nat} (h : inDomain d p = true) : p ∈ pagesOf d := by
  unfold pagesOf allPages
  refine List.mem_filter.mpr ⟨?_, h⟩
  unfold inDomain at h
  obtain ⟨k, hk⟩ := kindOf_of_assigned (Bool.and_eq_true _ _ |>.mp h).1
  obtain ⟨r, hr, -, hlo, hhi⟩ := kindOf_row hk
  exact List.mem_flatMap.mpr ⟨r, hr, List.mem_map.mpr ⟨p - r.first, List.mem_range.mpr (by omega), by omega⟩⟩

theorem dropPage_stands (keep : Bool) (t : State) (p : Nat) :
    (dropPage keep t p).pd0 = t.pd0 ∧ (dropPage keep t p).power = t.power ∧ quietRegs (dropPage keep t p) = quietRegs t := by
  have h := powerOf_dropJobs keep p t
  exact ⟨congrArg (fun x => x.1) h, congrArg (fun x => x.2.1) h, (quietRegs_regs rfl).trans (quietRegs_dropJobs keep p t)⟩

/-- What a domain's switch-off loses: its jobs, and nothing of the orders, the owners or PD0's pages. -/
theorem dropDomain_shows (keep : Bool) (d : Nat) (s : State) :
    (dropDomain keep d s).pd0 = s.pd0 ∧ (dropDomain keep d s).power = s.power ∧ ownersOf (dropDomain keep d s) = ownersOf s ∧
      (dropDomain keep d s).jobs = ((pagesOf d).foldl (dropPage keep) s).jobs := by
  have hpages : Same (fun t => (t.pd0, t.power, quietRegs t)) s ((pagesOf d).foldl (dropPage keep) s) :=
    .foldl (fun t p => by
      obtain ⟨h0, h1, h2⟩ := dropPage_stands keep t p
      exact Prod.ext h0 (Prod.ext h1 h2)) _ s
  obtain ⟨horders, hregs⟩ := dropBlocks_stands d ((pagesOf d).foldl (dropPage keep) s)
  refine ⟨?_, ?_, ?_, ?_⟩
  · exact (congrArg (fun x => x.1) horders).trans (congrArg (fun x => x.1) hpages)
  · exact (congrArg (fun x => x.2.1) horders).trans (congrArg (fun x => x.2.1) hpages)
  · exact (ownersOf_dropRegs ..).trans ((ownersOf_regs hregs).trans (funext fun p =>
      rd_of_quiet (congrArg (fun x => x.2.2) hpages) (by decide) (by decide) p))
  · exact congrArg (fun x => x.2.2) horders

theorem domainDown_eq (keep : Bool) (d : Nat) (s : State) : domainDown keep d s =
    tellPages (incCnt pgPWR 0x09C 1 (raise pgPWR 0x101 sevINFO d (tellReady d 0x10 (wrB pgPWR 0x080 d false (dropDomain keep d s))))) := rfl

/-- PD0's pages keep their registers when another domain is dropped. -/
theorem rd_dropDomain_state (keep : Bool) {d : Nat} (hd : 1 ≤ d) (s : State) : rd (dropDomain keep d s) pgPWR 0x080 = rd s pgPWR 0x080 := by
  have hpage (t : State) (p : Nat) : rd (dropPage keep t p) pgPWR 0x080 = rd t pgPWR 0x080 :=
    rd_of_quiet (dropPage_stands keep t p).2.2 (by decide) (by decide) _
  refine (rd_dropRegs (by decide) ..).trans ((if_neg ?_).trans ?_)
  · have : inDomain d pgPWR = false := by
      unfold inDomain; rw [show domainOf pgPWR = 0 by decide]; simp; omega
    simp [this]
  · exact (rd_of_regs (dropBlocks_stands d _).2 ..).trans
      (Same.foldl (f := fun t => rd t pgPWR 0x080) hpage (pagesOf d) s)

theorem domainDown_shows (keep : Bool) {d : Nat} (hd : 1 ≤ d) (s : State) :
    (domainDown keep d s).pd0 = s.pd0 ∧ (domainDown keep d s).power = s.power ∧ ownersOf (domainDown keep d s) = ownersOf s ∧
      rd (domainDown keep d s) pgPWR 0x080 = setFld (rd s pgPWR 0x080) d d (b2n false) ∧
      (∀ p, Idle ((pagesOf d).foldl (dropPage keep) s) p → Idle (domainDown keep d s) p) ∧
      (∀ p, (pageJobs (domainDown keep d s) p).done = (pageJobs ((pagesOf d).foldl (dropPage keep) s) p).done) := by
  obtain ⟨hpd0, hpower, howners, hjobs⟩ := dropDomain_shows keep d s
  have hstate := rd_dropDomain_state keep hd s
  rw [domainDown_eq]
  generalize (pagesOf d).foldl (dropPage keep) s = v at hjobs
  generalize dropDomain keep d s = u at hpd0 hpower howners hjobs hstate
  generalize hx : incCnt pgPWR 0x09C 1 _ = x
  have hreports : ReportsOnly u x := by
    rw [← hx]; exact (wr_reports ..).trans ((reports_tellReady ..).trans ((raise_reports ..).trans (incCnt_reports ..)))
  have hxowners : ownersOf x = ownersOf u := by
    rw [← hx]
    exact (ownersOf_incCnt (by decide) (by decide) ..).trans ((ownersOf_raise ..).trans
      ((funext fun p => rd_tellReady (by decide) (by decide) ..).trans (ownersOf_wr (by decide) (by decide) ..)))
  have hxstate : rd x pgPWR 0x080 = setFld (rd u pgPWR 0x080) d d (b2n false) := by
    rw [← hx, rd_incCnt_ne (by decide) (by decide) (by decide), rd_raise (by decide) (by decide), rd_tellReady (by decide) (by decide)]
    exact rd_wrB_same ..
  have hxjobs (p : Nat) : pageJobs x p = pageJobs v p := by
    unfold pageJobs; rw [hreports.field State.jobs, hjobs]
  have htells := Tells.tellPages x
  obtain ⟨hp0, hpw⟩ := htells.power
  refine ⟨hp0.trans ((hreports.field State.pd0).trans hpd0), hpw.trans ((hreports.field State.power).trans hpower),
    htells.owners.trans (hxowners.trans howners), (htells.regs _ _ (by decide) (by decide)).trans (by rw [hxstate, hstate]),
    fun p ⟨hq, hr⟩ => ⟨htells.queue p (by rw [hxjobs]; exact hq), (htells.running p).trans (by rw [hxjobs]; exact hr)⟩,
    fun p => (htells.done p).trans (by rw [hxjobs])⟩

/-! ### The core's rails -/

theorem rd_domainDown_on {keep : Bool} {d d' : Nat} (hd : 1 ≤ d) (h8 : d < 32) (s : State) :
    domOn (domainDown keep d s) d' = (domOn s d' && (decide (d' = 0) || decide (d' ≠ d))) := by
  obtain ⟨hpd0, -, -, hstate, -, -⟩ := domainDown_shows keep hd s
  unfold domOn rdB
  rw [hpd0, hstate]
  by_cases h : d' = d
  · subst h
    have h0 : d' ≠ 0 := by omega
    rw [flag_setFld _ _ _ h8]
    simp [h0]
  · rw [flag_setFld_ne _ _ _ _ _ (Nat.le_refl _) h8 (by omega)]
    simp [h]

/-- Every domain from `d` down to 1 that is on is switched off; the power state and the owners stand. -/
def coreDown (s : State) : State :=
  [8, 7, 6, 5, 4, 3, 2, 1].foldl (fun t d => if domOn t d then domainDown false d t else t) s

theorem coreDown_shows (s : State) : (coreDown s).pd0 = s.pd0 ∧ (coreDown s).power = s.power ∧ ownersOf (coreDown s) = ownersOf s ∧
    ∀ d, 1 ≤ d → d ≤ 8 → domOn (coreDown s) d = false := by
  have hfold : ∀ (l : List Nat) (u : State), (∀ d ∈ l, 1 ≤ d ∧ d ≤ 8) →
      let t := l.foldl (fun t d => if domOn t d then domainDown false d t else t) u
      t.pd0 = u.pd0 ∧ t.power = u.power ∧ ownersOf t = ownersOf u ∧ ∀ d, (d ∈ l ∨ domOn u d = false) → domOn t d = false := by
    intro l
    induction l with
    | nil => exact fun u _ => ⟨rfl, rfl, rfl, fun d h => h.resolve_left List.not_mem_nil⟩
    | cons x l ih =>
      intro u hl
      obtain ⟨h1, h8⟩ := hl x List.mem_cons_self
      have hstep : let v := if domOn u x then domainDown false x u else u
          v.pd0 = u.pd0 ∧ v.power = u.power ∧ ownersOf v = ownersOf u ∧ ∀ d, (d = x ∨ domOn u d = false) → domOn v d = false := by
        dsimp only
        split
        · obtain ⟨hpd0, hpower, howners, -, -, -⟩ := domainDown_shows false h1 u
          refine ⟨hpd0, hpower, howners, fun d hd => ?_⟩
          rw [rd_domainDown_on h1 (by omega)]
          rcases hd with rfl | hd
          · simp; omega
          · rw [hd]; rfl
        · rename_i hoff
          exact ⟨rfl, rfl, rfl, fun d hd => hd.elim (fun h => by rw [h]; simpa using hoff) id⟩
      obtain ⟨hp, hw, ho, hd⟩ := hstep
      obtain ⟨ihp, ihw, iho, ihd⟩ := ih _ fun d hd => hl d (List.mem_cons_of_mem _ hd)
      refine ⟨ihp.trans hp, ihw.trans hw, iho.trans ho, fun d h => ihd d ?_⟩
      rcases h with h | h
      · rcases List.mem_cons.mp h with rfl | h
        · exact .inr (hd d (.inl rfl))
        · exact .inl h
      · exact .inr (hd d (.inr h))
  obtain ⟨hp, hw, ho, hd⟩ := hfold [8, 7, 6, 5, 4, 3, 2, 1] s (by decide)
  exact ⟨hp, hw, ho, fun d h1 h8 => hd d (.inl (by simp; omega))⟩

theorem setSwitching_power (l : List (Nat × Bool)) (s : State) : (setSwitching l s).power = { s.power with switching := l } := rfl

theorem domOn_setSwitching (l : List (Nat × Bool)) {d : Nat} (h8 : d ≤ 8) (s : State) : domOn (setSwitching l s) d = domOn s d := by
  have hpd0 : (setSwitching l s).pd0 = s.pd0 := wr_pd0 ..
  unfold domOn rdB
  rw [hpd0, show rd (setSwitching l s) pgPWR 0x080 = setFld (rd s pgPWR 0x080) 24 16 _ from rd_wrF_same pgPWR 0x080 24 16 _ (modPower _ s),
    flag_setFld_ne _ _ _ _ _ (by decide) (by decide) (by omega)]

theorem ownersOf_setSwitching (l : List (Nat × Bool)) (s : State) : ownersOf (setSwitching l s) = ownersOf s :=
  funext fun _ => rd_setSwitching (by decide) (by omega) ..

/-- VCORE is lost: the supervisor's rail is off and the core's domains with it. -/
theorem execVcoreLost_shows {crit : Bool} {s : State} (hpd0 : s.pd0 = true) (hon : s.power.vcoreOn = true) :
    ∃ t, execVcoreLost crit s = settle s t ∧ t.power.vcoreOn = false ∧ (∀ d, 1 ≤ d → d ≤ 8 → domOn t d = false) ∧
      t.power.switching = [] ∧ (∀ p, owner t p = owner s p) ∧ ∀ q, Told t q pgPWR 0x107 (if crit then 1 else 2) := by
  have hcond : (s.pd0 && (s.power.vcoreOn || coreBusy s)) = true := by rw [hpd0, hon]; rfl
  refine ⟨_, congrArg (settle s) (if_pos hcond), ?_⟩
  rw [if_pos hon]
  dsimp only
  generalize hu : (if crit = true then removeVcore 0 s else nextFree (removeVcore (1 + Config.freeNat s.freeCtr % 3) s)) = u
  have hoff : u.power.vcoreOn = false := by rw [← hu]; split <;> rfl
  have hregs : u.regs = s.regs := by rw [← hu]; split <;> rfl
  generalize hv : setSwitching [] (wrB pgPWR 0x08C 2 false u) = v
  have hvoff : v.power.vcoreOn = false ∧ v.power.switching = [] := by
    have h : (wrB pgPWR 0x08C 2 false u).power = u.power := wr_power ..
    rw [← hv, setSwitching_power, h]; exact ⟨hoff, rfl⟩
  have hvowners : ownersOf v = ownersOf s := by
    rw [← hv]; exact (ownersOf_setSwitching ..).trans ((ownersOf_wr (by decide) (by decide) ..).trans (ownersOf_regs hregs))
  obtain ⟨-, hpower, howners, hdomains⟩ := coreDown_shows v
  change _ ∧ _
  generalize hw : [8, 7, 6, 5, 4, 3, 2, 1].foldl (fun t d => if domOn t d then domainDown false d t else t) v = w
  change coreDown v = w at hw
  rw [hw] at hpower howners hdomains
  refine ⟨?_, fun d h1 h8 => ?_, ?_, fun p => ?_, fun q => ?_⟩
  · rw [raise_power, hpower]; exact hvoff.1
  · rw [domOn_raise]; exact hdomains d h1 h8
  · rw [raise_power, hpower]; exact hvoff.2
  · exact owner_congr ((ownersOf_raise ..).trans (howners.trans hvowners)) p
  · have h := told_raise_block (v := sevDEVICE) (by decide) q pgPWR 0x107 (if crit then 1 else 2) w
    cases crit <;> exact h

/-- Measured registers of the power page: events write none of them. -/
theorem rd_raise_power {off : Nat} (ho : off < 0x1000) (h : 0x080 ≤ off) (c v d : Nat) (s : State) :
    rd (raise pgPWR c v d s) pgPWR off = rd s pgPWR off := rd_raise ho (by omega) ..

theorem trackDeviation_shows (mv : Nat) (s : State) : (trackDeviation mv s).sup = s.sup ∧
    (trackDeviation mv s).power.supLost = s.power.supLost ∧
    ∀ off, off < 0x1000 → 0x080 ≤ off → rd (trackDeviation mv s) pgPWR off = rd s pgPWR off := by
  unfold trackDeviation
  split
  · exact ⟨rfl, rfl, fun _ _ _ => rfl⟩
  · split
    · exact ⟨rfl, rfl, fun _ _ _ => rfl⟩
    · split
      · exact ⟨rfl, rfl, fun _ _ _ => rfl⟩
      · exact ⟨raise_sup .., (congrArg PowerState.supLost (raise_power ..)).trans rfl, fun off ho h => (rd_raise_power ho h ..).trans (rd_modPower ..)⟩

/-- A measurement shows in the registers (R161). -/
theorem execSupMeasurement_shows {m : SupReport} {s : State} (hm : m.wf = true) (hpd0 : s.pd0 = true) :
    ∃ t, execSupMeasurement (some m) s = settle s t ∧ rd t pgPWR 0x090 = BitVec.ofNat 32 m.vinMv ∧
      rd t pgPWR 0x088 = BitVec.ofNat 32 (m.vcoreMv + 2 ^ 16) ∧ rd t pgPWR 0x094 = BitVec.ofNat 32 m.moduleMw ∧
      t.sup.icoreCa = m.icoreCa ∧ t.power.supLost = false := by
  unfold SupReport.wf wfBits at hm
  simp only [Bool.and_eq_true, decide_eq_true_eq] at hm
  obtain ⟨⟨⟨hvin, hvcore⟩, hicore⟩, hmw⟩ := hm
  refine ⟨_, congrArg (settle s) (if_neg (by rw [hpd0]; decide)), ?_⟩
  dsimp only
  rw [show min m.vinMv 65535 = m.vinMv by omega, show min m.vcoreMv 1023 = m.vcoreMv by omega, show min m.icoreCa 65535 = m.icoreCa by omega,
    show min m.moduleMw 65535 = m.moduleMw by omega]
  generalize hx : modPower (fun p => { p with supLost := false }) (modSup _ s) = x
  have hxsup : x.sup.icoreCa = m.icoreCa := by rw [← hx]; rfl
  have hxlost : x.power.supLost = false := by rw [← hx]; rfl
  generalize hy : wrB pgPWR 0x08C 3 _ (wrB pgPWR 0x08C 1 _ (wrB pgPWR 0x08C 0 true (wrN pgPWR 0x088 _ (wrN pgPWR 0x094 _ _)))) = y
  have hysup : y.sup = x.sup := by rw [← hy]; simp only [wrB, wrF, wrN, wr_sup]
  have hypower : y.power = x.power := by rw [← hy]; simp only [wrB, wrF, wrN, wr_power]
  have hyvin : rd y pgPWR 0x090 = BitVec.ofNat 32 m.vinMv := by
    rw [← hy, rd_wrB_other (by decide) (by decide) (by decide), rd_wrB_other (by decide) (by decide) (by decide),
      rd_wrB_other (by decide) (by decide) (by decide), rd_wrN_other (by decide) (by decide) (by decide),
      rd_wrN_other (by decide) (by decide) (by decide), rd_wrN_same]
  have hyvcore : rd y pgPWR 0x088 = BitVec.ofNat 32 (m.vcoreMv + 2 ^ 16) := by
    rw [← hy, rd_wrB_other (by decide) (by decide) (by decide), rd_wrB_other (by decide) (by decide) (by decide),
      rd_wrB_other (by decide) (by decide) (by decide), rd_wrN_same]
  have hymw : rd y pgPWR 0x094 = BitVec.ofNat 32 m.moduleMw := by
    rw [← hy, rd_wrB_other (by decide) (by decide) (by decide), rd_wrB_other (by decide) (by decide) (by decide),
      rd_wrB_other (by decide) (by decide) (by decide), rd_wrN_other (by decide) (by decide) (by decide), rd_wrN_same]
  generalize hz : (if 9000 ≤ (rd s pgPWR 0x090).toNat ∧ m.vinMv < 9000 then raise pgPWR 0x105 sevDEGRADED m.vinMv y else y) = z
  have hzsup : z.sup = y.sup ∧ z.power = y.power := by
    rw [← hz]; split
    · exact ⟨raise_sup .., raise_power ..⟩
    · exact ⟨rfl, rfl⟩
  have hzreg {off : Nat} (ho : off < 0x1000) (h : 0x080 ≤ off) : rd z pgPWR off = rd y pgPWR off := by
    rw [← hz]; split
    · exact rd_raise_power ho h ..
    · rfl
  obtain ⟨hsup, hlost, hreg⟩ := trackDeviation_shows m.vcoreMv z
  exact ⟨(hreg _ (by decide) (by decide)).trans ((hzreg (by decide) (by decide)).trans hyvin),
    (hreg _ (by decide) (by decide)).trans ((hzreg (by decide) (by decide)).trans hyvcore),
    (hreg _ (by decide) (by decide)).trans ((hzreg (by decide) (by decide)).trans hymw),
    by rw [hsup, hzsup.1, hysup]; exact hxsup, by rw [hlost, hzsup.2, hypower]; exact hxlost⟩

/-- No answer: the measurement is not valid, and it is told of once. -/
theorem execSupMeasurement_none {s : State} (hpd0 : s.pd0 = true) :
    ∃ t, execSupMeasurement none s = settle s t ∧ rdB t pgPWR 0x088 16 = false ∧ t.power.supLost = true ∧ t.sup = s.sup := by
  refine ⟨_, congrArg (settle s) (if_neg (by rw [hpd0]; decide)), ?_⟩
  dsimp only
  generalize hu : wrB pgPWR 0x088 16 false (wrB pgPWR 0x08C 0 false s) = u
  have hbit : rdB u pgPWR 0x088 16 = false := by rw [← hu]; exact rdB_wrB _ _ _ _ _ (by decide)
  have hsup : u.sup = s.sup := by rw [← hu]; rfl
  have hpower : u.power = s.power := by rw [← hu]; rfl
  split
  · rename_i hlost
    exact ⟨hbit, by rw [hpower]; exact hlost, hsup⟩
  · exact ⟨(rdB_congr ((rd_raise_power (by decide) (by decide) ..).trans (rd_modPower ..)) _).trans hbit,
      congrArg PowerState.supLost (raise_power ..), (raise_sup ..).trans hsup⟩

/-- The ramp has ended (R150). -/
theorem execVcoreDone_shows {s : State} (hpd0 : s.pd0 = true) (hramp : ramping s = true) (hvalid : rdB s pgPWR 0x088 16 = true)
    (hnear : withinMv (rdF s pgPWR 0x088 9 0) (vcoreSet s) 10 = true) :
    ∃ t, execVcoreDone s = settle s t ∧ ramping t = false ∧ vcoreSet t = vcoreSet s ∧ t.power.rampFloor = vcoreSet s := by
  refine ⟨_, congrArg (settle s) (if_pos (by rw [hpd0, hramp, hvalid, hnear]; rfl)), ?_, ?_, ?_⟩
  · exact (rdB_congr (rd_raise_power (by decide) (by decide) ..) _).trans (rdB_wrB _ _ _ _ _ (by decide))
  · refine rdF_congr ((rd_raise_power (by decide) (by decide) ..).trans ((rd_wrB_other (by decide) (by decide) (by decide) ..).trans ?_)) ..
    exact rd_modPower ..
  · exact congrArg PowerState.rampFloor (raise_power ..)

theorem execVcoreReturn_shows {s : State} (hpd0 : s.pd0 = true) (htried : s.power.trimTried = true) (hon : s.power.vcoreOn = true)
    (hidle : coreBusy s = false) :
    ∃ t, execVcoreReturn s = settle s t ∧ vcoreSet t = 800 ∧
      t.power.switching = (if s.power.trimValid then [(1, true), (2, true)] else [(1, true)]) := by
  refine ⟨_, congrArg (settle s) (if_pos (by rw [hpd0, htried, hon, hidle]; rfl)), ?_, rfl⟩
  exact (rdF_congr (rd_setSwitching (by decide) (by decide) ..) ..).trans (rdF_wrF _ _ _ _ _ _ (by decide) (by decide))

/-- Settles O15. -/
theorem domainsAndVcore : Obligations.DomainsAndVcore := by
  refine ⟨⟨fun d rest s h1 h8 hpd0 hon hnext => ?_, fun d rest s h1 h8 hpd0 hnext => ?_⟩, fun s hpd0 hramp hvalid hnear => ?_,
    fun m s hm hpd0 => ?_, fun s hpd0 => ?_, fun crit s hpd0 hon => ?_, fun s hpd0 htried hon hidle => ?_⟩
  · have hexec : execDomainOnDone d s = settle s (setSwitching rest (domainUp d s)) := by
      unfold execDomainOnDone
      rw [hnext]
      exact congrArg (settle s) (if_pos (by simp [hpd0, hon, h1, h8]))
    obtain ⟨hup, hbit, howners, hregs⟩ := domainUp_shows h8 s
    generalize domainUp d s = u at hexec hup hbit howners hregs
    refine ⟨_, hexec.trans (settle_eq ..), ?_, congrArg PowerState.switching (setSwitching_power rest u), fun p => ?_, fun h2 p off ho hne hp hheld => ?_⟩
    · refine (domOn_setSwitching rest h8 u).trans ?_
      unfold domOn; rw [hup, hpd0, hbit]; simp
    · exact owner_congr ((ownersOf_setSwitching rest u).trans howners) p
    · have hpwr : p ≠ pgPWR := by
        rintro rfl
        have : domainOf pgPWR = 0 := by decide
        unfold inDomain at hp
        simp [this] at hp
        omega
      refine (rd_setSwitching (s := u) ho (fun h => hpwr h.1) rest).trans ((hregs h2 p off ho hne hpwr).trans ?_)
      rw [rd_dropRegs ho, hp, hheld]; rfl
  · have hexec : execDomainOffDone d s = settle s (setSwitching rest (domainDown true d s)) := by
      unfold execDomainOffDone
      rw [hnext]
      exact congrArg (settle s) (if_pos (by simp [hpd0, h1, h8]))
    obtain ⟨-, -, howners, -, hidle, hdone⟩ := domainDown_shows true h1 s
    have hoff : domOn (domainDown true d s) d = false := by rw [rd_domainDown_on h1 (by omega)]; simp; omega
    generalize domainDown true d s = u at hexec howners hidle hdone hoff
    refine ⟨_, hexec.trans (settle_eq ..), ?_, congrArg PowerState.switching (setSwitching_power rest u), fun p => ?_, fun p hp => ?_⟩
    · exact (domOn_setSwitching rest h8 u).trans hoff
    · exact owner_congr ((ownersOf_setSwitching rest u).trans howners) p
    · obtain ⟨hpages, hkept⟩ := dropPages_shows (pagesOf d) s p
      obtain ⟨hqueue, hrunning⟩ := hidle p (hpages (.inl (mem_pagesOf hp)))
      exact ⟨hqueue, hrunning, fun hslow => (hdone p).trans (hkept hslow)⟩
  · obtain ⟨t, hexec, hshows⟩ := execVcoreDone_shows hpd0 hramp hvalid hnear
    exact ⟨_, hexec.trans (settle_eq ..), hshows⟩
  · obtain ⟨t, hexec, hshows⟩ := execSupMeasurement_shows hm hpd0
    exact ⟨_, hexec.trans (settle_eq ..), hshows⟩
  · obtain ⟨t, hexec, hshows⟩ := execSupMeasurement_none hpd0
    exact ⟨_, hexec.trans (settle_eq ..), hshows⟩
  · obtain ⟨t, hexec, hoff, hdomains, hswitching, howners, htold⟩ := execVcoreLost_shows (crit := crit) hpd0 hon
    exact ⟨_, hexec.trans (settle_eq ..), hoff, hdomains, hswitching, howners, htold .a, htold .b⟩
  · obtain ⟨t, hexec, hshows⟩ := execVcoreReturn_shows hpd0 htried hon hidle
    exact ⟨_, hexec.trans (settle_eq ..), hshows⟩

end Sys2Proof.Machine
end

section
/-!
PROOFS. Heat, the supervisor and the test access port (O18).
-/
namespace Sys2Proof.Machine

/-! ### Bits cleared by writing 1 -/

theorem and_low_le (a b : Nat) : (a &&& b) % 2 ≤ a % 2 ∧ (a &&& b) % 2 = a % 2 * (b % 2) := by
  have h := Nat.and_mod_two_pow (a := a) (b := b) (n := 1)
  rw [Nat.pow_one] at h
  rw [h]
  rcases Nat.mod_two_eq_zero_or_one a with ha | ha <;> rcases Nat.mod_two_eq_zero_or_one b with hb | hb <;> rw [ha, hb] <;> decide

/-- The bits of a number without those of a mask. -/
theorem testBit_sub_and (i : Nat) : ∀ a b : Nat, (a - (a &&& b)).testBit i = (a.testBit i && !b.testBit i) := by
  induction i with
  | zero =>
    intro a b
    obtain ⟨hle, hlow⟩ := and_low_le a b
    have hand := Nat.and_le_left (n := a) (m := b)
    have hmod : (a - (a &&& b)) % 2 = a % 2 - a % 2 * (b % 2) := by omega
    simp only [Nat.testBit_zero]
    rw [hmod]
    rcases Nat.mod_two_eq_zero_or_one a with ha | ha <;> rcases Nat.mod_two_eq_zero_or_one b with hb | hb <;> rw [ha, hb] <;> decide
  | succ i ih =>
    intro a b
    have hle := (and_low_le a b).1
    have hand := Nat.and_le_left (n := a) (m := b)
    have hhalf : (a - (a &&& b)) / 2 = a / 2 - (a / 2 &&& b / 2) := by
      rw [← Nat.and_div_two]; omega
    rw [Nat.testBit_succ, Nat.testBit_succ, Nat.testBit_succ, hhalf, ih]

/-! ### Heat -/

theorem ofSigned_lt (n : Nat) (x : Int) : ofSigned n x < 2 ^ n := by
  unfold ofSigned
  have hpos : (0 : Int) < 2 ^ n := Int.pow_pos (by decide)
  have h1 := Int.emod_nonneg x (Int.ne_of_gt hpos)
  have h2 := Int.emod_lt_of_pos x hpos
  have h3 : ((2 ^ n : Nat) : Int) = 2 ^ n := by simp
  omega

/-- The hottest sensor is one of those read. -/
theorem hottest_lt {l : List (Option Int)} {n : Nat} {x : Int} (h : hottest l = some (n, x)) : n < l.length := by
  have hstep (best : Option (Nat × Int)) (e : Option Int × Nat) (he : e.2 < l.length) (hb : ∀ y ∈ best, y.1 < l.length) :
      ∀ y ∈ (match e.1, best with
        | some t, some b => if b.2 < t then some (e.2, t) else best
        | some t, none => some (e.2, t)
        | none, _ => best), y.1 < l.length := by
    intro y hy
    split at hy
    · split at hy
      · cases hy; exact he
      · exact hb y hy
    · cases hy; exact he
    · exact hb y hy
  have hfold : ∀ (m : List (Option Int × Nat)) (best : Option (Nat × Int)), (∀ e ∈ m, e.2 < l.length) → (∀ y ∈ best, y.1 < l.length) →
      ∀ y ∈ m.foldl (fun best e => match e.1, best with
        | some t, some b => if b.2 < t then some (e.2, t) else best
        | some t, none => some (e.2, t)
        | none, _ => best) best, y.1 < l.length := by
    intro m
    induction m with
    | nil => exact fun best _ hb => hb
    | cons e m ih =>
      intro best hm hb
      exact ih _ (fun x hx => hm x (List.mem_cons_of_mem _ hx)) (hstep best e (hm e List.mem_cons_self) hb)
  exact hfold l.zipIdx none (fun e he => by have := List.mem_zipIdx he; omega) (fun y hy => nomatch hy) (n, x) h

/-- `THM_TJ_MAX` shows the reading, valid. -/
theorem tjWord (v n : Nat) (hv : v < 2 ^ 16) (hn : n < 16) :
    fld (BitVec.ofNat 32 (v + n * 2 ^ 16 + 2 ^ 20)) 15 0 = v ∧ flag (BitVec.ofNat 32 (v + n * 2 ^ 16 + 2 ^ 20)) 20 = true := by
  constructor
  · unfold fld bitsOf; rw [BitVec.toNat_ofNat, Nat.shiftRight_zero]; omega
  · unfold flag bitOf; rw [BitVec.toNat_ofNat, Nat.testBit_eq_decide_div_mod_eq]; simp; omega

/-- The registers of the heat page that events do not write. -/
theorem rd_raise_thm {off : Nat} (ho : off < 0x1000) (h : 0x080 ≤ off) (c v d : Nat) (s : State) :
    rd (raise pgTHM c v d s) pgTHM off = rd s pgTHM off := rd_raise ho (by omega) ..

/-- What an alert leaves: everything but the alert's own bit and count. -/
theorem assertAlert_shows (s : State) : thermAlertN (assertAlert s) = true ∧ critN (assertAlert s) = critN s ∧
    (assertAlert s).heat = s.heat ∧ rd (assertAlert s) pgTHM 0x0A0 = rd s pgTHM 0x0A0 := by
  unfold assertAlert
  split
  · rename_i h; exact ⟨h, rfl, rfl, rfl⟩
  · refine ⟨?_, ?_, ?_, ?_⟩
    · exact (rdB_congr (rd_incCnt_ne (by decide) (by decide) (by decide) ..) _).trans (rdB_wrB _ _ _ _ _ (by decide))
    · exact (rdB_congr (rd_incCnt_ne (by decide) (by decide) (by decide) ..) _).trans (rdB_wrB_ne _ _ _ _ _ _ (by decide) (by decide))
    · rw [incCnt_heat]; exact wr_heat ..
    · exact (rd_incCnt_ne (by decide) (by decide) (by decide) ..).trans (rd_wrB_other (by decide) (by decide) (by decide) ..)

theorem alertRule_shows (n : Nat) (x : Int) (s : State) : critN (alertRule n x s) = critN s ∧ (alertRule n x s).heat = s.heat ∧
    rd (alertRule n x s) pgTHM 0x0A0 = rd s pgTHM 0x0A0 := by
  obtain ⟨-, hcrit, hheat, htj⟩ := assertAlert_shows s
  unfold alertRule; dsimp only
  split
  · split
    · exact ⟨rfl, rfl, rfl⟩
    · exact ⟨(rdB_congr (rd_raise_thm (by decide) (by decide) ..) _).trans hcrit, (raise_heat ..).trans hheat,
        (rd_raise_thm (by decide) (by decide) ..).trans htj⟩
  · split
    · exact ⟨(rdB_congr (rd_raise_thm (by decide) (by decide) ..) _).trans (rdB_wrB_ne _ _ _ _ _ _ (by decide) (by decide)),
        (raise_heat ..).trans (wr_heat ..),
        (rd_raise_thm (by decide) (by decide) ..).trans (rd_wrB_other (by decide) (by decide) (by decide) ..)⟩
    · exact ⟨rfl, rfl, rfl⟩

theorem critRule_shows (n : Nat) (x : Int) (s : State) :
    critN (critRule n x s) = (if 2000 ≤ x then true else if x < 1920 then false else critN s) ∧ (critRule n x s).heat = s.heat ∧
      rd (critRule n x s) pgTHM 0x0A0 = rd s pgTHM 0x0A0 := by
  unfold critRule; dsimp only
  by_cases hhot : 2000 ≤ x
  · rw [if_pos hhot, if_pos hhot]
    split
    · rename_i h; exact ⟨h, rfl, rfl⟩
    · exact ⟨(rdB_congr (rd_raise_thm (by decide) (by decide) ..) _).trans (rdB_wrB _ _ _ _ _ (by decide)),
        (raise_heat ..).trans (wr_heat ..),
        (rd_raise_thm (by decide) (by decide) ..).trans (rd_wrB_other (by decide) (by decide) (by decide) ..)⟩
  · rw [if_neg hhot, if_neg hhot]
    by_cases hcool : x < 1920
    · rw [if_pos hcool]
      split
      · exact ⟨(rdB_congr (rd_raise_thm (by decide) (by decide) ..) _).trans (rdB_wrB _ _ _ _ _ (by decide)),
          (raise_heat ..).trans ((wr_heat ..).trans rfl),
          (rd_raise_thm (by decide) (by decide) ..).trans ((rd_wrB_other (by decide) (by decide) (by decide) ..).trans (rd_modSup ..))⟩
      · rename_i h
        refine ⟨?_, rfl, rfl⟩
        simpa [hcool] using h
    · rw [if_neg hcool, if_neg (by simp [hcool])]
      exact ⟨rfl, rfl, rfl⟩

/-- A sample with a hottest sensor. -/
theorem seeHottest_shows {n : Nat} {x : Int} (hn : n < 16) (s : State) :
    rdF (seeHottest n x s) pgTHM 0x0A0 15 0 = ofSigned 16 x ∧ rdB (seeHottest n x s) pgTHM 0x0A0 20 = true ∧
      (seeHottest n x s).heat.lastAt = s.heat.lastAt ∧
      critN (seeHottest n x s) = (if 2000 ≤ x then true else if x < 1920 then false else critN s) := by
  obtain ⟨hlow, hbit⟩ := tjWord _ n (ofSigned_lt 16 x) hn
  unfold seeHottest; dsimp only
  generalize ofSigned 16 x + n * 2 ^ 16 + 2 ^ 20 = k at hlow hbit ⊢
  generalize hu : wrN pgTHM 0x0A0 _ { s with heat := { s.heat with blind := false } } = u
  have htj : rd u pgTHM 0x0A0 = BitVec.ofNat 32 k := by rw [← hu]; exact rd_wrN_same ..
  have hcrit : critN u = critN s := by
    rw [← hu]; exact rdB_congr ((rd_wrN_other (by decide) (by decide) (by decide) ..).trans (rd_of_regs rfl ..)) _
  have hheat : u.heat.lastAt = s.heat.lastAt := by rw [← hu, wrN, wr_heat]
  generalize hv : (if toSigned 16 (rdF u pgTHM 0x0B0 15 0) < x then wrN pgTHM 0x0B0 (ofSigned 16 x) u else u) = v
  have hpeak : rd v pgTHM 0x0A0 = rd u pgTHM 0x0A0 ∧ critN v = critN u ∧ v.heat = u.heat := by
    rw [← hv]; split
    · exact ⟨rd_wrN_other (by decide) (by decide) (by decide) .., rdB_congr (rd_wrN_other (by decide) (by decide) (by decide) ..) _, wr_heat ..⟩
    · exact ⟨rfl, rfl, rfl⟩
  obtain ⟨hpeakTj, hpeakCrit, hpeakHeat⟩ := hpeak
  obtain ⟨halertCrit, halertHeat, halertTj⟩ := alertRule_shows n x v
  obtain ⟨hcritCrit, hcritHeat, hcritTj⟩ := critRule_shows n x (alertRule n x v)
  have hword := (hcritTj.trans (halertTj.trans hpeakTj)).trans htj
  refine ⟨?_, ?_, ?_, ?_⟩
  · unfold rdF; rw [hword]; exact hlow
  · unfold rdB; rw [hword]; exact hbit
  · rw [hcritHeat, halertHeat, hpeakHeat]; exact hheat
  · rw [hcritCrit, halertCrit, hpeakCrit, hcrit]

/-- No valid sensor (R158). -/
theorem goBlind_shows (s : State) : critN (goBlind s) = true ∧ thermAlertN (goBlind s) = true ∧ rdB (goBlind s) pgTHM 0x0A0 20 = false := by
  unfold goBlind; dsimp only
  generalize (if s.heat.blind = true then s else raise pgTHM 0x105 sevBLOCK 0 { s with heat := { s.heat with blind := true } }) = u
  obtain ⟨halert, -, -, -⟩ := assertAlert_shows u
  refine ⟨?_, ?_, ?_⟩
  · exact (rdB_congr (rd_wrN_other (by decide) (by decide) (by decide) ..) _).trans (rdB_wrB _ _ _ _ _ (by decide))
  · exact (rdB_congr (rd_wrN_other (by decide) (by decide) (by decide) ..) _).trans
      ((rdB_wrB_ne _ _ _ _ _ _ (by decide) (by decide)).trans halert)
  · exact (congrArg (fun w => flag w 20) (rd_wrN_same ..)).trans (by decide)

/-- A fold keeps what each of its steps keeps. -/
theorem foldl_keeps_mem {α β : Type} (P : β → Prop) (f : β → α → β) (l : List α) (h : ∀ b, ∀ a ∈ l, P b → P (f b a)) {b : β} (hb : P b) :
    P (l.foldl f b) := by
  induction l generalizing b with
  | nil => exact hb
  | cons a l ih => exact ih (fun b x hx => h b x (List.mem_cons_of_mem _ hx)) (h b a List.mem_cons_self hb)

theorem writeSensors_shows (l : List (Option Int)) (s : State) : critN (writeSensors l s) = critN s ∧ (writeSensors l s).heat = s.heat := by
  unfold writeSensors; dsimp only
  generalize hw : (fun i : Nat => match (l[i]?).getD none with | some t => ofSigned 16 t | none => 0x8000) = w
  have hfold := foldl_keeps_mem (fun t => rd t pgTHM 0x0A8 = rd s pgTHM 0x0A8 ∧ t.heat = s.heat)
    (fun t m => wrN pgTHM (0x080 + 4 * m) (w (2 * m) + w (2 * m + 1) * 2 ^ 16) t) (List.range 8)
    (fun t m hm ⟨hr, hh⟩ => by
      have := List.mem_range.mp hm
      exact ⟨(rd_wrN_other (by omega) (by decide) (by omega) ..).trans hr, by rw [wrN, wr_heat, hh]⟩) (b := s) ⟨rfl, rfl⟩
  subst hw
  obtain ⟨hr, hh⟩ := hfold
  refine ⟨rdB_congr ((rd_wrN_other (by decide) (by decide) (by decide) ..).trans hr) _, ?_⟩
  rw [wrN, wr_heat]; exact hh

theorem sensorFaults_shows (l : List (Option Int)) (ok : Word) (first : Bool) (s : State) : critN (sensorFaults l ok first s) = critN s ∧
    (sensorFaults l ok first s).heat = s.heat :=
  foldl_keeps (fun t => critN t = critN s ∧ t.heat = s.heat) _ (fun t e h => by
    split
    · exact ⟨(rdB_congr (rd_raise_thm (by decide) (by decide) ..) _).trans h.1, (raise_heat ..).trans h.2⟩
    · exact h) _ ⟨rfl, rfl⟩

/-- A sample as it was due: the sensors first, then the pins. -/
theorem execThmSample_due {l : List (Option Int)} {s : State} (hpd0 : s.pd0 = true)
    (hdue : s.heat.sampled = false ∨ s.heat.lastAt + 100000 ≤ now s) :
    ∃ u : State, critN u = critN s ∧ u.heat.lastAt = now s ∧
      execThmSample l s = settle s (match hottest (sixteen l) with | none => goBlind u | some h => seeHottest h.1 h.2 u) := by
  have hcond : (s.pd0 && (!s.heat.sampled || decide (s.heat.lastAt + 100000 ≤ now s))) = true := by
    rcases hdue with h | h <;> simp [hpd0, h]
  unfold execThmSample
  rw [if_pos hcond]
  obtain ⟨hcrit, -⟩ := sensorFaults_shows (sixteen l) (rd s pgTHM 0x0AC) (!s.heat.sampled) s
  dsimp only
  generalize sensorFaults (sixteen l) (rd s pgTHM 0x0AC) (!s.heat.sampled) s = t at hcrit
  obtain ⟨hwcrit, hwheat⟩ := writeSensors_shows (sixteen l) { t with heat := { t.heat with sampled := true, lastAt := now s } }
  exact ⟨_, hwcrit.trans ((rdB_congr (rd_of_regs rfl ..) _).trans hcrit), congrArg HeatState.lastAt hwheat, rfl⟩

theorem effPeakClr_eq (s : State) : effPeakClr s = wrN pgTHM 0x0B0 (rdF s pgTHM 0x0A0 15 0) s := rfl

/-! ### The supervisor -/

theorem bitOf_or_two_pow (n i : Nat) : bitOf (n ||| 2 ^ i) i = true := by unfold bitOf; simp

theorem removeVcore_shows (bit : Nat) (s : State) : (removeVcore bit s).power.vcoreOn = false ∧
    (removeVcore bit s).sup.removals = (s.sup.removals + 1) % 256 ∧ bitOf (removeVcore bit s).sup.cause bit = true ∧
    (removeVcore bit s).regs = s.regs := ⟨rfl, rfl, bitOf_or_two_pow .., rfl⟩

/-- The bit of `SUP_CAUSE` of a protection. -/
def protectionBit (p : Protection) : Nat := match p with | .overcurrent => 1 | .overvoltage => 2 | .undervoltage => 3

theorem execSupProtection_eq {p : Protection} {s : State} (hon : s.power.vcoreOn = true)
    (hnot : ¬(p = .undervoltage ∧ s.pd0 = true ∧ ramping s = true)) :
    execSupProtection p s = settle s (removeVcore (protectionBit p) s) := by
  refine congrArg (settle s) (if_pos ?_)
  refine Classical.byContradiction fun h => ?_
  simp only [hon, Bool.true_and, Bool.not_eq_true, Bool.not_eq_false', Bool.and_eq_true, decide_eq_true_eq] at h
  exact hnot ⟨h.1.1, h.1.2, h.2⟩

/-- CRIT_N seen, or not: without a removal the rails stand. -/
theorem execSupCritEval_stays {s : State} (h : critSeen s = false ∨ s.sup.critAction = false ∨ s.sup.critMs < s.sup.critDelay) :
    execSupCritEval [] s = settle s (modSup (fun u => { u with critMs := if critSeen s then s.sup.critMs + 1 else 0 }) s) := by
  refine congrArg (settle s) ?_
  by_cases hcrit : critSeen s = true
  · have hnot : (s.sup.critAction && s.power.vcoreOn && decide (s.sup.critDelay ≤ s.sup.critMs)) = false := by
      rcases h with h | h | h
      · rw [hcrit] at h; cases h
      · rw [h]; rfl
      · rw [decide_eq_false (by omega), Bool.and_false]
    refine (if_neg (by simp [hcrit])).trans ((if_neg (Bool.eq_false_iff.mp hnot)).trans ?_)
    rw [if_pos hcrit]; rfl
  · refine (if_pos (by simpa using hcrit)).trans ?_
    rw [if_neg hcrit]; rfl

/-! ### The test access port -/

theorem exec_jtag (tms tdi : Bool) {s : State} (hpd0 : s.pd0 = true) : exec (.jtagBoundaryScan tms tdi false) s =
    .next { s with jtag := tapEnter (s.jtag.tap.step tms) (tapAct tdi s), freeCtr := s.freeCtr + 1 } := by
  show execJtagBoundaryScan tms tdi false s = _
  unfold execJtagBoundaryScan
  rw [if_neg (by rw [hpd0]; decide), if_neg (by decide)]
  rfl

theorem tapEnter_tap (n : TapState) (j : JtagState) : (tapEnter n j).tap = n := by
  unfold tapEnter
  cases n <;> dsimp only
  case updateDr => split <;> rfl

theorem tapAct_shiftDr {tdi : Bool} {s : State} (h : s.jtag.tap = .shiftDr) : (tapAct tdi s).dr = s.jtag.dr.drop 1 ++ [tdi] := by
  unfold tapAct; dsimp only; rw [h]

theorem tapEnter_dr_of_shift (tms : Bool) (j : JtagState) : (tapEnter (TapState.step tms .shiftDr) j).dr = j.dr := by cases tms <;> rfl

/-- One step of a queue of scans. -/
theorem step_jtag (tms tdi : Bool) (rest : List Instr) {s : State} (hpd0 : s.pd0 = true) :
    step { s with pending := .jtagBoundaryScan tms tdi false :: rest } =
      .next { s with jtag := tapEnter (s.jtag.tap.step tms) (tapAct tdi s), freeCtr := s.freeCtr + 1, pending := rest } :=
  exec_jtag tms tdi (s := { s with pending := rest }) hpd0

/-- Five cycles with TMS high reach Test-Logic-Reset from every state. -/
theorem tap_five (t : TapState) : (((((t.step true).step true).step true).step true).step true) = .testLogicReset := by cases t <;> rfl

theorem run_succ {k : Nat} {s t : State} (h : step s = .next t) : Host.Core.run Sys2Proof.core (k + 1) s = Host.Core.run Sys2Proof.core k t := by
  have hstep : Sys2Proof.core.step s = .next t := h
  simp only [Host.Core.run, hstep]

/-- The state after a scan with TMS high. -/
def afterScan (tdi : Bool) (rest : List Instr) (s : State) : State :=
  { s with jtag := tapEnter (s.jtag.tap.step true) (tapAct tdi s), freeCtr := s.freeCtr + 1, pending := rest }

theorem run_scan {k : Nat} {tdi : Bool} {rest : List Instr} {s : State} (hpd0 : s.pd0 = true)
    (hp : s.pending = .jtagBoundaryScan true tdi false :: rest) :
    Host.Core.run Sys2Proof.core (k + 1) s = Host.Core.run Sys2Proof.core k (afterScan tdi rest s) := by
  have hs : s = { s with pending := .jtagBoundaryScan true tdi false :: rest } := by rw [← hp]
  refine run_succ ?_
  rw [hs]
  exact step_jtag true tdi rest hpd0

theorem afterScan_tap (tdi : Bool) (rest : List Instr) (s : State) : (afterScan tdi rest s).jtag.tap = s.jtag.tap.step true := tapEnter_tap ..

theorem afterScan_pd0 (tdi : Bool) (rest : List Instr) (s : State) : (afterScan tdi rest s).pd0 = s.pd0 := rfl

theorem afterScan_reset {tdi : Bool} {rest : List Instr} {s : State} (h : s.jtag.tap.step true = .testLogicReset) :
    (afterScan tdi rest s).jtag.insn = .idcode := by
  unfold afterScan; rw [h]; rfl

/-- A queue of scans with TMS high runs empty; the controller has taken as many steps. -/
theorem run_scans : ∀ (ds : List Bool) (s : State), s.pd0 = true → s.pending = ds.map (.jtagBoundaryScan true · false) →
    ∃ t, Host.Core.run Sys2Proof.core ds.length s = .next t ∧ t.pending = [] ∧
      t.jtag.tap = ds.foldl (fun x _ => x.step true) s.jtag.tap ∧ (ds ≠ [] → t.jtag.tap = .testLogicReset → t.jtag.insn = .idcode)
  | [], s, _, hp => ⟨s, rfl, hp, rfl, fun h => absurd rfl h⟩
  | d :: ds, s, hpd0, hp => by
    obtain ⟨t, hrun, hpending, htap, hinsn⟩ := run_scans ds (afterScan d (ds.map (.jtagBoundaryScan true · false)) s)
      ((afterScan_pd0 ..).trans hpd0) rfl
    refine ⟨t, (run_scan hpd0 hp).trans hrun, hpending, ?_, fun _ hreset => ?_⟩
    · rw [htap, afterScan_tap]; rfl
    · cases ds with
      | nil =>
        cases hrun
        exact afterScan_reset ((afterScan_tap ..).symm.trans hreset)
      | cons d' ds => exact hinsn (List.cons_ne_nil _ _) hreset

/-! ### The statement -/

/-- Settles O18. -/
theorem heatSupervisorAndJtag : Obligations.HeatSupervisorAndJtag := by
  refine ⟨⟨fun l n x s hpd0 hdue hhot => ?_, fun l s hpd0 hdue hnone => ?_, fun q s hmay => ?_⟩,
    ⟨fun p s hon hnot => ?_, fun s hcrit haction hon hlate => ?_, fun s hnot => ?_, fun v s hv hpg hcrit hvin hoff => ?_, fun bits s => ?_⟩,
    fun tms tdi s hpd0 => ?_, fun d0 d1 d2 d3 d4 s hpd0 => ?_⟩
  · obtain ⟨u, hcrit, hat, hexec⟩ := execThmSample_due hpd0 hdue
    have hn : n < 16 := hottest_lt hhot
    rw [hhot] at hexec
    obtain ⟨htj, hvalid, hlast, hpin⟩ := seeHottest_shows (x := x) hn u
    rw [hcrit] at hpin
    exact ⟨_, hexec.trans (settle_eq ..), htj, hvalid, hlast.trans hat, hpin⟩
  · obtain ⟨u, -, -, hexec⟩ := execThmSample_due hpd0 hdue
    rw [hnone] at hexec
    exact ⟨_, hexec.trans (settle_eq ..), goBlind_shows u⟩
  · refine ⟨_, (congrArg (settle s) (gateWrite_mayWrite hmay)).trans (settle_eq ..), rd_wrN_same .., fun off ho hne => ?_, ?_⟩
    · exact rd_wrN_other (s := s) (by decide) ho (by omega) _
    · exact regsStandBut_wr (by decide) pgTHM _ s
  · obtain ⟨hoff, hremovals, hcause, hregs⟩ := removeVcore_shows (protectionBit p) s
    exact ⟨_, (execSupProtection_eq hon hnot).trans (settle_eq ..), hoff, hremovals, by cases p <;> exact hcause, hregs⟩
  · refine ⟨_, (congrArg (settle s) ((if_neg (by simp [hcrit])).trans (if_pos ?_))).trans (settle_eq ..), rfl, bitOf_or_two_pow ..⟩
    simp [haction, hon, hlate]
  · exact ⟨_, (execSupCritEval_stays hnot).trans (settle_eq ..), rfl, rfl⟩
  · exact ⟨_, (congrArg (settle s) (if_pos (by simp [hv, hpg, hcrit, hvin, hoff]))).trans (settle_eq ..), rfl, rfl, rfl⟩
  · refine ⟨_, settle_eq .., fun i => ?_, rfl⟩
    exact testBit_sub_and i s.sup.cause bits
  · refine ⟨_, exec_jtag tms tdi hpd0, tapEnter_tap .., fun h => ?_, rfl, rfl, rfl⟩
    exact (congrArg (fun t => (tapEnter (TapState.step tms t) (tapAct tdi s)).dr) h).trans
      ((tapEnter_dr_of_shift tms _).trans (tapAct_shiftDr h))
  · obtain ⟨t, hrun, hpending, htap, hinsn⟩ := run_scans [d0, d1, d2, d3, d4] { s with pending :=
      [.jtagBoundaryScan true d0 false, .jtagBoundaryScan true d1 false, .jtagBoundaryScan true d2 false,
        .jtagBoundaryScan true d3 false, .jtagBoundaryScan true d4 false] } hpd0 rfl
    have hreset : t.jtag.tap = .testLogicReset := htap.trans (tap_five _)
    exact ⟨t, hrun, hreset, hinsn (List.cons_ne_nil _ _) hreset, hpending⟩

end Sys2Proof.Machine
end

section
/-!
PROOFS. Votes, windows and the orders on pages (O16).
-/
namespace Sys2Proof.Machine

/-! ### The registers of the joint-order unit -/

theorem fld_lt (w : Word) (hi lo : Nat) : fld w hi lo < 2 ^ (hi + 1 - lo) := Nat.mod_lt _ (Nat.two_pow_pos _)

theorem voteOrder_lt (s : State) (q : Port) : voteOrder s q < 256 := fld_lt ..

theorem jntSeq_lt (s : State) : jntSeq s < 2 ^ 16 := fld_lt ..

theorem rd64_lt (s : State) (p off : Nat) : rd64 s p off < 2 ^ 64 := by
  have hlo := (rd s p off).isLt
  have hhi := (rd s p (off + 4)).isLt
  unfold rd64; omega

/-- An event of the joint-order unit: told to both ports (R121). -/
theorem told_jnt {c v : Nat} (hc : 0x100 ≤ c) (hv : v < sevBLOCK) {d : Nat} (hd : d < 2 ^ 32) (q : Port) (s : State) :
    Told (raise pgJNT c v d s) q pgJNT c d := by
  have h : destOf s pgJNT c v (evtBit pgJNT c v) = (true, true) := by
    rw [destOf, if_neg (Nat.not_le.mpr hv), show kindOf pgJNT = some .jnt by decide]
    exact if_pos hc
  have := told_raise (d := d) (q := q) (s := s) (by rw [h]; cases q <;> rfl)
  rwa [Nat.mod_eq_of_lt hd] at this

theorem rd_raise_jnt {off : Nat} (ho : off < 0x1000) (h : 0x080 ≤ off) (c v d : Nat) (s : State) :
    rd (raise pgJNT c v d s) pgJNT off = rd s pgJNT off := rd_raise ho (by omega) ..

theorem rd_wr64_other {p off p' off' : Nat} (ho : off + 4 < 0x1000) (ho' : off' < 0x1000) (hne : ¬(p' = p ∧ (off' = off ∨ off' = off + 4)))
    (v : Nat) (s : State) : rd (wr64 p off v s) p' off' = rd s p' off' :=
  (rd_wrN_other (by omega) ho' (by omega) ..).trans (rd_wrN_other (by omega) ho' (by omega) ..)

/-- A ballot's order word. -/
theorem ballotWord (o : Nat) (b : Bool) (ho : o < 256) :
    fld (BitVec.ofNat 32 (o + b2n b * 2 ^ 8)) 7 0 = o ∧ flag (BitVec.ofNat 32 (o + b2n b * 2 ^ 8)) 8 = b := by
  constructor
  · unfold fld bitsOf; rw [BitVec.toNat_ofNat, Nat.shiftRight_zero]; cases b <;> simp [b2n] <;> omega
  · unfold flag bitOf; rw [BitVec.toNat_ofNat, Nat.testBit_eq_decide_div_mod_eq]; cases b <;> simp [b2n] <;> omega

/-- A ballot is a snapshot of the vote registers (R123). -/
theorem setBallot_shows (q : Port) (b : Bool) (s : State) :
    ballotOrder (setBallot q b s) q = voteOrder s q ∧ ballotOpen (setBallot q b s) q = b ∧ ballotArg (setBallot q b s) q = voteArg s q ∧
      ∀ p off, off < 0x1000 → ¬(p = pgJNT ∧ 0x0E0 ≤ off ∧ off < 0x0FC) → rd (setBallot q b s) p off = rd s p off := by
  obtain ⟨hlow, hbit⟩ := ballotWord (voteOrder s q) b (voteOrder_lt s q)
  generalize hk : voteOrder s q + b2n b * 2 ^ 8 = k at hlow hbit
  have hq : q.num ≤ 1 := by cases q <;> decide
  have hword : rd (setBallot q b s) pgJNT (0x0E0 + 0x10 * q.num) = BitVec.ofNat 32 k := by
    unfold setBallot; rw [hk]
    exact (rd_wr64_other (by omega) (by omega) (by omega) ..).trans (rd_wrN_same ..)
  refine ⟨?_, ?_, ?_, fun p off ho hne => ?_⟩
  · unfold ballotOrder rdF; rw [hword]; exact hlow
  · unfold ballotOpen rdB; rw [hword]; exact hbit
  · unfold ballotArg setBallot
    rw [rd64_wr64]
    exact Nat.mod_eq_of_lt (rd64_lt ..)
  · unfold setBallot
    exact (rd_wr64_other (by omega) ho (by omega) ..).trans (rd_wrN_other (by omega) ho (by omega) ..)

/-! ### The opening cast -/

/-- The sequence number advances; the rest of the window's word stands. -/
theorem nextSeq_shows (s : State) : jntSeq (nextSeq s) = (jntSeq s + 1) % 2 ^ 16 ∧
    ∀ p off, off < 0x1000 → ¬(p = pgJNT ∧ off = 0x0A0) → rd (nextSeq s) p off = rd s p off :=
  ⟨rdF_wrF _ _ _ _ _ _ (by decide) (by decide), fun _ _ ho hne => rd_wrF_other (by decide) ho hne ..⟩

/-- The window's own registers as the opening cast leaves them. -/
def windowOpened (n : Nat) (b : Bool) (t : State) : State := wr64 pgJNT 0x0A8 n (wrB pgJNT 0x0A0 1 b (wrB pgJNT 0x0A0 0 true t))

theorem windowOpened_shows (n : Nat) (b : Bool) (t : State) : jntOpen (windowOpened n b t) = true ∧ jntSeq (windowOpened n b t) = jntSeq t ∧
    (windowOpened n b t).power = t.power ∧
    ∀ p off, off < 0x1000 → ¬(p = pgJNT ∧ (off = 0x0A0 ∨ off = 0x0A8 ∨ off = 0x0AC)) → rd (windowOpened n b t) p off = rd t p off := by
  have hword : rd (windowOpened n b t) pgJNT 0x0A0 = setFld (setFld (rd t pgJNT 0x0A0) 0 0 (b2n true)) 1 1 (b2n b) := by
    unfold windowOpened; rw [rd_wr64_other (by decide) (by decide) (by decide), rd_wrB_same, rd_wrB_same]
  refine ⟨?_, ?_, ((wrB_reports ..).trans ((wrB_reports ..).trans (wr64_reports ..))).field State.power, fun p off ho hne => ?_⟩
  · unfold jntOpen rdB
    rw [hword, flag_setFld_ne _ _ _ _ _ (by decide) (by decide) (by decide)]
    exact flag_setFld _ 0 true (by decide)
  · unfold jntSeq rdF
    rw [hword, fld_setFld_ne _ _ _ _ _ _ (by decide) (by decide) (by decide), fld_setFld_ne _ _ _ _ _ _ (by decide) (by decide) (by decide)]
  · unfold windowOpened
    rw [rd_wr64_other (by decide) ho (by omega), rd_wrB_other (by decide) ho (by omega), rd_wrB_other (by decide) ho (by omega)]

theorem ballot_off_lt (q : Port) : 0x0E0 + 0x10 * q.num < 0x1000 := by cases q <;> decide

theorem openDetail_lt (s : State) (q : Port) : voteOrder s q + q.num * 2 ^ 8 + (jntSeq s + 1) % 2 ^ 16 * 2 ^ 16 < 2 ^ 32 := by
  have horder := voteOrder_lt s q
  have hseq : (jntSeq s + 1) % 2 ^ 16 < 2 ^ 16 := Nat.mod_lt _ (by decide)
  have hq : q.num ≤ 1 := by cases q <;> decide
  omega

theorem rd_with_joint (j : JointState) (p off : Nat) (u : State) : rd { u with joint := j } p off = rd u p off := rfl

theorem power_with_joint (j : JointState) (u : State) : ({ u with joint := j } : State).power = u.power := rfl

/-- The opening cast but for its event. -/
def opened (q : Port) (s : State) : State :=
  { windowOpened (now s) (q = .b) (setBallot q true (nextSeq s)) with joint := ⟨now s + rdF s pgJNT 0x0A4 9 0 * 1000000⟩ }

theorem openWindow_eq (q : Port) (s : State) : openWindow q s = raise pgJNT 0x105 sevINFO
    (voteOrder s q + q.num * 2 ^ 8 + jntSeq (opened q s) * 2 ^ 16) (opened q s) := by
  unfold openWindow opened; rfl

theorem opened_shows (q : Port) (s : State) :
    jntOpen (opened q s) = true ∧ ballotOpen (opened q s) q = true ∧ ballotOrder (opened q s) q = voteOrder s q ∧
      ballotArg (opened q s) q = voteArg s q ∧ (opened q s).power = s.power ∧
      ∀ p off, off < 0x1000 → p ≠ pgJNT → rd (opened q s) p off = rd s p off := by
  have hq : q.num ≤ 1 := by cases q <;> decide
  have hnext := (nextSeq_shows s).2
  have hvote : voteOrder (nextSeq s) q = voteOrder s q ∧ voteArg (nextSeq s) q = voteArg s q :=
    ⟨rdF_congr (hnext _ _ (by omega) (by omega)) .., rd64_congr (hnext _ _ (by omega) (by omega)) (hnext _ _ (by omega) (by omega))⟩
  have hnpower : (nextSeq s).power = s.power := (wrF_reports ..).field State.power
  unfold opened
  obtain ⟨hborder, hbopen, hbarg, hbother⟩ := setBallot_shows q true (nextSeq s)
  have htpower : (setBallot q true (nextSeq s)).power = s.power :=
    (((wrN_reports ..).trans (wr64_reports ..)).field State.power).trans hnpower
  generalize setBallot q true (nextSeq s) = t at hborder hbopen hbarg hbother htpower
  obtain ⟨huopen, -, hupower, huother⟩ := windowOpened_shows (now s) (q = .b) t
  generalize windowOpened (now s) (q = .b) t = u at huopen hupower huother
  have hvregs := fun p off => rd_with_joint ⟨now s + rdF s pgJNT 0x0A4 9 0 * 1000000⟩ p off u
  have hvpower := power_with_joint ⟨now s + rdF s pgJNT 0x0A4 9 0 * 1000000⟩ u
  generalize { u with joint := ⟨now s + rdF s pgJNT 0x0A4 9 0 * 1000000⟩ } = v at hvregs hvpower
  refine ⟨(rdB_congr (hvregs ..) _).trans huopen, ?_, ?_, ?_, ?_, fun p off ho hp => ?_⟩
  · exact (rdB_congr ((hvregs ..).trans (huother _ _ (by omega) (by omega))) _).trans hbopen
  · exact (rdF_congr ((hvregs ..).trans (huother _ _ (by omega) (by omega))) ..).trans (hborder.trans hvote.1)
  · exact (rd64_congr ((hvregs ..).trans (huother _ _ (by omega) (by omega)))
      ((hvregs ..).trans (huother _ _ (by omega) (by omega)))).trans (hbarg.trans hvote.2)
  · rw [hvpower, hupower, htpower]
  · rw [hvregs, huother p off ho (fun h => hp h.1), hbother p off ho (fun h => hp h.1), hnext p off ho (fun h => hp h.1)]

theorem jntSeq_opened (q : Port) (s : State) : jntSeq (opened q s) = (jntSeq s + 1) % 2 ^ 16 := by
  have hregs : jntSeq (opened q s) = jntSeq (windowOpened (now s) (q = .b) (setBallot q true (nextSeq s))) := rdF_congr (rd_with_joint ..) ..
  rw [hregs, (windowOpened_shows ..).2.1]
  exact (rdF_congr ((setBallot_shows q true (nextSeq s)).2.2.2 _ _ (by decide) (by decide)) ..).trans (nextSeq_shows s).1

theorem openWindow_shows (q : Port) (s : State) :
    jntOpen (openWindow q s) = true ∧ ballotOpen (openWindow q s) q = true ∧ ballotOrder (openWindow q s) q = voteOrder s q ∧
      ballotArg (openWindow q s) q = voteArg s q ∧ jntSeq (openWindow q s) = (jntSeq s + 1) % 2 ^ 16 ∧
      (openWindow q s).joint.windowEnd = now s + rdF s pgJNT 0x0A4 9 0 * 1000000 ∧ RegsStandBut [pgJNT] s (openWindow q s) ∧
      (openWindow q s).power = s.power ∧
      ∀ r, Told (openWindow q s) r pgJNT 0x105 (voteOrder s q + q.num * 2 ^ 8 + (jntSeq s + 1) % 2 ^ 16 * 2 ^ 16) := by
  have hq : q.num ≤ 1 := by cases q <;> decide
  obtain ⟨hopen, hbopen, hborder, hbarg, hpower, hother⟩ := opened_shows q s
  have hseq := jntSeq_opened q s
  have hjoint : (opened q s).joint.windowEnd = now s + rdF s pgJNT 0x0A4 9 0 * 1000000 := rfl
  rw [openWindow_eq, hseq]
  generalize opened q s = v at hopen hbopen hborder hbarg hpower hother hseq hjoint
  have hraise {off : Nat} (ho : off < 0x1000) (h : 0x080 ≤ off) (d : Nat) : rd (raise pgJNT 0x105 sevINFO d v) pgJNT off = rd v pgJNT off :=
    rd_raise_jnt ho h ..
  refine ⟨?_, ?_, ?_, ?_, ?_, ?_, ?_, ?_, fun r => told_jnt (by decide) (by decide) (openDetail_lt s q) r v⟩
  · exact (rdB_congr (hraise (by decide) (by decide) _) _).trans hopen
  · exact (rdB_congr (hraise (ballot_off_lt q) (Nat.le_add_right_of_le (by decide)) _) _).trans hbopen
  · exact (rdF_congr (hraise (ballot_off_lt q) (Nat.le_add_right_of_le (by decide)) _) ..).trans hborder
  · exact (rd64_congr (hraise (by omega) (by omega) _) (hraise (by omega) (by omega) _)).trans hbarg
  · exact (rdF_congr (hraise (by decide) (by decide) _) ..).trans hseq
  · rw [raise_joint]; exact hjoint
  · exact RegsStandBut.trans (fun p off ho hp => hother p off ho fun h => hp (h ▸ List.mem_singleton_self _)) (regsStandBut_raise _ _ _ _ _)
  · rw [raise_power, hpower]

/-! ### A window that ends -/

theorem closeWindow_shows (s : State) : jntOpen (closeWindow s) = false ∧ (closeWindow s).power = s.power ∧
    ∀ p off, off < 0x1000 → ¬(p = pgJNT ∧ (off = 0x0A0 ∨ off = 0x0E0 ∨ off = 0x0F0)) → rd (closeWindow s) p off = rd s p off := by
  unfold closeWindow
  refine ⟨?_, rfl, fun p off ho hne => ?_⟩
  · exact (rdB_congr ((rd_wrB_other (by decide) (by decide) (by decide) ..).trans (rd_wrB_other (by decide) (by decide) (by decide) ..)) _).trans
      (rdB_wrB _ _ _ _ _ (by decide))
  · rw [rd_wrB_other (by decide) ho (by omega), rd_wrB_other (by decide) ho (by omega), rd_wrB_other (by decide) ho (by omega)]

theorem timeoutWindow_shows (s : State) :
    jntOpen (timeoutWindow s) = false ∧ rd (timeoutWindow s) pgJNT 0x0B0 = BitVec.ofNat 32 (ballotOrder s (jntOpener s) + 3 * 2 ^ 8) ∧
      rd (timeoutWindow s) pgJNT 0x0BC = BitVec.ofNat 32 ((rd s pgJNT 0x0BC).toNat + 1) ∧ RegsStandBut [pgJNT] s (timeoutWindow s) ∧
      (timeoutWindow s).power = s.power ∧ ∃ d, ∀ q, Told (timeoutWindow s) q pgJNT 0x102 d := by
  obtain ⟨hclosed, hpower, hother⟩ := closeWindow_shows s
  unfold timeoutWindow; dsimp only
  generalize closeWindow s = t at hclosed hpower hother
  have horder : ballotOrder s (jntOpener s) < 256 := fld_lt ..
  have hseq := jntSeq_lt s
  have hnum : (jntOpener s).num ≤ 1 := by cases jntOpener s <;> decide
  refine ⟨?_, ?_, ?_, ?_, ?_, _, fun q => told_jnt (by decide) (by decide) ?_ q _⟩
  · refine (rdB_congr ((rd_raise_jnt (by decide) (by decide) ..).trans ((rd_incCnt_ne (by decide) (by decide) (by decide) ..).trans ?_)) _).trans hclosed
    exact rd_wrN_other (by decide) (by decide) (by decide) ..
  · refine (rd_raise_jnt (by decide) (by decide) ..).trans ((rd_incCnt_ne (by decide) (by decide) (by decide) ..).trans ?_)
    exact (rd_wrN_same ..).trans (by rw [Nat.zero_mul, Nat.add_zero])
  · refine (rd_raise_jnt (by decide) (by decide) ..).trans ((rd_incCnt (by decide) (by decide) ..).trans ?_)
    unfold setOutcome
    rw [rd_wrN_other (by decide) (by decide) (by decide), hother _ _ (by decide) (by decide)]
  · refine RegsStandBut.trans ?_ (regsStandBut_raise _ _ _ _ _)
    refine RegsStandBut.trans ?_ (regsStandBut_incCnt (by decide) _ _ _)
    refine RegsStandBut.trans ?_ (regsStandBut_wr (by decide) _ _ _)
    exact fun p off ho hp => hother p off ho fun h => hp (h.1 ▸ List.mem_singleton_self _)
  · rw [raise_power, incCnt_power]; exact (wr_power ..).trans hpower
  · omega

/-! ### The second of two equal ballots -/

/-- The second ballot is cast and the window closes, before the order is applied (R126). -/
def balloted (q : Port) (s : State) : State := closeWindow (setBallot q true s)

theorem balloted_reports (q : Port) (s : State) : ReportsOnly s (balloted q s) :=
  (wrN_reports ..).trans ((wr64_reports ..).trans ((wrB_reports ..).trans ((wrB_reports ..).trans (wrB_reports ..))))

theorem balloted_shows (q : Port) (s : State) : jntOpen (balloted q s) = false ∧
    ∀ p off, off < 0x1000 → ¬(p = pgJNT ∧ (off = 0x0A0 ∨ 0x0E0 ≤ off ∧ off < 0x0FC)) → rd (balloted q s) p off = rd s p off := by
  obtain ⟨hclosed, -, hclose⟩ := closeWindow_shows (setBallot q true s)
  refine ⟨hclosed, fun p off ho hne => (hclose p off ho (by omega)).trans ?_⟩
  exact (setBallot_shows q true s).2.2.2 p off ho (by omega)

/-- An order that its target applied: counted, told, and shown in `JNT_LAST`. -/
def concluded (order seq : Nat) (u : State) : State :=
  raise pgJNT 0x100 sevINFO (order + seq) (incCnt pgJNT 0x0B4 1 (setOutcome order 1 0 u))

theorem concluded_reports (order seq : Nat) (u : State) : ReportsOnly u (concluded order seq u) :=
  (wrN_reports ..).trans ((incCnt_reports ..).trans (raise_reports ..))

theorem rd_concluded {p off : Nat} (ho : off < 0x1000) (h : ¬(p = pgJNT ∧ (off = 0x014 ∨ off = 0x0B0 ∨ off = 0x0B4))) (order seq : Nat)
    (u : State) : rd (concluded order seq u) p off = rd u p off :=
  (rd_raise_low ho (by decide) (by omega) ..).trans ((rd_incCnt_ne (by decide) ho (by omega) ..).trans
    (rd_wrN_other (by decide) ho (by omega) ..))

theorem applied_concluded {order : Nat} (seq : Nat) {u : State} (h : jntOpen u = false) : Applied (concluded order seq u) order := by
  refine ⟨?_, (rdB_congr (rd_concluded (by decide) (by decide) ..) _).trans h⟩
  refine (rd_raise_jnt (by decide) (by decide) ..).trans ((rd_incCnt_ne (by decide) (by decide) (by decide) ..).trans ?_)
  exact (rd_wrN_same ..).trans (congrArg (BitVec.ofNat 32) (by omega))

theorem effCast_in_time (q : Port) {s : State} (h : windowOver s = false) :
    effCast q s = if !orderKnown (voteOrder s q) || ballotOpen s q then cmdRej q pgJNT (castOff q) 0 s
      else if jntOpen s then answerWindow q s else if maySole s q then soleVote q s else openWindow q s := by
  unfold effCast
  simp only [h, Bool.false_eq_true, if_false]

/-- A cast that agrees with the open ballot has its order applied, where its target does not refuse it (R126, R130). -/
theorem castOrder_agrees {order : Nat} {q : Port} {s u : State} (hk : orderKnown order = true) (h : Agrees s q order)
    (happly : applyOrder order (voteArg s q) false (balloted q s) = (0, u)) :
    ∃ seq, settle s (castOrder order q s) = settle s (concluded order seq u) := by
  obtain ⟨hmay, hover, horder, hclosed, hopen, hborder, hbarg⟩ := h
  refine ⟨jntSeq (balloted q s) * 2 ^ 16, congrArg (settle s) ?_⟩
  unfold castOrder
  rw [gateWrite_mayWrite hmay, if_pos horder, effCast_in_time q hover, if_neg (by rw [horder, hk, hclosed]; decide), if_pos hopen]
  unfold answerWindow; dsimp only
  rw [if_pos ⟨hborder.trans horder.symm, hbarg⟩, horder]
  have hballot : closeWindow (setBallot q true s) = balloted q s := rfl
  rw [hballot]
  unfold outcomeOf; dsimp only
  rw [happly]
  exact if_pos rfl

/-- What shows of an applied order beside its effect: the unit's own registers. -/
theorem castOrder_applies {order : Nat} {q : Port} {s u : State} (hk : orderKnown order = true) (h : Agrees s q order)
    (happly : applyOrder order (voteArg s q) false (balloted q s) = (0, u)) (hopen : jntOpen u = false) :
    ∃ t, settle s (castOrder order q s) = .next t ∧ Applied t order ∧
      (∀ p off, off < 0x1000 → ¬(p = pgJNT ∧ (off = 0x014 ∨ off = 0x0B0 ∨ off = 0x0B4)) → rd t p off = rd u p off) ∧
      t = { u with regs := t.regs, outbox := t.outbox, fuses := s.fuses, pending := s.pending } := by
  obtain ⟨seq, hexec⟩ := castOrder_agrees hk h happly
  have happlied := applied_concluded (order := order) seq hopen
  have hregs {p off : Nat} (ho : off < 0x1000) (hne : ¬(p = pgJNT ∧ (off = 0x014 ∨ off = 0x0B0 ∨ off = 0x0B4))) :=
    rd_concluded ho hne order seq u
  have hreports := (concluded_reports order seq u).eq
  generalize concluded order seq u = v at hexec happlied hregs hreports
  refine ⟨_, hexec.trans (settle_eq ..), happlied, fun p off ho hne => hregs ho hne, ?_⟩
  rw [hreports]

/-! ### The orders on pages -/

theorem mem_allPages {p : Nat} (h : assigned p = true) : p ∈ allPages := by
  obtain ⟨k, hk⟩ := kindOf_of_assigned h
  obtain ⟨r, hr, -, hlo, hhi⟩ := kindOf_row hk
  exact List.mem_flatMap.mpr ⟨r, hr, List.mem_map.mpr ⟨p - r.first, List.mem_range.mpr (by omega), by omega⟩⟩

theorem assigned_lt {p : Nat} (h : assigned p = true) : p < 0x100 := by
  have : ∀ q ∈ allPages, q < 0x100 := by decide
  exact this p (mem_allPages h)

/-- SET_OWNER of one page. -/
theorem setOwnerOf_shows {n : Nat} (hn : n < 2) (p : Nat) (s : State) :
    rdF (setOwnerOf n p s) p 0x028 0 0 = n ∧ ∀ p' off, off < 0x1000 → ¬(p' = p ∧ off = 0x028) → rd (setOwnerOf n p s) p' off = rd s p' off := by
  unfold setOwnerOf
  split
  · rename_i h; exact ⟨h, fun _ _ _ _ => rfl⟩
  · refine ⟨?_, fun p' off ho hne => ?_⟩
    · rw [rdF_wrF_ne _ _ _ _ _ _ _ _ (by decide) (by decide) (by decide), rdF_wrF _ _ _ _ _ _ (by decide) (by decide)]
      exact Nat.mod_eq_of_lt hn
    · exact (rd_wrF_other (by decide) ho hne ..).trans (rd_wrF_other (by decide) ho hne ..)

/-- SET_OWNER of a list of pages gives each of them to the port, and no other page. -/
theorem setOwners_shows {n : Nat} (hn : n < 2) : ∀ (l : List Nat) (s : State),
    (∀ p, rdF (l.foldl (fun t p => setOwnerOf n p t) s) p 0x028 0 0 = if p ∈ l then n else rdF s p 0x028 0 0) ∧
      ∀ p off, off < 0x1000 → off ≠ 0x028 → rd (l.foldl (fun t p => setOwnerOf n p t) s) p off = rd s p off
  | [], s => ⟨fun p => by rw [if_neg List.not_mem_nil]; rfl, fun _ _ _ _ => rfl⟩
  | x :: l, s => by
    obtain ⟨howner, hother⟩ := setOwnerOf_shows hn x s
    obtain ⟨ihowner, ihother⟩ := setOwners_shows hn l (setOwnerOf n x s)
    refine ⟨fun p => (ihowner p).trans ?_, fun p off ho hne => (ihother p off ho hne).trans (hother p off ho fun h => hne h.2)⟩
    by_cases hl : p ∈ l
    · rw [if_pos hl, if_pos (List.mem_cons_of_mem _ hl)]
    · rw [if_neg hl]
      by_cases hx : p = x
      · subst hx; rw [if_pos List.mem_cons_self, howner]
      · rw [if_neg (by simp [hx, hl])]
        exact rdF_congr (hother p _ (by decide) fun h => hx h.1) ..

/-- The pages of the range of a SET_OWNER order. -/
def pagesFrom (lo hi : Nat) : List Nat := allPages.filter (fun p => decide (lo ≤ p ∧ p ≤ hi))

theorem applySetOwner_eq {arg : Nat} (h25 : arg < 2 ^ 25) (hle : bitsOf arg 11 0 ≤ bitsOf arg 23 12) (s : State) :
    applyOrder 0x01 arg false s = (0, (pagesFrom (bitsOf arg 11 0) (bitsOf arg 23 12)).foldl (fun t p => setOwnerOf (bitsOf arg 24 24) p t) s) :=
  if_neg (not_or.mpr ⟨not_not_intro (Nat.div_eq_of_lt h25), Nat.not_lt.mpr hle⟩)

theorem applyUnlock_eq {arg : Nat} (ha : assigned arg = true) (s : State) : applyOrder 0x04 arg false s = (0, wrB arg 0x03C 0 false s) := by
  have hlt := assigned_lt ha
  have hdiv : ¬arg / 2 ^ 12 ≠ 0 := not_not_intro (Nat.div_eq_of_lt (by omega))
  exact (if_neg hdiv).trans (if_neg (by rw [ha]; decide))

theorem applyConsent_eq {arg : Nat} (h18 : arg < 2 ^ 18) (hgrant : bitOf arg 17 = true) (hlo : 100 ≤ bitsOf arg 15 0)
    (hhi : bitsOf arg 15 0 ≤ 60000) (s : State) :
    applyOrder 0x09 arg false s = (0, wrN pgJNT (0x0D0 + 4 * bitsOf arg 16 16) (bitsOf arg 15 0 + 2 ^ 16) s) := by
  have hdiv : ¬arg / 2 ^ 18 ≠ 0 := not_not_intro (Nat.div_eq_of_lt h18)
  exact (if_neg hdiv).trans ((if_neg (by rw [hgrant]; decide)).trans (if_neg (by omega)))

theorem applyWindow_eq {arg : Nat} (hlo : 1 ≤ arg) (hhi : arg ≤ 1000) (s : State) :
    applyOrder 0x0A arg false s = (0, wrN pgJNT 0x0A4 arg s) := by
  have hcond : ¬(arg < 1 ∨ 1000 < arg) := by omega
  exact if_neg hcond

/-- A refused cast is told to its port, and changes nothing but the event bit. -/
theorem cmdRej_cast_shows (q : Port) (s : State) :
    Told (cmdRej q pgJNT (castOff q) 0 s) q pgJNT cCMD_REJ (castOff q + q.num * 2 ^ 20) ∧
      jntOpen (cmdRej q pgJNT (castOff q) 0 s) = jntOpen s ∧ jntSeq (cmdRej q pgJNT (castOff q) 0 s) = jntSeq s ∧
      RegsStandBut [pgJNT] s (cmdRej q pgJNT (castOff q) 0 s) := by
  have hd : castOff q + 0 * 2 ^ 12 + q.num * 2 ^ 20 = castOff q + q.num * 2 ^ 20 := by omega
  have hlt : castOff q + q.num * 2 ^ 20 < 2 ^ 32 := by cases q <;> decide
  unfold cmdRej
  rw [hd]
  exact ⟨told_refuse q pgJNT cCMD_REJ hlt s, rdB_congr (rd_refuse (by decide) (by decide) ..) _, rdF_congr (rd_refuse (by decide) (by decide) ..) ..,
    regsStandBut_refuse q pgJNT cCMD_REJ _ s⟩

/-- Settles O16. -/
theorem votesAndPageOrders : Obligations.VotesAndPageOrders := by
  refine ⟨⟨fun q s hmay hover hk hclosed hopen hsole => ?_, fun q s hmay hover hnot => ?_, fun s hpd0 hend => ?_⟩,
    fun q s h => ?_, fun q s h ha => ?_, fun q s h h18 hgrant hlo hhi => ?_, fun q s h hlo hhi => ?_⟩
  · have heff : effCast q s = openWindow q s := by
      rw [effCast_in_time q hover, if_neg (by rw [hk, hclosed]; decide), if_neg (by rw [hopen]; decide), if_neg (by rw [hsole]; decide)]
    obtain ⟨h1, h2, h3, h4, h5, h6, h7, h8, htold⟩ := openWindow_shows q s
    obtain ⟨u, hu⟩ : ∃ u, openWindow q s = u := ⟨_, rfl⟩
    simp only [hu] at heff h1 h2 h3 h4 h5 h6 h7 h8 htold
    exact ⟨_, (congrArg (settle s) ((gateWrite_mayWrite hmay).trans heff)).trans (settle_eq ..), h1, h2, h3, h4, h5, h6, h7, h8, htold .a, htold .b⟩
  · have heff : effCast q s = cmdRej q pgJNT (castOff q) 0 s := by
      rw [effCast_in_time q hover, if_pos]
      rcases hnot with h | h
      · rw [h]; rfl
      · rw [h, Bool.or_true]
    obtain ⟨htold, hopen, hseq, hregs⟩ := cmdRej_cast_shows q s
    obtain ⟨u, hu⟩ : ∃ u, cmdRej q pgJNT (castOff q) 0 s = u := ⟨_, rfl⟩
    rw [hu] at heff htold hopen hseq hregs
    exact ⟨_, (congrArg (settle s) ((gateWrite_mayWrite hmay).trans heff)).trans (settle_eq ..), htold, hopen, hseq, hregs⟩
  · obtain ⟨h1, h2, h3, h4, h5, d, htold⟩ := timeoutWindow_shows s
    have hexec : execJointTimeout s = settle s (timeoutWindow s) := congrArg (settle s) (if_pos (by rw [hpd0, hend]; rfl))
    obtain ⟨u, hu⟩ : ∃ u, timeoutWindow s = u := ⟨_, rfl⟩
    simp only [hu] at hexec h1 h2 h3 h4 h5 htold
    exact ⟨_, hexec.trans (settle_eq ..), h1, h2, h3, h4, h5, d, htold .a, htold .b⟩
  · intro arg lo hi h25 hle
    obtain ⟨hclosed, hballot⟩ := balloted_shows q s
    have hn : bitsOf arg 24 24 < 2 := Nat.mod_lt _ (by decide)
    obtain ⟨howner, hother⟩ := setOwners_shows hn (pagesFrom lo hi) (balloted q s)
    obtain ⟨t, hexec, happlied, hregs, -⟩ := castOrder_applies (by decide) h (applySetOwner_eq h25 hle (balloted q s))
      ((rdB_congr (hother _ _ (by decide) (by decide)) _).trans hclosed)
    refine ⟨t, hexec, happlied, fun p hp => (rdF_congr (hregs p _ (by decide) (by omega)) ..).trans ((howner p).trans ?_)⟩
    have hmem : p ∈ pagesFrom lo hi ↔ lo ≤ p ∧ p ≤ hi := by simp [pagesFrom, mem_allPages hp]
    exact ite_congr (propext hmem) (fun _ => rfl) fun _ => rdF_congr (hballot p _ (by decide) (by omega)) ..
  · obtain ⟨hclosed, hballot⟩ := balloted_shows q s
    have hother {p off : Nat} (ho : off < 0x1000) (hne : ¬(p = voteArg s q ∧ off = 0x03C)) :=
      rd_wrB_other (by decide) ho hne 0 false (balloted q s)
    obtain ⟨t, hexec, happlied, hregs, -⟩ := castOrder_applies (by decide) h (applyUnlock_eq ha (balloted q s))
      ((rdB_congr (hother (by decide) (by omega)) _).trans hclosed)
    refine ⟨t, hexec, happlied, ?_, fun p hp _ => ?_⟩
    · exact (rdB_congr (hregs _ _ (by decide) (by omega)) _).trans (rdB_wrB _ _ _ _ _ (by decide))
    · exact rdB_congr ((hregs p _ (by decide) (by omega)).trans ((hother (by decide) (by omega)).trans (hballot p _ (by decide) (by omega)))) _
  · obtain ⟨hclosed, -⟩ := balloted_shows q s
    have hbit : bitsOf (voteArg s q) 16 16 < 2 := Nat.mod_lt _ (by decide)
    have hoff : 0x0D0 + 4 * bitsOf (voteArg s q) 16 16 < 0x1000 ∧ 0x0B4 < 0x0D0 + 4 * bitsOf (voteArg s q) 16 16 := by omega
    obtain ⟨t, hexec, happlied, hregs, -⟩ := castOrder_applies (by decide) h (applyConsent_eq h18 hgrant hlo hhi (balloted q s))
      ((rdB_congr (rd_wrN_other hoff.1 (by decide) (by omega) ..) _).trans hclosed)
    exact ⟨t, hexec, happlied, (hregs _ _ hoff.1 (by omega)).trans (rd_wrN_same ..)⟩
  · obtain ⟨hclosed, -⟩ := balloted_shows q s
    obtain ⟨t, hexec, happlied, hregs, -⟩ := castOrder_applies (by decide) h (applyWindow_eq hlo hhi (balloted q s))
      ((rdB_congr (rd_wrN_other (by decide) (by decide) (by decide) ..) _).trans hclosed)
    exact ⟨t, hexec, happlied, (hregs _ _ (by decide) (by decide)).trans (rd_wrN_same ..)⟩

end Sys2Proof.Machine
end

section
/-!
PROOFS. The agreed orders of power, the memory map, fusion and the journey (O17).
-/
namespace Sys2Proof.Machine

/-! ### What a ballot leaves for the order's target -/

section
variable {q : Port} {s : State}

theorem balloted_field {α : Type} (f : State → α) (hf : ∀ x r o, f { x with regs := r, outbox := o } = f x := by exact fun _ _ _ => rfl) :
    f (balloted q s) = f s := (balloted_reports q s).field f hf

theorem rd_balloted {p off : Nat} (ho : off < 0x1000) (hp : p ≠ pgJNT) : rd (balloted q s) p off = rd s p off :=
  (balloted_shows q s).2 p off ho fun h => hp h.1

theorem domOn_balloted (d : Nat) : domOn (balloted q s) d = domOn s d :=
  domOn_congr (balloted_field State.pd0) (rd_balloted (by decide) (by decide)) d

theorem domTarget_balloted (d : Nat) : domTarget (balloted q s) d = domTarget s d := by
  unfold domTarget; rw [balloted_field State.power, domOn_balloted]

theorem pd2Bad_balloted (doms : Nat) (on : Bool) : pd2Bad (balloted q s) doms on = pd2Bad s doms on := by
  unfold pd2Bad; simp only [domTarget_balloted]

theorem sameUse_balloted : SameUse s (balloted q s) :=
  .of_regs (balloted_field State.pd0) (balloted_field State.tb) (balloted_field (fun x => x.dram.initRegion)) (balloted_field State.regul)
    fun p off hp => rd_balloted hp.1 fun h => by
      obtain ⟨-, hp | hp, -⟩ := hp
      · exact absurd (h.symm.trans hp) (by decide)
      · rw [h] at hp; exact absurd hp.1 (by decide)

theorem dataStands_balloted : DataStands s (balloted q s) := ⟨balloted_field State.mem, balloted_field State.marks⟩

end

/-- What an applied order keeps of the state `u` its target made: all but registers, reports, fuses and free values. -/
structure KeepsEffect (u t : State) : Prop where
  regs : ∀ p off, off < 0x1000 → p ≠ pgJNT → rd t p off = rd u p off
  power : t.power = u.power
  sup : t.sup = u.sup
  mem : t.mem = u.mem
  fus : t.fus = u.fus
  met : t.met = u.met
  mbr : t.mbr = u.mbr

/-- An order whose target's effect leaves the joint-order unit's word. -/
theorem castOrder_effect {order : Nat} {q : Port} {s u : State} (hk : orderKnown order = true) (h : Agrees s q order)
    (happly : applyOrder order (voteArg s q) false (balloted q s) = (0, u)) (hstay : rd u pgJNT 0x0A0 = rd (balloted q s) pgJNT 0x0A0) :
    ∃ t, settle s (castOrder order q s) = .next t ∧ Applied t order ∧ KeepsEffect u t := by
  obtain ⟨t, hexec, happlied, hregs, hfields⟩ := castOrder_applies hk h happly ((rdB_congr hstay _).trans (balloted_shows q s).1)
  refine ⟨t, hexec, happlied, fun p off ho hp => hregs p off ho fun h => hp h.1, ?_, ?_, ?_, ?_, ?_, ?_⟩ <;> rw [hfields]

/-! ### DOMAIN and VCORE -/

/-- The domains of an order that are not yet as asked, on the list of switches. -/
def domainsOrdered (arg : Nat) (s : State) : State :=
  setLast (arg % 256) true 1 0 (setSwitching (s.power.switching ++
    ((domsNamed (arg % 256)).filter (fun d => domTarget s d != true)).map (fun d => (d, true))) s)

theorem applyDomain_on {arg : Nat} {s : State} (h9 : arg < 2 ^ 9) (hon : bitOf arg 8 = true) (htrim : s.power.trimValid = true)
    (hpd2 : pd2Bad s (arg % 256) true = false) : applyOrder 0x02 arg false s = (0, domainsOrdered arg s) := by
  have hdiv : ¬(arg / 2 ^ 9 ≠ 0 ∨ (bitOf arg 8 = false ∧ arg % 256 % 2 = 1)) := by
    rw [hon, Nat.div_eq_of_lt h9]; simp
  show applyDomain arg s = _
  unfold applyDomain; dsimp only
  rw [if_neg hdiv, hon, if_neg (by rw [htrim]; simp), if_neg (by rw [hpd2]; decide)]
  rfl

theorem domainsOrdered_shows (arg : Nat) (s : State) :
    (domainsOrdered arg s).power.switching = s.power.switching ++
      ((domsNamed (arg % 256)).filter (fun d => domTarget s d != true)).map (fun d => (d, true)) ∧
    rd (domainsOrdered arg s) pgJNT 0x0A0 = rd s pgJNT 0x0A0 := by
  unfold domainsOrdered setLast
  constructor
  · rw [wrN, wr_power, setSwitching_power]
  · exact (rd_wrN_other (by decide) (by decide) (by decide) ..).trans (rd_setSwitching (by decide) (by decide) ..)

/-- VCORE at its new set point, ramping. -/
def vcoreOrdered (arg : Nat) (s : State) : State :=
  let low := if ramping s then min s.power.rampFloor arg else min (vcoreSet s) arg
  wrF pgPWR 0x084 9 0 arg (wrB pgPWR 0x08C 2 true
    (modPower (fun p => { p with rampFloor := low, devSince := none, devTold := false })
      (modSup (fun u => { u with setMv := arg }) s)))

theorem applyVcore_eq {arg : Nat} {s : State} (hlo : 600 ≤ arg) (hhi : arg ≤ 900) (hten : arg % 10 = 0)
    (hvar : s.fuses.variantE = true → arg ≤ 800) : applyOrder 0x03 arg false s = (0, vcoreOrdered arg s) := by
  have hmod : arg % 1024 = arg := Nat.mod_eq_of_lt (by omega)
  have hrange : ¬(arg < 600 ∨ 900 < arg ∨ arg % 10 ≠ 0) := by omega
  show applyVcore arg s = _
  unfold applyVcore; dsimp only
  rw [hmod, if_neg (not_not_intro (Nat.div_eq_of_lt (by omega))), if_neg hrange, if_neg]
  · rfl
  · intro h
    simp only [Bool.and_eq_true, decide_eq_true_eq] at h
    have := hvar h.1
    omega

theorem vcoreOrdered_shows {arg : Nat} (h : arg < 1024) (s : State) :
    vcoreSet (vcoreOrdered arg s) = arg ∧ ramping (vcoreOrdered arg s) = true ∧ (vcoreOrdered arg s).sup.setMv = arg ∧
      (vcoreOrdered arg s).power.vcoreOn = s.power.vcoreOn ∧ rd (vcoreOrdered arg s) pgJNT 0x0A0 = rd s pgJNT 0x0A0 := by
  unfold vcoreOrdered; dsimp only
  refine ⟨?_, ?_, ?_, ?_, ?_⟩
  · exact (rdF_wrF _ _ _ _ _ _ (by decide) (by decide)).trans (Nat.mod_eq_of_lt h)
  · exact (rdB_congr (rd_wrF_other (by decide) (by decide) (by decide) ..) _).trans (rdB_wrB _ _ _ _ _ (by decide))
  · rw [wrF, wr_sup, wrB, wrF, wr_sup]; rfl
  · rw [wrF, wr_power, wrB, wrF, wr_power]; rfl
  · refine (rd_wrF_other (by decide) (by decide) (by decide) ..).trans ((rd_wrB_other (by decide) (by decide) (by decide) ..).trans ?_)
    exact (rd_modPower ..).trans (rd_modSup ..)

/-! ### The memory map -/

/-- The registers that aperture accesses leave: all but the counts of the memory's pages and the events of the ports' pages. -/
def apertureReg (p off : Nat) : Prop := off < 0x1000 ∧ ¬counted p off ∧ ¬(p = 0x004 ∨ p = 0x005)

theorem not_port {p off : Nat} (h : apertureReg p off) (q : Port) : p ≠ pgHP q := by
  rintro rfl
  exact h.2.2 (by cases q <;> decide)

theorem rd_raise_port {p off : Nat} (h : apertureReg p off) (q : Port) (c v d : Nat) (s : State) :
    rd (raise (pgHP q) c v d s) p off = rd s p off :=
  rd_raise h.1 (fun hp => not_port h q hp.1) ..

theorem rd_modPort (q : Port) (f : PortState → PortState) (p off : Nat) (s : State) : rd (s.modPort q f) p off = rd s p off := by
  cases q <;> rfl

theorem rd_apRead {p off : Nat} (h : apertureReg p off) (q : Port) (a n : Nat) (s : State) : rd (apRead q a n s) p off = rd s p off := by
  have hread := (readAs_accounted (srcPort q) a n s).regs p off h.1 h.2.1
  unfold apRead; dsimp only; split
  · exact (rd_raise_port h ..).trans ((rd_modPort ..).trans hread)
  · exact (rd_modPort ..).trans hread

theorem rd_apWrite {p off : Nat} (h : apertureReg p off) (q : Port) (a : Nat) (bs : List (Option Byte)) (s : State) :
    rd (apWrite q a bs s) p off = rd s p off := by
  have hwrite := ((useMem_accounted (srcPort q) a bs.length s).trans (writeEnabled_accounted false a bs _)).regs p off h.1 h.2.1
  unfold apWrite; dsimp only; split
  · exact (rd_raise_port h ..).trans hwrite
  · exact hwrite

theorem rd_apRefuse {p off : Nat} (h : apertureReg p off) (q : Port) (o : Nat) (s : State) : rd (apRefuse q o s) p off = rd s p off := by
  unfold apRefuse badAccess
  rw [show pgHP q % 2 ^ 12 = pgHP q by cases q <;> rfl]
  exact rd_refuse h.1 (fun hp => not_port h q hp.1) ..

theorem rd_apServe {p off : Nat} (h : apertureReg p off) (q : Port) (x : HeldAccess) (s : State) :
    rd (apServe q x s).2 p off = rd s p off := by
  have hread : rd (if x.data.isNone then s.modPort q (fun p => { p with readBytes := zeros x.len, readEP := false }) else s) p off = rd s p off := by
    split
    · exact rd_modPort ..
    · rfl
  unfold apServe; split
  · exact (rd_apRefuse h ..).trans hread
  · split
    · rfl
    · split
      · exact rd_apRead h ..
      · exact rd_apWrite h ..

theorem rd_serveHeld {p off : Nat} (h : apertureReg p off) (q : Port) (s : State) : rd (serveHeld q s) p off = rd s p off := by
  refine foldl_keeps (fun t => rd t p off = rd s p off) _ (fun t x ht => ?_) _ (rd_modPort ..)
  dsimp only; split
  · exact (rd_modPort ..).trans ht
  · exact (rd_apServe h ..).trans ht

theorem rd_serveApertures {p off : Nat} (h : apertureReg p off) (s : State) : rd (serveApertures s) p off = rd s p off :=
  (rd_serveHeld h ..).trans (rd_serveHeld h ..)

/-- What owed initialisations leave of the map's word, where regions are owed as it says. -/
theorem rd_nextOwed {s : State} (h : rdB s (pgDMC 0) 0x100 8 = true → s.dram.owed ≠ []) {p off : Nat} (ho : off < 0x1000)
    (hne : ¬(p = pgDMC 0 ∧ off = 0x110)) : rd (nextOwed s) p off = rd s p off := by
  unfold nextOwed; split
  · rfl
  · rename_i hcond
    split
    · exact (rd_wrN_other (by decide) ho hne ..).trans (rd_of_regs rfl ..)
    · rename_i howed
      have hbit : rdB s (pgDMC 0) 0x100 8 = true := by
        refine Classical.byContradiction fun hb => ?_
        exact hcond (by simp [hb])
      exact absurd howed (h hbit)

/-- The map as it changes, before the regions owed are seen to. -/
def mapChanged (m : Nat) (s : State) : State :=
  wrB (pgDMC 0) 0x100 8 (!(eccRegions s).isEmpty) (modDram (fun d => { d with owed := eccRegions s })
    (scrambleDram (fun _ => true) (wrF (pgDMC 0) 0x100 3 0 m s)))

theorem changeMap_eq (m : Nat) (s : State) :
    changeMap m s = tellPages (serveApertures (nextOwed (raise (pgDMC 0) 0x108 sevINFO m (mapChanged m s)))) := rfl

theorem mapChanged_shows (m : Nat) (s : State) :
    rd (mapChanged m s) (pgDMC 0) 0x100 = setFld (setFld (rd s (pgDMC 0) 0x100) 3 0 m) 8 8 (b2n (!(eccRegions s).isEmpty)) ∧
      (mapChanged m s).dram.owed = eccRegions s ∧ rd (mapChanged m s) pgJNT 0x0A0 = rd s pgJNT 0x0A0 := by
  have hregs (u : State) : (modDram (fun d => { d with owed := eccRegions s }) (scrambleDram (fun _ => true) u)).regs = u.regs :=
    (onlyData_fillRegions (fun _ => true) (.free u.freeCtr) u).regs
  unfold mapChanged
  refine ⟨?_, ?_, ?_⟩
  · rw [rd_wrB_same, rd_of_regs (hregs _), rd_wrF_same]
  · rw [wrB, wrF, wr_dram]; rfl
  · rw [rd_wrB_other (by decide) (by decide) (by decide), rd_of_regs (hregs _), rd_wrF_other (by decide) (by decide) (by decide)]

theorem changeMap_shows {m : Nat} (hm : m < 16) (s : State) :
    mapInForce (changeMap m s) = m ∧ rdB (changeMap m s) (pgDMC 0) 0x100 8 = !(eccRegions s).isEmpty ∧
      rd (changeMap m s) pgJNT 0x0A0 = rd s pgJNT 0x0A0 := by
  obtain ⟨hword, howed, hjnt⟩ := mapChanged_shows m s
  rw [changeMap_eq]
  obtain ⟨u, hu⟩ : ∃ u, mapChanged m s = u := ⟨_, rfl⟩
  rw [hu] at hword howed hjnt ⊢
  have hregs {p off : Nat} (ho : off < 0x1000) (hp : ¬(off = 0x00C ∨ off = 0x014 ∨ off = 0x020 ∨ off = 0x024)) (h : apertureReg p off)
      (hne : ¬(p = pgDMC 0 ∧ off = 0x110)) (hbit : rdB u (pgDMC 0) 0x100 8 = true → u.dram.owed ≠ []) :
      rd (tellPages (serveApertures (nextOwed (raise (pgDMC 0) 0x108 sevINFO m u)))) p off = rd u p off := by
    refine ((Tells.tellPages _).regs p off ho (fun h => hp (.inr (.inl h)))).trans ((rd_serveApertures h _).trans ((rd_nextOwed ?_ ho hne).trans
      (rd_raise ho (fun h => hp h.2) ..)))
    rw [raise_dram, rdB_congr (rd_raise (by decide) (by decide) ..)]
    exact hbit
  have hmap : rdF u (pgDMC 0) 0x100 3 0 = m := by
    unfold rdF
    rw [hword, fld_setFld_ne _ _ _ _ _ _ (by decide) (by decide) (by decide), fld_setFld _ _ _ _ (by decide) (by decide)]
    exact Nat.mod_eq_of_lt hm
  have hbit : rdB u (pgDMC 0) 0x100 8 = !(eccRegions s).isEmpty := by
    unfold rdB; rw [hword]; exact flag_setFld _ 8 _ (by decide)
  have howedbit : rdB u (pgDMC 0) 0x100 8 = true → u.dram.owed ≠ [] := by
    rw [hbit, howed]; cases eccRegions s <;> simp
  have hmapreg : apertureReg (pgDMC 0) 0x100 := ⟨by decide, by unfold counted; decide, by decide⟩
  have hjntreg : apertureReg pgJNT 0x0A0 := ⟨by decide, by unfold counted; decide, by decide⟩
  refine ⟨?_, ?_, ?_⟩
  · exact (rdF_congr (hregs (by decide) (by decide) hmapreg (by decide) howedbit) ..).trans hmap
  · exact (rdB_congr (hregs (by decide) (by decide) hmapreg (by decide) howedbit) _).trans hbit
  · exact (hregs (by decide) (by decide) hjntreg (by decide) howedbit).trans hjnt

theorem applyDmcMap_eq {arg : Nat} {s : State} (harg : arg ≤ 11 ∨ arg = 15) (hquiet : mapQuiet s = true) (hpassed : mapPassed s arg = true)
    (hinit : s.dram.initRegion = none) (hne : arg ≠ mapInForce s) : applyOrder 0x05 arg false s = (0, changeMap arg s) := by
  show applyDmcMap arg s = _
  unfold applyDmcMap
  rw [if_neg (by omega), if_neg (by rw [hquiet, hpassed, hinit]; decide), if_neg hne]

/-! ### Fusion and the journey -/

theorem applyFusMode_eq {arg : Nat} (h : fusModeBad arg = false) (s : State) :
    applyOrder 0x07 arg false s = (0, raise pgFUS 0x102 sevINFO arg (wrN pgFUS 0x084 arg s)) := by
  show applyFusMode arg s = _
  unfold applyFusMode fusModeApply
  rw [if_neg (by rw [h]; decide)]

theorem applyMetJourney_eq {arg : Nat} {s : State} (h : journeyOrderRefused s arg = 0) :
    applyOrder 0x08 arg false s = (0, applyJourneyOrder arg s) := if_neg (not_not_intro h)

theorem applyJourneyOrder_shows {s : State} (hvin : s.met.vin = true) (arg : Nat) :
    (applyJourneyOrder arg s).mbr.journeySeq = some s.mbr.txSeq ∧ (applyJourneyOrder arg s).met.mailbox.map (·.bytes) =
      s.met.mailbox.map (·.bytes) ++ [mkFrame (arg % 256) s.mbr.txSeq (arg / 256 * 256)] ∧ (applyJourneyOrder arg s).regs = s.regs := by
  unfold applyJourneyOrder sendFrame; dsimp only
  rw [if_neg (by show ¬(!s.met.vin) = true; rw [hvin]; decide)]
  exact ⟨rfl, List.map_append, rfl⟩

/-- The proposal as the transform table takes it. -/
def xformTaken (n : Nat) (r : List Byte) (t : State) : State :=
  raise pgFUS 0x100 sevINFO (n + leAt r 86 2 * 2 ^ 16)
    (incCnt pgFUS 0x0F4 1 { t with fus := { t.fus with xforms := t.fus.xforms.put (zeros 96) n r } })

theorem applyFusXform_eq {arg : Nat} {s : State} (h46 : arg < 2 ^ 46) (halign : bitsOf arg 39 0 % 32 = 0)
    (hdata : isData s (bitsOf arg 39 0) 96 = true) (hdom : domOn s 6 = true) (huse : canUse s .fusion (bitsOf arg 39 0) 96 = true)
    (hnone : (readAs .fusion (bitsOf arg 39 0) 96 s).2.1 = none) (hgood : xformReason (readAs .fusion (bitsOf arg 39 0) 96 s).1 = 0) :
    applyOrder 0x06 arg false s = (0, xformTaken (bitsOf arg 45 40) (readAs .fusion (bitsOf arg 39 0) 96 s).1
      (readAs .fusion (bitsOf arg 39 0) 96 s).2.2) := by
  show applyFusXform arg s = _
  have hdiv : ¬(arg / 2 ^ 46 ≠ 0 ∨ bitsOf arg 39 0 % 32 ≠ 0 ∨ isData s (bitsOf arg 39 0) 96 = false) := by
    rw [Nat.div_eq_of_lt h46, halign, hdata]; decide
  have happly : fusXformApply (bitsOf arg 45 40) (bitsOf arg 39 0) s = (true, xformTaken (bitsOf arg 45 40)
      (readAs .fusion (bitsOf arg 39 0) 96 s).1 (readAs .fusion (bitsOf arg 39 0) 96 s).2.2) := by
    unfold fusXformApply; dsimp only
    rw [if_neg (by rw [hdom, huse]; decide), if_neg (by rw [hnone]; decide), if_neg (not_not_intro hgood)]
    rfl
  unfold applyFusXform
  rw [if_neg hdiv, happly]
  rfl

theorem xformTaken_shows (n : Nat) (r : List Byte) (t : State) :
    (xformTaken n r t).fus.xforms.get (zeros 96) n = r ∧
      (∀ m, m ≠ n → (xformTaken n r t).fus.xforms.get (zeros 96) m = t.fus.xforms.get (zeros 96) m) ∧ MemStands t (xformTaken n r t) ∧
      rd (xformTaken n r t) pgJNT 0x0A0 = rd t pgJNT 0x0A0 := by
  have hfus : (xformTaken n r t).fus.xforms = t.fus.xforms.put (zeros 96) n r := by
    unfold xformTaken; rw [raise_fus, incCnt_fus]
  refine ⟨?_, fun m hm => ?_, memStands_of_mem ?_, ?_⟩
  · rw [hfus, SMap.get_put_same]
  · rw [hfus, SMap.get_put_ne _ _ hm]
  · unfold xformTaken; rw [raise_mem, incCnt_mem]
  · unfold xformTaken
    exact (rd_raise (by decide) (by decide) ..).trans ((rd_incCnt_ne (by decide) (by decide) (by decide) ..).trans (rd_of_regs rfl ..))

/-! ### The clauses of the orders -/

section
variable {q : Port} {s : State}

theorem domain_agreed (h : Agrees s q 0x02) (h9 : voteArg s q < 2 ^ 9) (hon : bitOf (voteArg s q) 8 = true) (htrim : s.power.trimValid = true)
    (hpd2 : pd2Bad s (voteArg s q % 256) true = false) :
    ∃ t, exec (.domain q) s = .next t ∧ Applied t 0x02 ∧
      t.power.switching = s.power.switching ++
        ((domsNamed (voteArg s q % 256)).filter (fun d => domTarget s d != true)).map (fun d => (d, true)) := by
  have happly := applyDomain_on (s := balloted q s) h9 hon ((congrArg PowerState.trimValid (balloted_field State.power)).trans htrim) ((pd2Bad_balloted ..).trans hpd2)
  obtain ⟨hswitch, hstay⟩ := domainsOrdered_shows (voteArg s q) (balloted q s)
  simp only [balloted_field State.power, domTarget_balloted] at hswitch
  obtain ⟨u, hu⟩ : ∃ u, domainsOrdered (voteArg s q) (balloted q s) = u := ⟨_, rfl⟩
  rw [hu] at happly hswitch hstay
  obtain ⟨t, hexec, happlied, hkeeps⟩ := castOrder_effect (by decide) h happly hstay
  exact ⟨t, hexec, happlied, (congrArg PowerState.switching hkeeps.power).trans hswitch⟩

theorem vcore_agreed (h : Agrees s q 0x03) (hlo : 600 ≤ voteArg s q) (hhi : voteArg s q ≤ 900) (hten : voteArg s q % 10 = 0)
    (hvar : s.fuses.variantE = true → voteArg s q ≤ 800) :
    ∃ t, exec (.vcore q) s = .next t ∧ Applied t 0x03 ∧ vcoreSet t = voteArg s q ∧ ramping t = true ∧
      t.sup.setMv = voteArg s q ∧ t.power.vcoreOn = s.power.vcoreOn := by
  have happly := applyVcore_eq (s := balloted q s) hlo hhi hten fun hv => hvar ((balloted_field (q := q) (fun x => x.fuses.variantE)) ▸ hv)
  obtain ⟨hset, hramp, hmv, hvcore, hstay⟩ := vcoreOrdered_shows (arg := voteArg s q) (by omega) (balloted q s)
  obtain ⟨u, hu⟩ : ∃ u, vcoreOrdered (voteArg s q) (balloted q s) = u := ⟨_, rfl⟩
  rw [hu] at happly hset hramp hmv hvcore hstay
  obtain ⟨t, hexec, happlied, hkeeps⟩ := castOrder_effect (by decide) h happly hstay
  refine ⟨t, hexec, happlied, (rdF_congr (hkeeps.regs _ _ (by decide) (by decide)) ..).trans hset,
    (rdB_congr (hkeeps.regs _ _ (by decide) (by decide)) _).trans hramp, (congrArg SupState.setMv hkeeps.sup).trans hmv, ?_⟩
  exact (congrArg PowerState.vcoreOn hkeeps.power).trans (hvcore.trans (congrArg PowerState.vcoreOn (balloted_field State.power)))

theorem dmcMap_agreed (h : Agrees s q 0x05) (harg : voteArg s q ≤ 11 ∨ voteArg s q = 15) (hquiet : mapQuiet s = true)
    (hpassed : mapPassed s (voteArg s q) = true) (hinit : s.dram.initRegion = none) (hne : voteArg s q ≠ mapInForce s) :
    ∃ t, exec (.dmcMap q) s = .next t ∧ Applied t 0x05 ∧ mapInForce t = voteArg s q ∧ rdB t (pgDMC 0) 0x100 8 = !(eccRegions s).isEmpty := by
  have hregion : eccRegions (balloted q s) = eccRegions s :=
    congrArg (fun f => (List.range 32).filter f) (funext fun r => rdB_congr (rd_balloted (by decide) (by decide)) r)
  have hquiet' : mapQuiet (balloted q s) = true := by
    unfold mapQuiet pageJobs at *
    simp only [domOn_balloted, balloted_field State.jobs]
    exact hquiet
  have hpassed' : mapPassed (balloted q s) (voteArg s q) = true := by
    unfold mapPassed at *
    rw [domOn_balloted]
    refine (congrArg (domOn s 2 && ·) (all_congr_mem fun c _ => ?_)).trans hpassed
    unfold trainState
    rw [rdF_congr (rd_balloted (by decide) (by unfold pgDMC pgJNT; omega))]
  have happly := applyDmcMap_eq (s := balloted q s) harg hquiet' hpassed' ((balloted_field (fun x => x.dram.initRegion)).trans hinit)
    (by rw [sameUse_balloted.mapInForce]; exact hne)
  obtain ⟨hmap, hbit, hstay⟩ := changeMap_shows (m := voteArg s q) (by omega) (balloted q s)
  obtain ⟨u, hu⟩ : ∃ u, changeMap (voteArg s q) (balloted q s) = u := ⟨_, rfl⟩
  rw [hu] at happly hmap hbit hstay
  obtain ⟨t, hexec, happlied, hkeeps⟩ := castOrder_effect (by decide) h happly hstay
  refine ⟨t, hexec, happlied, (rdF_congr (hkeeps.regs _ _ (by decide) (by decide)) ..).trans hmap, ?_⟩
  exact (rdB_congr (hkeeps.regs _ _ (by decide) (by decide)) _).trans (by rw [hbit, hregion])

theorem fusXform_agreed (h : Agrees s q 0x06) (h46 : voteArg s q < 2 ^ 46) (halign : bitsOf (voteArg s q) 39 0 % 32 = 0)
    (hdata : isData s (bitsOf (voteArg s q) 39 0) 96 = true) (hdom : domOn s 6 = true)
    (huse : canUse s .fusion (bitsOf (voteArg s q) 39 0) 96 = true) (hnone : (readAs .fusion (bitsOf (voteArg s q) 39 0) 96 s).2.1 = none)
    (hgood : xformReason (readAs .fusion (bitsOf (voteArg s q) 39 0) 96 s).1 = 0) :
    ∃ t, exec (.fusXform q) s = .next t ∧ Applied t 0x06 ∧
      t.fus.xforms.get (zeros 96) (bitsOf (voteArg s q) 45 40) = (readAs .fusion (bitsOf (voteArg s q) 39 0) 96 s).1 ∧
      (∀ m, m ≠ bitsOf (voteArg s q) 45 40 → t.fus.xforms.get (zeros 96) m = s.fus.xforms.get (zeros 96) m) ∧ MemStands s t := by
  obtain ⟨dpa, hdpa⟩ : ∃ dpa, bitsOf (voteArg s q) 39 0 = dpa := ⟨_, rfl⟩
  have happly := @applyFusXform_eq (voteArg s q) (balloted q s) h46 halign
  rw [hdpa] at hdata huse hnone hgood happly
  rw [hdpa]
  have hsame : SameUse s (balloted q s) := sameUse_balloted
  have hstands : DataStands s (balloted q s) := dataStands_balloted
  have hread := readable_of_readAs hnone
  obtain ⟨hbytes, -, -⟩ := readAs_readable (src := .fusion) hread
  obtain ⟨hbytes', hnone', hmem'⟩ := readAs_readable (src := .fusion) (s := balloted q s) (a := dpa) (n := 96) fun w hw =>
    (hsame.readable hstands w).mpr (hread w (by rwa [hsame.codedWords] at hw))
  have hsameBytes : (readAs .fusion dpa 96 (balloted q s)).1 = (readAs .fusion dpa 96 s).1 :=
    hbytes'.trans ((getBytes_congr hstands.memStands dpa 96).trans hbytes.symm)
  have hacc := readAs_accounted .fusion dpa 96 (balloted q s)
  replace happly := happly ((hsame.isData ..).trans hdata) ((domOn_balloted 6).trans hdom)
    ((hsame.canUse (hsame.classOf rfl) ..).trans huse) hnone' ((congrArg xformReason hsameBytes).trans hgood)
  obtain ⟨⟨bs, c, v⟩, hr⟩ : ∃ r, readAs .fusion dpa 96 (balloted q s) = r := ⟨_, rfl⟩
  rw [hr] at happly hsameBytes hacc hmem'
  obtain ⟨n, hn⟩ : ∃ n, bitsOf (voteArg s q) 45 40 = n := ⟨_, rfl⟩
  rw [hn] at happly ⊢
  dsimp only at happly hsameBytes hacc hmem'
  obtain ⟨hnew, hold, hmem, hstay⟩ := xformTaken_shows n bs v
  obtain ⟨u, hu⟩ : ∃ u, xformTaken n bs v = u := ⟨_, rfl⟩
  rw [hu] at happly hnew hold hmem hstay
  obtain ⟨t, hexec, happlied, hkeeps⟩ := castOrder_effect (by decide) h happly
    (hstay.trans (hacc.regs _ _ (by decide) (by unfold counted; decide)))
  refine ⟨t, hexec, happlied, ?_, fun m hm => ?_, ?_⟩
  · rw [hkeeps.fus, hnew, hsameBytes]
  · rw [hkeeps.fus, hold m hm, hacc.field State.fus, balloted_field State.fus]
  · exact hstands.memStands.trans (hmem'.trans (hmem.trans (memStands_of_mem hkeeps.mem)))

theorem fusMode_agreed (h : Agrees s q 0x07) (hgood : fusModeBad (voteArg s q) = false) :
    ∃ t, exec (.fusMode q) s = .next t ∧ Applied t 0x07 ∧ rd t pgFUS 0x084 = BitVec.ofNat 32 (voteArg s q) := by
  have happly := applyFusMode_eq hgood (balloted q s)
  have hword : rd (raise pgFUS 0x102 sevINFO (voteArg s q) (wrN pgFUS 0x084 (voteArg s q) (balloted q s))) pgFUS 0x084 =
      BitVec.ofNat 32 (voteArg s q) := (rd_raise (by decide) (by decide) ..).trans (rd_wrN_same ..)
  have hstay : rd (raise pgFUS 0x102 sevINFO (voteArg s q) (wrN pgFUS 0x084 (voteArg s q) (balloted q s))) pgJNT 0x0A0 = rd (balloted q s) pgJNT 0x0A0 :=
    (rd_raise (by decide) (by decide) ..).trans (rd_wrN_other (by decide) (by decide) (by decide) ..)
  obtain ⟨u, hu⟩ : ∃ u, raise pgFUS 0x102 sevINFO (voteArg s q) (wrN pgFUS 0x084 (voteArg s q) (balloted q s)) = u := ⟨_, rfl⟩
  rw [hu] at happly hword hstay
  obtain ⟨t, hexec, happlied, hkeeps⟩ := castOrder_effect (by decide) h happly hstay
  exact ⟨t, hexec, happlied, (hkeeps.regs _ _ (by decide) (by decide)).trans hword⟩

theorem metJourney_agreed (h : Agrees s q 0x08) (hok : journeyOrderRefused s (voteArg s q) = 0) (hvin : s.met.vin = true) :
    ∃ t, exec (.metJourney q) s = .next t ∧ Applied t 0x08 ∧ t.mbr.journeySeq = some s.mbr.txSeq ∧
      t.met.mailbox.map (·.bytes) = s.met.mailbox.map (·.bytes) ++
        [mkFrame (voteArg s q % 256) s.mbr.txSeq (voteArg s q / 256 * 256)] := by
  have hok' : journeyOrderRefused (balloted q s) (voteArg s q) = 0 := by
    unfold journeyOrderRefused mbrOn at *
    rw [balloted_field State.mbr, rdB_congr (rd_balloted (by decide) (by decide)), pageOn_congr (balloted_field State.pd0) (rd_balloted (by decide) (by decide))]
    exact hok
  have happly := applyMetJourney_eq hok'
  obtain ⟨hseq, hmail, hregs⟩ := applyJourneyOrder_shows (s := balloted q s) ((balloted_field (fun x => x.met.vin)).trans hvin) (voteArg s q)
  rw [balloted_field State.mbr] at hseq hmail
  rw [balloted_field State.met] at hmail
  obtain ⟨u, hu⟩ : ∃ u, applyJourneyOrder (voteArg s q) (balloted q s) = u := ⟨_, rfl⟩
  rw [hu] at happly hseq hmail hregs
  obtain ⟨t, hexec, happlied, hkeeps⟩ := castOrder_effect (by decide) h happly (rd_of_regs hregs ..)
  exact ⟨t, hexec, happlied, (congrArg Bridge.journeySeq hkeeps.mbr).trans hseq,
    (congrArg (fun m : Met => m.mailbox.map (·.bytes)) hkeeps.met).trans hmail⟩

end

/-- Settles O17. -/
theorem agreedPowerAndBlockOrders : Obligations.AgreedPowerAndBlockOrders :=
  ⟨⟨fun _ _ => domain_agreed, fun _ _ => vcore_agreed, fun _ _ => dmcMap_agreed⟩, fun _ _ => fusXform_agreed, fun _ _ => fusMode_agreed,
    fun _ _ => metJourney_agreed⟩

end Sys2Proof.Machine
end

section
/-!
PROOFS. A port's link and resets, and its data aperture (O12, O13).
-/
namespace Sys2Proof.Machine

/-! ### The state of one port -/

section
variable (q : Port) (f : PortState → PortState) (s : State)

theorem port_modPort : (s.modPort q f).port q = f (s.port q) := by cases q <;> rfl

theorem port_modPort_other : (s.modPort q f).port q.other = s.port q.other := by cases q <;> rfl

theorem now_modPort : now (s.modPort q f) = now s := by cases q <;> rfl

theorem memStands_modPort : MemStands s (s.modPort q f) := memStands_of_mem (by cases q <;> rfl)

end

theorem port_of_reports {s t : State} (h : ReportsOnly s t) (r : Port) : t.port r = s.port r :=
  h.field (fun x => x.port r) (fun _ _ _ => by cases r <;> rfl)

theorem pgHP_lt (q : Port) : pgHP q < 0x100 := by cases q <;> decide

/-! ### The data aperture -/

theorem modPort_self {q : Port} {f : PortState → PortState} {s : State} (h : f (s.port q) = s.port q) : s.modPort q f = s := by
  unfold State.modPort
  rw [h]
  cases q <;> rfl

theorem serveHeld_none {s : State} {q : Port} (h : NoneHeld s q) : serveHeld q s = s := by
  unfold serveHeld
  rw [h]
  exact modPort_self (by rw [← h])

/-- An access that is decided and served, or refused. -/
theorem apDecide_done {q : Port} {off len : Nat} {data : Option (List (Option Byte))} {s u : State} (h : NoneHeld s q)
    (hserve : apServe q ⟨off, apBase s q + off, len, data⟩ s = (false, u)) : apDecide q off len data s = u := by
  unfold apDecide; rw [serveHeld_none h]; dsimp only; rw [hserve]; rfl

/-- An access that stays held. -/
theorem apDecide_kept {q : Port} {off len : Nat} {data : Option (List (Option Byte))} {s u : State} (h : NoneHeld s q)
    (hserve : apServe q ⟨off, apBase s q + off, len, data⟩ s = (true, u)) :
    apDecide q off len data s = s.modPort q (fun p => { p with held := p.held ++ [⟨off, apBase s q + off, len, data⟩] }) := by
  unfold apDecide; rw [serveHeld_none h]; dsimp only; rw [hserve]; rfl

theorem exec_apertureRead {q : Port} {off len : Nat} {s : State} (hlive : portLive s q = true) (h1 : 1 ≤ len) (h4 : len ≤ 4096)
    (hend : off + len ≤ 2 ^ 32) : exec (.apertureRead q off len) s = settle s (apDecide q off len none s) := by
  refine congrArg (settle s) (if_neg ?_)
  rw [hlive, decide_eq_false (by omega : ¬len = 0), decide_eq_false (by omega : ¬4096 < len), decide_eq_false (by omega : ¬2 ^ 32 < off + len)]
  decide

theorem exec_apertureWrite {q : Port} {off : Nat} {data : List (Option Byte)} {s : State} (hlive : portLive s q = true)
    (h1 : 1 ≤ data.length) (h2 : data.length ≤ 256) (hend : off + data.length ≤ 2 ^ 32) :
    exec (.apertureWrite q off data) s = settle s (apDecide q off data.length (some data) s) := by
  refine congrArg (settle s) (if_neg ?_)
  rw [hlive, decide_eq_false (by omega : ¬data.length = 0), decide_eq_false (by omega : ¬256 < data.length),
    decide_eq_false (by omega : ¬2 ^ 32 < off + data.length)]
  decide

theorem apServe_notData {q : Port} {x : HeldAccess} {s : State} (h : isData s x.dpa x.len = false) :
    apServe q x s = (false, apRefuse q x.offset
      (if x.data.isNone then s.modPort q (fun p => { p with readBytes := zeros x.len, readEP := false }) else s)) := by
  unfold apServe; rw [if_pos (by rw [h]; decide)]

theorem apServe_held {q : Port} {x : HeldAccess} {s : State} (h : isData s x.dpa x.len = true) (huse : canUse s (srcPort q) x.dpa x.len = false) :
    apServe q x s = (true, s) := by
  unfold apServe; rw [if_neg (by rw [h]; decide), if_pos (by rw [huse]; decide)]

section
variable {q : Port} {off a : Nat} {s : State}

theorem apServe_read {n : Nat} (huse : canUse s (srcPort q) a n = true) : apServe q ⟨off, a, n, none⟩ s = (false, apRead q a n s) := by
  unfold apServe
  rw [if_neg (by rw [isData_of_memUsable (memUsable_of_canUse huse)]; decide), if_neg (by rw [huse]; decide)]

theorem apServe_write {n : Nat} {data : List (Option Byte)} (huse : canUse s (srcPort q) a n = true) :
    apServe q ⟨off, a, n, some data⟩ s = (false, apWrite q a data s) := by
  unfold apServe
  rw [if_neg (by rw [isData_of_memUsable (memUsable_of_canUse huse)]; decide), if_neg (by rw [huse]; decide)]

end

theorem apRead_good {q : Port} {a n : Nat} {s : State} (h : GoodWords s a n) :
    ((apRead q a n s).port q).readBytes = getBytes s a n ∧ ((apRead q a n s).port q).readEP = false ∧ MemStands s (apRead q a n s) := by
  obtain ⟨t, ht, -, hdata⟩ := readAs_good (src := srcPort q) h
  unfold apRead
  rw [ht]; dsimp only [Option.isSome]
  rw [port_modPort]
  exact ⟨rfl, rfl, hdata.memStands.trans (memStands_modPort _ _ _)⟩

theorem apWrite_good {q : Port} {a : Nat} {bs : List (Option Byte)} {s : State} (hdata : isData s a bs.length = true)
    (h : GoodWords s a bs.length) (x : Nat) : getByte (apWrite q a bs s) x = overlay a bs (getByte s) x := by
  have huse := useMem_accounted (srcPort q) a bs.length s
  have hstands := useMem_data (srcPort q) a bs.length s
  obtain ⟨hnone, -, hbytes⟩ := writeEnabled_good (job := false) ((huse.sameUse.isData ..).trans hdata) (h.of_accounted huse hstands.marksStand)
  unfold apWrite; dsimp only
  rw [hnone, hbytes]
  exact overlay_eq_of (hstands.memStands x)

theorem refuse_apRefuse (q : Port) (off : Nat) (s : State) :
    apRefuse q off s = Machine.refuse q (pgHP q) cBAD_ACCESS (off % 4096 + 3 * 2 ^ 12 + q.num * 2 ^ 20) s := by
  unfold apRefuse badAccess
  rw [Nat.mod_eq_of_lt (Nat.lt_trans (pgHP_lt q) (by decide))]

/-- Settles O13. -/
theorem apertureReadsAndWrites : Obligations.ApertureReadsAndWrites := by
  intro q off s hlive hheld
  refine ⟨fun len h1 h4 hend huse hgood => ?_, fun data h1 h2 hend huse hgood => ?_, fun len h1 h4 hend hnot => ?_,
    fun data h1 h2 hend hdata huse => ?_⟩
  · have hread := apRead_good (q := q) hgood
    have hexec := exec_apertureRead hlive h1 h4 hend
    rw [apDecide_done hheld (apServe_read huse)] at hexec
    obtain ⟨t, ht⟩ : ∃ t, apRead q (apBase s q + off) len s = t := ⟨_, rfl⟩
    rw [ht] at hread hexec
    exact ⟨_, hexec.trans (settle_eq ..), hread⟩
  · have hbytes := apWrite_good (q := q) (isData_of_memUsable (memUsable_of_canUse huse)) hgood
    have hexec := exec_apertureWrite hlive h1 h2 hend
    rw [apDecide_done hheld (apServe_write huse)] at hexec
    obtain ⟨t, ht⟩ : ∃ t, apWrite q (apBase s q + off) data s = t := ⟨_, rfl⟩
    rw [ht] at hbytes hexec
    exact ⟨_, hexec.trans (settle_eq ..), fun x hx => (hbytes x).trans (overlay_out hx _), fun i hi => (hbytes _).trans (overlay_in hi _)⟩
  · have hd : off % 4096 + 3 * 2 ^ 12 + q.num * 2 ^ 20 < 2 ^ 32 := by cases q <;> simp only [Port.num] <;> omega
    have hexec := exec_apertureRead hlive h1 h4 hend
    rw [apDecide_done hheld (apServe_notData hnot), refuse_apRefuse] at hexec
    replace hexec : exec (.apertureRead q off len) s = settle s (Machine.refuse q (pgHP q) cBAD_ACCESS (off % 4096 + 3 * 2 ^ 12 + q.num * 2 ^ 20)
      (s.modPort q (fun p => { p with readBytes := zeros len, readEP := false }))) := hexec
    obtain ⟨u, hu⟩ : ∃ u, s.modPort q (fun p => { p with readBytes := zeros len, readEP := false }) = u := ⟨_, rfl⟩
    have hbytes : (u.port q).readBytes = zeros len := by rw [← hu, port_modPort]
    have hmem : MemStands s u := hu ▸ memStands_modPort _ _ _
    rw [hu] at hexec
    have htold := told_refuse q (pgHP q) cBAD_ACCESS hd u
    have hport := port_refuse q q (pgHP q) cBAD_ACCESS (off % 4096 + 3 * 2 ^ 12 + q.num * 2 ^ 20) u
    have hmem' := hmem.trans (memStands_of_mem (refuse_mem q (pgHP q) cBAD_ACCESS (off % 4096 + 3 * 2 ^ 12 + q.num * 2 ^ 20) u))
    obtain ⟨t, ht⟩ : ∃ t, Machine.refuse q (pgHP q) cBAD_ACCESS (off % 4096 + 3 * 2 ^ 12 + q.num * 2 ^ 20) u = t := ⟨_, rfl⟩
    rw [ht] at hexec htold hport hmem'
    exact ⟨_, hexec.trans (settle_eq ..), (congrArg PortState.readBytes hport).trans hbytes, hmem', htold⟩
  · have hexec := exec_apertureWrite hlive h1 h2 hend
    rw [apDecide_kept hheld (apServe_held hdata huse)] at hexec
    obtain ⟨t, ht⟩ : ∃ t, s.modPort q (fun p => { p with held := p.held ++ [⟨off, apBase s q + off, data.length, some data⟩] }) = t := ⟨_, rfl⟩
    have hheld' : (t.port q).held = [⟨off, apBase s q + off, data.length, some data⟩] := by
      rw [← ht, port_modPort, show (s.port q).held = [] from hheld]; rfl
    have hmem : MemStands s t := ht ▸ memStands_modPort _ _ _
    have hregs : t.regs = s.regs := by rw [← ht]; cases q <;> rfl
    rw [ht] at hexec
    exact ⟨_, hexec.trans (settle_eq ..), hheld', hmem, hregs⟩

/-! ### The host configures its port -/

/-- What a host's accesses to its configuration space leave of the port: all but the configuration, the messages pending and sent, and
the data read. -/
def linkView (p : PortState) : PortState := { p with config := PortConfig.reset, pending := [], sent := [], readData := 0, readEP := false }

/-- Only the configuration, messages and read data of port `q` moved. -/
def Configures (q : Port) (s t : State) : Prop := ∃ v, t = s.setPort q v ∧ linkView v = linkView (s.port q)

namespace Configures

variable {q : Port} {s t u : State}

theorem refl (q : Port) (s : State) : Configures q s s := ⟨s.port q, by cases q <;> rfl, rfl⟩

theorem trans (h : Configures q s t) (g : Configures q t u) : Configures q s u := by
  obtain ⟨v, rfl, hv⟩ := h
  obtain ⟨w, rfl, hw⟩ := g
  exact ⟨w, by cases q <;> rfl, hw.trans (.trans (by cases q <;> rfl) hv)⟩

theorem modPort (q : Port) {f : PortState → PortState} (s : State) (h : ∀ p, linkView (f p) = linkView p := by exact fun _ => rfl) :
    Configures q s (s.modPort q f) :=
  ⟨f (s.port q), rfl, h _⟩

theorem view (h : Configures q s t) {α : Type} (f : PortState → α) (hf : ∀ p, f (linkView p) = f p := by exact fun _ => rfl) :
    f (t.port q) = f (s.port q) := by
  obtain ⟨v, rfl, hv⟩ := h
  have hport : (s.setPort q v).port q = v := by cases q <;> rfl
  rw [hport, ← hf v, hv, hf]

theorem other (h : Configures q s t) : t.port q.other = s.port q.other := by
  obtain ⟨v, rfl, -⟩ := h
  cases q <;> rfl

theorem field (h : Configures q s t) {α : Type} (f : State → α) (hf : ∀ x v, f (x.setPort q v) = f x) : f t = f s := by
  obtain ⟨v, rfl, -⟩ := h
  exact hf s v

theorem regs (h : Configures q s t) : t.regs = s.regs := h.field State.regs fun _ _ => by cases q <;> rfl

theorem outbox (h : Configures q s t) : t.outbox = s.outbox := h.field State.outbox fun _ _ => by cases q <;> rfl

theorem memStands (h : Configures q s t) : MemStands s t := memStands_of_mem (h.field State.mem fun _ _ => by cases q <;> rfl)

theorem told (h : Configures q s t) {r : Port} {p c d : Nat} (ht : Told s r p c d) : Told t r p c d := by
  unfold Told; rw [h.outbox]; exact ht

end Configures

theorem sendMsix_configures (q : Port) (v : Nat) (s : State) : Configures q s (sendMsix q v s) := by
  unfold sendMsix; split
  · exact .refl q s
  · split
    · exact .modPort q s
    · exact .modPort q s

theorem sendPending_configures (q : Port) (vs : List Nat) (s : State) : Configures q s (sendPending q vs s) :=
  foldl_keeps (Configures q s) _ (fun t v ht => by
    split
    · exact ht.trans ((Configures.modPort q t).trans (sendMsix_configures ..))
    · exact ht) vs (.refl q s)

theorem cfgAccess_configures (q : Port) (a : CfgAccess) (s : State) : Configures q s (cfgAccess q a s) := by
  have hset : Configures q s (s.modPort q (fun p => { p with config := setConfig (s.port q).config a })) := .modPort q s
  cases a with
  | read off => unfold cfgAccess; exact hset.trans (.modPort q _)
  | _ => exact hset.trans (sendPending_configures ..)

theorem configure_configures (q : Port) (l : List CfgAccess) (s : State) : Configures q s (configure q l s) :=
  foldl_keeps (Configures q s) _ (fun t a ht => ht.trans (cfgAccess_configures q a t)) l (.refl q s)

/-- Where no message is pending, none becomes pending. -/
theorem sendPending_nothing {q : Port} {s : State} (h : (s.port q).pending = []) (vs : List Nat) : sendPending q vs s = s :=
  foldl_keeps (fun t => t = s) _ (fun t v ht => by
    subst ht
    rw [h]; rfl) vs rfl

theorem configure_pending (q : Port) (l : List CfgAccess) {s : State} (h : (s.port q).pending = []) : ((configure q l s).port q).pending = [] := by
  refine foldl_keeps (fun t : State => (t.port q).pending = []) _ (fun t a ht => ?_) l h
  have hset : ((t.modPort q (fun p => { p with config := setConfig (t.port q).config a })).port q).pending = [] := by rw [port_modPort]; exact ht
  cases a with
  | read off => exact (congrArg PortState.pending (port_modPort q _ (t.modPort q _))).trans hset
  | _ => exact (congrArg (fun u : State => (u.port q).pending) (sendPending_nothing hset _)).trans hset

/-! ### Rings cleared, links up and down -/

theorem hwClear_clears {p off i : Nat} (ho : off < 0x1000) (hlow : ¬(off = 0x014 ∨ off = 0x020 ∨ off = 0x024)) (hi : i < 32) (s : State) :
    rdB (hwClear p off i s) p off i = false := by
  unfold hwClear; split
  · rw [rdB_congr (rd_raiseOnly ho (fun h => hlow h.2) ..)]
    exact rdB_wrB _ _ _ _ _ hi
  · exact Bool.eq_false_iff.mpr ‹_›

/-- A fold that clears bit 31 of the register at `f n` of a page for each `n < N`, the registers distinct. -/
theorem foldl_hwClear {p N : Nat} {f : Nat → Nat} (hf : ∀ n, n < N → f n < 0x1000 ∧ 0x024 < f n) (hinj : ∀ n m, n < N → m < N → f n = f m → n = m)
    (s : State) : ∀ n, n < N → rdB ((List.range N).foldl (fun u m => hwClear p (f m) 31 u) s) p (f n) 31 = false := by
  suffices ∀ k, k ≤ N → ∀ n, n < k → rdB ((List.range k).foldl (fun u m => hwClear p (f m) 31 u) s) p (f n) 31 = false from this N (Nat.le_refl _)
  intro k hk
  induction k with
  | zero => exact fun n hn => absurd hn (Nat.not_lt_zero n)
  | succ k ih =>
    intro n hn
    rw [List.range_succ, List.foldl_append, List.foldl_cons, List.foldl_nil]
    obtain ⟨hfk, hfk'⟩ := hf k hk
    obtain ⟨hfn, hfn'⟩ := hf n (by omega)
    by_cases h : n = k
    · subst h
      exact hwClear_clears hfk (by omega) (by decide) _
    · exact (rdB_congr (rd_hwClear hfk hfn (fun e => by have := hinj n k (by omega) hk; omega) ..) 31).trans (ih (by omega) n (by omega))

theorem clearRings_reports (q : Port) (s : State) : ReportsOnly s (clearRings q s) :=
  foldl_keeps (ReportsOnly s) _ (fun _ _ ht => ht.trans (hwClear_reports ..)) _
    (foldl_keeps (ReportsOnly s) _ (fun _ _ ht => ht.trans (hwClear_reports ..)) _ (.refl s))

/-- Clearing bits elsewhere in a page leaves a register. -/
theorem rd_foldl_hwClear {p off : Nat} (ho : off < 0x1000) (hlow : 0x024 < off) {f : Nat → Nat} : ∀ {l : List Nat}, (∀ m ∈ l, f m < 0x1000 ∧ f m ≠ off) →
    ∀ u, rd (l.foldl (fun u m => hwClear p (f m) 31 u) u) p off = rd u p off
  | [], _, _ => rfl
  | m :: l, hl, u => by
    obtain ⟨hm, hne⟩ := hl m List.mem_cons_self
    exact (rd_foldl_hwClear ho hlow (fun x hx => hl x (List.mem_cons_of_mem m hx)) _).trans (rd_hwClear hm ho (by omega) ..)

theorem clearRings_clears (q : Port) (s : State) :
    (∀ n < 16, crEnabled (clearRings q s) q n = false) ∧ ∀ m < 4, erEnabled (clearRings q s) q m = false := by
  have hcmd := foldl_hwClear (p := pgHP q) (N := 16) (f := fun n => crOff n 0x08) (fun n hn => by unfold crOff; omega)
    (fun n m _ _ h => by unfold crOff at h; omega) s
  have hevt (u : State) := foldl_hwClear (p := pgHP q) (N := 4) (f := fun m => erOff m 0x08) (fun n hn => by unfold erOff; omega)
    (fun n m _ _ h => by unfold erOff at h; omega) u
  have hstays (n : Nat) (hn : n < 16) (u : State) := rd_foldl_hwClear (p := pgHP q) (off := crOff n 0x08) (f := fun m => erOff m 0x08)
    (l := List.range 4) (by unfold crOff; omega) (by unfold crOff; omega)
    (fun m hm => by have := List.mem_range.mp hm; unfold crOff erOff; omega) u
  unfold crEnabled erEnabled clearRings
  dsimp only at hcmd hevt hstays ⊢
  obtain ⟨u, hu⟩ : ∃ u, (List.range 16).foldl (fun u n => hwClear (pgHP q) (crOff n 0x08) 31 u) s = u := ⟨_, rfl⟩
  rw [hu] at hcmd ⊢
  exact ⟨fun n hn => (rdB_congr (hstays n hn u) 31).trans (hcmd n hn), hevt u⟩

/-- A port's rings cleared and its configuration at its defaults, and records told since. -/
structure PortReset (q : Port) (s t : State) : Prop where
  cmd : ∀ n < 16, crEnabled t q n = false
  evt : ∀ m < 4, erEnabled t q m = false
  port : t.port q = { s.port q with config := PortConfig.reset, msix := [], pending := [] }
  mem : t.mem = s.mem
  tb : t.tb = s.tb

theorem portReset_clearRings (q : Port) (s : State) : PortReset q s (clearRings q (portDefaults q s)) := by
  have hreports := clearRings_reports q (portDefaults q s)
  have hmem : (portDefaults q s).mem = s.mem := by cases q <;> rfl
  have htb : (portDefaults q s).tb = s.tb := by cases q <;> rfl
  exact ⟨(clearRings_clears ..).1, (clearRings_clears ..).2, (port_of_reports hreports q).trans (port_modPort ..),
    (hreports.field State.mem).trans hmem, (hreports.field State.tb).trans htb⟩

theorem PortReset.raise {q : Port} {s t : State} (h : PortReset q s t) (c v d : Nat) : PortReset q s (Machine.raise (pgHP q) c v d t) := by
  refine ⟨fun n hn => (rdB_congr (rd_raise (by unfold crOff; omega) (by unfold crOff; omega) ..) 31).trans (h.cmd n hn),
    fun m hm => (rdB_congr (rd_raise (by unfold erOff; omega) (by unfold erOff; omega) ..) 31).trans (h.evt m hm),
    (port_of_reports (raise_reports ..) q).trans h.port, (raise_mem ..).trans h.mem, (raise_tb ..).trans h.tb⟩

/-- What the host's accesses after a reset leave of it. -/
theorem PortReset.configured {q : Port} {s t : State} (h : PortReset q s t) (cfg : List CfgAccess) :
    (∀ n < 16, crEnabled (configure q cfg t) q n = false) ∧ (∀ m < 4, erEnabled (configure q cfg t) q m = false) ∧
      ((configure q cfg t).port q).msix = [] ∧ ((configure q cfg t).port q).pending = [] ∧ ((configure q cfg t).port q).up = (s.port q).up ∧
      (configure q cfg t).tb = s.tb ∧ MemStands s (configure q cfg t) := by
  have hconf := configure_configures q cfg t
  have hrd (p off : Nat) : rd (configure q cfg t) p off = rd t p off := rd_of_regs hconf.regs p off
  refine ⟨fun n hn => (rdB_congr (hrd _ _) 31).trans (h.cmd n hn), fun m hm => (rdB_congr (hrd _ _) 31).trans (h.evt m hm),
    (hconf.view PortState.msix).trans (congrArg PortState.msix h.port), configure_pending q cfg (congrArg PortState.pending h.port),
    (hconf.view PortState.up).trans ((congrArg PortState.up h.port).trans rfl), (hconf.field State.tb fun _ _ => by cases q <;> rfl).trans h.tb,
    (memStands_of_mem h.mem).trans hconf.memStands⟩

theorem exec_flr {q : Port} {s : State} (hlive : portLive s q = true) (cfg : List CfgAccess) :
    ∃ u, exec (.flr q cfg) s = settle s (configure q cfg u) ∧ PortReset q s u ∧ Told u q (pgHP q) 0x105 0 := by
  refine ⟨_, congrArg (settle s) (if_pos hlive), (portReset_clearRings q s).raise .., told_raise ?_ 0⟩
  cases q <;> rfl

theorem exec_perst {q : Port} {s : State} (hdom : domOn s 1 = true) (cfg : List CfgAccess) :
    ∃ u cfg', exec (.perst q cfg) s = settle s (configure q cfg' u) ∧ PortReset q s u ∧ (cfg = [] → cfg' = []) := by
  have hif (u : State) : (if (s.port q).up then configure q cfg u else u) = configure q (if (s.port q).up then cfg else []) u := by
    split <;> rfl
  exact ⟨_, _, congrArg (settle s) ((if_pos hdom).trans (hif _)), portReset_clearRings q s, fun h => by rw [h, ite_self]⟩

/-- The state of a port whose link is down. -/
def portDown (now : Nat) (p : PortState) : PortState :=
  { p with up := false, down := true, downAt := now, speed := 0, width := 0, held := p.held.filter (·.data.isSome),
           config := PortConfig.reset, msix := [], pending := [] }

theorem exec_linkDown {q : Port} {s : State} (hlive : portLive s q = true) :
    exec (.linkDown q) s = settle s (raise (pgHP q) 0x102 sevDEGRADED 0 (incCnt (pgHP q) 0x0A4 1 (wrN (pgHP q) 0x080 0
      (s.modPort q (portDown (now s)))))) := by
  refine (congrArg (settle s) (if_pos hlive)).trans ?_
  cases q <;> rfl

/-- A link's event is told to both ports (R104). -/
theorem told_link {q r : Port} {c d : Nat} (hc : c = 0x102 ∨ c = 0x103) (hd : d < 2 ^ 32) (v : Nat) (s : State) :
    Told (raise (pgHP q) c v d s) r (pgHP q) c d := by
  have htold : Told (raise (pgHP q) c v d s) r (pgHP q) c (d % 2 ^ 32) := by
    refine told_raise ?_ d
    have hkind : kindOf (pgHP q) = some .hp := by cases q <;> decide
    unfold destOf
    rw [hkind]
    dsimp only
    rw [if_pos hc, ite_self]
    cases r <;> rfl
  rwa [Nat.mod_eq_of_lt hd] at htold

theorem linkDown_shows {q : Port} {s : State} (hlive : portLive s q = true) :
    ∃ t, exec (.linkDown q) s = .next t ∧ (t.port q).up = false ∧ (t.port q).down = true ∧
      (t.port q).downAt = now s ∧ (t.port q).msix = [] ∧ (t.port q).config = PortConfig.reset ∧
      Told t .a (pgHP q) 0x102 0 ∧ Told t .b (pgHP q) 0x102 0 ∧
      rd t (pgHP q) 0x0A4 = BitVec.ofNat 32 ((rd s (pgHP q) 0x0A4).toNat + 1) ∧ t.port q.other = s.port q.other := by
  have hexec := exec_linkDown hlive
  obtain ⟨u, hu⟩ : ∃ u, s.modPort q (portDown (now s)) = u := ⟨_, rfl⟩
  have hport : u.port q = portDown (now s) (s.port q) := hu ▸ port_modPort ..
  have hother : u.port q.other = s.port q.other := hu ▸ port_modPort_other ..
  have hrd : rd u (pgHP q) 0x0A4 = rd s (pgHP q) 0x0A4 := hu ▸ rd_modPort ..
  rw [hu] at hexec
  obtain ⟨v, hv⟩ : ∃ v, incCnt (pgHP q) 0x0A4 1 (wrN (pgHP q) 0x080 0 u) = v := ⟨_, rfl⟩
  have hcount : rd v (pgHP q) 0x0A4 = BitVec.ofNat 32 ((rd s (pgHP q) 0x0A4).toNat + 1) := by
    rw [← hv, rd_incCnt (by decide) (by decide), rd_wrN_other (by decide) (by decide) (fun h => absurd h.2 (by decide)), hrd]
  have hreports : ReportsOnly u v := hv ▸ (wrN_reports ..).trans (incCnt_reports ..)
  rw [hv] at hexec
  have hreports' := hreports.trans (raise_reports (pgHP q) 0x102 sevDEGRADED 0 v)
  have hcount' := (rd_raise (p := pgHP q) (by decide) (fun h => absurd h.2 (by decide)) 0x102 sevDEGRADED 0 v).trans hcount
  have htold (r : Port) := told_link (q := q) (r := r) (c := 0x102) (d := 0) (.inl rfl) (by decide) sevDEGRADED v
  obtain ⟨t, ht⟩ : ∃ t, raise (pgHP q) 0x102 sevDEGRADED 0 v = t := ⟨_, rfl⟩
  rw [ht] at hexec hreports' hcount'
  simp only [ht] at htold
  have hport' : t.port q = portDown (now s) (s.port q) := (port_of_reports hreports' q).trans hport
  refine ⟨_, hexec.trans (settle_eq ..), congrArg PortState.up hport', congrArg PortState.down hport', congrArg PortState.downAt hport',
    congrArg PortState.msix hport', congrArg PortState.config hport', htold .a, htold .b, hcount', (port_of_reports hreports' _).trans hother⟩

theorem linkUp_shows {q : Port} {s : State} (hdom : domOn s 1 = true) (hup : (s.port q).up = false) (speed width : Nat) (cfg : List CfgAccess) :
    ∃ t, exec (.linkUp q speed width cfg) s = .next t ∧ (t.port q).up = true ∧ (t.port q).down = false ∧
      (t.port q).speed = trainedSpeed s speed ∧ Told t .a (pgHP q) 0x103 (downMs s q) ∧ Told t .b (pgHP q) 0x103 (downMs s q) ∧
      t.port q.other = s.port q.other := by
  have hms : downMs s q < 2 ^ 32 := by
    unfold downMs satN; split <;> omega
  obtain ⟨ms, hms'⟩ : ∃ ms, downMs s q = ms := ⟨_, rfl⟩
  obtain ⟨g, hg⟩ : ∃ g, trainedSpeed s speed = g := ⟨_, rfl⟩
  rw [hms'] at hms
  have hexec : exec (.linkUp q speed width cfg) s = settle s (configure q cfg (raise (pgHP q) 0x103 sevINFO (downMs s q)
      (wrN (pgHP q) 0x080 (1 + trainedSpeed s speed * 2 + width * 16) (s.modPort q (fun p => { p with
        up := true, down := false, upAt := if p.down then now s else 0, speed := trainedSpeed s speed, width := width }))))) :=
    congrArg (settle s) (if_pos (by rw [hdom, hup]; rfl))
  rw [hms', hg] at hexec
  obtain ⟨u, hu⟩ : ∃ u, s.modPort q (fun p => { p with up := true, down := false, upAt := if p.down then now s else 0, speed := g, width := width }) = u :=
    ⟨_, rfl⟩
  have hport : (u.port q).up = true ∧ (u.port q).down = false ∧ (u.port q).speed = g := by
    rw [← hu, port_modPort]; exact ⟨rfl, rfl, rfl⟩
  have hother : u.port q.other = s.port q.other := hu ▸ port_modPort_other ..
  rw [hu] at hexec
  obtain ⟨w, hw⟩ : ∃ w, 1 + g * 2 + width * 16 = w := ⟨_, rfl⟩
  rw [hw] at hexec
  have hreports := (wrN_reports (pgHP q) 0x080 w u).trans (raise_reports (pgHP q) 0x103 sevINFO ms _)
  have htold (r : Port) := told_link (q := q) (r := r) (c := 0x103) (.inr rfl) hms sevINFO (wrN (pgHP q) 0x080 w u)
  obtain ⟨v, hv⟩ : ∃ v, raise (pgHP q) 0x103 sevINFO ms (wrN (pgHP q) 0x080 w u) = v := ⟨_, rfl⟩
  rw [hv] at hexec hreports
  simp only [hv] at htold
  have hconf := configure_configures q cfg v
  obtain ⟨t, ht⟩ : ∃ t, configure q cfg v = t := ⟨_, rfl⟩
  rw [ht] at hexec hconf
  have hvq := port_of_reports hreports q
  obtain ⟨hup', hdown, hspeed⟩ := hport
  rw [hms', hg]
  exact ⟨_, hexec.trans (settle_eq ..), (hconf.view PortState.up).trans ((congrArg PortState.up hvq).trans hup'),
    (hconf.view PortState.down).trans ((congrArg PortState.down hvq).trans hdown),
    (hconf.view PortState.speed).trans ((congrArg PortState.speed hvq).trans hspeed), hconf.told (htold .a), hconf.told (htold .b),
    hconf.other.trans ((port_of_reports hreports _).trans hother)⟩

theorem cfgWord_zero (c : PortConfig) (q : Port) : cfgWord c q 0 = Config.vendorId.toNat + deviceId q * 2 ^ 16 := by
  unfold cfgWord; exact if_pos rfl

theorem configure_read (q : Port) (off : Nat) (s : State) : configure q [.read off] s =
    (s.modPort q (fun p => { p with config := setConfig (s.port q).config (.read off) })).modPort q
      (fun p => { p with readData := cfgWord (s.port q).config q off, readEP := false }) := rfl

/-- Settles O12. -/
theorem linksAndPortResets : Obligations.LinksAndPortResets := by
  refine fun q s => ⟨linkDown_shows, fun speed width cfg hdom hup => linkUp_shows hdom hup speed width cfg, fun cfg hdom => ?_, fun hlive => ?_,
    fun cfg hlive => ?_, fun k hlive => ?_⟩
  · obtain ⟨u, cfg', hexec, hreset, hcfg⟩ := exec_perst hdom cfg
    obtain ⟨hcmd, hevt, hmsix, hpending, hup, htb, hmem⟩ := hreset.configured cfg'
    refine ⟨_, hexec.trans (settle_eq ..), hcmd, hevt, hmsix, hpending, hup, fun h => ?_, htb, hmem⟩
    rw [hcfg h]
    exact congrArg PortState.config hreset.port
  · obtain ⟨u, hexec, -, -⟩ := exec_flr hlive [.read 0]
    have hdata : ((configure q [.read 0] u).port q).readData = Config.vendorId.toNat + deviceId q * 2 ^ 16 := by
      rw [configure_read, port_modPort]; exact cfgWord_zero (u.port q).config q
    have hid : (Config.vendorId.toNat + deviceId q * 2 ^ 16) / 2 ^ 16 = 0x7360 + q.num := by
      have := Config.vendorId.isLt
      unfold deviceId; omega
    rw [← hdata] at hid
    exact ⟨_, hexec.trans (settle_eq ..), hid⟩
  · obtain ⟨u, hexec, hreset, htold⟩ := exec_flr hlive cfg
    obtain ⟨hcmd, hevt, hmsix, -, -, -, hmem⟩ := hreset.configured cfg
    exact ⟨_, hexec.trans (settle_eq ..), hcmd, hevt, hmsix, (configure_configures ..).told htold, hmem⟩
  · have hstay : exec (.unsupportedRequest q .vendorType1) s = settle s s :=
      congrArg (settle s) (if_neg (by rw [hlive]; decide))
    have hcounted (h : k ≠ .vendorType1) : exec (.unsupportedRequest q k) s = settle s (s.modPort q (fun p => { p with unsupported := p.unsupported + 1 })) :=
      congrArg (settle s) (if_pos (by rw [hlive, decide_eq_true h]; rfl))
    by_cases hk : k = .vendorType1
    · rw [hk]
      exact ⟨_, hstay.trans (settle_eq ..), rfl, fun _ => rfl, rfl⟩
    · refine ⟨_, (hcounted hk).trans (settle_eq ..), ?_, ?_, ?_⟩
      · cases q <;> rfl
      · exact memStands_of_mem (by cases q <;> rfl)
      · rw [if_neg hk]; cases q <;> rfl

end Sys2Proof.Machine
end

section
/-!
PROOFS. What leaves every page's fence and its `PG_CTRL` as they stand: the operations a fence, an ENABLE and their effects use.
-/
namespace Sys2Proof.Machine

/-- The fences, and `PG_CTRL` of every page. -/
def ctrlOf (s : State) : SMap FenceState × (Nat → Word) := (s.fences, fun p => rd s p 0x00C)

theorem ctrlOf_eq {s t : State} (hfences : t.fences = s.fences) (hrd : ∀ p, rd t p 0x00C = rd s p 0x00C) : Same ctrlOf s t :=
  Prod.ext hfences (funext hrd)

theorem Same.fenceOf {s t : State} (h : Same ctrlOf s t) (p : Nat) : Machine.fenceOf t p = Machine.fenceOf s p :=
  congrArg (fun f : SMap FenceState => f.get FenceState.none p) (congrArg Prod.fst h)

theorem Same.rdCtrl {s t : State} (h : Same ctrlOf s t) (p : Nat) : rd t p 0x00C = rd s p 0x00C := congrFun (congrArg Prod.snd h) p

/-! ### Registers and reports -/

section
variable {p off : Nat} (ho : off < 0x1000) (hne : off ≠ 0x00C)
include ho hne

theorem ctrl_wr (v : Word) (s : State) : Same ctrlOf s (wr p off v s) :=
  ctrlOf_eq (wr_fences ..) fun _ => rd_wr_other ho (by decide) (fun h => hne h.2.symm) ..

theorem ctrl_wrN (v : Nat) (s : State) : Same ctrlOf s (wrN p off v s) := ctrl_wr ho hne ..

theorem ctrl_wrF (hi lo v : Nat) (s : State) : Same ctrlOf s (wrF p off hi lo v s) := ctrl_wr ho hne ..

theorem ctrl_wrB (i : Nat) (b : Bool) (s : State) : Same ctrlOf s (wrB p off i b s) := ctrl_wr ho hne ..

theorem ctrl_incCnt (n : Nat) (s : State) : Same ctrlOf s (incCnt p off n s) :=
  ctrlOf_eq (incCnt_fences ..) fun _ => rd_incCnt_ne ho (by decide) (by omega) ..

end

theorem rd_raise_noBlock {p off : Nat} (ho : off < 0x1000) (hne : off ≠ 0x014 ∧ off ≠ 0x020 ∧ off ≠ 0x024) {v : Nat} (hv : v < sevBLOCK)
    (p' c d : Nat) (s : State) : rd (raise p' c v d s) p off = rd s p off := by
  unfold raise; dsimp only
  rw [decide_eq_false (Nat.not_le.mpr hv)]
  exact rd_raiseOnly ho (by omega) ..

theorem ctrl_raise {v : Nat} (hv : v < sevBLOCK) (p c d : Nat) (s : State) : Same ctrlOf s (raise p c v d s) :=
  ctrlOf_eq (raise_fences ..) fun _ => rd_raise_noBlock (by decide) (by decide) hv ..

theorem ctrl_setReady (p v : Nat) (s : State) : Same ctrlOf s (setReady p v s) := by
  unfold setReady
  exact .ite (.refl s) ((ctrl_raise (by decide) ..).after (ctrl_wrN (by decide) (by decide) ..))

theorem ctrl_setReadyBit (p i : Nat) (b : Bool) (s : State) : Same ctrlOf s (setReadyBit p i b s) := ctrl_setReady ..

theorem ctrl_syncQuiesced (p : Nat) (s : State) : Same ctrlOf s (syncQuiesced p s) := .ite (ctrl_setReadyBit ..) (.refl s)

theorem ctrl_stallEnd (p : Nat) (s : State) : Same ctrlOf s (stallEnd p s) :=
  .ite ((ctrl_raise (by decide) ..).after (ctrl_wrB (by decide) (by decide) ..)) (.refl s)

theorem ctrl_jobEnded (p : Nat) (s : State) : Same ctrlOf s (jobEnded p s) :=
  .ite ((ctrl_syncQuiesced ..).after (ctrl_stallEnd ..)) (.refl s)

theorem ctrl_tells {s t : State} (h : Tells s t) : Same ctrlOf s t :=
  ctrlOf_eq (by rw [h.eq]) fun p => h.regs p _ (by decide) (by decide)

theorem ctrl_tellLinked (p : Nat) (s : State) : Same ctrlOf s (tellLinked p s) :=
  .ite (ctrl_tells (.tellPages s)) (.ite (ctrl_tells (.tellAll p s)) (.refl s))

/-! ### Memory -/

theorem ctrl_accounted {s t : State} (h : Accounted s t) : Same ctrlOf s t :=
  ctrlOf_eq (h.field State.fences) fun p => h.regs p 0x00C (by decide) (by unfold counted; omega)

theorem ctrl_storeAs (src : ReqSource) (a : Nat) (bs : List Byte) (s : State) : Same ctrlOf s (storeAs src a bs s) :=
  ctrl_accounted (storeAs_accounted ..)

theorem ctrl_writeAs (src : ReqSource) (a : Nat) (bs : List Byte) (s : State) : Same ctrlOf s (writeAs src a bs s).2 :=
  ctrl_accounted (writeAs_accounted ..)

/-! ### The blocks' own state -/

section
variable (s : State)

theorem ctrl_withMews (m : MewsState) : Same ctrlOf s { s with mews := m } := rfl
theorem ctrl_withSema (m : SemaState) : Same ctrlOf s { s with sema := m } := rfl
theorem ctrl_modUnit (u : Nat) (f : StreamUnit → StreamUnit) : Same ctrlOf s (modUnit u f s) := rfl
theorem ctrl_modCore (c : Nat) (f : TcCore → TcCore) : Same ctrlOf s (modCore c f s) := rfl
theorem ctrl_modGen (f : GenState → GenState) : Same ctrlOf s (modGen f s) := rfl
theorem ctrl_modSlot (n : Nat) (f : GenSlot → GenSlot) : Same ctrlOf s (modSlot n f s) := rfl
theorem ctrl_modPlk (f : Link → Link) : Same ctrlOf s (modPlk f s) := rfl
theorem ctrl_modJobs (p : Nat) (f : PageJobs → PageJobs) : Same ctrlOf s (modJobs p f s) := rfl
theorem ctrl_setEth (m : Nat) (v : EthState) : Same ctrlOf s (setEth m v s) := rfl
theorem ctrl_setLx (m x : Nat) (b : LidarBlk) : Same ctrlOf s (setLx m x b s) := rfl
theorem ctrl_setCam (c : Nat) (v : FstCam) : Same ctrlOf s (setCam c v s) := rfl
theorem ctrl_modCam (c : Nat) (f : FstCam → FstCam) : Same ctrlOf s (modCam c f s) := rfl
theorem ctrl_setMaint (m : Option FshMaint) : Same ctrlOf s (setMaint m s) := rfl
theorem ctrl_fillRange (lo hi : Nat) (v : Fill) : Same ctrlOf s (fillRange lo hi v s) := rfl
theorem ctrl_nextFree : Same ctrlOf s (nextFree s) := rfl
theorem ctrl_setInRing (p : Nat) (b : Bool) (r : InRing) : Same ctrlOf s (setInRing p b r s) := rfl
theorem ctrl_setVis (e : Nat) (v : VisEng) : Same ctrlOf s (setVis e v s) := rfl

end

/-! ### Semaphores and triggers -/

theorem ctrl_setSem (n : Nat) (e : Bool) (v : Nat) (s : State) : Same ctrlOf s (setSem n e v s) :=
  .ite (ctrl_wrF (by unfold semCnt; omega) (by unfold semCnt; omega) ..) (ctrl_wrF (by unfold semCnt; omega) (by unfold semCnt; omega) ..)

theorem ctrl_semServeOne (n : Nat) (e : Bool) (s : State) : Same ctrlOf s (semServeOne n e s) := by
  unfold semServeOne; split
  · exact .ite (.after (t := setSem ..) rfl (ctrl_setSem ..)) (.refl s)
  · exact .refl s

theorem same_iter {α : Type} {f : State → α} {g : State → State} (h : ∀ t, Same f t (g t)) : ∀ (n : Nat) (s : State), Same f s (iter g n s)
  | 0, _ => rfl
  | n + 1, s => (same_iter h n (g s)).after (h s)

theorem ctrl_semServe (n : Nat) (e : Bool) (s : State) : Same ctrlOf s (semServe n e s) := same_iter (ctrl_semServeOne n e) ..

theorem ctrl_semWithdraw (f : SemWho → Bool) (s : State) : Same ctrlOf s (semWithdraw f s) := by
  unfold semWithdraw
  refine .after (t := List.foldl ..) rfl (.foldl (fun t k => ?_) ..)
  exact (ctrl_semServe ..).after (f := ctrlOf) (s := t) rfl

theorem trigLoc_off {p q off : Nat} (h : trigLoc p = some (q, off)) : off < 0x1000 ∧ 0x080 ≤ off := by
  unfold trigLoc at h
  split at h
  · repeat' split at h
    all_goals (try simp only [Option.some.injEq, Prod.mk.injEq, reduceCtorEq] at h)
    all_goals (try omega)
  · cases h

theorem ctrl_setTrig (p i n : Nat) (s : State) : Same ctrlOf s (setTrig p i n s) := by
  unfold setTrig; split
  · rename_i q off h
    obtain ⟨ho, hlo⟩ := trigLoc_off h
    exact ctrl_wrF ho (by omega) ..
  · exact .refl s

theorem ctrl_trigPost (src p i : Nat) (s : State) : Same ctrlOf s (trigPost src p i s) := by
  unfold trigPost
  refine .ite (ctrl_raise (by decide) ..) ?_
  split
  · exact .refl s
  · rename_i q off h
    obtain ⟨ho, hlo⟩ := trigLoc_off h
    exact .ite (ctrl_setTrig ..) (.ite (.refl s) ((ctrl_raise (by decide) ..).after (ctrl_wrB ho (by omega) ..)))

theorem ctrl_postTarget (src target : Nat) (s : State) : Same ctrlOf s (postTarget src target s) := .ite (ctrl_trigPost ..) (.refl s)

/-! ### The Mews -/

theorem ctrl_opAnswer (op st h : Nat) (s : State) : Same ctrlOf s (opAnswer op st h s) :=
  (ctrl_wrN (by decide) (by decide) ..).after (ctrl_wrN (by decide) (by decide) ..)

theorem ctrl_grantBuf {n : Nat} (hn : n < 8) (r : MewsReq) (s : State) : Same ctrlOf s (grantBuf n r s).2 := by
  unfold grantBuf; dsimp only
  have hcount (u : State) : Same ctrlOf u (incCnt pgMEWS (0x11C + n * 0x20) 1 u) := ctrl_incCnt (by omega) (by omega) ..
  exact .ite ((ctrl_raise (by decide) ..).after ((hcount _).after (f := ctrlOf) (s := s) rfl)) ((hcount _).after (f := ctrlOf) (s := s) rfl)

theorem ctrl_grantWaiting {n : Nat} (hn : n < 8) (r : MewsReq) (s : State) : Same ctrlOf s (grantWaiting n r s) := by
  unfold grantWaiting; dsimp only; split
  · exact (ctrl_raise (by decide) ..).after ((ctrl_opAnswer ..).after (ctrl_grantBuf hn r s))
  · exact (Same.after (f := ctrlOf) (t := (grantBuf n r s).2) rfl (ctrl_grantBuf hn r s))

theorem ctrl_serveOne {n : Nat} (hn : n < 8) (s : State) : Same ctrlOf s (serveOne n s) := by
  unfold serveOne; split
  · exact (ctrl_grantWaiting hn ..).after (f := ctrlOf) (s := s) rfl
  · split
    · exact (ctrl_grantWaiting hn ..).after (f := ctrlOf) (s := s) rfl
    · exact .refl s

theorem ctrl_servePool {n : Nat} (hn : n < 8) (s : State) : Same ctrlOf s (servePool n s) := same_iter (ctrl_serveOne hn) ..

theorem ctrl_effServe (s : State) : Same ctrlOf s (effServe s) :=
  foldl_keeps_mem (Same ctrlOf s) _ _ (fun t n hn ht => .ite ((ctrl_servePool (List.mem_range.mp hn) t).after ht) ht) (.refl s)

theorem ctrl_mewsWithdraw (f : MewsReq → Bool) (b : Bool) (s : State) : Same ctrlOf s (mewsWithdraw f b s) := by
  unfold mewsWithdraw; dsimp only
  have hqueues := Same.foldl (f := ctrlOf) (g := fun t k =>
    { t with mews := { t.mews with queues := t.mews.queues.put [] k ((t.mews.queues.get [] k).filter (fun r => !f r)) } }) (fun _ _ => rfl) (List.range 16) s
  refine .ite (.after (.foldl (fun t r => ?_) ..) hqueues) hqueues
  split
  · exact ctrl_opAnswer ..
  · rfl

theorem ctrl_takeAnswer (src : MewsSrc) (s : State) : Same ctrlOf s (takeAnswer src s).2 := by
  unfold takeAnswer; split <;> rfl

theorem ctrl_mewsDrop (src : MewsSrc) (s : State) : Same ctrlOf s (mewsDrop src s) := (ctrl_takeAnswer ..).after (ctrl_mewsWithdraw ..)

theorem ctrl_mewsDropAhead (u : Nat) (s : State) : Same ctrlOf s (mewsDropAhead u s) := by
  unfold mewsDropAhead; dsimp only
  refine (ctrl_effServe _).after (.after (.foldl (fun t a => ?_) _ _) (.after (ctrl_withMews _ _) (ctrl_mewsWithdraw _ _ s)))
  exact .ite (a := returnBuf _ _ t) rfl (.refl t)

/-! ### What a fence stops -/

theorem ctrl_discardAhead (u : Nat) (s : State) : Same ctrlOf s (discardAhead u s) := ctrl_modUnit ..

theorem ctrl_strmStop (u : Nat) (s : State) : Same ctrlOf s (strmStop u s) := by
  unfold strmStop
  exact (ctrl_modUnit ..).after ((ctrl_discardAhead ..).after ((ctrl_mewsDrop ..).after ((ctrl_mewsDropAhead ..).after (ctrl_semWithdraw ..))))

theorem ctrl_chainEnd (c : Nat) (s : State) : Same ctrlOf s (chainEnd c s) := by
  unfold chainEnd; split
  · exact .ite (ctrl_modCore ..) ((ctrl_incCnt (by decide) (by decide) ..).after (ctrl_modCore ..))
  · exact .refl s

theorem ctrl_tcStop (c : Nat) (s : State) : Same ctrlOf s (tcStop c s) :=
  (ctrl_modCore ..).after ((ctrl_wrN (by decide) (by decide) ..).after ((ctrl_semWithdraw ..).after (ctrl_chainEnd ..)))

theorem ctrl_mergeScrap (s : State) : Same ctrlOf s (mergeScrap s) := by
  unfold mergeScrap; split
  · exact (ctrl_fillRange ..).after (ctrl_nextFree s)
  · exact .refl s

theorem ctrl_retireEpoch (s : State) : Same ctrlOf s (retireEpoch s) := by
  unfold retireEpoch; split
  · split
    · exact (ctrl_raise (by decide) ..).after ((ctrl_storeAs ..).after (f := ctrlOf) (s := s) rfl)
    · exact .refl s
  · exact .refl s

theorem ctrl_searchQuit (s : State) : Same ctrlOf s (searchQuit s) := by
  unfold searchQuit; dsimp only
  exact .ite ((ctrl_retireEpoch _).after (f := ctrlOf) (s := s) rfl) rfl

theorem ctrl_fshStop (s : State) : Same ctrlOf s (fshStop s) :=
  (ctrl_setMaint ..).after ((ctrl_mergeScrap _).after (ctrl_searchQuit s))

theorem ctrl_plkFence (s : State) : Same ctrlOf s (plkFence s) := by
  refine .foldl (fun t c => ?_) ..
  split <;> rfl

theorem ringSpec_off {p : Nat} {b : Bool} {c : RingSpec} (h : ringSpec p b = some c) :
    (c.tail < 0x1000 ∧ c.tail ≠ 0x00C) ∧ (c.drop < 0x1000 ∧ c.drop ≠ 0x00C) ∧ c.written < 0x1000 ∧ c.written ≠ 0x00C := by
  unfold ringSpec at h
  split at h <;> cases h <;> decide

theorem ctrl_ringRecord (p tb kind flags : Nat) (l : List Byte) (s : State) : Same ctrlOf s (ringRecord p tb kind flags l s) := by
  unfold ringRecord; split
  · exact .refl s
  · rename_i c hc
    obtain ⟨⟨htail, htail'⟩, ⟨hdrop, hdrop'⟩, hwritten, hwritten'⟩ := ringSpec_off hc
    have hdropped (u : State) : Same ctrlOf u (dropIntake p c u) := (ctrl_incCnt hdrop hdrop' ..).after (ctrl_setInRing ..)
    have hreport (u : State) : Same ctrlOf u (reportDrops p c u) :=
      .ite (.refl u) ((ctrl_raise (by decide) ..).after (ctrl_setInRing ..))
    dsimp only
    refine .ite (hdropped s) (.ite ((hdropped _).after ?_) ((ctrl_incCnt hwritten hwritten' ..).after ((ctrl_wrN htail htail' ..).after ((ctrl_setInRing ..).after ?_))))
    · exact (ctrl_nextFree _).after ((ctrl_writeAs ..).after (hreport s))
    · exact (ctrl_nextFree _).after ((ctrl_writeAs ..).after (hreport s))

theorem ctrl_lidarDrop {x : Nat} (hx : x < 2) (m st : Nat) (s : State) : Same ctrlOf s (lidarDrop m x st s) := by
  have hcount (u : State) : Same ctrlOf u (incCnt (pgETH m) (lxReg x 0x38) 1 u) :=
    ctrl_incCnt (by unfold lxReg; omega) (by unfold lxReg; omega) ..
  unfold lidarDrop; dsimp only
  exact .ite ((hcount _).after (ctrl_setLx ..)) ((ctrl_raise (by decide) ..).after ((hcount _).after (ctrl_setLx ..)))

theorem ctrl_closeBlock {x : Nat} (hx : x < 2) (m : Nat) (s : State) : Same ctrlOf s (closeBlock m x s) := by
  have hwrite (b : Bool) (a : Nat) (bs : List Byte) : Same ctrlOf s (if b then writeAs .intake a bs s else (some 0, s)).2 := by
    split
    · exact ctrl_writeAs ..
    · exact .refl s
  unfold closeBlock; dsimp only
  exact .ite (.refl s) (.ite ((ctrl_lidarDrop hx ..).after ((ctrl_setLx ..).after (hwrite ..)))
    ((ctrl_postTarget ..).after ((ctrl_ringRecord ..).after ((ctrl_setLx ..).after (hwrite ..)))))

theorem ctrl_ethFence (m : Nat) (s : State) : Same ctrlOf s (ethFence m s) :=
  .ite ((ctrl_closeBlock (by decide) ..).after (ctrl_closeBlock (by decide) ..)) (.refl s)

theorem ctrl_fstFence (s : State) : Same ctrlOf s (fstFence s) := by
  unfold fstFence
  exact .foldl (fun t _ => ctrl_modCam t ..) ..

theorem ctrl_flushDone (c : Nat) (s : State) : Same ctrlOf s (flushDone c s) := by
  unfold flushDone; dsimp only
  exact .ite ((ctrl_raise (by decide) ..).after (ctrl_setCam ..)) (.refl s)

theorem ctrl_unpinAborted (p : Nat) (s : State) : Same ctrlOf s (unpinAborted p s) := by
  refine .ite (.refl s) (.foldl (fun t c => ?_) ..)
  dsimp only
  exact .ite (.refl t) ((ctrl_flushDone ..).after (ctrl_setCam ..))

theorem ctrl_genStop (s : State) : Same ctrlOf s (modGen (fun g => { g with step := false, plan := [], sent := [], mover := [], retryAt := 0 })
    (semWithdraw (fun w => match w with | .kv _ _ => true | .sampler => true | _ => false)
      ((List.range 16).foldl (fun t n => mewsDrop (.gen n) t)
        ((List.range 16).foldl (fun t n => if (slotOf t n).st = 1 then modSlot n keepSlot t else t) s)))) :=
  (ctrl_modGen ..).after ((ctrl_semWithdraw ..).after (.after (.foldl (fun _ _ => ctrl_mewsDrop ..) ..)
    (.foldl (fun t _ => .ite (ctrl_modSlot ..) (.refl t)) ..)))

/-- What a fence stops beside the jobs leaves every fence and every `PG_CTRL`. -/
theorem ctrl_fenceHook (p : Nat) (s : State) : Same ctrlOf s (fenceHook p s) := by
  unfold fenceHook
  split
  · exact ctrl_strmStop ..
  · exact ctrl_tcStop ..
  · exact ctrl_genStop s
  · exact ctrl_fshStop s
  · rfl
  · rfl
  · exact ctrl_plkFence s
  · exact ctrl_mewsWithdraw ..
  · exact ctrl_ethFence ..
  · exact ctrl_fstFence s
  iterate 5 exact (ctrl_unpinAborted ..).after (ctrl_setVis ..)
  · exact .refl s

/-! ### The link's ENABLE -/

theorem ctrl_endSend (c st d : Nat) (s : State) : Same ctrlOf s (endSend c st d s) := (ctrl_jobEnded ..).after ((ctrl_modJobs ..).after (ctrl_modPlk ..))

theorem ctrl_abandonRx (c : Nat) (s : State) : Same ctrlOf s (abandonRx c s) := by
  unfold abandonRx; split
  · exact .refl s
  · dsimp only; split
    · exact (ctrl_storeAs ..).after (ctrl_modPlk ..)
    · exact ctrl_modPlk ..

theorem ctrl_linkEnds (s : State) : Same ctrlOf s (linkEnds s) := by
  refine (ctrl_wrF (by decide) (by decide) ..).after ((ctrl_wrF (by decide) (by decide) ..).after ((ctrl_modPlk ..).after (.foldl (fun t c => ?_) ..)))
  refine (ctrl_abandonRx ..).after ?_
  split
  · exact ctrl_endSend ..
  · exact .refl t

theorem ctrl_effPlkEnable (on : Bool) (s : State) : Same ctrlOf s (effPlkEnable on s) := by
  unfold effPlkEnable
  refine .ite (.ite (.refl s) ?_) (.ite ?_ (ctrl_wrF (by decide) (by decide) ..))
  · exact (ctrl_wrB (by decide) (by decide) ..).after (ctrl_modPlk ..)
  · exact (ctrl_modPlk ..).after (ctrl_linkEnds s)

end Sys2Proof.Machine
end

section
/-!
PROOFS. Page lock, event test, fault clear and the fault mirror; `PG_CTRL`, readiness, fences, time-outs and stalls (O6, O7).
-/
namespace Sys2Proof.Machine

/-! ### Who is told -/

/-- A common event of a page goes to the port that may write its header (R62). -/
theorem destOf_writer {s : State} {p c v off : Nat} {b : Option Nat} (ha : assigned p = true) (hc : c < 0x100) (hv : v < sevBLOCK)
    (ho : off < 0x080) (he : evtEnabled s p b = true) : destHas (destOf s p c v b) (writerOf s p off) = true := by
  obtain ⟨k, hk⟩ := kindOf_of_assigned ha
  have howner : ∀ r, destHas (decide (r = Port.a), decide (r = Port.b)) r = true := fun r => by cases r <;> rfl
  unfold destOf writerOf
  rw [if_neg (Nat.not_le.mpr hv), hk]
  cases k
  case hp =>
    obtain ⟨r, hr, hkind, hlo, hhi⟩ := kindOf_row hk
    obtain ⟨hfirst, hcount⟩ := (show ∀ r ∈ pageMap, r.kind = .hp → r.first = 0x004 ∧ r.count = 2 by decide) r hr hkind
    have hp : p = 0x004 ∨ p = 0x005 := by omega
    dsimp only
    rw [if_neg (by omega), if_pos he]
    obtain rfl | rfl := hp <;> rfl
  case jnt => dsimp only; rw [if_neg (by omega), if_pos he, if_neg (by omega), if_neg (by omega)]; exact howner _
  case mbr => dsimp only; rw [if_neg (by omega), if_pos he]; exact howner _
  case lre => dsimp only; rw [if_neg (by omega), if_pos he]; exact howner _
  all_goals dsimp only; rw [if_pos he]; exact howner _

/-! ### Locks and event tests -/

section
variable {q : Port} {p : Nat} {s : State}

theorem exec_gate {c : Instr} {off : Nat} {k : State → State} (hc : exec c s = settle s (gateWrite q p off k s)) (hmay : MayWrite s q p off) :
    exec c s = settle s (k s) := by rw [hc, gateWrite_mayWrite hmay]

theorem regSpec_lock {k : PageKind} (hk : kindOf p = some k) : regSpec p 0x03C = some (reg 0x03C 0 [lck 0 0]) := by
  rw [regSpec_header hk (by decide)]
  cases k <;> decide

theorem regSpec_stallMs {k : PageKind} (hk : kindOf p = some k) : regSpec p 0x038 = some (reg 0x038 0x32 [lck 9 0]) := by
  rw [regSpec_header hk (by decide)]
  cases k <;> decide

/-- A write of locked fields on a locked page: they stand, and LOCKED is told. -/
theorem landAt_locked {off : Nat} {w : Word} (hl : typeMask .lck (fieldsAt p off) ≠ 0) :
    landAt q p off true w s = Machine.refuse q p cLOCKED (off + q.num * 2 ^ 20) (wr p off (landWord (fieldsAt p off) true (rd s p off) w) s) := by
  unfold landAt refuseLocked
  rw [if_pos (by simpa using hl)]

theorem port_num_lt (q : Port) : q.num < 2 := by cases q <;> decide

theorem pageLock_shows (hmay : MayWrite s q p 0x03C) :
    ∃ t, exec (.pageLock q p) s = .next t ∧ locked t p = true ∧ (locked s p = true → Told t q p cLOCKED (0x03C + q.num * 2 ^ 20)) := by
  obtain ⟨k, hk⟩ := kindOf_of_assigned hmay.2.1
  have hexec : exec (.pageLock q p) s = settle s (landAt q p 0x03C (locked s p) 1 s) := exec_gate rfl hmay
  have hnum := port_num_lt q
  have hlock (l : Bool) (hl : l = true → locked s p = true) : flag (landWord (fieldsAt p 0x03C) l (rd s p 0x03C) 1) 0 = true := by
    rw [fieldsAt_of_spec (regSpec_lock hk)]
    cases l
    · exact flag_landWord_soft _ _ (by decide) (by decide) (by decide)
    · exact (flag_landWord_kept _ _ (by decide) (by decide) (by decide)).trans (hl rfl)
  have hword (l : Bool) (hl : l = true → locked s p = true) : locked (wr p 0x03C (landWord (fieldsAt p 0x03C) l (rd s p 0x03C) 1) s) p = true := by
    unfold locked rdB
    rw [rd_wr_same]
    exact hlock l hl
  by_cases h : locked s p = true
  · rw [h, landAt_locked (by rw [fieldsAt_of_spec (regSpec_lock hk)]; decide)] at hexec
    have hword := hword true fun _ => h
    obtain ⟨u, hu⟩ : ∃ u, wr p 0x03C (landWord (fieldsAt p 0x03C) true (rd s p 0x03C) 1) s = u := ⟨_, rfl⟩
    rw [hu] at hexec hword
    have htold := told_refuse q p cLOCKED (d := 0x03C + q.num * 2 ^ 20) (by omega) u
    have hrd : rd (Machine.refuse q p cLOCKED (0x03C + q.num * 2 ^ 20) u) p 0x03C = rd u p 0x03C := rd_refuse (by decide) (by simp) ..
    obtain ⟨t, ht⟩ : ∃ t, Machine.refuse q p cLOCKED (0x03C + q.num * 2 ^ 20) u = t := ⟨_, rfl⟩
    rw [ht] at hexec htold hrd
    exact ⟨_, hexec.trans (settle_eq ..), (rdB_congr hrd 0).trans hword, fun _ => htold⟩
  · rw [Bool.eq_false_iff.mpr h, landAt_eq _ _ _ (by simp)] at hexec
    exact ⟨_, hexec.trans (settle_eq ..), hword false (fun h => by cases h), fun hl => absurd hl h⟩

theorem lockedWrite_shows (hp : p < 0x100) (w : Word) (hmay : MayWrite s q p 0x038) (hl : locked s p = true) :
    ∃ t, exec (.regWrite q ⟨p * 0x1000 + 0x038, 32, 0xF, true, w.toNat⟩ []) s = .next t ∧
      rd t p 0x038 = rd s p 0x038 ∧ Told t q p cLOCKED (0x038 + q.num * 2 ^ 20) := by
  obtain ⟨k, hk⟩ := kindOf_of_assigned hmay.2.1
  have hnum := port_num_lt q
  have hexec := exec_regWrite (w := w) hp (by decide) (by decide) hmay
  rw [writeReg_header (regSpec_stallMs hk) (by decide) (by decide), hl, landAt_locked (by rw [fieldsAt_of_spec (regSpec_stallMs hk)]; decide)] at hexec
  have hstay : landWord (fieldsAt p 0x038) true (rd s p 0x038) w = rd s p 0x038 := by
    rw [fieldsAt_of_spec (regSpec_stallMs hk)]
    unfold landWord
    simp [reg, show typeMask .cfg [lck 9 0] = 0 from rfl, show typeMask .cfgh [lck 9 0] = 0 from rfl, show typeMask .cnt [lck 9 0] = 0 from rfl,
      show typeMask .evt [lck 9 0] = 0 from rfl, and_ones]
  rw [hstay] at hexec
  have hword : rd (wr p 0x038 (rd s p 0x038) s) p 0x038 = rd s p 0x038 := rd_wr_same ..
  obtain ⟨u, hu⟩ : ∃ u, wr p 0x038 (rd s p 0x038) s = u := ⟨_, rfl⟩
  rw [hu] at hexec hword
  have htold := told_refuse q p cLOCKED (d := 0x038 + q.num * 2 ^ 20) (by omega) u
  have hrd : rd (Machine.refuse q p cLOCKED (0x038 + q.num * 2 ^ 20) u) p 0x038 = rd u p 0x038 := rd_refuse (by decide) (by simp) ..
  obtain ⟨t, ht⟩ : ∃ t, Machine.refuse q p cLOCKED (0x038 + q.num * 2 ^ 20) u = t := ⟨_, rfl⟩
  rw [ht] at hexec htold hrd
  exact ⟨_, hexec.trans (settle_eq ..), hrd.trans hword, htold⟩

/-- The bits of `PG_EVT_SET` that a write of one of them names. -/
theorem oneEventBit {n : Nat} (hn : n ≤ 12 ∨ 16 ≤ n ∧ n < 32) :
    (List.range 32).filter (fun i => decide (i ≤ 12 ∨ 16 ≤ i) && flag (BitVec.ofNat 32 (2 ^ n)) i) = [n] :=
  (show ∀ n < 32, (n ≤ 12 ∨ 16 ≤ n ∧ n < 32) →
    (List.range 32).filter (fun i => decide (i ≤ 12 ∨ 16 ≤ i) && flag (BitVec.ofNat 32 (2 ^ n)) i) = [n] by decide) n (by omega) hn

/-- A record of an event that has no bit and latches no fault (R63). -/
theorem raise_quiet {c v : Nat} (hv : v < sevDEGRADED) (hc : evtBit p c v = none) (d : Nat) :
    raise p c v d s = post p c v d (destOf s p c v none).1 (destOf s p c v none).2 s := by
  have hb : ¬ sevBLOCK ≤ v := by simp only [sevBLOCK, sevDEGRADED] at *; omega
  unfold raise raiseOnly
  rw [hc]
  dsimp only
  rw [latch_low hv, decide_eq_false hb]
  rfl

theorem evtTest_noBit (p : Nat) : evtBit p cEVT_TEST sevINFO = none := by
  unfold evtBit
  rw [if_pos (by decide), show commonEvtBit cEVT_TEST = none by decide]
  rfl

theorem writerOf_congr {t : State} (h : rd t p 0x028 = rd s p 0x028) (off : Nat) : writerOf t p off = writerOf s p off := by
  unfold writerOf owner; rw [rdF_congr h]

/-- A record that a port is told is one record. -/
theorem post_outbox_length {a b : Bool} (h : destHas (a, b) q = true) (p c v d : Nat) (s : State) :
    (post p c v d a b s).outbox.length = s.outbox.length + 1 := by
  unfold post; dsimp only
  rw [if_pos (by cases q <;> simp_all [destHas])]
  simp

theorem evtTest_shows {n : Nat} (hmay : MayWrite s q p 0x01C) (hn : n ≤ 12 ∨ 16 ≤ n ∧ n < 32) :
    ∃ t, exec (.evtTest q p (BitVec.ofNat 32 (2 ^ n))) s = .next t ∧ rdB t p 0x014 n = true ∧
      Told t q p cEVT_TEST n ∧ t.outbox.length = s.outbox.length + 1 ∧
      (∀ p' off', off' < 0x1000 → ¬(p' = p ∧ off' = 0x014) → rd t p' off' = rd s p' off') := by
  have hexec : exec (.evtTest q p (BitVec.ofNat 32 (2 ^ n))) s = settle s (raise p cEVT_TEST sevINFO n (setEvt p (some n) s)) := by
    refine (exec_gate (k := effEvtSet p (BitVec.ofNat 32 (2 ^ n))) rfl hmay).trans ?_
    unfold effEvtSet
    rw [oneEventBit hn]; rfl
  rw [show setEvt p (some n) s = wrB p 0x014 n true s from if_pos hmay.2.2.2] at hexec
  have hbit : rdB (wrB p 0x014 n true s) p 0x014 n = true := rdB_wrB _ _ _ _ _ (by omega)
  have hstay (p' off' : Nat) (ho : off' < 0x1000) (hne : ¬(p' = p ∧ off' = 0x014)) : rd (wrB p 0x014 n true s) p' off' = rd s p' off' :=
    rd_wrB_other (by decide) ho hne ..
  have hlen : (wrB p 0x014 n true s).outbox = s.outbox := wr_outbox ..
  obtain ⟨u, hu⟩ : ∃ u, wrB p 0x014 n true s = u := ⟨_, rfl⟩
  rw [hu] at hexec hbit hlen
  simp only [hu] at hstay
  have hwriter : writerOf u p 0x01C = q := (writerOf_congr (hstay p 0x028 (by decide) (by simp)) _).trans hmay.2.2.1
  have hdest : destHas (destOf u p cEVT_TEST sevINFO none) q = true := by
    have h := destOf_writer (s := u) (v := sevINFO) (c := cEVT_TEST) (b := none) (off := 0x01C) hmay.2.1 (by decide) (by decide) (by decide) rfl
    rwa [hwriter] at h
  rw [raise_quiet (by decide) (evtTest_noBit p)] at hexec
  obtain ⟨⟨a, b⟩, hd⟩ : ∃ d, destOf u p cEVT_TEST sevINFO none = d := ⟨_, rfl⟩
  rw [hd] at hexec hdest
  dsimp only at hexec
  have htold := told_post hdest p cEVT_TEST sevINFO n u
  rw [Nat.mod_eq_of_lt (by omega : n < 2 ^ 32)] at htold
  have hone := post_outbox_length hdest p cEVT_TEST sevINFO n u
  have hrd (p' off' : Nat) := rd_post p cEVT_TEST sevINFO n a b u p' off'
  obtain ⟨t, ht⟩ : ∃ t, post p cEVT_TEST sevINFO n a b u = t := ⟨_, rfl⟩
  rw [ht] at hexec htold hone
  simp only [ht] at hrd
  exact ⟨_, hexec.trans (settle_eq ..), (rdB_congr (hrd _ _) n).trans hbit, htold, hone.trans (by rw [hlen]),
    fun p' off' ho hne => (hrd p' off').trans (hstay p' off' ho hne)⟩

end

/-! ### The latched fault -/

/-- A page's fault after it was cleared: not valid, its INFO 0 and the mirror's TIMEOUT bit 0; OVF stands. -/
structure FaultCleared (p : Nat) (s t : State) : Prop where
  valid : rdB t p 0x020 16 = false
  info : rd t p 0x024 = 0
  more : rdB t p 0x020 17 = rdB s p 0x020 17
  timeout : t.timeouts.get false p = false
  regs : ∀ off, off < 0x1000 → ¬(off = 0x020 ∨ off = 0x024) → rd t p off = rd s p off

theorem flag_two_pow {n i : Nat} {b : Bool} (h : n = (b2n b) * 2 ^ 17) (hi : i = 16 ∨ i = 17) :
    flag (BitVec.ofNat 32 n) i = if i = 17 then b else false := by
  subst h
  cases b <;> obtain rfl | rfl := hi <;> rfl

theorem rdF_bit (s : State) (p off i : Nat) : rdF s p off i i = b2n (rdB s p off i) := by
  unfold rdF fld rdB flag bitsOf bitOf
  rw [Nat.testBit_eq_decide_div_mod_eq, Nat.add_sub_cancel_left, Nat.shiftRight_eq_div_pow, Nat.pow_one]
  rcases Nat.mod_two_eq_zero_or_one ((rd s p off).toNat / 2 ^ i) with h | h <;> rw [h] <;> rfl

theorem rd_clearFault (p : Nat) (s : State) (p' off : Nat) :
    rd (clearFault p s) p' off = rd (wrN p 0x024 0 (wrN p 0x020 (rdF s p 0x020 17 17 * 2 ^ 17) s)) p' off := rd_of_regs rfl p' off

theorem clearFault_shows (p : Nat) (s : State) : FaultCleared p s (clearFault p s) := by
  have hword : rd (clearFault p s) p 0x020 = BitVec.ofNat 32 (b2n (rdB s p 0x020 17) * 2 ^ 17) := by
    rw [rd_clearFault, rd_wrN_other (by decide) (by decide) (by simp), rd_wrN_same, rdF_bit]
  have htimeout : (clearFault p s).timeouts.get false p = false := SMap.get_put_same false p false s.timeouts
  refine ⟨?_, ?_, ?_, htimeout, fun off ho hne => ?_⟩
  · unfold rdB; rw [hword]; exact flag_two_pow rfl (.inl rfl)
  · exact (rd_clearFault ..).trans (rd_wrN_same ..)
  · exact (congrArg (flag · 17) hword).trans (flag_two_pow rfl (.inr rfl))
  · rw [rd_clearFault, rd_wrN_other (by decide) ho (fun h => hne (.inr h.2)), rd_wrN_other (by decide) ho (fun h => hne (.inl h.2))]

/-- A fault that a page latches where none was valid (R64). -/
theorem latch_fresh {p v : Nat} {s : State} (ha : assigned p = true) (hv : sevDEGRADED ≤ v) (hnone : rdB s p 0x020 16 = false) (c d : Nat) :
    latch p c v d s = wrN p 0x024 d (wrN p 0x020 (c % 2 ^ 12 + v * 2 ^ 12 + 2 ^ 16 + rdF s p 0x020 17 17 * 2 ^ 17) s) := by
  unfold latch
  rw [if_neg (by simp [ha, Nat.not_lt.mpr hv])]
  dsimp only
  rw [show flag (rd s p 0x020) 16 = false from hnone]
  rfl

/-- The fault word and its INFO after a fault where none was valid. -/
theorem raise_latched {p v : Nat} {s : State} (ha : assigned p = true) (hv : sevDEGRADED ≤ v) (hnone : rdB s p 0x020 16 = false) (c d : Nat) :
    rd (raise p c v d s) p 0x020 = BitVec.ofNat 32 (c % 2 ^ 12 + v * 2 ^ 12 + 2 ^ 16 + rdF s p 0x020 17 17 * 2 ^ 17) ∧
      rd (raise p c v d s) p 0x024 = BitVec.ofNat 32 d := by
  have hevt (b : Option Nat) (off : Nat) (ho : off = 0x020 ∨ off = 0x024) : rd (setEvt p b s) p off = rd s p off :=
    rd_setEvt (by omega) (by omega) ..
  have honly : rd (raiseOnly p c v d s) p 0x020 = BitVec.ofNat 32 (c % 2 ^ 12 + v * 2 ^ 12 + 2 ^ 16 + rdF s p 0x020 17 17 * 2 ^ 17) ∧
      rd (raiseOnly p c v d s) p 0x024 = BitVec.ofNat 32 d := by
    unfold raiseOnly
    dsimp only
    rw [rd_post, rd_post, latch_fresh ha hv ((rdB_congr (hevt _ _ (.inl rfl)) 16).trans hnone), rdF_congr (hevt _ _ (.inl rfl))]
    exact ⟨(rd_wrN_other (by decide) (by decide) (by simp) ..).trans (rd_wrN_same ..), rd_wrN_same ..⟩
  unfold raise; dsimp only; split
  · have hclear (off : Nat) (ho : off = 0x020 ∨ off = 0x024) (u : State) : rd (hwClear p 0x00C 0 u) p off = rd u p off := by
      unfold hwClear; split
      · unfold raiseOnly
        dsimp only
        rw [rd_post, latch_low (by decide), rd_setEvt (by omega) (by omega)]
        exact rd_wrB_other (by decide) (by omega) (by omega) ..
      · rfl
    rw [hclear _ (.inl rfl), hclear _ (.inr rfl)]
    exact honly
  · exact honly

/-- The fields of a fault word. -/
theorem faultWord_fields {c v b : Nat} (hc : c < 0x1000) (hv : v < 16) :
    flag (BitVec.ofNat 32 (c + v * 2 ^ 12 + 2 ^ 16 + b * 2 ^ 17)) 16 = true ∧
      fld (BitVec.ofNat 32 (c + v * 2 ^ 12 + 2 ^ 16 + b * 2 ^ 17)) 11 0 = c ∧ fld (BitVec.ofNat 32 (c + v * 2 ^ 12 + 2 ^ 16 + b * 2 ^ 17)) 15 12 = v := by
  unfold flag fld bitOf bitsOf
  rw [Nat.testBit_eq_decide_div_mod_eq]
  simp only [BitVec.toNat_ofNat, decide_eq_true_eq]
  omega

section
variable {q : Port} {p : Nat} {s : State}

theorem pgFaultClear_shows (hmay : MayWrite s q p 0x020) :
    ∃ t, exec (.pgFaultClear q p none) s = .next t ∧ rdB t p 0x020 16 = false ∧ rd t p 0x024 = 0 ∧
      rdB t p 0x020 17 = rdB s p 0x020 17 ∧ t.timeouts.get false p = false := by
  have hexec : exec (.pgFaultClear q p none) s = settle s (clearFault p s) := exec_gate (k := clearFault p) rfl hmay
  have hclear := clearFault_shows p s
  obtain ⟨t, ht⟩ : ∃ t, clearFault p s = t := ⟨_, rfl⟩
  rw [ht] at hexec hclear
  exact ⟨_, hexec.trans (settle_eq ..), hclear.valid, hclear.info, hclear.more, hclear.timeout⟩

theorem pgFaultClear_fault_shows (hmay : MayWrite s q p 0x020) {code sev : Nat} (detail : Nat) (hc : code < 0x1000) (hlo : 3 ≤ sev) (hhi : sev ≤ 6) :
    ∃ t, exec (.pgFaultClear q p (some (code, sev, detail))) s = .next t ∧ rdB t p 0x020 16 = true ∧
      rdF t p 0x020 11 0 = code ∧ rdF t p 0x020 15 12 = sev ∧ rd t p 0x024 = BitVec.ofNat 32 detail := by
  have hexec : exec (.pgFaultClear q p (some (code, sev, detail))) s = settle s (raise p (code % 4096) sev detail (clearFault p s)) := by
    exact (exec_gate (k := fun s => if 3 ≤ sev ∧ sev ≤ 6 then raise p (code % 4096) sev detail (clearFault p s) else clearFault p s) rfl hmay).trans
      (congrArg (settle s) (if_pos ⟨hlo, hhi⟩))
  have hclear := clearFault_shows p s
  obtain ⟨u, hu⟩ : ∃ u, clearFault p s = u := ⟨_, rfl⟩
  rw [hu] at hexec hclear
  obtain ⟨hword, hinfo⟩ := raise_latched (v := sev) hmay.2.1 hlo hclear.valid (code % 4096) detail
  obtain ⟨hvalid, hcode, hsev⟩ := faultWord_fields (c := code) (v := sev) (b := rdF u p 0x020 17 17) hc (by omega)
  rw [show code % 4096 % 2 ^ 12 = code by omega] at hword
  obtain ⟨t, ht⟩ : ∃ t, raise p (code % 4096) sev detail u = t := ⟨_, rfl⟩
  rw [ht] at hexec hword hinfo
  refine ⟨_, hexec.trans (settle_eq ..), ?_, ?_, ?_, hinfo⟩
  · exact (congrArg (flag · 16) hword).trans hvalid
  · exact (congrArg (fld · 11 0) hword).trans hcode
  · exact (congrArg (fld · 15 12) hword).trans hsev

theorem fmClr_shows (hmay : MayWrite s q pgFM 0x0E0) (ha : assigned p = true) :
    ∃ t, exec (.fmClr q p) s = .next t ∧ rdB t p 0x020 16 = false ∧ rd t p 0x024 = 0 ∧ t.timeouts.get false p = false := by
  have hp := assigned_lt ha
  have hexec : exec (.fmClr q p) s = settle s (clearFault p s) := by
    refine (exec_gate (k := effFmClr q (p % 4096)) rfl hmay).trans ?_
    unfold effFmClr
    rw [Nat.mod_eq_of_lt (by omega), if_pos ha]
  have hclear := clearFault_shows p s
  obtain ⟨t, ht⟩ : ∃ t, clearFault p s = t := ⟨_, rfl⟩
  rw [ht] at hexec hclear
  exact ⟨_, hexec.trans (settle_eq ..), hclear.valid, hclear.info, hclear.timeout⟩

end

/-! ### Fences -/

theorem fenceOf_with {f : FenceState} (p : Nat) (s : State) : fenceOf (setFence p f s) p = f := SMap.get_put_same ..

theorem rd_setFence (p : Nat) (f : FenceState) (s : State) (p' off : Nat) : rd (setFence p f s) p' off = rd s p' off := rfl

/-- What follows the new fence leaves it, and `PG_CTRL`. -/
theorem startFence_ctrl (p : Nat) (s : State) : Same ctrlOf (setFence p ⟨true, now s, false, false, 0⟩ s) (startFence p s) := by
  unfold startFence; dsimp only
  exact .ite ((ctrl_tellLinked ..).after ((ctrl_syncQuiesced ..).after ((ctrl_wrB (by decide) (by decide) ..).after
    ((ctrl_modJobs ..).after (ctrl_fenceHook ..))))) (ctrl_fenceHook ..)

theorem startFence_fence (p : Nat) (s : State) : fenceOf (startFence p s) p = ⟨true, now s, false, false, 0⟩ :=
  ((startFence_ctrl p s).fenceOf p).trans (fenceOf_with p s)

/-- A write of 1 to FENCE of a page that a fence acts on leaves it fenced, or being fenced. -/
theorem effFence_on {p : Nat} (h : fenceable p = true) (s : State) : fenceBit (effFence p true s) p = true := by
  unfold effFence fenceBit
  dsimp only
  rw [if_neg (by rw [h]; decide), if_pos rfl]
  by_cases hactive : (fenceOf s p).active = true
  · rw [if_pos hactive, fenceOf_with]; exact hactive
  · rw [if_neg hactive, startFence_fence]

theorem fmFence_shows {q : Port} {p : Nat} {s : State} (hmay : MayWrite s q pgFM 0x0E4) (hon : pageOn s p = true) (hf : fenceable p = true) :
    ∃ t, exec (.fmFence q p) s = .next t ∧ fenceBit t p = true := by
  have hp := assigned_lt (assigned_of_pageOn hon)
  have hexec : exec (.fmFence q p) s = settle s (effFence p true (wrB p 0x00C 1 true s)) := by
    refine (exec_gate (k := effFmFence q (p % 4096)) rfl hmay).trans ?_
    unfold effFmFence
    rw [Nat.mod_eq_of_lt (by omega), if_pos hon]; rfl
  have hfence := effFence_on hf (wrB p 0x00C 1 true s)
  obtain ⟨t, ht⟩ : ∃ t, effFence p true (wrB p 0x00C 1 true s) = t := ⟨_, rfl⟩
  rw [ht] at hexec hfence
  exact ⟨_, hexec.trans (settle_eq ..), hfence⟩

/-- Settles O6. -/
theorem locksEventTestsAndFaultClears : Obligations.LocksEventTestsAndFaultClears :=
  ⟨fun _ _ _ hp => ⟨pageLock_shows, fun w hmay hl => lockedWrite_shows hp w hmay hl⟩, fun _ _ _ _ => evtTest_shows,
    fun _ _ _ hmay => ⟨pgFaultClear_shows hmay, fun _ _ detail hc hlo hhi => pgFaultClear_fault_shows hmay detail hc hlo hhi⟩,
    fun _ _ _ => fmClr_shows, fun _ _ _ => fmFence_shows⟩

/-! ### `PG_CTRL` -/

theorem regSpec_ctrl {p : Nat} {k : PageKind} (hk : kindOf p = some k) : regSpec p 0x00C = some (reg 0x00C 0 [cfgh 0 0, cfg 1 1, cfg 2 2]) := by
  rw [regSpec_header hk (by decide)]
  cases k <;> decide

/-- A fence's operations leave `PG_CTRL`. -/
theorem effFence_rdCtrl (p : Nat) (on : Bool) (s : State) (p' : Nat) : rd (effFence p on s) p' 0x00C = rd s p' 0x00C := by
  unfold effFence; dsimp only
  split
  · rfl
  · split
    · split
      · rfl
      · exact ((startFence_ctrl p s).rdCtrl p').trans (rd_setFence ..)
    · split
      · rfl
      · split
        · exact ((ctrl_setReadyBit ..).rdCtrl p').trans (rd_setFence ..)
        · rfl

/-- What ENABLE starts or ends, and the jobs that are told of. -/
def ctrlTaken (p : Nat) (old : Word) (s : State) : State :=
  let t := if enabled s p = flag old 0 then s
    else if p = pgPLK then effPlkEnable (enabled s p) s
    else if p = pgMEWS && enabled s p then effServe s
    else s
  if runsJobs p then syncQuiesced p (tellLinked p t) else t

theorem effPgCtrl_eq (p : Nat) (old : Word) (s : State) : effPgCtrl p old s = effFence p (rdB s p 0x00C 1) (ctrlTaken p old s) := rfl

theorem ctrl_ctrlTaken (p : Nat) (old : Word) (s : State) : Same ctrlOf s (ctrlTaken p old s) := by
  have hstart : Same ctrlOf s (if enabled s p = flag old 0 then s else if p = pgPLK then effPlkEnable (enabled s p) s
      else if p = pgMEWS && enabled s p then effServe s else s) :=
    .ite (.refl s) (.ite (ctrl_effPlkEnable ..) (.ite (ctrl_effServe s) (.refl s)))
  unfold ctrlTaken; dsimp only
  exact .ite ((ctrl_syncQuiesced ..).after ((ctrl_tellLinked ..).after hstart)) hstart

section
variable {q : Port} {p : Nat} {s : State}

/-- The word that a write of one field of `PG_CTRL` leaves. -/
theorem ctrlWord_flag {k : PageKind} (hk : kindOf p = some k) {i : Nat} (hi : i < 3) (b : Bool) (old : Word) {j : Nat} (hj : j < 3) :
    flag (landWord (fieldsAt p 0x00C) false old (setFld old i i (b2n b))) j = if j = i then b else flag old j := by
  rw [fieldsAt_of_spec (regSpec_ctrl hk)]
  have hsoft : ∀ j < 3, flag (softMask [cfgh 0 0, cfg 1 1, cfg 2 2] false) j = true ∧ flag (typeMask .evt [cfgh 0 0, cfg 1 1, cfg 2 2]) j = false := by decide
  refine (flag_landWord_soft _ _ (by omega) (hsoft j hj).1 (hsoft j hj).2).trans ?_
  split
  · subst j; exact flag_setFld _ _ _ (by omega)
  · exact flag_setFld_ne _ _ _ _ _ (Nat.le_refl _) (by omega) (by omega)

/-- A write of one field of `PG_CTRL`: the register with that field written, then what the write does. -/
theorem writeCtrlBit_eq (hmay : MayWrite s q p 0x00C) {i : Nat} (hi : i < 3) (b : Bool) :
    ∃ w, writeCtrlBit q p i b s = effPgCtrl p (rd s p 0x00C) (wr p 0x00C w s) ∧ ∀ j < 3, flag w j = if j = i then b else rdB s p 0x00C j := by
  obtain ⟨k, hk⟩ := kindOf_of_assigned hmay.2.1
  have hland : landAt q p 0x00C false (setFld (rd s p 0x00C) i i (b2n b)) s =
      wr p 0x00C (landWord (fieldsAt p 0x00C) false (rd s p 0x00C) (setFld (rd s p 0x00C) i i (b2n b))) s := landAt_eq _ _ _ rfl
  exact ⟨_, (gateWrite_mayWrite hmay).trans (congrArg (effPgCtrl p (rd s p 0x00C)) hland), fun j hj => ctrlWord_flag hk hi b _ hj⟩

theorem effPgCtrl_bit {w : Word} (old : Word) (s : State) (j : Nat) : rdB (effPgCtrl p old (wr p 0x00C w s)) p 0x00C j = flag w j := by
  rw [effPgCtrl_eq]
  refine (rdB_congr ((effFence_rdCtrl ..).trans ((ctrl_ctrlTaken ..).rdCtrl p)) j).trans ?_
  unfold rdB; rw [rd_wr_same]

/-- The state that a write of one field of `PG_CTRL` leaves shows that field as written. -/
theorem ctrlBit_shows (hmay : MayWrite s q p 0x00C) {i : Nat} (hi : i < 3) (b : Bool) :
    ∃ t, settle s (writeCtrlBit q p i b s) = .next t ∧ rdB t p 0x00C i = b := by
  obtain ⟨w, hw, hbits⟩ := writeCtrlBit_eq hmay hi b
  have hbit := effPgCtrl_bit (p := p) (w := w) (rd s p 0x00C) s i
  rw [← hw, hbits i hi, if_pos rfl] at hbit
  obtain ⟨t, ht⟩ : ∃ t, writeCtrlBit q p i b s = t := ⟨_, rfl⟩
  rw [ht] at hbit ⊢
  exact ⟨_, settle_eq .., hbit⟩

end

/-! ### `PG_READY` -/

theorem rd_setReady_word {v : Nat} (hv : v < 2 ^ 32) (p : Nat) (s : State) : rd (setReady p v s) p 0x008 = BitVec.ofNat 32 v := by
  apply BitVec.eq_of_toNat_eq
  rw [rd_setReady, BitVec.toNat_ofNat, Nat.mod_eq_of_lt hv, ite_self]

theorem putBits_lt {n i v : Nat} (hn : n < 2 ^ 32) (hi : i < 32) : putBits n i i v < 2 ^ 32 := by
  have h := toNat_setFld (BitVec.ofNat 32 n) i i v (by omega) hi
  rw [BitVec.toNat_ofNat, Nat.mod_eq_of_lt hn] at h
  rw [← h]
  exact BitVec.isLt _

theorem rd_setReadyBit {i : Nat} (hi : i < 32) (p : Nat) (b : Bool) (s : State) :
    rd (setReadyBit p i b s) p 0x008 = setFld (rd s p 0x008) i i (b2n b) := rd_setReady_word (putBits_lt (BitVec.isLt _) hi) p s

theorem rdB_setReadyBit {i j : Nat} (hi : i < 32) (p : Nat) (b : Bool) (s : State) :
    rdB (setReadyBit p i b s) p 0x008 j = if j = i then b else rdB s p 0x008 j := by
  unfold rdB
  rw [rd_setReadyBit hi]
  split
  · subst j; exact flag_setFld _ _ _ hi
  · exact flag_setFld_ne _ _ _ _ _ (Nat.le_refl _) hi (by omega)

theorem syncQuiesced_ready {j : Nat} (hj : j ≠ 3) (p : Nat) (s : State) : rdB (syncQuiesced p s) p 0x008 j = rdB s p 0x008 j := by
  unfold syncQuiesced; dsimp only; split
  · exact (rdB_setReadyBit (by decide) ..).trans (if_neg hj)
  · rfl

theorem syncQuiesced_reports (p : Nat) (s : State) : ReportsOnly s (syncQuiesced p s) := by
  unfold syncQuiesced; dsimp only; split
  · exact setReady_reports ..
  · exact .refl s

theorem Tells.tellLinked (p : Nat) (s : State) : Tells s (tellLinked p s) := by
  unfold Machine.tellLinked; split
  · exact .tellPages s
  · split
    · exact .tellAll p s
    · exact .refl s

/-- A write that leaves ENABLE starts nothing: jobs are told of, and QUIESCED follows. -/
theorem ctrlTaken_kept {p : Nat} {old : Word} {s : State} (h : enabled s p = flag old 0) :
    now (ctrlTaken p old s) = now s ∧ fenced (ctrlTaken p old s) p = fenced s p := by
  unfold ctrlTaken
  dsimp only
  rw [if_pos h]
  split
  · have htells := Tells.tellLinked p s
    have hnow : now (tellLinked p s) = now s := by rw [htells.eq]; rfl
    exact ⟨((syncQuiesced_reports ..).field now).trans hnow,
      (syncQuiesced_ready (by decide) ..).trans (rdB_congr (htells.regs p 0x008 (by decide) (by decide)) 2)⟩
  · exact ⟨rfl, rfl⟩

/-! ### Fences by `PG_CTRL` -/

theorem endFenced_jobs (p : Nat) (s : State) : (pageJobs (endFenced p s) p).running = [] ∧ (pageJobs (endFenced p s) p).queue = [] := by
  unfold endFenced modJobs
  rw [pageJobs_setJobs, if_pos rfl]
  exact ⟨rfl, rfl⟩

theorem pageJobs_of_jobs {s t : State} (h : t.jobs = s.jobs) (p : Nat) : pageJobs t p = pageJobs s p := by unfold pageJobs; rw [h]

theorem startFence_jobs {p : Nat} (h : runsJobs p = true) (s : State) : (pageJobs (startFence p s) p).running = [] ∧ (pageJobs (startFence p s) p).queue = [] := by
  unfold startFence; dsimp only
  rw [if_pos h]
  obtain ⟨u, hu⟩ : ∃ u, endFenced p (fenceHook p (setFence p ⟨true, now s, false, false, 0⟩ s)) = u := ⟨_, rfl⟩
  obtain ⟨hrun, hqueue⟩ := hu ▸ endFenced_jobs p (fenceHook p (setFence p ⟨true, now s, false, false, 0⟩ s))
  rw [hu]
  have htells := Tells.tellLinked p (syncQuiesced p (wrB p 0x010 2 false u))
  have hjobs : pageJobs (syncQuiesced p (wrB p 0x010 2 false u)) p = pageJobs u p :=
    pageJobs_of_jobs ((syncQuiesced_reports ..).field State.jobs |>.trans ((wrB_reports ..).field State.jobs)) p
  exact ⟨(htells.running p).trans ((congrArg PageJobs.running hjobs).trans hrun), htells.queue p ((congrArg PageJobs.queue hjobs).trans hqueue)⟩

section
variable {q : Port} {p : Nat} {s : State}

theorem pageFence_shows (hmay : MayWrite s q p 0x00C) (hf : fenceable p = true) (hnone : fenceBit s p = false) :
    ∃ t, exec (.pageFence q p) s = .next t ∧ fenceBit t p = true ∧ (fenceOf t p).since = now s ∧
      (runsJobs p = true → (pageJobs t p).running = [] ∧ (pageJobs t p).queue = []) := by
  obtain ⟨w, hw, hbits⟩ := writeCtrlBit_eq hmay (i := 1) (by decide) true
  have hexec : exec (.pageFence q p) s = settle s (effPgCtrl p (rd s p 0x00C) (wr p 0x00C w s)) := congrArg (settle s) hw
  have hword (j : Nat) : rdB (wr p 0x00C w s) p 0x00C j = flag w j := by unfold rdB; rw [rd_wr_same]
  obtain ⟨hnow, -⟩ := ctrlTaken_kept (p := p) (old := rd s p 0x00C) (s := wr p 0x00C w s) ((hword 0).trans ((hbits 0 (by decide)).trans (if_neg (by decide))))
  have hfence : fenceOf (ctrlTaken p (rd s p 0x00C) (wr p 0x00C w s)) p = fenceOf s p :=
    ((ctrl_ctrlTaken ..).fenceOf p).trans (by unfold fenceOf; rw [wr_fences])
  rw [effPgCtrl_eq, hword 1, (hbits 1 (by decide)).trans (if_pos rfl)] at hexec
  obtain ⟨u, hu⟩ : ∃ u, ctrlTaken p (rd s p 0x00C) (wr p 0x00C w s) = u := ⟨_, rfl⟩
  rw [hu] at hexec hnow hfence
  have hstart : effFence p true u = startFence p u := by
    unfold effFence; dsimp only
    rw [if_neg (by rw [hf]; decide), if_pos rfl, if_neg (by rw [hfence]; exact Bool.eq_false_iff.mp hnone)]
  rw [hstart] at hexec
  have hnew := startFence_fence p u
  have hjobs := fun h => startFence_jobs (p := p) h u
  obtain ⟨t, ht⟩ : ∃ t, startFence p u = t := ⟨_, rfl⟩
  rw [ht] at hexec hnew
  simp only [ht] at hjobs
  exact ⟨_, hexec.trans (settle_eq ..), congrArg FenceState.active hnew, (congrArg FenceState.since hnew).trans (hnow.trans (by unfold now; rw [wr_tb])), hjobs⟩

theorem releaseFence_shows (p : Nat) (s : State) : fenceBit (releaseFence p s) p = false ∧ fenced (releaseFence p s) p = false := by
  have hfence : fenceOf (releaseFence p s) p = FenceState.none := ((ctrl_setReadyBit ..).fenceOf p).trans (fenceOf_with p s)
  exact ⟨congrArg FenceState.active hfence, (rdB_setReadyBit (by decide) ..).trans (if_pos rfl)⟩

theorem pageUnfence_shows (hmay : MayWrite s q p 0x00C) (hf : fenceable p = true) (hactive : fenceBit s p = true) :
    ∃ t, exec (.pageUnfence q p) s = .next t ∧
      (if fenced s p then fenceBit t p = false ∧ fenced t p = false else fenceBit t p = true ∧ (fenceOf t p).release = true) := by
  obtain ⟨w, hw, hbits⟩ := writeCtrlBit_eq hmay (i := 1) (by decide) false
  have hexec : exec (.pageUnfence q p) s = settle s (effPgCtrl p (rd s p 0x00C) (wr p 0x00C w s)) := congrArg (settle s) hw
  have hword (j : Nat) : rdB (wr p 0x00C w s) p 0x00C j = flag w j := by unfold rdB; rw [rd_wr_same]
  obtain ⟨-, hfenced⟩ := ctrlTaken_kept (p := p) (old := rd s p 0x00C) (s := wr p 0x00C w s) ((hword 0).trans ((hbits 0 (by decide)).trans (if_neg (by decide))))
  replace hfenced : fenced (ctrlTaken p (rd s p 0x00C) (wr p 0x00C w s)) p = fenced s p :=
    hfenced.trans (rdB_congr (rd_wr_other (by decide) (by decide) (by simp) ..) 2)
  have hfence : fenceOf (ctrlTaken p (rd s p 0x00C) (wr p 0x00C w s)) p = fenceOf s p :=
    ((ctrl_ctrlTaken ..).fenceOf p).trans (by unfold fenceOf; rw [wr_fences])
  rw [effPgCtrl_eq, hword 1, (hbits 1 (by decide)).trans (if_pos rfl)] at hexec
  obtain ⟨u, hu⟩ : ∃ u, ctrlTaken p (rd s p 0x00C) (wr p 0x00C w s) = u := ⟨_, rfl⟩
  rw [hu] at hexec hfenced hfence
  have hrelease : effFence p false u = if fenced u p then releaseFence p u else setFence p { fenceOf u p with release := true } u := by
    unfold effFence; dsimp only
    rw [if_neg (by rw [hf]; decide), if_neg (by decide), if_neg (by rw [hfence]; show ¬(!fenceBit s p) = true; rw [hactive]; decide)]
  rw [hrelease, hfenced] at hexec
  by_cases h : fenced s p = true
  · rw [if_pos h] at hexec
    simp only [h, if_true]
    have hshows := releaseFence_shows p u
    obtain ⟨t, ht⟩ : ∃ t, releaseFence p u = t := ⟨_, rfl⟩
    rw [ht] at hexec hshows
    exact ⟨_, hexec.trans (settle_eq ..), hshows⟩
  · rw [if_neg h] at hexec
    simp only [Bool.eq_false_iff.mpr h, Bool.false_eq_true, if_false]
    have hnew := fenceOf_with (f := { fenceOf u p with release := true }) p u
    obtain ⟨t, ht⟩ : ∃ t, setFence p { fenceOf u p with release := true } u = t := ⟨_, rfl⟩
    rw [ht] at hexec hnew
    refine ⟨_, hexec.trans (settle_eq ..), ?_, congrArg FenceState.release hnew⟩
    exact (congrArg FenceState.active hnew).trans ((congrArg FenceState.active hfence).trans hactive)

end

/-! ### Readiness, completion, time-outs, stalls -/

/-- An event of BLOCK_FAULT or above clears ENABLE of a page that is on (R628). -/
theorem raise_block_disables {p v : Nat} {s : State} (hv : sevBLOCK ≤ v) (hon : pageOn s p = true) (c d : Nat) : enabled (raise p c v d s) p = false := by
  have hon' : pageOn (raiseOnly p c v d s) p = true :=
    (pageOn_congr ((raiseOnly_reports ..).field State.pd0) (rd_raiseOnly (by decide) (by simp [pgPWR]) ..) p).trans hon
  unfold raise
  dsimp only
  rw [if_pos (by rw [hon', decide_eq_true hv]; rfl)]
  exact hwClear_clears (by decide) (by decide) (by decide) _

section
variable {q : Port} {p : Nat} {s : State}

theorem pageReady_shows (hrow : readyByRow p = true) (hon : pageOn s p = true) (hnot : ready s p = false) (hfence : fenceBit s p = false) :
    ∃ t, exec (.pageReady p) s = .next t ∧ ready t p = true ∧ RegsStandBut [p] s t ∧ MemStands s t := by
  have hexec : exec (.pageReady p) s = settle s (execPageReady.syncQuiesced' p (setReadyBit p 0 true s)) :=
    congrArg (settle s) (if_pos (by rw [hrow, hon, hnot, hfence]; rfl))
  have hbit : rdB (setReadyBit p 0 true s) p 0x008 0 = true := (rdB_setReadyBit (by decide) ..).trans (if_pos rfl)
  have hregs : RegsStandBut [p] s (setReadyBit p 0 true s) := regsStandBut_setReady _ _ _
  have hreports : ReportsOnly s (setReadyBit p 0 true s) := setReady_reports ..
  obtain ⟨u, hu⟩ : ∃ u, setReadyBit p 0 true s = u := ⟨_, rfl⟩
  rw [hu] at hexec hbit hregs hreports
  have hsync : ∀ u, rdB (execPageReady.syncQuiesced' p u) p 0x008 0 = rdB u p 0x008 0 ∧ RegsStandBut [p] u (execPageReady.syncQuiesced' p u) ∧
      ReportsOnly u (execPageReady.syncQuiesced' p u) ∧ rd (execPageReady.syncQuiesced' p u) pgPWR 0x080 = rd u pgPWR 0x080 := by
    intro u
    unfold execPageReady.syncQuiesced'; split
    · refine ⟨syncQuiesced_ready (by decide) .., ?_, syncQuiesced_reports .., ?_⟩
      all_goals unfold syncQuiesced; dsimp only; split
      · exact regsStandBut_setReady _ _ _
      · exact regsStandBut_refl _ _
      · exact rd_setReady_ne (by decide) (by simp) ..
      · rfl
    · exact ⟨rfl, regsStandBut_refl _ _, .refl u, rfl⟩
  obtain ⟨hbit', hregs', hreports', hpwr'⟩ := hsync u
  obtain ⟨t, ht⟩ : ∃ t, execPageReady.syncQuiesced' p u = t := ⟨_, rfl⟩
  rw [ht] at hexec hbit' hregs' hreports' hpwr'
  have hall := hreports.trans hreports'
  have hpwr : rd t pgPWR 0x080 = rd s pgPWR 0x080 := hpwr'.trans (by rw [← hu]; exact rd_setReady_ne (by decide) (by simp) ..)
  have hready : ready t p = true := by
    unfold ready
    rw [pageOn_congr (hall.field State.pd0) hpwr, hon, hbit', hbit]; rfl
  exact ⟨_, hexec.trans (settle_eq ..), hready, hregs.trans hregs', memStands_of_mem (hall.field State.mem)⟩

theorem fenceComplete_shows (hon : pageOn s p = true) (hactive : fenceBit s p = true) (hnot : fenced s p = false) (hdone : (pageJobs s p).done = []) :
    ∃ t, exec (.fenceComplete p) s = .next t ∧
      (if (fenceOf s p).release then fenceBit t p = false ∧ fenced t p = false else fenced t p = true ∧ ready t p = false) := by
  obtain ⟨v, hv⟩ : ∃ v, putBits (putBits (rd s p 0x008).toNat 0 0 0) 2 2 1 = v := ⟨_, rfl⟩
  have hexec : exec (.fenceComplete p) s = settle s (if (fenceOf s p).release then releaseFence p (setReady p v s) else setReady p v s) := by
    rw [← hv]
    exact congrArg (settle s) (if_pos (by unfold fenceIdle; rw [hon, hactive, hnot, hdone]; rfl))
  by_cases h : (fenceOf s p).release = true
  · rw [if_pos h] at hexec
    simp only [h, if_true]
    have hshows := releaseFence_shows p (setReady p v s)
    obtain ⟨t, ht⟩ : ∃ t, releaseFence p (setReady p v s) = t := ⟨_, rfl⟩
    rw [ht] at hexec hshows
    exact ⟨_, hexec.trans (settle_eq ..), hshows⟩
  · rw [if_neg h] at hexec
    simp only [h, Bool.false_eq_true, if_false]
    have hword : rd (setReady p v s) p 0x008 = setFld (setFld (rd s p 0x008) 0 0 0) 2 2 1 := by
      have hlt : v < 2 ^ 32 := hv ▸ putBits_lt (putBits_lt (BitVec.isLt _) (by decide)) (by decide)
      rw [rd_setReady_word hlt, ← hv]
      unfold setFld
      rw [BitVec.toNat_ofNat, Nat.mod_eq_of_lt (putBits_lt (BitVec.isLt _) (by decide))]
    obtain ⟨t, ht⟩ : ∃ t, setReady p v s = t := ⟨_, rfl⟩
    rw [ht] at hexec hword
    refine ⟨_, hexec.trans (settle_eq ..), ?_, Bool.and_eq_false_imp.mpr fun _ => ?_⟩
    · show flag (rd t p 0x008) 2 = true
      rw [hword]; exact flag_setFld _ 2 true (by decide)
    · show flag (rd t p 0x008) 0 = false
      rw [hword, flag_setFld_ne _ _ _ _ _ (Nat.le_refl _) (by decide) (by decide)]
      exact flag_setFld _ 0 false (by decide)

theorem fenceSlow_shows (hon : pageOn s p = true) (hactive : fenceBit s p = true) (hslow : (fenceOf s p).slow = false) (hnot : fenced s p = false)
    (htime : (fenceOf s p).since + 1000000 ≤ now s) :
    ∃ t, exec (.fenceSlow p) s = .next t ∧ (fenceOf t p).slow = true ∧ enabled t p = false ∧
      Told t .a p cFENCE_SLOW ((pageJobs s p).done.length % 2 ^ 32) ∧ Told t .b p cFENCE_SLOW ((pageJobs s p).done.length % 2 ^ 32) := by
  obtain ⟨n, hn⟩ : ∃ n, (pageJobs s p).done.length = n := ⟨_, rfl⟩
  obtain ⟨u, hu⟩ : ∃ u, setFence p { fenceOf s p with slow := true, lost := n } s = u := ⟨_, rfl⟩
  have hexec : exec (.fenceSlow p) s = settle s (raise p cFENCE_SLOW sevBLOCK n u) := by
    rw [← hu, ← hn]
    exact congrArg (settle s) (if_pos (by rw [hon, show (fenceOf s p).active = true from hactive, hslow, hnot, decide_eq_true htime]; rfl))
  rw [hn]
  have hon' : pageOn u p = true := by rw [← hu]; exact hon
  have hfence : (fenceOf u p).slow = true := by rw [← hu, fenceOf_with]
  have hdis := raise_block_disables (Nat.le_refl sevBLOCK) hon' cFENCE_SLOW n
  have htold (r : Port) := told_raise_block (Nat.le_refl sevBLOCK) r p cFENCE_SLOW n u
  have hfence' : fenceOf (raise p cFENCE_SLOW sevBLOCK n u) p = fenceOf u p := by unfold fenceOf; rw [raise_fences]
  obtain ⟨t, ht⟩ : ∃ t, raise p cFENCE_SLOW sevBLOCK n u = t := ⟨_, rfl⟩
  rw [ht] at hexec hdis hfence'
  simp only [ht] at htold
  exact ⟨_, hexec.trans (settle_eq ..), (congrArg FenceState.slow hfence').trans hfence, hdis, htold .a, htold .b⟩

theorem stall_shows (hruns : runsJobs p = true) (hon : pageOn s p = true) (hrun : (pageJobs s p).running ≠ []) (hnot : rdB s p 0x010 2 = false)
    (htime : stallMs s p ≤ msSince s (pageJobs s p).progress) :
    ∃ t, exec (.stall p) s = .next t ∧ rdB t p 0x010 2 = true ∧ rdB t p 0x020 16 = true ∧ t.jobs = s.jobs := by
  have hempty : (pageJobs s p).running.isEmpty = false := by
    cases h : (pageJobs s p).running with
    | nil => exact absurd h hrun
    | cons x l => rfl
  obtain ⟨d, hd⟩ : ∃ d, satN 32 (msSince s (pageJobs s p).progress) = d := ⟨_, rfl⟩
  have hexec : exec (.stall p) s = settle s (raise p cSTALL sevDEGRADED d (wrB p 0x010 2 true s)) := by
    rw [← hd]
    exact congrArg (settle s) (if_pos (by rw [hruns, hon, hempty, hnot, decide_eq_true htime]; rfl))
  have hvalid := rdB_raise_valid (v := sevDEGRADED) (assigned_of_pageOn hon) (Nat.le_refl _) (by decide) cSTALL d (wrB p 0x010 2 true s)
  have hbit : rdB (raise p cSTALL sevDEGRADED d (wrB p 0x010 2 true s)) p 0x010 2 = true :=
    (rdB_congr (rd_raise (by decide) (by simp) ..) 2).trans (rdB_wrB _ _ _ _ _ (by decide))
  have hjobs : (raise p cSTALL sevDEGRADED d (wrB p 0x010 2 true s)).jobs = s.jobs := (raise_jobs ..).trans ((wrB_reports ..).field State.jobs)
  obtain ⟨t, ht⟩ : ∃ t, raise p cSTALL sevDEGRADED d (wrB p 0x010 2 true s) = t := ⟨_, rfl⟩
  rw [ht] at hexec hvalid hbit hjobs
  exact ⟨_, hexec.trans (settle_eq ..), hbit, hvalid, hjobs⟩

/-- The state as the page that does not answer is reported. -/
def timedOut (q : Port) (p : Nat) (write : Bool) (s : State) : State :=
  let t := { s with timeouts := s.timeouts.put false p true }
  if write then t else t.modPort q (fun p => { p with readData := 0xFFFFFFFF, readEP := false })

theorem timedOut_shows (q : Port) (p : Nat) (write : Bool) (s : State) :
    (timedOut q p write s).timeouts.get false p = true ∧ (write = false → ((timedOut q p write s).port q).readData = 0xFFFFFFFF) ∧
      (timedOut q p write s).regs = s.regs ∧ (timedOut q p write s).pd0 = s.pd0 := by
  have hput : (s.timeouts.put false p true).get false p = true := SMap.get_put_same ..
  cases write <;> cases q <;> exact ⟨hput, by simp [timedOut, State.modPort, State.setPort, State.port], rfl, rfl⟩

theorem regTimeout_shows {off : Nat} (write : Bool) (hlive : portLive s q = true) (hon : pageOn s p = true) (hoff : off < 4096) :
    ∃ t, exec (.regTimeout q p off write) s = .next t ∧ t.timeouts.get false p = true ∧ enabled t p = false ∧
      (write = false → (t.port q).readData = 0xFFFFFFFF) ∧
      Told t .a p cREG_TIMEOUT (off + q.num * 2 ^ 20 + b2n write * 2 ^ 21) ∧
      Told t .b p cREG_TIMEOUT (off + q.num * 2 ^ 20 + b2n write * 2 ^ 21) := by
  obtain ⟨d, hd⟩ : ∃ d, off + q.num * 2 ^ 20 + b2n write * 2 ^ 21 = d := ⟨_, rfl⟩
  have hd32 : d < 2 ^ 32 := by
    have := port_num_lt q
    have : b2n write < 2 := by cases write <;> decide
    omega
  obtain ⟨w, hw⟩ : ∃ w, rd s p 0x014 = w := ⟨_, rfl⟩
  have hexec : exec (.regTimeout q p off write) s = settle s (wr p 0x014 w (tellLinked p (raise p cREG_TIMEOUT sevBLOCK d (timedOut q p write s)))) := by
    rw [← hd, ← hw]
    exact congrArg (settle s) (if_pos (by rw [hlive, hon, decide_eq_true hoff]; rfl))
  rw [hd]
  obtain ⟨htime, hdata, hregs, hpd0⟩ := timedOut_shows q p write s
  obtain ⟨u, hu⟩ : ∃ u, timedOut q p write s = u := ⟨_, rfl⟩
  rw [hu] at hexec htime hdata hregs hpd0
  have hon' : pageOn u p = true := (pageOn_congr hpd0 (rd_of_regs hregs _ _) p).trans hon
  have hdis := raise_block_disables (Nat.le_refl sevBLOCK) hon' cREG_TIMEOUT d
  have htold (r : Port) := told_raise_block (Nat.le_refl sevBLOCK) r p cREG_TIMEOUT d u
  have hreports := raise_reports p cREG_TIMEOUT sevBLOCK d u
  obtain ⟨v, hv⟩ : ∃ v, raise p cREG_TIMEOUT sevBLOCK d u = v := ⟨_, rfl⟩
  rw [hv] at hexec hdis hreports
  simp only [hv, Nat.mod_eq_of_lt hd32] at htold
  have htells := Tells.tellLinked p v
  obtain ⟨x, hx⟩ : ∃ x, tellLinked p v = x := ⟨_, rfl⟩
  rw [hx] at hexec htells
  have htimeouts : x.timeouts = u.timeouts := by rw [htells.eq]; exact hreports.field State.timeouts
  have hports : x.port q = u.port q := .trans (by rw [htells.eq]; cases q <;> rfl) (port_of_reports hreports q)
  have hen : enabled (wr p 0x014 w x) p = false :=
    (rdB_congr ((rd_wr_other (by decide) (by decide) (by simp) ..).trans (htells.regs p 0x00C (by decide) (by decide))) 0).trans hdis
  have htold' (r : Port) : Told (wr p 0x014 w x) r p cREG_TIMEOUT d := ((htold r).mono htells.outbox).mono (wr_outbox p 0x014 w x ▸ List.prefix_rfl)
  have htimeouts' : (wr p 0x014 w x).timeouts = x.timeouts := wr_timeouts ..
  have hports' : (wr p 0x014 w x).port q = x.port q := port_of_reports (wr_reports ..) q
  obtain ⟨t, ht⟩ : ∃ t, wr p 0x014 w x = t := ⟨_, rfl⟩
  rw [ht] at hexec hen htimeouts' hports'
  simp only [ht] at htold'
  refine ⟨_, hexec.trans (settle_eq ..), ?_, hen, fun h => ?_, htold' .a, htold' .b⟩
  · exact (congrArg (fun m : SMap Bool => m.get false p) (htimeouts'.trans htimeouts)).trans htime
  · exact (congrArg PortState.readData (hports'.trans hports)).trans (hdata h)

end

/-- Settles O7. -/
theorem pagesReadyFenceAndStall : Obligations.PagesReadyFenceAndStall :=
  ⟨⟨fun _ _ => pageReady_shows, fun _ _ on _ hmay => ⟨ctrlBit_shows hmay (by decide) on, ctrlBit_shows hmay (by decide) on⟩⟩,
    ⟨fun _ _ _ => pageFence_shows, fun _ _ => fenceComplete_shows, fun _ _ _ => pageUnfence_shows⟩,
    fun _ _ => fenceSlow_shows, fun _ _ _ write _ => regTimeout_shows write, fun _ _ => stall_shows⟩

end Sys2Proof.Machine
end

section
/-!
PROOFS. Memory reads and writes its bytes; errors are corrected or poisoned; the patrol scrub (O20).
-/
namespace Sys2Proof.Machine

/-! ### Accesses of good words -/

theorem upsetAt_none (a : Nat) (s : State) : upsetAt a .none s = s := if_pos rfl

theorem exec_memRead {a n : Nat} {u : Upset} {s : State} (hn : n ≠ 0) (huse : memUsable s a n = true) :
    exec (.memRead a n u) s = settle s (modDram (fun d => { d with
      lastData := if (readMem a n (upsetAt a u s)).2.1.isSome then [] else (readMem a n (upsetAt a u s)).1
      lastPoison := (readMem a n (upsetAt a u s)).2.1.isSome }) (readMem a n (upsetAt a u s)).2.2) :=
  (if_neg hn).trans ((if_neg (by rw [isData_of_memUsable huse]; decide)).trans (if_neg (by rw [huse]; decide)))

theorem memStands_modDram (f : DramState → DramState) (s : State) : MemStands s (modDram f s) := fun _ => rfl

theorem markOf_modDram (f : DramState → DramState) (s : State) (w : Nat) : markOf (modDram f s) w = markOf s w := rfl

/-- What a read shows its source, from what the read of memory gives. -/
theorem memRead_shows {a n : Nat} {u : Upset} {s t : State} {l : List Byte} {p : Option Nat} (hn : n ≠ 0) (huse : memUsable s a n = true)
    (hread : readMem a n (upsetAt a u s) = (l, p, t)) :
    ∃ v, exec (.memRead a n u) s = .next v ∧ v.dram.lastData = (if p.isSome then [] else l) ∧ v.dram.lastPoison = p.isSome ∧ MemStands t v ∧
      ∀ w, markOf v w = markOf t w := by
  have hexec := exec_memRead (u := u) hn huse
  rw [hread] at hexec
  dsimp only at hexec
  exact ⟨_, hexec.trans (settle_eq ..), rfl, rfl, fun _ => rfl, fun _ => rfl⟩

theorem execMemWrite_good {a : Nat} {data : List Byte} {s : State} (hdata : data ≠ []) (huse : memUsable s a data.length = true)
    (hgood : GoodWords s a data.length) :
    ∃ t, exec (.memWrite a data .none) s = .next t ∧ MemStandsBut a data.length s t ∧ getBytes t a data.length = data ∧ (s.Canonical → t.Canonical) := by
  have hempty : data.isEmpty = false := by cases data with
    | nil => exact absurd rfl hdata
    | cons b l => rfl
  have hexec : exec (.memWrite a data .none) s = settle s (storeRecord a data s) := by
    have h : exec (.memWrite a data .none) s = settle s (storeRecord a data (upsetAt a .none s)) :=
      (if_neg (by rw [hempty]; decide)).trans ((if_neg (by rw [isData_of_memUsable huse]; decide)).trans (if_neg (by rw [huse]; decide)))
    rwa [upsetAt_none] at h
  have hlen : (data.map some).length = data.length := List.length_map _
  obtain ⟨-, hstores, hbytes⟩ := writeEnabled_good (job := false) (bs := data.map some) (a := a) (s := s)
    (by rw [hlen]; exact isData_of_memUsable huse) (by rw [hlen]; exact hgood)
  have hcanon : s.Canonical → (storeRecord a data s).Canonical := writeEnabled_canonical false a _
  have hwrote : Wrote a data s (storeRecord a data s) := ⟨hstores, hbytes⟩
  obtain ⟨t, ht⟩ : ∃ t, storeRecord a data s = t := ⟨_, rfl⟩
  rw [ht] at hexec hwrote hcanon
  exact ⟨_, hexec.trans (settle_eq ..), hwrote.standsBut, hwrote.getBytes, hcanon⟩

theorem memRead_unmapped {a n : Nat} {u : Upset} {s : State} (hn : 1 ≤ n) (hdata : isData s a n = false) :
    exec (.memRead a n u) s = .fault (.unmapped a) :=
  (if_neg (by omega)).trans (if_pos (by rw [hdata]; rfl))

theorem memWrite_unmapped {a : Nat} {data : List Byte} {u : Upset} {s : State} (hne : data ≠ []) (hdata : isData s a data.length = false) :
    exec (.memWrite a data u) s = .fault (.unmapped a) := by
  refine (if_neg ?_).trans (if_pos (by rw [hdata]; rfl))
  cases data with
  | nil => exact absurd rfl hne
  | cons b l => exact Bool.false_ne_true

/-! ### One word under a code -/

/-- The word is one of those with a code, and so the first that a byte at its address lies in. -/
theorem codedWords_first {w : Nat} {s : State} (h : codedWords s w (wordSize w) = [w]) : codedWords s w 1 = [w] := by
  obtain ⟨⟨i, -, -, hi⟩, hecc⟩ := mem_codedWords.mp (h ▸ List.mem_singleton_self w : w ∈ codedWords s w (wordSize w))
  have hw : w / wordSize w * wordSize w = w := Nat.div_mul_cancel ⟨i, hi.trans (Nat.mul_comm ..)⟩
  have hword : (List.range (if 1 = 0 then 0 else (w + (1 - 1)) / wordSize w + 1 - w / wordSize w)).map (fun i => (w / wordSize w + i) * wordSize w) = [w] := by
    rw [if_neg (by decide), show (w + (1 - 1)) / wordSize w + 1 - w / wordSize w = 1 by simp]
    simp [hw]
  unfold codedWords
  dsimp only
  rw [hword]
  split
  · rename_i hlo; simp [hecc hlo]
  · rfl

/-- A word's mark as an upset leaves it. -/
theorem upsetAt_marked {w : Nat} {s : State} (h : codedWords s w (wordSize w) = [w]) {u : Upset} (hu : u = .correctable ∨ u = .uncorrectable) :
    upsetAt w u s = setMark w (worsen (markOf s w) u) s := by
  unfold upsetAt
  rw [if_neg (by rcases hu with rfl | rfl <;> decide), if_neg (by rcases hu with rfl | rfl <;> decide), codedWords_first h]

/-- A read of one word under a code. -/
theorem readMem_word {w : Nat} {s : State} (h : codedWords s w (wordSize w) = [w]) :
    readMem w (wordSize w) s = (getBytes (readWord w (countDram w (wordSize w) s)).2 w (wordSize w),
      (if (readWord w (countDram w (wordSize w) s)).1 then some w else none), (readWord w (countDram w (wordSize w) s)).2) := by
  unfold readMem
  rw [h]
  rfl

/-- A word that its code finds uncorrectable becomes the poison code. -/
theorem markOf_condemnWord (w : Nat) (s : State) : markOf (condemnWord w s) w = .poison := by
  have hreports : ReportsOnly (poisonWord w s) (condemnWord w s) := by
    unfold condemnWord lastErr
    exact (incCnt_reports ..).trans ((incCnt_reports ..).trans (wrN_reports ..))
  rw [markOf_congr (hreports.field State.marks) (congrArg Memory.fills (hreports.field State.mem))]
  unfold poisonWord
  rw [markOf_setMark, if_pos rfl]

theorem markOf_raise (p c v d : Nat) (s : State) (w : Nat) : markOf (raise p c v d s) w = markOf s w :=
  markOf_congr (raise_marks ..) (congrArg Memory.fills (raise_mem ..)) w

/-- What a read finds in the word, by its mark. -/
theorem readWord_good {w : Nat} {s : State} (hbank : bankBad s w = false) (hm : markOf s w = .good) : readWord w s = (false, s) := by
  unfold readWord; rw [hbank, hm]; rfl

theorem readWord_correctable {w : Nat} {s : State} (hbank : bankBad s w = false) (hm : markOf s w = .correctable) :
    readWord w s = (false, correctWord w s) := by
  unfold readWord; rw [hbank, hm]; rfl

theorem readWord_uncorrectable {w : Nat} {s : State} (hbank : bankBad s w = false) (hm : markOf s w = .uncorrectable) :
    (readWord w s).1 = true ∧ markOf (readWord w s).2 w = .poison := by
  unfold readWord
  rw [hbank, if_neg Bool.false_ne_true, hm]
  exact ⟨rfl, (markOf_raise ..).trans (markOf_condemnWord w s)⟩

theorem readWord_poison {w : Nat} {s : State} (hbank : bankBad s w = false) (hm : markOf s w = .poison) : readWord w s = (true, s) := by
  unfold readWord; rw [hbank, hm]; rfl

section
variable {w : Nat} {s : State} (hcode : codedWords s w (wordSize w) = [w]) (hbank : bankBad s w = false)
include hcode hbank

/-- A state in which the word's mark was set to `m`, and the access counted. -/
theorem marked_shows (m : Mark) : codedWords (setMark w m s) w (wordSize w) = [w] ∧
    bankBad (countDram w (wordSize w) (setMark w m s)) w = false ∧ markOf (countDram w (wordSize w) (setMark w m s)) w = m ∧
    MemStands s (countDram w (wordSize w) (setMark w m s)) := by
  have hset := setMark_accounted w m s
  have hcount := countDram_accounted w (wordSize w) (setMark w m s)
  have hdata := countDram_data w (wordSize w) (setMark w m s)
  refine ⟨(hset.sameUse.codedWords ..).trans hcode, ((hset.trans hcount).sameUse.bankBad w).trans hbank, ?_, ?_⟩
  · rw [hdata.marksStand, markOf_setMark, if_pos rfl]
  · exact MemStands.trans (fun _ => rfl) hdata.memStands

variable (huse : memUsable s w (wordSize w) = true)
include huse

theorem memRead_correctable (hm : markOf s w = .good) : ∃ t, exec (.memRead w (wordSize w) .correctable) s = .next t ∧
    t.dram.lastData = getBytes s w (wordSize w) ∧ t.dram.lastPoison = false ∧ markOf t w = .good ∧ MemStands s t := by
  obtain ⟨hcode', hbank', hmark, hmem⟩ := marked_shows hcode hbank .correctable
  have hread := readMem_word hcode'
  obtain ⟨u, hu⟩ : ∃ u, countDram w (wordSize w) (setMark w .correctable s) = u := ⟨_, rfl⟩
  rw [hu] at hbank' hmark hmem hread
  rw [readWord_correctable hbank' hmark] at hread
  obtain ⟨hmem', hmarks⟩ := correctWord_shows w u
  obtain ⟨v, hv⟩ : ∃ v, correctWord w u = v := ⟨_, rfl⟩
  rw [hv] at hread hmem' hmarks
  have hall := hmem.trans (memStands_of_mem hmem')
  have hup : upsetAt w .correctable s = setMark w .correctable s := by
    rw [upsetAt_marked hcode (.inl rfl), hm]; rfl
  rw [← hup] at hread
  obtain ⟨t, hexec, hdata, hpoison, hstay, hsame⟩ := memRead_shows (Nat.pos_iff_ne_zero.mp (wordSize_pos w)) huse hread
  exact ⟨t, hexec, hdata.trans (getBytes_congr hall ..), hpoison, (hsame w).trans ((hmarks w).trans (if_pos rfl)), hall.trans hstay⟩

theorem memRead_uncorrectable : ∃ t, exec (.memRead w (wordSize w) .uncorrectable) s = .next t ∧ t.dram.lastPoison = true ∧
    t.dram.lastData = [] ∧ markOf t w = .poison := by
  obtain ⟨hcode', hbank', hmark, -⟩ := marked_shows hcode hbank .uncorrectable
  have hread := readMem_word hcode'
  obtain ⟨u, hu⟩ : ∃ u, countDram w (wordSize w) (setMark w .uncorrectable s) = u := ⟨_, rfl⟩
  rw [hu] at hbank' hmark hread
  obtain ⟨hpois, hnew⟩ := readWord_uncorrectable hbank' hmark
  rw [hpois, if_pos rfl] at hread
  obtain ⟨v, hv⟩ : ∃ v, (readWord w u).2 = v := ⟨_, rfl⟩
  rw [hv] at hread hnew
  have hup : upsetAt w .uncorrectable s = setMark w .uncorrectable s := by
    rw [upsetAt_marked hcode (.inr rfl)]; cases markOf s w <;> rfl
  rw [← hup] at hread
  obtain ⟨t, hexec, hdata, hpoison, -, hsame⟩ := memRead_shows (Nat.pos_iff_ne_zero.mp (wordSize_pos w)) huse hread
  exact ⟨t, hexec, hpoison, hdata, (hsame w).trans hnew⟩

theorem memRead_poison (hm : markOf s w = .poison) : ∃ t, exec (.memRead w (wordSize w) .none) s = .next t ∧ t.dram.lastPoison = true ∧
    t.dram.lastData = [] ∧ MemStands s t := by
  have hread := readMem_word hcode
  have hcount := countDram_accounted w (wordSize w) s
  have hstands := countDram_data w (wordSize w) s
  rw [readWord_poison ((hcount.sameUse.bankBad w).trans hbank) ((hstands.marksStand w).trans hm), if_pos rfl, ← upsetAt_none w s] at hread
  rw [upsetAt_none] at hread
  obtain ⟨u, hu⟩ : ∃ u, countDram w (wordSize w) s = u := ⟨_, rfl⟩
  rw [hu] at hread hstands
  rw [← upsetAt_none w s] at hread
  obtain ⟨t, hexec, hdata, hpoison, hstay, -⟩ := memRead_shows (Nat.pos_iff_ne_zero.mp (wordSize_pos w)) huse hread
  exact ⟨t, hexec, hpoison, hdata, hstands.memStands.trans hstay⟩

end

/-! ### The patrol scrub -/

theorem correctWord_reports (w : Nat) (s : State) : ReportsOnly (setMark w .good s) (correctWord w s) := by
  unfold correctWord lastErr
  exact (incCnt_reports ..).trans ((wrN_reports ..).trans (raise_reports ..))

theorem condemnWord_reports (w : Nat) (s : State) : ReportsOnly (poisonWord w s) (condemnWord w s) := by
  unfold condemnWord lastErr
  exact (incCnt_reports ..).trans ((incCnt_reports ..).trans (wrN_reports ..))

/-- A scrubbed word, by its mark: corrected, poisoned, or as it was; the scrub's own state stands. -/
theorem scrubWord_shows {w : Nat} {s : State} (hbank : bankBad s w = false) :
    (scrubWord w s).dram = s.dram ∧ (markOf s w = .correctable → markOf (scrubWord w s) w = .good ∧ MemStands s (scrubWord w s)) ∧
      (markOf s w = .uncorrectable → markOf (scrubWord w s) w = .poison) ∧
      (markOf s w = .good ∨ markOf s w = .poison → markOf (scrubWord w s) w = markOf s w ∧ MemStands s (scrubWord w s)) := by
  unfold scrubWord
  rw [hbank, if_neg Bool.false_ne_true]
  cases hm : markOf s w
  case good =>
    refine ⟨rfl, ?_, ?_, fun _ => ⟨hm, .refl s⟩⟩ <;> exact nofun
  case poison =>
    refine ⟨rfl, ?_, ?_, fun _ => ⟨hm, .refl s⟩⟩ <;> exact nofun
  case correctable =>
    obtain ⟨hmem, hmarks⟩ := correctWord_shows w s
    refine ⟨(correctWord_reports w s).field State.dram, fun _ => ⟨(hmarks w).trans (if_pos rfl), memStands_of_mem hmem⟩, ?_, ?_⟩
    · exact nofun
    · rintro (h | h) <;> cases h
  case uncorrectable =>
    have hdram : (poisonWord w s).dram = s.dram := (congrArg State.dram (setEnabled_eq w _ s)).trans rfl
    refine ⟨(raise_dram ..).trans (((condemnWord_reports w s).field State.dram).trans hdram), ?_,
      fun _ => (markOf_raise ..).trans (markOf_condemnWord w s), ?_⟩
    · exact nofun
    · rintro (h | h) <;> cases h

theorem patrolScrub_shows {s : State} (hready : ready s pgRES = true) (hrate : rdF s pgRES 0x09C 15 0 ≠ 0)
    (hbank : bankBad s (residentBase + 8 * s.dram.scrubNext.get 0 12) = false) :
    ∃ t, exec (.patrolScrub none .none) s = .next t ∧ t.dram.scrubNext.get 0 12 = (s.dram.scrubNext.get 0 12 + 1) % (48 * 2 ^ 18) ∧
      (markOf s (residentBase + 8 * s.dram.scrubNext.get 0 12) = .correctable →
        markOf t (residentBase + 8 * s.dram.scrubNext.get 0 12) = .good ∧ MemStands s t) ∧
      (markOf s (residentBase + 8 * s.dram.scrubNext.get 0 12) = .uncorrectable → markOf t (residentBase + 8 * s.dram.scrubNext.get 0 12) = .poison) ∧
      (markOf s (residentBase + 8 * s.dram.scrubNext.get 0 12) = .good ∨ markOf s (residentBase + 8 * s.dram.scrubNext.get 0 12) = .poison →
        markOf t (residentBase + 8 * s.dram.scrubNext.get 0 12) = markOf s (residentBase + 8 * s.dram.scrubNext.get 0 12) ∧ MemStands s t) := by
  obtain ⟨n, hn⟩ : ∃ n, s.dram.scrubNext.get 0 12 = n := ⟨_, rfl⟩
  obtain ⟨m, hm⟩ : ∃ m, (n + 1) % (48 * 2 ^ 18) = m := ⟨_, rfl⟩
  rw [hn] at hbank ⊢
  rw [hm]
  obtain ⟨w, hw⟩ : ∃ w, residentBase + 8 * n = w := ⟨_, rfl⟩
  rw [hw] at hbank ⊢
  obtain ⟨u, hu⟩ : ∃ u, modDram (fun d => { d with scrubNext := d.scrubNext.put 0 12 m }) s = u := ⟨_, rfl⟩
  have hexec : exec (.patrolScrub none .none) s = settle s (scrubWord w u) := by
    rw [← hu, ← hm, ← hw, ← hn, ← upsetAt_none (residentBase + 8 * s.dram.scrubNext.get 0 12) (modDram _ s)]
    exact if_neg (by rw [hready, decide_eq_false hrate]; decide)
  have hnext : u.dram.scrubNext.get 0 12 = m := by rw [← hu]; exact SMap.get_put_same ..
  have hmark : markOf u w = markOf s w := hu ▸ markOf_modDram _ s w
  have hmem : MemStands s u := hu ▸ memStands_modDram _ s
  have hbank' : bankBad u w = false := hu ▸ hbank
  obtain ⟨hdram, hcorr, huncorr, hstay⟩ := scrubWord_shows hbank'
  rw [hmark] at hcorr huncorr hstay
  obtain ⟨t, ht⟩ : ∃ t, scrubWord w u = t := ⟨_, rfl⟩
  rw [ht] at hexec hdram hcorr huncorr hstay
  exact ⟨_, hexec.trans (settle_eq ..), (congrArg (fun d : DramState => d.scrubNext.get 0 12) hdram).trans hnext,
    fun h => ⟨(hcorr h).1, hmem.trans (hcorr h).2⟩, huncorr, fun h => ⟨(hstay h).1, hmem.trans (hstay h).2⟩⟩

/-- Settles O20. -/
theorem memoryWordsAndTheirErrors : Obligations.MemoryWordsAndTheirErrors := by
  refine ⟨fun a s => ⟨fun n hn huse hgood => ?_, fun data => execMemWrite_good, fun n u => memRead_unmapped, fun data u => memWrite_unmapped⟩,
    fun w s huse hcode hbank => ⟨memRead_correctable hcode hbank huse, memRead_uncorrectable hcode hbank huse, memRead_poison hcode hbank huse⟩,
    fun s hready hrate _ hbank => patrolScrub_shows hready hrate hbank⟩
  have hread := readMem_good hgood
  have hstands := countDram_data a n s
  rw [← upsetAt_none a s] at hread
  obtain ⟨t, hexec, hdata, hpoison, hmem, -⟩ := memRead_shows (by omega) huse hread
  rw [upsetAt_none] at hdata hmem
  exact ⟨t, hexec, hdata, hpoison, hstands.memStands.trans hmem⟩

end Sys2Proof.Machine
end

section
/-!
PROOFS. Training, refresh and self-refresh of the DRAM controllers (O21).
-/
namespace Sys2Proof.Machine

/-! ### A controller's status through aperture accesses -/

/-- What aperture accesses leave of a controller's status: all but its self-refresh bit. -/
structure StatusStands (s t : State) : Prop where
  bits : ∀ p i, i ≠ 3 → rdB t p 0x080 i = rdB s p 0x080 i

theorem StatusStands.trans {s t u : State} (h : StatusStands s t) (g : StatusStands t u) : StatusStands s u :=
  ⟨fun p i hi => (g.bits p i hi).trans (h.bits p i hi)⟩

theorem statusStands_of_rd {s t : State} (h : ∀ p, rd t p 0x080 = rd s p 0x080) : StatusStands s t := ⟨fun p i _ => rdB_congr (h p) i⟩

theorem StatusStands.field {s t : State} (h : StatusStands s t) {p hi lo : Nat} (hne : hi < 3 ∨ 3 < lo) : rdF t p 0x080 hi lo = rdF s p 0x080 hi lo :=
  fld_congr fun i hlo hhi => h.bits p i (by omega)

theorem apRead_status (q : Port) (a n : Nat) (s : State) : StatusStands s (apRead q a n s) := by
  have hread : StatusStands s (readAs (srcPort q) a n s).2.2 := ⟨(readAs_accounted ..).status⟩
  unfold apRead; dsimp only; split
  · exact hread.trans (statusStands_of_rd fun p => (rd_raise (by decide) (by omega) ..).trans (rd_modPort ..))
  · exact hread.trans (statusStands_of_rd fun p => rd_modPort ..)

theorem apWrite_status (q : Port) (a : Nat) (bs : List (Option Byte)) (s : State) : StatusStands s (apWrite q a bs s) := by
  have hwrite : StatusStands s (writeEnabled false a bs (useMem (srcPort q) a bs.length s)).2 :=
    ⟨((useMem_accounted ..).trans (writeEnabled_accounted ..)).status⟩
  unfold apWrite; dsimp only; split
  · exact hwrite.trans (statusStands_of_rd fun p => rd_raise (by decide) (by omega) ..)
  · exact hwrite

theorem apRefuse_status (q : Port) (o : Nat) (s : State) : StatusStands s (apRefuse q o s) := by
  rw [refuse_apRefuse]
  exact statusStands_of_rd fun p => rd_refuse (by decide) (by omega) ..

theorem apServe_status (q : Port) (x : HeldAccess) (s : State) : StatusStands s (apServe q x s).2 := by
  have hdata : StatusStands s (if x.data.isNone then s.modPort q (fun p => { p with readBytes := zeros x.len, readEP := false }) else s) := by
    split
    · exact statusStands_of_rd fun p => rd_modPort ..
    · exact ⟨fun _ _ _ => rfl⟩
  unfold apServe; split
  · exact hdata.trans (apRefuse_status ..)
  · split
    · exact ⟨fun _ _ _ => rfl⟩
    · split
      · exact apRead_status ..
      · exact apWrite_status ..

theorem serveHeld_status (q : Port) (s : State) : StatusStands s (serveHeld q s) := by
  refine foldl_keeps (fun t => StatusStands s t) _ (fun t x ht => ?_) _ (statusStands_of_rd fun p => rd_modPort ..)
  dsimp only; split
  · exact ht.trans (statusStands_of_rd fun p => rd_modPort ..)
  · exact ht.trans (apServe_status ..)

theorem serveApertures_status (s : State) : StatusStands s (serveApertures s) := (serveHeld_status ..).trans (serveHeld_status ..)

/-! ### The end of a training -/

theorem rd_nextOwed_other {p off : Nat} (ho : off < 0x1000) (h1 : ¬(p = pgDMC 0 ∧ off = 0x100)) (h2 : ¬(p = pgDMC 0 ∧ off = 0x110)) (s : State) :
    rd (nextOwed s) p off = rd s p off := by
  unfold nextOwed; split
  · rfl
  · split
    · exact (rd_wrN_other (by decide) ho h2 ..).trans (rd_of_regs rfl ..)
    · exact rd_wrB_other (by decide) ho h1 ..

/-- The status word with its state and failed step written. -/
theorem statusWord_fields (w : Word) {st step : Nat} (hst : st < 4) (hstep : step < 256) :
    fld (setFld (setFld w 1 0 st) 15 8 step) 1 0 = st ∧ fld (setFld (setFld w 1 0 st) 15 8 step) 15 8 = step := by
  constructor
  · rw [fld_setFld_ne _ _ _ _ _ _ (by decide) (by decide) (by decide), fld_setFld _ _ _ _ (by decide) (by decide)]
    exact Nat.mod_eq_of_lt hst
  · rw [fld_setFld _ _ _ _ (by decide) (by decide)]
    exact Nat.mod_eq_of_lt hstep

/-- A controller's status and failed step written, and what the map is offered. -/
def trainNoted (c st step : Nat) (s : State) : State := setOffer (wrF (pgDMC c) 0x080 15 8 step (wrF (pgDMC c) 0x080 1 0 st s))

theorem trainNoted_shows {c st step : Nat} (hst : st < 4) (hstep : step < 256) (s : State) :
    rdF (trainNoted c st step s) (pgDMC c) 0x080 1 0 = st ∧ rdF (trainNoted c st step s) (pgDMC c) 0x080 15 8 = step := by
  have hword : rd (trainNoted c st step s) (pgDMC c) 0x080 = setFld (setFld (rd s (pgDMC c) 0x080) 1 0 st) 15 8 step := by
    unfold trainNoted setOffer
    rw [rd_wrF_other (by decide) (by decide) (by simp), rd_wrF_same, rd_wrF_same]
  unfold rdF
  rw [hword]
  exact statusWord_fields _ hst hstep

theorem pageOn_wrF {p off hi lo v : Nat} {s : State} (ho : off < 0x1000) (hne : ¬(p = pgPWR ∧ off = 0x080)) (p' : Nat) :
    pageOn (wrF p off hi lo v s) p' = pageOn s p' := pageOn_wr ho hne _ s p'

theorem trainEnd_pass (c : Nat) (s : State) :
    trainState (trainEnd c 0 s) c = 2 ∧ rdB (trainEnd c 0 s) (pgDMC c) 0x008 0 = true ∧ rdF (trainEnd c 0 s) (pgDMC c) 0x080 15 8 = 0 := by
  obtain ⟨hst, hstep⟩ := trainNoted_shows (c := c) (st := 2) (step := 0) (by decide) (by decide) s
  obtain ⟨d, hd⟩ : ∃ d, (now s - s.dram.trainAt.get 0 c) / 1000 = d := ⟨_, rfl⟩
  obtain ⟨u, hu⟩ : ∃ u, trainNoted c 2 0 s = u := ⟨_, rfl⟩
  have heq : trainEnd c 0 s = serveApertures (nextOwed (raise (pgDMC c) 0x101 sevINFO d (setReady (pgDMC c) 1 u))) := by rw [← hu, ← hd]; rfl
  rw [hu] at hst hstep
  have hready : rd (raise (pgDMC c) 0x101 sevINFO d (setReady (pgDMC c) 1 u)) (pgDMC c) 0x008 = BitVec.ofNat 32 1 :=
    (rd_raise_low (by decide) (by decide) (by simp) ..).trans (rd_setReady_word (by decide) ..)
  have hstatus : rd (raise (pgDMC c) 0x101 sevINFO d (setReady (pgDMC c) 1 u)) (pgDMC c) 0x080 = rd u (pgDMC c) 0x080 :=
    (rd_raise_low (by decide) (by decide) (by simp) ..).trans (rd_setReady_ne (by decide) (by simp) ..)
  rw [heq]
  obtain ⟨v, hv⟩ : ∃ v, raise (pgDMC c) 0x101 sevINFO d (setReady (pgDMC c) 1 u) = v := ⟨_, rfl⟩
  rw [hv] at hready hstatus ⊢
  have howed : rd (nextOwed v) (pgDMC c) 0x080 = rd v (pgDMC c) 0x080 := rd_nextOwed_other (by decide) (by simp) (by simp) v
  have howed' : rd (nextOwed v) (pgDMC c) 0x008 = rd v (pgDMC c) 0x008 := rd_nextOwed_other (by decide) (by simp) (by simp) v
  have hserve := serveApertures_status (nextOwed v)
  refine ⟨?_, ?_, ?_⟩
  · exact (hserve.field (by decide)).trans ((rdF_congr (howed.trans hstatus) ..).trans hst)
  · have hreg : apertureReg (pgDMC c) 0x008 := ⟨by decide, by unfold counted; omega, by unfold pgDMC; omega⟩
    unfold rdB
    rw [rd_serveApertures hreg, howed', hready]
    decide
  · exact (hserve.field (by decide)).trans ((rdF_congr (howed.trans hstatus) ..).trans hstep)

theorem trainEnd_fail {c step : Nat} (hstep : 1 ≤ step) (hlt : step < 256) {s : State} (hon : pageOn s (pgDMC c) = true) :
    trainState (trainEnd c step s) c = 3 ∧ rdB (trainEnd c step s) (pgDMC c) 0x008 0 = false ∧
      rdF (trainEnd c step s) (pgDMC c) 0x080 15 8 = step ∧ rdB (trainEnd c step s) (pgDMC c) 0x020 16 = true := by
  obtain ⟨hst, hstep'⟩ := trainNoted_shows (c := c) (st := 3) (by decide) hlt s
  obtain ⟨u, hu⟩ : ∃ u, trainNoted c 3 step s = u := ⟨_, rfl⟩
  have heq : trainEnd c step s = raise (pgDMC c) 0x100 sevDEGRADED step (setReady (pgDMC c) 2 u) := by
    rw [← hu]; exact if_neg (by omega)
  rw [hu] at hst hstep'
  rw [heq]
  have hready : rd (raise (pgDMC c) 0x100 sevDEGRADED step (setReady (pgDMC c) 2 u)) (pgDMC c) 0x008 = BitVec.ofNat 32 2 :=
    (rd_raise (by decide) (by simp) ..).trans (rd_setReady_word (by decide) ..)
  have hstatus : rd (raise (pgDMC c) 0x100 sevDEGRADED step (setReady (pgDMC c) 2 u)) (pgDMC c) 0x080 = rd u (pgDMC c) 0x080 :=
    (rd_raise (by decide) (by simp) ..).trans (rd_setReady_ne (by decide) (by simp) ..)
  refine ⟨(rdF_congr hstatus ..).trans hst, ?_, (rdF_congr hstatus ..).trans hstep',
    rdB_raise_valid (assigned_of_pageOn hon) (Nat.le_refl _) (by decide) ..⟩
  unfold rdB
  rw [hready]; decide

/-! ### The commands -/

section
variable {c : Fin 12} {s : State}

theorem exec_trainDone {step : Nat} (hstep : step < 5) (hon : pageOn s (pgDMC c.val) = true) (hst : trainState s c.val = 1) :
    exec (.dmcTrainDone c step) s = settle s (trainEnd c.val (if trainLate c.val s then 5 else step) s) :=
  if_pos (by rw [hon, decide_eq_true hst, decide_eq_true hstep]; rfl)

theorem trainDone_pass (hon : pageOn s (pgDMC c.val) = true) (hst : trainState s c.val = 1) (hlate : trainLate c.val s = false) :
    ∃ t, exec (.dmcTrainDone c 0) s = .next t ∧ trainState t c.val = 2 ∧ rdB t (pgDMC c.val) 0x008 0 = true ∧
      rdF t (pgDMC c.val) 0x080 15 8 = 0 := by
  have hexec := exec_trainDone (step := 0) (by decide) hon hst
  rw [hlate, if_neg Bool.false_ne_true] at hexec
  have hshows := trainEnd_pass c.val s
  obtain ⟨t, ht⟩ : ∃ t, trainEnd c.val 0 s = t := ⟨_, rfl⟩
  rw [ht] at hexec hshows
  exact ⟨_, hexec.trans (settle_eq ..), hshows⟩

theorem trainDone_fail {step : Nat} (hle : step ≤ 4) (h : trainLate c.val s = true ∨ 1 ≤ step) (hon : pageOn s (pgDMC c.val) = true)
    (hst : trainState s c.val = 1) :
    ∃ t, exec (.dmcTrainDone c step) s = .next t ∧ trainState t c.val = 3 ∧ rdB t (pgDMC c.val) 0x008 0 = false ∧
      rdF t (pgDMC c.val) 0x080 15 8 = (if trainLate c.val s then 5 else step) ∧ rdB t (pgDMC c.val) 0x020 16 = true := by
  have hexec := exec_trainDone (step := step) (by omega) hon hst
  obtain ⟨n, hn⟩ : ∃ n, (if trainLate c.val s then 5 else step) = n := ⟨_, rfl⟩
  have hbounds : 1 ≤ n ∧ n < 256 := by
    rw [← hn]; split
    · decide
    · rcases h with h | h
      · exact absurd h ‹_›
      · omega
  rw [hn] at hexec ⊢
  have hshows := trainEnd_fail hbounds.1 hbounds.2 hon
  obtain ⟨t, ht⟩ : ∃ t, trainEnd c.val n s = t := ⟨_, rfl⟩
  rw [ht] at hexec hshows
  exact ⟨_, hexec.trans (settle_eq ..), hshows⟩

theorem trainTimeout_shows (hon : pageOn s (pgDMC c.val) = true) (hst : trainState s c.val = 1)
    (htime : s.dram.trainAt.get 0 c.val + 15000000 ≤ now s) :
    ∃ t, exec (.trainTimeout c) s = .next t ∧ trainState t c.val = 3 ∧ rdF t (pgDMC c.val) 0x080 15 8 = 5 := by
  have hexec : exec (.trainTimeout c) s = settle s (trainEnd c.val 5 s) :=
    if_pos (by rw [hon, decide_eq_true hst, decide_eq_true htime]; rfl)
  obtain ⟨hstate, -, hstep, -⟩ := trainEnd_fail (step := 5) (by decide) (by decide) hon
  obtain ⟨t, ht⟩ : ∃ t, trainEnd c.val 5 s = t := ⟨_, rfl⟩
  rw [ht] at hexec hstate hstep
  exact ⟨_, hexec.trans (settle_eq ..), hstate, hstep⟩

theorem startTraining_shows (c : Nat) (s : State) :
    trainState (startTraining c s) c = 1 ∧ (startTraining c s).dram.trainAt.get 0 c = now s ∧ MemStands s (startTraining c s) := by
  unfold startTraining
  have hstate : rdF (wrF (pgDMC c) 0x080 1 0 1 s) (pgDMC c) 0x080 1 0 = 1 := rdF_wrF _ _ _ _ _ _ (by decide) (by decide)
  have hmem : MemStands s (wrF (pgDMC c) 0x080 1 0 1 s) := memStands_of_mem (wr_mem ..)
  obtain ⟨u, hu⟩ : ∃ u, wrF (pgDMC c) 0x080 1 0 1 s = u := ⟨_, rfl⟩
  obtain ⟨n, hn⟩ : ∃ n, now s = n := ⟨_, rfl⟩
  rw [hu] at hstate hmem ⊢
  rw [hn]
  exact ⟨hstate, SMap.get_put_same .., hmem.trans (memStands_modDram _ u)⟩

theorem retrain_shows {q : Port} (hmay : MayWrite s q (pgDMC c.val) 0x084) (hready : ready s (pgDMC c.val) = false) (hst : trainState s c.val ≠ 1) :
    ∃ t, exec (.retrain q c) s = .next t ∧ trainState t c.val = 1 ∧ t.dram.trainAt.get 0 c.val = now s ∧ MemStands s t := by
  have hexec : exec (.retrain q c) s = settle s (startTraining c.val s) := by
    refine (exec_gate (k := effRetrain q c.val) rfl hmay).trans (congrArg (settle s) (if_neg ?_))
    rw [hready, decide_eq_false hst]; decide
  obtain ⟨hstate, hat, hmem⟩ := startTraining_shows c.val s
  obtain ⟨t, ht⟩ : ∃ t, startTraining c.val s = t := ⟨_, rfl⟩
  rw [ht] at hexec hstate hat hmem
  exact ⟨_, hexec.trans (settle_eq ..), hstate, hat, hmem⟩

theorem exec_mr4Read_again {hot : Bool} (code : Nat) (h : rdB s (pgDMC c.val) 0x080 4 = hot) : exec (.mr4Read c hot code) s = .next s := by
  show execMr4Read c hot code s = _
  unfold execMr4Read
  dsimp only
  rw [h]
  cases hot <;> simp

theorem exec_mr4Read {hot : Bool} (code : Nat) (hon : pageOn s (pgDMC c.val) = true) (hne : rdB s (pgDMC c.val) 0x080 4 ≠ hot) :
    exec (.mr4Read c hot code) s = settle s (raise (pgDMC c.val) (if hot then 0x105 else 0x106) (if hot then sevDEGRADED else sevINFO) code
      (wrB (pgDMC c.val) 0x080 4 hot s)) := by
  have hold : rdB s (pgDMC c.val) 0x080 4 = !hot := by cases hot <;> simpa using hne
  show execMr4Read c hot code s = _
  unfold execMr4Read
  dsimp only
  rw [hold, hon]
  cases hot <;> rfl

theorem mr4Read_shows {hot : Bool} {code : Nat} (hon : pageOn s (pgDMC c.val) = true) (hne : rdB s (pgDMC c.val) 0x080 4 ≠ hot) :
    ∃ t, exec (.mr4Read c hot code) s = .next t ∧ rdB t (pgDMC c.val) 0x080 4 = hot ∧
      (hot = true → rdB t (pgDMC c.val) 0x020 16 = true) ∧ RegsStandBut [pgDMC c.val] s t ∧
      ∃ u, exec (.mr4Read c hot code) t = .next u ∧ u = t := by
  have hexec := exec_mr4Read code hon hne
  have hbit : rdB (wrB (pgDMC c.val) 0x080 4 hot s) (pgDMC c.val) 0x080 4 = hot := rdB_wrB _ _ _ _ _ (by decide)
  have hregs : RegsStandBut [pgDMC c.val] s (wrB (pgDMC c.val) 0x080 4 hot s) := regsStandBut_wr (by decide) _ _ _
  obtain ⟨u, hu⟩ : ∃ u, wrB (pgDMC c.val) 0x080 4 hot s = u := ⟨_, rfl⟩
  rw [hu] at hexec hbit hregs
  obtain ⟨v, hv⟩ : ∃ v, (if hot then sevDEGRADED else sevINFO) = v := ⟨_, rfl⟩
  obtain ⟨k, hk⟩ : ∃ k, (if hot then 0x105 else 0x106 : Nat) = k := ⟨_, rfl⟩
  rw [hv, hk] at hexec
  have hvalid : hot = true → rdB (raise (pgDMC c.val) k v code u) (pgDMC c.val) 0x020 16 = true := by
    rintro rfl
    rw [← hv]
    exact rdB_raise_valid (assigned_of_pageOn hon) (Nat.le_refl _) (by decide) ..
  have hbit' : rdB (raise (pgDMC c.val) k v code u) (pgDMC c.val) 0x080 4 = hot := (rdB_congr (rd_raise (by decide) (by simp) ..) 4).trans hbit
  have hregs' := hregs.trans (regsStandBut_raise (pgDMC c.val) k v code u)
  obtain ⟨t, ht⟩ : ∃ t, raise (pgDMC c.val) k v code u = t := ⟨_, rfl⟩
  rw [ht] at hexec hvalid hbit' hregs'
  exact ⟨_, hexec.trans (settle_eq ..), hbit', hvalid, hregs', _, exec_mr4Read_again code hbit', rfl⟩

theorem selfRefreshEntry_shows (hon : pageOn s (pgDMC c.val) = true) (hus : rdF s (pgDMC c.val) 0x084 31 16 ≠ 0) (hst : trainState s c.val = 2)
    (hnot : rdB s (pgDMC c.val) 0x080 3 = false) (htime : s.dram.lastReq.get 0 c.val + rdF s (pgDMC c.val) 0x084 31 16 * 1000 ≤ now s) :
    ∃ t, exec (.selfRefreshEntry c) s = .next t ∧ rdB t (pgDMC c.val) 0x080 3 = true ∧ trainState t c.val = 2 ∧ MemStands s t := by
  have hexec : exec (.selfRefreshEntry c) s = settle s (wrB (pgDMC c.val) 0x080 3 true s) :=
    if_pos (by rw [hon, decide_eq_true hus, decide_eq_true hst, hnot, decide_eq_true htime]; rfl)
  have hbit : rdB (wrB (pgDMC c.val) 0x080 3 true s) (pgDMC c.val) 0x080 3 = true := rdB_wrB _ _ _ _ _ (by decide)
  have hstate : trainState (wrB (pgDMC c.val) 0x080 3 true s) c.val = 2 := by
    refine Eq.trans ?_ hst
    unfold trainState rdF
    rw [rd_wrB_same]
    exact fld_setFld_ne _ _ _ _ _ _ (Nat.le_refl _) (by decide) (by decide)
  have hmem : MemStands s (wrB (pgDMC c.val) 0x080 3 true s) := memStands_of_mem (wr_mem ..)
  obtain ⟨t, ht⟩ : ∃ t, wrB (pgDMC c.val) 0x080 3 true s = t := ⟨_, rfl⟩
  rw [ht] at hexec hbit hstate hmem
  exact ⟨_, hexec.trans (settle_eq ..), hbit, hstate, hmem⟩

end

/-- Settles O21. -/
theorem trainingAndRefresh : Obligations.TrainingAndRefresh :=
  ⟨⟨fun _ _ => trainDone_pass, fun _ _ _ => trainDone_fail, fun _ _ => trainTimeout_shows, fun _ _ _ => retrain_shows⟩,
    fun _ _ _ _ => mr4Read_shows, fun _ _ => selfRefreshEntry_shows⟩

end Sys2Proof.Machine
end

section
/-!
PROOFS. The ECC initialisation of a region and the initialisation of the resident store (R174, R175, R179, R180).
-/
namespace Sys2Proof.Machine

/-! ### Error marks and fills -/

/-- The mark of a word where the marks of a range were forgotten. -/
theorem markOf_dropKeys {s t : State} {hit : Nat → Bool} (h : t.marks = s.marks.dropKeys hit) (w : Nat) :
    markOf t w = if hit w then unlistedMark t.mem w else s.marks.get (unlistedMark t.mem w) w := by
  unfold markOf; rw [h, SMap.get_dropKeys]

theorem markOf_fillRange_zero {lo hi w : Nat} (hw : w < 0x1000000000) (hin : lo ≤ w ∧ w < hi) (s : State) :
    markOf (fillRange lo hi .zero s) w = .good := by
  refine (markOf_dropKeys (s := s) (hit := fun a => decide (lo ≤ a) && decide (a < hi)) rfl w).trans ?_
  rw [if_pos (by simpa using hin)]
  unfold unlistedMark
  rw [if_pos hw, fillOf_fillRange, if_pos hin]

theorem markOf_fillRange_out {lo hi w : Nat} (h : ¬(lo ≤ w ∧ w < hi)) (v : Fill) (s : State) :
    markOf (fillRange lo hi v s) w = markOf s w := by
  refine (markOf_dropKeys (s := s) (hit := fun a => decide (lo ≤ a) && decide (a < hi)) rfl w).trans ?_
  rw [if_neg (by simpa using h)]
  unfold markOf unlistedMark
  rw [fillOf_fillRange, if_neg h]

theorem markOf_zeroResident {w : Nat} (h : residentBase ≤ w) (s : State) : markOf (zeroResident s) w = .good := by
  refine (markOf_dropKeys (s := s) (hit := fun a => decide (residentBase ≤ a)) rfl w).trans ?_
  rw [if_pos (decide_eq_true h)]
  exact if_neg (by unfold residentBase at h; omega)

theorem markOf_congr_data {s t : State} (h : DataStands s t) (w : Nat) : markOf t w = markOf s w := by
  unfold markOf; rw [h.1, h.2]

/-! ### ECC initialisation -/

theorem range_filter_eq {r : Nat} (h : r < 32) : (List.range 32).filter (fun k => decide (k = r)) = [r] := by
  have hall : ∀ r : Fin 32, (List.range 32).filter (fun k => decide (k = r.val)) = [r.val] := by decide
  exact hall ⟨r, h⟩

theorem fillRegions_one {r : Nat} (hr : r < 32) (v : Fill) (s : State) :
    fillRegions (fun k => decide (k = r)) v s = fillRange (r * 2 ^ 31) ((r + 1) * 2 ^ 31) v s := by
  unfold fillRegions; rw [range_filter_eq hr]; rfl

theorem mapMembers_getD_lt (m i : Nat) : (mapMembers m).getD i 0 < 12 := by
  rw [List.getD_eq_getElem?_getD]
  cases h : (mapMembers m)[i]? with
  | none => decide
  | some c => exact (mem_mapMembers.mp (List.mem_of_getElem? h)).1

theorem zeroRegion_accounted (r : Nat) (s : State) :
    Accounted (fillRegions (fun k => decide (k = r)) .zero s) (zeroRegion r s) ∧
      DataStands (fillRegions (fun k => decide (k = r)) .zero s) (zeroRegion r s) := by
  unfold zeroRegion
  obtain ⟨u, hu⟩ : ∃ u, fillRegions (fun k => decide (k = r)) .zero s = u := ⟨_, rfl⟩
  dsimp only
  rw [hu]
  refine foldl_keeps (fun t => Accounted u t ∧ DataStands u t) _ (fun t i h => ?_) _ ⟨Accounted.refl u, rfl, rfl⟩
  exact ⟨h.1.trans (countCtl_accounted (mapMembers_getD_lt ..) ..), h.2.trans (countCtl_data ..)⟩

theorem Accounted.owed {s t : State} (h : Accounted s t) : t.dram.owed = s.dram.owed := by
  have e := congrArg (fun s : State => s.dram.owed) h.fields
  exact e

/-- What an initialisation makes of its region, of the rest and of the state beside memory. -/
theorem zeroRegion_shows {r : Nat} (hr : r < 32) (s : State) :
    (∀ a, a / 2 ^ 31 = r → getByte (zeroRegion r s) a = 0 ∧ markOf (zeroRegion r s) a = .good) ∧
      (∀ a, a / 2 ^ 31 ≠ r → getByte (zeroRegion r s) a = getByte s a ∧ markOf (zeroRegion r s) a = markOf s a) ∧
      (zeroRegion r s).dram.initRegion = s.dram.initRegion ∧ (zeroRegion r s).dram.owed = s.dram.owed ∧
      ∀ q, (zeroRegion r s).port q = s.port q := by
  obtain ⟨hacc, hdata⟩ := zeroRegion_accounted r s
  obtain ⟨t, ht⟩ : ∃ t, zeroRegion r s = t := ⟨_, rfl⟩
  rw [ht, fillRegions_one hr] at hacc hdata
  rw [ht]
  have hbyte (a : Nat) : getByte t a = getByte (fillRange (r * 2 ^ 31) ((r + 1) * 2 ^ 31) .zero s) a := getByte_of_mem hdata.1 a
  have hmark (a : Nat) := markOf_congr_data hdata a
  refine ⟨fun a ha => ?_, fun a ha => ?_, ?_, ?_, fun q => ?_⟩
  · rw [hbyte, hmark, getByte_fillRange (by omega), if_pos (by omega), markOf_fillRange_zero (by omega) (by omega)]
    exact ⟨rfl, rfl⟩
  · rw [hbyte, hmark, getByte_fillRange_out (by omega), markOf_fillRange_out (by omega)]
    exact ⟨rfl, rfl⟩
  · exact hacc.sameUse.init
  · exact hacc.owed
  · exact hacc.field (fun s => s.port q)

theorem nextOwed_none {s : State} (h : s.dram.owed = []) : nextOwed s = s ∨ nextOwed s = wrB (pgDMC 0) 0x100 8 false s := by
  unfold nextOwed
  split
  · exact .inl rfl
  · rw [h]; exact .inr rfl

theorem nextOwed_reports {s : State} (h : s.dram.owed = []) : ReportsOnly s (nextOwed s) := by
  rcases nextOwed_none h with e | e <;> rw [e]
  · exact rfl
  · exact wrB_reports ..

theorem rd_nextOwed_none {s : State} (h : s.dram.owed = []) {p off : Nat} (ho : off < 0x1000) (hne : ¬(p = pgDMC 0 ∧ off = 0x100)) :
    rd (nextOwed s) p off = rd s p off := by
  rcases nextOwed_none h with e | e <;> rw [e]
  exact rd_wrB_other (by decide) ho hne ..

/-- The state before an initialisation's end is told: the region is zeroed and reads with the ECC state asked for. -/
def eccZeroed (r : Nat) (s : State) : State :=
  wrN (pgDMC 0) 0x110 (r * 2 ^ 8 + 2048 * 2 ^ 16) (wrB (pgDMC 0) 0x108 r s.dram.initOn
    (zeroRegion r (modDram (fun d => { d with initRegion := none, owed := d.owed.filter (· ≠ r) }) s)))

theorem exec_eccInitDone {r : Nat} {s : State} (h : s.dram.initRegion = some r) (hon : domOn s 2 = true) :
    exec .eccInitDone s = settle s (serveApertures (nextOwed (raise (pgDMC 0) 0x107 sevINFO (r + 32 * b2n s.dram.initOn) (eccZeroed r s)))) := by
  show execEccInitDone s = _
  unfold execEccInitDone
  rw [h]
  dsimp only
  rw [hon]
  rfl

theorem eccZeroed_shows {r : Nat} (hr : r < 32) {s : State} (howed : s.dram.owed = []) :
    (∀ a, a / 2 ^ 31 = r → getByte (eccZeroed r s) a = 0 ∧ markOf (eccZeroed r s) a = .good) ∧
      (∀ a, a / 2 ^ 31 ≠ r → getByte (eccZeroed r s) a = getByte s a ∧ markOf (eccZeroed r s) a = markOf s a) ∧
      (eccZeroed r s).dram.initRegion = none ∧ (eccZeroed r s).dram.owed = [] ∧ (∀ q, (eccZeroed r s).port q = s.port q) ∧
      rdB (eccZeroed r s) (pgDMC 0) 0x108 r = s.dram.initOn ∧ (s.Canonical → (eccZeroed r s).Canonical) := by
  unfold eccZeroed
  obtain ⟨u, hu⟩ : ∃ u, modDram (fun d => { d with initRegion := none, owed := d.owed.filter (· ≠ r) }) s = u := ⟨_, rfl⟩
  have hbase : MemStands s u ∧ (∀ w, markOf u w = markOf s w) ∧ u.dram.initRegion = none ∧ u.dram.owed = [] ∧ u.port = s.port ∧
      (s.Canonical → u.Canonical) := by
    subst u
    exact ⟨fun _ => rfl, fun _ => rfl, rfl, (congrArg (List.filter _) howed).trans rfl, rfl, canonical_of rfl rfl⟩
  obtain ⟨hmem, hmarks, hinit, hnone, hport, hcan⟩ := hbase
  obtain ⟨hin, hout, hinit', howed', hport'⟩ := zeroRegion_shows hr u
  have hcan' : s.Canonical → (zeroRegion r u).Canonical := fun c => zeroRegion_canonical r (hcan c)
  rw [hu]
  obtain ⟨v, hv⟩ : ∃ v, zeroRegion r u = v := ⟨_, rfl⟩
  simp only [hv] at hin hout hinit' howed' hport' hcan'
  rw [hv]
  have hrep := (wrB_reports (pgDMC 0) 0x108 r s.dram.initOn v).trans (wrN_reports (pgDMC 0) 0x110 (r * 2 ^ 8 + 2048 * 2 ^ 16) _)
  have hbit : rdB (wrN (pgDMC 0) 0x110 (r * 2 ^ 8 + 2048 * 2 ^ 16) (wrB (pgDMC 0) 0x108 r s.dram.initOn v)) (pgDMC 0) 0x108 r = s.dram.initOn :=
    (rdB_congr (rd_wrN_other (by decide) (by decide) (by decide) ..) _).trans (rdB_wrB _ _ _ _ _ hr)
  obtain ⟨t, ht⟩ : ∃ t, wrN (pgDMC 0) 0x110 (r * 2 ^ 8 + 2048 * 2 ^ 16) (wrB (pgDMC 0) 0x108 r s.dram.initOn v) = t := ⟨_, rfl⟩
  rw [ht] at hrep hbit ⊢
  have hbyte (a : Nat) : getByte t a = getByte v a := hrep.field (getByte · a)
  have hmark (a : Nat) : markOf t a = markOf v a := hrep.field (markOf · a)
  refine ⟨fun a ha => ?_, fun a ha => ?_, (hrep.field (·.dram.initRegion)).trans (hinit'.trans hinit),
    (hrep.field (·.dram.owed)).trans (howed'.trans hnone), fun q => (hrep.field (·.port q)).trans ((hport' q).trans ?_), hbit,
    fun c => canonical_of (hrep.field State.mem) (hrep.field State.marks) (hcan' c)⟩
  · rw [hbyte, hmark]; exact hin a ha
  · rw [hbyte, hmark, (hout a ha).1, (hout a ha).2]; exact ⟨hmem a, hmarks a⟩
  · unfold State.port at hport ⊢; exact congrFun hport q

theorem eccInitDone_shows {r : Nat} {s : State} (hr : r < 32) (hinit : s.dram.initRegion = some r) (hon : domOn s 2 = true)
    (howed : s.dram.owed = []) (ha : NoneHeld s .a) (hb : NoneHeld s .b) :
    ∃ t, exec .eccInitDone s = .next t ∧ t.dram.initRegion = none ∧ rdB t (pgDMC 0) 0x108 r = s.dram.initOn ∧
      (∀ a, a / 2 ^ 31 = r → getByte t a = 0 ∧ markOf t a = .good) ∧
      (∀ a, a / 2 ^ 31 ≠ r → getByte t a = getByte s a ∧ markOf t a = markOf s a) ∧ (s.Canonical → t.Canonical) := by
  have hexec := exec_eccInitDone hinit hon
  obtain ⟨hin, hout, hnone, howed', hport, hbit, hcan⟩ := eccZeroed_shows hr howed
  obtain ⟨u, hu⟩ : ∃ u, eccZeroed r s = u := ⟨_, rfl⟩
  simp only [hu] at hexec hin hout hnone howed' hport hbit hcan
  have hrep : ReportsOnly u (nextOwed (raise (pgDMC 0) 0x107 sevINFO (r + 32 * b2n s.dram.initOn) u)) :=
    (raise_reports ..).trans (nextOwed_reports ((congrArg (·.owed) (raise_dram ..)).trans howed'))
  have hbit' : rdB (nextOwed (raise (pgDMC 0) 0x107 sevINFO (r + 32 * b2n s.dram.initOn) u)) (pgDMC 0) 0x108 r = s.dram.initOn :=
    (rdB_congr ((rd_nextOwed_none ((congrArg (·.owed) (raise_dram ..)).trans howed') (by decide) (by decide)).trans
      (rd_raise (by decide) (by decide) ..)) _).trans hbit
  obtain ⟨t, ht⟩ : ∃ t, nextOwed (raise (pgDMC 0) 0x107 sevINFO (r + 32 * b2n s.dram.initOn) u) = t := ⟨_, rfl⟩
  rw [ht] at hexec hrep hbit'
  have hheld (q : Port) (h : NoneHeld s q) : NoneHeld t q := by
    unfold NoneHeld; rw [hrep.field (·.port q), hport]; exact h
  have hserve : serveApertures t = t := by
    unfold serveApertures; rw [serveHeld_none (hheld .a ha), serveHeld_none (hheld .b hb)]
  rw [hserve] at hexec
  have hbyte (a : Nat) : getByte t a = getByte u a := hrep.field (getByte · a)
  have hmark (a : Nat) : markOf t a = markOf u a := hrep.field (markOf · a)
  refine ⟨_, hexec.trans (settle_eq ..), (hrep.field (·.dram.initRegion)).trans hnone, hbit', fun a h => ?_, fun a h => ?_,
    fun c => canonical_of (hrep.field State.mem) (hrep.field State.marks) (hcan c)⟩
  · exact ⟨(hbyte a).trans (hin a h).1, (hmark a).trans (hin a h).2⟩
  · exact ⟨(hbyte a).trans (hout a h).1, (hmark a).trans (hout a h).2⟩

theorem startInit_shows (r : Nat) (on : Bool) (s : State) :
    (startInit r on s).dram.initRegion = some r ∧ (startInit r on s).dram.initOn = on ∧ MemStands s (startInit r on s) := by
  unfold startInit
  obtain ⟨n, hn⟩ : ∃ n, now s = n := ⟨_, rfl⟩
  obtain ⟨v, hv⟩ : ∃ v, 1 + r * 2 ^ 8 = v := ⟨_, rfl⟩
  rw [hn, hv]
  refine ⟨?_, ?_, (memStands_modDram _ s).trans (memStands_of_mem (wr_mem ..))⟩
  · rw [wrN, wr_dram]; rfl
  · rw [wrN, wr_dram]; rfl

theorem memUsable_of_busy {s : State} {r a : Nat} (h : s.dram.initRegion = some r) (ha : a / 2 ^ 31 = r) (hr : r < 32) : memUsable s a 1 = false := by
  have hbusy : regionBusy s a = true := decide_eq_true (by rw [h, ha])
  have hspace : spaceOf s a = .unmapped ∨ spaceOf s a = .dram := by
    unfold spaceOf
    rw [if_pos (by omega)]
    split
    · exact .inl rfl
    · exact .inr rfl
  unfold memUsable
  rcases hspace with e | e <;> rw [e]
  rw [hbusy]; simp

theorem eccInit_shows {q : Port} {r : Fin 32} {s : State} (hmay : MayWrite s q (pgDMC 0) 0x10C) (hnone : s.dram.initRegion = none)
    (hready : dramReady s = true) :
    ∃ t, exec (.dmcEccInit q r) s = .next t ∧ t.dram.initRegion = some r.val ∧ t.dram.initOn = rdB s (pgDMC 0) 0x104 r.val ∧ MemStands s t ∧
      ∀ a, a / 2 ^ 31 = r.val → memUsable t a 1 = false := by
  have hexec : exec (.dmcEccInit q r) s = settle s (startInit r.val (rdB s (pgDMC 0) 0x104 r.val) s) :=
    (exec_gate (k := effEccInit q r.val) rfl hmay).trans (congrArg (settle s) (if_neg (by rw [hnone, hready]; decide)))
  obtain ⟨hinit, hon, hmem⟩ := startInit_shows r.val (rdB s (pgDMC 0) 0x104 r.val) s
  obtain ⟨t, ht⟩ : ∃ t, startInit r.val (rdB s (pgDMC 0) 0x104 r.val) s = t := ⟨_, rfl⟩
  rw [ht] at hexec hinit hon hmem
  exact ⟨_, hexec.trans (settle_eq ..), hinit, hon, hmem, fun a ha => memUsable_of_busy hinit ha r.isLt⟩

/-! ### The resident store's initialisation -/

/-- The banks that fail, of the 48 (R180). -/
def failedBanks (bist : Bool) (bistFail repairFail : List Nat) : List Nat :=
  (List.range 48).filter (fun b => (bist && bistFail.contains b) || repairFail.contains b)

/-- The resident store zeroed and its bad banks marked. -/
def residentReset (bistFail repairFail : List Nat) (s : State) : State :=
  let bist := rdB s pgMGT 0x08C 0
  (failedBanks bist bistFail repairFail).foldl (fun (a : State) (b : Nat) => markBank b (bist && bistFail.contains b) (repairFail.contains b) a)
    (wrN pgRES 0x080 (1 + 2 * b2n bist) (zeroResident s))

theorem exec_resInitDone {bistFail repairFail : List Nat} {s : State} (hon : pageOn s pgRES = true) (hnot : rdB s pgRES 0x080 0 = false) :
    ∃ v < 4, exec (.resInitDone bistFail repairFail) s =
      settle s (serveApertures (setReady pgFLG 1 (setReady pgRES (1 + 2 * v) (residentReset bistFail repairFail s)))) := by
  refine ⟨b2n (!(failedBanks (rdB s pgMGT 0x08C 0) bistFail repairFail).isEmpty), by unfold b2n; split <;> decide, ?_⟩
  show execResInitDone bistFail repairFail s = _
  unfold execResInitDone
  rw [if_neg (by rw [hon, hnot]; decide)]
  unfold residentReset failedBanks
  dsimp only

/-- The bit of a bank in the bad banks' pair of words. -/
theorem bitOf_rd64 (s : State) (p off b : Nat) :
    bitOf (rd64 s p off) b = if b < 32 then rdB s p off b else rdB s p (off + 4) (b - 32) := by
  unfold bitOf rd64 rdB flag bitOf
  rw [Nat.mul_comm, Nat.add_comm, Nat.testBit_two_pow_mul_add _ (BitVec.isLt _)]

theorem rdB_wrB_bit (p off : Nat) {i j : Nat} (hi : i < 32) (s : State) :
    rdB (wrB p off i true s) p off j = (decide (j = i) || rdB s p off j) := by
  by_cases h : j = i
  · subst h; rw [rdB_wrB _ _ _ _ _ hi, decide_eq_true rfl]; rfl
  · rw [decide_eq_false h]
    exact rdB_wrB_ne _ _ _ _ _ _ hi h

theorem markBank_bits {b : Nat} (hb : b < 48) (x y : Bool) (s : State) {k : Nat} (hk : k < 48) :
    bitOf (rd64 (markBank b x y s) pgRES 0x084) k = (decide (k = b) || bitOf (rd64 s pgRES 0x084) k) := by
  rw [bitOf_rd64, bitOf_rd64]
  unfold markBank
  dsimp only
  rw [rdB_congr (rd_raise (by decide) (by decide) ..), rdB_congr (rd_raise (by decide) (by decide) ..)]
  by_cases h : b < 32
  · rw [if_pos h]
    split
    · exact rdB_wrB_bit _ _ h _
    · rw [rdB_congr (rd_wrB_other (by decide) (by decide) (by decide) ..), decide_eq_false (by omega)]; rfl
  · rw [if_neg h]
    split
    · rw [rdB_congr (rd_wrB_other (by decide) (by decide) (by decide) ..), decide_eq_false (by omega)]; rfl
    · refine (rdB_wrB_bit _ _ (by omega) _).trans ?_
      congr 1
      exact decide_eq_decide.mpr (by omega)

theorem markBank_reports (b : Nat) (x y : Bool) (s : State) : ReportsOnly s (markBank b x y s) := by
  unfold markBank
  dsimp only
  split
  · exact (wrB_reports ..).trans (raise_reports ..)
  · exact (wrB_reports ..).trans (raise_reports ..)

theorem markBanks_bits {k : Nat} (hk : k < 48) (x y : Nat → Bool) (l : List Nat) (s : State) (h : ∀ b ∈ l, b < 48) :
    bitOf (rd64 (l.foldl (fun (a : State) (b : Nat) => markBank b (x b) (y b) a) s) pgRES 0x084) k =
      (l.contains k || bitOf (rd64 s pgRES 0x084) k) := by
  induction l generalizing s with
  | nil => rw [List.foldl_nil, List.contains_nil, Bool.false_or]
  | cons b l ih =>
    have hbits := markBank_bits (h b List.mem_cons_self) (x b) (y b) s hk
    obtain ⟨u, hu⟩ : ∃ u, markBank b (x b) (y b) s = u := ⟨_, rfl⟩
    rw [hu] at hbits
    rw [List.foldl_cons, hu, ih u fun c hc => h c (List.mem_cons_of_mem _ hc), hbits, List.contains_cons, show (k == b) = decide (k = b) from rfl, ← Bool.or_assoc,
      Bool.or_comm (decide (k = b))]

theorem failedBanks_lt {bist : Bool} {l m : List Nat} : ∀ b ∈ failedBanks bist l m, b < 48 :=
  fun _ hb => List.mem_range.mp (List.mem_filter.mp hb).1

theorem failedBanks_contains {b : Nat} (h : b < 48) (bist : Bool) (l m : List Nat) :
    (failedBanks bist l m).contains b = ((bist && l.contains b) || m.contains b) := by
  rw [Bool.eq_iff_iff, List.contains_iff_mem]
  unfold failedBanks
  rw [List.mem_filter, List.mem_range]
  exact ⟨fun e => e.2, fun e => ⟨h, e⟩⟩

theorem residentReset_shows (bistFail repairFail : List Nat) (s : State) :
    ReportsOnly (zeroResident s) (residentReset bistFail repairFail s) ∧ ∀ b, b < 48 →
      bitOf (rd64 (residentReset bistFail repairFail s) pgRES 0x084) b =
        (bitOf (rd64 s pgRES 0x084) b || (rdB s pgMGT 0x08C 0 && bistFail.contains b) || repairFail.contains b) := by
  unfold residentReset
  obtain ⟨n, hn⟩ : ∃ n, rdB s pgMGT 0x08C 0 = n := ⟨_, rfl⟩
  obtain ⟨v, hv⟩ : ∃ v, 1 + 2 * b2n n = v := ⟨_, rfl⟩
  dsimp only
  rw [hn, hv]
  constructor
  · exact foldl_keeps (ReportsOnly (zeroResident s)) _ (fun _ _ h => h.trans (markBank_reports ..)) _ (wrN_reports ..)
  · intro b hb
    rw [markBanks_bits hb (fun b => n && bistFail.contains b) (fun b => repairFail.contains b) _ _ failedBanks_lt, failedBanks_contains hb]
    have hword {off : Nat} (ho : off < 0x1000) (hne : off ≠ 0x080) : rd (wrN pgRES 0x080 v (zeroResident s)) pgRES off = rd s pgRES off :=
      (rd_wrN_other (by decide) ho (fun h => hne h.2) ..).trans rfl
    rw [rd64_congr (hword (by decide) (by decide)) (hword (by decide) (by decide)), Bool.or_comm, Bool.or_assoc]

theorem ready_of_word {s : State} {p v : Nat} (hon : pageOn s p = true) (hv : v < 4) (h : rd s p 0x008 = BitVec.ofNat 32 (1 + 2 * v)) :
    ready s p = true := by
  unfold ready rdB
  rw [hon, h]
  obtain rfl | rfl | rfl | rfl : v = 0 ∨ v = 1 ∨ v = 2 ∨ v = 3 := by omega
  all_goals rfl

/-- Both pages ready, after the banks are marked. -/
theorem residentReady_shows {v : Nat} (hv : v < 4) {s : State} (hon : pageOn s pgRES = true) :
    ReportsOnly s (setReady pgFLG 1 (setReady pgRES (1 + 2 * v) s)) ∧
      ready (setReady pgFLG 1 (setReady pgRES (1 + 2 * v) s)) pgRES = true ∧
      rdB (setReady pgFLG 1 (setReady pgRES (1 + 2 * v) s)) pgFLG 0x008 0 = true ∧
      rd64 (setReady pgFLG 1 (setReady pgRES (1 + 2 * v) s)) pgRES 0x084 = rd64 s pgRES 0x084 := by
  have hrep := setReady_reports pgRES (1 + 2 * v) s
  have hword := rd_setReady_word (v := 1 + 2 * v) (by omega) pgRES s
  have hpow : rd (setReady pgRES (1 + 2 * v) s) pgPWR 0x080 = rd s pgPWR 0x080 := rd_setReady_ne (by decide) (by decide) ..
  have hbanks : rd64 (setReady pgRES (1 + 2 * v) s) pgRES 0x084 = rd64 s pgRES 0x084 :=
    rd64_congr (rd_setReady_ne (by decide) (by decide) ..) (rd_setReady_ne (by decide) (by decide) ..)
  obtain ⟨u, hu⟩ : ∃ u, setReady pgRES (1 + 2 * v) s = u := ⟨_, rfl⟩
  rw [hu] at hrep hword hpow hbanks ⊢
  have hrep' := setReady_reports pgFLG 1 u
  have hflg := rd_setReady_word (v := 1) (by decide) pgFLG u
  have hword' : rd (setReady pgFLG 1 u) pgRES 0x008 = rd u pgRES 0x008 := rd_setReady_ne (by decide) (by decide) ..
  have hpow' : rd (setReady pgFLG 1 u) pgPWR 0x080 = rd u pgPWR 0x080 := rd_setReady_ne (by decide) (by decide) ..
  have hbanks' : rd64 (setReady pgFLG 1 u) pgRES 0x084 = rd64 u pgRES 0x084 :=
    rd64_congr (rd_setReady_ne (by decide) (by decide) ..) (rd_setReady_ne (by decide) (by decide) ..)
  obtain ⟨t, ht⟩ : ∃ t, setReady pgFLG 1 u = t := ⟨_, rfl⟩
  rw [ht] at hrep' hflg hword' hpow' hbanks' ⊢
  refine ⟨hrep.trans hrep', ready_of_word ?_ hv (hword'.trans hword), ?_, hbanks'.trans hbanks⟩
  · rw [pageOn_congr ((hrep.trans hrep').field State.pd0) (hpow'.trans hpow)]; exact hon
  · unfold rdB; rw [hflg]; rfl

theorem resInitDone_shows {bistFail repairFail : List Nat} {s : State} (hon : pageOn s pgRES = true) (hnot : rdB s pgRES 0x080 0 = false)
    (ha : NoneHeld s .a) (hb : NoneHeld s .b) :
    ∃ t, exec (.resInitDone bistFail repairFail) s = .next t ∧ (∀ a, residentBase ≤ a → getByte t a = 0 ∧ markOf t a = .good) ∧
      (∀ a, a < residentBase → getByte t a = getByte s a) ∧ ready t pgRES = true ∧ rdB t pgFLG 0x008 0 = true ∧
      (∀ b, b < 48 → bitOf (rd64 t pgRES 0x084) b =
        (bitOf (rd64 s pgRES 0x084) b || (rdB s pgMGT 0x08C 0 && bistFail.contains b) || repairFail.contains b)) := by
  obtain ⟨v, hv, hexec⟩ := exec_resInitDone (bistFail := bistFail) (repairFail := repairFail) hon hnot
  obtain ⟨hrep, hbits⟩ := residentReset_shows bistFail repairFail s
  have hpow : rd (residentReset bistFail repairFail s) pgPWR 0x080 = rd s pgPWR 0x080 := by
    refine foldl_keeps (fun t => rd t pgPWR 0x080 = rd s pgPWR 0x080) _ (fun t b h => Eq.trans ?_ h) _ ?_
    · unfold markBank
      dsimp only
      refine (rd_raise (by decide) (by decide) ..).trans ?_
      split
      · exact rd_wrB_other (by decide) (by decide) (by decide) ..
      · exact rd_wrB_other (by decide) (by decide) (by decide) ..
    · exact (rd_wrN_other (by decide) (by decide) (by decide) ..).trans rfl
  obtain ⟨u, hu⟩ : ∃ u, residentReset bistFail repairFail s = u := ⟨_, rfl⟩
  simp only [hu] at hexec hrep hbits hpow
  have honu : pageOn u pgRES = true := by
    rw [pageOn_congr ((hrep.field State.pd0).trans rfl) hpow]; exact hon
  obtain ⟨hrep', hready, hflg, hbanks⟩ := residentReady_shows hv honu
  obtain ⟨t, ht⟩ : ∃ t, setReady pgFLG 1 (setReady pgRES (1 + 2 * v) u) = t := ⟨_, rfl⟩
  rw [ht] at hexec hrep' hready hflg hbanks
  have hall := hrep.trans hrep'
  obtain ⟨z, hz⟩ : ∃ z, zeroResident s = z := ⟨_, rfl⟩
  have hzbyte (a : Nat) : getByte z a = if residentBase ≤ a then 0 else getByte s a := by rw [← hz]; exact getByte_zeroResident a s
  have hzmark {a : Nat} (h : residentBase ≤ a) : markOf z a = .good := by rw [← hz]; exact markOf_zeroResident h s
  have hzport (q : Port) : z.port q = s.port q := by rw [← hz]; rfl
  rw [hz] at hall
  have hheld (q : Port) (h : NoneHeld s q) : NoneHeld t q := by
    unfold NoneHeld; rw [hall.field (·.port q), hzport]; exact h
  have hserve : serveApertures t = t := by
    unfold serveApertures; rw [serveHeld_none (hheld .a ha), serveHeld_none (hheld .b hb)]
  rw [hserve] at hexec
  have hbyte (a : Nat) : getByte t a = getByte z a := hall.field (getByte · a)
  have hmark (a : Nat) : markOf t a = markOf z a := hall.field (markOf · a)
  refine ⟨_, hexec.trans (settle_eq ..), fun a h => ⟨?_, (hmark a).trans (hzmark h)⟩, fun a h => ?_, hready, hflg, fun b hb => ?_⟩
  · exact (hbyte a).trans ((hzbyte a).trans (if_pos h))
  · exact (hbyte a).trans ((hzbyte a).trans (if_neg (by omega)))
  · rw [← hbits b hb, ← hbanks]; rfl

/-- Settles O22. -/
theorem eccInitAndResidentStore : Obligations.EccInitAndResidentStore :=
  ⟨⟨fun _ _ _ => eccInit_shows, fun _ _ => eccInitDone_shows⟩, fun _ _ _ => resInitDone_shows⟩

end Sys2Proof.Machine
end

section
/-!
PROOFS. The regulator's interval (R190) where the state says that the instant is already open.
-/
namespace Sys2Proof.Machine

/-- `MREG_STATUS` and its companions are registers: nothing else changes. -/
theorem regulStatus_reports (s : State) : ReportsOnly s (regulStatus s) := by
  unfold regulStatus
  exact foldl_keeps (ReportsOnly s) _ (fun _ _ h => h.trans (wrN_reports ..)) _ ((wrN_reports ..).trans (wrN_reports ..))

/-- Where the regulator's state says that this instant is already open, a new interval keeps what was admitted before the instant. -/
theorem regulNow_admitted0 {s : State} (h : s.regul.instant = s.tb.count) : (regulNow s).admitted0 = s.regul.admitted0 := by
  have hinterval : (regulInterval s).instant = s.regul.instant ∧ (regulInterval s).admitted0 = s.regul.admitted0 := by
    unfold regulInterval; dsimp only; split <;> exact ⟨rfl, rfl⟩
  unfold regulNow
  dsimp only
  rw [if_pos (hinterval.1.trans h)]
  exact hinterval.2

theorem regulatorInterval_admitted {s t : State} (hon : pageOn s pgMREG = true) (hlate : s.regul.start + 1000 ≤ now s) (ha : NoneHeld s .a)
    (hb : NoneHeld s .b) (hinstant : s.regul.instant = s.tb.count) (ht : exec .regulatorInterval s = .next t) (c : Nat) :
    admittedBy t c = s.regul.admitted0.get 0 c := by
  have hcond : ¬(!pageOn s pgMREG || decide (now s / 1000 ≤ s.regul.start / 1000)) = true := by
    rw [hon, decide_eq_false (by omega)]; decide
  have hexec : exec .regulatorInterval s = settle s (serveApertures (regulStatus (openInstant s))) := if_neg hcond
  obtain ⟨hregul, htb⟩ := openInstant_regul s
  have hport (q : Port) : (openInstant s).port q = s.port q := (openInstant_accounted s).field (·.port q)
  obtain ⟨u, hu⟩ : ∃ u, openInstant s = u := ⟨_, rfl⟩
  rw [hu] at hexec hregul htb
  simp only [hu] at hport
  have hrep := regulStatus_reports u
  obtain ⟨v, hv⟩ : ∃ v, regulStatus u = v := ⟨_, rfl⟩
  rw [hv] at hexec hrep
  have hheld (q : Port) (h : NoneHeld s q) : NoneHeld v q := by
    unfold NoneHeld; rw [hrep.field (·.port q), hport]; exact h
  have hserve : serveApertures v = v := by
    unfold serveApertures; rw [serveHeld_none (hheld .a ha), serveHeld_none (hheld .b hb)]
  rw [hserve] at hexec
  have hvregul : v.regul = regulNow s := (hrep.field State.regul).trans hregul
  have hvtb : v.tb = s.tb := (hrep.field State.tb).trans htb
  have hcurrent : regulNow v = v.regul := by
    refine regulNow_of_current ?_ ?_
    · have hnow : now v = now s := by unfold now; rw [hvtb]
      rw [hnow, hvregul]; exact regulNow_start s
    · rw [hvregul, hvtb]; exact regulNow_instant s
  have hadmitted : admittedBy v c = s.regul.admitted0.get 0 c := by
    unfold admittedBy; rw [hcurrent, hvregul, regulNow_admitted0 hinstant]
  have heq := Host.Outcome.next.inj (ht.symm.trans (hexec.trans (settle_eq ..)))
  subst heq
  exact hadmitted

/-- PD0 and PD2 are on, the first microsecond has passed, and the regulator holds a byte of class 0 admitted before this instant,
which it says is already open. -/
def openedInstant : State :=
  { State.reset with
    pd0 := true, regs := [(pgPWR * 0x1000 + 0x080, 4)], tb := { State.reset.tb with count := 1000 * 2 ^ 32 }
    regul := { State.reset.regul with instant := 1000 * 2 ^ 32, admitted0 := [(0, 1)] } }

/-- Refutes O23: the obligation's interval starts a class without a cap at 0 in every state, but in `openedInstant` the regulator's
state says that the instant is already open, so the interval keeps the byte admitted before it. -/
theorem not_regulatorAdmitsWithinLimits : ¬ Obligations.RegulatorAdmitsWithinLimits := by
  rintro ⟨⟨-, hinterval, -⟩, -⟩
  have hon : pageOn openedInstant pgMREG = true := by decide
  obtain ⟨t, hexec, -, -, -, hadmitted⟩ := hinterval openedInstant hon (by decide) rfl rfl
  have hzero := hadmitted 0 (by decide) (by decide)
  rw [regulatorInterval_admitted hon (by decide) rfl rfl rfl hexec 0] at hzero
  exact absurd hzero (by decide)

end Sys2Proof.Machine
end

section
/-!
PROOFS. Flags: one flag set or cleared (R182, R183), the units released by it, range clears and group reads (R206).
-/
namespace Sys2Proof.Machine

/-! ### The bit of a flag -/

theorem testBit_putBit {b : Byte} {i j : Nat} (hi : i < 8) (hj : j < 8) (v : Bool) :
    (BitVec.ofNat 8 (putBits b.toNat i i (b2n v))).toNat.testBit j = if j = i then v else b.toNat.testBit j := by
  rw [BitVec.toNat_ofNat, Nat.testBit_mod_two_pow, decide_eq_true hj, Bool.true_and, testBit_putBits _ _ _ _ _ (by omega)]
  by_cases h : j = i
  · subst h
    rw [if_pos ⟨(Nat.le_refl _), (Nat.le_refl _)⟩, if_pos rfl, Nat.sub_self]
    cases v <;> rfl
  · rw [if_neg (by omega), if_neg h]

/-- One flag put in its byte; every other flag stands. -/
theorem flagValue_setByte (f g : Nat) (v : Bool) (s : State) :
    flagValue (setByte (flagBase + f / 8) (BitVec.ofNat 8 (putBits (getByte s (flagBase + f / 8)).toNat (f % 8) (f % 8) (b2n v))) s) g =
      if g = f then v else flagValue s g := by
  unfold flagValue
  rw [getByte_setByte]
  by_cases hbyte : g / 8 = f / 8
  · rw [if_pos (by rw [hbyte]), testBit_putBit (Nat.mod_lt _ (by decide)) (Nat.mod_lt _ (by decide)), hbyte]
    by_cases hbit : g % 8 = f % 8
    · rw [if_pos hbit, if_pos (by omega)]
    · rw [if_neg hbit, if_neg (by intro h; exact hbit (by rw [h]))]
  · rw [if_neg (by omega), if_neg (by intro h; exact hbyte (by rw [h]))]

theorem flagValue_memStands {s t : State} (h : MemStands s t) (f : Nat) : flagValue t f = flagValue s f := by
  unfold flagValue; rw [h]

theorem setByte_stores (a : Nat) (b : Byte) (s : State) : Stores s (setByte a b s) := setEnabled_stores a [some b] s

theorem writeFlag_good {f : Nat} {s : State} (v : Bool) (hbank : bankBad s (groupAddr (f / 64)) = false)
    (hmark : markOf s (groupAddr (f / 64)) = .good) :
    (writeFlag f v s).1 = true ∧ Stores s (writeFlag f v s).2 ∧ ∀ g, flagValue (writeFlag f v s).2 g = if g = f then v else flagValue s g := by
  obtain ⟨hone, hstores, hmem⟩ := prepWord_good (c := [some 0]) hmark hbank
  unfold writeFlag
  dsimp only
  rw [if_pos hone]
  obtain ⟨u, hu⟩ : ∃ u, (prepWord (groupAddr (f / 64)) [some 0] s).2 = u := ⟨_, rfl⟩
  rw [hu] at hstores hmem ⊢
  refine ⟨rfl, hstores.trans (setByte_stores ..), fun g => ?_⟩
  rw [flagValue_setByte, flagValue_memStands hmem]

/-! ### Release of the units that wait -/

theorem get_map {α : Type} {d : α} {g : α → α} (hg : g d = d) (k : Nat) : ∀ m : SMap α,
    SMap.get d k (m.map fun e => (e.1, g e.2)) = g (m.get d k)
  | [] => hg.symm
  | (j, v) :: m => by
    rw [List.map_cons, SMap.get, SMap.get]
    split
    · rfl
    · exact get_map hg k m

/-- A unit as the change of flag `f` to `v` leaves it. -/
def wakeFor (f : Nat) (v : Bool) (x : StreamUnit) : StreamUnit := if x.waitFlag = some (f, v) then { x with released := true } else x

theorem unitOf_releaseFlag {f : Nat} {s : State} (h : flagPoisoned s f = false) (u : Nat) :
    unitOf (releaseFlag f s) u = wakeFor f (flagValue s f) (unitOf s u) := by
  unfold releaseFlag
  rw [if_neg (by rw [h]; decide)]
  refine Eq.trans (congrArg (SMap.get StreamUnit.fresh u) (List.map_congr_left fun e _ => ?_))
    (get_map (d := StreamUnit.fresh) (g := wakeFor f (flagValue s f)) rfl u s.strm)
  unfold wakeFor
  split
  · rename_i g v hw
    by_cases hgv : g = f ∧ v = flagValue s f
    · rw [if_pos hgv, if_pos (by rw [hw, hgv.1, hgv.2])]
    · rw [if_neg hgv, if_neg (by rw [hw]; simpa [Prod.ext_iff] using hgv)]
  · rename_i hw
    rw [if_neg (by rw [hw]; simp)]

theorem unitOf_releaseFlag_poisoned {f : Nat} {s : State} (h : flagPoisoned s f = true) (u : Nat) : unitOf (releaseFlag f s) u = unitOf s u := by
  unfold releaseFlag; rw [if_pos h]

/-- A release changes nothing but what the units remember. -/
theorem releaseFlag_eq (f : Nat) (s : State) : releaseFlag f s = { s with strm := (releaseFlag f s).strm } := by
  unfold releaseFlag; split <;> rfl

theorem releaseFlag_mem (f : Nat) (s : State) : MemStands s (releaseFlag f s) := fun a => by rw [releaseFlag_eq]; rfl

/-- A unit that waits for the flag's other value is not released. -/
theorem released_releaseFlag {f u : Nat} {s : State} {v : Bool} (hwait : (unitOf s u).waitFlag = some (f, v)) (hv : flagValue s f ≠ v) :
    unitOf (releaseFlag f s) u = unitOf s u := by
  cases h : flagPoisoned s f with
  | true => exact unitOf_releaseFlag_poisoned h u
  | false =>
    rw [unitOf_releaseFlag h]
    refine if_neg fun e => hv ?_
    rw [hwait] at e
    exact (congrArg Prod.snd (Option.some.inj e)).symm

/-! ### A host sets or clears a flag -/

section
variable {q : Port} {f : Nat} {v : Bool} {s : State}

theorem exec_flgOp (same : List (Nat × Bool)) (hf : f < 2 ^ 19) (hmay : MayWrite s q pgFLG (if v then 0x080 else 0x084)) :
    exec (if v then .flgSet q f same else .flgClr q f same) s = settle s (flagOps f v same s).2 := by
  have heff : effFlg f v same s = (flagOps f v same s).2 := by unfold effFlg; rw [Nat.mod_eq_of_lt hf]
  rw [← heff]
  cases v
  · exact exec_gate (k := effFlg f false same) rfl hmay
  · exact exec_gate (k := effFlg f true same) rfl hmay

theorem flagOps_alone : (flagOps f v [] s).2 = releaseFlag f (writeFlag f v s).2 := by
  cases v <;> simp [flagOps, writeFlags]

/-- Cleared and then set in one instant, whichever of the two the command is. -/
theorem flagOps_both : (flagOps f v [(f, !v)] s).2 = releaseFlag f (releaseFlag f (writeFlag f true (writeFlag f false s).2).2) := by
  cases v <;> simp [flagOps, writeFlags]

theorem flagOp_shows (hf : f < 2 ^ 19) (hmay : MayWrite s q pgFLG (if v then 0x080 else 0x084)) (hbank : bankBad s (groupAddr (f / 64)) = false)
    (hmark : markOf s (groupAddr (f / 64)) = .good) :
    ∃ t, exec (if v then .flgSet q f [] else .flgClr q f []) s = .next t ∧ flagValue t f = v ∧ ∀ g, g ≠ f → flagValue t g = flagValue s g := by
  have hexec := exec_flgOp (same := []) hf hmay
  rw [flagOps_alone] at hexec
  obtain ⟨-, -, hvalue⟩ := writeFlag_good v hbank hmark
  obtain ⟨u, hu⟩ : ∃ u, (writeFlag f v s).2 = u := ⟨_, rfl⟩
  rw [hu] at hexec
  simp only [hu] at hvalue
  have hmem := releaseFlag_mem f u
  obtain ⟨t, ht⟩ : ∃ t, releaseFlag f u = t := ⟨_, rfl⟩
  rw [ht] at hexec hmem
  refine ⟨_, hexec.trans (settle_eq ..), ?_, fun g hg => ?_⟩
  · exact (flagValue_memStands hmem f).trans ((hvalue f).trans (if_pos rfl))
  · exact (flagValue_memStands hmem g).trans ((hvalue g).trans (if_neg hg))

theorem flagOps_both_shows (hbank : bankBad s (groupAddr (f / 64)) = false) (hmark : markOf s (groupAddr (f / 64)) = .good) :
    flagValue (flagOps f v [(f, !v)] s).2 f = true ∧ ∀ u, (unitOf s u).waitFlag = some (f, false) →
      unitOf (flagOps f v [(f, !v)] s).2 u = unitOf s u := by
  rw [flagOps_both]
  obtain ⟨-, hclear, -⟩ := writeFlag_good false hbank hmark
  obtain ⟨a, ha⟩ : ∃ a, (writeFlag f false s).2 = a := ⟨_, rfl⟩
  rw [ha] at hclear ⊢
  obtain ⟨-, hset, hvalue⟩ := writeFlag_good (f := f) (s := a) true ((hclear.accounted.sameUse.bankBad _).trans hbank) ((hclear.marks _).trans hmark)
  have hone := (hvalue f).trans (if_pos rfl)
  have hstrm := (hclear.trans hset).accounted.field State.strm
  obtain ⟨b, hb⟩ : ∃ b, (writeFlag f true a).2 = b := ⟨_, rfl⟩
  rw [hb] at hone hstrm ⊢
  have hunit (u : Nat) : unitOf b u = unitOf s u := by unfold unitOf; rw [hstrm]
  have hone' : flagValue (releaseFlag f b) f = true := (flagValue_memStands (releaseFlag_mem f b) f).trans hone
  refine ⟨(flagValue_memStands (releaseFlag_mem f _) f).trans hone', fun u hwait => ?_⟩
  have hwaitb : (unitOf b u).waitFlag = some (f, false) := by rw [hunit]; exact hwait
  have hfirst : unitOf (releaseFlag f b) u = unitOf b u := released_releaseFlag hwaitb (by rw [hone]; decide)
  exact (released_releaseFlag (by rw [hfirst]; exact hwaitb) (by rw [hone']; decide)).trans (hfirst.trans (hunit u))

theorem flagBoth_shows (hf : f < 2 ^ 19) (hmay : MayWrite s q pgFLG (if v then 0x080 else 0x084))
    (hbank : bankBad s (groupAddr (f / 64)) = false) (hmark : markOf s (groupAddr (f / 64)) = .good) :
    ∃ t, exec (if v then .flgSet q f [(f, false)] else .flgClr q f [(f, true)]) s = .next t ∧ flagValue t f = true ∧
      ∀ u, (unitOf s u).waitFlag = some (f, false) → (unitOf s u).released = false → (unitOf t u).released = false := by
  have hexec : exec (if v then .flgSet q f [(f, false)] else .flgClr q f [(f, true)]) s = settle s (flagOps f v [(f, !v)] s).2 := by
    cases v
    · exact exec_flgOp (v := false) [(f, true)] hf hmay
    · exact exec_flgOp (v := true) [(f, false)] hf hmay
  obtain ⟨hvalue, hunits⟩ := flagOps_both_shows (v := v) hbank hmark
  obtain ⟨t, ht⟩ : ∃ t, (flagOps f v [(f, !v)] s).2 = t := ⟨_, rfl⟩
  simp only [ht] at hexec hvalue hunits
  exact ⟨_, hexec.trans (settle_eq ..), hvalue, fun u hwait hreleased => (congrArg StreamUnit.released (hunits u hwait)).trans hreleased⟩

/-! ### Range clears -/

theorem flgRangeClr_shows {first n : Nat} (hmay : MayWrite s q pgFLG 0x094) (hn : 1 ≤ n) (hle : first + n ≤ 8192) (hnone : s.flg.range = none) :
    ∃ t, exec (.flgRangeClr q first n) s = .next t ∧ t.flg.range = some (first, n) ∧ MemStands s t := by
  have hfirst : first % 2 ^ 13 = first := Nat.mod_eq_of_lt (by omega)
  have hcount : n % 2 ^ 14 = n := Nat.mod_eq_of_lt (by omega)
  have hexec : exec (.flgRangeClr q first n) s = settle s { s with flg := { s.flg with range := some (first, n), rangeAt := now s } } := by
    refine (exec_gate (k := effRangeClr q (first % 2 ^ 13) (n % 2 ^ 14)) rfl hmay).trans (congrArg (settle s) ?_)
    rw [hfirst, hcount]
    exact if_neg (by rw [hnone]; simp; omega)
  exact ⟨_, hexec.trans (settle_eq ..), rfl, fun _ => rfl⟩

end

theorem releaseGroup_mem (g : Nat) (s : State) : MemStands s (releaseGroup g s) := fun _ => rfl

theorem overlay_zeros (a x n : Nat) (old : Nat → Byte) :
    overlay a ((zeros n).map some) old x = if a ≤ x ∧ x < a + n then 0 else old x := by
  have hlen : ((zeros n).map some).length = n := by rw [List.length_map]; exact List.length_replicate
  by_cases h : a ≤ x
  · obtain ⟨i, rfl⟩ := Nat.exists_eq_add_of_le h
    by_cases hi : i < n
    · rw [if_pos ⟨h, by omega⟩, overlay_in (by rw [hlen]; exact hi)]
      simp [zeros]
    · rw [if_neg (by omega)]
      unfold overlay
      rw [if_pos h, List.getElem?_eq_none (by rw [hlen]; omega)]
      rfl
  · rw [if_neg (by omega)]
    exact if_neg h

/-- A group of a good bank is cleared whole. -/
theorem clearGroup_good {g : Nat} {s : State} (hbank : bankBad s (groupAddr g) = false) :
    (clearGroup g s).1 = true ∧ (clearGroup g s).2.regs = s.regs ∧ (clearGroup g s).2.pd0 = s.pd0 ∧ (clearGroup g s).2.flg = s.flg ∧
      ∀ a, getByte (clearGroup g s).2 a = if groupAddr g ≤ a ∧ a < groupAddr g + 8 then 0 else getByte s a := by
  have hprep : prepWord (groupAddr g) ((zeros 8).map some) s = (true, setMark (groupAddr g) .good s) := by
    have hsize : wordSize (groupAddr g) = 8 := if_neg (by unfold groupAddr flagBase; omega)
    unfold prepWord
    dsimp only
    rw [if_neg (by decide), if_neg (by rw [hbank]; decide), hsize, if_pos (by decide)]
  unfold clearGroup
  dsimp only
  rw [hprep, if_pos rfl]
  obtain ⟨a, ha⟩ : ∃ a, groupAddr g = a := ⟨_, rfl⟩
  rw [ha]
  have hset := setEnabled_eq a ((zeros 8).map some) (setMark a .good s)
  have hbyte (x : Nat) : getByte (setEnabled a ((zeros 8).map some) (setMark a .good s)) x = if a ≤ x ∧ x < a + 8 then 0 else getByte s x := by
    rw [getByte_setEnabled, overlay_zeros]
    rfl
  obtain ⟨t, ht⟩ : ∃ t, setEnabled a ((zeros 8).map some) (setMark a .good s) = t := ⟨_, rfl⟩
  have hbytes : setBytes a (zeros 8) (setMark a .good s) = t := ht
  rw [hbytes]
  simp only [ht] at hbyte
  rw [ht] at hset
  exact ⟨rfl, (congrArg State.regs hset).trans rfl, (congrArg State.pd0 hset).trans rfl, (congrArg State.flg hset).trans rfl,
    fun x => (releaseGroup_mem g t x).trans (hbyte x)⟩

theorem bankBad_of_regs {s t : State} (h : t.regs = s.regs) (a : Nat) : bankBad t a = bankBad s a := by
  unfold bankBad; rw [rd64_congr (rd_of_regs h ..) (rd_of_regs h ..)]

/-- The groups of a range in good banks are all cleared, and counted. -/
theorem clearGroups_good {first : Nat} {s : State} : ∀ n, (∀ g, first ≤ g → g < first + n → bankBad s (groupAddr g) = false) → ∀ k,
    (clearGroups first n (k, s)).1 = k + n ∧ (clearGroups first n (k, s)).2.regs = s.regs ∧ (clearGroups first n (k, s)).2.pd0 = s.pd0 ∧
      (clearGroups first n (k, s)).2.flg = s.flg ∧
      ∀ a, getByte (clearGroups first n (k, s)).2 a = if groupAddr first ≤ a ∧ a < groupAddr (first + n) then 0 else getByte s a
  | 0, _, k => ⟨rfl, rfl, rfl, rfl, fun a => (if_neg (by rw [Nat.add_zero]; omega)).symm⟩
  | n + 1, hbank, k => by
    obtain ⟨hcount, hregs, hpd0, hflg, hbytes⟩ := clearGroups_good n (fun g hlo hhi => hbank g hlo (by omega)) k
    obtain ⟨⟨m, t⟩, hmt⟩ : ∃ x, clearGroups first n (k, s) = x := ⟨_, rfl⟩
    have hstep : clearGroups first (n + 1) (k, s) = (m + b2n (clearGroup (first + n) t).1, (clearGroup (first + n) t).2) := by
      rw [clearGroups, hmt]
    rw [hmt] at hcount hregs hpd0 hflg
    simp only [hmt] at hbytes
    obtain ⟨hone, hregs', hpd0', hflg', hbytes'⟩ := clearGroup_good (g := first + n) (s := t)
      ((bankBad_of_regs hregs _).trans (hbank _ (Nat.le_add_right ..) (by omega)))
    obtain ⟨⟨b, u⟩, hbu⟩ : ∃ x, clearGroup (first + n) t = x := ⟨_, rfl⟩
    rw [hstep]
    rw [hbu] at hone hregs' hpd0' hflg' ⊢
    simp only [hbu] at hbytes'
    have hone' : b = true := hone
    have hcount' : m = k + n := hcount
    refine ⟨?_, hregs'.trans hregs, hpd0'.trans hpd0, hflg'.trans hflg, fun a => (hbytes' a).trans ?_⟩
    · show m + b2n b = _
      rw [hone', hcount']; rfl
    · rw [hbytes a]
      unfold groupAddr
      by_cases hnew : flagBase + 8 * (first + n) ≤ a ∧ a < flagBase + 8 * (first + n) + 8
      · rw [if_pos hnew, if_pos (by omega)]
      · rw [if_neg hnew]
        by_cases hold : flagBase + 8 * first ≤ a ∧ a < flagBase + 8 * (first + n)
        · rw [if_pos hold, if_pos (by omega)]
        · rw [if_neg hold, if_neg (by omega)]

theorem exec_rangeClrDone {first n : Nat} {s : State} (hrange : s.flg.range = some (first, n)) (hon : pageOn s pgFLG = true)
    (htime : s.flg.rangeAt + n * 2000 / 8192 ≤ now s) :
    exec .rangeClrDone s = settle s (raise pgFLG 0x101 sevINFO (clearGroups first n (0, { s with flg := { s.flg with range := none } })).1
      (clearGroups first n (0, { s with flg := { s.flg with range := none } })).2) := by
  show execRangeClrDone s = _
  unfold execRangeClrDone
  rw [hrange]
  exact if_neg (by rw [hon, decide_eq_false (by exact Nat.not_lt.mpr htime)]; decide)

theorem rangeClrDone_shows {first n : Nat} {s : State} (hrange : s.flg.range = some (first, n)) (hle : first + n ≤ 8192)
    (hon : pageOn s pgFLG = true) (htime : s.flg.rangeAt + n * 2000 / 8192 ≤ now s)
    (hbank : ∀ g, first ≤ g → g < first + n → bankBad s (groupAddr g) = false) :
    ∃ t, exec .rangeClrDone s = .next t ∧ t.flg.range = none ∧ (∀ f, first ≤ f / 64 → f / 64 < first + n → flagValue t f = false) ∧
      (∀ f, ¬(first ≤ f / 64 ∧ f / 64 < first + n) → flagValue t f = flagValue s f) ∧ Told t (owner s pgFLG) pgFLG 0x101 n := by
  have hexec := exec_rangeClrDone hrange hon htime
  obtain ⟨v, hv⟩ : ∃ v, { s with flg := { s.flg with range := none } } = v := ⟨_, rfl⟩
  have hvregs : v.regs = s.regs := by rw [← hv]
  have hvpd0 : v.pd0 = s.pd0 := by rw [← hv]
  have hvflg : v.flg.range = none := by rw [← hv]
  have hvmem : MemStands s v := by rw [← hv]; exact fun _ => rfl
  rw [hv] at hexec
  obtain ⟨hcount, hregs, hpd0, hflg, hbytes⟩ := clearGroups_good (s := v) n (fun g hlo hhi => (bankBad_of_regs hvregs _).trans (hbank g hlo hhi)) 0
  obtain ⟨⟨m, u⟩, hmu⟩ : ∃ x, clearGroups first n (0, v) = x := ⟨_, rfl⟩
  rw [hmu] at hexec hcount hregs hpd0 hflg
  simp only [hmu] at hbytes
  have hm : m = n := hcount.trans (Nat.zero_add n)
  subst hm
  have hpage : pageOn u pgFLG = true := by
    rw [pageOn_congr (hpd0.trans hvpd0) (rd_of_regs (hregs.trans hvregs) ..)]; exact hon
  have howner : owner u pgFLG = owner s pgFLG := by
    unfold owner; rw [rdF_congr (rd_of_regs (hregs.trans hvregs) ..)]
  have htold : Told (raise pgFLG 0x101 sevINFO m u) (owner s pgFLG) pgFLG 0x101 (m % 2 ^ 32) := by
    rw [← howner]
    exact told_raise (destOf_owner (k := .flg) (by decide) rfl (by decide) rfl) m
  rw [Nat.mod_eq_of_lt (by omega)] at htold
  have hmem : MemStands u (raise pgFLG 0x101 sevINFO m u) := memStands_of_mem (raise_mem ..)
  have hflg' : (raise pgFLG 0x101 sevINFO m u).flg.range = none := (congrArg (·.range) ((raise_flg ..).trans hflg)).trans hvflg
  obtain ⟨t, ht⟩ : ∃ t, raise pgFLG 0x101 sevINFO m u = t := ⟨_, rfl⟩
  replace hexec : exec .rangeClrDone s = settle s t := by rw [← ht]; exact hexec
  rw [ht] at htold hmem hflg'
  refine ⟨_, hexec.trans (settle_eq ..), hflg', fun f hlo hhi => ?_, fun f hout => ?_, htold⟩
  · refine (flagValue_memStands hmem f).trans ?_
    unfold flagValue
    rw [hbytes, if_pos (by unfold groupAddr; omega)]
    exact Nat.zero_testBit _
  · refine (flagValue_memStands hmem f).trans ?_
    unfold flagValue
    rw [hbytes, if_neg (by unfold groupAddr; omega), hvmem]

/-! ### Group reads -/

theorem leNat_lt : ∀ l : List Byte, leNat l < 256 ^ l.length
  | [] => by decide
  | b :: l => by
    have hb : b.toNat < 256 := b.isLt
    have hl := leNat_lt l
    rw [leNat, List.length_cons, Nat.pow_succ]
    omega

theorem flgGroupRead_shows {q : Port} {high : Bool} {s : State} (hlive : portLive s q = true) (hon : pageOn s pgFLG = true)
    (hbank : bankBad s (groupAddr (rdF s pgFLG 0x088 12 0)) = false) (hmark : markOf s (groupAddr (rdF s pgFLG 0x088 12 0)) = .good) :
    ∃ t, exec (.flgGroupRead q high) s = .next t ∧
      (t.port q).readData = leNat (getBytes s (groupAddr (rdF s pgFLG 0x088 12 0) + 4 * b2n high) 4) ∧
      rdB t pgFLG 0x088 31 = false ∧ MemStands s t := by
  obtain ⟨w, hw⟩ : ∃ w, groupAddr (rdF s pgFLG 0x088 12 0) = w := ⟨_, rfl⟩
  rw [hw] at hbank hmark
  have hmem : MemStands s (wrB pgFLG 0x088 31 false s) := memStands_of_mem (wr_mem ..)
  have hbit : rdB (wrB pgFLG 0x088 31 false s) pgFLG 0x088 31 = false := rdB_wrB _ _ _ _ _ (by decide)
  have hread : readGroup high s = (BitVec.ofNat 32 (leNat (getBytes (wrB pgFLG 0x088 31 false s) (w + 4 * b2n high) 4)), wrB pgFLG 0x088 31 false s) := by
    unfold readGroup
    dsimp only
    rw [hw, readWord_good hbank hmark]
    rfl
  have hexec : exec (.flgGroupRead q high) s = settle s ((readGroup high s).2.modPort q fun p => { p with readData := (readGroup high s).1.toNat }) := by
    show execFlgGroupRead q high s = _
    unfold execFlgGroupRead
    rw [if_neg (by rw [hlive]; decide), if_neg (by rw [hon]; decide)]
  rw [hread] at hexec
  obtain ⟨u, hu⟩ : ∃ u, wrB pgFLG 0x088 31 false s = u := ⟨_, rfl⟩
  rw [hu] at hexec hmem hbit
  have hlen : (getBytes u (w + 4 * b2n high) 4).length = 4 := by simp [getBytes]
  have hlt : leNat (getBytes u (w + 4 * b2n high) 4) < 2 ^ 32 :=
    Nat.lt_of_lt_of_eq (leNat_lt _) ((congrArg (256 ^ ·) hlen).trans (by decide))
  have hvalue : (BitVec.ofNat 32 (leNat (getBytes u (w + 4 * b2n high) 4))).toNat = leNat (getBytes s (w + 4 * b2n high) 4) := by
    rw [BitVec.toNat_ofNat, Nat.mod_eq_of_lt hlt, getBytes_congr hmem]
  obtain ⟨d, hd⟩ : ∃ d, (BitVec.ofNat 32 (leNat (getBytes u (w + 4 * b2n high) 4))).toNat = d := ⟨_, rfl⟩
  replace hexec : exec (.flgGroupRead q high) s = settle s (u.modPort q fun p => { p with readData := d }) := by rw [← hd]; exact hexec
  rw [hd] at hvalue
  rw [hw, ← hvalue]
  have hport : ((u.modPort q fun p => { p with readData := d }).port q).readData = d := by rw [port_modPort]
  have hbit' : rdB (u.modPort q fun p => { p with readData := d }) pgFLG 0x088 31 = false := (rdB_congr (rd_modPort ..) _).trans hbit
  have hmem' := hmem.trans (memStands_modPort q (fun p => { p with readData := d }) u)
  obtain ⟨t, ht⟩ : ∃ t, (u.modPort q fun p => { p with readData := d }) = t := ⟨_, rfl⟩
  rw [ht] at hexec hport hbit' hmem'
  exact ⟨_, hexec.trans (settle_eq ..), (congrArg _ (by cases q <;> rfl)).trans hport, hbit', hmem'⟩

/-- Settles O24. -/
theorem flagsSetClearRead : Obligations.FlagsSetClearRead :=
  ⟨fun _ _ _ _ => flagOp_shows, fun _ _ _ _ => flagBoth_shows, fun _ _ _ _ => flgRangeClr_shows, fun _ _ _ => rangeClrDone_shows,
    fun _ _ _ => flgGroupRead_shows⟩

end Sys2Proof.Machine
end

section
/-!
PROOFS. The Mews: handles and buffer entries, which buffer a grant takes (R217), and what serving the waiting requests can do.
-/
namespace Sys2Proof.Machine

/-! ### Buffer entries and handles -/

/-- The buffer entry of a key: pool * 2^16 + index. -/
def bufAt (s : State) (k : Nat) : Buf := s.mews.bufs.get Buf.fresh k

/-- The waiting requests of a queue's key. -/
def queueAt (s : State) (j : Nat) : List MewsReq := s.mews.queues.get [] j

theorem bufOf_eq (s : State) (n i : Nat) : bufOf s n i = bufAt s (n * 65536 + i) := rfl

theorem mewsQueue_eq (s : State) (n : Nat) (recov : Bool) : mewsQueue s n recov = queueAt s (2 * n + (1 - b2n recov)) := rfl

theorem bufAt_setBuf (n i : Nat) (b : Buf) (s : State) (k : Nat) :
    bufAt (setBuf n i b s) k = if k = n * 65536 + i then b else bufAt s k := SMap.get_put ..

theorem hPool_lt (h : Nat) : hPool h < 8 := Nat.mod_lt _ (by decide)

theorem hIndex_lt (h : Nat) : hIndex h < 65536 := Nat.mod_lt _ (by decide)

theorem handle_fields {n i g : Nat} (hn : n < 8) (hi : i < 65536) (hg : g < 8192) :
    hPool (mkHandle n i g) = n ∧ hIndex (mkHandle n i g) = i ∧ hGen (mkHandle n i g) = g := by
  unfold hPool hIndex hGen bitsOf mkHandle
  simp only [Nat.shiftRight_eq_div_pow]
  omega

theorem current_iff {s : State} {h : Nat} : current s h = true ↔ (poolOf s (hPool h)).on = true ∧ hIndex h < (poolOf s (hPool h)).count ∧
    (bufAt s (hPool h * 65536 + hIndex h)).held = true ∧ (bufAt s (hPool h * 65536 + hIndex h)).gen = hGen h := by
  unfold current
  simp only [Bool.and_eq_true, decide_eq_true_eq, bufOf_eq, and_assoc]
  exact ⟨fun ⟨hon, hlt, hheld, hgen⟩ => ⟨hon, hlt, hheld, of_decide_eq_true hgen⟩, fun ⟨hon, hlt, hheld, hgen⟩ => ⟨hon, hlt, hheld, decide_eq_true hgen⟩⟩

/-- A handle stays current while its pool's and its buffer's entries stand. -/
theorem current_congr {s t : State} {h : Nat} (hp : poolOf t (hPool h) = poolOf s (hPool h))
    (hb : bufAt t (hPool h * 65536 + hIndex h) = bufAt s (hPool h * 65536 + hIndex h)) (hc : current s h = true) : current t h = true := by
  rw [current_iff] at hc ⊢
  rw [hp, hb]; exact hc

theorem mewsWf_iff {s : State} : MewsWf s ↔ (∀ n, (poolOf s n).count ≤ 65536) ∧ ∀ k, 1 ≤ (bufAt s k).gen ∧ (bufAt s k).gen ≤ 8191 := by
  constructor
  · intro h
    refine ⟨fun n => (h n).1, fun k => ?_⟩
    have hk := (h 0).2 k
    rwa [bufOf_eq, Nat.zero_mul, Nat.zero_add] at hk
  · exact fun h n => ⟨h.1 n, fun i => h.2 _⟩

/-! ### A free buffer (R217) -/

theorem held_listed {s : State} {k : Nat} (h : (bufAt s k).held = true) : (k, bufAt s k) ∈ s.mews.bufs := by
  unfold bufAt at h ⊢
  have hlisted : ∀ m : SMap Buf, (m.get Buf.fresh k).held = true → (k, m.get Buf.fresh k) ∈ m := by
    intro m
    induction m with
    | nil => exact fun h => absurd (show Buf.fresh.held = true from h) (by decide)
    | cons e m ih =>
      obtain ⟨j, v⟩ := e
      unfold SMap.get
      by_cases hj : j = k
      · rw [if_pos hj]
        exact fun _ => hj ▸ List.mem_cons_self
      · rw [if_neg hj]
        exact fun h => List.mem_cons_of_mem _ (ih h)
  exact hlisted _ h

/-- A pool that has fewer held entries than buffers has one that is free (R217). -/
theorem lowestFree_free {s : State} {n : Nat} (hcount : (poolOf s n).count ≤ 65536) (h : 0 < freeCount s n) :
    lowestFree s n < (poolOf s n).count ∧ (bufAt s (n * 65536 + lowestFree s n)).held = false := by
  have hfound : ((List.range (poolOf s n).count).find? fun i => !(bufOf s n i).held).isSome = true := by
    refine Classical.byContradiction fun hnone => ?_
    have hall : ∀ i < (poolOf s n).count, (bufAt s (n * 65536 + i)).held = true := fun i hi => by
      rw [Bool.not_eq_true, Option.isSome_eq_false_iff, Option.isNone_iff_eq_none, List.find?_eq_none] at hnone
      have := hnone i (List.mem_range.mpr hi)
      simpa [bufOf_eq] using this
    have hsub : (List.range (poolOf s n).count).map (fun i => n * 65536 + i) ⊆ (heldIn s n).map (·.1) := by
      intro k hk
      obtain ⟨i, hi, rfl⟩ := List.mem_map.mp hk
      have hheld := hall i (List.mem_range.mp hi)
      refine List.mem_map.mpr ⟨_, List.mem_filter.mpr ⟨held_listed hheld, ?_⟩, rfl⟩
      have hidx := List.mem_range.mp hi
      simp only [hheld, Bool.and_true, decide_eq_true_eq]
      omega
    have hnodup : ((List.range (poolOf s n).count).map (fun i => n * 65536 + i)).Nodup :=
      List.Pairwise.map _ (fun _ _ hab h => hab (Nat.add_left_cancel h)) List.nodup_range
    have hle := hnodup.length_le_of_subset hsub
    rw [List.length_map, List.length_map, List.length_range] at hle
    unfold freeCount at h
    omega
  obtain ⟨i, hi⟩ := Option.isSome_iff_exists.mp hfound
  have hlow : lowestFree s n = i := by unfold lowestFree; rw [hi]; rfl
  rw [hlow]
  refine ⟨List.mem_range.mp (List.mem_of_find?_eq_some hi), ?_⟩
  have hfree := List.find?_some hi
  simpa [bufOf_eq] using hfree

theorem free_of_canGrant {s : State} {n : Nat} {recov : Bool} (h : canGrant s n recov = true) : 0 < freeCount s n := by
  unfold canGrant at h
  obtain ⟨-, h⟩ := Bool.and_eq_true_iff.mp h
  exact Nat.lt_of_le_of_lt (Nat.zero_le _) (of_decide_eq_true h)

/-! ### One grant -/

/-- The buffer's entry after a grant. -/
def granted (s : State) (n : Nat) (r : MewsReq) : Buf := ⟨(bufAt s (n * 65536 + lowestFree s n)).gen, true, r.src.isAhead, r.owner⟩

theorem opAnswer_reports (op st h : Nat) (s : State) : ReportsOnly s (opAnswer op st h s) := (wrN_reports ..).trans (wrN_reports ..)

/-- A grant takes one buffer entry, and reports. -/
theorem grantBuf_reports (n : Nat) (r : MewsReq) (s : State) :
    ReportsOnly (setBuf n (lowestFree s n) (granted s n r) s) (grantBuf n r s).2 := by
  unfold grantBuf; dsimp only; split
  · exact (incCnt_reports ..).trans (raise_reports ..)
  · exact incCnt_reports ..

theorem grantBuf_handle (n : Nat) (r : MewsReq) (s : State) :
    (grantBuf n r s).1 = mkHandle n (lowestFree s n) (bufAt s (n * 65536 + lowestFree s n)).gen := rfl

theorem setBuf_mem (n i : Nat) (b : Buf) (s : State) : MemStands s (setBuf n i b s) := fun _ => rfl

/-- What a grant does to the Mews and leaves of it. -/
structure GrantsBuf (n : Nat) (r : MewsReq) (s t : State) : Prop where
  pools : t.mews.pools = s.mews.pools
  queues : t.mews.queues = s.mews.queues
  answers : t.mews.answers = s.mews.answers
  bufs : ∀ k, bufAt t k = if k = n * 65536 + lowestFree s n then granted s n r else bufAt s k
  mem : MemStands s t

theorem grantBuf_grants (n : Nat) (r : MewsReq) (s : State) : GrantsBuf n r s (grantBuf n r s).2 := by
  have hrep := grantBuf_reports n r s
  have hbufs := bufAt_setBuf n (lowestFree s n) (granted s n r) s
  have hmem := setBuf_mem n (lowestFree s n) (granted s n r) s
  have hpools : (setBuf n (lowestFree s n) (granted s n r) s).mews.pools = s.mews.pools := rfl
  have hqueues : (setBuf n (lowestFree s n) (granted s n r) s).mews.queues = s.mews.queues := rfl
  have hanswers : (setBuf n (lowestFree s n) (granted s n r) s).mews.answers = s.mews.answers := rfl
  obtain ⟨u, hu⟩ : ∃ u, setBuf n (lowestFree s n) (granted s n r) s = u := ⟨_, rfl⟩
  obtain ⟨t, ht⟩ : ∃ t, (grantBuf n r s).2 = t := ⟨_, rfl⟩
  rw [hu, ht] at hrep
  rw [hu] at hpools hqueues hanswers hmem
  simp only [hu] at hbufs
  rw [ht]
  have hmews : t.mews = u.mews := hrep.field State.mews
  refine ⟨hmews ▸ hpools, hmews ▸ hqueues, hmews ▸ hanswers, fun k => ?_, fun a => (hrep.field (getByte · a)).trans (hmem a)⟩
  unfold bufAt at hbufs ⊢
  rw [hmews]; exact hbufs k

theorem poolOf_of_pools {s t : State} (h : t.mews.pools = s.mews.pools) (n : Nat) : poolOf t n = poolOf s n := by unfold poolOf; rw [h]

theorem queueAt_of_queues {s t : State} (h : t.mews.queues = s.mews.queues) (j : Nat) : queueAt t j = queueAt s j := by unfold queueAt; rw [h]

theorem bufAt_of_mews {s t : State} (h : t.mews = s.mews) (k : Nat) : bufAt t k = bufAt s k := by unfold bufAt; rw [h]

/-! ### Serving -/

/-- No pool is larger than its indices. -/
def PoolsFit (s : State) : Prop := ∀ n, (poolOf s n).count ≤ 65536

/-- What serving the waiting requests can do: free buffers are granted, each under its generation, to owners that waited; requests
leave the fronts of their queues, and answers are given. -/
structure Serves (s t : State) : Prop where
  pools : t.mews.pools = s.mews.pools
  gens : ∀ k, (bufAt t k).gen = (bufAt s k).gen
  held : ∀ k, (bufAt s k).held = true → bufAt t k = bufAt s k
  grants : ∀ k, bufAt t k = bufAt s k ∨ ∃ j < 16, ∃ r ∈ queueAt s j, (bufAt t k).owner = r.owner
  queues : ∀ j, queueAt t j <:+ queueAt s j
  answers : s.mews.answers <+: t.mews.answers
  mem : MemStands s t

namespace Serves

variable {s t u : State}

theorem refl (s : State) : Serves s s :=
  ⟨rfl, fun _ => rfl, fun _ _ => rfl, fun _ => .inl rfl, fun _ => List.suffix_rfl, List.prefix_rfl, .refl s⟩

theorem trans (h : Serves s t) (g : Serves t u) : Serves s u where
  pools := g.pools.trans h.pools
  gens k := (g.gens k).trans (h.gens k)
  held k hk := (g.held k (by rw [h.held k hk]; exact hk)).trans (h.held k hk)
  grants k := by
    rcases g.grants k with e | ⟨j, hj, r, hr, e⟩
    · rw [e]; exact h.grants k
    · exact .inr ⟨j, hj, r, (h.queues j).subset hr, e⟩
  queues j := (g.queues j).trans (h.queues j)
  answers := h.answers.trans g.answers
  mem := h.mem.trans g.mem

theorem fit (h : Serves s t) (hs : PoolsFit s) : PoolsFit t := fun n => by rw [poolOf_of_pools h.pools]; exact hs n

theorem current (h : Serves s t) {x : Nat} (hx : Machine.current s x = true) : Machine.current t x = true :=
  current_congr (poolOf_of_pools h.pools _) (h.held _ (current_iff.mp hx).2.2.1) hx

theorem ctrl_of_mews {s t : State} (hmews : t.mews = s.mews) (hmem : MemStands s t) : Serves s t where
  pools := by rw [hmews]
  gens k := by rw [bufAt_of_mews hmews]
  held k _ := bufAt_of_mews hmews k
  grants k := .inl (bufAt_of_mews hmews k)
  queues j := queueAt_of_queues (congrArg MewsState.queues hmews) j ▸ List.suffix_rfl
  answers := hmews ▸ List.prefix_rfl
  mem := hmem

theorem iter {f : State → State} (hf : ∀ t, PoolsFit t → Serves t (f t)) : ∀ (n : Nat) {s : State}, PoolsFit s → Serves s (Machine.iter f n s)
  | 0, s, _ => refl s
  | n + 1, s, hs => (hf s hs).trans (iter hf n ((hf s hs).fit hs))

end Serves

/-- A free buffer granted to a request: nothing else of the Mews changes. -/
theorem grantBuf_serves {s : State} {n : Nat} {r : MewsReq} {recov : Bool} (hfit : PoolsFit s) (hgrant : canGrant s n recov = true) :
    let t := (grantBuf n r s).2
    t.mews.pools = s.mews.pools ∧ (∀ k, (bufAt t k).gen = (bufAt s k).gen) ∧ (∀ k, (bufAt s k).held = true → bufAt t k = bufAt s k) ∧
      (∀ k, bufAt t k = bufAt s k ∨ (bufAt t k).owner = r.owner) ∧ t.mews.queues = s.mews.queues ∧ t.mews.answers = s.mews.answers ∧
      MemStands s t := by
  obtain ⟨-, hfree⟩ := lowestFree_free (hfit n) (free_of_canGrant hgrant)
  obtain ⟨hpools, hqueues, hanswers, hbufs, hmem⟩ := grantBuf_grants n r s
  dsimp only
  refine ⟨hpools, fun k => ?_, fun k hk => ?_, fun k => ?_, hqueues, hanswers, hmem⟩
  · rw [hbufs]; split
    · rename_i h; rw [h]; rfl
    · rfl
  · rw [hbufs, if_neg]
    rintro rfl
    rw [hfree] at hk; exact absurd hk (by decide)
  · rw [hbufs]; split
    · exact .inr rfl
    · exact .inl rfl

/-- The answer given to an engine, and the host's, are reports beside the Mews' buffers. -/
theorem grantWaiting_after (n : Nat) (r : MewsReq) (s : State) :
    let u := (grantBuf n r s).2
    let t := grantWaiting n r s
    t.mews.pools = u.mews.pools ∧ t.mews.bufs = u.mews.bufs ∧ t.mews.queues = u.mews.queues ∧ u.mews.answers <+: t.mews.answers ∧ MemStands u t ∧
      ((∀ q, r.src ≠ .host q) → ⟨r.src, mwOK, (grantBuf n r s).1⟩ ∈ t.mews.answers) := by
  dsimp only
  unfold grantWaiting
  dsimp only
  obtain ⟨⟨h, u⟩, hg⟩ : ∃ g, grantBuf n r s = g := ⟨_, rfl⟩
  rw [hg]
  dsimp only
  split
  · rename_i q hq
    have hrep := (opAnswer_reports 1 mwOK h u).trans (raise_reports pgMEWS 0x100 sevINFO h _)
    have hmews := hrep.field State.mews
    refine ⟨by rw [hmews], by rw [hmews], by rw [hmews], hmews ▸ List.prefix_rfl, fun a => hrep.field (getByte · a), fun hne => absurd hq (hne q)⟩
  · exact ⟨rfl, rfl, rfl, List.prefix_append _ _, fun _ => rfl, fun _ => List.mem_append_right _ (List.mem_singleton.mpr rfl)⟩

theorem queueAt_setQueue (n : Nat) (recov : Bool) (l : List MewsReq) (s : State) (j : Nat) :
    queueAt (setQueue n recov l s) j = if j = 2 * n + (1 - b2n recov) then l else queueAt s j := SMap.get_put ..

theorem queueKey_lt {n : Nat} (hn : n < 8) (recov : Bool) : 2 * n + (1 - b2n recov) < 16 := by
  cases recov <;> simp [b2n] <;> omega

/-- The request at the front of a queue is granted. -/
theorem grantFront_serves {s : State} {n : Nat} {r : MewsReq} {rest : List MewsReq} {recov recov' : Bool} (hn : n < 8) (hfit : PoolsFit s)
    (hqueue : mewsQueue s n recov = r :: rest) (hgrant : canGrant s n recov' = true) :
    Serves s (grantWaiting n r (setQueue n recov rest s)) := by
  have hqueues := queueAt_setQueue n recov rest s
  have hcan : canGrant (setQueue n recov rest s) n recov' = true := hgrant
  have hfit' : PoolsFit (setQueue n recov rest s) := hfit
  have hbase : (setQueue n recov rest s).mews.pools = s.mews.pools ∧ (∀ k, bufAt (setQueue n recov rest s) k = bufAt s k) ∧
      (setQueue n recov rest s).mews.answers = s.mews.answers ∧ MemStands s (setQueue n recov rest s) := ⟨rfl, fun _ => rfl, rfl, fun _ => rfl⟩
  obtain ⟨v, hv⟩ : ∃ v, setQueue n recov rest s = v := ⟨_, rfl⟩
  simp only [hv] at hqueues hcan hfit' hbase
  rw [hv]
  obtain ⟨hpools, hbufs, hanswers, hmem⟩ := hbase
  obtain ⟨gpools, ggens, gheld, gowner, gqueues, ganswers, gmem⟩ := grantBuf_serves (r := r) hfit' hcan
  obtain ⟨apools, abufs, aqueues, aanswers, amem, -⟩ := grantWaiting_after n r v
  obtain ⟨u, hu⟩ : ∃ u, (grantBuf n r v).2 = u := ⟨_, rfl⟩
  obtain ⟨t, ht⟩ : ∃ t, grantWaiting n r v = t := ⟨_, rfl⟩
  simp only [hu] at gpools ggens gheld gowner gqueues ganswers gmem
  simp only [hu, ht] at apools abufs aqueues aanswers amem
  rw [ht]
  have hat (k : Nat) : bufAt t k = bufAt u k := by unfold bufAt; rw [abufs]
  have hq (j : Nat) : queueAt t j = if j = 2 * n + (1 - b2n recov) then rest else queueAt s j := by
    rw [queueAt_of_queues (aqueues.trans gqueues)]; exact hqueues j
  refine ⟨apools.trans (gpools.trans hpools), fun k => ?_, fun k hk => ?_, fun k => ?_, fun j => ?_, ?_, hmem.trans (gmem.trans amem)⟩
  · rw [hat, ggens, hbufs]
  · rw [hat, gheld k (by rw [hbufs]; exact hk), hbufs]
  · rcases gowner k with e | e
    · exact .inl ((hat k).trans (e.trans (hbufs k)))
    · refine .inr ⟨_, queueKey_lt hn recov, r, ?_, by rw [hat]; exact e⟩
      rw [← mewsQueue_eq, hqueue]; exact List.mem_cons_self
  · rw [hq]
    split
    · rename_i hj
      rw [hj, ← mewsQueue_eq, hqueue]; exact List.suffix_cons ..
    · exact List.suffix_rfl
  · rw [← hanswers, ← ganswers]; exact aanswers

theorem serveOne_serves {n : Nat} (hn : n < 8) {s : State} (hfit : PoolsFit s) : Serves s (serveOne n s) := by
  unfold serveOne
  split
  · rename_i r rest hqueue hgrant
    exact grantFront_serves hn hfit hqueue hgrant
  · split
    · rename_i r rest hqueue hgrant
      exact grantFront_serves hn hfit hqueue hgrant
    · exact .refl s

theorem servePool_serves {n : Nat} (hn : n < 8) {s : State} (hfit : PoolsFit s) : Serves s (servePool n s) :=
  Serves.iter (fun _ => serveOne_serves hn) _ hfit

theorem serveStep_serves {n : Nat} (hn : n < 8) {s : State} (hfit : PoolsFit s) : Serves s (if (poolOf s n).on then servePool n s else s) := by
  split
  · exact servePool_serves hn hfit
  · exact .refl s

/-- Pools served in turn. -/
theorem servePools_serves {l : List Nat} (hl : ∀ n ∈ l, n < 8) {s : State} (hfit : PoolsFit s) :
    Serves s (l.foldl (fun t n => if (poolOf t n).on then servePool n t else t) s) :=
  foldl_keeps_mem (Serves s) _ _ (fun _ n hn ht => ht.trans (serveStep_serves (hl n hn) (ht.fit hfit))) (.refl s)

theorem effServe_serves {s : State} (hfit : PoolsFit s) : Serves s (effServe s) :=
  servePools_serves (fun _ hn => List.mem_range.mp hn) hfit

/-! ### Returns -/

/-- The next generation (R212). -/
def nextGen (g : Nat) : Nat := if g = 8191 then 1 else g + 1

theorem nextGen_ne (g : Nat) : nextGen g ≠ g := by unfold nextGen; split <;> omega

theorem nextGen_bounds {g : Nat} (h : 1 ≤ g ∧ g ≤ 8191) : 1 ≤ nextGen g ∧ nextGen g ≤ 8191 := by unfold nextGen; split <;> omega

theorem bufAt_returnBuf (n i : Nat) (s : State) (k : Nat) : bufAt (returnBuf n i s) k =
    if k = n * 65536 + i then ⟨nextGen (bufAt s (n * 65536 + i)).gen, false, false, 0⟩ else bufAt s k := bufAt_setBuf ..

theorem returnBuf_eq (n i : Nat) (s : State) : returnBuf n i s = { s with mews := { s.mews with bufs := (returnBuf n i s).mews.bufs } } := rfl

end Sys2Proof.Machine
end

section
/-!
PROOFS. The host's operations of the Mews: ALLOC, FREE and TRANSFER (R219, R223).
-/
namespace Sys2Proof.Machine

/-! ### The answer (R230) -/

theorem opAnswer_shows {st : Nat} (op h : Nat) (s : State) (hst : st < 16) :
    rd (opAnswer op st h s) pgMEWS 0x090 = BitVec.ofNat 32 h ∧ rdF (opAnswer op st h s) pgMEWS 0x08C 3 0 = st := by
  unfold opAnswer
  obtain ⟨n, hn⟩ : ∃ n, (rdF s pgMEWS 0x08C 15 8 + 1) % 256 = n := ⟨_, rfl⟩
  dsimp only
  rw [hn]
  refine ⟨rd_wrN_same .., ?_⟩
  unfold rdF
  rw [rd_wrN_other (by decide) (by decide) (by decide), rd_wrN_same]
  unfold fld bitsOf
  rw [BitVec.toNat_ofNat, Nat.shiftRight_zero]
  omega

/-- An answer is given, whatever the Mews did before it. -/
theorem opAnswer_mews (op st h : Nat) (s : State) : (opAnswer op st h s).mews = s.mews := (opAnswer_reports ..).field State.mews

theorem unlessPending_free {q : Port} {k : State → State} {s : State} (h : hostPending s = false) : unlessPending q k s = k s :=
  if_neg (by rw [h]; decide)

section
variable {q : Port} {s : State}

/-! ### ALLOC -/

/-- A request of the host whose home pool is open is granted. -/
theorem mewsAsk_open {r : MewsReq} {n : Nat} {spill wait : Bool} (hlo : 1 ≤ r.size) (hhi : r.size ≤ 4194304) (hfence : ownerFenced s r.owner = false)
    (hhome : homePool s r.size = some n) (hopen : openNow s n r.recov = true) :
    mewsAsk r true spill wait s = (mwOK, (grantBuf n r s).1, (grantBuf n r s).2) := by
  unfold mewsAsk
  rw [if_neg (by omega), if_neg (by rw [hfence]; simp), hhome]
  exact if_pos hopen

theorem canGrant_of_openNow {n : Nat} {recov : Bool} (h : openNow s n recov = true) : canGrant s n recov = true := by
  unfold openNow at h; exact (Bool.and_eq_true_iff.mp h).2

theorem homePool_on {size n : Nat} (h : homePool s size = some n) : n < 8 ∧ (poolOf s n).on = true := by
  have hfound := List.find?_some h
  exact ⟨List.mem_range.mp (List.mem_of_find?_eq_some h), (Bool.and_eq_true_iff.mp hfound).1⟩

/-- A granted buffer is current under its handle, and so is every handle that was. -/
theorem grantBuf_current {n : Nat} {recov : Bool} (hwf : MewsWf s) (hn : n < 8) (hon : (poolOf s n).on = true) (hgrant : canGrant s n recov = true)
    (r : MewsReq) :
    let h := (grantBuf n r s).1
    let t := (grantBuf n r s).2
    hPool h = n ∧ current t h = true ∧ bufOf t n (hIndex h) = granted s n r ∧ (bufOf s n (hIndex h)).held = false ∧
      ∀ h', current s h' = true → current t h' = true := by
  obtain ⟨hfit, hgens⟩ := mewsWf_iff.mp hwf
  obtain ⟨hidx, hfree⟩ := lowestFree_free (hfit n) (free_of_canGrant hgrant)
  obtain ⟨hpools, -, hheld, -, -, -, -⟩ := grantBuf_serves (r := r) hfit hgrant
  have hbufs := (grantBuf_grants n r s).bufs
  have hidx' : lowestFree s n < 65536 := Nat.lt_of_lt_of_le hidx (hfit n)
  obtain ⟨hp, hi, hg⟩ := handle_fields (g := (bufAt s (n * 65536 + lowestFree s n)).gen) hn hidx' (Nat.lt_succ_of_le (hgens _).2)
  dsimp only
  rw [grantBuf_handle]
  obtain ⟨t, ht⟩ : ∃ t, (grantBuf n r s).2 = t := ⟨_, rfl⟩
  simp only [ht] at hpools hheld hbufs
  rw [ht]
  have hpool (m : Nat) : poolOf t m = poolOf s m := poolOf_of_pools hpools m
  have hnew : bufAt t (n * 65536 + lowestFree s n) = granted s n r := by rw [hbufs, if_pos rfl]
  refine ⟨hp, ?_, ?_, ?_, fun h' hc => current_congr (hpool _) (hheld _ (current_iff.mp hc).2.2.1) hc⟩
  · rw [current_iff, hp, hi, hg, hpool, hnew]
    exact ⟨hon, hidx, rfl, rfl⟩
  · rw [hi, bufOf_eq]; exact hnew
  · rw [hi, bufOf_eq]; exact hfree

theorem alloc_shows {n : Nat} (hwf : MewsWf s) (hmay : MayWrite s q pgMEWS 0x088) (hpend : hostPending s = false) (hlo : 1 ≤ opArg0 s)
    (hhi : opArg0 s ≤ 4194304) (hfence : ownerFenced s (opOwner s) = false) (hhome : homePool s (opArg0 s) = some n)
    (hopen : openNow s n (rdB s pgMEWS 0x084 9 || decide (opOwner s = 63)) = true) :
    ∃ t h, exec (.alloc q) s = .next t ∧ rd t pgMEWS 0x090 = BitVec.ofNat 32 h ∧ rdF t pgMEWS 0x08C 3 0 = mwOK ∧ hPool h = n ∧
      current t h = true ∧ (bufOf t n (hIndex h)).owner = opOwner s ∧ (bufOf s n (hIndex h)).held = false ∧
      (∀ h', current s h' = true → current t h' = true) ∧ MemStands s t := by
  obtain ⟨r, hr⟩ : ∃ r : MewsReq, r = ⟨.host q, opOwner s, opArg0 s, rdB s pgMEWS 0x084 9 || decide (opOwner s = 63)⟩ := ⟨_, rfl⟩
  have hask : mewsAsk r true (rdB s pgMEWS 0x084 8) (rdB s pgMEWS 0x084 10) s = (mwOK, (grantBuf n r s).1, (grantBuf n r s).2) := by
    subst hr; exact mewsAsk_open hlo hhi hfence hhome hopen
  have hexec : exec (.alloc q) s = settle s (opAnswer 1 mwOK (grantBuf n r s).1 (grantBuf n r s).2) := by
    refine (exec_gate (k := effAlloc q) rfl hmay).trans (congrArg (settle s) ?_)
    unfold effAlloc
    rw [unlessPending_free hpend]
    dsimp only
    rw [← hr, hask]
  obtain ⟨hn, hon⟩ := homePool_on hhome
  obtain ⟨hp, hcur, hbuf, hfree, hkeep⟩ := grantBuf_current hwf hn hon (canGrant_of_openNow hopen) r
  have hmem := (grantBuf_grants n r s).mem
  obtain ⟨⟨h, u⟩, hg⟩ : ∃ g, grantBuf n r s = g := ⟨_, rfl⟩
  simp only [hg] at hp hcur hbuf hfree hkeep hmem hexec
  obtain ⟨hhandle, hstatus⟩ := opAnswer_shows (st := mwOK) 1 h u (by decide)
  have hrep := opAnswer_reports 1 mwOK h u
  obtain ⟨t, ht⟩ : ∃ t, opAnswer 1 mwOK h u = t := ⟨_, rfl⟩
  rw [ht] at hhandle hstatus hrep hexec
  have hmews := hrep.field State.mews
  have hcurt {x : Nat} (hx : current u x = true) : current t x = true :=
    current_congr (poolOf_of_pools (congrArg MewsState.pools hmews) _) (bufAt_of_mews hmews _) hx
  refine ⟨_, h, hexec.trans (settle_eq ..), hhandle, hstatus, hp, hcurt hcur, ?_, hfree, fun h' hc => hcurt (hkeep h' hc),
    fun a => (hrep.field (getByte · a)).trans (hmem a)⟩
  have howner : (bufOf t n (hIndex h)).owner = r.owner := by
    rw [bufOf_eq, bufAt_of_mews hmews, ← bufOf_eq, hbuf]; rfl
  exact howner.trans (by rw [hr])

/-! ### FREE and TRANSFER -/

/-- A current handle is not 0, for no generation is (R211). -/
theorem checkHandle_host {h : Nat} (hwf : MewsWf s) (hc : current s h = true) : checkHandle h none s = (none, s) := by
  have hne : h ≠ 0 := by
    rintro rfl
    have hgen := (current_iff.mp hc).2.2.2
    have hpos := ((mewsWf_iff.mp hwf).2 (hPool 0 * 65536 + hIndex 0)).1
    rw [hgen] at hpos
    exact absurd hpos (by decide)
  unfold checkHandle
  rw [if_neg (fun e => hne e.2), if_neg (by simp), if_neg (by rw [hc]; decide)]

theorem returnBuf_fit {n i : Nat} (h : PoolsFit s) : PoolsFit (returnBuf n i s) := h

/-- The handle of a buffer that returned is stale, whoever is granted it next. -/
theorem freed_stale {h : Nat} (hwf : MewsWf s) (hc : current s h = true) : current (effServe (returnBuf (hPool h) (hIndex h) s)) h = false := by
  have hserves := effServe_serves (returnBuf_fit (n := hPool h) (i := hIndex h) (mewsWf_iff.mp hwf).1)
  have hnew := bufAt_returnBuf (hPool h) (hIndex h) s (hPool h * 65536 + hIndex h)
  rw [if_pos rfl] at hnew
  obtain ⟨t, ht⟩ : ∃ t, effServe (returnBuf (hPool h) (hIndex h) s) = t := ⟨_, rfl⟩
  rw [ht] at hserves ⊢
  have hgen : (bufAt t (hPool h * 65536 + hIndex h)).gen = nextGen (bufAt s (hPool h * 65536 + hIndex h)).gen := by rw [hserves.gens, hnew]
  rw [Bool.eq_false_iff]
  intro hcur
  have hnow := (current_iff.mp hcur).2.2.2
  rw [hgen, (current_iff.mp hc).2.2.2] at hnow
  exact nextGen_ne _ hnow

theorem free_shows (hwf : MewsWf s) (hmay : MayWrite s q pgMEWS 0x088) (hpend : hostPending s = false) (hc : current s (opArg0 s) = true) :
    ∃ t, exec (.free q) s = .next t ∧ rdF t pgMEWS 0x08C 3 0 = mwOK ∧ current t (opArg0 s) = false ∧ MemStands s t := by
  obtain ⟨h, hh⟩ : ∃ h, opArg0 s = h := ⟨_, rfl⟩
  rw [hh] at hc ⊢
  have hexec : exec (.free q) s = settle s (opAnswer 2 mwOK 0 (effServe (returnBuf (hPool h) (hIndex h) s))) := by
    refine (exec_gate (k := effFree q) rfl hmay).trans (congrArg (settle s) ?_)
    unfold effFree
    rw [unlessPending_free hpend]
    unfold mewsFree
    rw [hh, checkHandle_host hwf hc]
  have hstale := freed_stale hwf hc
  have hmem : MemStands s (effServe (returnBuf (hPool h) (hIndex h) s)) :=
    (setBuf_mem _ _ _ s).trans (effServe_serves (returnBuf_fit (mewsWf_iff.mp hwf).1)).mem
  obtain ⟨u, hu⟩ : ∃ u, effServe (returnBuf (hPool h) (hIndex h) s) = u := ⟨_, rfl⟩
  rw [hu] at hexec hstale hmem
  obtain ⟨-, hstatus⟩ := opAnswer_shows (st := mwOK) 2 0 u (by decide)
  have hrep := opAnswer_reports 2 mwOK 0 u
  obtain ⟨t, ht⟩ : ∃ t, opAnswer 2 mwOK 0 u = t := ⟨_, rfl⟩
  rw [ht] at hstatus hrep hexec
  exact ⟨_, hexec.trans (settle_eq ..), hstatus, (hrep.field (current · h)).trans hstale, fun a => (hrep.field (getByte · a)).trans (hmem a)⟩

theorem mewsTransfer_host {h o : Nat} (hwf : MewsWf s) (hc : current s h = true) (hfence : ownerFenced s o = false) :
    mewsTransfer h o none s = (mwOK, setBuf (hPool h) (hIndex h) { bufOf s (hPool h) (hIndex h) with owner := o } s) := by
  unfold mewsTransfer
  rw [checkHandle_host hwf hc]
  exact if_neg (by rw [hfence]; decide)

theorem transfer_shows (hwf : MewsWf s) (hmay : MayWrite s q pgMEWS 0x088) (hpend : hostPending s = false) (hc : current s (opArg0 s) = true)
    (hfence : ownerFenced s (opOwner s) = false) :
    ∃ t, exec (.transfer q) s = .next t ∧ rdF t pgMEWS 0x08C 3 0 = mwOK ∧ current t (opArg0 s) = true ∧
      (bufOf t (hPool (opArg0 s)) (hIndex (opArg0 s))).owner = opOwner s ∧ MemStands s t := by
  obtain ⟨h, hh⟩ : ∃ h, opArg0 s = h := ⟨_, rfl⟩
  obtain ⟨o, ho⟩ : ∃ o, opOwner s = o := ⟨_, rfl⟩
  rw [ho] at hfence ⊢
  rw [hh] at hc ⊢
  obtain ⟨b, hb⟩ : ∃ b, b = { bufOf s (hPool h) (hIndex h) with owner := o } := ⟨_, rfl⟩
  have hexec : exec (.transfer q) s = settle s (opAnswer 3 mwOK 0 (setBuf (hPool h) (hIndex h) b s)) := by
    refine (exec_gate (k := effTransfer q) rfl hmay).trans (congrArg (settle s) ?_)
    unfold effTransfer
    rw [unlessPending_free hpend]
    rw [hh, ho, mewsTransfer_host hwf hc hfence, ← hb]
  have hnew := bufAt_setBuf (hPool h) (hIndex h) b s (hPool h * 65536 + hIndex h)
  rw [if_pos rfl] at hnew
  have hpool (n : Nat) : poolOf (setBuf (hPool h) (hIndex h) b s) n = poolOf s n := rfl
  have hmem := setBuf_mem (hPool h) (hIndex h) b s
  obtain ⟨u, hu⟩ : ∃ u, setBuf (hPool h) (hIndex h) b s = u := ⟨_, rfl⟩
  simp only [hu] at hexec hnew hmem hpool
  have hcur : current u h = true := by
    obtain ⟨hon, hlt, hheld, hgen⟩ := current_iff.mp hc
    rw [current_iff, hpool, hnew, hb]
    exact ⟨hon, hlt, hheld, hgen⟩
  obtain ⟨-, hstatus⟩ := opAnswer_shows (st := mwOK) 3 0 u (by decide)
  have hrep := opAnswer_reports 3 mwOK 0 u
  obtain ⟨t, ht⟩ : ∃ t, opAnswer 3 mwOK 0 u = t := ⟨_, rfl⟩
  rw [ht] at hstatus hrep hexec
  refine ⟨_, hexec.trans (settle_eq ..), hstatus, (hrep.field (current · h)).trans hcur, ?_, fun a => (hrep.field (getByte · a)).trans (hmem a)⟩
  have howner : (bufOf t (hPool h) (hIndex h)).owner = o := by
    rw [bufOf_eq, bufAt_of_mews (hrep.field State.mews), hnew, hb]
  exact howner

end

/-- Settles O25. -/
theorem allocFreeTransfer : Obligations.AllocFreeTransfer := fun _ _ hwf hmay hpend =>
  ⟨fun _ hlo hhi hfence hhome hopen => alloc_shows hwf hmay hpend hlo hhi hfence hhome hopen, fun hc => free_shows hwf hmay hpend hc,
    fun hc hfence => transfer_shows hwf hmay hpend hc hfence⟩

end Sys2Proof.Machine
end

section
/-!
PROOFS. RECLAIM, CANCEL, fences, pools and the requests that wait (R208, R215, R218, R224, R229, R230).
-/
namespace Sys2Proof.Machine

section
variable {q : Port} {s : State}

/-! ### RECLAIM -/

theorem reclaim_shows (hmay : MayWrite s q pgMEWS 0x088) (hpend : hostPending s = false) (ho : opArg0 s ≤ 63)
    (hfence : ownerFenced s (opArg0 s) = true) (hidle : rdB s pgMEWS 0x0A8 0 = false) :
    ∃ t, exec (.reclaim q) s = .next t ∧ rdB t pgMEWS 0x0A8 0 = true ∧ rdF t pgMEWS 0x0A8 13 8 = opArg0 s ∧
      rdF t pgMEWS 0x08C 3 0 = mwOK ∧ t.mews = s.mews := by
  obtain ⟨o, hh⟩ : ∃ o, opArg0 s = o := ⟨_, rfl⟩
  rw [hh] at ho hfence ⊢
  have hexec : exec (.reclaim q) s = settle s (opAnswer 4 mwOK 0 (wrN pgMEWS 0x0AC 0 (wrN pgMEWS 0x0A8 (1 + o * 256) s))) := by
    refine (exec_gate (k := effReclaim q) rfl hmay).trans (congrArg (settle s) ?_)
    unfold effReclaim
    rw [unlessPending_free hpend]
    dsimp only
    rw [hh, if_neg (by omega), if_neg (by rw [hfence]; decide), if_neg (by rw [hidle]; decide)]
  have hword : rd (wrN pgMEWS 0x0AC 0 (wrN pgMEWS 0x0A8 (1 + o * 256) s)) pgMEWS 0x0A8 = BitVec.ofNat 32 (1 + o * 256) :=
    (rd_wrN_other (by decide) (by decide) (by decide) ..).trans (rd_wrN_same ..)
  have hmews : (wrN pgMEWS 0x0AC 0 (wrN pgMEWS 0x0A8 (1 + o * 256) s)).mews = s.mews := rfl
  obtain ⟨u, hu⟩ : ∃ u, wrN pgMEWS 0x0AC 0 (wrN pgMEWS 0x0A8 (1 + o * 256) s) = u := ⟨_, rfl⟩
  rw [hu] at hexec hword hmews
  obtain ⟨-, hstatus⟩ := opAnswer_shows (st := mwOK) 4 0 u (by decide)
  have hmews' := (opAnswer_mews 4 mwOK 0 u).trans hmews
  have hword' : rd (opAnswer 4 mwOK 0 u) pgMEWS 0x0A8 = BitVec.ofNat 32 (1 + o * 256) :=
    ((rd_wrN_other (by decide) (by decide) (by decide) ..).trans (rd_wrN_other (by decide) (by decide) (by decide) ..)).trans hword
  obtain ⟨t, ht⟩ : ∃ t, opAnswer 4 mwOK 0 u = t := ⟨_, rfl⟩
  rw [ht] at hexec hstatus hmews' hword'
  refine ⟨_, hexec.trans (settle_eq ..), ?_, ?_, hstatus, hmews'⟩
  · show rdB t pgMEWS 0x0A8 0 = true
    unfold rdB; rw [hword']
    unfold flag bitOf
    rw [BitVec.toNat_ofNat, Nat.testBit_zero]
    exact decide_eq_true (by omega)
  · show rdF t pgMEWS 0x0A8 13 8 = o
    unfold rdF; rw [hword']
    unfold fld bitsOf
    rw [BitVec.toNat_ofNat, Nat.shiftRight_eq_div_pow]
    omega

/-- A buffer that is held, of an owner, in a pool that is on. -/
def OwnedAt (s : State) (o k : Nat) : Prop := (bufAt s k).held = true ∧ (bufAt s k).owner = o ∧ (poolOf s (k / 65536)).on = true

/-- No request of an owner waits. -/
def NoneWaits (s : State) (o : Nat) : Prop := ∀ j < 16, ∀ r ∈ queueAt s j, r.owner ≠ o

/-- One buffer returns and the waiters are served. -/
theorem returnServe_keeps {o k : Nat} (hfit : PoolsFit s) (hwait : NoneWaits s o) {t : State}
    (ht : effServe (returnBuf (k / 65536) (k % 65536) s) = t) :
    PoolsFit t ∧ NoneWaits t o ∧ t.mews.pools = s.mews.pools ∧ ∀ x, OwnedAt t o x → OwnedAt s o x ∧ x ≠ k := by
  have hserves := effServe_serves (returnBuf_fit (n := k / 65536) (i := k % 65536) hfit)
  have hbufs := bufAt_returnBuf (k / 65536) (k % 65536) s
  have hkey : k / 65536 * 65536 + k % 65536 = k := Nat.div_add_mod' ..
  rw [hkey] at hbufs
  have hbase : (returnBuf (k / 65536) (k % 65536) s).mews.pools = s.mews.pools ∧
      ∀ j, queueAt (returnBuf (k / 65536) (k % 65536) s) j = queueAt s j := ⟨rfl, fun _ => rfl⟩
  obtain ⟨u, hu⟩ : ∃ u, returnBuf (k / 65536) (k % 65536) s = u := ⟨_, rfl⟩
  simp only [hu] at ht hserves hbufs hbase
  rw [ht] at hserves
  have hpools := hserves.pools.trans hbase.1
  refine ⟨fun n => by rw [poolOf_of_pools hpools]; exact hfit n, fun j hj r hr => ?_, hpools, fun x ⟨hheld, howner, hon⟩ => ?_⟩
  · exact hwait j hj r (by rw [← hbase.2 j]; exact (hserves.queues j).subset hr)
  · rcases hserves.grants x with e | ⟨j, hj, r, hr, e⟩
    · rw [hbufs] at e
      split at e
      · rw [e] at hheld; exact absurd hheld (by simp)
      · rw [e] at hheld howner
        rw [poolOf_of_pools hpools] at hon
        exact ⟨⟨hheld, howner, hon⟩, ‹_›⟩
    · exact absurd (e.symm.trans howner) (hwait j hj r (by rw [← hbase.2 j]; exact hr))

/-- The walk of a reclaim leaves no buffer of the owner but those it does not visit. -/
theorem reclaimWalk_keeps {o : Nat} : ∀ (l : List (Nat × Buf)) {s : State}, PoolsFit s → NoneWaits s o →
    let t := l.foldl (fun t e => effServe (returnBuf (e.1 / 65536) (e.1 % 65536) t)) s
    t.mews.pools = s.mews.pools ∧ ∀ x, OwnedAt t o x → OwnedAt s o x ∧ x ∉ l.map (·.1)
  | [], _, _, _ => ⟨rfl, fun _ h => ⟨h, List.not_mem_nil⟩⟩
  | e :: l, s, hfit, hwait => by
    obtain ⟨u, hu⟩ : ∃ u, effServe (returnBuf (e.1 / 65536) (e.1 % 65536) s) = u := ⟨_, rfl⟩
    obtain ⟨hfit', hwait', hpools, howned⟩ := returnServe_keeps hfit hwait hu
    obtain ⟨hpools', howned'⟩ := reclaimWalk_keeps l hfit' hwait'
    dsimp only
    rw [List.foldl_cons, hu]
    refine ⟨hpools'.trans hpools, fun x hx => ?_⟩
    obtain ⟨hin, hnot⟩ := howned' x hx
    obtain ⟨hin', hne⟩ := howned x hin
    refine ⟨hin', ?_⟩
    rw [List.map_cons, List.mem_cons]
    exact fun h => h.elim hne hnot

theorem reclaimDone_shows (hwf : MewsWf s) (hon : pageOn s pgMEWS = true) (hbusy : rdB s pgMEWS 0x0A8 0 = true)
    (hwait : ∀ k < 16, ∀ r ∈ s.mews.queues.get [] k, r.owner ≠ rdF s pgMEWS 0x0A8 13 8) :
    ∃ t, exec .reclaimDone s = .next t ∧ rdB t pgMEWS 0x0A8 0 = false ∧
      (∀ n i, i < 65536 → (poolOf s n).on = true → (bufOf t n i).held = true → (bufOf t n i).owner ≠ rdF s pgMEWS 0x0A8 13 8) := by
  obtain ⟨o, ho⟩ : ∃ o, rdF s pgMEWS 0x0A8 13 8 = o := ⟨_, rfl⟩
  rw [ho] at hwait ⊢
  obtain ⟨mine, hmine⟩ : ∃ l, s.mews.bufs.filter (fun e => e.2.held && decide (e.2.owner = o) && (poolOf s (e.1 / 65536)).on) = l := ⟨_, rfl⟩
  have hexec : exec .reclaimDone s = settle s (raise pgMEWS 0x103 sevINFO (o + satN 20 mine.length * 2 ^ 12)
      (wrN pgMEWS 0x0AC (mine.length % 2 ^ 20) (wrB pgMEWS 0x0A8 0 false
        (mine.foldl (fun t e => effServe (returnBuf (e.1 / 65536) (e.1 % 65536) t)) s)))) := by
    show execReclaimDone s = _
    unfold execReclaimDone
    rw [if_pos (by rw [hbusy, hon]; rfl), ho]
    dsimp only
    rw [hmine]
  obtain ⟨hpools, howned⟩ := reclaimWalk_keeps mine (mewsWf_iff.mp hwf).1 hwait
  obtain ⟨u, hu⟩ : ∃ u, mine.foldl (fun t e => effServe (returnBuf (e.1 / 65536) (e.1 % 65536) t)) s = u := ⟨_, rfl⟩
  rw [hu] at hexec
  simp only [hu] at hpools howned
  have hnone (x : Nat) : ¬OwnedAt u o x := fun h => by
    obtain ⟨⟨hheld, howner, hpon⟩, hnot⟩ := howned x h
    refine hnot (List.mem_map.mpr ⟨(x, bufAt s x), ?_, rfl⟩)
    rw [← hmine]
    refine List.mem_filter.mpr ⟨held_listed hheld, ?_⟩
    dsimp only
    rw [hheld, decide_eq_true howner, hpon]; rfl
  have hbit : rdB (wrB pgMEWS 0x0A8 0 false u) pgMEWS 0x0A8 0 = false := rdB_wrB _ _ _ _ _ (by decide)
  have hmews : (wrB pgMEWS 0x0A8 0 false u).mews = u.mews := rfl
  obtain ⟨v, hv⟩ : ∃ v, wrB pgMEWS 0x0A8 0 false u = v := ⟨_, rfl⟩
  rw [hv] at hexec hbit hmews
  obtain ⟨d, hd⟩ : ∃ d, o + satN 20 mine.length * 2 ^ 12 = d := ⟨_, rfl⟩
  obtain ⟨m, hm⟩ : ∃ m, mine.length % 2 ^ 20 = m := ⟨_, rfl⟩
  rw [hd, hm] at hexec
  have hbit' : rdB (raise pgMEWS 0x103 sevINFO d (wrN pgMEWS 0x0AC m v)) pgMEWS 0x0A8 0 = false :=
    (rdB_congr ((rd_raise (by decide) (by decide) ..).trans (rd_wrN_other (by decide) (by decide) (by decide) ..)) _).trans hbit
  have hmews' : (raise pgMEWS 0x103 sevINFO d (wrN pgMEWS 0x0AC m v)).mews = u.mews := (raise_mews ..).trans hmews
  obtain ⟨t, ht⟩ : ∃ t, raise pgMEWS 0x103 sevINFO d (wrN pgMEWS 0x0AC m v) = t := ⟨_, rfl⟩
  rw [ht] at hexec hbit' hmews'
  refine ⟨_, hexec.trans (settle_eq ..), hbit', fun n i hi hpon hheld howner => hnone (n * 65536 + i) ?_⟩
  replace hheld : (bufAt t (n * 65536 + i)).held = true := hheld
  replace howner : (bufAt t (n * 65536 + i)).owner = o := howner
  rw [bufAt_of_mews hmews'] at hheld howner
  refine ⟨hheld, howner, ?_⟩
  rw [show (n * 65536 + i) / 65536 = n by omega, poolOf_of_pools hpools]
  exact hpon

/-! ### Requests withdrawn -/

/-- The requests that `f` selects leave one queue. -/
def withdrawAt (f : MewsReq → Bool) (t : State) (k : Nat) : State :=
  { t with mews := { t.mews with queues := t.mews.queues.put [] k ((t.mews.queues.get [] k).filter (fun r => !f r)) } }

theorem queueAt_withdrawAt (f : MewsReq → Bool) (t : State) (k j : Nat) :
    queueAt (withdrawAt f t k) j = if j = k then (queueAt t k).filter (fun r => !f r) else queueAt t j := SMap.get_put ..

theorem withdrawAt_bufs (f : MewsReq → Bool) (t : State) (k : Nat) : (withdrawAt f t k).mews.bufs = t.mews.bufs := rfl

theorem withdrawAt_regs (f : MewsReq → Bool) (t : State) (k : Nat) : (withdrawAt f t k).regs = t.regs := rfl

theorem queueAt_withdrawAll (f : MewsReq → Bool) (s : State) (l : List Nat) (j : Nat) :
    queueAt (l.foldl (withdrawAt f) s) j = if j ∈ l then (queueAt s j).filter (fun r => !f r) else queueAt s j := by
  induction l generalizing s with
  | nil => rfl
  | cons k l ih =>
    rw [List.foldl_cons, ih, queueAt_withdrawAt]
    by_cases hjk : j = k
    · subst hjk
      rw [if_pos rfl, if_pos List.mem_cons_self, List.filter_filter]
      simp
    · rw [if_neg hjk]
      simp [hjk]

/-- What a withdrawal leaves: every register but the host's answer, and the buffers. -/
structure Withdraws (s t : State) : Prop where
  bufs : t.mews.bufs = s.mews.bufs
  queues : t.mews.queues = s.mews.queues
  regs : ∀ off, off < 0x1000 → off ≠ 0x08C → off ≠ 0x090 → rd t pgMEWS off = rd s pgMEWS off

theorem Withdraws.trans {s t u : State} (h : Withdraws s t) (g : Withdraws t u) : Withdraws s u :=
  ⟨g.bufs.trans h.bufs, g.queues.trans h.queues, fun off ho h1 h2 => (g.regs off ho h1 h2).trans (h.regs off ho h1 h2)⟩

theorem opAnswer_withdraws (op st h : Nat) (s : State) : Withdraws s (opAnswer op st h s) := by
  have hmews := opAnswer_mews op st h s
  refine ⟨congrArg MewsState.bufs hmews, congrArg MewsState.queues hmews, fun off ho h1 h2 => ?_⟩
  exact (rd_wrN_other (by decide) ho (fun h => h2 h.2) ..).trans (rd_wrN_other (by decide) ho (fun h => h1 h.2) ..)

theorem giveAnswer_withdraws (src : MewsSrc) (st h : Nat) (s : State) : Withdraws s (giveAnswer src st h s) := ⟨rfl, rfl, fun _ _ _ _ => rfl⟩

/-- The answer of a request that a fence withdraws. -/
def answerGone (t : State) (r : MewsReq) : State := match r.src with
  | .host _ => opAnswer 1 mwCANCELLED 0 t
  | src => giveAnswer src mwFENCED 0 t

theorem answerGone_withdraws (r : MewsReq) (t : State) : Withdraws t (answerGone t r) := by
  unfold answerGone
  split
  · exact opAnswer_withdraws ..
  · exact giveAnswer_withdraws ..

theorem mewsWithdraw_eq (f : MewsReq → Bool) (fenced : Bool) (s : State) :
    mewsWithdraw f fenced s = if fenced then (s.mews.queues.flatMap fun e => e.2.filter f).foldl answerGone ((List.range 16).foldl (withdrawAt f) s)
      else (List.range 16).foldl (withdrawAt f) s := rfl

theorem mewsWithdraw_shows (f : MewsReq → Bool) (fenced : Bool) (s : State) :
    (mewsWithdraw f fenced s).mews.bufs = s.mews.bufs ∧
      (∀ off, off < 0x1000 → off ≠ 0x08C → off ≠ 0x090 → rd (mewsWithdraw f fenced s) pgMEWS off = rd s pgMEWS off) ∧
      ∀ j < 16, queueAt (mewsWithdraw f fenced s) j = (queueAt s j).filter (fun r => !f r) := by
  have hqueues := queueAt_withdrawAll f s (List.range 16)
  have hbufs : ((List.range 16).foldl (withdrawAt f) s).mews.bufs = s.mews.bufs :=
    foldl_keeps (fun t : State => t.mews.bufs = s.mews.bufs) (withdrawAt f) (fun t k h => (withdrawAt_bufs f t k).trans h) _ rfl
  have hregs : ((List.range 16).foldl (withdrawAt f) s).regs = s.regs :=
    foldl_keeps (fun t : State => t.regs = s.regs) (withdrawAt f) (fun t k h => (withdrawAt_regs f t k).trans h) _ rfl
  rw [mewsWithdraw_eq]
  obtain ⟨u, hu⟩ : ∃ u, (List.range 16).foldl (withdrawAt f) s = u := ⟨_, rfl⟩
  simp only [hu] at hqueues hbufs hregs
  rw [hu]
  have hleft {t : State} (h : Withdraws u t) : t.mews.bufs = s.mews.bufs ∧
      (∀ off, off < 0x1000 → off ≠ 0x08C → off ≠ 0x090 → rd t pgMEWS off = rd s pgMEWS off) ∧
      ∀ j < 16, queueAt t j = (queueAt s j).filter (fun r => !f r) := by
    refine ⟨h.bufs.trans hbufs, fun off ho h1 h2 => (h.regs off ho h1 h2).trans (rd_of_regs hregs ..), fun j hj => ?_⟩
    rw [queueAt_of_queues h.queues, hqueues, if_pos (List.mem_range.mpr hj)]
  split
  · exact hleft (foldl_keeps (Withdraws u) answerGone (fun t r h => h.trans (answerGone_withdraws r t)) _ ⟨rfl, rfl, fun _ _ _ _ => rfl⟩)
  · exact hleft ⟨rfl, rfl, fun _ _ _ _ => rfl⟩

theorem cancel_shows (hmay : MayWrite s q pgMEWS 0x088) (hpend : hostPending s = true) :
    ∃ t, exec (.cancel q) s = .next t ∧ rdF t pgMEWS 0x08C 3 0 = mwCANCELLED ∧ t.mews.bufs = s.mews.bufs ∧
      ∀ k < 16, ∀ r ∈ t.mews.queues.get [] k, ∀ p, r.src ≠ .host p := by
  obtain ⟨f, hf⟩ : ∃ f : MewsReq → Bool, (fun r => match r.src with | .host _ => true | _ => false) = f := ⟨_, rfl⟩
  have hexec : exec (.cancel q) s = settle s (opAnswer 5 mwCANCELLED 0 (mewsWithdraw f false s)) := by
    rw [← hf]
    exact (exec_gate (k := effCancel q) rfl hmay).trans (congrArg (settle s) (if_pos hpend))
  obtain ⟨hbufs, -, hqueues⟩ := mewsWithdraw_shows f false s
  obtain ⟨u, hu⟩ : ∃ u, mewsWithdraw f false s = u := ⟨_, rfl⟩
  simp only [hu] at hexec hbufs hqueues
  obtain ⟨-, hstatus⟩ := opAnswer_shows (st := mwCANCELLED) 5 0 u (by decide)
  have hmews := opAnswer_mews 5 mwCANCELLED 0 u
  obtain ⟨t, ht⟩ : ∃ t, opAnswer 5 mwCANCELLED 0 u = t := ⟨_, rfl⟩
  rw [ht] at hexec hstatus hmews
  refine ⟨_, hexec.trans (settle_eq ..), hstatus, (congrArg MewsState.bufs hmews).trans hbufs, fun k hk r hr p hp => ?_⟩
  replace hr : r ∈ queueAt t k := hr
  rw [queueAt_of_queues (congrArg MewsState.queues hmews), hqueues k hk] at hr
  have hkept := (List.mem_filter.mp hr).2
  rw [← hf] at hkept
  dsimp only at hkept
  rw [hp] at hkept
  exact absurd hkept (by simp)

theorem mewsFenceWrite_shows (high : Bool) (w : Word) (hmay : MayWrite s q pgMEWS (0x0A0 + 4 * b2n high)) :
    ∃ t, exec (.mewsFenceWrite q high w) s = .next t ∧ rd t pgMEWS (0x0A0 + 4 * b2n high) = w ∧ t.mews.bufs = s.mews.bufs ∧
      ∀ k < 16, ∀ r ∈ t.mews.queues.get [] k, r.owner / 32 = b2n high → flag w (r.owner % 32) = true →
        flag (rd s pgMEWS (0x0A0 + 4 * b2n high)) (r.owner % 32) = true := by
  obtain ⟨off, hoff⟩ : ∃ off, 0x0A0 + 4 * b2n high = off := ⟨_, rfl⟩
  have hlt : off < 0x1000 ∧ off ≠ 0x08C ∧ off ≠ 0x090 := by rw [← hoff]; cases high <;> decide
  rw [hoff] at hmay ⊢
  obtain ⟨old, hold⟩ : ∃ old, rd s pgMEWS off = old := ⟨_, rfl⟩
  obtain ⟨base, hbase⟩ : ∃ base, (if high then 32 else 0 : Nat) = base := ⟨_, rfl⟩
  obtain ⟨f, hf⟩ : ∃ f : MewsReq → Bool, (fun r => decide (base ≤ r.owner) && decide (r.owner < base + 32) && flag w (r.owner - base)
    && !flag old (r.owner - base)) = f := ⟨_, rfl⟩
  have hword : rd (wr pgMEWS off w s) pgMEWS off = w := rd_wr_same ..
  have hexec : exec (.mewsFenceWrite q high w) s = settle s (mewsWithdraw f true (wr pgMEWS off w s)) := by
    have hgate : exec (.mewsFenceWrite q high w) s = settle s (effMewsFence high old (wr pgMEWS off w s)) := by
      rw [← hold]
      subst hoff
      exact exec_gate (c := .mewsFenceWrite q high w) (k := fun s => effMewsFence high (rd s pgMEWS (0x0A0 + 4 * b2n high)) (wr pgMEWS (0x0A0 + 4 * b2n high) w s)) rfl hmay
    rw [hgate, ← hf]
    unfold effMewsFence
    dsimp only
    rw [hoff, hword, hbase]
  have hmews : (wr pgMEWS off w s).mews = s.mews := rfl
  obtain ⟨v, hv⟩ : ∃ v, wr pgMEWS off w s = v := ⟨_, rfl⟩
  rw [hv] at hexec hmews hword
  obtain ⟨hbufs, hregs, hqueues⟩ := mewsWithdraw_shows f true v
  obtain ⟨t, ht⟩ : ∃ t, mewsWithdraw f true v = t := ⟨_, rfl⟩
  simp only [ht] at hexec hbufs hregs hqueues
  refine ⟨_, hexec.trans (settle_eq ..), (hregs off hlt.1 hlt.2.1 hlt.2.2).trans hword, hbufs.trans (congrArg MewsState.bufs hmews), fun k hk r hr hown hset => ?_⟩
  replace hr : r ∈ queueAt t k := hr
  rw [hqueues k hk] at hr
  have hkept := (List.mem_filter.mp hr).2
  have hb32 : base = 32 * (r.owner / 32) := by rw [hown, ← hbase]; cases high <;> rfl
  have hsub : r.owner - base = r.owner % 32 := by omega
  rw [← hf] at hkept
  dsimp only at hkept
  rw [hsub, hset, decide_eq_true (by omega), decide_eq_true (by omega)] at hkept
  rw [hold]
  simpa using hkept

/-! ### Pools -/

/-- A pool of a good configuration as it is switched on, every buffer of it free (R208). -/
def poolStarted (n : Nat) (s : State) : State :=
  let base := rdF s pgMEWS (0x100 + n * 0x20) 31 16 * 65536 + rdF s pgMEWS (0x104 + n * 0x20) 7 0 * 2 ^ 32
  let c := rd s pgMEWS (0x108 + n * 0x20)
  { s with mews := { s.mews with
      pools := s.mews.pools.put MewsPool.off n ⟨true, base, fld c 16 0, fld c 23 20⟩,
      bufs := s.mews.bufs.dropKeys (fun k => decide (k / 65536 = n)) } }

theorem effPoolOn_good {n : Nat} (hoff : (poolOf s n).on = false) (hgood : poolCfgBad s n = 0) : effPoolOn q n s = poolStarted n s := by
  unfold effPoolOn
  rw [if_neg (by rw [hoff]; decide)]
  exact if_neg (not_not_intro hgood)

theorem poolOf_poolStarted (n m : Nat) (s : State) : poolOf (poolStarted n s) m =
    if m = n then ⟨true, rdF s pgMEWS (0x100 + n * 0x20) 31 16 * 65536 + rdF s pgMEWS (0x104 + n * 0x20) 7 0 * 2 ^ 32,
      rdF s pgMEWS (0x108 + n * 0x20) 16 0, rdF s pgMEWS (0x108 + n * 0x20) 23 20⟩ else poolOf s m := by
  unfold poolOf poolStarted
  dsimp only
  exact SMap.get_put ..

theorem heldIn_poolStarted (n m : Nat) (s : State) : heldIn (poolStarted n s) m = if m = n then [] else heldIn s m := by
  show (s.mews.bufs.dropKeys (fun k => decide (k / 65536 = n))).filter (fun e => decide (e.1 / 65536 = m) && e.2.held) = _
  unfold SMap.dropKeys
  rw [List.filter_filter]
  by_cases h : m = n
  · rw [if_pos h, List.filter_eq_nil_iff]
    intro e _
    subst h
    simp only [Bool.and_eq_true, Bool.not_eq_true', decide_eq_true_eq, decide_eq_false_iff_not]
    exact fun he => he.2 he.1.1
  · rw [if_neg h]
    refine List.filter_congr fun e _ => ?_
    by_cases he : e.1 / 65536 = m
    · dsimp only
      rw [decide_eq_false (p := e.1 / 65536 = n) (by omega)]; simp
    · dsimp only
      rw [decide_eq_false he]; rfl

theorem poolOn_shows {n : Fin 8} (hmay : MayWrite s q pgMEWS (0x10C + n.val * 0x20)) (hoff : (poolOf s n.val).on = false)
    (hgood : poolCfgBad s n.val = 0) :
    ∃ t, exec (.poolOn q n) s = .next t ∧ (poolOf t n.val).on = true ∧ (poolOf t n.val).count = rdF s pgMEWS (0x108 + n.val * 0x20) 16 0 ∧
      heldIn t n.val = [] ∧ (∀ m, m ≠ n.val → poolOf t m = poolOf s m ∧ heldIn t m = heldIn s m) ∧ t.regs = s.regs := by
  obtain ⟨n, hn⟩ := n
  dsimp only at hmay hoff hgood ⊢
  have hexec : exec (.poolOn q ⟨n, hn⟩) s = settle s (poolStarted n s) :=
    (exec_gate (k := effPoolOn q n) rfl hmay).trans (congrArg (settle s) (effPoolOn_good hoff hgood))
  have hpools := poolOf_poolStarted n (s := s)
  have hheld := heldIn_poolStarted n (s := s)
  have hregs : (poolStarted n s).regs = s.regs := rfl
  obtain ⟨t, ht⟩ : ∃ t, poolStarted n s = t := ⟨_, rfl⟩
  simp only [ht] at hexec hpools hheld hregs
  refine ⟨_, hexec.trans (settle_eq ..), ?_, ?_, (hheld n).trans (if_pos rfl), fun m hm => ⟨(hpools m).trans (if_neg hm), (hheld m).trans (if_neg hm)⟩, hregs⟩
  · exact (congrArg MewsPool.on ((hpools n).trans (if_pos rfl))).trans rfl
  · exact (congrArg MewsPool.count ((hpools n).trans (if_pos rfl))).trans rfl

/-- A pool as it is switched off (R229). -/
def poolStopped (n : Nat) (s : State) : State := { s with mews := { s.mews with pools := s.mews.pools.put MewsPool.off n MewsPool.off } }

theorem poolOf_poolStopped (n m : Nat) (s : State) : poolOf (poolStopped n s) m = if m = n then MewsPool.off else poolOf s m := by
  unfold poolOf poolStopped
  dsimp only
  exact SMap.get_put ..

theorem poolOff_shows {n : Fin 8} (hmay : MayWrite s q pgMEWS (0x10C + n.val * 0x20)) (hon : (poolOf s n.val).on = true)
    (hheld : heldIn s n.val = []) (hrec : mewsQueue s n.val true = []) (hord : mewsQueue s n.val false = []) :
    ∃ t, exec (.poolOff q n) s = .next t ∧ poolOf t n.val = MewsPool.off ∧ (∀ m, m ≠ n.val → poolOf t m = poolOf s m) ∧ t.regs = s.regs := by
  have hexec : exec (.poolOff q n) s = settle s (poolStopped n.val s) :=
    (exec_gate (k := effPoolOff q n.val) rfl hmay).trans (congrArg (settle s) (if_neg (by rw [hon, hheld, hrec, hord]; decide)))
  have hpools := poolOf_poolStopped n.val (s := s)
  have hregs : (poolStopped n.val s).regs = s.regs := rfl
  obtain ⟨t, ht⟩ : ∃ t, poolStopped n.val s = t := ⟨_, rfl⟩
  simp only [ht] at hexec hpools hregs
  exact ⟨_, hexec.trans (settle_eq ..), (hpools _).trans (if_pos rfl), fun m hm => (hpools m).trans (if_neg hm), hregs⟩

end

/-! ### The waiting request served first -/

/-- Pools served before a pool leave its queue, its buffers and its grant condition. -/
structure ServesOther (n : Nat) (s t : State) : Prop where
  serves : Serves s t
  queue (recov : Bool) : mewsQueue t n recov = mewsQueue s n recov
  heldIn : heldIn t n = heldIn s n
  enabled : enabled t pgMEWS = enabled s pgMEWS

namespace ServesOther

variable {n : Nat} {s t u : State}

theorem refl (s : State) : ServesOther n s s := ⟨.refl s, fun _ => rfl, rfl, rfl⟩

theorem trans (h : ServesOther n s t) (g : ServesOther n t u) : ServesOther n s u :=
  ⟨h.serves.trans g.serves, fun r => (g.queue r).trans (h.queue r), g.heldIn.trans h.heldIn, g.enabled.trans h.enabled⟩

theorem canGrant (h : ServesOther n s t) (recov : Bool) : canGrant t n recov = canGrant s n recov := by
  unfold Machine.canGrant freeCount
  rw [h.enabled, h.heldIn, poolOf_of_pools h.serves.pools]

theorem iter {f : State → State} (hf : ∀ t, PoolsFit t → ServesOther n t (f t)) : ∀ (k : Nat) {s : State}, PoolsFit s →
    ServesOther n s (Machine.iter f k s)
  | 0, s, _ => refl s
  | k + 1, s, hs => (hf s hs).trans (iter hf k ((hf s hs).serves.fit hs))

end ServesOther

theorem filter_put_other {P : Nat × Buf → Bool} {k : Nat} (hP : ∀ v, P (k, v) = false) (v : Buf) (m : SMap Buf) :
    (m.put Buf.fresh k v).filter P = m.filter P := by
  unfold SMap.put
  split
  · unfold SMap.dropKeys
    rw [List.filter_filter]
    refine List.filter_congr fun e _ => ?_
    by_cases he : e.1 = k
    · have : P e = false := by rw [← hP e.2, ← he]
      rw [this]; rfl
    · simp [he]
  · induction m with
    | nil => simp [SMap.insert, hP]
    | cons e m ih =>
      obtain ⟨j, w⟩ := e
      unfold SMap.insert
      split
      · rw [List.filter_cons_of_neg (by rw [hP]; decide)]
      · split
        · rename_i hj
          subst hj
          rw [List.filter_cons_of_neg (by rw [hP]; decide), List.filter_cons_of_neg (by rw [hP]; decide)]
        · rw [List.filter_cons, List.filter_cons, ih]

theorem heldIn_setBuf_other {m n i : Nat} (hi : i < 65536) (hne : m ≠ n) (b : Buf) (s : State) : heldIn (setBuf m i b s) n = heldIn s n := by
  refine filter_put_other (k := m * 65536 + i) (fun v => ?_) b s.mews.bufs
  dsimp only
  rw [decide_eq_false (by omega)]; rfl

theorem heldIn_of_bufs {s t : State} (h : t.mews.bufs = s.mews.bufs) (n : Nat) : heldIn t n = heldIn s n := by unfold heldIn; rw [h]

theorem enabled_of_ctrl {s t : State} (h : Same ctrlOf s t) (p : Nat) : enabled t p = enabled s p := rdB_congr (h.rdCtrl p) 0

/-- A grant from one pool leaves the buffers of the others. -/
theorem heldIn_grantWaiting {m n : Nat} {s : State} {recov : Bool} (hne : m ≠ n) (hfit : PoolsFit s) (hgrant : canGrant s m recov = true) (r : MewsReq) :
    heldIn (grantWaiting m r s) n = heldIn s n := by
  obtain ⟨hidx, -⟩ := lowestFree_free (hfit m) (free_of_canGrant hgrant)
  obtain ⟨-, hbufs, -⟩ := grantWaiting_after m r s
  have hrep := grantBuf_reports m r s
  rw [heldIn_of_bufs hbufs, heldIn_of_bufs (hrep.field (·.mews.bufs))]
  exact heldIn_setBuf_other (Nat.lt_of_lt_of_le hidx (hfit m)) hne ..

theorem serveFront_other {m n : Nat} {s : State} {r : MewsReq} {rest : List MewsReq} {recov recov' : Bool} (hm : m < 8) (hne : m ≠ n) (hfit : PoolsFit s)
    (hqueue : mewsQueue s m recov = r :: rest) (hgrant : canGrant s m recov' = true) :
    ServesOther n s (grantWaiting m r (setQueue m recov rest s)) := by
  have hheld := heldIn_grantWaiting (s := setQueue m recov rest s) hne hfit hgrant r
  have hctrl := ctrl_grantWaiting hm r (setQueue m recov rest s)
  obtain ⟨-, -, hqueues, -⟩ := grantWaiting_after m r (setQueue m recov rest s)
  have hqueues' := (grantBuf_grants m r (setQueue m recov rest s)).queues
  refine ⟨grantFront_serves hm hfit hqueue hgrant, fun recov'' => ?_, hheld.trans (heldIn_of_bufs rfl n), (enabled_of_ctrl hctrl _).trans rfl⟩
  rw [mewsQueue_eq, queueAt_of_queues (hqueues.trans hqueues'), queueAt_setQueue, if_neg, ← mewsQueue_eq]
  cases recov <;> cases recov'' <;> simp [b2n] <;> omega

theorem serveOne_other {m n : Nat} (hm : m < 8) (hne : m ≠ n) {s : State} (hfit : PoolsFit s) : ServesOther n s (serveOne m s) := by
  unfold serveOne
  split
  · rename_i r rest hqueue hgrant
    exact serveFront_other hm hne hfit hqueue hgrant
  · split
    · rename_i r rest hqueue hgrant
      exact serveFront_other hm hne hfit hqueue hgrant
    · exact .refl s

theorem serveStep_other {m n : Nat} (hm : m < 8) (hne : m ≠ n) {s : State} (hfit : PoolsFit s) :
    ServesOther n s (if (poolOf s m).on then servePool m s else s) := by
  split
  · exact ServesOther.iter (fun _ => serveOne_other hm hne) _ hfit
  · exact .refl s

/-- The request at the front of a pool's recovery queue has been granted. -/
structure FrontServed (n : Nat) (r : MewsReq) (rest : List MewsReq) (h : Nat) (t : State) : Prop where
  queue : mewsQueue t n true <:+ rest
  answer : ⟨r.src, mwOK, h⟩ ∈ t.mews.answers
  pool : hPool h = n
  current : current t h = true
  owner : (bufOf t n (hIndex h)).owner = r.owner

theorem FrontServed.serves {n h : Nat} {r : MewsReq} {rest : List MewsReq} {t u : State} (hf : FrontServed n r rest h t) (hs : Serves t u) :
    FrontServed n r rest h u := by
  have hheld := hs.held (n * 65536 + hIndex h) (by rw [← hf.pool]; exact (current_iff.mp hf.current).2.2.1)
  exact ⟨(hs.queues _).trans hf.queue, hs.answers.subset hf.answer, hf.pool, hs.current hf.current, by rw [bufOf_eq, hheld]; exact hf.owner⟩

theorem serveOne_front {n : Nat} {r : MewsReq} {rest : List MewsReq} {s : State} (hn : n < 8) (hwf : MewsWf s) (hon : (poolOf s n).on = true)
    (hqueue : mewsQueue s n true = r :: rest) (hgrant : canGrant s n true = true) (hsrc : ∀ q, r.src ≠ .host q) :
    ∃ h, FrontServed n r rest h (serveOne n s) := by
  have hone : serveOne n s = grantWaiting n r (setQueue n true rest s) := by
    unfold serveOne; rw [hqueue, hgrant]
  rw [hone]
  have hwf' : MewsWf (setQueue n true rest s) := hwf
  have hon' : (poolOf (setQueue n true rest s) n).on = true := hon
  have hgrant' : canGrant (setQueue n true rest s) n true = true := hgrant
  have hq := queueAt_setQueue n true rest s (2 * n + (1 - b2n true))
  rw [if_pos rfl] at hq
  obtain ⟨v, hv⟩ : ∃ v, setQueue n true rest s = v := ⟨_, rfl⟩
  rw [hv] at hwf' hon' hgrant' hq ⊢
  obtain ⟨hp, hcur, hbuf, -, -⟩ := grantBuf_current hwf' hn hon' hgrant' r
  have hqueues := (grantBuf_grants n r v).queues
  obtain ⟨apools, abufs, aqueues, -, -, aanswer⟩ := grantWaiting_after n r v
  obtain ⟨⟨h, u⟩, hg⟩ : ∃ g, grantBuf n r v = g := ⟨_, rfl⟩
  obtain ⟨t, ht⟩ : ∃ t, grantWaiting n r v = t := ⟨_, rfl⟩
  simp only [hg] at hp hcur hbuf hqueues
  simp only [hg, ht] at apools abufs aqueues aanswer
  rw [ht]
  have hat (k : Nat) : bufAt t k = bufAt u k := by unfold bufAt; rw [abufs]
  refine ⟨h, ?_, aanswer hsrc, hp, current_congr (poolOf_of_pools apools _) (hat _) hcur, ?_⟩
  · have hq' : mewsQueue t n true = rest := (queueAt_of_queues (aqueues.trans hqueues) _).trans hq
    exact hq' ▸ List.suffix_rfl
  · rw [bufOf_eq, hat, ← bufOf_eq, hbuf]; rfl

theorem servePool_front {n : Nat} {r : MewsReq} {rest : List MewsReq} {s : State} (hn : n < 8) (hwf : MewsWf s) (hon : (poolOf s n).on = true)
    (hqueue : mewsQueue s n true = r :: rest) (hgrant : canGrant s n true = true) (hsrc : ∀ q, r.src ≠ .host q) :
    ∃ h, FrontServed n r rest h (servePool n s) := by
  obtain ⟨h, hf⟩ := serveOne_front hn hwf hon hqueue hgrant hsrc
  have hfit := (mewsWf_iff.mp hwf).1
  obtain ⟨k, hk⟩ : ∃ k, (mewsQueue s n true).length + (mewsQueue s n false).length = k + 1 := by
    rw [hqueue, List.length_cons]; exact ⟨rest.length + (mewsQueue s n false).length, by omega⟩
  refine ⟨h, ?_⟩
  unfold servePool
  rw [hk]
  exact hf.serves (Serves.iter (fun _ => serveOne_serves hn) k ((serveOne_serves hn hfit).fit hfit))

theorem effServe_split {n : Nat} (hn : n < 8) (s : State) : ∃ before after : List Nat, (∀ m ∈ before, m < 8 ∧ m ≠ n) ∧ (∀ m ∈ after, m < 8) ∧
    effServe s = after.foldl (fun t n => if (poolOf t n).on then servePool n t else t)
      (if (poolOf (before.foldl (fun t n => if (poolOf t n).on then servePool n t else t) s) n).on
        then servePool n (before.foldl (fun t n => if (poolOf t n).on then servePool n t else t) s)
        else before.foldl (fun t n => if (poolOf t n).on then servePool n t else t) s) := by
  obtain ⟨before, after, hsplit⟩ := List.append_of_mem (List.mem_range.mpr hn)
  have hnodup : (before ++ n :: after).Nodup := hsplit ▸ List.nodup_range
  have hlt (m : Nat) (hm : m ∈ before ++ n :: after) : m < 8 := List.mem_range.mp (hsplit ▸ hm)
  refine ⟨before, after, fun m hm => ⟨hlt m (List.mem_append_left _ hm), ?_⟩, fun m hm => hlt m (List.mem_append_right _ (List.mem_cons_of_mem _ hm)), ?_⟩
  · rintro rfl
    exact (List.nodup_append.mp hnodup).2.2 _ hm _ List.mem_cons_self rfl
  · unfold effServe
    rw [hsplit, List.foldl_append, List.foldl_cons]

theorem allocGranted_shows {n u : Nat} {r : MewsReq} {rest : List MewsReq} {s : State} (hn : n < 8) (hwf : MewsWf s) (hon : pageOn s pgMEWS = true)
    (hpon : (poolOf s n).on = true) (hqueue : mewsQueue s n true = r :: rest) (hgrant : canGrant s n true = true) (hsrc : r.src = .stream u) :
    ∃ t h, exec .allocGranted s = .next t ∧ mewsQueue t n true <:+ rest ∧ ⟨r.src, mwOK, h⟩ ∈ t.mews.answers ∧ hPool h = n ∧
      current t h = true ∧ (bufOf t n (hIndex h)).owner = r.owner := by
  have hexec : exec .allocGranted s = settle s (effServe s) := congrArg (settle s) (if_pos hon)
  obtain ⟨hfit, hgens⟩ := mewsWf_iff.mp hwf
  obtain ⟨before, after, hbefore, hafter, hsplit⟩ := effServe_split hn s
  have hother : ServesOther n s (before.foldl (fun t n => if (poolOf t n).on then servePool n t else t) s) :=
    foldl_keeps_mem (ServesOther n s) _ _
      (fun _ m hm ht => ht.trans (serveStep_other (hbefore m hm).1 (hbefore m hm).2 (ht.serves.fit hfit))) (.refl s)
  obtain ⟨v, hv⟩ : ∃ v, before.foldl (fun t n => if (poolOf t n).on then servePool n t else t) s = v := ⟨_, rfl⟩
  rw [hv] at hother hsplit
  have hpools := hother.serves.pools
  have hwfv : MewsWf v := mewsWf_iff.mpr ⟨hother.serves.fit hfit, fun k => by rw [hother.serves.gens]; exact hgens k⟩
  have hponv : (poolOf v n).on = true := by rw [poolOf_of_pools hpools]; exact hpon
  obtain ⟨h, hfront⟩ := servePool_front hn hwfv hponv ((hother.queue true).trans hqueue) ((hother.canGrant true).trans hgrant)
    (fun q e => by rw [hsrc] at e; cases e)
  have hfitw := (servePool_serves hn (mewsWf_iff.mp hwfv).1).fit (mewsWf_iff.mp hwfv).1
  rw [if_pos hponv] at hsplit
  obtain ⟨w, hw⟩ : ∃ w, servePool n v = w := ⟨_, rfl⟩
  rw [hw] at hsplit hfront hfitw
  have hdone := hfront.serves (servePools_serves hafter hfitw)
  rw [← hsplit] at hdone
  obtain ⟨t, ht⟩ : ∃ t, effServe s = t := ⟨_, rfl⟩
  rw [ht] at hexec hdone
  exact ⟨_, h, hexec.trans (settle_eq ..), hdone.queue, hdone.answer, hdone.pool, hdone.current, hdone.owner⟩

/-- Settles O26. -/
theorem reclaimPoolsAndWaiters : Obligations.ReclaimPoolsAndWaiters :=
  ⟨⟨fun _ _ => reclaim_shows, fun _ => reclaimDone_shows, fun _ _ => cancel_shows, fun _ high w _ => mewsFenceWrite_shows high w⟩,
    fun _ _ _ => poolOn_shows, fun _ _ _ => poolOff_shows, fun _ _ _ _ _ => allocGranted_shows⟩

end Sys2Proof.Machine
end

section
/-!
PROOFS. Every operation of the Mews keeps generations in 1 to 8191 and pools within their indices (R211).
-/
namespace Sys2Proof.Machine

/-! ### What R211 looks at -/

/-- The pools and the buffer entries: all that R211 speaks of. -/
def mewsOf (s : State) : SMap MewsPool × SMap Buf := (s.mews.pools, s.mews.bufs)

/-- An operation that keeps the Mews well formed. -/
structure KeepsWf (s t : State) : Prop where
  keeps : MewsWf s → MewsWf t

theorem KeepsWf.refl (s : State) : KeepsWf s s := ⟨id⟩

/-- The last operation first, as a function's body shows it. -/
theorem KeepsWf.after {s t u : State} (g : KeepsWf t u) (h : KeepsWf s t) : KeepsWf s u := ⟨fun hs => g.keeps (h.keeps hs)⟩

theorem KeepsWf.ite {c : Prop} [Decidable c] {s a b : State} (ha : KeepsWf s a) (hb : KeepsWf s b) : KeepsWf s (if c then a else b) := by
  split
  · exact ha
  · exact hb

theorem KeepsWf.foldl {β : Type} {g : State → β → State} (h : ∀ t x, KeepsWf t (g t x)) (l : List β) (s : State) : KeepsWf s (l.foldl g s) :=
  foldl_keeps (KeepsWf s) g (fun t x ht => (h t x).after ht) l (.refl s)

theorem KeepsWf.iter {g : State → State} (h : ∀ t, KeepsWf t (g t)) : ∀ (n : Nat) (s : State), KeepsWf s (iter g n s)
  | 0, s => .refl s
  | n + 1, s => (KeepsWf.iter h n (g s)).after (h s)

theorem mewsWf_of {s t : State} (hpools : t.mews.pools = s.mews.pools) (hbufs : t.mews.bufs = s.mews.bufs) : KeepsWf s t :=
  ⟨fun h n => by
    unfold poolOf bufOf
    rw [hpools, hbufs]; exact h n⟩

theorem KeepsWf.same {s t : State} (h : Same mewsOf s t) : KeepsWf s t :=
  mewsWf_of (congrArg Prod.fst h) (congrArg Prod.snd h)

theorem KeepsWf.reports {s t : State} (h : ReportsOnly s t) : KeepsWf s t := .same (.reports h)

theorem KeepsWf.gate {q : Port} {p off : Nat} {k : State → State} {s : State} (hk : KeepsWf s (k s)) : KeepsWf s (gateWrite q p off k s) :=
  .ite (.refl s) (.ite (.reports (refuse_reports ..)) (.ite (.reports (refuse_reports ..)) (.ite (.reports (refuse_reports ..)) hk)))

theorem KeepsWf.of_settle {s t u : State} (ht : settle s u = .next t) (h : KeepsWf s u) : KeepsWf s t := by
  rw [settle_next ht]
  exact ⟨fun hs => (mewsWf_of (s := u) rfl rfl).keeps (h.keeps hs)⟩

/-! ### Buffers and grants -/

theorem setBuf_keepsWf {n i : Nat} {b : Buf} {s : State} (hb : MewsWf s → 1 ≤ b.gen ∧ b.gen ≤ 8191) : KeepsWf s (setBuf n i b s) := by
  refine ⟨fun h => ?_⟩
  have hgens := (mewsWf_iff.mp h).2
  refine mewsWf_iff.mpr ⟨(mewsWf_iff.mp h).1, fun k => ?_⟩
  rw [bufAt_setBuf]
  split
  · exact hb h
  · exact hgens k

theorem gen_bounds {s : State} (h : MewsWf s) (n i : Nat) : 1 ≤ (bufOf s n i).gen ∧ (bufOf s n i).gen ≤ 8191 := (h n).2 i

theorem returnBuf_keepsWf (n i : Nat) (s : State) : KeepsWf s (returnBuf n i s) := setBuf_keepsWf fun h => nextGen_bounds (gen_bounds h n i)

theorem commitTent_keepsWf (h : Nat) (s : State) : KeepsWf s (commitTent h s) := setBuf_keepsWf fun hwf => gen_bounds hwf ..

theorem grantBuf_keepsWf (n : Nat) (r : MewsReq) (s : State) : KeepsWf s (grantBuf n r s).2 :=
  (KeepsWf.reports (grantBuf_reports n r s)).after (setBuf_keepsWf fun h => gen_bounds h ..)

theorem opAnswer_keepsWf (op st h : Nat) (s : State) : KeepsWf s (opAnswer op st h s) := .reports (opAnswer_reports ..)

theorem giveAnswer_keepsWf (src : MewsSrc) (st h : Nat) (s : State) : KeepsWf s (giveAnswer src st h s) := mewsWf_of rfl rfl

theorem setQueue_keepsWf (n : Nat) (recov : Bool) (l : List MewsReq) (s : State) : KeepsWf s (setQueue n recov l s) := mewsWf_of rfl rfl

theorem grantWaiting_keepsWf (n : Nat) (r : MewsReq) (s : State) : KeepsWf s (grantWaiting n r s) := by
  unfold grantWaiting; dsimp only
  split
  · exact (KeepsWf.reports (raise_reports ..)).after ((opAnswer_keepsWf ..).after (grantBuf_keepsWf n r s))
  · exact (giveAnswer_keepsWf ..).after (grantBuf_keepsWf n r s)

theorem serveOne_keepsWf (n : Nat) (s : State) : KeepsWf s (serveOne n s) := by
  unfold serveOne
  split
  · exact (grantWaiting_keepsWf ..).after (setQueue_keepsWf ..)
  · split
    · exact (grantWaiting_keepsWf ..).after (setQueue_keepsWf ..)
    · exact .refl s

theorem effServe_keepsWf (s : State) : KeepsWf s (effServe s) :=
  .foldl (fun t n => .ite (.iter (serveOne_keepsWf n) _ t) (.refl t)) _ s

/-! ### Requests, returns and withdrawals -/

theorem queueIt_keepsWf (r : MewsReq) (wait : Bool) (n : Nat) (s : State) : KeepsWf s (mewsAsk.queueIt r wait s n).2.2 := by
  unfold mewsAsk.queueIt
  split
  · exact .refl s
  · dsimp only
    exact .ite ((KeepsWf.reports (raise_reports ..)).after (setQueue_keepsWf ..)) (setQueue_keepsWf ..)

theorem mewsAsk_keepsWf (r : MewsReq) (fromHost spill wait : Bool) (s : State) : KeepsWf s (mewsAsk r fromHost spill wait s).2.2 := by
  unfold mewsAsk
  split
  · exact .refl s
  · split
    · exact .refl s
    · split
      · exact .refl s
      · split
        · exact grantBuf_keepsWf ..
        · dsimp only
          split
          · split
            · exact grantBuf_keepsWf ..
            · exact queueIt_keepsWf ..
          · exact queueIt_keepsWf ..

theorem checkHandle_keepsWf (h : Nat) (asker : Option Nat) (s : State) : KeepsWf s (checkHandle h asker s).2 := by
  unfold checkHandle
  split
  · exact .refl s
  · split
    · exact .refl s
    · split
      · dsimp only; exact .reports (raise_reports ..)
      · split
        · split
          · dsimp only; exact .reports (raise_reports ..)
          · exact .refl s
        · exact .refl s

theorem mewsFree_keepsWf (h : Nat) (asker : Option Nat) (s : State) : KeepsWf s (mewsFree h asker s).2 := by
  have hcheck := checkHandle_keepsWf h asker s
  unfold mewsFree
  obtain ⟨c, hc⟩ : ∃ c, checkHandle h asker s = c := ⟨_, rfl⟩
  rw [hc] at hcheck ⊢
  dsimp only
  split
  · exact hcheck
  · dsimp only
    exact KeepsWf.after (effServe_keepsWf _) (KeepsWf.after (returnBuf_keepsWf ..) hcheck)

theorem mewsTransfer_keepsWf (h o : Nat) (asker : Option Nat) (s : State) : KeepsWf s (mewsTransfer h o asker s).2 := by
  have hcheck := checkHandle_keepsWf h asker s
  unfold mewsTransfer
  obtain ⟨c, hc⟩ : ∃ c, checkHandle h asker s = c := ⟨_, rfl⟩
  rw [hc] at hcheck ⊢
  dsimp only
  split
  · exact hcheck
  · split
    · exact hcheck
    · refine ⟨fun hwf => ?_⟩
      dsimp only
      refine (setBuf_keepsWf fun _ => ?_).keeps (hcheck.keeps hwf)
      exact gen_bounds hwf (hPool h) (hIndex h)

theorem withdrawAt_keepsWf (f : MewsReq → Bool) (s : State) (k : Nat) : KeepsWf s (withdrawAt f s k) := mewsWf_of rfl rfl

theorem answerGone_keepsWf (s : State) (r : MewsReq) : KeepsWf s (answerGone s r) := by
  unfold answerGone
  split
  · exact opAnswer_keepsWf ..
  · exact giveAnswer_keepsWf ..

theorem mewsWithdraw_keepsWf (f : MewsReq → Bool) (fenced : Bool) (s : State) : KeepsWf s (mewsWithdraw f fenced s) := by
  rw [mewsWithdraw_eq]
  have hqueues : KeepsWf s ((List.range 16).foldl (withdrawAt f) s) := .foldl (withdrawAt_keepsWf f) _ s
  exact .ite ((KeepsWf.foldl answerGone_keepsWf _ _).after hqueues) hqueues

theorem takeAnswer_keepsWf (src : MewsSrc) (s : State) : KeepsWf s (takeAnswer src s).2 := by
  unfold takeAnswer
  split
  · exact mewsWf_of rfl rfl
  · exact .refl s

theorem mewsDrop_keepsWf (src : MewsSrc) (s : State) : KeepsWf s (mewsDrop src s) := (takeAnswer_keepsWf ..).after (mewsWithdraw_keepsWf ..)

/-- The answers given to a source taken back. -/
theorem withAnswers_keepsWf (l : List MewsAnswer) (s : State) : KeepsWf s { s with mews := { s.mews with answers := l } } := mewsWf_of rfl rfl

theorem mewsDropAhead_keepsWf (u : Nat) (s : State) : KeepsWf s (mewsDropAhead u s) := by
  unfold mewsDropAhead; dsimp only
  refine (effServe_keepsWf _).after (.after (.foldl (fun t a => ?_) _ _) ((withAnswers_keepsWf _ _).after (mewsWithdraw_keepsWf _ _ s)))
  exact .ite (returnBuf_keepsWf ..) (.refl t)

/-! ### The host's operations -/

theorem unlessPending_keepsWf {q : Port} {k : State → State} {s : State} (hk : KeepsWf s (k s)) : KeepsWf s (unlessPending q k s) :=
  .ite (.reports (refuse_reports ..)) hk

theorem effAlloc_keepsWf (q : Port) (s : State) : KeepsWf s (effAlloc q s) :=
  unlessPending_keepsWf ((opAnswer_keepsWf ..).after (mewsAsk_keepsWf ..))

theorem effFree_keepsWf (q : Port) (s : State) : KeepsWf s (effFree q s) :=
  unlessPending_keepsWf ((opAnswer_keepsWf ..).after (mewsFree_keepsWf ..))

theorem effTransfer_keepsWf (q : Port) (s : State) : KeepsWf s (effTransfer q s) :=
  unlessPending_keepsWf ((opAnswer_keepsWf ..).after (mewsTransfer_keepsWf ..))

theorem effReclaim_keepsWf (q : Port) (s : State) : KeepsWf s (effReclaim q s) := by
  refine unlessPending_keepsWf ?_
  dsimp only
  refine .ite (opAnswer_keepsWf ..) (.ite (opAnswer_keepsWf ..) (.ite (opAnswer_keepsWf ..) ((opAnswer_keepsWf ..).after ?_)))
  exact .reports ((wrN_reports ..).trans (wrN_reports ..))

theorem effCancel_keepsWf (q : Port) (s : State) : KeepsWf s (effCancel q s) :=
  .ite ((opAnswer_keepsWf ..).after (mewsWithdraw_keepsWf ..)) (.reports (refuse_reports ..))

theorem effMewsFence_keepsWf (high : Bool) (old : Word) (s : State) : KeepsWf s (effMewsFence high old s) := by
  unfold effMewsFence; exact mewsWithdraw_keepsWf ..

theorem fld_count_le {s : State} {n : Nat} (h : poolCfgBad s n = 0) : rdF s pgMEWS (0x108 + n * 0x20) 16 0 ≤ 65536 := by
  unfold poolCfgBad at h
  dsimp only at h
  by_cases hc : rdF s pgMEWS (0x108 + n * 0x20) 16 0 = 0 ∨ 65536 < rdF s pgMEWS (0x108 + n * 0x20) 16 0
  · rw [if_pos hc] at h; cases h
  · omega

theorem bufAt_poolStarted (n : Nat) (s : State) (k : Nat) : bufAt (poolStarted n s) k = if k / 65536 = n then Buf.fresh else bufAt s k := by
  unfold bufAt poolStarted
  dsimp only
  rw [SMap.get_dropKeys]
  by_cases h : k / 65536 = n
  · rw [if_pos h, if_pos (decide_eq_true h)]
  · rw [if_neg h, if_neg (by rw [decide_eq_false h]; decide)]

theorem poolStarted_keepsWf {n : Nat} {s : State} (hgood : poolCfgBad s n = 0) : KeepsWf s (poolStarted n s) := by
  refine ⟨fun h => ?_⟩
  obtain ⟨hfit, hgens⟩ := mewsWf_iff.mp h
  refine mewsWf_iff.mpr ⟨fun m => ?_, fun k => ?_⟩
  · rw [poolOf_poolStarted]
    split
    · exact fld_count_le hgood
    · exact hfit m
  · rw [bufAt_poolStarted]
    split
    · exact ⟨Nat.le_refl 1, by decide⟩
    · exact hgens k

theorem effPoolOn_keepsWf (q : Port) (n : Nat) (s : State) : KeepsWf s (effPoolOn q n s) := by
  by_cases hon : (poolOf s n).on = true
  · unfold effPoolOn
    rw [if_pos hon]
    exact .reports (refuse_reports ..)
  · by_cases hgood : poolCfgBad s n = 0
    · rw [effPoolOn_good (Bool.not_eq_true _ ▸ hon) hgood]
      exact poolStarted_keepsWf hgood
    · unfold effPoolOn
      rw [if_neg hon]
      dsimp only
      rw [if_pos hgood]
      exact .reports (raise_reports ..)

theorem poolStopped_keepsWf (n : Nat) (s : State) : KeepsWf s (poolStopped n s) := by
  refine ⟨fun h => ?_⟩
  obtain ⟨hfit, hgens⟩ := mewsWf_iff.mp h
  refine mewsWf_iff.mpr ⟨fun m => ?_, hgens⟩
  rw [poolOf_poolStopped]
  split
  · exact Nat.zero_le _
  · exact hfit m

theorem effPoolOff_keepsWf (q : Port) (n : Nat) (s : State) : KeepsWf s (effPoolOff q n s) :=
  .ite (.reports (refuse_reports ..)) (poolStopped_keepsWf n s)

theorem reclaimDone_keepsWf {s t : State} (ht : exec .reclaimDone s = .next t) : KeepsWf s t := by
  by_cases hc : (rdB s pgMEWS 0x0A8 0 && pageOn s pgMEWS) = true
  · have hexec := ht
    change execReclaimDone s = .next t at hexec
    unfold execReclaimDone at hexec
    rw [if_pos hc] at hexec
    refine .of_settle hexec ?_
    refine (KeepsWf.reports (raise_reports ..)).after ((KeepsWf.reports (wrN_reports ..)).after ((KeepsWf.reports (wrB_reports ..)).after ?_))
    exact .foldl (fun u e => (effServe_keepsWf _).after (returnBuf_keepsWf ..)) _ s
  · have hexec := ht
    change execReclaimDone s = .next t at hexec
    unfold execReclaimDone at hexec
    rw [if_neg hc] at hexec
    cases hexec
    exact .refl s

/-! ### A stream unit's instructions -/

theorem mews_semServeOne (n : Nat) (e : Bool) (s : State) : Same mewsOf s (semServeOne n e s) := by
  have hset (v : Nat) : Same mewsOf s (setSem n e v s) := .ite (.reports (wrF_reports ..)) (.reports (wrF_reports ..))
  have hsema (t : State) (m : SemaState) : Same mewsOf t { t with sema := m } := rfl
  unfold semServeOne; split
  · exact .ite ((hsema _ _).after ((hsema _ _).after (hset _))) (.refl s)
  · exact .refl s

theorem mews_semServe (n : Nat) (e : Bool) (s : State) : Same mewsOf s (semServe n e s) := same_iter (mews_semServeOne n e) ..

theorem mews_withSema (m : SemaState) (s : State) : Same mewsOf s { s with sema := m } := rfl

theorem mews_semWithdraw (f : SemWho → Bool) (s : State) : Same mewsOf s (semWithdraw f s) := by
  unfold semWithdraw; dsimp only
  exact (mews_withSema ..).after (.foldl (fun t k => (mews_semServe ..).after (mews_withSema _ t)) ..)

theorem mews_modUnit (u : Nat) (f : StreamUnit → StreamUnit) (s : State) : Same mewsOf s (modUnit u f s) := rfl

theorem mews_modJobs (p : Nat) (f : PageJobs → PageJobs) (s : State) : Same mewsOf s (modJobs p f s) := rfl

theorem mews_setEndpoint (p q : Nat) (e : Endpoint) (s : State) : Same mewsOf s (setEndpoint p q e s) := rfl

theorem stallEnd_reports (p : Nat) (s : State) : ReportsOnly s (stallEnd p s) := by
  unfold stallEnd; split
  · exact (wrB_reports ..).trans (raise_reports ..)
  · exact rfl

theorem mews_finish (p st d : Nat) (s : State) : Same mewsOf s (finish p st d s) := by
  unfold finish finishIf jobEnded
  exact .ite ((Same.reports (syncQuiesced_reports ..)).after ((Same.reports (stallEnd_reports ..)).after (mews_modJobs ..))) (mews_modJobs ..)

theorem strmStop_keepsWf (u : Nat) (s : State) : KeepsWf s (strmStop u s) := by
  have hdrop : KeepsWf s (mewsDrop (.stream u) (mewsDropAhead u (semWithdraw (fun w => decide (w = .stream u)) s))) :=
    (mewsDrop_keepsWf ..).after ((mewsDropAhead_keepsWf ..).after (.same (mews_semWithdraw ..)))
  unfold strmStop discardAhead
  exact (KeepsWf.same (mews_modUnit ..)).after ((KeepsWf.same (mews_modUnit ..)).after hdrop)

theorem strmEnd_keepsWf (u st d : Nat) (s : State) : KeepsWf s (strmEnd u st d s) := (KeepsWf.same (mews_finish ..)).after (strmStop_keepsWf ..)

theorem strmDeadline_keepsWf (u : Nat) (s : State) : KeepsWf s (strmDeadline u s) := by
  unfold strmDeadline; split
  · exact (strmEnd_keepsWf ..).after (.reports (raise_reports ..))
  · exact .refl s

theorem atInsn_keepsWf {u op : Nat} {k : Nat → State → State} {s : State} (hk : ∀ n, KeepsWf s (k n s)) : KeepsWf s (atInsn u op k s) := by
  unfold atInsn; split
  · exact .refl s
  · dsimp only
    exact .ite (.refl s) (.ite (strmDeadline_keepsWf ..) (hk _))

theorem mews_commitTo (u pc : Nat) (s : State) : Same mewsOf s (commitTo u pc s) :=
  (mews_modJobs ..).after ((Same.reports (stallEnd_reports ..)).after (mews_modUnit ..))

theorem mews_accounted {s t : State} (h : Accounted s t) : Same mewsOf s t := h.field mewsOf

theorem mews_takeRow (u : Nat) : ∀ (l : List (Nat × Nat)) (s : State), Same mewsOf s (takeRow u l s).2.2
  | [], s => .refl s
  | (a, n) :: l, s => by
    have hline : Same mewsOf s (takeLine u a n s).2.2 := by
      unfold takeLine; dsimp only; split
      · exact mews_modUnit ..
      · exact mews_accounted (readAs_accounted ..)
    unfold takeRow; dsimp only
    exact (mews_takeRow u l _).after hline

theorem mews_portWrite (w p q : Nat) (h : Bool) (off : Nat) (bs : List Byte) (s : State) : Same mewsOf s (portWrite w p q h off bs s) :=
  .ite (.refl s) (.ite (.reports (raise_reports ..)) (mews_setEndpoint ..))

theorem mews_writeAs (src : ReqSource) (a : Nat) (bs : List Byte) (s : State) : Same mewsOf s (writeAs src a bs s).2 :=
  mews_accounted (writeAs_accounted ..)

theorem mews_moveRow (u : Nat) (v : StreamUnit) (sp : Option Bool) (src : Nat) (dst : XferDst) (off x : Nat) (s : State) :
    Same mewsOf s (moveRow u v sp src dst off x s).2 := by
  have hread : ∀ r : List Byte × Option Nat × State, Same mewsOf s r.2.2 → Same mewsOf s
      (match r.2.1 with
        | some a => (some (stABORT_POISON, a), r.2.2)
        | none => match dst with
          | .mem b =>
            let w := writeAs (srcUnit u) (b + off) r.1 (dropOverlap u (b + off) x r.2.2)
            match w.1 with
            | some a => (some (stWR_POISONED, a), w.2)
            | none => (none, incCnt64 (pgSTRM u) 0x0A4 x w.2)
          | .port page port h b => (none, incCnt64 (pgSTRM u) 0x0A4 x (portWrite (pgSTRM u) page port h (b + off) r.1 r.2.2)) :
            Option (Nat × Nat) × State).2 := by
    rintro ⟨bs, p, t⟩ ht
    dsimp only at ht ⊢
    split
    · exact ht
    · split
      · have hw := mews_writeAs (srcUnit u)
        split
        · exact (hw ..).after ((mews_modUnit ..).after ht)
        · exact (Same.reports (incCnt64_reports ..)).after ((hw ..).after ((mews_modUnit ..).after ht))
      · exact (Same.reports (incCnt64_reports ..)).after ((mews_portWrite ..).after ht)
  unfold moveRow
  refine hread _ ?_
  split
  · split
    · exact .refl s
    · exact .refl s
  · exact mews_takeRow ..

theorem mews_moveRows (u : Nat) (v : StreamUnit) (sp : Option Bool) (dst : XferDst) (x : Nat) : ∀ (l : List (Nat × Nat)) (s : State),
    Same mewsOf s (moveRows u v sp dst x l s).2
  | [], s => .refl s
  | (a, o) :: l, s => by
    have hrow := mews_moveRow u v sp a dst o x s
    unfold moveRows; dsimp only
    split
    · exact hrow
    · exact (mews_moveRows u v sp dst x l _).after hrow

theorem xferMove_keepsWf (u n src base : Nat) (dst : XferDst) {k : State → State} (hk : ∀ t, KeepsWf t (k t)) (s : State) :
    KeepsWf s (xferMove u n src base dst k s) := by
  unfold xferMove; dsimp only
  split
  · exact (strmEnd_keepsWf ..).after (.same (mews_moveRows ..))
  · exact (hk _).after (.same (mews_moveRows ..))

theorem xferIncs_keepsWf (u n : Nat) (s : State) : KeepsWf s (xferIncs u n s) := by
  have hmod (i : Nat) (f : Nat → Nat) (t : State) : KeepsWf t (modA u i f t) := .same (mews_modUnit ..)
  unfold xferIncs; dsimp only
  split
  · exact (hmod ..).after (.ite (hmod ..) (.refl s))
  · exact .ite (hmod ..) (.refl s)

theorem askBuf_keepsWf (u : Nat) (r : MewsReq) (spill : Bool) (g : StreamUnit → StreamUnit) (s : State) : KeepsWf s
    (let a := mewsAsk r false spill true s
     if a.1 = mwPENDING then ((none : Option (Nat × Nat)), modUnit u g a.2.2) else (some (a.1, a.2.1), a.2.2)).2 := by
  dsimp only
  split
  · exact (KeepsWf.same (mews_modUnit ..)).after (mewsAsk_keepsWf ..)
  · exact mewsAsk_keepsWf ..

theorem withQueues_keepsWf (l : SMap (List MewsReq)) (s : State) : KeepsWf s { s with mews := { s.mews with queues := l } } := mewsWf_of rfl rfl

theorem bufAnswer_keepsWf (u n : Nat) (j : Job) (s : State) : KeepsWf s (bufAnswer u n j s).2 := by
  unfold bufAnswer
  extract_lets v recov size ask answer ahead mews
  have hask (t : State) : KeepsWf t (ask t).2 := askBuf_keepsWf ..
  have hanswer : KeepsWf s answer.2 := takeAnswer_keepsWf ..
  have hahead : KeepsWf s ahead.2 := takeAnswer_keepsWf ..
  split
  · split
    · exact hanswer
    · exact .refl s
  · split
    · split
      · exact KeepsWf.after (commitTent_keepsWf ..) hahead
      · exact (hask _).after hahead
    · split
      · exact KeepsWf.after (.same (mews_modUnit ..)) (withQueues_keepsWf ..)
      · exact (hask _).after (mewsWithdraw_keepsWf ..)

theorem commitNext_keepsWf (u : Nat) (s : State) : KeepsWf s (commitNext u s) := .same (mews_commitTo ..)

theorem xferBuf_keepsWf (u n : Nat) (j : Job) (s : State) : KeepsWf s (xferBuf u n j s) := by
  have hans := bufAnswer_keepsWf u n j s
  unfold xferBuf; dsimp only
  split
  · exact hans
  · split
    · exact (strmEnd_keepsWf ..).after hans
    · split
      · exact (strmEnd_keepsWf ..).after ((KeepsWf.reports (raise_reports ..)).after hans)
      · split
        · exact .same (mews_modUnit ..)
        · refine (xferMove_keepsWf _ _ _ _ _ (fun t => ?_) _).after ((KeepsWf.same (mews_modUnit ..)).after hans)
          exact (commitNext_keepsWf ..).after ((xferIncs_keepsWf ..).after ((KeepsWf.same (mews_modUnit ..)).after (.same (mews_setEndpoint ..))))

theorem effXfer_keepsWf (u n : Nat) (s : State) : KeepsWf s (effXfer u n s) := by
  unfold effXfer; dsimp only
  split
  · exact strmEnd_keepsWf ..
  · split
    · split
      · exact xferBuf_keepsWf ..
      · exact .refl s
    · split
      · exact .same (mews_modUnit ..)
      · exact xferMove_keepsWf _ _ _ _ _ (fun t => (commitNext_keepsWf ..).after (xferIncs_keepsWf ..)) _

theorem effTentative_keepsWf (u : Nat) (r : RunAhead) (n : Nat) (j : Job) (s : State) : KeepsWf s (effTentative u r n j s) := by
  unfold effTentative; dsimp only
  exact .ite ((giveAnswer_keepsWf ..).after (mewsAsk_keepsWf ..)) (mewsAsk_keepsWf ..)

theorem tentative_keepsWf (u : Fin 32) {s t : State} (ht : exec (.tentative u) s = .next t) : KeepsWf s t := by
  change execTentative u s = .next t at ht
  unfold execTentative at ht
  refine .of_settle ht ?_
  split
  · exact .refl s
  · dsimp only
    exact .ite (effTentative_keepsWf ..) (.refl s)

theorem mewsWf_reset : MewsWf State.reset :=
  mewsWf_iff.mpr ⟨fun _ => Nat.zero_le 65536, fun _ => ⟨Nat.le_refl 1, Nat.le_of_ble_eq_true rfl⟩⟩

/-- Settles O27. -/
theorem mewsCommandsKeepGenerations : Obligations.MewsCommandsKeepGenerations := by
  refine ⟨mewsWf_reset, fun q n u b w c s t hc hwf ht => ?_⟩
  simp only [List.mem_cons, List.not_mem_nil, or_false] at hc
  rcases hc with rfl | rfl | rfl | rfl | rfl | rfl | rfl | rfl | rfl | rfl | rfl | rfl | rfl
  · exact (KeepsWf.of_settle ht (.gate (effAlloc_keepsWf q s))).keeps hwf
  · exact (KeepsWf.of_settle ht (.gate (effFree_keepsWf q s))).keeps hwf
  · exact (KeepsWf.of_settle ht (.gate (effTransfer_keepsWf q s))).keeps hwf
  · exact (KeepsWf.of_settle ht (.gate (effReclaim_keepsWf q s))).keeps hwf
  · exact (reclaimDone_keepsWf ht).keeps hwf
  · exact (KeepsWf.of_settle ht (.gate (effCancel_keepsWf q s))).keeps hwf
  · exact (tentative_keepsWf u ht).keeps hwf
  · exact (KeepsWf.of_settle ht (.ite (effServe_keepsWf s) (.refl s))).keeps hwf
  · exact (KeepsWf.of_settle ht (.gate (k := fun s => effMewsFence b (rd s pgMEWS (0x0A0 + 4 * b2n b)) (wr pgMEWS (0x0A0 + 4 * b2n b) w s))
      ((effMewsFence_keepsWf ..).after (.reports (wr_reports ..))))).keeps hwf
  · exact (KeepsWf.of_settle ht (.gate (effPoolOn_keepsWf q n s))).keeps hwf
  · exact (KeepsWf.of_settle ht (.gate (effPoolOff_keepsWf q n s))).keeps hwf
  · exact (KeepsWf.of_settle ht (atInsn_keepsWf fun m => effXfer_keepsWf u m s)).keeps hwf
  · exact (KeepsWf.of_settle ht (atInsn_keepsWf fun _ => strmEnd_keepsWf u stDONE 0 s)).keeps hwf

end Sys2Proof.Machine
end

section
/-!
PROOFS. The stream units: one unit's own state, what a commit does, the instructions of registers and flags (R234, R235, R241).
-/
namespace Sys2Proof.Machine

/-! ### One unit changes -/

theorem unitOf_modUnit (u : Nat) (f : StreamUnit → StreamUnit) (s : State) (w : Nat) :
    unitOf (modUnit u f s) w = if w = u then f (unitOf s u) else unitOf s w := SMap.get_put ..

theorem unitOf_modUnit_same (u : Nat) (f : StreamUnit → StreamUnit) (s : State) : unitOf (modUnit u f s) u = f (unitOf s u) :=
  (unitOf_modUnit ..).trans (if_pos rfl)

theorem unitOf_modUnit_ne {u w : Nat} (h : w ≠ u) (f : StreamUnit → StreamUnit) (s : State) : unitOf (modUnit u f s) w = unitOf s w :=
  (unitOf_modUnit ..).trans (if_neg h)

theorem unitOf_of_strm {s t : State} (h : t.strm = s.strm) (u : Nat) : unitOf t u = unitOf s u := by unfold unitOf; rw [h]

theorem OnlyUnit.refl (u : Nat) (s : State) : OnlyUnit u s s := ⟨.refl s, regsStandBut_refl _ s, fun _ _ => rfl⟩

theorem OnlyUnit.trans {u : Nat} {s t x : State} (h : OnlyUnit u s t) (g : OnlyUnit u t x) : OnlyUnit u s x := by
  obtain ⟨hmem, hregs, hunits⟩ := h
  obtain ⟨gmem, gregs, gunits⟩ := g
  exact ⟨hmem.trans gmem, hregs.trans gregs, fun w hw => (gunits w hw).trans (hunits w hw)⟩

theorem onlyUnit_modUnit (u : Nat) (f : StreamUnit → StreamUnit) (s : State) : OnlyUnit u s (modUnit u f s) :=
  ⟨memStands_of_mem rfl, regsStandBut_of_regs _ rfl, fun _ hw => unitOf_modUnit_ne hw f s⟩

/-- An operation on the unit's page alone. -/
theorem onlyUnit_of_strm {u : Nat} {s t : State} (hmem : t.mem = s.mem) (hstrm : t.strm = s.strm) (hregs : RegsStandBut [pgSTRM u] s t) :
    OnlyUnit u s t := ⟨memStands_of_mem hmem, hregs, fun w _ => unitOf_of_strm hstrm w⟩

/-! ### Progress and commits -/

theorem regsStandBut_stallEnd (p : Nat) (s : State) : RegsStandBut [p] s (stallEnd p s) := by
  unfold stallEnd; split
  · exact (regsStandBut_wr (by decide) p _ s).trans (regsStandBut_raise p _ _ _ _)
  · exact regsStandBut_refl _ s

theorem stallEnd_strm (p : Nat) (s : State) : (stallEnd p s).strm = s.strm := (stallEnd_reports p s).field State.strm

theorem stallEnd_mem (p : Nat) (s : State) : (stallEnd p s).mem = s.mem := (stallEnd_reports p s).field State.mem

theorem touch_strm (p : Nat) (s : State) : (touch p s).strm = s.strm := stallEnd_strm p s

theorem touch_mem (p : Nat) (s : State) : (touch p s).mem = s.mem := stallEnd_mem p s

theorem touch_regs (p : Nat) (s : State) : (touch p s).regs = (stallEnd p s).regs := rfl

theorem onlyUnit_touch (u : Nat) (s : State) : OnlyUnit u s (touch (pgSTRM u) s) :=
  onlyUnit_of_strm (touch_mem ..) (touch_strm ..)
    ((regsStandBut_stallEnd _ s).trans (regsStandBut_of_regs _ (touch_regs ..)))

/-- The unit as a commit that goes on at `pc` leaves it, its run-ahead aside. -/
def committed (pc : Nat) (v : StreamUnit) : StreamUnit :=
  { v with pc := pc, waitKind := 0, waitSem := 0, draining := false, waitFlag := none, released := false, asked := false }

theorem unitOf_commitTo (u pc : Nat) (s : State) : unitOf (commitTo u pc s) u = raStep (committed pc (unitOf s u)) := by
  unfold commitTo
  rw [unitOf_of_strm (touch_strm ..), unitOf_modUnit_same]
  rfl

/-- The run-ahead's end or step leaves the registers, the program and the PC. -/
theorem raStep_eq (v : StreamUnit) : raStep v = { v with ra := (raStep v).ra, paused := (raStep v).paused } := by
  unfold raStep; split
  · split
    · rfl
    · split <;> rfl
  · rfl

theorem onlyUnit_commitTo (u pc : Nat) (s : State) : OnlyUnit u s (commitTo u pc s) := (onlyUnit_modUnit ..).trans (onlyUnit_touch ..)

/-- A commit changes the PC, not the registers. -/
theorem commitTo_shows (u pc : Nat) (s : State) : (unitOf (commitTo u pc s) u).a = (unitOf s u).a ∧
    (unitOf (commitTo u pc s) u).c = (unitOf s u).c ∧ (unitOf (commitTo u pc s) u).hs = (unitOf s u).hs ∧
    (unitOf (commitTo u pc s) u).pc = pc := by
  rw [unitOf_commitTo, raStep_eq]
  exact ⟨rfl, rfl, rfl, rfl⟩

/-- A unit that may commit at an instruction does what the instruction says. -/
theorem atInsn_at {u op : Nat} {s : State} (h : AtInsn s u op) (k : Nat → State → State) : atInsn u op k s = k (insnOf s u) s := by
  obtain ⟨hon, ⟨j, hrun, hdead⟩, hpc, hop⟩ := h
  unfold atInsn
  rw [hrun]
  dsimp only
  rw [if_neg, hdead, if_neg Bool.false_ne_true]
  · rfl
  · rintro (hoff | hover | hne)
    · rw [hon] at hoff; exact absurd hoff (by decide)
    · exact absurd hpc (Nat.not_lt.mpr hover)
    · exact hne hop

/-! ### Register instructions -/

section
variable {u : Nat} {s : State}

/-- An instruction that changes the unit by `f` and commits. -/
theorem commit_modUnit (f : StreamUnit → StreamUnit) (pc : Nat) {x : State} (hx : modUnit u f s = x) :
    (unitOf (commitTo u pc x) u).a = (f (unitOf s u)).a ∧ (unitOf (commitTo u pc x) u).c = (f (unitOf s u)).c ∧
      (unitOf (commitTo u pc x) u).hs = (f (unitOf s u)).hs ∧ (unitOf (commitTo u pc x) u).pc = pc ∧ OnlyUnit u s (commitTo u pc x) := by
  subst hx
  obtain ⟨ha, hc, hhs, hpc⟩ := commitTo_shows u pc (modUnit u f s)
  rw [unitOf_modUnit_same] at ha hc hhs
  exact ⟨ha, hc, hhs, hpc, (onlyUnit_modUnit ..).trans (onlyUnit_commitTo ..)⟩

/-- A command whose effect is to change the unit by `f` and to commit. -/
theorem settles_commit {o : Host.Outcome State Fault Refusal} (f : StreamUnit → StreamUnit) (pc : Nat)
    (hexec : o = settle s (commitTo u pc (modUnit u f s))) :
    ∃ t, o = .next t ∧ (unitOf t u).a = (f (unitOf s u)).a ∧ (unitOf t u).c = (f (unitOf s u)).c ∧
      (unitOf t u).hs = (f (unitOf s u)).hs ∧ (unitOf t u).pc = pc ∧ OnlyUnit u s t := by
  have hshows := commit_modUnit (u := u) (s := s) f pc rfl
  obtain ⟨t, ht⟩ : ∃ t, commitTo u pc (modUnit u f s) = t := ⟨_, rfl⟩
  rw [ht] at hshows hexec
  exact ⟨_, hexec.trans (settle_eq ..), hshows⟩

/-- A command whose effect is to change the unit by `f`. -/
theorem settles_mod {o : Host.Outcome State Fault Refusal} (f : StreamUnit → StreamUnit) (hexec : o = settle s (modUnit u f s)) :
    ∃ t, o = .next t ∧ unitOf t u = f (unitOf s u) ∧ OnlyUnit u s t := by
  have hunit := unitOf_modUnit_same u f s
  have honly := onlyUnit_modUnit u f s
  obtain ⟨t, ht⟩ : ∃ t, modUnit u f s = t := ⟨_, rfl⟩
  rw [ht] at hunit honly hexec
  exact ⟨_, hexec.trans (settle_eq ..), hunit, honly⟩

theorem commitNext_modUnit {f : StreamUnit → StreamUnit} (hf : ∀ v, (f v).pc = v.pc) :
    commitNext u (modUnit u f s) = commitTo u ((unitOf s u).pc + 1) (modUnit u f s) := by
  unfold commitNext; rw [unitOf_modUnit_same, hf]

end

theorem seta_shows {u : Fin 32} {s : State} (h : AtInsn s u.val opSETA) : ∃ t, exec (.seta u) s = .next t ∧
    (unitOf t u.val).a = (unitOf s u.val).a.put 0 (iA (insnOf s u.val)) (bitsOf (insnOf s u.val) 39 0) ∧
    (unitOf t u.val).c = (unitOf s u.val).c ∧ (unitOf t u.val).hs = (unitOf s u.val).hs ∧
    (unitOf t u.val).pc = (unitOf s u.val).pc + 1 ∧ OnlyUnit u.val s t :=
  settles_commit (fun v => { v with a := v.a.put 0 (iA (insnOf s u.val)) (bitsOf (insnOf s u.val) 39 0) }) _
    (congrArg (settle s) ((atInsn_at h _).trans (commitNext_modUnit fun _ => rfl)))

theorem add40_cast (x : Nat) (i : Int) : ((add40 x i : Nat) : Int) = ((x : Int) + i) % 2 ^ 40 :=
  Int.toNat_of_nonneg (Int.emod_nonneg _ (by decide))

theorem adda_shows {u : Fin 32} {s : State} (h : AtInsn s u.val opADDA) : ∃ t, exec (.adda u) s = .next t ∧
    (((unitOf t u.val).a.get 0 (iA (insnOf s u.val)) : Nat) : Int) =
      (((unitOf s u.val).a.get 0 (iA (insnOf s u.val)) : Nat) + toSigned 32 (insnOf s u.val)) % 2 ^ 40 ∧
    (∀ i, i ≠ iA (insnOf s u.val) → (unitOf t u.val).a.get 0 i = (unitOf s u.val).a.get 0 i) ∧
    (unitOf t u.val).c = (unitOf s u.val).c ∧ (unitOf t u.val).hs = (unitOf s u.val).hs ∧
    (unitOf t u.val).pc = (unitOf s u.val).pc + 1 ∧ OnlyUnit u.val s t := by
  obtain ⟨t, hexec, ha, hrest⟩ := settles_commit (s := s) (o := exec (.adda u) s) (u := u.val)
    (fun v => { v with a := v.a.put 0 (iA (insnOf s u.val)) (add40 (v.a.get 0 (iA (insnOf s u.val))) (toSigned 32 (insnOf s u.val))) }) _
    (congrArg (settle s) ((atInsn_at h _).trans (commitNext_modUnit fun _ => rfl)))
  refine ⟨t, hexec, ?_, fun i hi => ?_, hrest⟩
  · rw [ha, SMap.get_put_same, add40_cast]
  · rw [ha]; exact SMap.get_put_ne _ _ hi ..

theorem setc_shows {u : Fin 32} {s : State} (h : AtInsn s u.val opSETC) : ∃ t, exec (.setc u) s = .next t ∧
    (unitOf t u.val).c = (unitOf s u.val).c.put 0 (iA (insnOf s u.val)) (bitsOf (insnOf s u.val) 23 0) ∧
    (unitOf t u.val).a = (unitOf s u.val).a ∧ (unitOf t u.val).hs = (unitOf s u.val).hs ∧
    (unitOf t u.val).pc = (unitOf s u.val).pc + 1 ∧ OnlyUnit u.val s t := by
  obtain ⟨t, hexec, ha, hc, hrest⟩ := settles_commit (s := s) (o := exec (.setc u) s) (u := u.val)
    (fun v => { v with c := v.c.put 0 (iA (insnOf s u.val)) (bitsOf (insnOf s u.val) 23 0) }) _
    (congrArg (settle s) ((atInsn_at h _).trans (commitNext_modUnit fun _ => rfl)))
  exact ⟨t, hexec, hc, ha, hrest⟩

theorem swap_shows {u : Fin 32} {s : State} (h : AtInsn s u.val opSWAP) : ∃ t, exec (.swap u) s = .next t ∧
    (unitOf t u.val).hs = (!(unitOf s u.val).hs) ∧ (unitOf t u.val).a = (unitOf s u.val).a ∧
    (unitOf t u.val).c = (unitOf s u.val).c ∧ (unitOf t u.val).pc = (unitOf s u.val).pc + 1 ∧ OnlyUnit u.val s t := by
  obtain ⟨t, hexec, ha, hc, hhs, hrest⟩ := settles_commit (s := s) (o := exec (.swap u) s) (u := u.val)
    (fun v => { v with hs := !v.hs }) _ (congrArg (settle s) ((atInsn_at h _).trans (commitNext_modUnit fun _ => rfl)))
  exact ⟨t, hexec, hhs, ha, hc, hrest⟩

/-- Where a LOOP goes: back while its count is left, else on (R235). -/
def loopTo (v : StreamUnit) (n : Nat) : Nat := if 1 < v.c.get 0 (iA n) then bitsOf n 6 0 else v.pc + 1

theorem loop_shows {u : Fin 32} {s : State} (h : AtInsn s u.val opLOOP) : ∃ t, exec (.loop u) s = .next t ∧
    (unitOf t u.val).c.get 0 (iA (insnOf s u.val)) = (unitOf s u.val).c.get 0 (iA (insnOf s u.val)) - 1 ∧
    (unitOf t u.val).a = (unitOf s u.val).a ∧ (unitOf t u.val).hs = (unitOf s u.val).hs ∧
    (unitOf t u.val).pc = loopTo (unitOf s u.val) (insnOf s u.val) ∧ OnlyUnit u.val s t := by
  obtain ⟨n, hn⟩ : ∃ n, insnOf s u.val = n := ⟨_, rfl⟩
  have hexec : exec (.loop u) s = settle s (commitTo u.val (loopTo (unitOf s u.val) n)
      (modUnit u.val (fun v => { v with c := v.c.put 0 (iA n) (v.c.get 0 (iA n) - 1) }) s)) := by
    refine congrArg (settle s) ((atInsn_at h _).trans ?_)
    rw [hn]
    have hcount : (unitOf (modC u.val (iA n) (fun x => x - 1) s) u.val).c.get 0 (iA n) = (unitOf s u.val).c.get 0 (iA n) - 1 := by
      unfold modC
      rw [unitOf_modUnit_same]
      exact SMap.get_put_same ..
    dsimp only
    unfold loopTo
    rw [hcount]
    by_cases hmore : 1 < (unitOf s u.val).c.get 0 (iA n)
    · rw [if_pos (by omega), if_pos hmore]; rfl
    · rw [if_neg (by omega), if_neg hmore]
      exact commitNext_modUnit fun _ => rfl
  obtain ⟨t, hexec, ha, hc, hhs, hpc, honly⟩ := settles_commit _ _ hexec
  rw [hn]
  exact ⟨t, hexec, by rw [hc]; exact SMap.get_put_same .., ha, hhs, hpc, honly⟩

/-! ### Flag instructions -/

section
variable {u : Fin 32} {s : State} {f : Nat}

/-- A flag instruction in range, with the resident store ready. -/
theorem atFlag_at {op : Nat} (h : AtInsn s u.val op) (hf : insnFlag (unitOf s u.val) (insnOf s u.val) = f) (hlt : f < 524288)
    (hready : ready s pgRES = true) (k : Nat → Nat → State → State) : atFlag u.val op k s = k (insnOf s u.val) f s := by
  unfold atFlag
  rw [atInsn_at h]
  dsimp only
  rw [hf, if_neg (Nat.not_le.mpr hlt), hready, if_neg (by decide)]

theorem flagPoisoned_of_good (hbank : bankBad s (groupAddr (f / 64)) = false) (hmark : markOf s (groupAddr (f / 64)) = .good) :
    flagPoisoned s f = false := by
  unfold flagPoisoned; dsimp only; rw [hbank, hmark]; rfl

/-- A flag set or cleared alone, at its word's good memory: the flag, the other flags, and the units. -/
theorem flagOps_alone_shows (v : Bool) (hbank : bankBad s (groupAddr (f / 64)) = false) (hmark : markOf s (groupAddr (f / 64)) = .good) :
    (flagOps f v [] s).1 = true ∧ (∀ g, flagValue (flagOps f v [] s).2 g = if g = f then v else flagValue s g) ∧
      ∀ w, unitOf (flagOps f v [] s).2 w = wakeFor f v (unitOf s w) := by
  obtain ⟨hone, hstores, hvalue⟩ := writeFlag_good (f := f) v hbank hmark
  have hfirst : (flagOps f v [] s).1 = true := by
    rw [← hone]; cases v <;> simp [flagOps, writeFlags]
  refine ⟨hfirst, ?_⟩
  rw [flagOps_alone]
  obtain ⟨a, ha⟩ : ∃ a, (writeFlag f v s).2 = a := ⟨_, rfl⟩
  simp only [ha] at hstores hvalue ⊢
  have hunits := unitOf_releaseFlag (flagPoisoned_of_good (f := f) ((hstores.accounted.sameUse.bankBad _).trans hbank) ((hstores.marks _).trans hmark))
  refine ⟨fun g => (flagValue_memStands (releaseFlag_mem f a) g).trans (hvalue g), fun w => ?_⟩
  rw [hunits, hvalue, if_pos rfl, unitOf_of_strm (hstores.accounted.field State.strm)]

theorem wakeFor_pc (v : Bool) (x : StreamUnit) : (wakeFor f v x).pc = x.pc := by unfold wakeFor; split <;> rfl

theorem flagInsn_shows (v : Bool) (hf : insnFlag (unitOf s u.val) (insnOf s u.val) = f) (hlt : f < 524288) (hready : ready s pgRES = true)
    (hbank : bankBad s (groupAddr (f / 64)) = false) (hmark : markOf s (groupAddr (f / 64)) = .good)
    (h : AtInsn s u.val (if v then opSETF else opCLRF)) :
    ∃ t, exec (if v then .setf u [] else .clrf u []) s = .next t ∧ flagValue t f = v ∧ (∀ g, g ≠ f → flagValue t g = flagValue s g) ∧
      (unitOf t u.val).pc = (unitOf s u.val).pc + 1 ∧
      ∀ w, w ≠ u.val → (unitOf s w).waitFlag = some (f, v) → (unitOf t w).released = true := by
  obtain ⟨hone, hvalue, hunits⟩ := flagOps_alone_shows (s := s) v hbank hmark
  have hexec : exec (if v then .setf u [] else .clrf u []) s = settle s (commitNext u.val (flagOps f v [] s).2) := by
    have heff : effFlagInsn u.val v [] f s = commitNext u.val (flagOps f v [] s).2 := by
      unfold effFlagInsn; dsimp only; rw [if_pos hone]
    rw [← heff]
    cases v
    · exact congrArg (settle s) (atFlag_at h hf hlt hready _)
    · exact congrArg (settle s) (atFlag_at h hf hlt hready _)
  obtain ⟨x, hx⟩ : ∃ x, (flagOps f v [] s).2 = x := ⟨_, rfl⟩
  simp only [hx] at hvalue hunits hexec
  obtain ⟨-, -, -, hpc⟩ := commitTo_shows u.val ((unitOf x u.val).pc + 1) x
  obtain ⟨hmem, -, hothers⟩ := onlyUnit_commitTo u.val ((unitOf x u.val).pc + 1) x
  obtain ⟨t, ht⟩ : ∃ t, commitNext u.val x = t := ⟨_, rfl⟩
  have ht' := ht
  unfold commitNext at ht'
  rw [ht'] at hpc hmem
  simp only [ht'] at hothers
  rw [ht] at hexec
  refine ⟨_, hexec.trans (settle_eq ..), (flagValue_memStands hmem f).trans ((hvalue f).trans (if_pos rfl)),
    fun g hg => (flagValue_memStands hmem g).trans ((hvalue g).trans (if_neg hg)), ?_, fun w hw hwait => ?_⟩
  · exact hpc.trans (by rw [hunits, wakeFor_pc])
  · refine (congrArg StreamUnit.released ((hothers w hw).trans (hunits w))).trans ?_
    unfold wakeFor; rw [if_pos hwait]

/-- What a WAITF at a good flag leaves: it commits, or the unit waits for the value. -/
theorem waitf_shows (hf : insnFlag (unitOf s u.val) (insnOf s u.val) = f) (hlt : f < 524288) (hready : ready s pgRES = true)
    (hbank : bankBad s (groupAddr (f / 64)) = false) (hmark : markOf s (groupAddr (f / 64)) = .good)
    (h : AtInsn s u.val opWAITF) (hnot : (unitOf s u.val).released = false) :
    ∃ t, exec (.waitf u) s = .next t ∧ OnlyUnit u.val s t ∧
      (if flagValue s f = bitOf (insnOf s u.val) 19 then (unitOf t u.val).pc = (unitOf s u.val).pc + 1
       else (unitOf t u.val).pc = (unitOf s u.val).pc ∧ (unitOf t u.val).waitFlag = some (f, bitOf (insnOf s u.val) 19)) := by
  obtain ⟨n, hn⟩ : ∃ n, insnOf s u.val = n := ⟨_, rfl⟩
  have hexec : exec (.waitf u) s = settle s (if flagValue s f = bitOf n 19 then commitNext u.val s
      else modUnit u.val (fun v => { v with waitKind := 2, waitFlag := some (f, bitOf n 19) }) s) := by
    refine congrArg (settle s) ((atFlag_at h hf hlt hready _).trans ?_)
    have hread : readFlag f s = (false, s) := readWord_good hbank hmark
    rw [hn]
    dsimp only
    rw [hread, hnot]
    rfl
  rw [hn]
  by_cases hval : flagValue s f = bitOf n 19
  · simp only [if_pos hval] at hexec ⊢
    obtain ⟨-, -, -, hpc⟩ := commitTo_shows u.val ((unitOf s u.val).pc + 1) s
    have honly := onlyUnit_commitTo u.val ((unitOf s u.val).pc + 1) s
    unfold commitNext at hexec
    obtain ⟨t, ht⟩ : ∃ t, commitTo u.val ((unitOf s u.val).pc + 1) s = t := ⟨_, rfl⟩
    rw [ht] at hpc honly hexec
    exact ⟨_, hexec.trans (settle_eq ..), honly, hpc⟩
  · simp only [if_neg hval] at hexec ⊢
    obtain ⟨t, ht, hunit, honly⟩ := settles_mod _ hexec
    refine ⟨t, ht, honly, ?_⟩
    rw [hunit]
    exact ⟨rfl, rfl⟩

end

/-- Settles O29. -/
theorem registerAndFlagInstructions : Obligations.RegisterAndFlagInstructions :=
  ⟨fun _ _ => ⟨seta_shows, adda_shows, setc_shows, loop_shows, swap_shows⟩,
    fun _ _ hlt hready hbank hmark => ⟨fun v => flagInsn_shows v rfl hlt hready hbank hmark, waitf_shows rfl hlt hready hbank hmark⟩⟩

end Sys2Proof.Machine
end

section
/-!
PROOFS. Semaphore pairs and trigger inputs (R241, R265 to R276).
-/
namespace Sys2Proof.Machine

/-! ### Counts and waiters -/

theorem semCnt_lt (n : Nat) : semCnt n < 0x1000 := by unfold semCnt; omega

theorem semCount_of_rd {s t : State} {m : Nat} (h : rd t (semPage m) (semCnt m) = rd s (semPage m) (semCnt m)) (e : Bool) :
    semCount t m e = semCount s m e := by
  unfold semCount; rw [rdF_congr h, rdF_congr h]

theorem semRest_of_rd {s t : State} {m : Nat} (h : rd t (semPage m) (semCfg m) = rd s (semPage m) (semCfg m)) (e : Bool) :
    semRest t m e = semRest s m e := by
  unfold semRest; rw [rdF_congr h, rdF_congr h]

theorem setSem_reports (n : Nat) (e : Bool) (v : Nat) (s : State) : ReportsOnly s (setSem n e v s) := by
  unfold setSem; split <;> exact wrF_reports ..

theorem rd_setSem_ne {n p off : Nat} (ho : off < 0x1000) (hne : ¬(p = semPage n ∧ off = semCnt n)) (e : Bool) (v : Nat) (s : State) :
    rd (setSem n e v s) p off = rd s p off := by
  unfold setSem; split <;> exact rd_wrF_other (semCnt_lt n) ho hne ..

theorem semPlace_inj {m n : Nat} (h : semPage m = semPage n ∧ semCnt m = semCnt n) : m = n := by
  obtain ⟨hpage, hcnt⟩ := h
  simp only [semPage, pgSEMA, semCnt] at hpage hcnt
  omega

theorem semCount_setSem (n : Nat) (e : Bool) (v : Nat) (s : State) (m : Nat) (f : Bool) :
    semCount (setSem n e v s) m f = if m = n ∧ f = e then v % 256 else semCount s m f := by
  by_cases hm : m = n
  · subst hm
    cases e <;> cases f
    · rw [if_pos ⟨rfl, rfl⟩]; exact rdF_wrF _ _ 7 0 v s (by decide) (by decide)
    · rw [if_neg (by simp)]; exact rdF_wrF_ne _ _ 7 0 v 15 8 s (by decide) (by decide) (by decide)
    · rw [if_neg (by simp)]; exact rdF_wrF_ne _ _ 15 8 v 7 0 s (by decide) (by decide) (by decide)
    · rw [if_pos ⟨rfl, rfl⟩]; exact rdF_wrF _ _ 15 8 v s (by decide) (by decide)
  · rw [if_neg fun h => hm h.1]
    exact semCount_of_rd (rd_setSem_ne (semCnt_lt m) (fun h => hm (semPlace_inj h)) e v s) f

theorem semRest_setSem (n : Nat) (e : Bool) (v : Nat) (s : State) (m : Nat) (f : Bool) : semRest (setSem n e v s) m f = semRest s m f :=
  semRest_of_rd (rd_setSem_ne (by unfold semCfg; omega) (by simp only [semCfg, semCnt]; omega) e v s) f

theorem semCount_le (s : State) (m : Nat) (f : Bool) : semCount s m f < 256 := by
  unfold semCount rdF fld bitsOf
  split <;> exact Nat.mod_lt _ (by decide)

theorem semRest_lt (s : State) (m : Nat) (f : Bool) : semRest s m f < 256 := by
  unfold semRest rdF fld bitsOf
  split <;> exact Nat.mod_lt _ (by decide)

theorem semQueue_setSemQueue (n : Nat) (e : Bool) (l : List SemWaiter) (s : State) (m : Nat) (f : Bool) :
    semQueue (setSemQueue n e l s) m f = if m = n ∧ f = e then l else semQueue s m f := by
  have hkey : 2 * m + b2n f = 2 * n + b2n e ↔ m = n ∧ f = e := by cases e <;> cases f <;> simp [b2n] <;> omega
  unfold semQueue setSemQueue
  dsimp only
  rw [SMap.get_put]
  by_cases h : m = n ∧ f = e
  · rw [if_pos h, if_pos (hkey.mpr h)]
  · rw [if_neg h, if_neg (mt hkey.mp h)]

theorem semQueue_of_sema {s t : State} (h : t.sema = s.sema) (m : Nat) (f : Bool) : semQueue t m f = semQueue s m f := by
  unfold semQueue; rw [h]

theorem semServe_empty {n : Nat} {e : Bool} {s : State} (h : semQueue s n e = []) : semServe n e s = s := by
  unfold semServe; rw [h]; rfl

/-! ### What serving one side leaves -/

/-- What the waiters of a pair's side are served from: the counts of the other sides, their waiters, and the rest counts. -/
structure ServesSide (n : Nat) (e : Bool) (s t : State) : Prop where
  counts : ∀ m f, ¬(m = n ∧ f = e) → semCount t m f = semCount s m f
  queues : ∀ m f, ¬(m = n ∧ f = e) → semQueue t m f = semQueue s m f
  rests : ∀ m f, semRest t m f = semRest s m f
  mem : t.mem = s.mem
  strm : t.strm = s.strm

theorem ServesSide.refl (n : Nat) (e : Bool) (s : State) : ServesSide n e s s := ⟨fun _ _ _ => rfl, fun _ _ _ => rfl, fun _ _ => rfl, rfl, rfl⟩

theorem ServesSide.trans {n : Nat} {e : Bool} {s t u : State} (h : ServesSide n e s t) (g : ServesSide n e t u) : ServesSide n e s u :=
  ⟨fun m f hne => (g.counts m f hne).trans (h.counts m f hne), fun m f hne => (g.queues m f hne).trans (h.queues m f hne),
    fun m f => (g.rests m f).trans (h.rests m f), g.mem.trans h.mem, g.strm.trans h.strm⟩

theorem semServeOne_side (n : Nat) (e : Bool) (s : State) : ServesSide n e s (semServeOne n e s) := by
  unfold semServeOne
  split
  · rename_i w t hq
    split
    · have hset := setSem_reports n e (semCount s n e - w.k) s
      refine ⟨fun m f hne => ?_, fun m f hne => ?_, fun m f => ?_, hset.field State.mem, hset.field State.strm⟩
      · exact (semCount_setSem ..).trans (if_neg hne)
      · exact (semQueue_setSemQueue ..).trans ((if_neg hne).trans (semQueue_of_sema (hset.field State.sema) m f))
      · exact semRest_setSem ..
    · exact .refl ..
  · exact .refl ..

theorem ServesSide.iter {n : Nat} {e : Bool} {g : State → State} (h : ∀ t, ServesSide n e t (g t)) :
    ∀ (k : Nat) (s : State), ServesSide n e s (iter g k s)
  | 0, s => .refl n e s
  | k + 1, s => (h s).trans (ServesSide.iter h k (g s))

theorem semServe_side (n : Nat) (e : Bool) (s : State) : ServesSide n e s (semServe n e s) := .iter (semServeOne_side n e) ..

/-! ### A signal's count -/

section
variable {n k : Nat} {e : Bool} {s : State}

theorem semAdd_reports (n : Nat) (e : Bool) (k : Nat) (s : State) : ReportsOnly s (semAdd n e k s) := by
  unfold semAdd; dsimp only
  split
  · exact setSem_reports ..
  · split
    · exact setSem_reports ..
    · exact ((setSem_reports ..).trans (wrB_reports ..)).trans (raise_reports ..)

/-- The place of a pair's overflow bit (R266). -/
def ovfOff (n : Nat) : Nat := 0x088 + 4 * (n % 64 / 32)

theorem semCount_ovf (m : Nat) (f : Bool) (c v d : Nat) (s : State) :
    semCount (raise (semPage n) c v d (wrB (semPage n) (ovfOff n) (n % 32) true s)) m f = semCount s m f := by
  refine semCount_of_rd ((rd_raise (semCnt_lt m) ?_ ..).trans (rd_wrB_other ?_ (semCnt_lt m) ?_ ..)) f
  · simp only [semCnt]; omega
  · simp only [ovfOff]; omega
  · simp only [ovfOff, semCnt]; omega

/-- The sum holds at 255 (R265, R266). -/
theorem semCount_semAdd (n : Nat) (e : Bool) (k : Nat) (s : State) (m : Nat) (f : Bool) :
    semCount (semAdd n e k s) m f = if m = n ∧ f = e then min 255 (semCount s n e + k) else semCount s m f := by
  unfold semAdd; dsimp only
  by_cases hle : semCount s n e + k ≤ 255
  · rw [if_pos hle, semCount_setSem, Nat.mod_eq_of_lt (by omega), Nat.min_eq_right hle]
  · have hmin : min 255 (semCount s n e + k) = 255 % 256 := Nat.min_eq_left (by omega)
    rw [if_neg hle, hmin]
    split
    · exact semCount_setSem ..
    · exact (semCount_ovf ..).trans (semCount_setSem ..)

/-- A sum beyond 255 leaves the pair's overflow bit set (R266). -/
theorem semAdd_ovf (h : 255 < semCount s n e + k) : rdB (semAdd n e k s) (semPage n) (ovfOff n) (n % 32) = true := by
  have hoff : ovfOff n < 0x1000 ∧ ovfOff n < semCnt n ∧ 0x080 < ovfOff n := by simp only [ovfOff, semCnt]; omega
  obtain ⟨hlt, hbelow, hlow⟩ := hoff
  unfold semAdd; dsimp only
  rw [if_neg (by omega)]
  split
  · rename_i hset
    exact (rdB_congr (rd_setSem_ne hlt (fun h => by omega) e 255 s) _).trans hset
  · exact (rdB_congr (rd_raise hlt (by omega) ..) _).trans (rdB_wrB _ _ _ true _ (Nat.mod_lt _ (by decide)))

theorem semSignal_empty (h : semQueue s n e = []) : semSignal n e k s = semAdd n e k s :=
  semServe_empty ((semQueue_of_sema ((semAdd_reports n e k s).field State.sema) n e).trans h)

/-- A side nobody waits on gives its count at once (R267). -/
theorem semWait_empty {who : SemWho} (h : semQueue s n e = []) : semWait n e k who s = semServeOne n e (setSemQueue n e [⟨who, k⟩] s) := by
  have hq : semQueue (setSemQueue n e [⟨who, k⟩] s) n e = [⟨who, k⟩] := (semQueue_setSemQueue ..).trans (if_pos ⟨rfl, rfl⟩)
  unfold semWait
  rw [h, List.nil_append]
  unfold semServe
  rw [hq]
  rfl

/-- The head of a side's waiters, whose count is there, is granted. -/
theorem semServeOne_grants {w : SemWaiter} {l : List SemWaiter} (hq : semQueue s n e = w :: l) (hk : w.k ≤ semCount s n e) :
    semCount (semServeOne n e s) n e = semCount s n e - w.k ∧ semGranted (semServeOne n e s) w.who = true := by
  unfold semServeOne; rw [hq]; dsimp only; rw [if_pos hk]
  refine ⟨(semCount_setSem ..).trans ((if_pos ⟨rfl, rfl⟩).trans (Nat.mod_eq_of_lt ?_)), ?_⟩
  · exact Nat.lt_of_le_of_lt (Nat.sub_le ..) (semCount_le s n e)
  · exact List.contains_iff_mem.mpr (List.mem_append_right _ (List.mem_singleton_self w.who))

theorem semWait_granted {who : SemWho} (h : semQueue s n e = []) (hk : k ≤ semCount s n e) :
    semGranted (semWait n e k who s) who = true ∧ semCount (semWait n e k who s) n e = semCount s n e - k ∧
      (semWait n e k who s).mem = s.mem ∧ (semWait n e k who s).strm = s.strm := by
  have hq : semQueue (setSemQueue n e [⟨who, k⟩] s) n e = [⟨who, k⟩] := (semQueue_setSemQueue ..).trans (if_pos ⟨rfl, rfl⟩)
  have hside := semServeOne_side n e (setSemQueue n e [⟨who, k⟩] s)
  obtain ⟨hcount, hgrant⟩ := semServeOne_grants hq hk
  rw [← semWait_empty h] at hside hcount hgrant
  exact ⟨hgrant, hcount, hside.mem, hside.strm⟩

theorem semWait_waits {who : SemWho} (h : semQueue s n e = []) (hk : ¬k ≤ semCount s n e) :
    semWait n e k who s = setSemQueue n e [⟨who, k⟩] s := by
  have hq : semQueue (setSemQueue n e [⟨who, k⟩] s) n e = [⟨who, k⟩] := (semQueue_setSemQueue ..).trans (if_pos ⟨rfl, rfl⟩)
  rw [semWait_empty h]
  unfold semServeOne; rw [hq]; dsimp only
  exact if_neg hk

end

/-! ### A unit waits and signals -/

section
variable {u : Fin 32} {s : State} {n : Nat} {v : StreamUnit}

/-- A commit of a stream unit leaves the semaphores' registers. -/
theorem semCount_onlyUnit {s t : State} {u : Nat} (hu : u < 32) (h : OnlyUnit u s t) (m : Nat) (f : Bool) : semCount t m f = semCount s m f := by
  obtain ⟨-, hregs, -⟩ := h
  refine semCount_of_rd (hregs _ _ (semCnt_lt m) fun hm => ?_) f
  have hpage := List.mem_singleton.mp hm
  simp only [semPage, pgSEMA, pgSTRM] at hpage
  omega

theorem exec_waits (h : AtInsn s u.val opWAITS) (hgranted : semGranted s (.stream u.val) = false)
    (hwaiting : semWaiting s (.stream u.val) = false) (hn : insnOf s u.val = n) :
    exec (.waits u) s = settle s (if semGranted (semWait (iSem n) (iSide n) (iK n) (.stream u.val) s) (.stream u.val) = true then
        commitNext u.val (semTake (.stream u.val) (semWait (iSem n) (iSide n) (iK n) (.stream u.val) s))
      else modUnit u.val (fun v => { v with waitKind := 1, waitSem := iSem n })
        (semWait (iSem n) (iSide n) (iK n) (.stream u.val) s)) := by
  refine congrArg (settle s) ((atInsn_at h _).trans ?_)
  dsimp only
  rw [hn, hgranted, hwaiting]
  rfl

theorem pc_modUnit {f : StreamUnit → StreamUnit} (hf : ∀ v, (f v).pc = v.pc) (u : Nat) (s : State) :
    (unitOf (modUnit u f s) u).pc = (unitOf s u).pc := by rw [unitOf_modUnit_same, hf]

theorem commitNext_shows (u : Nat) (s : State) : (unitOf (commitNext u s) u).pc = (unitOf s u).pc + 1 ∧ OnlyUnit u s (commitNext u s) := by
  obtain ⟨-, -, -, hpc⟩ := commitTo_shows u ((unitOf s u).pc + 1) s
  exact ⟨hpc, onlyUnit_commitTo ..⟩

theorem waits_shows (hn : insnOf s u.val = n) (hv : unitOf s u.val = v) (hq : semQueue s (iSem n) (iSide n) = [])
    (h : AtInsn s u.val opWAITS) (hgranted : semGranted s (.stream u.val) = false) (hwaiting : semWaiting s (.stream u.val) = false) :
    ∃ t, exec (.waits u) s = .next t ∧ MemStands s t ∧
      (if iK n ≤ semCount s (iSem n) (iSide n) then
        semCount t (iSem n) (iSide n) = semCount s (iSem n) (iSide n) - iK n ∧ (unitOf t u.val).pc = v.pc + 1
       else semCount t (iSem n) (iSide n) = semCount s (iSem n) (iSide n) ∧ (unitOf t u.val).pc = v.pc ∧
        semQueue t (iSem n) (iSide n) = [⟨.stream u.val, iK n⟩]) := by
  have hexec := exec_waits h hgranted hwaiting hn
  subst hv
  by_cases hk : iK n ≤ semCount s (iSem n) (iSide n)
  · simp only [if_pos hk]
    obtain ⟨hgrant, hcount, hmem, hstrm⟩ := semWait_granted (who := .stream u.val) hq hk
    rw [if_pos hgrant] at hexec
    obtain ⟨x, hx⟩ : ∃ x, semWait (iSem n) (iSide n) (iK n) (.stream u.val) s = x := ⟨_, rfl⟩
    rw [hx] at hexec hcount hmem hstrm
    obtain ⟨hpc, honly⟩ := commitNext_shows u.val (semTake (.stream u.val) x)
    have hcommit := semCount_onlyUnit u.isLt honly (iSem n) (iSide n)
    obtain ⟨hmem', -, -⟩ := honly
    obtain ⟨t, ht⟩ : ∃ t, commitNext u.val (semTake (.stream u.val) x) = t := ⟨_, rfl⟩
    rw [ht] at hexec hpc hcommit hmem'
    refine ⟨_, hexec.trans (settle_eq ..), (memStands_of_mem hmem).trans hmem', hcommit.trans hcount, hpc.trans ?_⟩
    exact congrArg (fun v : StreamUnit => v.pc + 1) (unitOf_of_strm (t := semTake _ x) hstrm u.val)
  · simp only [if_neg hk]
    rw [semWait_waits hq hk] at hexec
    have hgrant : semGranted (setSemQueue (iSem n) (iSide n) [⟨.stream u.val, iK n⟩] s) (.stream u.val) = false := hgranted
    rw [hgrant, if_neg Bool.false_ne_true] at hexec
    have hqueue := semQueue_setSemQueue (iSem n) (iSide n) [⟨.stream u.val, iK n⟩] s (iSem n) (iSide n)
    rw [if_pos ⟨rfl, rfl⟩] at hqueue
    obtain ⟨x, hx⟩ : ∃ x, setSemQueue (iSem n) (iSide n) [⟨.stream u.val, iK n⟩] s = x := ⟨_, rfl⟩
    have hunits : unitOf x u.val = unitOf s u.val := hx ▸ rfl
    have hmem : MemStands s x := hx ▸ fun _ => rfl
    have hcount : semCount x (iSem n) (iSide n) = semCount s (iSem n) (iSide n) := hx ▸ rfl
    rw [hx] at hexec hqueue
    have hpc := pc_modUnit (f := fun v => { v with waitKind := 1, waitSem := iSem n }) (fun _ => rfl) u.val x
    obtain ⟨t, ht⟩ : ∃ t, modUnit u.val (fun v => { v with waitKind := 1, waitSem := iSem n }) x = t := ⟨_, rfl⟩
    have hmem' : MemStands x t := ht ▸ fun _ => rfl
    have hcount' : semCount t (iSem n) (iSide n) = semCount x (iSem n) (iSide n) := ht ▸ rfl
    have hqueue' : semQueue t (iSem n) (iSide n) = semQueue x (iSem n) (iSide n) := ht ▸ rfl
    rw [ht] at hexec hpc
    exact ⟨_, hexec.trans (settle_eq ..), hmem.trans hmem', hcount'.trans hcount, hpc.trans (congrArg StreamUnit.pc hunits),
      hqueue'.trans hqueue⟩

theorem sigs_shows (hn : insnOf s u.val = n) (hv : unitOf s u.val = v) (hq : semQueue s (iSem n) (iSide n) = [])
    (h : AtInsn s u.val opSIGS) :
    ∃ t, exec (.sigs u) s = .next t ∧ MemStands s t ∧ (unitOf t u.val).pc = v.pc + 1 ∧
      semCount t (iSem n) (iSide n) = min 255 (semCount s (iSem n) (iSide n) + iK n) ∧
      ∀ m e, m < 256 → ¬(m = iSem n ∧ e = iSide n) → semCount t m e = semCount s m e := by
  have hrep := semAdd_reports (iSem n) (iSide n) (iK n) s
  have hcount := semCount_semAdd (iSem n) (iSide n) (iK n) s
  have hexec : exec (.sigs u) s = settle s (commitNext u.val (if iSide n then semAdd (iSem n) (iSide n) (iK n) s else
      modUnit u.val (fun v => { v with signalled := if v.signalled.contains (iSem n) then v.signalled else v.signalled ++ [iSem n] })
        (semAdd (iSem n) (iSide n) (iK n) s))) := by
    refine congrArg (settle s) ((atInsn_at h _).trans ?_)
    rw [hn, ← semSignal_empty hq]
  subst hv
  obtain ⟨x, hx⟩ : ∃ x, semAdd (iSem n) (iSide n) (iK n) s = x := ⟨_, rfl⟩
  rw [hx] at hexec hrep
  simp only [hx] at hcount
  have hmid (y : State) (hy : (if iSide n then x else
      modUnit u.val (fun v => { v with signalled := if v.signalled.contains (iSem n) then v.signalled else v.signalled ++ [iSem n] }) x) = y) :
      OnlyUnit u.val x y ∧ (unitOf y u.val).pc = (unitOf x u.val).pc := by
    subst hy
    split
    · exact ⟨.refl .., rfl⟩
    · exact ⟨onlyUnit_modUnit .., by rw [unitOf_modUnit_same]⟩
  obtain ⟨y, hy⟩ : ∃ y, (if iSide n then x else
      modUnit u.val (fun v => { v with signalled := if v.signalled.contains (iSem n) then v.signalled else v.signalled ++ [iSem n] }) x) = y :=
    ⟨_, rfl⟩
  obtain ⟨honly, hpcy⟩ := hmid y hy
  rw [hy] at hexec
  obtain ⟨hpc, hcommit⟩ := commitNext_shows u.val y
  obtain ⟨t, ht⟩ : ∃ t, commitNext u.val y = t := ⟨_, rfl⟩
  rw [ht] at hexec hpc hcommit
  have hall := honly.trans hcommit
  have hcounts := semCount_onlyUnit u.isLt hall
  obtain ⟨hmem, -, -⟩ := hall
  refine ⟨_, hexec.trans (settle_eq ..), (memStands_of_mem (hrep.field State.mem)).trans hmem, ?_, ?_, fun m e _ hne => ?_⟩
  · refine (hpc.trans (congrArg (· + 1) hpcy)).trans ?_
    exact congrArg (fun v : StreamUnit => v.pc + 1) (unitOf_of_strm (hrep.field State.strm) u.val)
  · exact (hcounts ..).trans ((hcount ..).trans (if_pos ⟨rfl, rfl⟩))
  · exact (hcounts ..).trans ((hcount ..).trans (if_neg hne))

end

/-! ### The host signals and restores -/

section
variable {q : Port} {w : Word} {s : State}

theorem semaSig_shows {k : Fin 4} {m : Nat} {e : Bool} (hm : 64 * k.val + fld w 5 0 = m) (he : flag w 8 = e)
    (hmay : MayWrite s q (pgSEMA k.val) 0x084) :
    ∃ t, exec (.semaSig q k w) s = .next t ∧ MemStands s t ∧
      (fld w 15 12 = 0 → semCount t m e = semCount s m e ∧ Told t q (pgSEMA k.val) cCMD_REJ (0x084 + 12 * 2 ^ 12 + q.num * 2 ^ 20)) ∧
      (fld w 15 12 ≠ 0 → semQueue s m e = [] → semCount t m e = min 255 (semCount s m e + fld w 15 12) ∧
        (255 < semCount s m e + fld w 15 12 → rdB t (pgSEMA k.val) (0x088 + 4 * (m % 64 / 32)) (m % 32) = true)) := by
  have hlt : fld w 5 0 < 64 := Nat.mod_lt _ (by decide)
  have hpage : semPage m = pgSEMA k.val := by unfold semPage; rw [← hm]; congr 1; omega
  have hexec : exec (.semaSig q k w) s = settle s (effSemaSig q k.val w s) := congrArg (settle s) (gateWrite_mayWrite hmay)
  unfold effSemaSig at hexec
  rw [hm, he] at hexec
  obtain ⟨c, hc⟩ : ∃ c, fld w 15 12 = c := ⟨_, rfl⟩
  rw [hc] at hexec ⊢
  by_cases hzero : c = 0
  · rw [if_pos hzero] at hexec
    have hrep := refuse_reports q (pgSEMA k.val) cCMD_REJ (0x084 + 12 * 2 ^ 12 + q.num * 2 ^ 20) s
    have htold := told_refuse q (pgSEMA k.val) cCMD_REJ (d := 0x084 + 12 * 2 ^ 12 + q.num * 2 ^ 20) (by cases q <;> decide) s
    have hcount : semCount (Machine.refuse q (pgSEMA k.val) cCMD_REJ (0x084 + 12 * 2 ^ 12 + q.num * 2 ^ 20) s) m e = semCount s m e :=
      semCount_of_rd (rd_refuse (semCnt_lt m) (by simp only [semCnt]; omega) ..) e
    unfold cmdRej at hexec
    obtain ⟨t, ht⟩ : ∃ t, Machine.refuse q (pgSEMA k.val) cCMD_REJ (0x084 + 12 * 2 ^ 12 + q.num * 2 ^ 20) s = t := ⟨_, rfl⟩
    rw [ht] at hexec hrep htold hcount
    exact ⟨_, hexec.trans (settle_eq ..), memStands_of_mem (hrep.field State.mem), fun _ => ⟨hcount, htold⟩, fun h => absurd hzero h⟩
  · rw [if_neg hzero] at hexec
    have hmem : (semSignal m e c s).mem = s.mem := (semServe_side m e _).mem.trans ((semAdd_reports m e c s).field State.mem)
    have hshows : semQueue s m e = [] → semCount (semSignal m e c s) m e = min 255 (semCount s m e + c) ∧
        (255 < semCount s m e + c → rdB (semSignal m e c s) (pgSEMA k.val) (0x088 + 4 * (m % 64 / 32)) (m % 32) = true) := fun hq => by
      rw [semSignal_empty hq]
      refine ⟨(semCount_semAdd ..).trans (if_pos ⟨rfl, rfl⟩), fun hover => ?_⟩
      rw [← hpage]; exact semAdd_ovf hover
    obtain ⟨t, ht⟩ : ∃ t, semSignal m e c s = t := ⟨_, rfl⟩
    rw [ht] at hexec hmem hshows
    exact ⟨_, hexec.trans (settle_eq ..), memStands_of_mem hmem, fun h => absurd h hzero, fun _ => hshows⟩

/-! A restore -/

theorem semCount_restorePair (n : Nat) (s : State) (m : Nat) (f : Bool) :
    semCount (restorePair n s) m f = if m = n then semRest s m f else semCount s m f := by
  unfold restorePair
  rw [semCount_setSem, semCount_setSem]
  by_cases hm : m = n
  · subst hm
    cases f
    · rw [if_neg (by simp), if_pos ⟨rfl, rfl⟩, if_pos rfl]; exact Nat.mod_eq_of_lt (semRest_lt ..)
    · rw [if_pos ⟨rfl, rfl⟩, if_pos rfl]; exact Nat.mod_eq_of_lt (semRest_lt ..)
  · rw [if_neg fun h => hm h.1, if_neg fun h => hm h.1, if_neg hm]

theorem restorePair_reports (n : Nat) (s : State) : ReportsOnly s (restorePair n s) := (setSem_reports ..).trans (setSem_reports ..)

theorem semRest_restorePair (n : Nat) (s : State) (m : Nat) (f : Bool) : semRest (restorePair n s) m f = semRest s m f :=
  (semRest_setSem ..).trans (semRest_setSem ..)

theorem atRest_iff (s : State) (m : Nat) : atRest s m = true ↔ ∀ f, semCount s m f = semRest s m f := by
  unfold atRest
  rw [Bool.and_eq_true_iff, decide_eq_true_iff, decide_eq_true_iff]
  refine ⟨fun ⟨hfill, hempty⟩ f => ?_, fun h => ⟨h false, h true⟩⟩
  cases f
  · exact hfill
  · exact hempty

theorem atRest_restorePair {n m : Nat} {s : State} (h : m = n ∨ atRest s m = true) : atRest (restorePair n s) m = true := by
  refine (atRest_iff ..).mpr fun f => ?_
  rw [semCount_restorePair, semRest_restorePair]
  split
  · rfl
  · rename_i hne
    exact (atRest_iff ..).mp (h.resolve_left hne) f

/-- Every pair of a list that is restored stands at its rest counts. -/
theorem atRest_restores {m : Nat} : ∀ (l : List Nat) (s : State), m ∈ l ∨ atRest s m = true →
    atRest (l.foldl (fun t n => restorePair n t) s) m = true
  | [], _, h => h.resolve_left List.not_mem_nil
  | n :: l, s, h => by
    refine atRest_restores l _ ?_
    rcases h with h | h
    · rcases List.mem_cons.mp h with rfl | h
      · exact .inr (atRest_restorePair (.inl rfl))
      · exact .inl h
    · exact .inr (atRest_restorePair (.inr h))

theorem restores_reports (l : List Nat) (s : State) : ReportsOnly s (l.foldl (fun t n => restorePair n t) s) :=
  foldl_keeps (ReportsOnly s) _ (fun t n ht => ht.trans (restorePair_reports n t)) l (.refl s)

/-- A pair that nobody waits on is left as it stands when waiters are served. -/
structure UnservedPair (m : Nat) (s t : State) : Prop where
  counts : ∀ f, semCount t m f = semCount s m f
  queues : ∀ f, semQueue t m f = []
  rests : ∀ f, semRest t m f = semRest s m f
  mem : t.mem = s.mem

theorem UnservedPair.serve {m : Nat} {s t : State} (h : UnservedPair m s t) (n : Nat) (e : Bool) : UnservedPair m s (semServe n e t) := by
  by_cases hn : m = n
  · subst hn; rw [semServe_empty (h.queues e)]; exact h
  · have hside := semServe_side n e t
    exact ⟨fun f => (hside.counts m f (fun hne => hn hne.1)).trans (h.counts f),
      fun f => (hside.queues m f (fun hne => hn hne.1)).trans (h.queues f), fun f => (hside.rests m f).trans (h.rests f),
      hside.mem.trans h.mem⟩

theorem serves_mem (l : List Nat) (s : State) : (l.foldl (fun t n => semServe n true (semServe n false t)) s).mem = s.mem :=
  foldl_keeps (fun t => t.mem = s.mem) _
    (fun t n ht => (semServe_side n true _).mem.trans ((semServe_side n false t).mem.trans ht)) l rfl

theorem serves_idle {m : Nat} {s : State} (h : ∀ f, semQueue s m f = []) (l : List Nat) :
    UnservedPair m s (l.foldl (fun t n => semServe n true (semServe n false t)) s) :=
  foldl_keeps (UnservedPair m s) _ (fun _ n ht => (ht.serve n false).serve n true) l ⟨fun _ => rfl, h, fun _ => rfl, rfl⟩

theorem atRest_of_idle {m : Nat} {s t : State} (h : UnservedPair m s t) (hs : atRest s m = true) : atRest t m = true :=
  (atRest_iff ..).mpr fun f => (h.counts f).trans (((atRest_iff ..).mp hs f).trans (h.rests f).symm)

/-- What a restore's count and report leave of a pair. -/
theorem atRest_report {m k n d : Nat} {s : State} (hs : atRest s m = true) :
    atRest (raise (pgSEMA k) 0x101 sevINFO d (incCnt (pgSEMA k) 0x090 n s)) m = true := by
  have hrd (off : Nat) (ho : off < 0x1000) (hlow : 0x100 ≤ off) (p : Nat) :
      rd (raise (pgSEMA k) 0x101 sevINFO d (incCnt (pgSEMA k) 0x090 n s)) p off = rd s p off :=
    (rd_raise ho (by omega) ..).trans (rd_incCnt_ne (by decide) ho (by omega) ..)
  refine (atRest_iff ..).mpr fun f => ?_
  rw [semCount_of_rd (hrd _ (semCnt_lt m) (by unfold semCnt; omega) _), semRest_of_rd (hrd _ (by unfold semCfg; omega) (by unfold semCfg; omega) _)]
  exact (atRest_iff ..).mp hs f

/-- The pairs a restore names (R269). -/
def restoredPairs (k : Nat) (w : Word) : List Nat := if flag w 8 then (List.range 64).map (64 * k + ·) else [64 * k + fld w 5 0]

theorem mem_restoredPairs {k m : Nat} {w : Word} (hk : m / 64 = k) (h : flag w 8 = true ∨ m % 64 = fld w 5 0) : m ∈ restoredPairs k w := by
  unfold restoredPairs
  split
  · exact List.mem_map.mpr ⟨m % 64, List.mem_range.mpr (Nat.mod_lt _ (by decide)), by omega⟩
  · rename_i hflag
    have hm := h.resolve_left hflag
    exact List.mem_singleton.mpr (by omega)

theorem semaRestore_shows {k : Fin 4} (hmay : MayWrite s q (pgSEMA k.val) 0x080) :
    ∃ t, exec (.semaRestore q k w []) s = .next t ∧ MemStands s t ∧
      ∀ m, m / 64 = k.val → (flag w 8 = true ∨ m % 64 = fld w 5 0) → (∀ e, semQueue s m e = []) → atRest t m = true := by
  have hexec : exec (.semaRestore q k w []) s = settle s (effSemaRestore k.val w [] s) := congrArg (settle s) (gateWrite_mayWrite hmay)
  obtain ⟨d, heff⟩ : ∃ d, effSemaRestore k.val w [] s = (restoredPairs k.val w ++ []).foldl (fun t n => semServe n true (semServe n false t))
      (raise (pgSEMA k.val) 0x101 sevINFO d (incCnt (pgSEMA k.val) 0x090 (restoredPairs k.val w).length
        ((restoredPairs k.val w).foldl (fun t n => restorePair n t) s))) := ⟨_, rfl⟩
  rw [heff] at hexec
  have hrest (m : Nat) (hm : m ∈ restoredPairs k.val w) := atRest_restores (restoredPairs k.val w) s (.inl hm)
  have hrep := restores_reports (restoredPairs k.val w) s
  obtain ⟨x, hx⟩ : ∃ x, (restoredPairs k.val w).foldl (fun t n => restorePair n t) s = x := ⟨_, rfl⟩
  rw [hx] at hexec hrep
  simp only [hx] at hrest
  have hrest' (m : Nat) (hm : m ∈ restoredPairs k.val w) :=
    atRest_report (k := k.val) (n := (restoredPairs k.val w).length) (d := d) (hrest m hm)
  have hrep' := (hrep.trans (incCnt_reports (pgSEMA k.val) 0x090 (restoredPairs k.val w).length x)).trans
    (raise_reports (pgSEMA k.val) 0x101 sevINFO d _)
  obtain ⟨y, hy⟩ : ∃ y, raise (pgSEMA k.val) 0x101 sevINFO d (incCnt (pgSEMA k.val) 0x090 (restoredPairs k.val w).length x) = y := ⟨_, rfl⟩
  rw [hy] at hexec hrep'
  simp only [hy] at hrest'
  obtain ⟨l, hl⟩ : ∃ l, restoredPairs k.val w ++ [] = l := ⟨_, rfl⟩
  rw [hl] at hexec
  have hmem := serves_mem l y
  have hidle {m : Nat} (hq : ∀ e, semQueue y m e = []) := serves_idle hq l
  obtain ⟨t, ht⟩ : ∃ t, l.foldl (fun t n => semServe n true (semServe n false t)) y = t := ⟨_, rfl⟩
  rw [ht] at hexec hmem
  simp only [ht] at hidle
  refine ⟨_, hexec.trans (settle_eq ..), memStands_of_mem (hmem.trans (hrep'.field State.mem)), fun m hk hm hq => ?_⟩
  have hqy : ∀ e, semQueue y m e = [] := fun e => (semQueue_of_sema (hrep'.field State.sema) m e).trans (hq e)
  have hrested := atRest_of_idle (hidle hqy) (hrest' m (mem_restoredPairs hk hm))
  exact hrested

/-! ### A trigger input is cleared -/

theorem trigCount_setTrig {p r off i : Nat} {s : State} (h : trigLoc p = some (r, off)) (hi : i < 4) :
    trigCount (setTrig p i 0 s) p i = 0 := by
  unfold trigCount setTrig
  rw [h]
  exact (rdF_wrF r off (4 * i + 3) (4 * i) 0 s (by omega) (by omega)).trans (Nat.zero_mod _)

theorem setTrig_reports (p i n : Nat) (s : State) : ReportsOnly s (setTrig p i n s) := by
  unfold setTrig; split
  · exact wrF_reports ..
  · exact .refl s

theorem regsStandBut_setTrig {p r off : Nat} (h : trigLoc p = some (r, off)) (i n : Nat) (s : State) : RegsStandBut [r] s (setTrig p i n s) := by
  unfold setTrig; rw [h]
  exact regsStandBut_wr (trigLoc_off h).1 r _ s

/-- An engine's page that has a trigger-clear register holds its own counters (R276). -/
theorem trigLoc_of_clr {p off : Nat} (h : trigClrOff p = some off) (hk : kindOf p ≠ some .sema) : ∃ o, trigLoc p = some (p, o) := by
  unfold trigClrOff at h
  unfold trigLoc
  cases hkind : kindOf p with
  | none => rw [hkind] at h; cases h
  | some k =>
    rw [hkind] at h hk
    cases k <;> simp_all

theorem sema_range {p : Nat} (h : kindOf p = some .sema) : 0x060 ≤ p ∧ p < 0x064 := by
  obtain ⟨r, hr, hrk, hlo, hhi⟩ := kindOf_row h
  have hrow : r = ⟨0x060, 4, .sema, 2⟩ := by revert hrk; clear hlo hhi; revert r; decide
  subst hrow
  exact ⟨hlo, hhi⟩

theorem kindOf_strm : ∀ u < 32, kindOf (pgSTRM u) = some .strm := by decide

/-- The counters of the stream units' inputs lie in the SEMA page of their group (R276). -/
theorem trigLoc_strm {p i : Nat} (hlo : 0x060 ≤ p) (hhi : p < 0x064) (hi : i < 8) :
    ∃ o, trigLoc (pgSTRM ((p - 0x060) * 8 + i)) = some (p, o) := by
  unfold trigLoc
  rw [kindOf_strm _ (by omega)]
  dsimp only
  rw [if_pos rfl]
  refine ⟨_, congrArg some (Prod.ext ?_ rfl)⟩
  simp only [pgSEMA, pgSTRM]
  omega

/-- What a clear of one input leaves, on the page that holds the counters. -/
theorem setTrig_shows {o : Host.Outcome State Fault Refusal} {p r off i : Nat} (h : trigLoc p = some (r, off)) (hi : i < 4)
    (hexec : o = settle s (setTrig p i 0 s)) : ∃ t, o = .next t ∧ RegsStandBut [r] s t ∧ MemStands s t ∧ trigCount t p i = 0 := by
  have hregs := regsStandBut_setTrig h i 0 s
  have hmem := (setTrig_reports p i 0 s).field State.mem
  have hcount := trigCount_setTrig (s := s) h hi
  obtain ⟨t, ht⟩ : ∃ t, setTrig p i 0 s = t := ⟨_, rfl⟩
  rw [ht] at hregs hmem hcount hexec
  exact ⟨_, hexec.trans (settle_eq ..), hregs, memStands_of_mem hmem, hcount⟩

theorem trigClr_shows {p off : Nat} (hclr : trigClrOff p = some off) (hmay : MayWrite s q p off) :
    ∃ t, exec (.trigClr q p w) s = .next t ∧ RegsStandBut [p] s t ∧ MemStands s t ∧
      (if kindOf p = some .sema then trigCount t (pgSTRM ((p - 0x060) * 8 + fld w 2 0)) (fld w 5 4) = 0
       else trigCount t p (fld w 1 0) = 0) := by
  have hexec : exec (.trigClr q p w) s = settle s (effTrigClr p w s) := by
    change execTrigClr q p w s = _
    unfold execTrigClr
    rw [hclr]
    exact congrArg (settle s) (gateWrite_mayWrite hmay)
  by_cases hk : kindOf p = some .sema
  · obtain ⟨hlo, hhi⟩ := sema_range hk
    obtain ⟨o, ho⟩ := trigLoc_strm hlo hhi (i := fld w 2 0) (Nat.mod_lt _ (by decide))
    have heff : effTrigClr p w s = setTrig (pgSTRM ((p - 0x060) * 8 + fld w 2 0)) (fld w 5 4) 0 s := by unfold effTrigClr; rw [hk]
    simp only [if_pos hk]
    exact setTrig_shows ho (Nat.mod_lt _ (by decide)) (hexec.trans (congrArg (settle s) heff))
  · obtain ⟨o, ho⟩ := trigLoc_of_clr hclr hk
    have heff : effTrigClr p w s = setTrig p (fld w 1 0) 0 s := by
      unfold effTrigClr; split
      · rename_i h; exact absurd h hk
      · rfl
    simp only [if_neg hk]
    exact setTrig_shows ho (Nat.mod_lt _ (by decide)) (hexec.trans (congrArg (settle s) heff))

end

/-- Settles O31. -/
theorem semaphoresAndTriggers : Obligations.SemaphoresAndTriggers :=
  ⟨fun _ _ hq => ⟨waits_shows rfl rfl hq, sigs_shows rfl rfl hq⟩,
    fun _ _ _ _ => semaSig_shows rfl rfl, fun _ _ _ _ => semaRestore_shows, fun _ _ _ _ _ => trigClr_shows⟩

end Sys2Proof.Machine
end

section
/-!
PROOFS. The ends of a stream unit's job, its marks and barriers, run-ahead, and the prefetch fence (R226, R242 to R244, R253, R259, R277,
R283).
-/
namespace Sys2Proof.Machine

/-! ### What withdrawing a unit's requests leaves -/

/-- An operation that changes what the Mews, the semaphores and the units remember, and reports. -/
structure WaitsOnly (s t : State) : Prop where
  eq : t = { s with regs := t.regs, outbox := t.outbox, mews := t.mews, sema := t.sema, strm := t.strm }

namespace WaitsOnly

variable {s t u a b : State}

theorem refl (s : State) : WaitsOnly s s := ⟨rfl⟩

theorem after (g : WaitsOnly t u) (h : WaitsOnly s t) : WaitsOnly s u := by
  obtain ⟨g⟩ := g
  obtain ⟨h⟩ := h
  refine ⟨?_⟩
  rw [h] at g
  exact g

theorem reports (h : ReportsOnly s t) : WaitsOnly s t := by
  refine ⟨?_⟩
  have hmews := h.field State.mews
  have hsema := h.field State.sema
  have hstrm := h.field State.strm
  rw [hmews, hsema, hstrm]
  exact h.eq

theorem ite {c : Prop} [Decidable c] (ha : WaitsOnly s a) (hb : WaitsOnly s b) : WaitsOnly s (if c then a else b) := by
  split
  · exact ha
  · exact hb

theorem foldl {β : Type} {g : State → β → State} (h : ∀ t x, WaitsOnly t (g t x)) (l : List β) (s : State) : WaitsOnly s (l.foldl g s) :=
  foldl_keeps (WaitsOnly s) g (fun t x ht => (h t x).after ht) l (.refl s)

theorem iter {g : State → State} (h : ∀ t, WaitsOnly t (g t)) : ∀ (n : Nat) (s : State), WaitsOnly s (iter g n s)
  | 0, s => .refl s
  | n + 1, s => (WaitsOnly.iter h n (g s)).after (h s)

/-- A part of the state that is none of these stands. -/
theorem field {α : Type} (h : WaitsOnly s t) (f : State → α)
    (hf : ∀ x r o m e v, f { x with regs := r, outbox := o, mews := m, sema := e, strm := v } = f x := by exact fun _ _ _ _ _ _ => rfl) :
    f t = f s := (congrArg f h.eq).trans (hf ..)

end WaitsOnly

theorem waits_mews (m : MewsState) (s : State) : WaitsOnly s { s with mews := m } := ⟨rfl⟩

theorem waits_sema (m : SemaState) (s : State) : WaitsOnly s { s with sema := m } := ⟨rfl⟩

theorem waits_modUnit (u : Nat) (f : StreamUnit → StreamUnit) (s : State) : WaitsOnly s (modUnit u f s) := ⟨rfl⟩

theorem waits_setQueue (n : Nat) (recov : Bool) (l : List MewsReq) (s : State) : WaitsOnly s (setQueue n recov l s) := waits_mews ..

theorem waits_setBuf (n i : Nat) (b : Buf) (s : State) : WaitsOnly s (setBuf n i b s) := waits_mews ..

theorem waits_giveAnswer (src : MewsSrc) (st h : Nat) (s : State) : WaitsOnly s (giveAnswer src st h s) := waits_mews ..

theorem waits_grantBuf (n : Nat) (r : MewsReq) (s : State) : WaitsOnly s (grantBuf n r s).2 :=
  (WaitsOnly.reports (grantBuf_reports n r s)).after (waits_setBuf ..)

theorem waits_grantWaiting (n : Nat) (r : MewsReq) (s : State) : WaitsOnly s (grantWaiting n r s) := by
  unfold grantWaiting; dsimp only
  split
  · exact (WaitsOnly.reports (raise_reports ..)).after ((WaitsOnly.reports (opAnswer_reports ..)).after (waits_grantBuf ..))
  · exact (waits_giveAnswer ..).after (waits_grantBuf ..)

theorem waits_serveOne (n : Nat) (s : State) : WaitsOnly s (serveOne n s) := by
  unfold serveOne
  split
  · exact (waits_grantWaiting ..).after (waits_setQueue ..)
  · split
    · exact (waits_grantWaiting ..).after (waits_setQueue ..)
    · exact .refl s

theorem waits_effServe (s : State) : WaitsOnly s (effServe s) :=
  .foldl (fun t n => .ite (.iter (waits_serveOne n) _ t) (.refl t)) _ s

theorem waits_answerGone (s : State) (r : MewsReq) : WaitsOnly s (answerGone s r) := by
  unfold answerGone
  split
  · exact .reports (opAnswer_reports ..)
  · exact waits_giveAnswer ..

theorem waits_mewsWithdraw (f : MewsReq → Bool) (fenced : Bool) (s : State) : WaitsOnly s (mewsWithdraw f fenced s) := by
  rw [mewsWithdraw_eq]
  have hqueues : WaitsOnly s ((List.range 16).foldl (withdrawAt f) s) := .foldl (fun t k => waits_mews _ t) _ s
  exact .ite ((WaitsOnly.foldl waits_answerGone _ _).after hqueues) hqueues

theorem waits_mewsDrop (src : MewsSrc) (s : State) : WaitsOnly s (mewsDrop src s) := by
  have htake (t : State) : WaitsOnly t (takeAnswer src t).2 := by
    unfold takeAnswer; split
    · exact waits_mews _ t
    · exact .refl t
  exact (htake _).after (waits_mewsWithdraw ..)

theorem waits_mewsDropAhead (u : Nat) (s : State) : WaitsOnly s (mewsDropAhead u s) := by
  unfold mewsDropAhead; dsimp only
  refine (waits_effServe _).after (.after (.foldl (fun t a => ?_) _ _) ((waits_mews _ _).after (waits_mewsWithdraw _ _ s)))
  exact .ite (waits_setBuf ..) (.refl t)

theorem waits_semServe (n : Nat) (e : Bool) (s : State) : WaitsOnly s (semServe n e s) := by
  refine .iter (fun t => ?_) _ s
  unfold semServeOne
  split
  · exact .ite ((waits_sema ..).after ((waits_sema ..).after (.reports (setSem_reports ..)))) (.refl t)
  · exact .refl t

theorem waits_semWithdraw (f : SemWho → Bool) (s : State) : WaitsOnly s (semWithdraw f s) := by
  unfold semWithdraw; dsimp only
  exact (waits_sema ..).after (.foldl (fun t k => (waits_semServe ..).after (waits_sema _ t)) ..)

/-- What every end of a unit's job does first touches no job. -/
theorem waits_strmStop (u : Nat) (s : State) : WaitsOnly s (strmStop u s) := by
  have hdrop : WaitsOnly s (mewsDrop (.stream u) (mewsDropAhead u (semWithdraw (fun w => decide (w = .stream u)) s))) :=
    (waits_mewsDrop ..).after ((waits_mewsDropAhead ..).after (waits_semWithdraw ..))
  unfold strmStop discardAhead
  exact (waits_modUnit ..).after ((waits_modUnit ..).after hdrop)

/-! ### The end of a page's job -/

theorem pageJobs_modJobs (p : Nat) (f : PageJobs → PageJobs) (s : State) : pageJobs (modJobs p f s) p = f (pageJobs s p) :=
  (pageJobs_setJobs ..).trans (if_pos rfl)

theorem jobEnded_reports (p : Nat) (s : State) : ReportsOnly s (jobEnded p s) := by
  unfold jobEnded; split
  · exact (stallEnd_reports ..).trans (syncQuiesced_reports ..)
  · exact .refl s

/-- The finished job as its end records it. -/
def endedJob (j : PageJobs) (r : Job) (status detail at_ : Nat) : PageJobs :=
  { j with running := j.running.tail, done := j.done ++ [⟨r, status, detail, at_, false, false, false, j.started⟩] }

theorem eraseP_true {α : Type} : ∀ l : List α, l.eraseP (fun _ => true) = l.tail
  | [] => rfl
  | _ :: _ => rfl

theorem pageJobs_finish {p : Nat} {s : State} {r : Job} (hrun : running s p = some r) (st d : Nat) :
    pageJobs (finish p st d s) p = endedJob (pageJobs s p) r st d (now s) := by
  have hfind : (pageJobs s p).running.find? (fun _ => true) = some r := by
    unfold running at hrun
    cases hl : (pageJobs s p).running with
    | nil => rw [hl] at hrun; cases hrun
    | cons x l => rw [hl] at hrun; exact hrun
  unfold finish finishIf
  rw [pageJobs_of_jobs ((jobEnded_reports ..).field State.jobs), pageJobs_modJobs]
  rw [hfind]
  unfold endedJob
  rw [← eraseP_true]

theorem finish_mem (p st d : Nat) (s : State) : (finish p st d s).mem = s.mem := (jobEnded_reports ..).field State.mem

/-- The running job of a unit ends. -/
theorem strmEnd_ends {u : Nat} {s s' : State} {r : Job} (hrun : running s (pgSTRM u) = some r) (hs : ReportsOnly s s') (st d : Nat) :
    Ended s (strmEnd u st d s') (pgSTRM u) r st ∧ MemStands s (strmEnd u st d s') := by
  have hstop := (waits_strmStop u s').after (.reports hs)
  have hjobs := pageJobs_of_jobs (hstop.field State.jobs) (pgSTRM u)
  have hnow := hstop.field now
  have hrun' : running (strmStop u s') (pgSTRM u) = some r := by unfold running; rw [hjobs]; exact hrun
  have hend := pageJobs_finish hrun' st d
  have hmem := (finish_mem (pgSTRM u) st d (strmStop u s')).trans (hstop.field State.mem)
  rw [hjobs, hnow] at hend
  unfold strmEnd
  obtain ⟨t, ht⟩ : ∃ t, finish (pgSTRM u) st d (strmStop u s') = t := ⟨_, rfl⟩
  rw [ht] at hend hmem ⊢
  refine ⟨⟨?_, ⟨r, st, d, now s, false, false, false, (pageJobs s (pgSTRM u)).started⟩, ?_, rfl, rfl, rfl⟩, memStands_of_mem hmem⟩
  · rw [hend]; rfl
  · rw [hend]; rfl

theorem running_of_run {s : State} {u : Nat} {j : Job} (h : runningRun s u = some j) : running s (pgSTRM u) = some j := by
  unfold runningRun at h
  split at h
  · rename_i r hr
    split at h
    · rw [hr]; exact h
    · cases h
  · cases h

/-- A command that ends the unit's job. -/
theorem settles_strmEnd {o : Host.Outcome State Fault Refusal} {u st d : Nat} {j : Job} {s s' : State} (hrun : runningRun s u = some j)
    (hs : ReportsOnly s s') (hexec : o = settle s (strmEnd u st d s')) :
    ∃ t, o = .next t ∧ Ended s t (pgSTRM u) j st ∧ MemStands s t := by
  obtain ⟨hend, hmem⟩ := strmEnd_ends (running_of_run hrun) hs st d
  obtain ⟨t, ht⟩ : ∃ t, strmEnd u st d s' = t := ⟨_, rfl⟩
  rw [ht] at hend hmem hexec
  exact ⟨_, hexec.trans (settle_eq ..), hend, hmem⟩

section
variable {u : Fin 32} {s : State} {j : Job} {v : StreamUnit}

theorem agEnd_shows (hrun : runningRun s u.val = some j) (h : AtInsn s u.val opEND) :
    ∃ t, exec (.agEnd u) s = .next t ∧ Ended s t (pgSTRM u.val) j stDONE ∧ MemStands s t :=
  settles_strmEnd hrun (.refl s) (congrArg (settle s) (atInsn_at h _))

theorem agPcOverrun_shows (hrun : runningRun s u.val = some j) (h : (unitOf s u.val).progLen ≤ (unitOf s u.val).pc) :
    ∃ t, exec (.agPcOverrun u) s = .next t ∧ Ended s t (pgSTRM u.val) j 0x0502 ∧ MemStands s t := by
  refine settles_strmEnd (s' := s) (d := (unitOf s u.val).progLen) hrun (.refl s) ?_
  change execAgPcOverrun u s = _
  unfold execAgPcOverrun
  dsimp only
  rw [hrun, if_pos ⟨rfl, h⟩]

theorem runJobDeadline_shows (hrun : runningRun s u.val = some j) (h : pastDeadline s j.deadline = true) :
    ∃ t, exec (.runJobDeadline u) s = .next t ∧ Ended s t (pgSTRM u.val) j stABORT_DEADLINE ∧ MemStands s t := by
  refine settles_strmEnd (s' := missEvent (pgSTRM u.val) j s) (d := now s) hrun (raise_reports ..) ?_
  change execRunJobDeadline u s = _
  unfold execRunJobDeadline strmDeadline
  dsimp only
  rw [hrun, running_of_run hrun]
  exact congrArg (settle s) (if_pos h)

/-! ### Barriers and marks -/

theorem drain_shows (hv : unitOf s u.val = v) {n : Nat} (hn : insnOf s u.val = n) (h : AtInsn s u.val opDRAIN) :
    ∃ t, exec (.drain u) s = .next t ∧ OnlyUnit u.val s t ∧
      (if bitOf n 0 = true ∨ v.signalled.all (atRest s) = true then (unitOf t u.val).pc = v.pc + 1
       else (unitOf t u.val).pc = v.pc ∧ (unitOf t u.val).draining = true) := by
  have hexec := congrArg (settle s) (atInsn_at h (fun n s => if bitOf n 0 || (unitOf s u.val).signalled.all (atRest s) then
      commitNext u.val (modUnit u.val (fun v => { v with signalled := [] }) s)
    else modUnit u.val (fun v => { v with
      draining := true, waitKind := 1, waitSem := (v.signalled.filter (fun p => !atRest s p)).foldl min 255 }) s))
  rw [hn, hv] at hexec
  subst hv
  by_cases hrest : bitOf n 0 = true ∨ (unitOf s u.val).signalled.all (atRest s) = true
  · rw [if_pos ((Bool.or_eq_true ..).mpr hrest)] at hexec
    simp only [if_pos hrest]
    obtain ⟨t, ht, -, -, -, hpc, honly⟩ := settles_commit (fun v => { v with signalled := [] }) _
      (hexec.trans (congrArg (settle s) (commitNext_modUnit fun _ => rfl)))
    exact ⟨t, ht, honly, hpc⟩
  · rw [if_neg (mt (Bool.or_eq_true ..).mp hrest)] at hexec
    simp only [if_neg hrest]
    obtain ⟨t, ht, hunit, honly⟩ := settles_mod _ hexec
    refine ⟨t, ht, honly, ?_⟩
    rw [hunit]
    exact ⟨rfl, rfl⟩

/-- The report of a missed mark (R242). -/
def missReport (u id pc jid : Nat) (s : State) : State :=
  raise (pgSTRM u) cDEADLINE_MISS sevJOB (id + pc * 256 + jid % 65536 * 65536)
    (incCnt (pgSTRM u) 0x0A0 1 (modUnit u (fun v => { v with missed := v.missed ++ [id] }) s))

theorem onlyUnit_reports {u : Nat} {s t : State} (h : ReportsOnly s t) (hregs : RegsStandBut [pgSTRM u] s t) : OnlyUnit u s t :=
  onlyUnit_of_strm (h.field State.mem) (h.field State.strm) hregs

theorem missReport_shows (u id pc jid : Nat) (s : State) : OnlyUnit u s (missReport u id pc jid s) ∧
    unitOf (missReport u id pc jid s) u = { unitOf s u with missed := (unitOf s u).missed ++ [id] } ∧
    rd (missReport u id pc jid s) (pgSTRM u) 0x0A0 = BitVec.ofNat 32 ((rd s (pgSTRM u) 0x0A0).toNat + 1) := by
  have hmod := onlyUnit_modUnit u (fun v => { v with missed := v.missed ++ [id] }) s
  have hunit := unitOf_modUnit_same u (fun v => { v with missed := v.missed ++ [id] }) s
  have hrd : rd (modUnit u (fun v => { v with missed := v.missed ++ [id] }) s) (pgSTRM u) 0x0A0 = rd s (pgSTRM u) 0x0A0 := rfl
  unfold missReport
  obtain ⟨x, hx⟩ : ∃ x, modUnit u (fun v => { v with missed := v.missed ++ [id] }) s = x := ⟨_, rfl⟩
  rw [hx] at hmod hunit hrd ⊢
  have hrep := (incCnt_reports (pgSTRM u) 0x0A0 1 x).trans
    (raise_reports (pgSTRM u) cDEADLINE_MISS sevJOB (id + pc * 256 + jid % 65536 * 65536) _)
  refine ⟨hmod.trans (onlyUnit_reports hrep ?_), (unitOf_of_strm (hrep.field State.strm) u).trans hunit, ?_⟩
  · exact (regsStandBut_incCnt (by decide) _ 1 x).trans (regsStandBut_raise _ _ _ _ _)
  · rw [rd_raise (by decide) (by omega), rd_incCnt (by decide) (by decide), hrd]

/-- A look at the armed mark reports it once, or changes nothing. -/
theorem markMiss_cases (u : Nat) (s : State) : markMiss u s = s ∨ ∃ id pc jid, markMiss u s = missReport u id pc jid s := by
  unfold markMiss
  split
  · exact .inl rfl
  · dsimp only
    split
    · exact .inl rfl
    · split
      · exact .inl rfl
      · split
        · exact .inl rfl
        · exact .inr ⟨_, _, _, rfl⟩

theorem mark_shows (hv : unitOf s u.val = v) (h : AtInsn s u.val opMARK) :
    ∃ t, exec (.mark u) s = .next t ∧ OnlyUnit u.val s t ∧ (unitOf t u.val).pc = v.pc + 1 := by
  have hexec : exec (.mark u) s = settle s (commitNext u.val (markMiss u.val s)) := congrArg (settle s) (atInsn_at h _)
  have hmiss : OnlyUnit u.val s (markMiss u.val s) ∧ (unitOf (markMiss u.val s) u.val).pc = v.pc := by
    rcases markMiss_cases u.val s with hm | ⟨id, pc, jid, hm⟩
    · rw [hm, hv]; exact ⟨.refl .., rfl⟩
    · obtain ⟨honly, hunit, -⟩ := missReport_shows u.val id pc jid s
      rw [hm, hunit, hv]; exact ⟨honly, rfl⟩
  obtain ⟨x, hx⟩ : ∃ x, markMiss u.val s = x := ⟨_, rfl⟩
  rw [hx] at hexec hmiss
  obtain ⟨honly, hpc⟩ := hmiss
  obtain ⟨hpc', honly'⟩ := commitNext_shows u.val x
  obtain ⟨t, ht⟩ : ∃ t, commitNext u.val x = t := ⟨_, rfl⟩
  rw [ht] at hexec hpc' honly'
  exact ⟨_, hexec.trans (settle_eq ..), honly.trans honly', hpc'.trans (congrArg (· + 1) hpc)⟩

theorem markDeadlineMiss_shows (hv : unitOf s u.val = v) {pc : Nat} (hrun : (runningRun s u.val).isSome = true)
    (hbase : rd64 s (pgSTRM u.val) 0x090 ≠ 0) (hmark : nextMark v markFuel v.pc v.c = some pc)
    (hnot : v.missed.contains (bitsOf (v.prog.get 0 pc) 39 32) = false)
    (hlate : rd64 s (pgSTRM u.val) 0x090 + bitsOf (v.prog.get 0 pc) 31 0 < now s) :
    ∃ t, exec (.markDeadlineMiss u) s = .next t ∧ OnlyUnit u.val s t ∧
      (unitOf t u.val).missed = v.missed ++ [bitsOf (v.prog.get 0 pc) 39 32] ∧
      rd t (pgSTRM u.val) 0x0A0 = BitVec.ofNat 32 ((rd s (pgSTRM u.val) 0x0A0).toNat + 1) := by
  obtain ⟨j, hj⟩ := Option.isSome_iff_exists.mp hrun
  obtain ⟨id, hid⟩ : ∃ id, bitsOf (v.prog.get 0 pc) 39 32 = id := ⟨_, rfl⟩
  have hexec : exec (.markDeadlineMiss u) s = settle s (missReport u.val id pc j.id s) := by
    refine congrArg (settle s) ?_
    unfold markMiss
    rw [hj]
    dsimp only
    rw [if_neg hbase, hv, hmark]
    dsimp only
    rw [if_neg, hid]
    · rfl
    · rw [hnot]
      rintro (h | h)
      · exact Nat.not_le.mpr hlate h
      · exact Bool.false_ne_true h
  obtain ⟨honly, hunit, hcount⟩ := missReport_shows u.val id pc j.id s
  rw [hid]
  obtain ⟨t, ht⟩ : ∃ t, missReport u.val id pc j.id s = t := ⟨_, rfl⟩
  rw [ht] at hexec honly hunit hcount
  exact ⟨_, hexec.trans (settle_eq ..), honly, (congrArg StreamUnit.missed hunit).trans (by rw [hv]), hcount⟩

/-! ### Run-ahead -/

theorem runaheadIssue_shows (hv : unitOf s u.val = v) (hrun : (runningRun s u.val).isSome = true) (hon : pageOn s (pgSTRM u.val) = true)
    (hpc : (raOf v).pc < v.progLen) (hop : iOp (v.prog.get 0 (raOf v).pc) = opSETA) :
    ∃ t, exec (.runaheadIssue u) s = .next t ∧ t.regs = s.regs ∧ t.jobs = s.jobs ∧
      unitOf t u.val = { v with paused := false, ra := some { raOf v with
        pc := (raOf v).pc + 1, ahead := (raOf v).ahead + 1
        a := (raOf v).a.put 0 (iA (v.prog.get 0 (raOf v).pc)) (bitsOf (v.prog.get 0 (raOf v).pc) 39 0)
        pend := (raOf v).pend.put 0 (iA (v.prog.get 0 (raOf v).pc)) 0 } } := by
  obtain ⟨j, hj⟩ := Option.isSome_iff_exists.mp hrun
  obtain ⟨r, hr⟩ : ∃ r, raOf v = r := ⟨_, rfl⟩
  obtain ⟨n, hn⟩ : ∃ n, v.prog.get 0 r.pc = n := ⟨_, rfl⟩
  rw [hr] at hpc hop ⊢
  rw [hn] at hop ⊢
  have hexec : exec (.runaheadIssue u) s = settle s (modUnit u.val (fun v => { v with ra := some { r with
      pc := r.pc + 1, ahead := r.ahead + 1, a := r.a.put 0 (iA n) (bitsOf n 39 0), pend := r.pend.put 0 (iA n) 0 }, paused := false }) s) := by
    change execRunaheadIssue u s = _
    unfold execRunaheadIssue effRunahead
    dsimp only
    rw [hj]
    dsimp only
    rw [if_pos hon, hv, hr, hn, hop, if_neg, if_pos rfl]
    · rfl
    · rintro (h | h | h | h | h)
      · exact absurd hpc (Nat.not_lt.mpr h)
      · exact absurd h (by decide)
      · exact absurd h (by decide)
      · exact absurd h (by decide)
      · exact absurd h.1 (by decide)
  have hunit := unitOf_modUnit_same u.val (fun v => { v with ra := some { r with
    pc := r.pc + 1, ahead := r.ahead + 1, a := r.a.put 0 (iA n) (bitsOf n 39 0), pend := r.pend.put 0 (iA n) 0 }, paused := false }) s
  rw [hv] at hunit
  exact ⟨_, hexec.trans (settle_eq ..), rfl, rfl, hunit⟩

theorem mewsAsk_engine {r : MewsReq} {n : Nat} {spill wait : Bool} (hlo : 1 ≤ r.size) (hhi : r.size ≤ 4194304)
    (hpage : fenceBit s pgMEWS = false) (hfence : ownerFenced s r.owner = false) (hhome : homePool s r.size = some n)
    (hopen : openNow s n r.recov = true) : mewsAsk r false spill wait s = (mwOK, (grantBuf n r s).1, (grantBuf n r s).2) := by
  unfold mewsAsk
  rw [if_neg (by omega), if_neg (by rw [hpage, hfence]; simp), hhome]
  exact if_pos hopen

theorem tentative_shows (hv : unitOf s u.val = v) {r : RunAhead} (hr : raOf v = r) {n m : Nat} (hn : v.prog.get 0 r.pc = n) (hwf : MewsWf s)
    (hrun : runningRun s u.val = some j) (hpc : r.pc < v.progLen) (hop : iOp n = opXFER) (hkind : iDstKind n = 2)
    (hblind : raBlind s u.val r n = false) (hfilter : filterInsn s v (raRegs s u.val r) r.hs n = none)
    (hdue : tentDue s u.val r = true) (hout : tentOut s u.val < 4) (hlo : 1 ≤ bufSize v (iShape n)) (hhi : bufSize v (iShape n) ≤ 4194304)
    (hpage : fenceBit s pgMEWS = false) (hfence : ownerFenced s j.owner = false) (hhome : homePool s (bufSize v (iShape n)).toNat = some m)
    (hopen : openNow s m false = true) :
    ∃ t h, exec (.tentative u) s = .next t ∧ ⟨.ahead u.val r.bufs, mwOK, h⟩ ∈ t.mews.answers ∧ current t h = true ∧
      (bufOf t m (hIndex h)).tent = true ∧ MemStands s t := by
  obtain ⟨req, hreq⟩ : ∃ req : MewsReq, ⟨.ahead u.val r.bufs, j.owner, (bufSize v (iShape n)).toNat, false⟩ = req := ⟨_, rfl⟩
  have hask : mewsAsk req false (iSpill n) true s = (mwOK, (grantBuf m req s).1, (grantBuf m req s).2) := by
    subst hreq
    exact mewsAsk_engine (by dsimp only; omega) (by dsimp only; omega) hpage hfence hhome hopen
  have hexec : exec (.tentative u) s = settle s (giveAnswer (.ahead u.val r.bufs) mwOK (grantBuf m req s).1 (grantBuf m req s).2) := by
    change execTentative u s = _
    unfold execTentative effTentative
    rw [hrun]
    dsimp only
    rw [hv, hr, hn, if_pos ⟨hpc, hop, hkind, hblind, by rw [hfilter]; rfl, hdue, hout⟩, hreq, hask]
    rfl
  obtain ⟨hn8, hon⟩ := homePool_on hhome
  obtain ⟨-, hcurrent, hbuf, -, -⟩ := grantBuf_current hwf hn8 hon (canGrant_of_openNow hopen) req
  have hmem := (waits_grantBuf m req s).field State.mem
  have htent : (granted s m req).tent = true := by subst hreq; rfl
  obtain ⟨g, hg⟩ : ∃ g, grantBuf m req s = g := ⟨_, rfl⟩
  rw [hg] at hexec hcurrent hbuf hmem
  refine ⟨_, g.1, hexec.trans (settle_eq ..), List.mem_append_right _ (List.mem_singleton_self _), hcurrent, ?_, memStands_of_mem hmem⟩
  exact (congrArg Buf.tent hbuf).trans htent

/-! ### The prefetch fence -/

/-- The low 16 bits of a register hold a number below 65,536. -/
theorem fld_low16 {n : Nat} (h : n < 65536) : fld (BitVec.ofNat 32 n) 15 0 = n := by
  unfold fld bitsOf
  rw [BitVec.toNat_ofNat, Nat.mod_eq_of_lt (a := n) (by omega), Nat.shiftRight_zero]
  exact Nat.mod_eq_of_lt h

/-- The number the next completed fence shows (R283). -/
def nextFenceSeq (s : State) (u : Nat) : Nat := (rdF s (pgSTRM u) 0x09C 15 0 + 1) % 65536

theorem owner_wrN {p off : Nat} (ho : off < 0x1000) (hne : off ≠ 0x028) (n : Nat) (s : State) (p' : Nat) :
    owner (wrN p off n s) p' = owner s p' := by
  unfold owner; rw [rdF_congr (rd_wrN_other ho (by decide) (fun h => hne h.2.symm) n s)]

theorem fenceFinish_shows (u : Fin 32) (s : State) : OnlyUnit u.val s (fenceFinish u.val s) ∧
    unitOf (fenceFinish u.val s) u.val = { unitOf s u.val with fencing := false } ∧
    rdF (fenceFinish u.val s) (pgSTRM u.val) 0x09C 15 0 = nextFenceSeq s u.val ∧
    Told (fenceFinish u.val s) (owner s (pgSTRM u.val)) (pgSTRM u.val) 0x100 (nextFenceSeq s u.val) := by
  have hmod := onlyUnit_modUnit u.val (fun v => { v with fencing := false }) s
  have hunit := unitOf_modUnit_same u.val (fun v => { v with fencing := false }) s
  have howner : owner (modUnit u.val (fun v => { v with fencing := false }) s) (pgSTRM u.val) = owner s (pgSTRM u.val) := rfl
  unfold fenceFinish
  dsimp only
  obtain ⟨n, hn⟩ : ∃ n, nextFenceSeq s u.val = n := ⟨_, rfl⟩
  have hlt : n < 65536 := by rw [← hn]; exact Nat.mod_lt _ (by decide)
  have hn' := hn
  unfold nextFenceSeq at hn'
  rw [hn', hn]
  obtain ⟨x, hx⟩ : ∃ x, modUnit u.val (fun v => { v with fencing := false }) s = x := ⟨_, rfl⟩
  rw [hx] at hmod hunit howner ⊢
  have hrep := (wrN_reports (pgSTRM u.val) 0x09C n x).trans (raise_reports (pgSTRM u.val) 0x100 sevINFO n _)
  refine ⟨hmod.trans (onlyUnit_reports hrep ?_), (unitOf_of_strm (hrep.field State.strm) _).trans hunit, ?_, ?_⟩
  · exact (regsStandBut_wr (by decide) _ _ x).trans (regsStandBut_raise _ _ _ _ _)
  · refine (rdF_congr (rd_raise (by decide) (by omega) ..) 15 0).trans ?_
    unfold rdF
    rw [rd_wrN_same]
    exact fld_low16 hlt
  · rw [← howner, ← owner_wrN (off := 0x09C) (by decide) (by decide) n x (pgSTRM u.val) (p := pgSTRM u.val)]
    have hdest := destOf_owner (s := wrN (pgSTRM u.val) 0x09C n x) (p := pgSTRM u.val) (c := 0x100) (v := sevINFO) (b := none)
      (by decide) (kindOf_strm u.val u.isLt) (by decide) rfl
    have hbit : evtBit (pgSTRM u.val) 0x100 sevINFO = none := by unfold evtBit; rw [kindOf_strm u.val u.isLt]; rfl
    have htold := told_raise (d := n) (by rw [hbit]; exact hdest)
    rw [Nat.mod_eq_of_lt (by omega)] at htold
    exact htold

theorem fenceDone_shows (hon : pageOn s (pgSTRM u.val) = true) (hfencing : (unitOf s u.val).fencing = true) :
    ∃ t, exec (.fenceDone u) s = .next t ∧ (unitOf t u.val).fencing = false ∧ OnlyUnit u.val s t ∧
      rdF t (pgSTRM u.val) 0x09C 15 0 = nextFenceSeq s u.val ∧
      Told t (owner s (pgSTRM u.val)) (pgSTRM u.val) 0x100 (nextFenceSeq s u.val) := by
  have hexec : exec (.fenceDone u) s = settle s (fenceFinish u.val s) :=
    congrArg (settle s) (if_pos (Bool.and_eq_true_iff.mpr ⟨hfencing, hon⟩))
  obtain ⟨honly, hunit, hseq, htold⟩ := fenceFinish_shows u s
  obtain ⟨t, ht⟩ : ∃ t, fenceFinish u.val s = t := ⟨_, rfl⟩
  rw [ht] at hexec honly hunit hseq htold
  exact ⟨_, hexec.trans (settle_eq ..), congrArg StreamUnit.fencing hunit, honly, hseq, htold⟩

theorem strmFence_shows {q : Port} (hmay : MayWrite s q (pgSTRM u.val) 0x098) (hnot : (unitOf s u.val).fencing = false) :
    ∃ t, exec (.strmFence q u) s = .next t ∧ (unitOf t u.val).lines = [] ∧ OnlyUnit u.val s t ∧
      (if (pageJobs s (pgSTRM u.val)).running = [] then (unitOf t u.val).fencing = false ∧
        rdF t (pgSTRM u.val) 0x09C 15 0 = nextFenceSeq s u.val else (unitOf t u.val).fencing = true) := by
  have hexec : exec (.strmFence q u) s = settle s (effStrmFence q u.val s) := congrArg (settle s) (gateWrite_mayWrite hmay)
  unfold effStrmFence at hexec
  rw [hnot, if_neg Bool.false_ne_true] at hexec
  dsimp only at hexec
  have hmod := onlyUnit_modUnit u.val (fun v => { v with lines := [] }) s
  have hunit := unitOf_modUnit_same u.val (fun v => { v with lines := [] }) s
  have hseq : nextFenceSeq (modUnit u.val (fun v => { v with lines := [] }) s) u.val = nextFenceSeq s u.val := rfl
  obtain ⟨x, hx⟩ : ∃ x, modUnit u.val (fun v => { v with lines := [] }) s = x := ⟨_, rfl⟩
  rw [hx] at hexec hmod hunit hseq
  by_cases hidle : (pageJobs s (pgSTRM u.val)).running = []
  · have hnone : (running s (pgSTRM u.val)).isNone = true := by unfold running; rw [hidle]; rfl
    rw [if_pos hnone] at hexec
    simp only [if_pos hidle]
    obtain ⟨honly, hunit', hseq', -⟩ := fenceFinish_shows u x
    rw [hunit] at hunit'
    obtain ⟨t, ht⟩ : ∃ t, fenceFinish u.val x = t := ⟨_, rfl⟩
    rw [ht] at hexec honly hunit' hseq'
    exact ⟨_, hexec.trans (settle_eq ..), congrArg StreamUnit.lines hunit', hmod.trans honly, congrArg StreamUnit.fencing hunit', hseq'.trans hseq⟩
  · have hsome : ¬(running s (pgSTRM u.val)).isNone = true := by
      unfold running
      cases hl : (pageJobs s (pgSTRM u.val)).running with
      | nil => exact absurd hl hidle
      | cons a l => exact Bool.false_ne_true
    rw [if_neg hsome] at hexec
    simp only [if_neg hidle]
    have honly := onlyUnit_modUnit u.val (fun v => { v with fencing := true }) x
    have hunit' := unitOf_modUnit_same u.val (fun v => { v with fencing := true }) x
    rw [hunit] at hunit'
    obtain ⟨t, ht⟩ : ∃ t, modUnit u.val (fun v => { v with fencing := true }) x = t := ⟨_, rfl⟩
    rw [ht] at hexec honly hunit'
    exact ⟨_, hexec.trans (settle_eq ..), congrArg StreamUnit.lines hunit', hmod.trans honly, congrArg StreamUnit.fencing hunit'⟩

end

/-- Settles O32. -/
theorem drainMarkEndAndRunAhead : Obligations.DrainMarkEndAndRunAhead :=
  ⟨fun _ _ => ⟨drain_shows rfl rfl, mark_shows rfl, fun _ => markDeadlineMiss_shows rfl,
      fun _ hrun => ⟨agEnd_shows hrun, agPcOverrun_shows hrun, runJobDeadline_shows hrun⟩⟩,
    fun _ _ => runaheadIssue_shows rfl, fun _ _ _ _ hwf => tentative_shows rfl rfl rfl hwf, fun _ _ _ => strmFence_shows,
    fun _ _ => fenceDone_shows⟩

end Sys2Proof.Machine
end

section
/-!
PROOFS. A LAUNCH whose unit holds the queue priority of an earlier job (R187, R233, R260).
-/
namespace Sys2Proof.Machine

/-- A LAUNCH whose memory the unit cannot use once the job runs waits: nothing is delivered and the job goes on (R260). -/
theorem launch_waits {u : Fin 32} {j : Job} {rest : List Job} {e : Nat × Nat × Nat} {s : State}
    (hq : (pageJobs s (pgSTRM u.val)).queue = j :: rest) (hrun : (pageJobs s (pgSTRM u.val)).running = []) (hop : j.op = 2)
    (hdeps : depsMet s (pgSTRM u.val) j (strmAddrs j) = true) (hdead : pastDeadline s j.deadline = false) (hentries : launchEntries j = [e])
    (howner : owner s (pgSTRM e.2.1) = j.port) (huse : canUse (startHead (pgSTRM u.val) s) (srcUnit u.val) e.2.2 160 = false) :
    exec (.launch u) s = settle s (modUnit u.val (fun v => { v with waitKind := 4 }) (startHead (pgSTRM u.val) s)) := by
  have hfind : (launchEntries j).find? (fun e => decide (owner (startHead (pgSTRM u.val) s) (pgSTRM e.2.1) ≠ j.port)) = none := by
    rw [hentries]
    exact List.find?_eq_none.mpr fun x hx => by
      rw [List.mem_singleton.mp hx]
      exact fun h => of_decide_eq_true h howner
  have hstart : launchStart u.val j (startHead (pgSTRM u.val) s) =
      modUnit u.val (fun v => { v with waitKind := 4 }) (startHead (pgSTRM u.val) s) := by
    unfold launchStart
    rw [hfind, hentries]
    dsimp only
    unfold launchEntriesFrom
    dsimp only
    rw [huse]
    exact if_pos (.inr rfl)
  have hnone : running s (pgSTRM u.val) = none := by unfold running; rw [hrun]; rfl
  change execLaunch u s = _
  unfold execLaunch
  rw [hnone, hq]
  dsimp only
  rw [if_pos hop]
  unfold startJob
  rw [hq, hrun]
  dsimp only
  rw [hdeps, hdead]
  exact congrArg (settle s) hstart

/-- A LAUNCH to unit 1, of the RUN descriptor at DPA 0. -/
def launchJob : Job :=
  ⟨[0, 0, 0, 0, 0, 2, 0, 0] ++ List.replicate 24 0 ++ [0x81, 0, 0, 0, 0, 0, 0, 0, 0, 0, 0, 0, 0, 0, 0, 0], .a, 0, false, 0⟩

/-- DRAM is ready, `STRM_CFG.PRIO` of unit 0 is 0, its last job latched 1, and the regulator has class 1 at its cap. At DPA 0 stands a
good RUN descriptor, and at the head of the unit's queue the LAUNCH that names it. -/
def launchAtCap : State :=
  { State.reset with
    pd0 := true
    regs := [(pgPWR * 0x1000 + 0x080, 4), (pgDMC 0 * 0x1000 + 0x100, 0xF), (pgMREG * 0x1000 + 0x088, 0x10000),
        (pgSTRM 0 * 0x1000 + 0x008, 1), (pgSTRM 0 * 0x1000 + 0x00C, 1)] ++ (List.range 12).map fun c => (pgDMC c * 0x1000 + 0x008, 1)
    jobs := [(pgSTRM 0, { PageJobs.none with queue := [launchJob] })]
    strm := [(0, { StreamUnit.fresh with cfg := 1 })]
    mem := ⟨[(5, 1), (40, 1)], [⟨0, 0x1000, .zero⟩]⟩
    regul := { State.reset.regul with admitted0 := [(1, 100)] } }

/-- Refutes O28: the obligation asks that the unit can use the descriptor's memory before the LAUNCH starts, where its class is
`STRM_CFG.PRIO`; once the LAUNCH runs, its class is the one its unit latched for the RUN job before it, and in `launchAtCap` that class
is at its cap: the LAUNCH waits and does not end with DONE. -/
theorem not_runStartsAndLaunchDelivers : ¬ Obligations.RunStartsAndLaunchDelivers := by
  rintro ⟨-, hlaunch⟩
  have hdeps : depsMet launchAtCap (pgSTRM 0) launchJob (strmAddrs launchJob) = true := by decide
  have hentries : launchEntries launchJob = [(0, 1, 0)] := by decide
  have hwords : codedWords launchAtCap 0 160 = [] := by decide
  have hgood : GoodRange launchAtCap (srcUnit 0) 0 160 := ⟨by decide, fun w hw => by rw [hwords] at hw; cases hw⟩
  have hbad : strmBad launchAtCap ⟨getBytes launchAtCap 0 160, launchJob.port, 16, false, now launchAtCap⟩ = none := by decide +kernel
  obtain ⟨t, d, hexec, -, hdone, -⟩ := hlaunch 0 1 0 0 launchJob [] launchAtCap rfl rfl rfl hdeps rfl hentries (by decide) rfl (by decide) hgood
    rfl hbad
  have hwaits := launch_waits (u := 0) (rest := []) (s := launchAtCap) rfl rfl rfl hdeps rfl hentries rfl (by decide)
  have ht := Host.Outcome.next.inj (hexec.symm.trans (hwaits.trans (settle_eq ..)))
  rw [ht] at hdone
  exact List.cons_ne_nil d [] hdone.symm

end Sys2Proof.Machine
end

section
/-!
PROOFS. A transfer moves its row (R236 to R238), and a PREF changes no register (R240).
-/
namespace Sys2Proof.Machine

/-! ### Parts of a good range -/

theorem getBytes_add (s : State) (a m n : Nat) : getBytes s a (m + n) = getBytes s a m ++ getBytes s (a + m) n := by
  unfold getBytes
  rw [List.range_add, List.map_append, List.map_map]
  refine congrArg _ (List.map_congr_left fun i _ => ?_)
  rw [Function.comp, Nat.add_assoc]

/-- The words under a code that a part of a range touches are among those of the range. -/
theorem goodWords_part {s : State} {a n b m : Nat} (hdata : isData s a n = true) (h : GoodWords s a n) (hlo : a ≤ b) (hhi : b + m ≤ a + n) :
    GoodWords s b m := fun w hw => by
  obtain ⟨⟨i, hbi, ⟨hm, hi⟩, hwi⟩, hcode⟩ := mem_codedWords.mp hw
  refine h w (mem_codedWords.mpr ?_)
  rcases isData_iff hdata with ⟨ha, he, -⟩ | ⟨ha, -⟩
  · have hsa : wordSize a = 32 := if_pos ha
    have hsb : wordSize b = 32 := if_pos (by omega)
    rw [hsb] at hbi hi hwi
    rw [hsa]
    exact ⟨⟨i, Nat.le_trans (Nat.div_le_div_right hlo) hbi, ⟨by omega, Nat.le_trans hi (Nat.div_le_div_right (by omega))⟩, hwi⟩,
      fun _ => hcode (by omega)⟩
  · unfold residentBase at ha
    have hsa : wordSize a = 8 := if_neg (by omega)
    have hsb : wordSize b = 8 := if_neg (by omega)
    rw [hsb] at hbi hi hwi
    rw [hsa]
    exact ⟨⟨i, Nat.le_trans (Nat.div_le_div_right hlo) hbi, ⟨by omega, Nat.le_trans hi (Nat.div_le_div_right (by omega))⟩, hwi⟩,
      fun h => absurd h (by omega)⟩

theorem goodWords_stands {s t : State} {a n : Nat} (h : GoodWords s a n) (hacc : Accounted s t) (hdata : DataStands s t) : GoodWords t a n :=
  h.of_accounted hacc hdata.marksStand

/-- A source's write into good words of data. -/
theorem writeAs_goodWords {src : ReqSource} {a : Nat} {bs : List Byte} {s : State} (hdata : isData s a bs.length = true)
    (h : GoodWords s a bs.length) : (writeAs src a bs s).1 = none ∧ Wrote a bs s (writeAs src a bs s).2 := by
  have huse := useMem_accounted src a bs.length s
  have hstands := useMem_data src a bs.length s
  have hlen : (bs.map some).length = bs.length := List.length_map _
  obtain ⟨hnone, hstores, hbytes⟩ := writeEnabled_good (job := true) (a := a) (bs := bs.map some) (s := useMem src a bs.length s)
    (by rw [hlen, huse.sameUse.isData]; exact hdata) (by rw [hlen]; exact h.of_accounted huse hstands.marksStand)
  exact ⟨hnone, .trans ⟨huse, hstands.marksStand⟩ hstores, fun x => (hbytes x).trans (overlay_eq_of (hstands.memStands x))⟩

/-! ### A row, line by line -/

/-- The pieces of a row up to its `k`th line, joined, are its bytes up to that line's end. -/
theorem pieces_joined (s : State) (a x : Nat) : ∀ k, k ≤ (a + (x - 1)) / 64 + 1 - a / 64 →
    (((List.range k).map fun i => (a / 64 + i) * 64).map fun l => getBytes s (max a l) (min (a + x) (l + 64) - max a l)).flatten =
      getBytes s a (min x ((a / 64 + k) * 64 - a))
  | 0, _ => by
    rw [Nat.min_eq_right (by omega), show (a / 64 + 0) * 64 - a = 0 by omega]
    rfl
  | k + 1, hk => by
    rw [List.range_succ, List.map_append, List.map_append, List.flatten_append, pieces_joined s a x k (by omega), List.map_singleton,
      List.map_singleton, List.flatten_singleton]
    by_cases hzero : k = 0
    · subst hzero
      have hfirst : min x ((a / 64 + 0) * 64 - a) = 0 := by omega
      have hstart : max a ((a / 64 + 0) * 64) = a := by omega
      rw [hfirst, hstart]
      refine congrArg (getBytes s a) ?_
      omega
    · have hsum : min x ((a / 64 + (k + 1)) * 64 - a) = min x ((a / 64 + k) * 64 - a) +
          (min (a + x) ((a / 64 + k) * 64 + 64) - max a ((a / 64 + k) * 64)) := by omega
      have hstart : a + min x ((a / 64 + k) * 64 - a) = max a ((a / 64 + k) * 64) := by omega
      rw [hsum, getBytes_add, hstart]

theorem rowPieces_joined (s : State) (a : Nat) {x : Nat} (hx : 1 ≤ x) :
    ((rowPieces a x).map fun p => getBytes s p.1 p.2).flatten = getBytes s a x := by
  unfold rowPieces linesOf
  rw [List.map_map]
  refine (pieces_joined s a x _ (Nat.le_refl _)).trans (congrArg (getBytes s a) ?_)
  omega

theorem rowPieces_part {a x : Nat} {p : Nat × Nat} (h : p ∈ rowPieces a x) (hx : 1 ≤ x) : a ≤ p.1 ∧ p.1 + p.2 ≤ a + x := by
  obtain ⟨l, hl, rfl⟩ := List.mem_map.mp h
  obtain ⟨i, hi, rfl⟩ := List.mem_map.mp hl
  have hi := List.mem_range.mp hi
  dsimp only
  omega

/-- A unit without prefetched lines reads its pieces from memory. -/
theorem takeRow_good {u : Nat} : ∀ (l : List (Nat × Nat)) (s : State), (unitOf s u).lines = [] → (∀ p ∈ l, GoodWords s p.1 p.2) →
    ∃ t, takeRow u l s = ((l.map fun p => getBytes s p.1 p.2).flatten, none, t) ∧ Accounted s t ∧ DataStands s t
  | [], s, _, _ => ⟨s, rfl, .refl s, rfl, rfl⟩
  | (a, n) :: l, s, hlines, hgood => by
    have hline : takeLine u a n s = readAs (srcUnit u) a n s := by unfold takeLine; rw [hlines]; rfl
    obtain ⟨x, hx, hacc, hdata⟩ := readAs_good (src := srcUnit u) (hgood (a, n) List.mem_cons_self)
    have hlines' : (unitOf x u).lines = [] := by rw [unitOf_of_strm (hacc.field State.strm)]; exact hlines
    obtain ⟨t, ht, hacc', hdata'⟩ := takeRow_good l x hlines' fun p hp => goodWords_stands (hgood p (List.mem_cons_of_mem _ hp)) hacc hdata
    refine ⟨t, ?_, hacc.trans hacc', hdata.trans hdata'⟩
    have hbytes : (l.map fun p => getBytes x p.1 p.2) = l.map fun p => getBytes s p.1 p.2 :=
      List.map_congr_left fun p _ => getBytes_congr hdata.memStands p.1 p.2
    unfold takeRow
    dsimp only
    rw [hline, hx]
    dsimp only
    rw [ht, hbytes]
    rfl

/-! ### The move -/

theorem rowAddrs_one {v : StreamUnit} {k : Nat} (hy : shY v k = 1) (hz : shZ v k = 1) (dst : Bool) (base : Nat) :
    rowAddrs v k dst base = [base] := by
  unfold rowAddrs
  rw [hy, hz]
  simp [List.range_succ]

theorem modUnit_self {u : Nat} {f : StreamUnit → StreamUnit} {s : State} (h : f (unitOf s u) = unitOf s u) (w : Nat) :
    unitOf (modUnit u f s) w = unitOf s w := by
  rw [unitOf_modUnit]
  split
  · rename_i hw; rw [h, hw]
  · rfl

section
variable {u : Nat} {s : State} {v : StreamUnit} {src dst x : Nat}

/-- One row from good memory to good memory is stored whole; the units stand. -/
theorem moveRow_good (hlines : (unitOf s u).lines = []) (hx : 1 ≤ x) (hsrcData : isData s src x = true) (hsrc : GoodWords s src x)
    (hdstData : isData s dst x = true) (hdst : GoodWords s dst x) :
    ∃ t, moveRow u v none src (.mem dst) 0 x s = (none, t) ∧ getBytes t dst x = getBytes s src x ∧ MemStandsBut dst x s t ∧
      ∀ w, unitOf t w = unitOf s w := by
  obtain ⟨a, ha, hacc, hdata⟩ := takeRow_good (rowPieces src x) s hlines fun p hp =>
    goodWords_part hsrcData hsrc (rowPieces_part hp hx).1 (rowPieces_part hp hx).2
  rw [rowPieces_joined s src hx] at ha
  have hunits : ∀ w, unitOf a w = unitOf s w := unitOf_of_strm (hacc.field State.strm)
  have hdrop : ∀ w, unitOf (dropOverlap u dst x a) w = unitOf a w := modUnit_self (by
    have hnil : (unitOf a u).lines = [] := by rw [hunits]; exact hlines
    rw [hnil, List.filter_nil, ← hnil])
  have hlen : (getBytes s src x).length = x := by unfold getBytes; rw [List.length_map, List.length_range]
  have hdropData : isData (dropOverlap u dst x a) dst (getBytes s src x).length = true := by
    rw [hlen]; exact (hacc.sameUse.isData dst x).trans hdstData
  have hdropWords : GoodWords (dropOverlap u dst x a) dst (getBytes s src x).length := by
    rw [hlen]; exact fun w hw => goodWords_stands hdst hacc hdata w hw
  have hmem : MemStands s (dropOverlap u dst x a) := hdata.memStands
  have hmove : moveRow u v none src (.mem dst) 0 x s = (none, incCnt64 (pgSTRM u) 0x0A4 x
      (writeAs (srcUnit u) dst (getBytes s src x) (dropOverlap u dst x a)).2) := by
    obtain ⟨hnone, -⟩ := writeAs_goodWords (src := srcUnit u) hdropData hdropWords
    unfold moveRow
    dsimp only
    rw [ha]
    dsimp only
    rw [Nat.add_zero, hnone]
  obtain ⟨y, hy⟩ : ∃ y, dropOverlap u dst x a = y := ⟨_, rfl⟩
  rw [hy] at hdropData hdropWords hmem hmove
  simp only [hy] at hdrop
  obtain ⟨-, hwrote⟩ := writeAs_goodWords (src := srcUnit u) hdropData hdropWords
  obtain ⟨z, hz⟩ : ∃ z, (writeAs (srcUnit u) dst (getBytes s src x) y).2 = z := ⟨_, rfl⟩
  rw [hz] at hwrote hmove
  have hrep := incCnt64_reports (pgSTRM u) 0x0A4 x z
  have hbytes := hwrote.getBytes
  have hbut := hwrote.standsBut
  rw [hlen] at hbytes hbut
  obtain ⟨t, ht⟩ : ∃ t, incCnt64 (pgSTRM u) 0x0A4 x z = t := ⟨_, rfl⟩
  rw [ht] at hrep hmove
  have hzt : MemStands z t := memStands_of_mem (hrep.field State.mem)
  refine ⟨t, hmove, (getBytes_congr hzt dst x).trans hbytes, fun b hb => (hzt b).trans ((hbut b hb).trans (hmem b)), fun w => ?_⟩
  rw [unitOf_of_strm (hrep.field State.strm), unitOf_of_strm (hwrote.stores.accounted.field State.strm), hdrop, hunits]

/-- The increments depend on the unit alone. -/
theorem unitOf_xferIncs {t : State} (h : unitOf t u = unitOf s u) (n : Nat) : unitOf (xferIncs u n t) u = unitOf (xferIncs u n s) u := by
  have hmod (i : Nat) (f : Nat → Nat) {x y : State} (hxy : unitOf x u = unitOf y u) : unitOf (modA u i f x) u = unitOf (modA u i f y) u := by
    unfold modA; rw [unitOf_modUnit_same, unitOf_modUnit_same, hxy]
  unfold xferIncs
  dsimp only
  rw [h]
  split
  · split
    · exact hmod _ _ (hmod _ _ h)
    · exact hmod _ _ h
  · split
    · exact hmod _ _ h
    · exact h

theorem mem_xferIncs (n : Nat) (s : State) : (xferIncs u n s).mem = s.mem := by
  unfold xferIncs; dsimp only; split <;> split <;> rfl

/-- The increments change address registers alone. -/
theorem xferIncs_regs (u n : Nat) (s : State) : (unitOf (xferIncs u n s) u).c = (unitOf s u).c ∧
    (unitOf (xferIncs u n s) u).pc = (unitOf s u).pc := by
  have hmod (i : Nat) (f : Nat → Nat) (t : State) : (unitOf (modA u i f t) u).c = (unitOf t u).c ∧
      (unitOf (modA u i f t) u).pc = (unitOf t u).pc := by unfold modA; rw [unitOf_modUnit_same]; exact ⟨rfl, rfl⟩
  have hite {b : Bool} (i : Nat) (f : Nat → Nat) (t : State) : (unitOf (if b then modA u i f t else t) u).c = (unitOf t u).c ∧
      (unitOf (if b then modA u i f t else t) u).pc = (unitOf t u).pc := by
    cases b
    · exact ⟨rfl, rfl⟩
    · exact hmod i f t
  unfold xferIncs
  obtain ⟨hc, hpc⟩ := hite (b := iSrcInc n) (iA n) (fun x => add40 x (shInc (unitOf s u) (iShape n) false)) s
  obtain ⟨hc', hpc'⟩ := hite (b := iDstInc n) (iDstA n) (fun x => add40 x (shInc (unitOf s u) (iShape n) true))
    (if iSrcInc n then modA u (iA n) (fun x => add40 x (shInc (unitOf s u) (iShape n) false)) s else s)
  exact ⟨hc'.trans hc, hpc'.trans hpc⟩

end

section
variable {u : Fin 32} {s : State} {v : StreamUnit} {n x src dst : Nat}

theorem xfer_shows (hv : unitOf s u.val = v) (hn : insnOf s u.val = n) (hshape : shX v (iShape n) = x)
    (hsrcBase : operandBase v v.a v.hs (iA n) false (iSrcH n) = src) (hdstBase : operandBase v v.a v.hs (iDstA n) false (iDstH n) = dst)
    (h : AtInsn s u.val opXFER) (hfilter : filterInsn s v v.a v.hs n = none) (hport : iSrcPort n = false) (hkind : iDstKind n = 0)
    (hx : 1 ≤ x) (hy : shY v (iShape n) = 1) (hz : shZ v (iShape n) = 1) (hlines : v.lines = []) (hsrc : GoodRange s (srcUnit u.val) src x)
    (hdst : GoodRange s (srcUnit u.val) dst x) :
    ∃ t, exec (.xfer u) s = .next t ∧ getBytes t dst x = getBytes s src x ∧ MemStandsBut dst x s t ∧
      (unitOf t u.val).a = (unitOf (xferIncs u.val n s) u.val).a ∧ (unitOf t u.val).c = v.c ∧ (unitOf t u.val).pc = v.pc + 1 := by
  obtain ⟨hsrcUse, hsrcWords⟩ := hsrc
  obtain ⟨hdstUse, hdstWords⟩ := hdst
  obtain ⟨y, hmove, hbytes, hbut, hunits⟩ := moveRow_good (v := v) (u := u.val) (by rw [hv]; exact hlines) hx
    (isData_of_memUsable (memUsable_of_canUse hsrcUse)) hsrcWords (isData_of_memUsable (memUsable_of_canUse hdstUse)) hdstWords
  have husable : xferUsable s u.val v n dst = true := by
    unfold xferUsable rowsUsable
    dsimp only
    rw [hport, hsrcBase, hshape, rowAddrs_one hy hz, rowAddrs_one hy hz, List.all_cons, List.all_cons, hsrcUse, hdstUse]
    simp
  have hmoved (k : State → State) : xferMove u.val n src dst (.mem dst) k s = k y := by
    unfold xferMove
    dsimp only
    rw [hv, hport, hshape, rowAddrs_one hy hz, rowAddrs_one hy hz]
    simp only [List.any_cons, List.any_nil, Nat.lt_irrefl, decide_false, Bool.or_false, Bool.false_eq_true, if_false, List.map_cons,
      List.map_nil, Nat.sub_self, List.zip_cons_cons, List.zip_nil_right]
    unfold moveRows
    dsimp only
    rw [hmove]
    rfl
  have hexec : exec (.xfer u) s = settle s (commitNext u.val (xferIncs u.val n y)) := by
    refine congrArg (settle s) ((atInsn_at h _).trans ?_)
    rw [hn]
    unfold effXfer xferSrc
    dsimp only
    rw [hv, hfilter]
    dsimp only
    rw [hkind, if_neg (by decide), hport]
    simp only [show decide ((0 : Nat) = 1) = false from rfl, hdstBase, hsrcBase, husable, Bool.not_true, Bool.false_eq_true, if_false]
    exact hmoved _
  have hincs := unitOf_xferIncs (hunits u.val) n
  obtain ⟨hc, hpc⟩ := xferIncs_regs u.val n y
  have hmem : (xferIncs u.val n y).mem = y.mem := mem_xferIncs n y
  obtain ⟨z, hz'⟩ : ∃ z, xferIncs u.val n y = z := ⟨_, rfl⟩
  rw [hz'] at hexec hincs hc hpc hmem
  obtain ⟨ga, gc, -, gpc⟩ := commitTo_shows u.val ((unitOf z u.val).pc + 1) z
  obtain ⟨gmem, -, -⟩ := onlyUnit_commitTo u.val ((unitOf z u.val).pc + 1) z
  unfold commitNext at hexec
  obtain ⟨t, ht⟩ : ∃ t, commitTo u.val ((unitOf z u.val).pc + 1) z = t := ⟨_, rfl⟩
  rw [ht] at hexec ga gc gpc gmem
  have hyt : MemStands y t := (memStands_of_mem hmem).trans gmem
  rw [hunits, hv] at hc hpc
  refine ⟨_, hexec.trans (settle_eq ..), (getBytes_congr hyt dst x).trans hbytes, fun b hb => (hyt b).trans (hbut b hb), ?_, gc.trans hc, ?_⟩
  · exact ga.trans (congrArg StreamUnit.a hincs)
  · exact gpc.trans (congrArg (· + 1) hpc)

/-! ### PREF -/

/-- The registers and the PC of a unit stand. -/
structure UnitRegsStand (u : Nat) (s t : State) : Prop where
  a : (unitOf t u).a = (unitOf s u).a
  c : (unitOf t u).c = (unitOf s u).c
  pc : (unitOf t u).pc = (unitOf s u).pc

theorem UnitRegsStand.refl (u : Nat) (s : State) : UnitRegsStand u s s := ⟨rfl, rfl, rfl⟩

theorem UnitRegsStand.trans {u : Nat} {s t z : State} (h : UnitRegsStand u s t) (g : UnitRegsStand u t z) : UnitRegsStand u s z :=
  ⟨g.a.trans h.a, g.c.trans h.c, g.pc.trans h.pc⟩

theorem fetchLine_regs (u l : Nat) (s : State) : UnitRegsStand u s (fetchLine u l s) := by
  have hread := unitOf_of_strm ((readAs_accounted (srcUnit u) l 64 s).field State.strm) u
  unfold fetchLine
  dsimp only
  refine ⟨?_, ?_, ?_⟩ <;> rw [unitOf_modUnit_same, hread]

theorem fetchLines_regs (u : Nat) (drop : Bool) : ∀ (l : List Nat) (s : State), UnitRegsStand u s (fetchLines u drop l s).2
  | [], s => .refl u s
  | a :: l, s => by
    unfold fetchLines
    split
    · exact fetchLines_regs u drop l s
    · split
      · exact (fetchLine_regs u a s).trans (fetchLines_regs u drop l _)
      · split
        · exact fetchLines_regs u drop l s
        · exact .refl u s

theorem pref_shows (hv : unitOf s u.val = v) (hn : insnOf s u.val = n) (h : AtInsn s u.val opPREF)
    (hfilter : filterInsn s v v.a v.hs n = none) :
    ∃ t, exec (.pref u) s = .next t ∧ (unitOf t u.val).a = v.a ∧ (unitOf t u.val).c = v.c ∧ (unitOf t u.val).pc = v.pc + 1 := by
  have hexec : ∃ y, UnitRegsStand u.val s y ∧ exec (.pref u) s = settle s (commitNext u.val y) := by
    have hpick (b : Bool) : ∃ y, UnitRegsStand u.val s y ∧ (if b then commitNext u.val s
        else commitNext u.val (fetchLines u.val true (srcLines v v.a v.hs n) s).2) = commitNext u.val y := by
      cases b
      · exact ⟨_, fetchLines_regs .., rfl⟩
      · exact ⟨s, .refl .., rfl⟩
    have hpref : ∃ y, UnitRegsStand u.val s y ∧ execPref u s = settle s (commitNext u.val y) := by
      unfold execPref
      rw [atInsn_at h, hn]
      dsimp only
      rw [hv, hfilter]
      dsimp only
      obtain ⟨y, hy, heff⟩ := hpick _
      exact ⟨y, hy, congrArg (settle s) heff⟩
    exact hpref
  obtain ⟨y, ⟨ha, hc, hpc⟩, hexec⟩ := hexec
  rw [hv] at ha hc hpc
  obtain ⟨ga, gc, -, gpc⟩ := commitTo_shows u.val ((unitOf y u.val).pc + 1) y
  unfold commitNext at hexec
  obtain ⟨t, ht⟩ : ∃ t, commitTo u.val ((unitOf y u.val).pc + 1) y = t := ⟨_, rfl⟩
  rw [ht] at hexec ga gc gpc
  exact ⟨_, hexec.trans (settle_eq ..), ga.trans ha, gc.trans hc, gpc.trans (congrArg (· + 1) hpc)⟩

end

/-- Settles O30. -/
theorem transferMovesItsRow : Obligations.TransferMovesItsRow := fun _ _ => ⟨xfer_shows rfl rfl rfl rfl rfl, pref_shows rfl rfl⟩

end Sys2Proof.Machine
end

section
/-!
PROOFS. Event records reach their ring, are signalled, and are replayed (R95, R115 to R118, R625).
-/
namespace Sys2Proof.Machine

/-! ### One port's own state changes -/

/-- An operation on the state of one port alone. -/
structure PortOnly (q : Port) (s t : State) : Prop where
  eq : ∃ p, t = s.setPort q p

namespace PortOnly

variable {q : Port} {s t u : State}

theorem modPort (q : Port) (f : PortState → PortState) (s : State) : PortOnly q s (s.modPort q f) := ⟨⟨_, rfl⟩⟩

theorem refl (q : Port) (s : State) : PortOnly q s s := ⟨⟨s.port q, by cases q <;> rfl⟩⟩

theorem trans (h : PortOnly q s t) (g : PortOnly q t u) : PortOnly q s u := by
  obtain ⟨a, rfl⟩ := h
  obtain ⟨b, rfl⟩ := g
  exact ⟨⟨b, by cases q <;> rfl⟩⟩

theorem field {α : Type} (h : PortOnly q s t) (f : State → α)
    (hf : ∀ x a b, f { x with portA := a, portB := b } = f x := by exact fun _ _ _ => rfl) : f t = f s := by
  obtain ⟨p, rfl⟩ := h
  cases q
  · exact hf s p s.portB
  · exact hf s s.portA p

end PortOnly

theorem setEvtRing_port (q : Port) (m : Nat) (r : EvtRing) (s : State) : PortOnly q s (setEvtRing q m r s) := .modPort ..

theorem sendMsix_port (q : Port) (v : Nat) (s : State) : PortOnly q s (sendMsix q v s) := by
  unfold sendMsix; split
  · exact .refl q s
  · split <;> exact .modPort ..

theorem signalRing_port (q : Port) (m : Nat) (s : State) : PortOnly q s (signalRing q m s) := (setEvtRing_port ..).trans (sendMsix_port ..)

theorem countUnsent_port (q : Port) (m : Nat) (s : State) : PortOnly q s (countUnsent q m s) := by
  unfold countUnsent; dsimp only; split
  · exact .refl q s
  · split
    · exact (setEvtRing_port ..).trans (signalRing_port ..)
    · exact setEvtRing_port ..

theorem evtRing_setEvtRing (q : Port) (m : Nat) (r : EvtRing) (s : State) : evtRing (setEvtRing q m r s) q m = r := by
  unfold evtRing setEvtRing; rw [port_modPort]; exact SMap.get_put_same ..

theorem evtRing_of_port {s t : State} {q : Port} (h : t.port q = s.port q) (m : Nat) : evtRing t q m = evtRing s q m := by
  unfold evtRing; rw [h]

/-! ### A record for a ring -/

theorem eventRecord_length (r : EvRec) : (eventRecord r).length = 16 := by simp [eventRecord, leBytes]

section
variable {q : Port} {m : Nat} {r : EvRec} {s : State}

/-- The place of a ring's next record. -/
def erSlot (s : State) (q : Port) (m : Nat) : Nat := (evtRing s q m).base + 16 * erTail s q m

/-- What a record written to its ring leaves: its bytes at the ring's slot, TAIL past it, and the rest of memory, of the records on
their way, of the last-resort store. -/
structure RecordWritten (q : Port) (m : Nat) (r : EvRec) (s t : State) : Prop where
  bytes : getBytes t (erSlot s q m) 16 = eventRecord r
  mem : MemStandsBut (erSlot s q m) 16 s t
  tail : rd t (pgHP q) (erOff m 0x10) = BitVec.ofNat 32 ((erTail s q m + 1) % (evtRing s q m).depth)
  outbox : s.outbox <+: t.outbox
  lre : t.lre = s.lre

theorem writeRecord_good (hm : m < 4) (huse : canUse s .record (erSlot s q m) 16 = true) (hcodes : codedWords s (erSlot s q m) 16 = []) :
    (writeRecord q m r s).1 = true ∧ RecordWritten q m r s (writeRecord q m r s).2 := by
  have hlen := eventRecord_length r
  have hwords : GoodWords s (erSlot s q m) (eventRecord r).length := by rw [hlen, GoodWords, hcodes]; exact fun w hw => nomatch hw
  obtain ⟨hnone, hwrote⟩ := writeAs_goodWords (src := .record) (bs := eventRecord r) (s := s)
    (by rw [hlen]; exact isData_of_memUsable (memUsable_of_canUse huse)) hwords
  obtain ⟨n, hn⟩ : ∃ n, (erTail s q m + 1) % (evtRing s q m).depth = n := ⟨_, rfl⟩
  have hwrite : writeRecord q m r s = (true, countUnsent q m (incCnt (pgHP q) (erOff m 0x1C) 1
      (wrN (pgHP q) (erOff m 0x10) n (writeAs .record (erSlot s q m) (eventRecord r) s).2))) := by
    unfold writeRecord
    unfold erSlot at hnone ⊢
    dsimp only
    rw [hnone, hn]
  have hbytes := hwrote.getBytes
  have hbut := hwrote.standsBut
  rw [hlen] at hbytes hbut
  have hacc := hwrote.stores.accounted
  rw [hwrite]
  refine ⟨rfl, ?_⟩
  obtain ⟨a, ha⟩ : ∃ a, erSlot s q m = a := ⟨_, rfl⟩
  rw [ha] at hbytes hbut hacc ⊢
  obtain ⟨w, hw⟩ : ∃ w, (writeAs .record a (eventRecord r) s).2 = w := ⟨_, rfl⟩
  rw [hw] at hbytes hbut hacc ⊢
  have hoff : erOff m 0x10 < 0x1000 ∧ erOff m 0x1C < 0x1000 ∧ 0x300 ≤ erOff m 0x10 ∧ erOff m 0x1C = erOff m 0x10 + 0xC := by
    unfold erOff; omega
  obtain ⟨h10, h1c, hlow, hgap⟩ := hoff
  have hrep := (wrN_reports (pgHP q) (erOff m 0x10) n w).trans (incCnt_reports (pgHP q) (erOff m 0x1C) 1 _)
  have hbox : w.outbox <+: (incCnt (pgHP q) (erOff m 0x1C) 1 (wrN (pgHP q) (erOff m 0x10) n w)).outbox :=
    incCnt_prefix (pgHP q) (erOff m 0x1C) 1 (wrN (pgHP q) (erOff m 0x10) n w)
  have htail : rd (incCnt (pgHP q) (erOff m 0x1C) 1 (wrN (pgHP q) (erOff m 0x10) n w)) (pgHP q) (erOff m 0x10) = BitVec.ofNat 32 n :=
    (rd_incCnt_ne h1c h10 (by omega) 1 _).trans (rd_wrN_same ..)
  obtain ⟨x, hx⟩ : ∃ x, incCnt (pgHP q) (erOff m 0x1C) 1 (wrN (pgHP q) (erOff m 0x10) n w) = x := ⟨_, rfl⟩
  rw [hx] at hrep hbox htail ⊢
  have hport := countUnsent_port q m x
  obtain ⟨t, ht⟩ : ∃ t, countUnsent q m x = t := ⟨_, rfl⟩
  rw [ht] at hport ⊢
  have hmem : MemStands w t := memStands_of_mem ((hport.field State.mem).trans (hrep.field State.mem))
  refine ⟨?_, ?_, ?_, ?_, ?_⟩
  · rw [ha]; exact (getBytes_congr hmem a 16).trans hbytes
  · rw [ha]; exact fun b hb => (hmem b).trans (hbut b hb)
  · rw [hn, rd_of_regs (hport.field State.regs)]; exact htail
  · rw [hport.field State.outbox]; exact hacc.outbox.trans hbox
  · exact (hport.field State.lre).trans ((hrep.field State.lre).trans (hacc.field State.lre))

/-- What a dropped record leaves. -/
structure RecordDropped (q : Port) (m : Nat) (s t : State) : Prop where
  dropped : (evtRing t q m).dropped = (evtRing s q m).dropped + 1
  mem : MemStands s t
  count : rd t (pgHP q) (erOff m 0x14) = BitVec.ofNat 32 ((rd s (pgHP q) (erOff m 0x14)).toNat + 1)
  outbox : s.outbox <+: t.outbox

theorem dropRecord_shows (hm : m < 4) : RecordDropped q m s (dropRecord q m s) := by
  have hset := setEvtRing_port q m { evtRing s q m with dropped := (evtRing s q m).dropped + 1 } s
  have hring := evtRing_setEvtRing q m { evtRing s q m with dropped := (evtRing s q m).dropped + 1 } s
  have hoff : erOff m 0x14 < 0x1000 ∧ erOff m 0x14 ≠ 0x014 := by unfold erOff; omega
  unfold dropRecord
  dsimp only
  obtain ⟨x, hx⟩ : ∃ x, setEvtRing q m { evtRing s q m with dropped := (evtRing s q m).dropped + 1 } s = x := ⟨_, rfl⟩
  rw [hx] at hset hring ⊢
  have hrep := incCnt_reports (pgHP q) (erOff m 0x14) 1 x
  refine ⟨?_, ?_, ?_, ?_⟩
  · rw [evtRing_of_port (port_of_reports hrep q), hring]
  · exact memStands_of_mem ((hrep.field State.mem).trans (hset.field State.mem))
  · rw [rd_incCnt hoff.1 hoff.2, rd_of_regs (hset.field State.regs)]
  · exact (hset.field State.outbox) ▸ incCnt_prefix (pgHP q) (erOff m 0x14) 1 x

theorem selectRing_lt (s : State) (q : Port) (r : EvRec) : selectRing s q r < 4 := by
  have hfield (p off hi lo : Nat) (h : hi + 1 - lo = 2) : rdF s p off hi lo < 4 := by
    unfold rdF fld bitsOf; rw [h]; exact Nat.mod_lt _ (by decide)
  have hroute := hfield (pgHP q) 0x090 (2 * (r.sev - 1) + 1) (2 * (r.sev - 1)) (by omega)
  unfold selectRing
  dsimp only
  split
  · unfold overrideRing
    cases (List.range 4).find? (fun i => rdB s (pgHP q) (0x094 + 4 * i) 15 && decide (rdF s (pgHP q) (0x094 + 4 * i) 11 0 = r.page)) with
    | none => exact hroute
    | some i => exact hfield (pgHP q) (0x094 + 4 * i) 13 12 rfl
  · exact hroute

theorem toRing_written (hm : selectRing s q r = m) (hen : erEnabled s q m = true) (hroom : erFull s q m = false)
    (huse : canUse s .record (erSlot s q m) 16 = true) (hnone : (evtRing s q m).dropped = 0) (hcodes : codedWords s (erSlot s q m) 16 = []) :
    (toRing q r s).1 = true ∧ RecordWritten q m r s (toRing q r s).2 := by
  have hring : toRing q r s = writeRecord q m r s := by
    unfold toRing erUsable
    unfold erSlot at huse
    dsimp only
    rw [hm, hen, hroom, huse, hnone]
    rfl
  rw [hring]
  exact writeRecord_good (hm ▸ selectRing_lt s q r) huse hcodes

theorem toRing_dropped (hm : selectRing s q r = m) (h : erEnabled s q m = false ∨ erFull s q m = true) :
    (toRing q r s).1 = true ∧ RecordDropped q m s (toRing q r s).2 := by
  have hring : toRing q r s = (true, dropRecord q m s) := by
    unfold toRing
    dsimp only
    rw [hm]
    refine if_pos ?_
    rcases h with h | h
    · rw [h]; rfl
    · rw [h, Bool.or_true]
  rw [hring]
  exact ⟨rfl, dropRecord_shows (hm ▸ selectRing_lt s q r)⟩

end

/-! ### The oldest decided record -/

section
variable {q : Port} {e : Posting} {rest : List Posting} {s : State} {m : Nat}

/-- A record for one port. -/
def forPort (q : Port) (e : Posting) : Prop := q = .a ∧ e.toA = true ∧ e.toB = false ∨ q = .b ∧ e.toA = false ∧ e.toB = true

/-- A record for one port that its ring takes or drops goes nowhere else. -/
theorem postRecord_one (hport : forPort q e) (hlre : s.lre.entries = []) (htaken : (toRing q e.record s).1 = true) :
    postRecord e s = (toRing q e.record s).2 := by
  have hholds (p : Port) : lreHolds s p = false := by unfold lreHolds; rw [hlre]; rfl
  unfold postRecord
  dsimp only
  rcases hport with ⟨rfl, ha, hb⟩ | ⟨rfl, ha, hb⟩
  · have hpost : postPort .a e.toA e.record s = (false, (toRing .a e.record s).2) := by
      unfold postPort; dsimp only; rw [ha, hholds, htaken]; rfl
    rw [hpost, hb]
    rfl
  · have hskip : postPort .a e.toA e.record s = (false, s) := by rw [ha]; rfl
    have hpost : postPort .b e.toB e.record s = (false, (toRing .b e.record s).2) := by
      unfold postPort; dsimp only; rw [hb, hholds, htaken]; rfl
    rw [hskip]
    dsimp only
    rw [hpost]
    rfl

theorem eventPost_shows (hbox : s.outbox = e :: rest) (hport : forPort q e) (hlre : s.lre.entries = []) (hm : selectRing s q e.record = m) :
    (erEnabled s q m = true → erFull s q m = false → canUse s .record (erSlot s q m) 16 = true → (evtRing s q m).dropped = 0 →
      codedWords s (erSlot s q m) 16 = [] →
      ∃ t, exec .eventPost s = .next t ∧ getBytes t (erSlot s q m) 16 = eventRecord e.record ∧ MemStandsBut (erSlot s q m) 16 s t ∧
        rd t (pgHP q) (erOff m 0x10) = BitVec.ofNat 32 ((erTail s q m + 1) % (evtRing s q m).depth) ∧ rest <+: t.outbox) ∧
    ((erEnabled s q m = false ∨ erFull s q m = true) →
      ∃ t, exec .eventPost s = .next t ∧ (evtRing t q m).dropped = (evtRing s q m).dropped + 1 ∧ MemStands s t ∧
        rd t (pgHP q) (erOff m 0x14) = BitVec.ofNat 32 ((rd s (pgHP q) (erOff m 0x14)).toNat + 1) ∧ rest <+: t.outbox) := by
  have hexec : exec .eventPost s = settle s (postRecord e { s with outbox := rest }) := by
    change execEventPost s = _
    unfold execEventPost; rw [hbox]
  have hm' : selectRing { s with outbox := rest } q e.record = m := hm
  have hlre' : ({ s with outbox := rest } : State).lre.entries = [] := hlre
  refine ⟨fun hen hroom huse hnone hcodes => ?_, fun h => ?_⟩
  · obtain ⟨htaken, hwritten⟩ := toRing_written (s := { s with outbox := rest }) hm' hen hroom huse hnone hcodes
    rw [postRecord_one hport hlre' htaken] at hexec
    obtain ⟨t, ht⟩ : ∃ t, (toRing q e.record { s with outbox := rest }).2 = t := ⟨_, rfl⟩
    rw [ht] at hexec hwritten
    obtain ⟨hbytes, hmem, htail, hrest, -⟩ := hwritten
    exact ⟨_, hexec.trans (settle_eq ..), hbytes, hmem, htail, hrest⟩
  · obtain ⟨htaken, hdropped⟩ := toRing_dropped (s := { s with outbox := rest }) hm' h
    rw [postRecord_one hport hlre' htaken] at hexec
    obtain ⟨t, ht⟩ : ∃ t, (toRing q e.record { s with outbox := rest }).2 = t := ⟨_, rfl⟩
    rw [ht] at hexec hdropped
    obtain ⟨hcount, hmem, hreg, hrest⟩ := hdropped
    exact ⟨_, hexec.trans (settle_eq ..), hcount, hmem, hreg, hrest⟩

/-! ### The store delivers -/

theorem lreReplay_shows (hentries : s.lre.entries = [e]) (hlost : s.lre.dropped = 0) (hport : forPort q e)
    (hm : selectRing s q e.record = m) (hen : erEnabled s q m = true) (hroom : erFull s q m = false)
    (huse : canUse s .record (erSlot s q m) 16 = true) (hnone : (evtRing s q m).dropped = 0) (hcodes : codedWords s (erSlot s q m) 16 = []) :
    ∃ t, exec .lreReplay s = .next t ∧ t.lre.entries = [] ∧
      getBytes t (erSlot s q m) 16 = eventRecord { e.record with replay := true } ∧ MemStandsBut (erSlot s q m) 16 s t := by
  obtain ⟨htaken, hwritten⟩ := toRing_written (r := { e.record with replay := true }) hm hen hroom huse hnone hcodes
  have hcan : canReplay s q true e.record = true := by
    unfold canReplay
    dsimp only
    rw [hm]
    have husable : erUsable s q m = true := huse
    rw [husable, Bool.or_true, Bool.or_true]
  have hreplay : replayPort q true e.record s = (false, (toRing q { e.record with replay := true } s).2) := by
    unfold replayPort
    rw [hcan]
    dsimp only
    rw [htaken]
    rfl
  obtain ⟨x, hx⟩ : ∃ x, (toRing q { e.record with replay := true } s).2 = x := ⟨_, rfl⟩
  rw [hx] at hwritten hreplay
  obtain ⟨hbytes, hmem, -, -, hlre⟩ := hwritten
  obtain ⟨y, hy, hymem, hylre⟩ : ∃ y, (lreDeliver 1 s = lreEmpty y) ∧ y.mem = x.mem ∧ y.lre.entries = [] := by
    refine ⟨{ lrePop x with lre := { (lrePop x).lre with delivered := (lrePop x).lre.delivered + 1 } }, ?_, rfl, ?_⟩
    · unfold lreDeliver
      rw [hentries]
      dsimp only
      have hempty : (lrePop x).lre.entries.isEmpty = true := by
        unfold lrePop; dsimp only; rw [hlre, hentries]; rfl
      rcases hport with ⟨rfl, ha, hb⟩ | ⟨rfl, ha, hb⟩
      · have hskip : replayPort .b e.toB e.record x = (false, x) := by rw [hb]; rfl
        rw [ha, hreplay]
        dsimp only
        rw [hskip]
        exact if_pos hempty
      · have hskip : replayPort .a e.toA e.record s = (false, s) := by rw [ha]; rfl
        rw [hskip]
        dsimp only
        rw [hb, hreplay]
        exact if_pos hempty
    · unfold lrePop; dsimp only; rw [hlre, hentries]; rfl
  have hexec : exec .lreReplay s = settle s (lreEmpty y) := by
    have hover : lreOverflow s = s := by unfold lreOverflow; rw [if_pos hlost]
    have hcond : ((e.toA && canReplay s .a e.toA e.record) || (e.toB && canReplay s .b e.toB e.record)) = true := by
      rcases hport with ⟨rfl, ha, hb⟩ | ⟨rfl, ha, hb⟩
      · rw [ha, hcan]; rfl
      · rw [hb, hcan]; exact Bool.or_true _
    change execLreReplay s = _
    unfold execLreReplay
    rw [hentries]
    dsimp only
    rw [if_pos hcond, hover, ← hy]
    rfl
  have hrep := raise_reports pgLRE 0x102 sevINFO (satN 16 y.lre.delivered + satN 16 y.lre.discarded * 2 ^ 16) y
  unfold lreEmpty at hexec
  obtain ⟨t, ht⟩ : ∃ t, raise pgLRE 0x102 sevINFO (satN 16 y.lre.delivered + satN 16 y.lre.discarded * 2 ^ 16) y = t := ⟨_, rfl⟩
  rw [ht] at hexec hrep
  have hxt : MemStands x t := memStands_of_mem ((hrep.field State.mem).trans hymem)
  exact ⟨_, hexec.trans (settle_eq ..), (congrArg LreState.entries (hrep.field State.lre)).trans hylre,
    (getBytes_congr hxt _ 16).trans hbytes, fun b hb => (hxt b).trans (hmem b hb)⟩

end

/-! ### Signals -/

section
variable {q : Port} {v : Nat} {s : State}

/-- A message of a live, unmasked function: sent, or pending where its vector is masked (R118). -/
theorem sendMsix_shows (hlive : msixLive (s.port q).config = true) (hmask : (s.port q).config.msixMask = false) :
    if (msixEntry s q v).masked then ((sendMsix q v s).port q).pending.get false v = true
    else ((sendMsix q v s).port q).sent.get 0 v = (s.port q).sent.get 0 v + 1 := by
  unfold sendMsix
  rw [hlive, hmask, Bool.or_false]
  simp only [Bool.not_true, Bool.false_eq_true, if_false]
  split
  · rw [port_modPort]; dsimp only; exact SMap.get_put_same ..
  · rw [port_modPort]; dsimp only; exact SMap.get_put_same ..

theorem sendMsix_evtRing (m : Nat) : evtRing (sendMsix q v s) q m = evtRing s q m := by
  unfold sendMsix evtRing
  split
  · rfl
  · split
    · rw [port_modPort]
    · rw [port_modPort]

theorem sendMsix_entry (w : Nat) : msixEntry (sendMsix q v s) q w = msixEntry s q w := by
  unfold sendMsix
  split
  · rfl
  · split
    · unfold msixEntry; rw [port_modPort]
    · unfold msixEntry; rw [port_modPort]

theorem moderation_shows {m : Fin 4} (hv : rdF s (pgHP q) (erOff m.val 0x08) 13 8 = v) (hlive : portLive s q = true)
    (hen : erEnabled s q m.val = true) (hsome : (evtRing s q m.val).unsent ≠ 0) (hmsix : msixLive (s.port q).config = true)
    (hmask : (s.port q).config.msixMask = false)
    (hold : (evtRing s q m.val).oldest + rdF s (pgHP q) (erOff m.val 0x18) 15 0 * 1000 ≤ now s) :
    ∃ t, exec (.msixModerationTimeout q m) s = .next t ∧ (evtRing t q m.val).unsent = 0 ∧ t.regs = s.regs ∧
      (if (msixEntry s q v).masked then (t.port q).pending.get false v = true
       else (t.port q).sent.get 0 v = (s.port q).sent.get 0 v + 1) := by
  have hexec : exec (.msixModerationTimeout q m) s = settle s (sendMsix q v (setEvtRing q m.val { evtRing s q m.val with unsent := 0 } s)) := by
    refine congrArg (settle s) ((if_pos ?_).trans ?_)
    · rw [hlive, hen, decide_eq_true hsome, decide_eq_true hold]; rfl
    · unfold signalRing; rw [hv]
  have hset := setEvtRing_port q m.val { evtRing s q m.val with unsent := 0 } s
  have hring := evtRing_setEvtRing q m.val { evtRing s q m.val with unsent := 0 } s
  have hport : ((setEvtRing q m.val { evtRing s q m.val with unsent := 0 } s).port q) =
      { s.port q with evt := (s.port q).evt.put EvtRing.fresh m.val { evtRing s q m.val with unsent := 0 } } := port_modPort ..
  obtain ⟨x, hx⟩ : ∃ x, setEvtRing q m.val { evtRing s q m.val with unsent := 0 } s = x := ⟨_, rfl⟩
  rw [hx] at hset hring hport hexec
  have hentry : msixEntry x q v = msixEntry s q v := by unfold msixEntry; rw [hport]
  have hsend := sendMsix_shows (q := q) (v := v) (s := x) (by rw [hport]; exact hmsix) (by rw [hport]; exact hmask)
  have hsent : (x.port q).sent = (s.port q).sent := by rw [hport]
  rw [hentry, hsent] at hsend
  have hringt := sendMsix_evtRing (q := q) (v := v) (s := x) m.val
  have hregs := ((sendMsix_port q v x).field State.regs).trans (hset.field State.regs)
  obtain ⟨t, ht⟩ : ∃ t, sendMsix q v x = t := ⟨_, rfl⟩
  rw [ht] at hexec hsend hringt hregs
  exact ⟨_, hexec.trans (settle_eq ..), (congrArg EvtRing.unsent hringt).trans (congrArg EvtRing.unsent hring), hregs, hsend⟩

/-! ### The table and the Pending Bit Array -/

/-- The entry of a vector is written. -/
def withEntry (q : Port) (v : Nat) (e : MsixEntry) (s : State) : State := s.modPort q (fun p => { p with msix := p.msix.put MsixEntry.fresh v e })

theorem withEntry_port (v : Nat) (e : MsixEntry) (s : State) :
    (withEntry q v e s).port q = { s.port q with msix := (s.port q).msix.put MsixEntry.fresh v e } := port_modPort ..

theorem msixEntry_withEntry (v : Nat) (e : MsixEntry) (s : State) : msixEntry (withEntry q v e s) q v = e := by
  unfold msixEntry; rw [withEntry_port]; exact SMap.get_put_same ..

/-- The vector's pending bit is taken back. -/
def withoutPending (q : Port) (v : Nat) (s : State) : State := s.modPort q (fun p => { p with pending := p.pending.put false v false })

theorem withoutPending_port (v : Nat) (s : State) :
    (withoutPending q v s).port q = { s.port q with pending := (s.port q).pending.put false v false } := port_modPort ..

theorem sendPending_one (q : Port) (v : Nat) (s : State) : sendPending q [v] s =
    if (s.port q).pending.get false v && !(msixEntry s q v).masked && msixLive (s.port q).config && !(s.port q).config.msixMask then
      sendMsix q v (withoutPending q v s) else s := rfl

theorem sendPending_entry (v : Nat) (s : State) : msixEntry (sendPending q [v] s) q v = msixEntry s q v := by
  rw [sendPending_one]
  split
  · rw [sendMsix_entry]; unfold msixEntry; rw [withoutPending_port]
  · rfl

theorem exec_tableWrite {w : Word} {o : Nat} (hlive : portLive s q = true) (hv : v < 64) (ho : o = 8 ∨ o = 12) :
    exec (.msixTableWrite q (16 * v + o) (some w)) s =
      settle s (sendPending q [v] (withEntry q v (msixWritten (msixEntry s q v) (16 * v + o) w.toNat) s)) := by
  have hdiv : (16 * v + o) / 16 = v := by omega
  refine congrArg (settle s) ((if_pos ?_).trans ?_)
  · rw [hlive, decide_eq_true (by omega), decide_eq_true (by omega)]; rfl
  · dsimp only
    rw [if_pos (by omega), hdiv]
    rfl

theorem msixWritten_data (e : MsixEntry) (v w : Nat) : msixWritten e (16 * v + 8) w = { e with data := w } := by
  unfold msixWritten
  rw [if_neg (by omega), if_neg (by omega), if_pos (by omega)]

theorem msixWritten_masked (e : MsixEntry) (v w : Nat) : msixWritten e (16 * v + 12) w = { e with masked := bitOf w 0 } := by
  unfold msixWritten
  rw [if_neg (by omega), if_neg (by omega), if_neg (by omega)]

theorem tableData_shows (w : Word) (hlive : portLive s q = true) (hv : v < 64) :
    ∃ t, exec (.msixTableWrite q (16 * v + 8) (some w)) s = .next t ∧ msixEntry t q v = { msixEntry s q v with data := w.toNat } := by
  have hexec := exec_tableWrite (w := w) hlive hv (.inl rfl)
  rw [msixWritten_data] at hexec
  have hentry := (sendPending_entry (q := q) v (withEntry q v { msixEntry s q v with data := w.toNat } s)).trans (msixEntry_withEntry ..)
  obtain ⟨t, ht⟩ : ∃ t, sendPending q [v] (withEntry q v { msixEntry s q v with data := w.toNat } s) = t := ⟨_, rfl⟩
  rw [ht] at hexec hentry
  exact ⟨_, hexec.trans (settle_eq ..), hentry⟩

/-- A vector that a write unmasks sends its pending message (R95). -/
theorem sendPending_unmasked {e : MsixEntry} (he : e.masked = false) (hpend : (s.port q).pending.get false v = true)
    (hlive : msixLive (s.port q).config = true) (hmask : (s.port q).config.msixMask = false) :
    ((sendPending q [v] (withEntry q v e s)).port q).pending.get false v = false ∧
      ((sendPending q [v] (withEntry q v e s)).port q).sent.get 0 v = (s.port q).sent.get 0 v + 1 := by
  have hx := withEntry_port (q := q) v e s
  have hentry := msixEntry_withEntry (q := q) v e s
  obtain ⟨x, hxe⟩ : ∃ x, withEntry q v e s = x := ⟨_, rfl⟩
  rw [hxe] at hx hentry ⊢
  have hpend' : (x.port q).pending.get false v = true := by rw [hx]; exact hpend
  have hlive' : msixLive (x.port q).config = true := by rw [hx]; exact hlive
  have hmask' : (x.port q).config.msixMask = false := by rw [hx]; exact hmask
  have hsent : (x.port q).sent = (s.port q).sent := by rw [hx]
  have hsend : sendPending q [v] x = sendMsix q v (withoutPending q v x) := by
    rw [sendPending_one, hpend', hlive', hmask', hentry, he]; rfl
  have hy := withoutPending_port (q := q) v x
  obtain ⟨y, hye⟩ : ∃ y, withoutPending q v x = y := ⟨_, rfl⟩
  rw [hye] at hy hsend
  have hlivey : msixLive (y.port q).config = true := by rw [hy]; exact hlive'
  have hmasky : (y.port q).config.msixMask = false := by rw [hy]; exact hmask'
  have hentryy : (msixEntry y q v).masked = false := by
    have hsame : msixEntry y q v = msixEntry x q v := by unfold msixEntry; rw [hy]
    rw [hsame, hentry]; exact he
  have hmsg : sendMsix q v y = y.modPort q (fun p => { p with sent := p.sent.put 0 v (p.sent.get 0 v + 1) }) := by
    unfold sendMsix; rw [hlivey, hmasky, hentryy]; rfl
  rw [hsend, hmsg, port_modPort]
  refine ⟨?_, ?_⟩
  · dsimp only; rw [hy]; dsimp only; exact SMap.get_put_same ..
  · dsimp only; rw [SMap.get_put_same, hy]; dsimp only; rw [hsent]

theorem tableControl_shows (w : Word) (hlive : portLive s q = true) (hv : v < 64) :
    ∃ t, exec (.msixTableWrite q (16 * v + 12) (some w)) s = .next t ∧
      msixEntry t q v = { msixEntry s q v with masked := bitOf w.toNat 0 } ∧
      (bitOf w.toNat 0 = false → (s.port q).pending.get false v = true → msixLive (s.port q).config = true →
        (s.port q).config.msixMask = false →
        (t.port q).pending.get false v = false ∧ (t.port q).sent.get 0 v = (s.port q).sent.get 0 v + 1) := by
  have hexec := exec_tableWrite (w := w) hlive hv (.inr rfl)
  rw [msixWritten_masked] at hexec
  obtain ⟨e, he⟩ : ∃ e : MsixEntry, { msixEntry s q v with masked := bitOf w.toNat 0 } = e := ⟨_, rfl⟩
  have hmasked : e.masked = bitOf w.toNat 0 := by rw [← he]
  rw [he] at hexec ⊢
  have hentry := (sendPending_entry (q := q) v (withEntry q v e s)).trans (msixEntry_withEntry ..)
  have hsent := fun h => sendPending_unmasked (q := q) (v := v) (s := s) (e := e) (hmasked.trans h)
  obtain ⟨t, ht⟩ : ∃ t, sendPending q [v] (withEntry q v e s) = t := ⟨_, rfl⟩
  rw [ht] at hexec hentry hsent
  exact ⟨_, hexec.trans (settle_eq ..), hentry, hsent⟩

/-- A sum of distinct powers of two, its bits named by `f`. -/
def bitSum (f : Nat → Bool) (n : Nat) : Nat := ((List.range n).map (fun i => b2n (f i) * 2 ^ i)).foldl (· + ·) 0

theorem bitSum_succ (f : Nat → Bool) (n : Nat) : bitSum f (n + 1) = bitSum f n + b2n (f n) * 2 ^ n := by
  unfold bitSum
  rw [List.range_succ, List.map_append, List.foldl_append]
  rfl

theorem bitSum_lt (f : Nat → Bool) : ∀ n, bitSum f n < 2 ^ n
  | 0 => Nat.one_pos
  | n + 1 => by
    have hlt := bitSum_lt f n
    rw [bitSum_succ, Nat.pow_succ]
    cases f n
    · rw [show b2n false = 0 from rfl, Nat.zero_mul]; omega
    · rw [show b2n true = 1 from rfl, Nat.one_mul]; omega

theorem testBit_bitSum (f : Nat → Bool) {i : Nat} : ∀ n, i < n → (bitSum f n).testBit i = f i
  | 0, h => absurd h (Nat.not_lt_zero i)
  | n + 1, h => by
    rw [bitSum_succ, Nat.add_comm, Nat.mul_comm, Nat.testBit_two_pow_mul_add _ (bitSum_lt f n)]
    by_cases hi : i < n
    · rw [if_pos hi]; exact testBit_bitSum f n hi
    · have hin : i = n := by omega
      subst hin
      rw [if_neg hi, Nat.sub_self]
      cases f i <;> rfl

theorem exec_tableRead {o : Nat} (hlive : portLive s q = true) (ho : o < 2 ^ 14) (h4 : o % 4 = 0) :
    exec (.msixTableWrite q o none) s = settle s (s.modPort q (fun p => { p with readData := bar4Word s q o, readEP := false })) :=
  congrArg (settle s) (if_pos (by rw [hlive, decide_eq_true ho, decide_eq_true h4]; rfl))

/-- A read of BAR4 gives its word. -/
theorem tableRead_shows {o n : Nat} (hlive : portLive s q = true) (ho : o < 2 ^ 14) (h4 : o % 4 = 0) (hn : bar4Word s q o = n) :
    ∃ t, exec (.msixTableWrite q o none) s = .next t ∧ (t.port q).readData = n ∧ t.regs = s.regs ∧ MemStands s t := by
  have hexec := exec_tableRead hlive ho h4
  rw [hn] at hexec
  have hport := congrArg PortState.readData (port_modPort q (fun p => { p with readData := n, readEP := false }) s)
  have honly := PortOnly.modPort q (fun p => { p with readData := n, readEP := false }) s
  obtain ⟨t, ht⟩ : ∃ t, s.modPort q (fun p => { p with readData := n, readEP := false }) = t := ⟨_, rfl⟩
  rw [ht] at hexec hport honly
  exact ⟨_, hexec.trans (settle_eq ..), hport, honly.field State.regs, memStands_of_mem (honly.field State.mem)⟩

theorem bar4Word_data (hv : v < 64) : bar4Word s q (16 * v + 8) = (msixEntry s q v).data % 2 ^ 32 := by
  unfold bar4Word
  dsimp only
  rw [if_pos (by omega), if_neg (by omega), if_neg (by omega), if_pos (by omega), show (16 * v + 8) / 16 = v by omega]

theorem bar4Word_pending (hv : v < 64) : bar4Word s q (0x2000 + v / 32 * 4) =
    bitSum (fun i => (s.port q).pending.get false (8 * (0x2000 + v / 32 * 4 - 0x2000) + i)) 32 := by
  unfold bar4Word
  dsimp only
  rw [if_neg (by omega), if_pos (by omega)]
  rfl

theorem pendingRead_shows (hlive : portLive s q = true) (hv : v < 64) :
    ∃ t, exec (.msixTableWrite q (0x2000 + v / 32 * 4) none) s = .next t ∧
      (t.port q).readData.testBit (v % 32) = (s.port q).pending.get false v := by
  obtain ⟨t, ht, hread, -, -⟩ := tableRead_shows hlive (by omega) (by omega) (bar4Word_pending (q := q) (s := s) hv)
  refine ⟨t, ht, ?_⟩
  rw [hread, testBit_bitSum _ 32 (Nat.mod_lt _ (by decide)), show 8 * (0x2000 + v / 32 * 4 - 0x2000) + v % 32 = v by omega]

end

/-- Settles O10. -/
theorem eventsArePostedAndSignalled : Obligations.EventsArePostedAndSignalled :=
  ⟨fun _ _ _ _ hbox hport hlre => eventPost_shows hbox hport hlre rfl,
    ⟨fun _ _ _ => moderation_shows rfl, fun _ _ w _ hlive hv => ⟨tableData_shows w hlive hv, tableControl_shows w hlive hv,
      tableRead_shows hlive (by omega) (by omega) (bar4Word_data hv), pendingRead_shows hlive hv⟩⟩,
    fun _ _ _ hentries hlost hport => lreReplay_shows hentries hlost hport rfl⟩

end Sys2Proof.Machine
end

section
/-!
PROOFS. Command rings and the ends of jobs (R87, R106 to R113, R144).
-/
namespace Sys2Proof.Machine

/-! ### A ring is enabled -/

/-- A word that differs from the register in one of its configuration bits lands as it is. -/
theorem landWord_setBit {fs : List Field} {i : Nat} (hi : i < 32) (hsoft : flag (softMask fs false) i = true) (hevt : typeMask .evt fs = 0)
    (old : Word) (b : Bool) : landWord fs false old (setFld old i i (b2n b)) = setFld old i i (b2n b) := by
  refine BitVec.eq_of_getLsbD_eq fun j hj => ?_
  have hevt' : flag (typeMask .evt fs) j = false := by rw [hevt, flag_eq_getLsbD]; exact BitVec.getLsbD_zero
  rw [← flag_eq_getLsbD, ← flag_eq_getLsbD]
  cases hm : flag (softMask fs false) j with
  | true => exact flag_landWord_soft _ _ hj hm hevt'
  | false =>
    have hne : j ≠ i := fun h => by rw [h, hsoft] at hm; cases hm
    rw [flag_landWord_kept _ _ hj hm hevt']
    exact (flag_setFld_ne _ _ _ _ _ (Nat.le_refl i) hi (by omega)).symm

theorem landAt_setBit {q r : Port} {off i : Nat} (hi : i < 32) (hsoft : flag (softMask (fieldsAt (pgHP q) off) false) i = true)
    (hevt : typeMask .evt (fieldsAt (pgHP q) off) = 0) (s : State) :
    landAt r (pgHP q) off false (setFld (rd s (pgHP q) off) i i 1) s = wrB (pgHP q) off i true s := by
  rw [landAt_eq false _ s rfl]
  exact congrArg (fun w => wr (pgHP q) off w s) (landWord_setBit hi hsoft hevt (rd s (pgHP q) off) true)

theorem crCfg_fields : ∀ n < 16, ∀ q ∈ [Port.a, Port.b], flag (softMask (fieldsAt (pgHP q) (crOff n 0x08)) false) 31 = true ∧
    typeMask .evt (fieldsAt (pgHP q) (crOff n 0x08)) = 0 := by decide

theorem erCfg_fields : ∀ m < 4, ∀ q ∈ [Port.a, Port.b], flag (softMask (fieldsAt (pgHP q) (erOff m 0x08)) false) 31 = true ∧
    typeMask .evt (fieldsAt (pgHP q) (erOff m 0x08)) = 0 := by decide

theorem isData_congr {s t : State} (h : rd t (pgDMC 0) 0x108 = rd s (pgDMC 0) 0x108) (a n : Nat) : isData t a n = isData s a n := by
  have hecc (x : Nat) : eccOn t x = eccOn s x := rdB_congr h _
  unfold isData spaceOf
  simp only [hecc]

/-- An operation on a port's page alone. -/
theorem isData_portWr {q : Port} {off : Nat} (ho : off < 0x1000) (w : Word) (s : State) (a n : Nat) :
    isData (wr (pgHP q) off w s) a n = isData s a n :=
  isData_congr (rd_wr_page ho (by decide) (by cases q <;> decide) w s) a n

theorem cmdRing_of_port {s t : State} {q : Port} (h : t.port q = s.port q) (n : Nat) : cmdRing t q n = cmdRing s q n := by
  unfold cmdRing; rw [h]

theorem setCmdRing_port (q : Port) (n : Nat) (r : CmdRing) (s : State) : PortOnly q s (setCmdRing q n r s) := .modPort ..

section
variable {q : Port} {s : State}

theorem crEnable_shows {n : Fin 16} (hmay : MayWrite s q (pgHP q) (crOff n.val 0x08)) (hoff : crEnabled s q n.val = false)
    (hdata : isData s (crBase s q n.val) (64 * crDepth s q n.val) = true) :
    ∃ t, exec (.crEnable q n) s = .next t ∧ crEnabled t q n.val = true ∧ (cmdRing t q n.val).base = crBase s q n.val ∧
      (cmdRing t q n.val).depth = crDepth s q n.val ∧ (cmdRing t q n.val).target = rdF s (pgHP q) (crOff n.val 0x08) 19 8 ∧
      (cmdRing t q n.val).tail = 0 ∧ crHead t q n.val = 0 := by
  obtain ⟨hsoft, hevt⟩ := crCfg_fields n.val n.isLt q (by cases q <;> decide)
  have hplace : ∀ o < 0x20, crOff n.val o < 0x1000 := fun o ho => by have := n.isLt; unfold crOff; omega
  have hgap : ∀ a b, crOff n.val a = crOff n.val b → a = b := fun a b h => by unfold crOff at h; omega
  have hexec : exec (.crEnable q n) s = settle s (effCrCfg q n.val false (wrB (pgHP q) (crOff n.val 0x08) 31 true s)) := by
    refine congrArg (settle s) ((gateWrite_mayWrite hmay).trans ?_)
    unfold writeCrCfg
    rw [landAt_setBit (by decide) hsoft hevt, hoff]
  have hrd (o : Nat) (ho : o < 0x20) (hne : o ≠ 8) : rd (wrB (pgHP q) (crOff n.val 0x08) 31 true s) (pgHP q) (crOff n.val o) =
      rd s (pgHP q) (crOff n.val o) := rd_wrB_other (hplace 8 (by decide)) (hplace o ho) (fun h => hne (hgap o 8 h.2)) 31 true s
  have hcfg (hi lo : Nat) (h : hi < 31) : rdF (wrB (pgHP q) (crOff n.val 0x08) 31 true s) (pgHP q) (crOff n.val 0x08) hi lo =
      rdF s (pgHP q) (crOff n.val 0x08) hi lo := rdF_wrF_ne _ _ 31 31 _ hi lo s (by decide) (by decide) (.inl h)
  have hon : crEnabled (wrB (pgHP q) (crOff n.val 0x08) 31 true s) q n.val = true := rdB_wrB _ _ 31 true s (by decide)
  have hdata' (a k : Nat) := isData_portWr (q := q) (hplace 8 (by decide))
    (setFld (rd s (pgHP q) (crOff n.val 0x08)) 31 31 (b2n true)) s a k
  have hport := port_of_reports (wrB_reports (pgHP q) (crOff n.val 0x08) 31 true s) q
  change ∀ a k, isData (wrB (pgHP q) (crOff n.val 0x08) 31 true s) a k = isData s a k at hdata'
  obtain ⟨x, hx⟩ : ∃ x, wrB (pgHP q) (crOff n.val 0x08) 31 true s = x := ⟨_, rfl⟩
  simp only [hx] at hexec hrd hcfg hon hdata' hport
  have hbase : crBase x q n.val = crBase s q n.val := by
    unfold crBase; rw [hrd 0 (by decide) (by decide), rdF_congr (hrd 4 (by decide) (by decide))]
  have hdepth : crDepth x q n.val = crDepth s q n.val := by unfold crDepth; rw [hcfg 3 0 (by decide)]
  have heff : effCrCfg q n.val false x = wrB (pgHP q) (crOff n.val 0x14) 0 false (wrN (pgHP q) (crOff n.val 0x0C) 0
      (setCmdRing q n.val { cmdRing x q n.val with
        base := crBase s q n.val, depth := crDepth s q n.val, target := rdF s (pgHP q) (crOff n.val 0x08) 19 8, tail := 0, told := false } x)) := by
    unfold effCrCfg
    dsimp only
    rw [hon, hbase, hdepth, hdata', hdata, hcfg 19 8 (by decide)]
    rfl
  rw [heff] at hexec
  obtain ⟨r, hr⟩ : ∃ r : CmdRing, { cmdRing x q n.val with
      base := crBase s q n.val, depth := crDepth s q n.val, target := rdF s (pgHP q) (crOff n.val 0x08) 19 8, tail := 0, told := false } = r :=
    ⟨_, rfl⟩
  rw [hr] at hexec
  have hring := cmdRing_setCmdRing_same q n.val r x
  have hon' : crEnabled (setCmdRing q n.val r x) q n.val = true := hon ▸ rdB_congr (rd_of_regs (setCmdRing_regs ..) ..) 31
  obtain ⟨y, hy⟩ : ∃ y, setCmdRing q n.val r x = y := ⟨_, rfl⟩
  rw [hy] at hexec hring hon'
  have hrep := (wrN_reports (pgHP q) (crOff n.val 0x0C) 0 y).trans (wrB_reports (pgHP q) (crOff n.val 0x14) 0 false _)
  have hhead : rd (wrB (pgHP q) (crOff n.val 0x14) 0 false (wrN (pgHP q) (crOff n.val 0x0C) 0 y)) (pgHP q) (crOff n.val 0x0C) = 0 :=
    (rd_wrB_other (hplace 0x14 (by decide)) (hplace 0x0C (by decide)) (fun h => absurd (hgap _ _ h.2) (by decide)) ..).trans (rd_wrN_same ..)
  have hen : rd (wrB (pgHP q) (crOff n.val 0x14) 0 false (wrN (pgHP q) (crOff n.val 0x0C) 0 y)) (pgHP q) (crOff n.val 0x08) =
      rd y (pgHP q) (crOff n.val 0x08) :=
    (rd_wrB_other (hplace 0x14 (by decide)) (hplace 8 (by decide)) (fun h => absurd (hgap _ _ h.2) (by decide)) ..).trans
      (rd_wrN_other (hplace 0x0C (by decide)) (hplace 8 (by decide)) (fun h => absurd (hgap _ _ h.2) (by decide)) ..)
  obtain ⟨t, ht⟩ : ∃ t, wrB (pgHP q) (crOff n.val 0x14) 0 false (wrN (pgHP q) (crOff n.val 0x0C) 0 y) = t := ⟨_, rfl⟩
  rw [ht] at hexec hrep hhead hen
  have hringt : cmdRing t q n.val = r := (cmdRing_of_port (port_of_reports hrep q) _).trans hring
  refine ⟨_, hexec.trans (settle_eq ..), (rdB_congr hen 31).trans hon', ?_, ?_, ?_, ?_, ?_⟩
  · exact (congrArg CmdRing.base hringt).trans (by rw [← hr])
  · exact (congrArg CmdRing.depth hringt).trans (by rw [← hr])
  · exact (congrArg CmdRing.target hringt).trans (by rw [← hr])
  · exact (congrArg CmdRing.tail hringt).trans (by rw [← hr])
  · have hzero : crHead t q n.val = 0 := by unfold crHead rdF; rw [hhead]; rfl
    exact hzero

theorem crEnable_enabled {n : Fin 16} (hmay : MayWrite s q (pgHP q) (crOff n.val 0x08)) (hon : crEnabled s q n.val = true) :
    ∃ t, exec (.crEnable q n) s = .next t ∧ cmdRing t q n.val = cmdRing s q n.val := by
  obtain ⟨hsoft, hevt⟩ := crCfg_fields n.val n.isLt q (by cases q <;> decide)
  have hexec : exec (.crEnable q n) s = settle s (wrB (pgHP q) (crOff n.val 0x08) 31 true s) := by
    refine congrArg (settle s) ((gateWrite_mayWrite hmay).trans ?_)
    unfold writeCrCfg effCrCfg
    rw [landAt_setBit (by decide) hsoft hevt, hon, Bool.or_true]
    rfl
  have hport := port_of_reports (wrB_reports (pgHP q) (crOff n.val 0x08) 31 true s) q
  obtain ⟨t, ht⟩ : ∃ t, wrB (pgHP q) (crOff n.val 0x08) 31 true s = t := ⟨_, rfl⟩
  rw [ht] at hexec hport
  have hring := cmdRing_of_port hport n.val
  exact ⟨_, hexec.trans (settle_eq ..), hring⟩

theorem erEnable_shows {m : Fin 4} (hmay : MayWrite s q (pgHP q) (erOff m.val 0x08)) (hoff : erEnabled s q m.val = false)
    (hdata : isData s (erBase s q m.val) (16 * erDepth s q m.val) = true) :
    ∃ t, exec (.erEnable q m) s = .next t ∧ erEnabled t q m.val = true ∧ (evtRing t q m.val).base = erBase s q m.val ∧
      (evtRing t q m.val).depth = erDepth s q m.val ∧ rd t (pgHP q) (erOff m.val 0x0C) = 0 ∧ rd t (pgHP q) (erOff m.val 0x10) = 0 := by
  obtain ⟨hsoft, hevt⟩ := erCfg_fields m.val m.isLt q (by cases q <;> decide)
  have hplace : ∀ o < 0x20, erOff m.val o < 0x1000 := fun o ho => by have := m.isLt; unfold erOff; omega
  have hgap : ∀ a b, erOff m.val a = erOff m.val b → a = b := fun a b h => by unfold erOff at h; omega
  have hexec : exec (.erEnable q m) s = settle s (effErCfg q m.val false (wrB (pgHP q) (erOff m.val 0x08) 31 true s)) := by
    refine congrArg (settle s) ((gateWrite_mayWrite hmay).trans ?_)
    unfold writeErCfg
    rw [landAt_setBit (by decide) hsoft hevt, hoff]
  have hrd (o : Nat) (ho : o < 0x20) (hne : o ≠ 8) : rd (wrB (pgHP q) (erOff m.val 0x08) 31 true s) (pgHP q) (erOff m.val o) =
      rd s (pgHP q) (erOff m.val o) := rd_wrB_other (hplace 8 (by decide)) (hplace o ho) (fun h => hne (hgap o 8 h.2)) 31 true s
  have hcfg : rdF (wrB (pgHP q) (erOff m.val 0x08) 31 true s) (pgHP q) (erOff m.val 0x08) 4 0 =
      rdF s (pgHP q) (erOff m.val 0x08) 4 0 := rdF_wrF_ne _ _ 31 31 _ 4 0 s (by decide) (by decide) (.inl (by decide))
  have hon : erEnabled (wrB (pgHP q) (erOff m.val 0x08) 31 true s) q m.val = true := rdB_wrB _ _ 31 true s (by decide)
  have hdata' (a k : Nat) := isData_portWr (q := q) (hplace 8 (by decide))
    (setFld (rd s (pgHP q) (erOff m.val 0x08)) 31 31 (b2n true)) s a k
  change ∀ a k, isData (wrB (pgHP q) (erOff m.val 0x08) 31 true s) a k = isData s a k at hdata'
  obtain ⟨x, hx⟩ : ∃ x, wrB (pgHP q) (erOff m.val 0x08) 31 true s = x := ⟨_, rfl⟩
  simp only [hx] at hexec hrd hcfg hon hdata'
  have hbase : erBase x q m.val = erBase s q m.val := by
    unfold erBase; rw [hrd 0 (by decide) (by decide), rdF_congr (hrd 4 (by decide) (by decide))]
  have hdepth : erDepth x q m.val = erDepth s q m.val := by unfold erDepth; rw [hcfg]
  have heff : effErCfg q m.val false x = wrN (pgHP q) (erOff m.val 0x10) 0 (wrN (pgHP q) (erOff m.val 0x0C) 0
      (setEvtRing q m.val { evtRing x q m.val with base := erBase s q m.val, depth := erDepth s q m.val, unsent := 0 } x)) := by
    unfold effErCfg
    dsimp only
    rw [hon, hbase, hdepth, hdata', hdata]
    rfl
  rw [heff] at hexec
  obtain ⟨r, hr⟩ : ∃ r : EvtRing, { evtRing x q m.val with base := erBase s q m.val, depth := erDepth s q m.val, unsent := 0 } = r := ⟨_, rfl⟩
  rw [hr] at hexec
  have hring := evtRing_setEvtRing q m.val r x
  have hon' : erEnabled (setEvtRing q m.val r x) q m.val = true :=
    hon ▸ rdB_congr (rd_of_regs ((setEvtRing_port q m.val r x).field State.regs) ..) 31
  obtain ⟨y, hy⟩ : ∃ y, setEvtRing q m.val r x = y := ⟨_, rfl⟩
  rw [hy] at hexec hring hon'
  have hrep := (wrN_reports (pgHP q) (erOff m.val 0x0C) 0 y).trans (wrN_reports (pgHP q) (erOff m.val 0x10) 0 _)
  have hhead : rd (wrN (pgHP q) (erOff m.val 0x10) 0 (wrN (pgHP q) (erOff m.val 0x0C) 0 y)) (pgHP q) (erOff m.val 0x0C) = 0 :=
    (rd_wrN_other (hplace 0x10 (by decide)) (hplace 0x0C (by decide)) (fun h => absurd (hgap _ _ h.2) (by decide)) ..).trans (rd_wrN_same ..)
  have htail : rd (wrN (pgHP q) (erOff m.val 0x10) 0 (wrN (pgHP q) (erOff m.val 0x0C) 0 y)) (pgHP q) (erOff m.val 0x10) = 0 := rd_wrN_same ..
  have hen : rd (wrN (pgHP q) (erOff m.val 0x10) 0 (wrN (pgHP q) (erOff m.val 0x0C) 0 y)) (pgHP q) (erOff m.val 0x08) =
      rd y (pgHP q) (erOff m.val 0x08) :=
    (rd_wrN_other (hplace 0x10 (by decide)) (hplace 8 (by decide)) (fun h => absurd (hgap _ _ h.2) (by decide)) ..).trans
      (rd_wrN_other (hplace 0x0C (by decide)) (hplace 8 (by decide)) (fun h => absurd (hgap _ _ h.2) (by decide)) ..)
  obtain ⟨t, ht⟩ : ∃ t, wrN (pgHP q) (erOff m.val 0x10) 0 (wrN (pgHP q) (erOff m.val 0x0C) 0 y) = t := ⟨_, rfl⟩
  rw [ht] at hexec hrep hhead htail hen
  have hringt : evtRing t q m.val = r := (evtRing_of_port (port_of_reports hrep q) _).trans hring
  refine ⟨_, hexec.trans (settle_eq ..), (rdB_congr hen 31).trans hon', ?_, ?_, hhead, htail⟩
  · exact (congrArg EvtRing.base hringt).trans (by rw [← hr])
  · exact (congrArg EvtRing.depth hringt).trans (by rw [← hr])

end

end Sys2Proof.Machine
end

section
/-!
PROOFS. A port takes the entry at a ring's HEAD (R106 to R110), and jobs end (R87, R144).
-/
namespace Sys2Proof.Machine

/-! ### HEAD advances -/

section
variable {q : Port} {n : Nat} {s : State}

theorem crOff_lt {o : Nat} (hn : n < 16) (ho : o < 0x20) : crOff n o < 0x1000 ∧ 0x100 ≤ crOff n o := by unfold crOff; omega

/-- The parts of the state that taking an entry changes aside: jobs and memory stand where HEAD advances. -/
theorem advanceRing_shows (hn : n < 16) (hpos : 0 < (cmdRing s q n).depth) (hmax : (cmdRing s q n).depth ≤ 4096) :
    crHead (advanceRing q n s) q n = (crHead s q n + 1) % (cmdRing s q n).depth ∧ (advanceRing q n s).jobs = s.jobs ∧
      (advanceRing q n s).mem = s.mem := by
  have hlt : (crHead s q n + 1) % (cmdRing s q n).depth < 4096 := Nat.lt_of_lt_of_le (Nat.mod_lt _ hpos) hmax
  have hset := setCmdRing_port q n { cmdRing s q n with told := false } s
  unfold advanceRing
  dsimp only
  obtain ⟨h, hh⟩ : ∃ h, (crHead s q n + 1) % (cmdRing s q n).depth = h := ⟨_, rfl⟩
  rw [hh] at hlt ⊢
  obtain ⟨x, hx⟩ : ∃ x, setCmdRing q n { cmdRing s q n with told := false } s = x := ⟨_, rfl⟩
  rw [hx] at hset ⊢
  have hrep := (wrN_reports (pgHP q) (crOff n 0x0C) h x).trans (incCnt_reports (pgHP q) (crOff n 0x18) 1 _)
  refine ⟨?_, (hrep.field State.jobs).trans (hset.field State.jobs), (hrep.field State.mem).trans (hset.field State.mem)⟩
  obtain ⟨hc, hclow⟩ := crOff_lt (n := n) (o := 0x0C) hn (by decide)
  obtain ⟨h18, -⟩ := crOff_lt (n := n) (o := 0x18) hn (by decide)
  have hne : crOff n 0x0C ≠ crOff n 0x18 := by unfold crOff; omega
  have hread := (rd_incCnt_ne h18 hc (p := pgHP q) (p' := pgHP q) (by omega) 1 (wrN (pgHP q) (crOff n 0x0C) h x)).trans (rd_wrN_same ..)
  unfold crHead
  rw [rdF, hread]
  unfold fld bitsOf
  rw [BitVec.toNat_ofNat, Nat.mod_eq_of_lt (a := h) (by omega), Nat.shiftRight_zero]
  exact Nat.mod_eq_of_lt hlt

/-- A port that takes the entry of the ring whose turn it is. -/
theorem exec_entryTake {u : State} (hn : n < 16) (hon : domOn s 1 = true) (hturn : (s.port q).nextRing = n) (hheld : NoneHeld s q)
    (htake : takeEntryAt q n s = some u) :
    exec (.crEntryTake q) s = settle s (u.modPort q (fun p => { p with nextRing := (n + 1) % 16 })) := by
  have hlist : ∃ l, (List.range 16).map (fun i => (n + i) % 16) = n :: l :=
    ⟨_, List.cons_eq_cons.mpr ⟨Nat.mod_eq_of_lt hn, rfl⟩⟩
  obtain ⟨l, hl⟩ := hlist
  change execCrEntryTake q s = _
  unfold execCrEntryTake
  rw [if_pos hon, serveHeld_none hheld, hturn, hl]
  unfold takeFrom
  rw [htake]

/-- A read without an error counts, and the memory stands. -/
theorem readAs_clean {src : ReqSource} {a k : Nat} (h : (readAs src a k s).2.1 = none) :
    Accounted s (readAs src a k s).2.2 ∧ MemStands s (readAs src a k s).2.2 :=
  ⟨readAs_accounted src a k s, (readAs_readable (readable_of_readAs h)).2.2⟩

theorem crHead_of_accounted {t : State} (hn : n < 16) (h : Accounted s t) : crHead t q n = crHead s q n := by
  obtain ⟨hc, hlow⟩ := crOff_lt (n := n) (o := 0x0C) hn (by decide)
  exact rdF_congr (h.regs _ _ hc (by unfold counted; omega)) 11 0

theorem port_of_accounted {t : State} (h : Accounted s t) (r : Port) : t.port r = s.port r :=
  h.field (fun x => x.port r) (fun _ _ _ _ _ _ _ => by cases r <;> rfl)

/-- The entry at HEAD of an enabled ring, read without an error and found good. -/
theorem takeEntryAt_read (hen : crEnabled s q n = true) (hsome : crHead s q n ≠ (cmdRing s q n).tail)
    (hdata : isData s ((cmdRing s q n).base + 64 * crHead s q n) 64 = true)
    (huse : canUse s (srcPort q) ((cmdRing s q n).base + 64 * crHead s q n) 64 = true) {g : List Byte × Option Nat × State}
    (hg : readAs (srcPort q) ((cmdRing s q n).base + 64 * crHead s q n) 64 s = g) (hclean : g.2.1 = none) (hgood : entryReason s g.1 = 0) :
    takeEntryAt q n s =
      if leAt g.1 0 2 = 0 then some (advanceRing q n g.2.2)
      else if leAt g.1 0 2 = 2 then (if (cmdRing s q n).running = 0 then some (advanceRing q n g.2.2) else none)
      else if !canUse s (srcPort q) (leAt g.1 8 8) (leAt g.1 2 2) then none
      else
        let d := readAs (srcPort q) (leAt g.1 8 8) (leAt g.1 2 2) g.2.2
        if d.2.1.isSome then some (haltRing q n 0x06 d.2.2)
        else takeJob q n ⟨d.1, q, n, false, now s⟩ d.2.2 := by
  unfold takeEntryAt
  dsimp only
  rw [hen, decide_eq_false hsome, hdata, huse, hg, hclean, hgood]
  rfl

theorem entryTake_nop {g : List Byte × Option Nat × State} (hn : n < 16) (hon : domOn s 1 = true) (hturn : (s.port q).nextRing = n)
    (hheld : NoneHeld s q) (hpos : 0 < (cmdRing s q n).depth) (hmax : (cmdRing s q n).depth ≤ 4096)
    (hg : readAs (srcPort q) ((cmdRing s q n).base + 64 * crHead s q n) 64 s = g) (hclean : g.2.1 = none)
    (htake : takeEntryAt q n s = some (advanceRing q n g.2.2)) :
    ∃ t, exec (.crEntryTake q) s = .next t ∧ crHead t q n = (crHead s q n + 1) % (cmdRing s q n).depth ∧ t.jobs = s.jobs ∧
      MemStands s t := by
  have hexec := exec_entryTake hn hon hturn hheld htake
  have hread := readAs_clean (src := srcPort q) (a := (cmdRing s q n).base + 64 * crHead s q n) (k := 64) (s := s) (by rw [hg]; exact hclean)
  rw [hg] at hread
  obtain ⟨hacc, hmem⟩ := hread
  have hring := cmdRing_of_port (port_of_accounted hacc q) n
  obtain ⟨hhead, hjobs, hmem'⟩ := advanceRing_shows (s := g.2.2) hn (by rw [hring]; exact hpos) (by rw [hring]; exact hmax)
  rw [hring, crHead_of_accounted hn hacc] at hhead
  obtain ⟨x, hx⟩ : ∃ x, advanceRing q n g.2.2 = x := ⟨_, rfl⟩
  rw [hx] at hexec hhead hjobs hmem'
  have hport := PortOnly.modPort q (fun p => { p with nextRing := (n + 1) % 16 }) x
  obtain ⟨t, ht⟩ : ∃ t, x.modPort q (fun p => { p with nextRing := (n + 1) % 16 }) = t := ⟨_, rfl⟩
  rw [ht] at hexec hport
  have hheadt : crHead t q n = crHead x q n := rdF_congr (rd_of_regs (hport.field State.regs) ..) 11 0
  refine ⟨_, hexec.trans (settle_eq ..), hheadt.trans hhead, ?_, ?_⟩
  · exact (hport.field State.jobs).trans (hjobs.trans (hacc.field State.jobs))
  · exact hmem.trans ((memStands_of_mem hmem').trans (memStands_of_mem (hport.field State.mem)))

end

/-! ### A job joins its queue -/

/-- A page's queue holds the same descriptors, and the rest of what the ring and the memory show stands. -/
structure TellsQueue (p : Nat) (s t : State) : Prop where
  descs : (pageJobs t p).queue.map (·.desc) = (pageJobs s p).queue.map (·.desc)
  running : (pageJobs t p).running = (pageJobs s p).running
  mem : t.mem = s.mem
  port : ∀ q, t.port q = s.port q
  regs : ∀ r off, off < 0x1000 → 0x100 ≤ off → rd t r off = rd s r off

namespace TellsQueue

variable {p : Nat} {s t u : State}

theorem refl (p : Nat) (s : State) : TellsQueue p s s := ⟨rfl, rfl, rfl, fun _ => rfl, fun _ _ _ _ => rfl⟩

theorem trans (h : TellsQueue p s t) (g : TellsQueue p t u) : TellsQueue p s u :=
  ⟨g.descs.trans h.descs, g.running.trans h.running, g.mem.trans h.mem, fun q => (g.port q).trans (h.port q),
    fun r off ho hl => (g.regs r off ho hl).trans (h.regs r off ho hl)⟩

theorem tellHeld (p : Nat) (j : Job) (s : State) : TellsQueue p s (tellHeldJob p j s) := by
  unfold tellHeldJob
  split
  · exact .refl p s
  · have hjobs := pageJobs_modJobs p (fun q => { q with queue := q.queue.map (fun x => if x = j then { x with told := true } else x) }) s
    have hport : ∀ q, (modJobs p (fun q => { q with queue := q.queue.map (fun x => if x = j then { x with told := true } else x) }) s).port q =
        s.port q := fun q => by cases q <;> rfl
    have hregs : (modJobs p (fun q => { q with queue := q.queue.map (fun x => if x = j then { x with told := true } else x) }) s).regs =
        s.regs := rfl
    have hmem : (modJobs p (fun q => { q with queue := q.queue.map (fun x => if x = j then { x with told := true } else x) }) s).mem =
        s.mem := rfl
    obtain ⟨x, hx⟩ : ∃ x, modJobs p (fun q => { q with queue := q.queue.map (fun x => if x = j then { x with told := true } else x) }) s = x :=
      ⟨_, rfl⟩
    rw [hx] at hjobs hregs hmem ⊢
    simp only [hx] at hport
    have hrep := raise_reports p cWAIT_DEP sevINFO j.id x
    have hall := pageJobs_of_jobs (hrep.field State.jobs) p
    refine ⟨?_, ?_, (hrep.field State.mem).trans hmem, fun q => (port_of_reports hrep q).trans (hport q), fun r off ho hl => ?_⟩
    · rw [hall, hjobs, List.map_map]
      refine List.map_congr_left fun y _ => ?_
      rw [Function.comp]
      split <;> rfl
    · rw [hall, hjobs]
    · exact (rd_raise ho (by omega) ..).trans (rd_of_regs hregs ..)

theorem tellAll (p : Nat) (s : State) : TellsQueue p s (tellAll p s) := by
  unfold Machine.tellAll
  refine foldl_keeps (TellsQueue p s) _ (fun t j h => ?_) _ (.refl p s)
  split
  · exact h.trans (tellHeld p j t)
  · exact h

end TellsQueue

/-- A good job that reaches a page joins the end of its queue. -/
theorem deliver_joins {p : Nat} {addrs : List Nat} {j : Job} {s : State} (hfence : fenceBit s p = false) :
    (pageJobs (deliver p none addrs j s) p).queue.map (·.desc) = (pageJobs s p).queue.map (·.desc) ++ [j.desc] ∧
      (pageJobs (deliver p none addrs j s) p).running = (pageJobs s p).running ∧ (deliver p none addrs j s).mem = s.mem ∧
      (∀ q, (deliver p none addrs j s).port q = s.port q) ∧
      ∀ r off, off < 0x1000 → 0x100 ≤ off → rd (deliver p none addrs j s) r off = rd s r off := by
  have hjobs := pageJobs_modJobs p (fun q => { q with queue := q.queue ++ [j] }) s
  have hport : ∀ q, (modJobs p (fun q => { q with queue := q.queue ++ [j] }) s).port q = s.port q := fun q => by cases q <;> rfl
  have hregs : (modJobs p (fun q => { q with queue := q.queue ++ [j] }) s).regs = s.regs := rfl
  have hmem : (modJobs p (fun q => { q with queue := q.queue ++ [j] }) s).mem = s.mem := rfl
  unfold deliver
  rw [hfence, if_neg Bool.false_ne_true]
  dsimp only
  obtain ⟨x, hx⟩ : ∃ x, modJobs p (fun q => { q with queue := q.queue ++ [j] }) s = x := ⟨_, rfl⟩
  rw [hx] at hjobs hregs hmem ⊢
  simp only [hx] at hport
  have htold : TellsQueue p x (if depsMet x p j addrs then x else tellHeldJob p j x) := by
    split
    · exact .refl p x
    · exact .tellHeld p j x
  refine ⟨?_, ?_, htold.mem.trans hmem, fun q => (htold.port q).trans (hport q),
    fun r off ho hl => (htold.regs r off ho hl).trans (rd_of_regs hregs ..)⟩
  · rw [htold.descs, hjobs, List.map_append]; rfl
  · rw [htold.running, hjobs]

section
variable {q : Port} {n : Nat} {s : State}

theorem queueFull_of_jobs {t : State} (h : t.jobs = s.jobs) (p : Nat) (j : Job) : queueFull t p j = queueFull s p j := by
  unfold queueFull; rw [pageJobs_of_jobs h]

/-- The page register of an owner, and the power register, are not among those that count accesses. -/
theorem owner_of_accounted {t : State} (h : Accounted s t) (p : Nat) : owner t p = owner s p := by
  unfold owner
  rw [rdF_congr (h.regs p 0x028 (by decide) (by unfold counted; omega)) 0 0]

theorem pageOn_of_accounted {t : State} (h : Accounted s t) (p : Nat) : pageOn t p = pageOn s p :=
  pageOn_congr (h.field State.pd0) (h.regs pgPWR 0x080 (by decide) (by unfold counted pgPWR pgRES pgMREG; omega)) p

/-- A job entry that is delivered: what the ring, the queue and the memory show. -/
structure JobTaken (q : Port) (n p : Nat) (desc : List Byte) (s t : State) : Prop where
  head : crHead t q n = (crHead s q n + 1) % (cmdRing s q n).depth
  queue : (pageJobs t p).queue.map (·.desc) = (pageJobs s p).queue.map (·.desc) ++ [desc]
  running : (pageJobs t p).running = (pageJobs s p).running
  mem : t.mem = s.mem

theorem takeJob_delivers {j : Job} {p : Nat} (hn : n < 16) (hp : targetOf (cmdRing s q n).target j.engine = p)
    (hpos : 0 < (cmdRing s q n).depth) (hmax : (cmdRing s q n).depth ≤ 4096) (htold : (cmdRing s q n).told = false)
    (hruns : runsJobs p = true) (howner : owner s p = q) (hon : pageOn s p = true) (hfence : fenceBit s p = false)
    (hroom : queueFull s p j = false) (hstay : goingOff s p = false) (hengine : engineOk (cmdRing s q n).target j.engine = true)
    (hgood : jobBad s p j = none) : ∃ t, takeJob q n j s = some t ∧ JobTaken q n p j.desc s t := by
  have htake : takeJob q n j s =
      some (advanceRing q n (tellAll p (deliver p none (jobAddrs p j) { j with told := false } (ringRuns q n s)))) := by
    unfold takeJob
    dsimp only
    rw [hp, hruns, howner, hon, htold, hroom, hstay, hengine, hgood]
    simp
  have hport := setCmdRing_port q n { cmdRing s q n with running := (cmdRing s q n).running + 1 } s
  have hring := cmdRing_setCmdRing_same q n { cmdRing s q n with running := (cmdRing s q n).running + 1 } s
  unfold ringRuns at htake
  obtain ⟨x, hx⟩ : ∃ x, setCmdRing q n { cmdRing s q n with running := (cmdRing s q n).running + 1 } s = x := ⟨_, rfl⟩
  rw [hx] at htake hport hring
  have hfence' : fenceBit x p = false := (hport.field (fun y => fenceBit y p)).trans hfence
  obtain ⟨hqueue, hrun, hmem, hports, hregs⟩ := deliver_joins (addrs := jobAddrs p j) (j := { j with told := false }) hfence'
  obtain ⟨y, hy⟩ : ∃ y, deliver p none (jobAddrs p j) { j with told := false } x = y := ⟨_, rfl⟩
  rw [hy] at htake hqueue hrun hmem
  simp only [hy] at hports hregs
  have htell := TellsQueue.tellAll p y
  obtain ⟨z, hz⟩ : ∃ z, tellAll p y = z := ⟨_, rfl⟩
  rw [hz] at htake htell
  obtain ⟨hqueue', hrun', hmem', hports', hregs'⟩ := htell
  have hringz : cmdRing z q n = { cmdRing s q n with running := (cmdRing s q n).running + 1 } :=
    (cmdRing_of_port ((hports' q).trans (hports q)) n).trans hring
  obtain ⟨hc, hclow⟩ := crOff_lt (n := n) (o := 0x0C) hn (by decide)
  have hheadz : crHead z q n = crHead s q n :=
    rdF_congr ((hregs' _ _ hc hclow).trans ((hregs _ _ hc hclow).trans (rd_of_regs (hport.field State.regs) ..))) 11 0
  obtain ⟨hhead, hjobs, hmem''⟩ := advanceRing_shows (s := z) (q := q) hn (by rw [hringz]; exact hpos) (by rw [hringz]; exact hmax)
  rw [hringz, hheadz] at hhead
  have hjobsx := pageJobs_of_jobs (hport.field State.jobs) p
  have hjobst := pageJobs_of_jobs hjobs p
  refine ⟨_, htake, hhead, ?_, ?_, ?_⟩
  · rw [hjobst, hqueue', hqueue, hjobsx]
  · rw [hjobst, hrun', hrun, hjobsx]
  · exact hmem''.trans (hmem'.trans (hmem.trans (hport.field State.mem)))

theorem entryTake_job {g d : List Byte × Option Nat × State} {j : Job} {p : Nat} (hn : n < 16) (hon : domOn s 1 = true)
    (hturn : (s.port q).nextRing = n) (hheld : NoneHeld s q) (hpos : 0 < (cmdRing s q n).depth) (hmax : (cmdRing s q n).depth ≤ 4096)
    (hg : readAs (srcPort q) ((cmdRing s q n).base + 64 * crHead s q n) 64 s = g) (hclean : g.2.1 = none)
    (hd : readAs (srcPort q) (leAt g.1 8 8) (leAt g.1 2 2) g.2.2 = d) (hdclean : d.2.1 = none) (hj : ⟨d.1, q, n, false, now s⟩ = j)
    (htake : takeEntryAt q n s = takeJob q n j d.2.2) (hp : targetOf (cmdRing s q n).target j.engine = p)
    (htold : (cmdRing s q n).told = false) (hruns : runsJobs p = true) (howner : owner s p = q) (hpage : pageOn s p = true)
    (hfence : fenceBit s p = false) (hroom : queueFull s p j = false) (hstay : goingOff s p = false)
    (hengine : engineOk (cmdRing s q n).target j.engine = true) (hgood : jobBad d.2.2 p j = none) :
    ∃ t, exec (.crEntryTake q) s = .next t ∧ crHead t q n = (crHead s q n + 1) % (cmdRing s q n).depth ∧
      (pageJobs t p).queue.map (·.desc) = (pageJobs s p).queue.map (·.desc) ++ [d.1] ∧
      (pageJobs t p).running = (pageJobs s p).running ∧ MemStands s t := by
  have hread := readAs_clean (src := srcPort q) (a := (cmdRing s q n).base + 64 * crHead s q n) (k := 64) (s := s) (by rw [hg]; exact hclean)
  have hread' := readAs_clean (src := srcPort q) (a := leAt g.1 8 8) (k := leAt g.1 2 2) (s := g.2.2) (by rw [hd]; exact hdclean)
  rw [hg] at hread
  rw [hd] at hread'
  obtain ⟨hacc, hmem⟩ := hread
  obtain ⟨hacc', hmem'⟩ := hread'
  have hall := hacc.trans hacc'
  have hmems := hmem.trans hmem'
  obtain ⟨x, hx⟩ : ∃ x, d.2.2 = x := ⟨_, rfl⟩
  rw [hx] at htake hgood hall hmems
  have hring := cmdRing_of_port (port_of_accounted hall q) n
  have hfence' : fenceBit x p = false := (hall.field (fun y => fenceBit y p)).trans hfence
  have hstay' : goingOff x p = false := (hall.field (fun y => goingOff y p)).trans hstay
  obtain ⟨y, hy, hhead, hqueue, hrun, hymem⟩ := takeJob_delivers (s := x) (q := q) (j := j) (p := p) hn (by rw [hring]; exact hp)
    (by rw [hring]; exact hpos) (by rw [hring]; exact hmax) (by rw [hring]; exact htold) hruns ((owner_of_accounted hall p).trans howner)
    ((pageOn_of_accounted hall p).trans hpage) hfence' ((queueFull_of_jobs (hall.field State.jobs) p j).trans hroom) hstay'
    (by rw [hring]; exact hengine) hgood
  rw [hring, crHead_of_accounted hn hall] at hhead
  rw [pageJobs_of_jobs (hall.field State.jobs)] at hqueue hrun
  have hexec := exec_entryTake hn hon hturn hheld (htake.trans hy)
  have hport := PortOnly.modPort q (fun p => { p with nextRing := (n + 1) % 16 }) y
  obtain ⟨t, ht⟩ : ∃ t, y.modPort q (fun p => { p with nextRing := (n + 1) % 16 }) = t := ⟨_, rfl⟩
  rw [ht] at hexec hport
  have hheadt : crHead t q n = crHead y q n := rdF_congr (rd_of_regs (hport.field State.regs) ..) 11 0
  have hjobst := pageJobs_of_jobs (hport.field State.jobs) p
  rw [← hjobst] at hqueue hrun
  refine ⟨_, hexec.trans (settle_eq ..), hheadt.trans hhead, hqueue.trans (by rw [← hj]), hrun, ?_⟩
  exact hmems.trans (memStands_of_mem ((hport.field State.mem).trans hymem))

theorem entryTake_shows (hn : n < 16) (hon : domOn s 1 = true) (hturn : (s.port q).nextRing = n) (hen : crEnabled s q n = true)
    (hsome : crHead s q n ≠ (cmdRing s q n).tail) (hpos : 0 < (cmdRing s q n).depth) (hmax : (cmdRing s q n).depth ≤ 4096)
    {a : Nat} (ha : (cmdRing s q n).base + 64 * crHead s q n = a) {g : List Byte × Option Nat × State} (hg : readAs (srcPort q) a 64 s = g)
    (hheld : NoneHeld s q) (hdata : isData s a 64 = true) (huse : canUse s (srcPort q) a 64 = true) (hclean : g.2.1 = none)
    (hreason : entryReason s g.1 = 0) :
    (leAt g.1 0 2 = 0 →
      ∃ t, exec (.crEntryTake q) s = .next t ∧ crHead t q n = (crHead s q n + 1) % (cmdRing s q n).depth ∧ t.jobs = s.jobs ∧ MemStands s t) ∧
    ∀ {d : List Byte × Option Nat × State} {j : Job} {p : Nat}, readAs (srcPort q) (leAt g.1 8 8) (leAt g.1 2 2) g.2.2 = d →
      ⟨d.1, q, n, false, now s⟩ = j → targetOf (cmdRing s q n).target j.engine = p →
      leAt g.1 0 2 = 1 → canUse s (srcPort q) (leAt g.1 8 8) (leAt g.1 2 2) = true → d.2.1 = none → (cmdRing s q n).told = false →
      runsJobs p = true → owner s p = q → pageOn s p = true → fenceBit s p = false → queueFull s p j = false → goingOff s p = false →
      engineOk (cmdRing s q n).target j.engine = true → jobBad d.2.2 p j = none →
      ∃ t, exec (.crEntryTake q) s = .next t ∧ crHead t q n = (crHead s q n + 1) % (cmdRing s q n).depth ∧
        (pageJobs t p).queue.map (·.desc) = (pageJobs s p).queue.map (·.desc) ++ [d.1] ∧
        (pageJobs t p).running = (pageJobs s p).running ∧ MemStands s t := by
  subst ha
  have htake := takeEntryAt_read hen hsome hdata huse hg hclean hreason
  refine ⟨fun hnop => ?_, fun {d j p} hd hj hp hjob huse' hdclean htold hruns howner hpage hfence hroom hstay hengine hgood => ?_⟩
  · rw [if_pos hnop] at htake
    exact entryTake_nop hn hon hturn hheld hpos hmax hg hclean htake
  · have htake' : takeEntryAt q n s = takeJob q n j d.2.2 := by
      rw [htake, hjob, huse', if_neg (by decide), if_neg (by decide), if_neg (by decide), hd]
      dsimp only
      rw [hdclean, hj]
      rfl
    exact entryTake_job hn hon hturn hheld hpos hmax hg hclean hd hdclean hj htake' hp htold hruns howner hpage hfence hroom hstay hengine hgood

end

end Sys2Proof.Machine
end

section
/-!
PROOFS. Jobs end: a held one at its deadline, a finished one with its completion record (R87, R144).
-/
namespace Sys2Proof.Machine

/-! ### What the end of a job leaves -/

/-- The jobs and the memory. -/
def jobsMem (s : State) : SMap PageJobs × Memory := (s.jobs, s.mem)

theorem Same.jobs_mem {s t : State} (h : Same jobsMem s t) : t.jobs = s.jobs ∧ t.mem = s.mem :=
  ⟨congrArg Prod.fst h, congrArg Prod.snd h⟩

theorem latch_keepsJobs (p c v d : Nat) (s : State) : Same jobsMem s (latch p c v d s) := .reports (latch_reports ..)

theorem countJob_reports (p off : Nat) (s : State) : ReportsOnly s (countJob p off s) := by
  unfold countJob; split
  · exact incCnt_reports ..
  · exact .refl s

theorem postTo_reports (q : Port) (p c v d : Nat) (s : State) : ReportsOnly s (postTo q p c v d s) := post_reports ..

theorem raiseAlways_reports (p c v d : Nat) (s : State) : ReportsOnly s (raiseAlways p c v d s) :=
  ((setEvt_reports ..).trans (latch_reports ..)).trans (postTo_reports ..)

theorem abortEvent_reports (p : Nat) (j : Job) (recorded : Bool) (s : State) : ReportsOnly s (abortEvent p j recorded s) := by
  have hcount := (countJob_reports p 0x030 s).trans (countJob_reports p 0x034 _)
  unfold abortEvent; dsimp only; split
  · exact hcount.trans (raise_reports ..)
  · exact hcount.trans (raiseAlways_reports ..)

theorem doneEvents_reports (p : Nat) (d : DoneJob) (recorded : Bool) (s : State) : ReportsOnly s (doneEvents p d recorded s) := by
  unfold doneEvents; split
  · exact .refl s
  · split
    · exact abortEvent_reports ..
    · dsimp only; split
      · exact (countJob_reports ..).trans (raiseAlways_reports ..)
      · exact (countJob_reports ..).trans (raise_reports ..)

theorem trigPost_reports (src p i : Nat) (s : State) : ReportsOnly s (trigPost src p i s) := by
  unfold trigPost; split
  · exact raise_reports ..
  · split
    · exact .refl s
    · split
      · exact setTrig_reports ..
      · split
        · exact .refl s
        · exact (wrB_reports ..).trans (raise_reports ..)

theorem postJobTrigger_reports (p t : Nat) (s : State) : ReportsOnly s (postJobTrigger p t s) := by
  unfold postJobTrigger; split
  · exact trigPost_reports ..
  · exact .refl s

theorem doneTriggers_reports (p : Nat) (d : DoneJob) (s : State) : ReportsOnly s (doneTriggers p d s) := by
  unfold doneTriggers; split
  · exact .refl s
  · exact (postJobTrigger_reports ..).trans (postJobTrigger_reports ..)

theorem ringDone_keepsJobs (j : Job) (s : State) : Same jobsMem s (ringDone j s) :=
  .ite ((setCmdRing_port ..).field jobsMem) (.refl s)

theorem setCam_keepsJobs (c : Nat) (v : FstCam) (s : State) : Same jobsMem s (setCam c v s) := rfl

theorem flushDone_keepsJobs (c : Nat) (s : State) : Same jobsMem s (flushDone c s) :=
  .ite ((Same.reports (raise_reports ..)).after (setCam_keepsJobs ..)) (.refl s)

theorem unpinFrames_keepsJobs (p n : Nat) (s : State) : Same jobsMem s (unpinFrames p n s) := by
  unfold unpinFrames; dsimp only
  exact .foldl (fun t c => .ite (.refl t) ((flushDone_keepsJobs ..).after (setCam_keepsJobs c _ t))) _ s

/-! ### A held job misses its deadline -/

section
variable {p : Nat} {s : State}

theorem expire_jobs (j : Job) (s : State) : ∃ d : DoneJob, pageJobs (expire p j s) p = { pageJobs s p with done := (pageJobs s p).done ++ [d] } ∧
    d.status = stABORT_DEADLINE ∧ d.job.desc = j.desc ∧ d.reported = true := by
  obtain ⟨b, hb⟩ : ∃ b, complOk s j.complAddr = b := ⟨_, rfl⟩
  have hrep := (raise_reports p cDEADLINE_MISS sevJOB j.id s).trans (abortEvent_reports p j b _)
  have hexpire : expire p j s = modJobs p (fun q => { q with
      done := q.done ++ [DoneJob.mk { j with accepted := now s } stABORT_DEADLINE (now s) (now s) false false true 0] })
      (abortEvent p j b (missEvent p j s)) := by
    unfold expire
    dsimp only
    rw [hb]
  rw [hexpire, pageJobs_modJobs]
  have hjobs : pageJobs (abortEvent p j b (missEvent p j s)) p = pageJobs s p := pageJobs_of_jobs (hrep.field State.jobs) p
  rw [hjobs]
  exact ⟨_, rfl, rfl, rfl, rfl⟩

theorem heldJobDeadline_shows {j : Job} (hfind : (pageJobs s p).queue.find? (fun x => jobHeld s p x && pastDeadline s x.deadline) = some j) :
    ∃ t, exec (.heldJobDeadline p) s = .next t ∧ (pageJobs t p).queue = (pageJobs s p).queue.erase j ∧
      ∃ d, (pageJobs t p).done = (pageJobs s p).done ++ [d] ∧ d.status = stABORT_DEADLINE ∧ d.job.desc = j.desc ∧ d.reported = true := by
  have hexec : exec (.heldJobDeadline p) s = settle s (expire p j (modJobs p (fun q => { q with queue := q.queue.erase j }) s)) := by
    change execHeldJobDeadline p s = _
    unfold execHeldJobDeadline; rw [hfind]
  have hjobs := pageJobs_modJobs p (fun q => { q with queue := q.queue.erase j }) s
  obtain ⟨x, hx⟩ : ∃ x, modJobs p (fun q => { q with queue := q.queue.erase j }) s = x := ⟨_, rfl⟩
  rw [hx] at hexec hjobs
  obtain ⟨d, hdone, hstatus, hdesc, htold⟩ := expire_jobs (p := p) j x
  rw [hjobs] at hdone
  obtain ⟨t, ht⟩ : ∃ t, expire p j x = t := ⟨_, rfl⟩
  rw [ht] at hexec hdone
  exact ⟨_, hexec.trans (settle_eq ..), congrArg PageJobs.queue hdone, d, congrArg PageJobs.done hdone, hstatus, hdesc, htold⟩

/-! ### A finished job completes -/

/-- A record into good words of data. -/
theorem storeAs_goodWords {src : ReqSource} {a : Nat} {bs : List Byte} (hdata : isData s a bs.length = true)
    (h : GoodWords s a bs.length) : Wrote a bs s (storeAs src a bs s) := by
  have huse := useMem_accounted src a bs.length s
  have hstands := useMem_data src a bs.length s
  have hlen : (bs.map some).length = bs.length := List.length_map _
  obtain ⟨-, hstores, hbytes⟩ := writeEnabled_good (job := false) (a := a) (bs := bs.map some) (s := useMem src a bs.length s)
    (by rw [hlen, huse.sameUse.isData]; exact hdata) (by rw [hlen]; exact h.of_accounted huse hstands.marksStand)
  exact ⟨.trans ⟨huse, hstands.marksStand⟩ hstores, fun x => (hbytes x).trans (overlay_eq_of (hstands.memStands x))⟩

theorem codedWords_congr {t : State} (h : rd t (pgDMC 0) 0x108 = rd s (pgDMC 0) 0x108) (a n : Nat) : codedWords t a n = codedWords s a n := by
  have hecc : eccOn t = eccOn s := funext fun x => rdB_congr h _
  unfold codedWords; rw [hecc]

theorem completionRecord_length (d : DoneJob) : (completionRecord d).length = 32 := by simp [completionRecord, leBytes]

/-- The record of a finished job, where it gets one. -/
def recorded (p : Nat) (d : DoneJob) (ok : Bool) (s : State) : State :=
  if ok then storeAs .record d.job.complAddr (completionRecord d) (modJobs p (fun q => { q with done := q.done.erase d }) s)
  else modJobs p (fun q => { q with done := q.done.erase d }) s

theorem recorded_shows (d : DoneJob) (ok : Bool) : (pageJobs (recorded p d ok s) p).done = (pageJobs s p).done.erase d ∧
    (ok = true → isData s d.job.complAddr 32 = true → codedWords s d.job.complAddr 32 = [] →
      getBytes (recorded p d ok s) d.job.complAddr 32 = completionRecord d ∧ MemStandsBut d.job.complAddr 32 s (recorded p d ok s)) := by
  have hjobs := pageJobs_modJobs p (fun q => { q with done := q.done.erase d }) s
  have hmem : MemStands s (modJobs p (fun q => { q with done := q.done.erase d }) s) := memStands_of_mem rfl
  have hrd : rd (modJobs p (fun q => { q with done := q.done.erase d }) s) (pgDMC 0) 0x108 = rd s (pgDMC 0) 0x108 := rfl
  unfold recorded
  obtain ⟨x, hx⟩ : ∃ x, modJobs p (fun q => { q with done := q.done.erase d }) s = x := ⟨_, rfl⟩
  rw [hx] at hjobs hmem hrd ⊢
  cases ok with
  | false => exact ⟨congrArg PageJobs.done hjobs, fun h => by cases h⟩
  | true =>
    rw [if_pos rfl]
    have hacc := storeAs_accounted .record d.job.complAddr (completionRecord d) x
    refine ⟨?_, fun _ hdata hcodes => ?_⟩
    · rw [pageJobs_of_jobs (hacc.field State.jobs), hjobs]
    · have hlen := completionRecord_length d
      have hgood : GoodWords x d.job.complAddr (completionRecord d).length := by
        rw [hlen, GoodWords, codedWords_congr hrd, hcodes]; exact fun w hw => nomatch hw
      have hwrote := storeAs_goodWords (src := .record) (bs := completionRecord d) (by rw [hlen, isData_congr hrd]; exact hdata) hgood
      have hbytes := hwrote.getBytes
      have hbut := hwrote.standsBut
      rw [hlen] at hbytes hbut
      exact ⟨hbytes, fun b hb => (hbut b hb).trans (hmem b)⟩

theorem complete_eq {d : DoneJob} (hring : d.job.ring < 17) (ok : Bool) (hok : (complOk s d.job.complAddr && !d.noRecord) = ok) :
    complete p d s = unpinFrames p d.serial (ringDone d.job (doneEvents p d ok (doneTriggers p d (recorded p d ok s)))) := by
  unfold complete recorded
  dsimp only
  rw [hok]
  exact if_neg (by omega)

theorem complete_keepsJobs (d : DoneJob) (ok : Bool) (t : State) :
    Same jobsMem t (unpinFrames p d.serial (ringDone d.job (doneEvents p d ok (doneTriggers p d t)))) :=
  (unpinFrames_keepsJobs ..).after ((ringDone_keepsJobs ..).after
    ((Same.reports (doneEvents_reports ..)).after (.reports (doneTriggers_reports ..))))

theorem jobCompletion_shows {d : DoneJob} (hfind : (pageJobs s p).done.find? (canComplete s) = some d) (hring : d.job.ring < 17) :
    ∃ t, exec (.jobCompletion p) s = .next t ∧ (pageJobs t p).done = (pageJobs s p).done.erase d ∧
      (complOk s d.job.complAddr = true → d.noRecord = false → codedWords s d.job.complAddr 32 = [] →
        getBytes t d.job.complAddr 32 = completionRecord d ∧ MemStandsBut d.job.complAddr 32 s t) := by
  obtain ⟨ok, hok⟩ : ∃ ok, (complOk s d.job.complAddr && !d.noRecord) = ok := ⟨_, rfl⟩
  have hexec : exec (.jobCompletion p) s = settle s (complete p d s) := by
    change execJobCompletion p s = _
    unfold execJobCompletion; rw [hfind]
  rw [complete_eq hring ok hok] at hexec
  obtain ⟨hdone, hrecord⟩ := recorded_shows (p := p) (s := s) d ok
  obtain ⟨x, hx⟩ : ∃ x, recorded p d ok s = x := ⟨_, rfl⟩
  rw [hx] at hexec hdone hrecord
  obtain ⟨hjobs, hmem⟩ := (complete_keepsJobs (p := p) d ok x).jobs_mem
  obtain ⟨t, ht⟩ : ∃ t, unpinFrames p d.serial (ringDone d.job (doneEvents p d ok (doneTriggers p d x))) = t := ⟨_, rfl⟩
  rw [ht] at hexec hjobs hmem
  have hmemt : MemStands x t := memStands_of_mem hmem
  refine ⟨_, hexec.trans (settle_eq ..), (congrArg PageJobs.done (pageJobs_of_jobs hjobs p)).trans hdone, fun hcompl hno hcodes => ?_⟩
  have hone : ok = true := by rw [← hok, hcompl, hno]; rfl
  have hdata : isData s d.job.complAddr 32 = true := by
    unfold complOk at hcompl; exact (Bool.and_eq_true_iff.mp hcompl).2
  obtain ⟨hbytes, hbut⟩ := hrecord hone hdata hcodes
  exact ⟨(getBytes_congr hmemt _ 32).trans hbytes, fun b hb => (hmemt b).trans (hbut b hb)⟩

end

/-- Settles O9. -/
theorem ringsRunJobs : Obligations.RingsRunJobs :=
  ⟨⟨fun _ _ _ => crEnable_shows, fun _ _ _ => crEnable_enabled, fun _ _ _ => erEnable_shows⟩,
    fun _ _ _ hn hon hturn hen hsome hpos hmax hheld hdata huse hclean hreason => by
      obtain ⟨hnop, hjob⟩ := entryTake_shows hn hon hturn hen hsome hpos hmax rfl rfl hheld hdata huse hclean hreason
      exact ⟨hnop, hjob rfl rfl rfl⟩,
    fun _ _ _ => heldJobDeadline_shows, fun _ _ _ => jobCompletion_shows⟩

end Sys2Proof.Machine
end

section
/-!
PROOFS. What a page's jobs show when one of them starts or ends, and the `PG_EVT` bit an event sets (R62, R87, R672).
-/
namespace Sys2Proof.Machine

/-! ### The bit of an event -/

theorem rdB_hwClear_evt {p off i : Nat} (ho : off < 0x1000) (hne : off ≠ 0x014) {j : Nat} {s : State} (h : rdB s p 0x014 i = true) :
    rdB (hwClear p off j s) p 0x014 i = true := by
  have hclear : rdB (wrB p off j false s) p 0x014 i = true := (rdB_congr (rd_wrB_other ho (by decide) (by omega) ..) i).trans h
  unfold hwClear; split
  · have hbit : evtBit p cHW_CLEAR sevINFO = some 9 := rfl
    unfold raiseOnly
    refine (rdB_congr ((rd_post ..).trans (rd_latch (by decide) (by omega) ..)) i).trans ?_
    rw [hbit]
    unfold setEvt
    dsimp only
    split
    · rw [rdB_wrB_bit _ _ (by decide), hclear, Bool.or_true]
    · exact hclear
  · exact h

/-- An event sets its bit of `PG_EVT` on a page whose domain is on. -/
theorem rdB_raise_evt {p c v i : Nat} {s : State} (hi : i < 32) (hbit : evtBit p c v = some i) (hon : pageOn s p = true) (d : Nat) :
    rdB (raise p c v d s) p 0x014 i = true := by
  have honly : rdB (raiseOnly p c v d s) p 0x014 i = true := by
    unfold raiseOnly
    refine (rdB_congr ((rd_post ..).trans (rd_latch (by decide) (by omega) ..)) i).trans ?_
    rw [hbit, show setEvt p (some i) s = wrB p 0x014 i true s from if_pos hon]
    exact rdB_wrB _ _ _ _ _ hi
  unfold raise; dsimp only; split
  · exact rdB_hwClear_evt (by decide) (by decide) honly
  · exact honly

/-! ### The end of a page's job -/

theorem regsStandBut_ite {ps : List Nat} {c : Prop} [Decidable c] {s a b : State} (ha : RegsStandBut ps s a) (hb : RegsStandBut ps s b) :
    RegsStandBut ps s (if c then a else b) := by
  split
  · exact ha
  · exact hb

theorem regsStandBut_syncQuiesced (p : Nat) (s : State) : RegsStandBut [p] s (syncQuiesced p s) :=
  regsStandBut_ite (regsStandBut_setReady _ _ _) (regsStandBut_refl _ s)

theorem regsStandBut_jobEnded (p : Nat) (s : State) : RegsStandBut [p] s (jobEnded p s) :=
  regsStandBut_ite (RegsStandBut.trans (regsStandBut_stallEnd _ _) (regsStandBut_syncQuiesced _ _)) (regsStandBut_refl _ s)

theorem regsStandBut_modJobs (ps : List Nat) (p : Nat) (f : PageJobs → PageJobs) (s : State) : RegsStandBut ps s (modJobs p f s) :=
  regsStandBut_of_regs ps rfl

theorem regsStandBut_finishIf (p : Nat) (f : Job → Bool) (st d : Nat) (s : State) : RegsStandBut [p] s (finishIf p f st d s) :=
  (regsStandBut_modJobs [p] p _ s).trans (regsStandBut_jobEnded _ _)

/-- An operation on one page leaves which domains are on, unless the page is the power page. -/
theorem pageOn_of_regsStandBut {p : Nat} {s t : State} (hne : p ≠ pgPWR) (h : RegsStandBut [p] s t) (hpd0 : t.pd0 = s.pd0) (p' : Nat) :
    pageOn t p' = pageOn s p' :=
  pageOn_congr hpd0 (h pgPWR 0x080 (by decide) (fun hm => hne (List.mem_singleton.mp hm).symm)) p'

theorem jobEnded_prefix (p : Nat) (s : State) : s.outbox <+: (jobEnded p s).outbox := by
  have hstall : s.outbox <+: (stallEnd p s).outbox := by
    unfold stallEnd; split
    · exact raise_prefix p cSTALL_END sevINFO (satN 32 (msSince s (pageJobs s p).progress)) (wrB p 0x010 2 false s)
    · exact List.prefix_rfl
  have hquiet (t : State) : t.outbox <+: (syncQuiesced p t).outbox := by
    unfold syncQuiesced; dsimp only; split
    · exact setReady_prefix p _ t
    · exact List.prefix_rfl
  unfold jobEnded; split
  · exact hstall.trans (hquiet _)
  · exact List.prefix_rfl

/-- The jobs of a page after its first running job that `f` selects has ended. -/
def endedIf (f : Job → Bool) (j : PageJobs) (r : Job) (status detail at_ : Nat) : PageJobs :=
  { j with running := j.running.eraseP f, done := j.done ++ [⟨r, status, detail, at_, false, false, false, j.started⟩] }

theorem pageJobs_finishIf {p : Nat} {f : Job → Bool} {s : State} {r : Job} (hfind : (pageJobs s p).running.find? f = some r) (st d : Nat) :
    pageJobs (finishIf p f st d s) p = endedIf f (pageJobs s p) r st d (now s) := by
  unfold finishIf
  rw [pageJobs_of_jobs ((jobEnded_reports ..).field State.jobs), pageJobs_modJobs, hfind]
  rfl

/-- What an end of a job leaves: everything but the page's jobs and what is reported of it. -/
theorem finishIf_field {α : Type} (p : Nat) (f : Job → Bool) (st d : Nat) (s : State) (g : State → α)
    (hg : ∀ x r o j, g { x with regs := r, outbox := o, jobs := j } = g x := by exact fun _ _ _ _ => rfl) : g (finishIf p f st d s) = g s :=
  ((jobEnded_reports p _).field g fun x r o => hg x r o x.jobs).trans (hg s s.regs s.outbox _)

theorem doneWith_of_ended {s t : State} {p : Nat} {f : Job → Bool} {j : Job} {st d at_ : Nat}
    (h : pageJobs t p = endedIf f (pageJobs s p) j st d at_) : DoneWith s t p j st := by
  refine ⟨⟨j, st, d, at_, false, false, false, (pageJobs s p).started⟩, ?_, rfl, rfl⟩
  rw [h]; rfl

theorem finishIf_doneWith {p : Nat} {f : Job → Bool} {s : State} {r : Job} (hfind : (pageJobs s p).running.find? f = some r) (st d : Nat) :
    DoneWith s (finishIf p f st d s) p r st := doneWith_of_ended (pageJobs_finishIf hfind st d)

/-- The running job of a single-job page is done. -/
theorem finish_doneWith {p : Nat} {s : State} {r : Job} (hrun : running s p = some r) (st d : Nat) : DoneWith s (finish p st d s) p r st := by
  refine ⟨⟨r, st, d, now s, false, false, false, (pageJobs s p).started⟩, ?_, rfl, rfl⟩
  rw [pageJobs_finish hrun]; rfl

theorem DoneWith.of_jobs {s s' t t' : State} {p : Nat} {j : Job} {st : Nat} (h : DoneWith s t p j st) (hs : pageJobs s' p = pageJobs s p)
    (ht : pageJobs t' p = pageJobs t p) : DoneWith s' t' p j st := by
  obtain ⟨d, hd, hdesc, hst⟩ := h
  exact ⟨d, by rw [ht, hs]; exact hd, hdesc, hst⟩

/-! ### The start of a page's job -/

theorem startIf_jobs {p : Nat} {f : Job → Bool} {s : State} {r : Job} (hfind : (pageJobs s p).queue.find? f = some r) :
    pageJobs (startIf p f s) p = { pageJobs s p with
      queue := (pageJobs s p).queue.eraseP f, running := (pageJobs s p).running ++ [{ r with accepted := now s }]
      progress := now s, started := (pageJobs s p).started + 1 } := by
  unfold startIf
  rw [pageJobs_modJobs, hfind]

end Sys2Proof.Machine
end

section
/-!
PROOFS. The Dexvor link comes up and faults (R600 to R603, R607).
-/
namespace Sys2Proof.Machine

/-! ### Queued jobs told that they are held -/

/-- Jobs of a page's queue are marked as told, and events of `sevINFO` are posted for them. -/
structure QueueTold (p : Nat) (s t : State) : Prop where
  eq : t = { s with regs := t.regs, outbox := t.outbox, jobs := t.jobs }
  running : (pageJobs t p).running = (pageJobs s p).running
  done : (pageJobs t p).done = (pageJobs s p).done
  regs : ∀ r off, off < 0x1000 → ¬(r = p ∧ off = 0x014) → rd t r off = rd s r off
  outbox : s.outbox <+: t.outbox

namespace QueueTold

variable {p : Nat} {s t u : State}

theorem refl (p : Nat) (s : State) : QueueTold p s s := ⟨rfl, rfl, rfl, fun _ _ _ _ => rfl, List.prefix_rfl⟩

theorem trans (h : QueueTold p s t) (g : QueueTold p t u) : QueueTold p s u := by
  refine ⟨?_, g.running.trans h.running, g.done.trans h.done, fun r off ho hne => (g.regs r off ho hne).trans (h.regs r off ho hne),
    h.outbox.trans g.outbox⟩
  have heq := g.eq
  rw [h.eq] at heq
  exact heq

theorem field {α : Type} (h : QueueTold p s t) (f : State → α)
    (hf : ∀ x r o j, f { x with regs := r, outbox := o, jobs := j } = f x := by exact fun _ _ _ _ => rfl) : f t = f s :=
  (congrArg f h.eq).trans (hf ..)

theorem raise {c v d : Nat} (hv : v < sevDEGRADED) (s : State) : QueueTold p s (raise p c v d s) := by
  have hrep := raise_reports p c v d s
  have hjobs := pageJobs_of_jobs (hrep.field State.jobs) p
  refine ⟨?_, by rw [hjobs], by rw [hjobs], fun r off ho hne => rd_raise_low ho hv hne .., raise_prefix ..⟩
  rw [hrep.field State.jobs]
  exact hrep.eq

theorem modJobs {f : PageJobs → PageJobs} (hrun : ∀ q, (f q).running = q.running) (hdone : ∀ q, (f q).done = q.done) (s : State) :
    QueueTold p s (modJobs p f s) := by
  have hjobs := pageJobs_modJobs p f s
  exact ⟨rfl, by rw [hjobs, hrun], by rw [hjobs, hdone], fun _ _ _ _ => rfl, List.prefix_rfl⟩

theorem tellHeld (p : Nat) (j : Job) (s : State) : QueueTold p s (tellHeldJob p j s) := by
  unfold tellHeldJob; split
  · exact .refl p s
  · have hmark := QueueTold.modJobs (p := p)
      (f := fun q => { q with queue := q.queue.map (fun x => if x = j then { x with told := true } else x) }) (fun _ => rfl) (fun _ => rfl) s
    obtain ⟨x, hx⟩ : ∃ x, Machine.modJobs p (fun q => { q with queue := q.queue.map (fun x => if x = j then { x with told := true } else x) }) s = x :=
      ⟨_, rfl⟩
    rw [hx] at hmark ⊢
    exact hmark.trans (QueueTold.raise (by decide) x)

theorem tellQueue (p : Nat) (l : List Job) (s : State) : QueueTold p s (l.foldl (fun u j => tellHeldJob p j u) s) :=
  foldl_keeps (QueueTold p s) _ (fun t j h => h.trans (tellHeld p j t)) l (.refl p s)

end QueueTold

/-! ### The parts of the link -/

theorem plkOn_ne : pgPLK ≠ pgPWR := by decide

theorem plk_assigned : assigned pgPLK = true := by decide

/-- `PLK_LINK.UP` and TRAINING follow the register and the domain. -/
theorem plkUp_congr {s t : State} (hon : pageOn t pgPLK = pageOn s pgPLK) (h : rd t pgPLK 0x080 = rd s pgPLK 0x080) :
    plkUp t = plkUp s ∧ plkTraining t = plkTraining s := by
  unfold plkUp plkTraining rdB
  rw [hon, h]
  exact ⟨rfl, rfl⟩

theorem on_of_up {s : State} (h : plkUp s = true) : pageOn s pgPLK = true := (Bool.and_eq_true_iff.mp h).1

theorem on_of_training {s : State} (h : plkTraining s = true) : pageOn s pgPLK = true := (Bool.and_eq_true_iff.mp h).1

theorem pageOn_plkWr {off : Nat} (ho : off < 0x1000) (v : Word) (s : State) : pageOn (wr pgPLK off v s) pgPLK = pageOn s pgPLK :=
  pageOn_wr ho (fun h => plkOn_ne h.1) v s pgPLK

/-! ### The link ends -/

def plkOn (s : State) : Bool := pageOn s pgPLK

theorem storeAs_plkOn (src : ReqSource) (a : Nat) (bs : List Byte) (s : State) : Same plkOn s (storeAs src a bs s) :=
  pageOn_of_accounted (storeAs_accounted ..) pgPLK

theorem abandonRx_plkOn (c : Nat) (s : State) : Same plkOn s (abandonRx c s) := by
  unfold abandonRx; split
  · exact .refl s
  · dsimp only; split
    · exact (storeAs_plkOn .record _ _ _).after (s := s) rfl
    · rfl

theorem endSend_plkOn (c st d : Nat) (s : State) : Same plkOn s (endSend c st d s) :=
  (pageOn_of_regsStandBut plkOn_ne (regsStandBut_finishIf pgPLK (ofChan c) st d _) (finishIf_field _ _ _ _ _ State.pd0) pgPLK).trans rfl

/-- What one channel has under way ends. -/
def chanEnds (a : State) (c : Nat) : State :=
  abandonRx c (match txOf a c with | some m => endSend c stPLK_LINK_FAULT m.acked a | none => a)

theorem chanEnds_plkOn (a : State) (c : Nat) : Same plkOn a (chanEnds a c) := by
  refine (abandonRx_plkOn c _).after ?_
  split
  · exact endSend_plkOn ..
  · exact .refl a

/-- The link's record after everything under way has ended. -/
def linkEmptied (l : Link) : Link := { l with unacked := [], sends := 0, resend := 0, tx := [], rx := [], ack := none, nak := none }

theorem linkEnds_eq (s : State) : linkEnds s = wrF pgPLK 0x088 6 0 0 (wrF pgPLK 0x080 6 0 0
    (modPlk linkEmptied ((List.range 4).foldl chanEnds s))) := rfl

theorem linkEnds_plkOn (s : State) : Same plkOn s (linkEnds s) := by
  have hfold : Same plkOn s ((List.range 4).foldl chanEnds s) := Same.foldl (f := plkOn) chanEnds_plkOn (List.range 4) s
  rw [linkEnds_eq]
  obtain ⟨x, hx⟩ : ∃ x, (List.range 4).foldl chanEnds s = x := ⟨_, rfl⟩
  rw [hx] at hfold ⊢
  have hup (y : State) : Same plkOn y (wrF pgPLK 0x080 6 0 0 y) := pageOn_plkWr (by decide) _ _
  have hcredit (y : State) : Same plkOn y (wrF pgPLK 0x088 6 0 0 y) := pageOn_plkWr (by decide) _ _
  have hempty : Same plkOn x (modPlk linkEmptied x) := rfl
  exact (hcredit _).after ((hup _).after (hempty.after hfold))

theorem linkEnds_shows (s : State) : rdB (linkEnds s) pgPLK 0x080 0 = false ∧ (linkEnds s).plk.unacked = [] ∧ (linkEnds s).plk.tx = [] ∧
    (linkEnds s).plk.rx = [] := by
  refine ⟨?_, rfl, rfl, rfl⟩
  rw [linkEnds_eq]
  obtain ⟨x, hx⟩ : ∃ x, modPlk linkEmptied ((List.range 4).foldl chanEnds s) = x := ⟨_, rfl⟩
  rw [hx]
  refine (rdB_congr (rd_wrF_other (by decide) (by decide) (by decide) ..) 0).trans ?_
  unfold wrF rdB
  rw [rd_wr_same, flag_setFld_mem _ _ (by decide) (by decide) (by decide)]
  rfl

theorem linkFault_lost {s : State} {reason : Nat} (hon : pageOn s pgPLK = true) (hr : reason < 2 ^ 8) (seq : Nat) :
    LinkLost (linkFault reason seq s) reason seq := by
  have hon' : pageOn (linkEnds s) pgPLK = true := (linkEnds_plkOn s).trans hon
  obtain ⟨hup, hun, htx, hrx⟩ := linkEnds_shows s
  unfold linkFault
  dsimp only
  obtain ⟨x, hx⟩ : ∃ x, linkEnds s = x := ⟨_, rfl⟩
  rw [hx] at hon' hup hun htx hrx ⊢
  obtain ⟨d, hd⟩ : ∃ d, reason + seq % 2 ^ 24 * 2 ^ 8 = d := ⟨_, rfl⟩
  have hplk := (raise_reports pgPLK 0x101 sevBLOCK d x).field State.plk
  have hup' : rdB (raise pgPLK 0x101 sevBLOCK d x) pgPLK 0x080 0 = false := (rdB_congr (rd_raise (by decide) (by decide) ..) 0).trans hup
  have hen := raise_block_disables (p := pgPLK) (v := sevBLOCK) (Nat.le_refl _) hon' 0x101 d
  have hvalid := rdB_raise_valid (v := sevBLOCK) plk_assigned (by decide) (by decide) 0x101 d x
  have htold (q : Port) : Told (raise pgPLK 0x101 sevBLOCK d x) q pgPLK 0x101 d := by
    have h := told_raise_block (Nat.le_refl sevBLOCK) q pgPLK 0x101 d x
    rwa [Nat.mod_eq_of_lt (by omega)] at h
  unfold LinkLost
  rw [hd]
  obtain ⟨y, hy⟩ : ∃ y, raise pgPLK 0x101 sevBLOCK d x = y := ⟨_, rfl⟩
  simp only [hy] at htold
  rw [hy] at hplk hup' hen hvalid ⊢
  have htell := QueueTold.tellQueue pgPLK (pageJobs y pgPLK).queue y
  have hplk' := (htell.field State.plk).trans hplk
  exact ⟨(rdB_congr (htell.regs _ _ (by decide) (by decide)) 0).trans hup', (congrArg Link.unacked hplk').trans hun,
    (congrArg Link.tx hplk').trans htx, (congrArg Link.rx hplk').trans hrx,
    (rdB_congr (htell.regs _ _ (by decide) (by decide)) 0).trans hen,
    (rdB_congr (htell.regs _ _ (by decide) (by decide)) 16).trans hvalid, (htold .a).mono htell.outbox, (htold .b).mono htell.outbox⟩

/-- Nothing is under way on a channel. -/
def chanIdle (s : State) (c : Nat) : Prop := txOf s c = none ∧ rxOf s c = none

theorem chanEnds_idle {s : State} {c : Nat} (h : chanIdle s c) : chanEnds s c = s := by
  obtain ⟨htx, hrx⟩ := h
  unfold chanEnds abandonRx
  rw [htx]
  dsimp only
  rw [hrx]

theorem chansEnd_idle {s : State} (h : ∀ c, chanIdle s c) : ∀ l : List Nat, l.foldl chanEnds s = s
  | [] => rfl
  | c :: l => by rw [List.foldl_cons, chanEnds_idle (h c)]; exact chansEnd_idle h l

/-- Where one channel alone has something under way, that ends. -/
theorem chansEnd_one {s : State} {c₀ : Nat} (h : ∀ c, c ≠ c₀ → chanIdle s c) (h' : ∀ c, chanIdle (chanEnds s c₀) c) :
    ∀ l : List Nat, c₀ ∈ l → l.foldl chanEnds s = chanEnds s c₀
  | c :: l, hmem => by
    rw [List.foldl_cons]
    by_cases hc : c = c₀
    · rw [hc]; exact chansEnd_idle h' l
    · rw [chanEnds_idle (h c hc)]
      exact chansEnd_one h h' l ((List.mem_cons.mp hmem).resolve_left (Ne.symm hc))

/-- A channel's SEND ends with its job. -/
theorem endSend_shows {s : State} {c : Nat} {j : Job} (hfind : (pageJobs s pgPLK).running.find? (ofChan c) = some j) (st d : Nat) :
    pageJobs (endSend c st d s) pgPLK = endedIf (ofChan c) (pageJobs s pgPLK) j st d (now s) ∧
      (endSend c st d s).plk = { s.plk with tx := s.plk.tx.put none c none } ∧ (endSend c st d s).mem = s.mem := by
  have hjobs : pageJobs (setTx c none s) pgPLK = pageJobs s pgPLK := rfl
  have hnow : now (setTx c none s) = now s := rfl
  have hplk : (setTx c none s).plk = { s.plk with tx := s.plk.tx.put none c none } := rfl
  have hmem : (setTx c none s).mem = s.mem := rfl
  unfold endSend
  obtain ⟨x, hx⟩ : ∃ x, setTx c none s = x := ⟨_, rfl⟩
  rw [hx] at hjobs hnow hplk hmem ⊢
  refine ⟨?_, (finishIf_field _ _ _ _ _ State.plk).trans hplk, (finishIf_field _ _ _ _ _ State.mem).trans hmem⟩
  rw [pageJobs_finishIf (hjobs ▸ hfind), hjobs, hnow]

theorem sendChan_lt (j : Job) : sendChan j < 4 := by
  unfold sendChan bitsOf
  exact Nat.mod_lt _ (by decide)

/-- The one SEND that runs ends with the link. -/
theorem linkEnds_one {s : State} {j : Job} {m : TxMsg} (hrun : (pageJobs s pgPLK).running = [j]) (htx : s.plk.tx = [(sendChan j, some m)])
    (hrx : s.plk.rx = []) : DoneWith s (linkEnds s) pgPLK j stPLK_LINK_FAULT := by
  obtain ⟨c₀, hc⟩ : ∃ c, sendChan j = c := ⟨_, rfl⟩
  have hlt : c₀ < 4 := hc ▸ sendChan_lt j
  have hfind : (pageJobs s pgPLK).running.find? (ofChan c₀) = some j := by
    rw [hrun, List.find?_cons_of_pos (by unfold ofChan; exact decide_eq_true hc)]
  have htx₀ : txOf s c₀ = some m := by unfold txOf; rw [htx, hc]; simp [SMap.get]
  have hidle (c : Nat) (hne : c ≠ c₀) : chanIdle s c := by
    refine ⟨?_, by unfold rxOf; rw [hrx]; rfl⟩
    unfold txOf; rw [htx, hc]; simp [SMap.get]; omega
  obtain ⟨hjobs, hplk, -⟩ := endSend_shows hfind stPLK_LINK_FAULT m.acked
  have hrx' (c : Nat) : rxOf (endSend c₀ stPLK_LINK_FAULT m.acked s) c = none := by unfold rxOf; rw [hplk]; dsimp only; rw [hrx]; rfl
  have htx' (c : Nat) : txOf (endSend c₀ stPLK_LINK_FAULT m.acked s) c = none := by
    unfold txOf; rw [hplk]; dsimp only
    by_cases hcc : c = c₀
    · rw [hcc, SMap.get_put_same]
    · rw [SMap.get_put_ne _ _ hcc]; exact (hidle c hcc).1
  have hend : chanEnds s c₀ = endSend c₀ stPLK_LINK_FAULT m.acked s := by
    unfold chanEnds abandonRx
    rw [htx₀]
    dsimp only
    rw [hrx' c₀]
  have hdone : DoneWith s (endSend c₀ stPLK_LINK_FAULT m.acked s) pgPLK j stPLK_LINK_FAULT := doneWith_of_ended hjobs
  have hfold : (List.range 4).foldl chanEnds s = endSend c₀ stPLK_LINK_FAULT m.acked s :=
    (chansEnd_one hidle (hend ▸ fun c => ⟨htx' c, hrx' c⟩) (List.range 4) (List.mem_range.mpr hlt)).trans hend
  rw [linkEnds_eq, hfold]
  obtain ⟨x, hx⟩ : ∃ x, endSend c₀ stPLK_LINK_FAULT m.acked s = x := ⟨_, rfl⟩
  rw [hx] at hdone ⊢
  exact hdone.of_jobs rfl rfl

theorem linkFault_one {s : State} {j : Job} {m : TxMsg} (hrun : (pageJobs s pgPLK).running = [j]) (htx : s.plk.tx = [(sendChan j, some m)])
    (hrx : s.plk.rx = []) (reason seq : Nat) : DoneWith s (linkFault reason seq s) pgPLK j stPLK_LINK_FAULT := by
  obtain ⟨d, hd, hdesc, hst⟩ := linkEnds_one hrun htx hrx
  refine ⟨d, ?_, hdesc, hst⟩
  unfold linkFault
  dsimp only
  rw [(QueueTold.tellQueue pgPLK _ _).done, pageJobs_of_jobs ((raise_reports ..).field State.jobs)]
  exact hd

/-- The sequence of the oldest frame that is not acknowledged, or the next one. -/
def oldestSeq (l : Link) : Nat := match l.unacked with | f :: _ => f.seq | [] => l.nextSeq

theorem faultIfUp_up {s : State} (h : plkUp s = true) (reason : Nat) : faultIfUp reason s = linkFault reason (oldestSeq s.plk) s := if_pos h

/-- What is lost with the link, as R603 has it. -/
def LostAll (s t : State) (reason seq : Nat) : Prop := LinkLost t reason seq ∧
  ∀ j m, (pageJobs s pgPLK).running = [j] → s.plk.tx = [(sendChan j, some m)] → s.plk.rx = [] → DoneWith s t pgPLK j stPLK_LINK_FAULT

/-- A command that faults the link that is up. -/
theorem settles_lost {o : Host.Outcome State Fault Refusal} {s x : State} {reason k : Nat} (hr : reason < 2 ^ 8) (hup : plkUp x = true)
    (hplk : x.plk = { s.plk with lastControl := k }) (hjobs : x.jobs = s.jobs) (hexec : o = settle s (faultIfUp reason x)) :
    ∃ t, o = .next t ∧ LostAll s t reason (oldestSeq s.plk) := by
  have hseq : oldestSeq x.plk = oldestSeq s.plk := by rw [hplk]; rfl
  have hpage := pageJobs_of_jobs hjobs pgPLK
  rw [faultIfUp_up hup, hseq] at hexec
  have hlost := linkFault_lost (on_of_up hup) hr (oldestSeq s.plk)
  have hdone (j : Job) (m : TxMsg) (hrun : (pageJobs s pgPLK).running = [j]) (htx : s.plk.tx = [(sendChan j, some m)]) (hrx : s.plk.rx = []) :
      DoneWith s (linkFault reason (oldestSeq s.plk) x) pgPLK j stPLK_LINK_FAULT :=
    (linkFault_one (hpage.symm ▸ hrun) ((congrArg Link.tx hplk).trans htx) ((congrArg Link.rx hplk).trans hrx) reason _).of_jobs hpage.symm rfl
  obtain ⟨t, ht⟩ : ∃ t, linkFault reason (oldestSeq s.plk) x = t := ⟨_, rfl⟩
  rw [ht] at hexec hlost
  simp only [ht] at hdone
  exact ⟨_, hexec.trans (settle_eq ..), hlost, hdone⟩

section
variable {s : State}

theorem plkUp_laneLoss (lane : Fin 4) (h : plkUp s = true) : plkUp (wrB pgPLK 0x080 (1 + lane.val) false s) = true := by
  have hon : pageOn (wrB pgPLK 0x080 (1 + lane.val) false s) pgPLK = pageOn s pgPLK := pageOn_plkWr (by decide) _ _
  unfold plkUp at h ⊢
  rw [hon, rdB_wrB_ne _ _ _ _ _ _ (by omega) (by omega)]
  exact h

theorem laneLockLoss_shows (hup : plkUp s = true) (lane : Fin 4) : ∃ t, exec (.laneLockLoss lane) s = .next t ∧ LostAll s t 2 (oldestSeq s.plk) :=
  settles_lost (x := wrB pgPLK 0x080 (1 + lane.val) false s) (k := s.plk.lastControl) (by decide) (plkUp_laneLoss lane hup) rfl rfl
    (congrArg (settle s) (if_pos hup))

/-- The time of the last control block is remembered. -/
def controlled (s : State) : State := modPlk (fun l => { l with lastControl := now s }) s

/-- A control block with a good CRC is taken. -/
theorem takeControl_good (hup : plkUp s = true) (k : State → State) : takeControl true k s = settle s (k (controlled s)) := by
  unfold takeControl
  rw [if_neg (by rw [hup]; decide), if_neg (by decide)]
  rfl

theorem down_shows (hup : plkUp s = true) : ∃ t, exec (.down true) s = .next t ∧ LostAll s t 3 (oldestSeq s.plk) := by
  have hexec : exec (.down true) s = settle s (faultIfUp 0x3 (controlled s)) := takeControl_good hup (faultIfUp 0x3)
  have hup' : plkUp (controlled s) = true := hup
  have hplk : (controlled s).plk = { s.plk with lastControl := now s } := rfl
  have hjobs : (controlled s).jobs = s.jobs := rfl
  exact settles_lost (by decide) hup' hplk hjobs hexec

theorem controlBlockTimeout_shows (hup : plkUp s = true) (h : s.plk.lastControl + 100000 ≤ now s) :
    ∃ t, exec .controlBlockTimeout s = .next t ∧ LostAll s t 4 (oldestSeq s.plk) :=
  settles_lost (k := s.plk.lastControl) (by decide) hup rfl rfl (congrArg (settle s) (if_pos h))

/-! ### Training -/

/-- ENABLE starts training. -/
def startLink (s : State) : State :=
  wrB pgPLK 0x080 5 true (modPlk (fun l => { l with trainAt := now s, slowTold := false, clashTold := false }) s)

theorem startLink_shows {x : State} (hon : pageOn x pgPLK = true) : RegsStandBut [pgPLK] x (startLink x) ∧
    enabled (startLink x) pgPLK = enabled x pgPLK ∧ plkTraining (startLink x) = true ∧ (startLink x).plk.trainAt = now x ∧
    (startLink x).mem = x.mem ∧ (startLink x).jobs = x.jobs := by
  have hon' : pageOn (modPlk (fun l => { l with trainAt := now x, slowTold := false, clashTold := false }) x) pgPLK = true := hon
  have hen : enabled (modPlk (fun l => { l with trainAt := now x, slowTold := false, clashTold := false }) x) pgPLK = enabled x pgPLK := rfl
  have hregs : RegsStandBut [pgPLK] x (modPlk (fun l => { l with trainAt := now x, slowTold := false, clashTold := false }) x) :=
    regsStandBut_of_regs _ rfl
  refine ⟨?_, ?_, ?_, rfl, rfl, rfl⟩
  all_goals
    unfold startLink
    obtain ⟨y, hy⟩ : ∃ y, modPlk (fun l => { l with trainAt := now x, slowTold := false, clashTold := false }) x = y := ⟨_, rfl⟩
    rw [hy] at hon' hen hregs ⊢
  · exact hregs.trans (regsStandBut_wr (by decide) _ _ _)
  · exact (rdB_congr (rd_wrB_other (by decide) (by decide) (by decide) ..) 0).trans hen
  · exact Bool.and_eq_true_iff.mpr ⟨(pageOn_plkWr (by decide) _ _).trans hon', rdB_wrB _ _ _ _ _ (by decide)⟩

theorem effPlkEnable_shows {x : State} (hon : pageOn x pgPLK = true) {t : State} (ht : effPlkEnable true x = t) : RegsStandBut [pgPLK] x t ∧
    enabled t pgPLK = enabled x pgPLK ∧ t.mem = x.mem ∧ t.jobs = x.jobs ∧ (plkUp x = true → t = x) ∧
    (plkUp x = false → plkTraining x = false → plkTraining t = true ∧ t.plk.trainAt = now x) := by
  unfold effPlkEnable at ht
  rw [if_pos rfl] at ht
  by_cases hnone : (plkUp x || plkTraining x) = true
  · rw [if_pos hnone] at ht
    subst ht
    exact ⟨regsStandBut_refl _ _, rfl, rfl, rfl, fun _ => rfl, fun hup htr => by rw [hup, htr] at hnone; cases hnone⟩
  · rw [if_neg hnone] at ht
    obtain ⟨hregs, hen, htr, hat, hmem, hjobs⟩ := startLink_shows hon
    change startLink x = t at ht
    rw [ht] at hregs hen htr hat hmem hjobs
    exact ⟨hregs, hen, hmem, hjobs, fun hup => by rw [hup] at hnone; exact absurd rfl hnone, fun _ _ => ⟨htr, hat⟩⟩

theorem plkEnable_shows {q : Port} (hmay : MayWrite s q pgPLK 0x00C) :
    ∃ t, exec (.plkEnable q) s = .next t ∧ enabled t pgPLK = true ∧ RegsStandBut [pgPLK] s t ∧ MemStands s t ∧ t.jobs = s.jobs ∧
      (plkUp s = true → t.plk = s.plk ∧ plkUp t = true) ∧
      (plkUp s = false → plkTraining s = false → plkTraining t = true ∧ t.plk.trainAt = now s) := by
  have hexec : exec (.plkEnable q) s = settle s (effPlkEnable true (wrB pgPLK 0x00C 0 true s)) := congrArg (settle s) (gateWrite_mayWrite hmay)
  have hon : pageOn (wrB pgPLK 0x00C 0 true s) pgPLK = pageOn s pgPLK := pageOn_plkWr (by decide) _ _
  obtain ⟨hupx, htrx⟩ := plkUp_congr hon (rd_wrB_other (p := pgPLK) (by decide) (by decide) (by decide) ..)
  have hen : enabled (wrB pgPLK 0x00C 0 true s) pgPLK = true := rdB_wrB _ _ _ _ _ (by decide)
  have hregs : RegsStandBut [pgPLK] s (wrB pgPLK 0x00C 0 true s) := regsStandBut_wr (by decide) _ _ _
  have hrep := wrB_reports pgPLK 0x00C 0 true s
  have hon' := hon.trans hmay.2.2.2
  obtain ⟨x, hx⟩ : ∃ x, wrB pgPLK 0x00C 0 true s = x := ⟨_, rfl⟩
  rw [hx] at hexec hupx htrx hen hregs hrep hon'
  have hnow : now x = now s := hrep.field now
  have hplk : x.plk = s.plk := hrep.field State.plk
  have hmem : x.mem = s.mem := hrep.field State.mem
  have hjobs : x.jobs = s.jobs := hrep.field State.jobs
  obtain ⟨t, ht⟩ : ∃ t, effPlkEnable true x = t := ⟨_, rfl⟩
  rw [ht] at hexec
  obtain ⟨hregs', hen', hmem', hjobs', hstay, htrain⟩ := effPlkEnable_shows hon' ht
  rw [hupx] at hstay htrain
  rw [htrx, hnow] at htrain
  refine ⟨_, hexec.trans (settle_eq ..), hen'.trans hen, hregs.trans hregs', memStands_of_mem (hmem'.trans hmem), hjobs'.trans hjobs,
    fun hup => ?_, htrain⟩
  have htx := hstay hup
  exact ⟨(congrArg State.plk htx).trans hplk, (congrArg plkUp htx).trans (hupx.trans hup)⟩

/-- The register of the link after training. -/
def trainedWord (w : Word) (peer : Nat) (rev : Bool) : Word := setFld (setFld w 15 8 peer) 6 0 (0x1F + 64 * b2n rev)

theorem trainedWord_shows (w : Word) (peer : Byte) (rev : Bool) : flag (trainedWord w peer.toNat rev) 0 = true ∧
    flag (trainedWord w peer.toNat rev) 5 = false ∧ flag (trainedWord w peer.toNat rev) 6 = rev ∧ fld (trainedWord w peer.toNat rev) 15 8 = peer.toNat := by
  unfold trainedWord
  refine ⟨?_, ?_, ?_, ?_⟩
  · rw [flag_setFld_mem _ _ (by decide) (by decide) (by decide)]; cases rev <;> rfl
  · rw [flag_setFld_mem _ _ (by decide) (by decide) (by decide)]; cases rev <;> rfl
  · rw [flag_setFld_mem _ _ (by decide) (by decide) (by decide)]; cases rev <;> rfl
  · rw [fld_setFld_ne _ _ _ _ _ _ (by decide) (by decide) (by decide), fld_setFld _ _ _ _ (by decide) (by decide)]
    exact Nat.mod_eq_of_lt peer.isLt

/-- The link after its training, before the event. -/
def trained (peer : Nat) (rev : Bool) (s : State) : State :=
  modPlk (fun l => { l with
    nextSeq := 0, unacked := [], sends := 0, resend := 0, rxSeq := 0, tx := [], rx := [], ack := none, nak := none, lastControl := now s })
    (wrF pgPLK 0x080 6 0 (0x1F + 64 * b2n rev) (wrF pgPLK 0x080 15 8 peer s))

theorem rd_trained (peer : Nat) (rev : Bool) (s : State) : rd (trained peer rev s) pgPLK 0x080 = trainedWord (rd s pgPLK 0x080) peer rev := by
  unfold trained
  have h (x : State) (f : Link → Link) : rd (modPlk f x) pgPLK 0x080 = rd x pgPLK 0x080 := rfl
  rw [h]
  unfold wrF
  rw [rd_wr_same, rd_wr_same]
  rfl

theorem trained_on (peer : Nat) (rev : Bool) (s : State) : pageOn (trained peer rev s) pgPLK = pageOn s pgPLK := by
  have h (x : State) (f : Link → Link) : pageOn (modPlk f x) pgPLK = pageOn x pgPLK := rfl
  have hw (x : State) (hi lo v : Nat) : pageOn (wrF pgPLK 0x080 hi lo v x) pgPLK = pageOn x pgPLK := pageOn_plkWr (by decide) _ _
  unfold trained
  rw [h, hw, hw]

theorem trained_plk (peer : Nat) (rev : Bool) (s : State) :
    (trained peer rev s).plk.nextSeq = 0 ∧ (trained peer rev s).plk.rxSeq = 0 ∧ (trained peer rev s).plk.unacked = [] := ⟨rfl, rfl, rfl⟩

theorem plkTrainingDone_up {peer : Byte} {rev : Bool} (htr : plkTraining s = true) (hen : enabled s pgPLK = true)
    (hown : rdF s pgPLK 0x084 7 0 ≠ 0) (hpeer : peer ≠ 0) (hne : rdF s pgPLK 0x084 7 0 ≠ peer.toNat) :
    ∃ t, exec (.plkTrainingDone peer rev) s = .next t ∧ plkUp t = true ∧ plkTraining t = false ∧ rdB t pgPLK 0x080 6 = rev ∧
      rdF t pgPLK 0x080 15 8 = peer.toNat ∧ t.plk.nextSeq = 0 ∧ t.plk.rxSeq = 0 ∧ t.plk.unacked = [] ∧ rdB t pgPLK 0x014 16 = true := by
  have hpeer' : peer.toNat ≠ 0 := fun h => hpeer (BitVec.eq_of_toNat_eq h)
  obtain ⟨d, hd⟩ : ∃ d, (now s - s.plk.trainAt) / 1000 = d := ⟨_, rfl⟩
  have hexec : exec (.plkTrainingDone peer rev) s = settle s (raise pgPLK 0x100 sevINFO d (trained peer.toNat rev s)) := by
    change execPlkTrainingDone peer rev s = _
    unfold execPlkTrainingDone
    rw [if_neg (by rw [htr, hen]; decide)]
    dsimp only
    rw [if_neg (by rintro (h | h | h) <;> contradiction), hd]
    rfl
  have hword := rd_trained peer.toNat rev s
  have hon : pageOn (trained peer.toNat rev s) pgPLK = true := (trained_on ..).trans (on_of_training htr)
  have hplk := trained_plk peer.toNat rev s
  obtain ⟨x, hx⟩ : ∃ x, trained peer.toNat rev s = x := ⟨_, rfl⟩
  rw [hx] at hexec hword hon hplk
  obtain ⟨hnext, hrx, hun⟩ := hplk
  have hevt := rdB_raise_evt (p := pgPLK) (c := 0x100) (v := sevINFO) (i := 16) (by decide) (by decide) hon d
  have hword' := (rd_raise (p := pgPLK) (p' := pgPLK) (off' := 0x080) (by decide) (by decide) 0x100 sevINFO d x).trans hword
  have hon' := (pageOn_raise pgPLK 0x100 sevINFO d x pgPLK).trans hon
  have hplk := (raise_reports pgPLK 0x100 sevINFO d x).field State.plk
  obtain ⟨t, ht⟩ : ∃ t, raise pgPLK 0x100 sevINFO d x = t := ⟨_, rfl⟩
  rw [ht] at hexec hevt hword' hon' hplk
  obtain ⟨h0, h5, h6, hid⟩ := trainedWord_shows (rd s pgPLK 0x080) peer rev
  rw [← hword'] at h0 h5 h6 hid
  have hup : plkUp t = true := Bool.and_eq_true_iff.mpr ⟨hon', h0⟩
  have hnot : plkTraining t = false := by unfold plkTraining rdB; rw [h5, Bool.and_false]
  exact ⟨_, hexec.trans (settle_eq ..), hup, hnot, h6, hid, (congrArg Link.nextSeq hplk).trans hnext, (congrArg Link.rxSeq hplk).trans hrx,
    (congrArg Link.unacked hplk).trans hun, hevt⟩

theorem plkTrainingDone_clash {peer : Byte} {rev : Bool} (htr : plkTraining s = true) (hen : enabled s pgPLK = true)
    (hclash : rdF s pgPLK 0x084 7 0 = 0 ∨ peer = 0 ∨ rdF s pgPLK 0x084 7 0 = peer.toNat) :
    ∃ t, exec (.plkTrainingDone peer rev) s = .next t ∧ plkUp t = plkUp s ∧ plkTraining t = true ∧
      (s.plk.clashTold = true → t.plk = s.plk ∧ t.outbox = s.outbox) ∧
      (s.plk.clashTold = false → t.plk = { s.plk with clashTold := true } ∧ rdB t pgPLK 0x014 20 = true) := by
  have hexec : exec (.plkTrainingDone peer rev) s = settle s (if s.plk.clashTold then wrF pgPLK 0x080 15 8 peer.toNat s
      else raise pgPLK 0x105 sevINFO peer.toNat (modPlk (fun l => { l with clashTold := true }) (wrF pgPLK 0x080 15 8 peer.toNat s))) := by
    change execPlkTrainingDone peer rev s = _
    unfold execPlkTrainingDone
    rw [if_neg (by rw [htr, hen]; decide)]
    dsimp only
    rw [if_pos]
    exact hclash.imp_right (Or.imp_left (congrArg BitVec.toNat))
  have hon : pageOn (wrF pgPLK 0x080 15 8 peer.toNat s) pgPLK = pageOn s pgPLK := pageOn_plkWr (by decide) _ s
  have hup : plkUp (wrF pgPLK 0x080 15 8 peer.toNat s) = plkUp s ∧ plkTraining (wrF pgPLK 0x080 15 8 peer.toNat s) = plkTraining s := by
    unfold plkUp plkTraining rdB
    rw [hon]
    unfold wrF
    rw [rd_wr_same, flag_setFld_ne _ _ _ _ _ (by decide) (by decide) (by decide), flag_setFld_ne _ _ _ _ _ (by decide) (by decide) (by decide)]
    exact ⟨rfl, rfl⟩
  have hplk : (wrF pgPLK 0x080 15 8 peer.toNat s).plk = s.plk := rfl
  have hout : (wrF pgPLK 0x080 15 8 peer.toNat s).outbox = s.outbox := rfl
  obtain ⟨x, hx⟩ : ∃ x, wrF pgPLK 0x080 15 8 peer.toNat s = x := ⟨_, rfl⟩
  rw [hx] at hexec hon hup hplk hout
  obtain ⟨hup, htr'⟩ := hup
  rw [htr] at htr'
  cases htold : s.plk.clashTold with
  | true =>
    rw [htold, if_pos rfl] at hexec
    exact ⟨_, hexec.trans (settle_eq ..), hup, htr', fun _ => ⟨hplk, hout⟩, fun h => by cases h⟩
  | false =>
    rw [htold, if_neg (by decide)] at hexec
    have hon' : pageOn (modPlk (fun l => { l with clashTold := true }) x) pgPLK = true := hon.trans (on_of_training htr)
    have hup' : plkUp (modPlk (fun l => { l with clashTold := true }) x) = plkUp x ∧
        plkTraining (modPlk (fun l => { l with clashTold := true }) x) = plkTraining x := ⟨rfl, rfl⟩
    have hplk' : (modPlk (fun l => { l with clashTold := true }) x).plk = { x.plk with clashTold := true } := rfl
    obtain ⟨y, hy⟩ : ∃ y, modPlk (fun l => { l with clashTold := true }) x = y := ⟨_, rfl⟩
    rw [hy] at hexec hon' hup' hplk'
    have hevt := rdB_raise_evt (p := pgPLK) (c := 0x105) (v := sevINFO) (i := 20) (by decide) (by decide) hon' peer.toNat
    have hsame := plkUp_congr (pageOn_raise pgPLK 0x105 sevINFO peer.toNat y pgPLK)
      (rd_raise (p := pgPLK) (p' := pgPLK) (off' := 0x080) (by decide) (by decide) 0x105 sevINFO peer.toNat y)
    have hplk'' := (raise_reports pgPLK 0x105 sevINFO peer.toNat y).field State.plk
    obtain ⟨t, ht⟩ : ∃ t, raise pgPLK 0x105 sevINFO peer.toNat y = t := ⟨_, rfl⟩
    rw [ht] at hexec hevt hsame hplk''
    rw [hplk', hplk] at hplk''
    exact ⟨_, hexec.trans (settle_eq ..), hsame.1.trans (hup'.1.trans hup), hsame.2.trans (hup'.2.trans htr'), (fun h => by cases h),
      fun _ => ⟨hplk'', hevt⟩⟩

theorem trainSlow_shows (htr : plkTraining s = true) (hen : enabled s pgPLK = true) (hslow : s.plk.slowTold = false)
    (hlate : s.plk.trainAt + 100000000 ≤ now s) :
    ∃ t, exec .trainSlow s = .next t ∧ t.plk = { s.plk with slowTold := true } ∧ plkTraining t = true ∧ rdB t pgPLK 0x014 19 = true := by
  have hexec : exec .trainSlow s = settle s (raise pgPLK 0x104 sevDEGRADED 0 (modPlk (fun l => { l with slowTold := true }) s)) :=
    if_pos (by rw [htr, hen, hslow, decide_eq_true hlate]; rfl)
  have hon : pageOn (modPlk (fun l => { l with slowTold := true }) s) pgPLK = true := on_of_training htr
  have htr' : plkTraining (modPlk (fun l => { l with slowTold := true }) s) = true := htr
  have hplk : (modPlk (fun l => { l with slowTold := true }) s).plk = { s.plk with slowTold := true } := rfl
  obtain ⟨x, hx⟩ : ∃ x, modPlk (fun l => { l with slowTold := true }) s = x := ⟨_, rfl⟩
  rw [hx] at hexec hon htr' hplk
  have hevt := rdB_raise_evt (p := pgPLK) (c := 0x104) (v := sevDEGRADED) (i := 19) (by decide) (by decide) hon 0
  have hsame := plkUp_congr (pageOn_raise pgPLK 0x104 sevDEGRADED 0 x pgPLK)
    (rd_raise (p := pgPLK) (p' := pgPLK) (off' := 0x080) (by decide) (by decide) 0x104 sevDEGRADED 0 x)
  have hplk' := ((raise_reports pgPLK 0x104 sevDEGRADED 0 x).field State.plk).trans hplk
  obtain ⟨t, ht⟩ : ∃ t, raise pgPLK 0x104 sevDEGRADED 0 x = t := ⟨_, rfl⟩
  rw [ht] at hexec hevt hsame hplk'
  exact ⟨_, hexec.trans (settle_eq ..), hplk', hsame.2.trans htr', hevt⟩

end

/-- Settles O52: each bring-up command by the words it writes; a fault of the link by what ends with it (`linkFault_lost`). -/
theorem linkComesUpAndFaults : Obligations.LinkComesUpAndFaults :=
  ⟨fun _ _ hmay => plkEnable_shows hmay,
    fun _ _ _ htr hen => ⟨plkTrainingDone_up htr hen, plkTrainingDone_clash htr hen⟩,
    fun _ htr hen hslow hlate => trainSlow_shows htr hen hslow hlate,
    fun _ hup => ⟨laneLockLoss_shows hup, down_shows hup, controlBlockTimeout_shows hup⟩⟩

end Sys2Proof.Machine
end

section
/-!
PROOFS. Frames of the Dexvor link are sent, acknowledged and resent (R598, R603 to R608, R613).
-/
namespace Sys2Proof.Machine

/-- Progress changes two registers of its page at most. -/
theorem rd_touch {p r off : Nat} (ho : off < 0x1000) (h : ¬(r = p ∧ (off = 0x010 ∨ off = 0x014))) (s : State) :
    rd (touch p s) r off = rd s r off := by
  have hstall : rd (stallEnd p s) r off = rd s r off := by
    unfold stallEnd; split
    · exact (rd_raise_low ho (by decide) (by omega) ..).trans (rd_wrB_other (by decide) ho (by omega) ..)
    · rfl
  exact hstall

theorem touch_field {α : Type} (p : Nat) (s : State) (g : State → α)
    (hg : ∀ x r o j, g { x with regs := r, outbox := o, jobs := j } = g x := by exact fun _ _ _ _ => rfl) : g (touch p s) = g s :=
  (hg (stallEnd p s) (stallEnd p s).regs (stallEnd p s).outbox _).trans
    ((stallEnd_reports p s).field g fun x r o => hg x r o x.jobs)

theorem txOf_setTx (c : Nat) (m : Option TxMsg) (s : State) : txOf (setTx c m s) c = m := SMap.get_put_same none c m s.plk.tx

section
variable {s : State}

/-! ### SEND -/

theorem send_shows {c : Fin 4} {j : Job} (hidle : (pageJobs s pgPLK).running.any (ofChan c.val) = false)
    (hfind : (pageJobs s pgPLK).queue.find? (ofChan c.val) = some j) (hdeps : plkDeps s j = true) (hdl : pastDeadline s j.deadline = false) :
    ∃ t, exec (.send c) s = .next t ∧ (pageJobs t pgPLK).running = (pageJobs s pgPLK).running ++ [{ j with accepted := now s }] ∧
      txOf t c.val = some ⟨s.plk.nextMsg, leAt j.desc 32 8, leAt j.desc 40 4, leAt j.desc 48 4, 0, 0⟩ ∧
      t.plk.nextMsg = (s.plk.nextMsg + 1) % 2 ^ 32 ∧ t.regs = s.regs ∧ MemStands s t := by
  obtain ⟨m, hm⟩ : ∃ m : TxMsg, ⟨s.plk.nextMsg, leAt j.desc 32 8, leAt j.desc 40 4, leAt j.desc 48 4, 0, 0⟩ = m := ⟨_, rfl⟩
  have hexec : exec (.send c) s = settle s (setTx c.val (some m)
      (modPlk (fun l => { l with nextMsg := (l.nextMsg + 1) % 2 ^ 32 }) (startIf pgPLK (ofChan c.val) s))) := by
    change execSend c s = _
    unfold execSend
    dsimp only
    rw [hidle, if_neg (by decide), hfind]
    dsimp only
    rw [hdeps, if_neg (by decide), hdl, if_neg (by decide), hm]
  have hjobs := startIf_jobs hfind
  have hregs : (startIf pgPLK (ofChan c.val) s).regs = s.regs := rfl
  have hmem : (startIf pgPLK (ofChan c.val) s).mem = s.mem := rfl
  have hplk : (startIf pgPLK (ofChan c.val) s).plk = s.plk := rfl
  obtain ⟨x, hx⟩ : ∃ x, startIf pgPLK (ofChan c.val) s = x := ⟨_, rfl⟩
  rw [hx] at hexec hjobs hregs hmem hplk
  have hjobs' := congrArg PageJobs.running hjobs
  refine ⟨_, hexec.trans (settle_eq ..), hjobs', (txOf_setTx ..).trans (congrArg some hm.symm), ?_, hregs, memStands_of_mem hmem⟩
  exact congrArg (fun l : Link => (l.nextMsg + 1) % 2 ^ 32) hplk

/-! ### A frame slot -/

theorem slot_open (hup : plkUp s = true) (hslot : slotDue s = true) : (!plkUp s || !slotDue s) = false := by rw [hup, hslot]; rfl

/-- The link after a frame has gone out again. -/
def resentLink (i : Nat) (f : LinkFrame) (at_ : Nat) (l : Link) : Link :=
  { l with
    resend := l.resend - 1, wire := f.bytes, sends := if i = 0 then l.sends + 1 else l.sends, lastSlot := at_
    unacked := l.unacked.set i { f with sentAt := at_ } }

theorem resend_shows {i : Nat} {f : LinkFrame} (hup : plkUp s = true) (hslot : slotDue s = true) (hres : resendFrame s = some (i, f)) :
    ∃ t, exec .dataFrameSend s = .next t ∧ t.plk.wire = f.bytes ∧ t.plk.resend = s.plk.resend - 1 ∧ t.plk.lastSlot = now s ∧
      t.plk.nextSeq = s.plk.nextSeq ∧ t.jobs = s.jobs ∧ MemStands s t := by
  have hexec : exec .dataFrameSend s = settle s (incCnt pgPLK 0x094 1 (modPlk (resentLink i f (now s)) s)) := by
    change execDataFrameSend s = _
    unfold execDataFrameSend
    rw [slot_open hup hslot, if_neg (by decide), hres]
    rfl
  have hplk : (modPlk (resentLink i f (now s)) s).plk = resentLink i f (now s) s.plk := rfl
  have hjobs : (modPlk (resentLink i f (now s)) s).jobs = s.jobs := rfl
  have hmem : (modPlk (resentLink i f (now s)) s).mem = s.mem := rfl
  obtain ⟨x, hx⟩ : ∃ x, modPlk (resentLink i f (now s)) s = x := ⟨_, rfl⟩
  rw [hx] at hexec hplk hjobs hmem
  have hrep := incCnt_reports pgPLK 0x094 1 x
  obtain ⟨t, ht⟩ : ∃ t, incCnt pgPLK 0x094 1 x = t := ⟨_, rfl⟩
  rw [ht] at hexec hrep
  have hplk' := (hrep.field State.plk).trans hplk
  have hnext : t.plk.nextSeq = s.plk.nextSeq := by rw [hplk']; rfl
  exact ⟨_, hexec.trans (settle_eq ..), congrArg Link.wire hplk', congrArg Link.resend hplk', congrArg Link.lastSlot hplk',
    hnext, (hrep.field State.jobs).trans hjobs, memStands_of_mem ((hrep.field State.mem).trans hmem)⟩

/-- The link after a frame has gone out. -/
def sentLink (l : Link) (seq at_ : Nat) (b : List Byte) : Link :=
  { l with nextSeq := (seq + 1) % 2 ^ 32, unacked := l.unacked ++ [⟨seq, at_, b⟩], wire := b, lastSlot := at_
           sends := if l.unacked.isEmpty then 1 else l.sends }

/-- A frame that is not late goes out with the bytes of the memory it names. -/
theorem sendOne_eq {c : Nat} {m : TxMsg} {n : Nat} {x : State} {bs : List Byte}
    (hlate : ∀ j, (pageJobs s pgPLK).running.find? (ofChan c) = some j → pastDeadline s j.deadline = false)
    (hn : min 4096 (m.len - 4096 * m.next) = n) (huse : canUse s .dexvor (m.src + 4096 * m.next) n = true)
    (hread : readAs .dexvor (m.src + 4096 * m.next) n s = (bs, none, x)) :
    sendOne c m s = touch pgPLK (incCnt pgPLK 0x08C 1 (wrF pgPLK 0x088 6 0 (rdF s pgPLK 0x088 6 0 - 1)
      (modPlk (fun l => sentLink l s.plk.nextSeq (now s) (frameBytes c s.plk.nextSeq m bs)) (setTx c (some { m with next := m.next + 1 }) x)))) := by
  have hnot : (match (pageJobs s pgPLK).running.find? (ofChan c) with | some j => pastDeadline s j.deadline | none => false) = false := by
    split
    · rename_i j hj; exact hlate j hj
    · rfl
  unfold sendOne
  dsimp only
  rw [hn, if_neg, huse, if_neg (by decide), hread]
  · rfl
  · intro h
    have h' := h.symm.trans hnot
    cases h'

theorem rdF_credit (v : State) :
    rdF (wrF pgPLK 0x088 6 0 (rdF s pgPLK 0x088 6 0 - 1) v) pgPLK 0x088 6 0 = rdF s pgPLK 0x088 6 0 - 1 := by
  have hlt : rdF s pgPLK 0x088 6 0 < 2 ^ 7 := by unfold rdF fld bitsOf; exact Nat.mod_lt _ (by decide)
  rw [rdF_wrF _ _ _ _ _ _ (by decide) (by decide)]
  omega

theorem newFrame_shows {c : Nat} {m : TxMsg} {n : Nat} {b : List Byte} (hup : plkUp s = true) (hslot : slotDue s = true)
    (hres : s.plk.resend = 0) (htx : txChan s = some (c, m)) (hcredit : rdF s pgPLK 0x088 6 0 ≠ 0) (hroom : s.plk.unacked.length < 64)
    (hlate : ∀ j, (pageJobs s pgPLK).running.find? (ofChan c) = some j → pastDeadline s j.deadline = false)
    (hn : min 4096 (m.len - 4096 * m.next) = n) (hb : frameBytes c s.plk.nextSeq m (getBytes s (m.src + 4096 * m.next) n) = b)
    (hgood : GoodRange s .dexvor (m.src + 4096 * m.next) n) :
    ∃ t, exec .dataFrameSend s = .next t ∧ t.plk.wire = b ∧ t.plk.unacked = s.plk.unacked ++ [⟨s.plk.nextSeq, now s, b⟩] ∧
      t.plk.nextSeq = (s.plk.nextSeq + 1) % 2 ^ 32 ∧ txOf t c = some { m with next := m.next + 1 } ∧
      rdF t pgPLK 0x088 6 0 = rdF s pgPLK 0x088 6 0 - 1 ∧ MemStands s t := by
  obtain ⟨x, hread, hacc, hdata⟩ := readAs_good (src := .dexvor) hgood.2
  have hexec : exec .dataFrameSend s = settle s (sendOne c m s) := by
    have hnone : resendFrame s = none := if_pos hres
    change execDataFrameSend s = _
    unfold execDataFrameSend
    rw [slot_open hup hslot, if_neg (by decide), hnone]
    dsimp only
    rw [htx]
    dsimp only
    rw [if_neg]
    rintro (h | h)
    · exact hcredit h
    · exact Nat.not_le.mpr hroom h
  rw [sendOne_eq hlate hn hgood.1 hread, hb] at hexec
  have hplk : x.plk = s.plk := hacc.field State.plk
  have hplk' : (modPlk (fun l => sentLink l s.plk.nextSeq (now s) b) (setTx c (some { m with next := m.next + 1 }) x)).plk =
      sentLink { s.plk with tx := s.plk.tx.put none c (some { m with next := m.next + 1 }) } s.plk.nextSeq (now s) b := by
    change sentLink { x.plk with tx := x.plk.tx.put none c (some { m with next := m.next + 1 }) } s.plk.nextSeq (now s) b = _
    rw [hplk]
  have hmem : (modPlk (fun l => sentLink l s.plk.nextSeq (now s) b) (setTx c (some { m with next := m.next + 1 }) x)).mem = s.mem := hdata.1
  obtain ⟨y, hy⟩ : ∃ y, modPlk (fun l => sentLink l s.plk.nextSeq (now s) b) (setTx c (some { m with next := m.next + 1 }) x) = y := ⟨_, rfl⟩
  rw [hy] at hexec hplk' hmem
  have hcr := rdF_credit (s := s) y
  have hrep := wrF_reports pgPLK 0x088 6 0 (rdF s pgPLK 0x088 6 0 - 1) y
  obtain ⟨z, hz⟩ : ∃ z, wrF pgPLK 0x088 6 0 (rdF s pgPLK 0x088 6 0 - 1) y = z := ⟨_, rfl⟩
  rw [hz] at hexec hcr hrep
  have hrep' := hrep.trans (incCnt_reports pgPLK 0x08C 1 z)
  have hcr' := (rdF_congr (rd_incCnt_ne (p := pgPLK) (off := 0x08C) (p' := pgPLK) (off' := 0x088) (by decide) (by decide) (by decide) 1 z) 6 0).trans hcr
  obtain ⟨w, hw⟩ : ∃ w, incCnt pgPLK 0x08C 1 z = w := ⟨_, rfl⟩
  rw [hw] at hexec hrep' hcr'
  have hcr'' := (rdF_congr (rd_touch (p := pgPLK) (r := pgPLK) (off := 0x088) (by decide) (by decide) w) 6 0).trans hcr'
  have hplk'' := (touch_field pgPLK w State.plk).trans ((hrep'.field State.plk).trans hplk')
  have hmem' := (touch_field pgPLK w State.mem).trans ((hrep'.field State.mem).trans hmem)
  obtain ⟨t, ht⟩ : ∃ t, touch pgPLK w = t := ⟨_, rfl⟩
  rw [ht] at hexec hcr'' hplk'' hmem'
  refine ⟨_, hexec.trans (settle_eq ..), congrArg Link.wire hplk'', congrArg Link.unacked hplk'', congrArg Link.nextSeq hplk'', ?_, hcr'',
    memStands_of_mem hmem'⟩
  have htx' : t.plk.tx = s.plk.tx.put none c (some { m with next := m.next + 1 }) := congrArg Link.tx hplk''
  have hget : t.plk.tx.get none c = some { m with next := m.next + 1 } := by rw [htx', SMap.get_put_same]
  exact hget

/-! ### Acknowledgement -/

theorem countAcked_tx (f : LinkFrame) (s : State) : ∃ m, countAcked f s = modPlk (fun l => { l with tx := m }) s := by
  have hself : s = modPlk (fun l => { l with tx := s.plk.tx }) s := rfl
  unfold countAcked
  dsimp only
  split
  · split
    · exact ⟨_, rfl⟩
    · exact ⟨_, hself⟩
  · exact ⟨_, hself⟩

theorem countsAcked_tx : ∀ (l : List LinkFrame) (s : State), ∃ m, l.foldl (fun a f => countAcked f a) s = modPlk (fun l => { l with tx := m }) s
  | [], s => ⟨s.plk.tx, rfl⟩
  | f :: l, s => by
    obtain ⟨m, hm⟩ := countAcked_tx f s
    obtain ⟨m', hm'⟩ := countsAcked_tx l (countAcked f s)
    refine ⟨m', ?_⟩
    rw [List.foldl_cons, hm', hm]
    rfl

/-- The link's record once the frames `gone` are acknowledged and `rest` is not. -/
def ackedLink (gone rest : List LinkFrame) (l : Link) : Link :=
  { l with unacked := rest, resend := min l.resend rest.length, sends := if gone.isEmpty then l.sends else b2n (!rest.isEmpty) }

/-- What an acknowledgement does (R606). -/
def takeAck (seq : Nat) (s : State) : State :=
  modPlk (ackedLink (s.plk.unacked.filter (fun f => seqLe f.seq (seq % 2 ^ 32))) (s.plk.unacked.filter (fun f => !seqLe f.seq (seq % 2 ^ 32))))
    ((s.plk.unacked.filter (fun f => seqLe f.seq (seq % 2 ^ 32))).foldl (fun a f => countAcked f a) s)

theorem takeAck_shows (seq : Nat) (s : State) : (takeAck seq s).plk.unacked = s.plk.unacked.filter (fun f => !seqLe f.seq (seq % 2 ^ 32)) ∧
    (takeAck seq s).plk.lastControl = s.plk.lastControl ∧ (takeAck seq s).regs = s.regs ∧ (takeAck seq s).jobs = s.jobs := by
  unfold takeAck
  obtain ⟨m, hm⟩ := countsAcked_tx (s.plk.unacked.filter (fun f => seqLe f.seq (seq % 2 ^ 32))) s
  rw [hm]
  exact ⟨rfl, rfl, rfl, rfl⟩

theorem ack_shows (hup : plkUp s = true) (seq : Nat) : ∃ t, exec (.ack seq true) s = .next t ∧
    t.plk.unacked = s.plk.unacked.filter (fun f => !seqLe f.seq (seq % 2 ^ 32)) ∧ t.plk.lastControl = now s ∧ t.regs = s.regs ∧
    t.jobs = s.jobs := by
  have hexec : exec (.ack seq true) s = settle s (takeAck seq (controlled s)) := takeControl_good hup (takeAck seq)
  obtain ⟨hun, hlast, hregs, hjobs⟩ := takeAck_shows seq (controlled s)
  obtain ⟨t, ht⟩ : ∃ t, takeAck seq (controlled s) = t := ⟨_, rfl⟩
  rw [ht] at hexec hun hlast hregs hjobs
  exact ⟨_, hexec.trans (settle_eq ..), hun, hlast, hregs, hjobs⟩

theorem credit_shows (hup : plkUp s = true) (k : Fin 65) : ∃ t, exec (.credit k true) s = .next t ∧ rdF t pgPLK 0x088 6 0 = k.val ∧
    t.plk = { s.plk with lastControl := now s } ∧ t.jobs = s.jobs := by
  have hexec : exec (.credit k true) s = settle s (wrF pgPLK 0x088 6 0 k.val (controlled s)) := takeControl_good hup _
  have hplk : (controlled s).plk = { s.plk with lastControl := now s } := rfl
  have hjobs : (controlled s).jobs = s.jobs := rfl
  obtain ⟨x, hx⟩ : ∃ x, controlled s = x := ⟨_, rfl⟩
  rw [hx] at hexec hplk hjobs
  have hcr : rdF (wrF pgPLK 0x088 6 0 k.val x) pgPLK 0x088 6 0 = k.val := by
    rw [rdF_wrF _ _ _ _ _ _ (by decide) (by decide)]
    have := k.isLt
    omega
  have hrep := wrF_reports pgPLK 0x088 6 0 k.val x
  obtain ⟨t, ht⟩ : ∃ t, wrF pgPLK 0x088 6 0 k.val x = t := ⟨_, rfl⟩
  rw [ht] at hexec hcr hrep
  exact ⟨_, hexec.trans (settle_eq ..), hcr, (hrep.field State.plk).trans hplk, (hrep.field State.jobs).trans hjobs⟩

/-! ### Resending -/

theorem nak_eq (hup : plkUp s = true) (seq : Nat) :
    exec (.nak seq true) s = settle s (if (controlled s).plk.resend ≠ 0 then controlled s else startResend (controlled s)) :=
  takeControl_good hup (fun s => if s.plk.resend ≠ 0 then s else startResend s)

theorem nak_kept (hup : plkUp s = true) (seq : Nat) (h : s.plk.resend ≠ 0 ∨ s.plk.unacked = []) :
    ∃ t, exec (.nak seq true) s = .next t ∧ t.plk = { s.plk with lastControl := now s } := by
  have hstay : (if (controlled s).plk.resend ≠ 0 then controlled s else startResend (controlled s)) = controlled s := by
    split
    · rfl
    · rename_i hzero
      have hun : (controlled s).plk.unacked = [] := h.resolve_left hzero
      unfold startResend
      rw [hun]
  exact ⟨_, (nak_eq hup seq).trans ((congrArg (settle s) hstay).trans (settle_eq ..)), rfl⟩

/-- All that is not acknowledged is to be resent, unless the oldest has been sent four times. -/
theorem startResend_cons {x : State} {f : LinkFrame} {rest : List LinkFrame} (hun : x.plk.unacked = f :: rest) :
    startResend x = if 4 ≤ x.plk.sends then linkFault 0x1 f.seq x else modPlk (fun l => { l with resend := l.unacked.length }) x := by
  unfold startResend
  rw [hun]

theorem startResend_again {x : State} {f : LinkFrame} {rest : List LinkFrame} (hun : x.plk.unacked = f :: rest) (hlt : x.plk.sends < 4) :
    (startResend x).plk = { x.plk with resend := rest.length + 1 } := by
  rw [startResend_cons hun, if_neg (Nat.not_le.mpr hlt)]
  change { x.plk with resend := x.plk.unacked.length } = _
  rw [hun]
  rfl

theorem startResend_lost {x : State} {f : LinkFrame} {rest : List LinkFrame} (hon : pageOn x pgPLK = true) (hun : x.plk.unacked = f :: rest)
    (hfour : 4 ≤ x.plk.sends) : LinkLost (startResend x) 1 f.seq := by
  rw [startResend_cons hun, if_pos hfour]
  exact linkFault_lost hon (by decide) _

/-- A command that starts the resending. -/
theorem settles_resend {o : Host.Outcome State Fault Refusal} {x : State} {f : LinkFrame} {rest : List LinkFrame} (hon : pageOn x pgPLK = true)
    (hun : x.plk.unacked = f :: rest) (hexec : o = settle s (startResend x)) :
    (x.plk.sends < 4 → ∃ t, o = .next t ∧ t.plk = { x.plk with resend := rest.length + 1 }) ∧
    (4 ≤ x.plk.sends → ∃ t, o = .next t ∧ LinkLost t 1 f.seq) := by
  have hagain := startResend_again (x := x) hun
  have hlost := startResend_lost (x := x) hon hun
  obtain ⟨t, ht⟩ : ∃ t, startResend x = t := ⟨_, rfl⟩
  rw [ht] at hexec hagain hlost
  exact ⟨fun h => ⟨_, hexec.trans (settle_eq ..), hagain h⟩, fun h => ⟨_, hexec.trans (settle_eq ..), hlost h⟩⟩

theorem resending_shows {f : LinkFrame} {rest : List LinkFrame} (hup : plkUp s = true) (seq : Nat) (hres : s.plk.resend = 0)
    (hun : s.plk.unacked = f :: rest) :
    (s.plk.sends < 4 →
      (∃ t, exec (.nak seq true) s = .next t ∧ t.plk = { s.plk with lastControl := now s, resend := rest.length + 1 }) ∧
      (f.sentAt + 20000 ≤ now s → ∃ t, exec .retxTimeout s = .next t ∧ t.plk = { s.plk with resend := rest.length + 1 })) ∧
    (4 ≤ s.plk.sends →
      (∃ t, exec (.nak seq true) s = .next t ∧ LinkLost t 1 f.seq) ∧
      (f.sentAt + 20000 ≤ now s → ∃ t, exec .retxTimeout s = .next t ∧ LinkLost t 1 f.seq)) := by
  have hnak : exec (.nak seq true) s = settle s (startResend (controlled s)) :=
    (nak_eq hup seq).trans (congrArg (settle s) (if_neg (fun h => h hres)))
  have hretx (h : f.sentAt + 20000 ≤ now s) : exec .retxTimeout s = settle s (startResend s) := by
    change execRetxTimeout s = _
    unfold execRetxTimeout
    rw [hup, if_neg (by decide), hun]
    dsimp only
    rw [if_neg]
    rintro (h' | h')
    · exact h' hres
    · exact Nat.not_lt.mpr h h'
  have hon : pageOn (controlled s) pgPLK = true := on_of_up hup
  have hun' : (controlled s).plk.unacked = f :: rest := hun
  obtain ⟨hagain, hlost⟩ := settles_resend hon hun' hnak
  exact ⟨fun h => ⟨hagain h, fun hold => (settles_resend (on_of_up hup) hun (hretx hold)).1 h⟩,
    fun h => ⟨hlost h, fun hold => (settles_resend (on_of_up hup) hun (hretx hold)).2 h⟩⟩

/-! ### A control block with a bad CRC -/

/-- The control blocks, each with a bad CRC. -/
theorem badControl_exec (hup : plkUp s = true) (n m : Nat) (k : Fin 65) : ∀ c ∈ [(.ack n false : Instr), .nak n false, .credit k false,
    .delivered n false, .refuse n m false, .abandon n false, .down false], exec c s = settle s (incCnt pgPLK 0x098 1 s) := by
  intro c hc
  simp only [List.mem_cons, List.not_mem_nil, or_false] at hc
  have hno : (!plkUp s) ≠ true := by rw [hup]; decide
  rcases hc with rfl | rfl | rfl | rfl | rfl | rfl | rfl <;> exact (if_neg hno).trans (if_pos (by decide))

theorem badControl_shows {c : Instr} (hexec : exec c s = settle s (incCnt pgPLK 0x098 1 s)) : ∃ t, exec c s = .next t ∧ t.plk = s.plk ∧
    rd t pgPLK 0x098 = BitVec.ofNat 32 ((rd s pgPLK 0x098).toNat + 1) ∧ t.jobs = s.jobs ∧ MemStands s t := by
  have hcount := rd_incCnt (p := pgPLK) (off := 0x098) (by decide) (by decide) 1 s
  have hrep := incCnt_reports pgPLK 0x098 1 s
  obtain ⟨t, ht⟩ : ∃ t, incCnt pgPLK 0x098 1 s = t := ⟨_, rfl⟩
  rw [ht] at hexec hcount hrep
  exact ⟨_, hexec.trans (settle_eq ..), hrep.field State.plk, hcount, hrep.field State.jobs, memStands_of_mem (hrep.field State.mem)⟩

end

/-- Settles O53: a frame slot, an acknowledgement and a resend each by the link's record after it. -/
theorem framesAreSentAndAcknowledged : Obligations.FramesAreSentAndAcknowledged :=
  ⟨fun _ _ _ hidle hfind hdeps hdl => send_shows hidle hfind hdeps hdl,
    fun _ hup hslot => ⟨fun _ _ hres => resend_shows hup hslot hres,
      fun _ _ hres htx hcredit hroom hlate hgood => newFrame_shows hup hslot hres htx hcredit hroom hlate rfl rfl hgood⟩,
    fun _ hup => ⟨fun seq => ack_shows hup seq, fun k => credit_shows hup k, fun seq h => nak_kept hup seq h,
      fun _ _ seq hres hun => resending_shows hup seq hres hun,
      fun n m k c hc => badControl_shows (badControl_exec hup n m k c hc)⟩⟩

end Sys2Proof.Machine
end

section
/-!
PROOFS. Operations that leave what memory holds and how it can be used, so that what can be read and written before them can be after.
-/
namespace Sys2Proof.Machine

/-- Memory can be used alike and its words are marked alike. -/
structure SameData (s t : State) : Prop where
  use : SameUse s t
  marks : MarksStand s t

namespace SameData

variable {s t u : State}

theorem refl (s : State) : SameData s s := ⟨.refl s, fun _ => rfl⟩

theorem trans (h : SameData s t) (g : SameData t u) : SameData s u := ⟨h.use.trans g.use, fun w => (g.marks w).trans (h.marks w)⟩

theorem of_stores (h : Stores s t) : SameData s t := ⟨h.accounted.sameUse, h.marks⟩

theorem of_read (h : Accounted s t) (hdata : DataStands s t) : SameData s t := ⟨h.sameUse, hdata.marksStand⟩

/-- An update of parts of the state that are no part of the memory. -/
theorem of_parts (hpd0 : t.pd0 = s.pd0) (htb : t.tb = s.tb) (hdram : t.dram = s.dram) (hregul : t.regul = s.regul) (hregs : t.regs = s.regs)
    (hmem : t.mem = s.mem) (hmarks : t.marks = s.marks) : SameData s t :=
  ⟨.of_regs hpd0 htb (congrArg _ hdram) hregul fun p off _ => rd_of_regs hregs p off, DataStands.marksStand ⟨hmem, hmarks⟩⟩

/-- A report of a page that has no part in the memory. -/
theorem of_report {p : Nat} (hp : p ≠ pgPWR ∧ ¬(0x010 ≤ p ∧ p ≤ pgRES)) (h : ReportsOnly s t) (hregs : RegsStandBut [p] s t) : SameData s t := by
  obtain ⟨hpwr, hmem⟩ := hp
  refine ⟨.of_regs (h.field State.pd0) (h.field State.tb) (congrArg _ (h.field State.dram)) (h.field State.regul) fun r off hr => ?_,
    DataStands.marksStand ⟨h.field State.mem, h.field State.marks⟩⟩
  obtain ⟨ho, hpage, -⟩ := hr
  refine hregs r off ho fun hm => ?_
  have hrp := List.mem_singleton.mp hm
  subst hrp
  exact hpage.elim hpwr hmem

theorem isData (h : SameData s t) (a n : Nat) : Machine.isData t a n = Machine.isData s a n := h.use.isData a n

theorem goodWords (h : SameData s t) {a n : Nat} (hg : GoodWords s a n) : GoodWords t a n := by
  intro w hw
  rw [h.use.codedWords] at hw
  exact ⟨(h.marks w).trans (hg w hw).1, (h.use.bankBad w).trans (hg w hw).2⟩

theorem canUse (h : SameData s t) {src : ReqSource} (hsrc : fixedSource src = true) (a n : Nat) :
    Machine.canUse t src a n = Machine.canUse s src a n := h.use.canUse (h.use.classOf hsrc) a n

end SameData

theorem GoodRange.data {s : State} {src : ReqSource} {a n : Nat} (h : GoodRange s src a n) : isData s a n = true ∧ GoodWords s a n :=
  ⟨isData_of_memUsable (memUsable_of_canUse h.1), h.2⟩

/-! ### Parts of a range of data -/

theorem eccOn_region (s : State) {x y : Nat} (h : x / 2 ^ 31 = y / 2 ^ 31) : eccOn s x = eccOn s y := by unfold eccOn; rw [h]

theorem spaceOf_dram {s : State} {x : Nat} : spaceOf s x = .dram ↔ x < 0x1000000000 ∧ (eccOn s x = true → x % 2 ^ 31 < 0x78000000) := by
  unfold spaceOf
  split
  · rename_i h
    cases hecc : eccOn s x <;> simp [h]
  · rename_i h
    refine ⟨fun hx => ?_, fun hx => absurd hx.1 h⟩
    (repeat' split at hx) <;> cases hx

theorem spaceOf_resident {s : State} {x : Nat} : spaceOf s x = .resident ↔ residentBase ≤ x ∧ x < flagBase := by
  have hbase : 0x1000000000 ≤ residentBase := by decide
  unfold spaceOf
  split
  · rename_i h
    refine ⟨fun hx => ?_, fun hx => absurd hx.1 (by omega)⟩
    split at hx <;> cases hx
  · split
    · rename_i h
      exact ⟨fun hx => (by cases hx), fun hx => absurd hx.1 (by omega)⟩
    · split
      · rename_i h' h''
        exact ⟨fun _ => ⟨by omega, h''⟩, fun _ => rfl⟩
      · rename_i h
        refine ⟨fun hx => ?_, fun hx => absurd hx.2 h⟩
        (repeat' split at hx) <;> cases hx

/-- Data of DRAM: both ends are DRAM, and the regions before the last have no codes. -/
theorem isData_eq {s : State} {a n : Nat} : isData s a n = true ↔
    (spaceOf s a = .dram ∧ spaceOf s (a + (n - 1)) = .dram ∧
        ∀ i, i < (a + (n - 1)) / 2 ^ 31 - a / 2 ^ 31 → eccOn s ((a / 2 ^ 31 + i) * 2 ^ 31) = false) ∨
      (spaceOf s a = .resident ∧ spaceOf s (a + (n - 1)) = .resident) := by
  unfold isData
  dsimp only
  split
  · rename_i ha he; simp [ha, he]
  · rename_i ha he
    rw [ha, he, List.all_eq_true]
    simp
  · rename_i hres hdram
    refine ⟨fun h => (by cases h), fun h => ?_⟩
    rcases h with ⟨ha, he, -⟩ | ⟨ha, he⟩
    · exact absurd he (hdram ha)
    · exact absurd he (hres ha)

/-- A part of a range of data is data. -/
theorem isData_part {s : State} {a n b m : Nat} (h : isData s a n = true) (hlo : a ≤ b) (hhi : b + (m - 1) ≤ a + (n - 1)) :
    isData s b m = true := by
  refine isData_eq.mpr ?_
  rcases isData_eq.mp h with ⟨-, he, hplain⟩ | ⟨ha, he⟩
  · left
    obtain ⟨helt, hend⟩ := spaceOf_dram.mp he
    have hbefore (x : Nat) (hax : a ≤ x) (hlt : x / 2 ^ 31 < (a + (n - 1)) / 2 ^ 31) : eccOn s (x / 2 ^ 31 * 2 ^ 31) = false := by
      have hle : a / 2 ^ 31 ≤ x / 2 ^ 31 := Nat.div_le_div_right hax
      have hi := hplain (x / 2 ^ 31 - a / 2 ^ 31) (by omega)
      rwa [Nat.add_sub_cancel' hle] at hi
    have hdram (x : Nat) (hax : a ≤ x) (hxe : x ≤ a + (n - 1)) : spaceOf s x = .dram := by
      refine spaceOf_dram.mpr ⟨by omega, fun hecc => ?_⟩
      by_cases hreg : x / 2 ^ 31 = (a + (n - 1)) / 2 ^ 31
      · have hoff := hend ((eccOn_region s hreg).symm.trans hecc)
        omega
      · have hlt : x / 2 ^ 31 < (a + (n - 1)) / 2 ^ 31 := Nat.lt_of_le_of_ne (Nat.div_le_div_right hxe) hreg
        have hoff := hbefore x hax hlt
        rw [eccOn_region s (y := x) (by omega), hecc] at hoff
        cases hoff
    refine ⟨hdram b hlo (by omega), hdram _ (by omega) hhi, fun i hi => ?_⟩
    have hle : (b + (m - 1)) / 2 ^ 31 ≤ (a + (n - 1)) / 2 ^ 31 := Nat.div_le_div_right hhi
    have hreg : (b / 2 ^ 31 + i) * 2 ^ 31 / 2 ^ 31 = b / 2 ^ 31 + i := Nat.mul_div_cancel _ (by decide)
    have hab : a / 2 ^ 31 ≤ b / 2 ^ 31 := Nat.div_le_div_right hlo
    have hi' := hplain (b / 2 ^ 31 + i - a / 2 ^ 31) (by omega)
    rwa [Nat.add_sub_cancel' (by omega)] at hi'
  · right
    have ha' := spaceOf_resident.mp ha
    have he' := spaceOf_resident.mp he
    exact ⟨spaceOf_resident.mpr (by omega), spaceOf_resident.mpr (by omega)⟩

end Sys2Proof.Machine
end

section
/-!
PROOFS. Messages of the Dexvor link end, arrive in their posted buffers, or are refused (R606, R609, R611, R612, R614, R615).
-/
namespace Sys2Proof.Machine

section
variable {s : State}

/-! ### The ends of a message -/

/-- A control block that ends the SEND of its message. -/
theorem sendEnds_shows {msg c st d : Nat} {j : Job} {o : Host.Outcome State Fault Refusal} {k : State → State} (hup : plkUp s = true)
    (hmsg : chanOfMsg s msg = some c) (hfind : (pageJobs s pgPLK).running.find? (ofChan c) = some j) (ho : o = takeControl true k s)
    (hk : k = fun s => match chanOfMsg s msg with | some c => endSend c st d s | none => s) :
    ∃ t, o = .next t ∧ DoneWith s t pgPLK j st ∧ txOf t c = none ∧ MemStands s t := by
  have hmsg' : chanOfMsg (controlled s) msg = some c := hmsg
  have hexec : o = settle s (endSend c st d (controlled s)) := by
    rw [ho, takeControl_good hup, hk]
    dsimp only
    rw [hmsg']
  have hfind' : (pageJobs (controlled s) pgPLK).running.find? (ofChan c) = some j := hfind
  have hjobs : pageJobs (controlled s) pgPLK = pageJobs s pgPLK := rfl
  have hmem : (controlled s).mem = s.mem := rfl
  obtain ⟨x, hx⟩ : ∃ x, controlled s = x := ⟨_, rfl⟩
  rw [hx] at hexec hfind' hjobs hmem
  obtain ⟨hend, hplk, hmem'⟩ := endSend_shows hfind' st d
  have hdone : DoneWith s (endSend c st d x) pgPLK j st := (doneWith_of_ended hend).of_jobs hjobs.symm rfl
  obtain ⟨t, ht⟩ : ∃ t, endSend c st d x = t := ⟨_, rfl⟩
  rw [ht] at hexec hdone hplk hmem'
  refine ⟨_, hexec.trans (settle_eq ..), hdone, ?_, memStands_of_mem (hmem'.trans hmem)⟩
  have htx : t.plk.tx = x.plk.tx.put none c none := congrArg Link.tx hplk
  have hget : t.plk.tx.get none c = none := by rw [htx, SMap.get_put_same]
  exact hget

/-- The completion record of a posted entry. -/
def rxBytes (id status detail start at_ : Nat) : List Byte :=
  leBytes 4 id ++ leBytes 2 status ++ [0, 0] ++ leBytes 8 detail ++ leBytes 8 start ++ leBytes 8 at_

theorem rxBytes_length (id status detail start at_ : Nat) : (rxBytes id status detail start at_).length = 32 := by simp [rxBytes, leBytes]

theorem rxRecord_wrote {e : Nat × Nat × Nat} {x : State} (hdata : isData x e.2.1 32 = true) (hgood : GoodWords x e.2.1 32)
    (status detail start : Nat) : Wrote e.2.1 (rxBytes e.2.2 status detail start (now x)) x (rxRecord e status detail start x) :=
  storeAs_goodWords (by rw [rxBytes_length]; exact hdata) (by rw [rxBytes_length]; exact hgood)

theorem rxOf_setRx (c : Nat) (m : Option RxMsg) (x : State) : rxOf (setRx c m x) c = m := SMap.get_put_same none c m x.plk.rx

theorem sameData_modPlk (f : Link → Link) (x : State) : SameData x (modPlk f x) := .of_parts rfl rfl rfl rfl rfl rfl rfl

theorem find?_unique {α : Type} {f : α → Bool} {l : List α} {c : α} (hmem : c ∈ l) (hc : f c = true) (huniq : ∀ d ∈ l, f d = true → d = c) :
    l.find? f = some c := by
  cases h : l.find? f with
  | none => exact absurd hc (List.find?_eq_none.mp h c hmem)
  | some d => rw [huniq d (List.mem_of_find?_eq_some h) (List.find?_some h)]

/-- A channel's reception into a buffer is abandoned. -/
theorem abandonRx_shows {c : Nat} {m : RxMsg} {e : Nat × Nat × Nat} {x : State} (hrx : rxOf x c = some m) (hent : m.entry = some e)
    (hdata : isData x e.2.1 32 = true) (hgood : GoodWords x e.2.1 32) : rxOf (abandonRx c x) c = none ∧
    MemStandsBut e.2.1 32 x (abandonRx c x) ∧
    getBytes (abandonRx c x) e.2.1 32 = rxBytes e.2.2 stPLK_RX_ABANDONED m.written m.start (now x) := by
  have hsame : SameData x (setRx c none x) := sameData_modPlk _ x
  have hnow : now (setRx c none x) = now x := rfl
  have hmem : MemStands x (setRx c none x) := memStands_of_mem rfl
  have hnone := rxOf_setRx c none x
  have heq : abandonRx c x = rxRecord e stPLK_RX_ABANDONED m.written m.start (setRx c none x) := by
    unfold abandonRx
    rw [hrx]
    dsimp only
    rw [hent]
  rw [heq]
  obtain ⟨y, hy⟩ : ∃ y, setRx c none x = y := ⟨_, rfl⟩
  rw [hy] at hsame hnow hmem hnone ⊢
  have hwrote := rxRecord_wrote ((hsame.isData _ _).trans hdata) (hsame.goodWords hgood) stPLK_RX_ABANDONED m.written m.start
  rw [hnow] at hwrote
  have hbut := hwrote.standsBut
  have hbytes := hwrote.getBytes
  rw [rxBytes_length] at hbut hbytes
  have hplk : (rxRecord e stPLK_RX_ABANDONED m.written m.start y).plk = y.plk := hwrote.stores.accounted.field State.plk
  refine ⟨?_, fun b hb => (hbut b hb).trans (hmem b), hbytes⟩
  unfold rxOf at hnone ⊢
  rw [hplk]
  exact hnone

theorem abandon_shows {msg c : Nat} {m : RxMsg} {e : Nat × Nat × Nat} (hup : plkUp s = true) (hc : c < 4) (hrx : rxOf s c = some m)
    (hid : m.id = msg) (hent : m.entry = some e) (huniq : ∀ d < 4, ∀ x, rxOf s d = some x → x.id = msg → d = c)
    (hgood : GoodRange s .record e.2.1 32) :
    ∃ t, exec (.abandon msg true) s = .next t ∧ rxOf t c = none ∧ MemStandsBut e.2.1 32 s t ∧
      getBytes t e.2.1 32 = rxBytes e.2.2 stPLK_RX_ABANDONED m.written m.start (now s) := by
  have hrx' (d : Nat) : rxOf (controlled s) d = rxOf s d := rfl
  have hsame : SameData s (controlled s) := sameData_modPlk _ s
  have hnow : now (controlled s) = now s := rfl
  have hmem : MemStands s (controlled s) := memStands_of_mem rfl
  have hfind : (List.range 4).find? (fun c => match rxOf (controlled s) c with | some m => decide (m.id = msg) | none => false) = some c := by
    refine find?_unique (List.mem_range.mpr hc) ?_ fun d hd hf => ?_
    · rw [hrx', hrx]; exact decide_eq_true hid
    · rw [hrx'] at hf
      split at hf
      · rename_i x hx; exact huniq d (List.mem_range.mp hd) x hx (of_decide_eq_true hf)
      · cases hf
  have hexec : exec (.abandon msg true) s = settle s (abandonRx c (controlled s)) := by
    refine (takeControl_good hup (fun s =>
      match (List.range 4).find? (fun c => match rxOf s c with | some m => decide (m.id = msg) | none => false) with
      | some c => abandonRx c s
      | none => s)).trans ?_
    rw [hfind]
  have hrxc := (hrx' c).trans hrx
  obtain ⟨x, hx⟩ : ∃ x, controlled s = x := ⟨_, rfl⟩
  rw [hx] at hexec hsame hnow hmem hrxc
  obtain ⟨hdata, hwords⟩ := GoodRange.data hgood
  obtain ⟨hnone, hbut, hbytes⟩ := abandonRx_shows hrxc hent ((hsame.isData _ _).trans hdata) (hsame.goodWords hwords)
  rw [hnow] at hbytes
  obtain ⟨t, ht⟩ : ∃ t, abandonRx c x = t := ⟨_, rfl⟩
  rw [ht] at hexec hnone hbut hbytes
  exact ⟨_, hexec.trans (settle_eq ..), hnone, fun b hb => (hbut b hb).trans (hmem b), hbytes⟩

/-! ### The posting doorbell -/

/-- The depth the posting doorbell's TAIL is tested against. -/
def postingDepth (s : State) (c : Nat) : Nat := if postOn s c then (postRing s c).depth else postDepth s c

theorem plkRxDoorbell_shows {q : Port} {c : Fin 4} {tail : Nat} (htail : tail < 1024) (hmay : MayWrite s q pgPLK (postReg c.val 0x10)) :
    ∃ t, exec (.plkRxDoorbell q c tail) s = .next t ∧ MemStands s t ∧
      (tail < postingDepth s c.val → (postRing t c.val).tail = tail ∧ t.regs = s.regs) ∧
      (postingDepth s c.val ≤ tail → t.plk = s.plk ∧ Told t q pgPLK cCMD_REJ (postReg c.val 0x10 + q.num * 2 ^ 20)) := by
  have hexec : exec (.plkRxDoorbell q c tail) s = settle s (if postingDepth s c.val ≤ tail then cmdRej q pgPLK (postReg c.val 0x10) 0 s
      else setPost c.val { postRing s c.val with tail := tail } s) := by
    have hgate : exec (.plkRxDoorbell q c tail) s =
        settle s (gateWrite q pgPLK (postReg c.val 0x10) (effPostDb q c.val (tail % 1024)) s) := rfl
    rw [hgate, gateWrite_mayWrite hmay, Nat.mod_eq_of_lt htail]
    rfl
  by_cases hle : postingDepth s c.val ≤ tail
  · rw [if_pos hle] at hexec
    have hd : postReg c.val 0x10 + q.num * 2 ^ 20 < 2 ^ 32 := by
      have hq : q.num ≤ 1 := by cases q <;> decide
      unfold postReg
      omega
    have htold := told_refuse q pgPLK cCMD_REJ hd s
    have hrep := refuse_reports q pgPLK cCMD_REJ (postReg c.val 0x10 + q.num * 2 ^ 20) s
    unfold cmdRej at hexec
    rw [show postReg c.val 0x10 + 0 * 2 ^ 12 + q.num * 2 ^ 20 = postReg c.val 0x10 + q.num * 2 ^ 20 by omega] at hexec
    obtain ⟨t, ht⟩ : ∃ t, Machine.refuse q pgPLK cCMD_REJ (postReg c.val 0x10 + q.num * 2 ^ 20) s = t := ⟨_, rfl⟩
    rw [ht] at hexec htold hrep
    exact ⟨_, hexec.trans (settle_eq ..), memStands_of_mem (hrep.field State.mem), fun h => absurd hle (Nat.not_le.mpr h),
      fun _ => ⟨hrep.field State.plk, htold⟩⟩
  · rw [if_neg hle] at hexec
    have hring : postRing (setPost c.val { postRing s c.val with tail := tail } s) c.val = { postRing s c.val with tail := tail } :=
      SMap.get_put_same ..
    have hregs : (setPost c.val { postRing s c.val with tail := tail } s).regs = s.regs := rfl
    have hmem : (setPost c.val { postRing s c.val with tail := tail } s).mem = s.mem := rfl
    obtain ⟨t, ht⟩ : ∃ t, setPost c.val { postRing s c.val with tail := tail } s = t := ⟨_, rfl⟩
    rw [ht] at hexec hring hregs hmem
    exact ⟨_, hexec.trans (settle_eq ..), memStands_of_mem hmem, fun _ => ⟨congrArg PostRing.tail hring, hregs⟩, fun h => absurd h hle⟩

/-! ### Frames that are not accepted -/

/-- The link answers with NAK. -/
def nakked (s : State) : State := modPlk (fun l => { l with nak := some l.rxSeq }) s

theorem badFrame_shows {frame : List Byte} (hup : plkUp s = true)
    (hbad : frame.length ≠ 4132 ∨ leAt frame 4128 4 ≠ Crypto.crc32 (frame.take 4128)) :
    ∃ t, exec (.dataFrameReceive frame) s = .next t ∧ t.plk = { s.plk with nak := some s.plk.rxSeq } ∧ MemStands s t ∧
      rd t pgPLK 0x098 = BitVec.ofNat 32 ((rd s pgPLK 0x098).toNat + 1) := by
  have hexec : exec (.dataFrameReceive frame) s = settle s (nakked (incCnt pgPLK 0x098 1 s)) := by
    change execDataFrameReceive frame s = _
    unfold execDataFrameReceive
    rw [hup, if_neg (by decide), if_pos hbad]
    rfl
  have hcount := rd_incCnt (p := pgPLK) (off := 0x098) (by decide) (by decide) 1 s
  have hrep := incCnt_reports pgPLK 0x098 1 s
  obtain ⟨t, ht⟩ : ∃ t, incCnt pgPLK 0x098 1 s = t := ⟨_, rfl⟩
  rw [ht] at hexec hcount hrep
  have hplk : (nakked t).plk = { s.plk with nak := some s.plk.rxSeq } := by
    change { t.plk with nak := some t.plk.rxSeq } = _
    rw [hrep.field State.plk]
  exact ⟨_, hexec.trans (settle_eq ..), hplk, memStands_of_mem (hrep.field State.mem), hcount⟩

theorem strayFrame_shows {frame : List Byte} (hup : plkUp s = true) (hlen : frame.length = 4132)
    (hcrc : leAt frame 4128 4 = Crypto.crc32 (frame.take 4128)) (hseq : leAt frame 4 4 ≠ s.plk.rxSeq) :
    ∃ t, exec (.dataFrameReceive frame) s = .next t ∧ t.plk = { s.plk with nak := some s.plk.rxSeq } ∧ MemStands s t ∧ t.regs = s.regs := by
  have hexec : exec (.dataFrameReceive frame) s = settle s (nakked s) := by
    change execDataFrameReceive frame s = _
    unfold execDataFrameReceive
    rw [hup, if_neg (by decide), if_neg (fun h => h.elim (fun h => h hlen) (fun h => h hcrc)), if_pos (.inl hseq)]
    rfl
  exact ⟨_, hexec.trans (settle_eq ..), rfl, memStands_of_mem rfl, rfl⟩

/-! ### A frame that is accepted -/

/-- A frame is accepted: it is counted and will be acknowledged. -/
def frameTaken (s : State) : State :=
  incCnt pgPLK 0x090 1 (modPlk (fun l => { l with ack := some l.rxSeq, nak := none, rxSeq := (l.rxSeq + 1) % 2 ^ 32 }) s)

/-- What the acceptance of a frame leaves. -/
structure FrameTaken (s x : State) : Prop where
  plk : x.plk = { s.plk with ack := some s.plk.rxSeq, nak := none, rxSeq := (s.plk.rxSeq + 1) % 2 ^ 32 }
  data : SameData s x
  mem : MemStands s x
  now : now x = now s
  regs : ∀ off, off < 0x1000 → 0x100 ≤ off → rd x pgPLK off = rd s pgPLK off
  pageOn : pageOn x pgPLK = pageOn s pgPLK

theorem plk_noMemory : pgPLK ≠ pgPWR ∧ ¬(0x010 ≤ pgPLK ∧ pgPLK ≤ pgRES) := by decide

theorem frameTaken_shows (s : State) : FrameTaken s (frameTaken s) := by
  have hplk : (modPlk (fun l => { l with ack := some l.rxSeq, nak := none, rxSeq := (l.rxSeq + 1) % 2 ^ 32 }) s).plk =
      { s.plk with ack := some s.plk.rxSeq, nak := none, rxSeq := (s.plk.rxSeq + 1) % 2 ^ 32 } := rfl
  have hsame := sameData_modPlk (fun l => { l with ack := some l.rxSeq, nak := none, rxSeq := (l.rxSeq + 1) % 2 ^ 32 }) s
  have hmem : MemStands s (modPlk (fun l => { l with ack := some l.rxSeq, nak := none, rxSeq := (l.rxSeq + 1) % 2 ^ 32 }) s) := memStands_of_mem rfl
  have hnow : now (modPlk (fun l => { l with ack := some l.rxSeq, nak := none, rxSeq := (l.rxSeq + 1) % 2 ^ 32 }) s) = now s := rfl
  have hregs : (modPlk (fun l => { l with ack := some l.rxSeq, nak := none, rxSeq := (l.rxSeq + 1) % 2 ^ 32 }) s).regs = s.regs := rfl
  have hon : pageOn (modPlk (fun l => { l with ack := some l.rxSeq, nak := none, rxSeq := (l.rxSeq + 1) % 2 ^ 32 }) s) pgPLK = pageOn s pgPLK := rfl
  unfold frameTaken
  obtain ⟨x, hx⟩ : ∃ x, modPlk (fun l => { l with ack := some l.rxSeq, nak := none, rxSeq := (l.rxSeq + 1) % 2 ^ 32 }) s = x := ⟨_, rfl⟩
  rw [hx] at hplk hsame hmem hnow hregs hon ⊢
  have hrep := incCnt_reports pgPLK 0x090 1 x
  have hbut := regsStandBut_incCnt (off := 0x090) (by decide) pgPLK 1 x
  exact ⟨(hrep.field State.plk).trans hplk, hsame.trans (.of_report plk_noMemory hrep hbut), hmem.trans (memStands_of_mem (hrep.field State.mem)),
    (hrep.field Machine.now).trans hnow, fun off ho hl => (rd_incCnt_ne (by decide) ho (by omega) 1 x).trans (rd_of_regs hregs ..),
    (pageOn_of_regsStandBut plkOn_ne hbut (hrep.field State.pd0) pgPLK).trans hon⟩

/-- The first frame of a message takes the entry at HEAD that fits it. -/
theorem takeEntry_good {c id len head : Nat} {r : PostRing} {e : List Byte} (hring : postRing s c = r)
    (hhead : rdF s pgPLK (postReg c 0x0C) 9 0 = head) (hon : postOn s c = true) (hne : head ≠ r.tail)
    (hwords : GoodWords s (r.base + 32 * head) 32) (he : getBytes s (r.base + 32 * head) 32 = e) (hbad : entryBad s e = false)
    (hlen : len ≤ leAt e 8 4) : ∃ z, Accounted s z ∧ DataStands s z ∧
      takeEntry c id len s = setRx c (some ⟨id, len, 0, some (leAt e 0 8, leAt e 16 8, leAt e 24 4), now s, 0⟩)
        (wrF pgPLK (postReg c 0x0C) 9 0 ((head + 1) % r.depth) z) := by
  obtain ⟨z, hread, hacc, hdata⟩ := readAs_good (src := .dexvor) hwords
  refine ⟨z, hacc, hdata, ?_⟩
  unfold takeEntry
  dsimp only
  rw [hring, hhead, hon, decide_eq_false hne, if_neg (by decide), hread, he]
  dsimp only
  rw [hbad, if_neg (by decide), if_neg (Nat.not_lt.mpr hlen)]

/-- The last frame of a message fills its buffer and completes its entry. -/
def completeRx (c id len tag buf cpl rx start : Nat) (bytes : List Byte) (s : State) : State :=
  let t := rxRecord (buf, cpl, rx) stDONE (len + tag * 2 ^ 32) start (writeAs .dexvor buf bytes s).2
  sendControl 0x13 id (setRx c none (incCnt pgPLK (postReg c 0x14) 1 (raise pgPLK 0x103 sevINFO (c + rx % 2 ^ 24 * 2 ^ 8) t)))

theorem takePayload_last {c id len tag buf cpl rx start : Nat} {payload bytes : List Byte}
    (hrx : rxOf s c = some ⟨id, len, 0, some (buf, cpl, rx), start, 0⟩) (hpos : 1 ≤ len) (hmax : len ≤ 4096) (hbytes : payload.take len = bytes)
    (hnone : (writeAs .dexvor buf bytes s).1 = none) :
    takePayload c tag payload s = completeRx c id len tag buf cpl rx start bytes s := by
  have hframes : 0 + 1 = framesOf len := by unfold framesOf; omega
  unfold takePayload
  rw [hrx]
  dsimp only
  rw [Nat.mul_zero, Nat.add_zero, Nat.sub_zero, Nat.min_eq_right hmax, hbytes, hnone]
  dsimp only
  rw [if_pos hframes]
  rfl

/-- What the last frame of a message leaves. -/
structure Received (c id len tag buf cpl rx start : Nat) (bytes : List Byte) (s t : State) : Prop where
  payload : getBytes t buf len = bytes
  record : getBytes t cpl 32 = rxBytes rx stDONE (len + tag * 2 ^ 32) start (now s)
  rest : ∀ a, ¬(buf ≤ a ∧ a < buf + len) → ¬(cpl ≤ a ∧ a < cpl + 32) → getByte t a = getByte s a
  head : rd t pgPLK (postReg c 0x0C) = rd s pgPLK (postReg c 0x0C)
  free : rxOf t c = none
  control : t.plk.control = controlBlock 0x13 id
  rxSeq : t.plk.rxSeq = s.plk.rxSeq
  ack : t.plk.ack = s.plk.ack

theorem getBytes_out {t : State} {a n b m : Nat} (h : MemStandsBut a n s t) (hout : b + m ≤ a ∨ a + n ≤ b) : getBytes t b m = getBytes s b m :=
  List.map_congr_left fun i hi => h _ (by have := List.mem_range.mp hi; omega)

/-- The events and the control block that end a reception. -/
def receptionTold (c id rx : Nat) (s : State) : State :=
  sendControl 0x13 id (setRx c none (incCnt pgPLK (postReg c 0x14) 1 (raise pgPLK 0x103 sevINFO (c + rx % 2 ^ 24 * 2 ^ 8) s)))

theorem receptionTold_shows {c : Nat} (hc : c < 4) (id rx : Nat) (s : State) : (receptionTold c id rx s).mem = s.mem ∧
    rd (receptionTold c id rx s) pgPLK (postReg c 0x0C) = rd s pgPLK (postReg c 0x0C) ∧
    (receptionTold c id rx s).plk = { s.plk with rx := s.plk.rx.put none c none, control := controlBlock 0x13 id } := by
  have hpost : postReg c 0x14 < 0x1000 ∧ postReg c 0x0C < 0x1000 ∧ 0x100 ≤ postReg c 0x0C ∧ postReg c 0x0C ≠ postReg c 0x14 := by unfold postReg; omega
  obtain ⟨h14, h0c, hlo, hne⟩ := hpost
  have hrep := (raise_reports pgPLK 0x103 sevINFO (c + rx % 2 ^ 24 * 2 ^ 8) s).trans (incCnt_reports pgPLK (postReg c 0x14) 1 _)
  have hrd := (rd_incCnt_ne (p := pgPLK) (p' := pgPLK) h14 h0c (by omega) 1 (raise pgPLK 0x103 sevINFO (c + rx % 2 ^ 24 * 2 ^ 8) s)).trans
    (rd_raise (p := pgPLK) (p' := pgPLK) h0c (by omega) 0x103 sevINFO (c + rx % 2 ^ 24 * 2 ^ 8) s)
  unfold receptionTold
  obtain ⟨x, hx⟩ : ∃ x, incCnt pgPLK (postReg c 0x14) 1 (raise pgPLK 0x103 sevINFO (c + rx % 2 ^ 24 * 2 ^ 8) s) = x := ⟨_, rfl⟩
  rw [hx] at hrep hrd ⊢
  have hplk := hrep.field State.plk
  refine ⟨hrep.field State.mem, hrd, ?_⟩
  change { x.plk with rx := x.plk.rx.put none c none, control := controlBlock 0x13 id } = _
  rw [hplk]

theorem completeRx_shows {c id len tag buf cpl rx start : Nat} {bytes : List Byte} (hc : c < 4) (hlen : bytes.length = len)
    (hbuf : isData s buf len = true) (hbufWords : GoodWords s buf len) (hcpl : isData s cpl 32 = true) (hcplWords : GoodWords s cpl 32)
    (happart : buf + len ≤ cpl ∨ cpl + 32 ≤ buf) :
    Received c id len tag buf cpl rx start bytes s (completeRx c id len tag buf cpl rx start bytes s) := by
  subst hlen
  obtain ⟨-, hwrote⟩ := writeAs_goodWords (src := .dexvor) hbuf hbufWords
  have hsame := SameData.of_stores hwrote.stores
  have hpayload := hwrote.getBytes
  have hbut := hwrote.standsBut
  have hnow : now (writeAs .dexvor buf bytes s).2 = now s := hwrote.stores.accounted.field now
  have hplk : (writeAs .dexvor buf bytes s).2.plk = s.plk := hwrote.stores.accounted.field State.plk
  have hplkPage (off : Nat) : ¬counted pgPLK off := by unfold counted pgPLK pgRES pgMREG; omega
  have hpost : postReg c 0x0C < 0x1000 := by unfold postReg; omega
  have hhead := hwrote.stores.accounted.regs pgPLK (postReg c 0x0C) hpost (hplkPage _)
  unfold completeRx
  dsimp only
  obtain ⟨x, hx⟩ : ∃ x, (writeAs .dexvor buf bytes s).2 = x := ⟨_, rfl⟩
  rw [hx] at hsame hpayload hbut hnow hplk hhead ⊢
  have hrec := rxRecord_wrote (e := (buf, cpl, rx)) ((hsame.isData _ _).trans hcpl) (hsame.goodWords hcplWords) stDONE (bytes.length + tag * 2 ^ 32) start
  have hrecord := hrec.getBytes
  have hbut' := hrec.standsBut
  rw [rxBytes_length] at hrecord hbut'
  have hplk' := (hrec.stores.accounted.field State.plk).trans hplk
  have hhead' := (hrec.stores.accounted.regs pgPLK (postReg c 0x0C) hpost (hplkPage _)).trans hhead
  obtain ⟨y, hy⟩ : ∃ y, rxRecord (buf, cpl, rx) stDONE (bytes.length + tag * 2 ^ 32) start x = y := ⟨_, rfl⟩
  rw [hy] at hrecord hbut' hplk' hhead' ⊢
  obtain ⟨hmem, hhead'', hplk''⟩ := receptionTold_shows hc id rx y
  change Received c id bytes.length tag buf cpl rx start bytes s (receptionTold c id rx y)
  obtain ⟨t, ht⟩ : ∃ t, receptionTold c id rx y = t := ⟨_, rfl⟩
  rw [ht] at hmem hhead'' hplk'' ⊢
  rw [hplk'] at hplk''
  have hstands : MemStands y t := memStands_of_mem hmem
  have hfree : t.plk.rx = s.plk.rx.put none c none := congrArg Link.rx hplk''
  refine ⟨?_, ?_, fun a ha hb => ?_, hhead''.trans hhead', ?_, congrArg Link.control hplk'', by rw [hplk''], by rw [hplk'']⟩
  · exact (getBytes_congr hstands ..).trans ((getBytes_out hbut' happart).trans hpayload)
  · exact (getBytes_congr hstands ..).trans (hrecord.trans (by rw [hnow]))
  · exact (hstands a).trans ((hbut' a hb).trans (hbut a ha))
  · unfold rxOf; rw [hfree, SMap.get_put_same]

/-- The first frame of a message, in sequence and whole. -/
structure FirstFrame (s : State) (frame : List Byte) (c id len : Nat) : Prop where
  whole : frame.length = 4132
  crc : leAt frame 4128 4 = Crypto.crc32 (frame.take 4128)
  seq : leAt frame 4 4 = s.plk.rxSeq
  data : byteAt frame 0 = 1
  channel : byteAt frame 1 = c
  index : leAt frame 12 4 = 0
  msg : leAt frame 8 4 = id
  size : leAt frame 16 4 = len

theorem exec_firstFrame {frame : List Byte} {c id len : Nat} {m : RxMsg} (hup : plkUp s = true) (h : FirstFrame s frame c id len) (hc : c < 4)
    (hmem : frameMemory s c 0 = true) (hrx : rxOf (takeEntry c id len (frameTaken s)) c = some m) (hid : m.id = id) (hnext : m.next = 0) :
    exec (.dataFrameReceive frame) s =
      settle s (takePayload c (leAt frame 20 4) ((frame.drop 32).take 4096) (takeEntry c id len (frameTaken s))) := by
  obtain ⟨hwhole, hcrc, hseq, hdata, hchan, hidx, hmsg, hsize⟩ := h
  have htaken : incCnt pgPLK 0x090 1 (modPlk (fun l => { l with ack := some l.rxSeq, nak := none, rxSeq := (l.rxSeq + 1) % 2 ^ 32 }) s) =
      frameTaken s := rfl
  change execDataFrameReceive frame s = _
  unfold execDataFrameReceive
  dsimp only
  rw [hup, if_neg (by decide), if_neg (fun h => h.elim (fun h => h hwhole) (fun h => h hcrc)),
    if_neg (fun h => h.elim (fun h => h hseq) (fun h => h hdata)), hchan, hidx, hmem, if_neg (fun h => Bool.noConfusion h.2),
    if_neg (Nat.not_le.mpr hc), htaken, if_pos rfl, hmsg, hsize, hrx]
  dsimp only
  rw [if_pos ⟨hid, hnext⟩]

theorem getBytes_length (s : State) (a n : Nat) : (getBytes s a n).length = n := by unfold getBytes; rw [List.length_map, List.length_range]

theorem entryBad_data {s : State} {e : List Byte} (h : entryBad s e = false) : isData s (leAt e 0 8) (leAt e 8 4) = true ∧
    isData s (leAt e 16 8) 32 = true := by
  unfold entryBad at h
  simp only [Bool.or_eq_false_iff, Bool.not_eq_false'] at h
  obtain ⟨⟨⟨⟨⟨⟨⟨-, -⟩, -⟩, hbuf⟩, -⟩, hcpl⟩, -⟩, -⟩ := h
  exact ⟨hbuf, hcpl⟩

theorem entryBad_congr {t : State} (h : ∀ a n, isData t a n = isData s a n) (e : List Byte) : entryBad t e = entryBad s e := by
  unfold entryBad
  dsimp only
  rw [h, h]

/-- The one frame of a message that fits the entry at HEAD. -/
theorem firstFrame_received {frame e : List Byte} {c id len head : Nat} {r : PostRing} (hup : plkUp s = true) (h : FirstFrame s frame c id len)
    (hc : c < 4) (hpos : 1 ≤ len) (hmax : len ≤ 4096) (hring : postRing s c = r) (hhead : rdF s pgPLK (postReg c 0x0C) 9 0 = head)
    (hon : postOn s c = true) (hne : head ≠ r.tail) (hdepth : 1 ≤ r.depth) (hdepth' : r.depth ≤ 1024)
    (hslot : GoodRange s .dexvor (r.base + 32 * head) 32) (he : getBytes s (r.base + 32 * head) 32 = e) (hbad : entryBad s e = false)
    (hfits : len ≤ leAt e 8 4) (hbuf : GoodRange s .dexvor (leAt e 0 8) (leAt e 8 4)) (hcpl : GoodRange s .record (leAt e 16 8) 32)
    (happart : leAt e 0 8 + len ≤ leAt e 16 8 ∨ leAt e 16 8 + 32 ≤ leAt e 0 8) :
    ∃ t, exec (.dataFrameReceive frame) s = .next t ∧ t.plk.rxSeq = (s.plk.rxSeq + 1) % 2 ^ 32 ∧ t.plk.ack = some s.plk.rxSeq ∧
      getBytes t (leAt e 0 8) len = (frame.drop 32).take len ∧
      getBytes t (leAt e 16 8) 32 = rxBytes (leAt e 24 4) stDONE (len + leAt frame 20 4 * 2 ^ 32) (now s) (now s) ∧
      rdF t pgPLK (postReg c 0x0C) 9 0 = (head + 1) % r.depth ∧ rxOf t c = none ∧ t.plk.control = controlBlock 0x13 id ∧
      ∀ a, ¬(leAt e 0 8 ≤ a ∧ a < leAt e 0 8 + len) → ¬(leAt e 16 8 ≤ a ∧ a < leAt e 16 8 + 32) → getByte t a = getByte s a := by
  have hpost : postReg c 0x0C < 0x1000 ∧ 0x100 ≤ postReg c 0x0C ∧ postReg c 0x08 < 0x1000 ∧ 0x100 ≤ postReg c 0x08 := by unfold postReg; omega
  obtain ⟨hreg, hreglo, hcfg, hcfglo⟩ := hpost
  have hmemory : frameMemory s c 0 = true := by
    unfold frameMemory
    dsimp only
    rw [if_pos rfl, hring, hhead, he, hon, decide_eq_false hne, hslot.1, hbad, hbuf.1, hcpl.1]
    rfl
  have htaken := frameTaken_shows s
  have hexec := fun m => exec_firstFrame (m := m) hup h hc hmemory
  obtain ⟨x, hx⟩ : ∃ x, frameTaken s = x := ⟨_, rfl⟩
  simp only [hx] at hexec
  rw [hx] at htaken
  obtain ⟨hplk, hdata, hmem, hnow, hregs, -⟩ := htaken
  obtain ⟨hbufData, hbufWords⟩ := GoodRange.data hbuf
  obtain ⟨hcplData, hcplWords⟩ := GoodRange.data hcpl
  have hringx : postRing x c = r := by unfold postRing; rw [hplk]; exact hring
  obtain ⟨z, hacc, hread, hentry⟩ := takeEntry_good (s := x) (id := id) (len := len) hringx ((rdF_congr (hregs _ hreg hreglo) 9 0).trans hhead)
    ((rdB_congr (hregs _ hcfg hcfglo) 31).trans hon) hne (hdata.goodWords hslot.2) ((getBytes_congr hmem ..).trans he)
    ((entryBad_congr hdata.isData e).trans hbad) hfits
  obtain ⟨msg, hmsg⟩ : ∃ m : RxMsg, ⟨id, len, 0, some (leAt e 0 8, leAt e 16 8, leAt e 24 4), now x, 0⟩ = m := ⟨_, rfl⟩
  rw [hmsg] at hentry
  have hsame : SameData z (setRx c (some msg) (wrF pgPLK (postReg c 0x0C) 9 0 ((head + 1) % r.depth) z)) :=
    (SameData.of_report plk_noMemory (wrF_reports ..) (regsStandBut_wr hreg _ _ _)).trans (sameData_modPlk _ _)
  have hplkz : (setRx c (some msg) (wrF pgPLK (postReg c 0x0C) 9 0 ((head + 1) % r.depth) z)).plk =
      { z.plk with rx := z.plk.rx.put none c (some msg) } := rfl
  have hmemz : (setRx c (some msg) (wrF pgPLK (postReg c 0x0C) 9 0 ((head + 1) % r.depth) z)).mem = z.mem := rfl
  have hnowz : now (setRx c (some msg) (wrF pgPLK (postReg c 0x0C) 9 0 ((head + 1) % r.depth) z)) = now z := rfl
  have hheadz : rdF (setRx c (some msg) (wrF pgPLK (postReg c 0x0C) 9 0 ((head + 1) % r.depth) z)) pgPLK (postReg c 0x0C) 9 0 = (head + 1) % r.depth := by
    have hview (v : State) : rdF (setRx c (some msg) v) pgPLK (postReg c 0x0C) 9 0 = rdF v pgPLK (postReg c 0x0C) 9 0 := rfl
    rw [hview, rdF_wrF _ _ _ _ _ _ (by decide) (by decide)]
    have := Nat.mod_lt (head + 1) hdepth
    omega
  have hrxz := rxOf_setRx c (some msg) (wrF pgPLK (postReg c 0x0C) 9 0 ((head + 1) % r.depth) z)
  rw [hentry] at hexec
  obtain ⟨y, hy⟩ : ∃ y, setRx c (some msg) (wrF pgPLK (postReg c 0x0C) 9 0 ((head + 1) % r.depth) z) = y := ⟨_, rfl⟩
  rw [hy] at hexec hsame hplkz hmemz hnowz hheadz hrxz
  have hall : SameData s y := hdata.trans ((SameData.of_read hacc hread).trans hsame)
  have hstands : MemStands s y := hmem.trans (hread.memStands.trans (memStands_of_mem hmemz))
  have hnowy : now y = now s := hnowz.trans ((hacc.field now).trans hnow)
  have hplky : y.plk.rxSeq = (s.plk.rxSeq + 1) % 2 ^ 32 ∧ y.plk.ack = some s.plk.rxSeq := by
    rw [hplkz, hacc.field State.plk, hplk]
    exact ⟨rfl, rfl⟩
  have hexec' := hexec msg hrxz (by rw [← hmsg]) (by rw [← hmsg])
  obtain ⟨bytes, hbytes⟩ : ∃ b, ((frame.drop 32).take 4096).take len = b := ⟨_, rfl⟩
  have hbytesLen : bytes.length = len := by
    rw [← hbytes, List.length_take, List.length_take, List.length_drop, h.whole]
    omega
  have hbytes' : bytes = (frame.drop 32).take len := by rw [← hbytes, List.take_take, Nat.min_eq_left hmax]
  have hbufy : isData y (leAt e 0 8) len = true := isData_part ((hall.isData _ _).trans hbufData) (Nat.le_refl _) (by omega)
  have hbufyWords : GoodWords y (leAt e 0 8) len :=
    goodWords_part ((hall.isData _ _).trans hbufData) (hall.goodWords hbufWords) (Nat.le_refl _) (by omega)
  obtain ⟨hclean, -⟩ := writeAs_goodWords (src := .dexvor) (bs := bytes) (by rw [hbytesLen]; exact hbufy) (by rw [hbytesLen]; exact hbufyWords)
  rw [takePayload_last (hmsg ▸ hrxz) hpos hmax hbytes hclean] at hexec'
  obtain ⟨hpayload, hrecord, hrest, hheadt, hfree, hcontrol, hseq, hack⟩ := completeRx_shows (id := id) (tag := leAt frame 20 4)
    (rx := leAt e 24 4) (start := now x) hc hbytesLen hbufy hbufyWords ((hall.isData _ _).trans hcplData) (hall.goodWords hcplWords) happart
  obtain ⟨t, ht⟩ : ∃ t, completeRx c id len (leAt frame 20 4) (leAt e 0 8) (leAt e 16 8) (leAt e 24 4) (now x) bytes y = t := ⟨_, rfl⟩
  rw [ht] at hexec' hpayload hrecord hrest hheadt hfree hcontrol hseq hack
  rw [hnowy, hnow] at hrecord
  exact ⟨_, hexec'.trans (settle_eq ..), hseq.trans hplky.1, hack.trans hplky.2, hpayload.trans hbytes', hrecord,
    (rdF_congr hheadt 9 0).trans hheadz, hfree, hcontrol, fun a ha hb => (hrest a ha hb).trans (hstands a)⟩

theorem rxOf_refuseRx (c id len reason : Nat) (y : State) : rxOf (refuseRx c id len reason y) c = some ⟨id, len, 0, none, now y, 0⟩ := by
  unfold rxOf refuseRx sendControl setRx modPlk
  dsimp only
  rw [SMap.get_put_same]

theorem modPlk_regs (f : Link → Link) (x : State) : (modPlk f x).regs = x.regs := rfl

theorem modPlk_mem (f : Link → Link) (x : State) : (modPlk f x).mem = x.mem := rfl

theorem refuseRx_stands (c id len reason : Nat) (y : State) : (refuseRx c id len reason y).regs = y.regs ∧
    (refuseRx c id len reason y).mem = y.mem := by
  unfold refuseRx sendControl setRx
  exact ⟨(modPlk_regs ..).trans (modPlk_regs ..), (modPlk_mem ..).trans (modPlk_mem ..)⟩

/-- A message without a buffer is refused. -/
theorem firstFrame_refused {frame : List Byte} {c id len : Nat} (hup : plkUp s = true) (h : FirstFrame s frame c id len) (hc : c < 4)
    (hnone : postOn s c = false ∨ rdF s pgPLK (postReg c 0x0C) 9 0 = (postRing s c).tail) :
    ∃ t, exec (.dataFrameReceive frame) s = .next t ∧ t.plk.rxSeq = (s.plk.rxSeq + 1) % 2 ^ 32 ∧ t.plk.ack = some s.plk.rxSeq ∧
      t.plk.control = controlBlock 0x14 (id + 2 ^ 32) ∧ rdB t pgPLK 0x014 17 = true ∧ MemStands s t := by
  have hpost : postReg c 0x0C < 0x1000 ∧ 0x100 ≤ postReg c 0x0C ∧ postReg c 0x08 < 0x1000 ∧ 0x100 ≤ postReg c 0x08 := by unfold postReg; omega
  obtain ⟨hreg, hreglo, hcfg, hcfglo⟩ := hpost
  have hclosed (x : State) (hx : postOn x c = false ∨ rdF x pgPLK (postReg c 0x0C) 9 0 = (postRing x c).tail) :
      (!postOn x c || decide (rdF x pgPLK (postReg c 0x0C) 9 0 = (postRing x c).tail)) = true := by
    rcases hx with hx | hx
    · rw [hx]; rfl
    · rw [decide_eq_true hx, Bool.or_true]
  have hmemory : frameMemory s c 0 = true := by
    unfold frameMemory
    dsimp only
    rw [if_pos rfl, hclosed s hnone, Bool.true_or]
  have htaken := frameTaken_shows s
  have hexec := fun m => exec_firstFrame (m := m) hup h hc hmemory
  obtain ⟨x, hx⟩ : ∃ x, frameTaken s = x := ⟨_, rfl⟩
  simp only [hx] at hexec
  rw [hx] at htaken
  obtain ⟨hplk, -, hmem, -, hregs, hon⟩ := htaken
  have hnonex : postOn x c = false ∨ rdF x pgPLK (postReg c 0x0C) 9 0 = (postRing x c).tail := by
    rw [show postOn x c = postOn s c from rdB_congr (hregs _ hcfg hcfglo) 31, rdF_congr (hregs _ hreg hreglo) 9 0]
    unfold postRing at hnone ⊢
    rw [hplk]
    exact hnone
  obtain ⟨d, hd⟩ : ∃ d, c + 0x1 * 2 ^ 8 = d := ⟨_, rfl⟩
  have hentry : takeEntry c id len x = refuseRx c id len 0x1 (raise pgPLK 0x102 sevINFO d x) := by
    unfold takeEntry
    dsimp only
    rw [if_pos (hclosed x hnonex), hd]
  have hevt := rdB_raise_evt (p := pgPLK) (c := 0x102) (v := sevINFO) (i := 17) (by decide) (by decide) (hon.trans (on_of_up hup)) d
  have hrep := raise_reports pgPLK 0x102 sevINFO d x
  rw [hentry] at hexec
  obtain ⟨y, hy⟩ : ∃ y, raise pgPLK 0x102 sevINFO d x = y := ⟨_, rfl⟩
  rw [hy] at hexec hevt hrep
  have hplky := (hrep.field State.plk).trans hplk
  obtain ⟨msg, hmsg⟩ : ∃ m : RxMsg, ⟨id, len, 0, none, now y, 0⟩ = m := ⟨_, rfl⟩
  have hrx : rxOf (refuseRx c id len 0x1 y) c = some msg := by rw [← hmsg]; exact rxOf_refuseRx ..
  have hexec' := hexec msg hrx (by rw [← hmsg]) (by rw [← hmsg])
  have hgoes : ∃ m, takePayload c (leAt frame 20 4) ((frame.drop 32).take 4096) (refuseRx c id len 0x1 y) = setRx c m (refuseRx c id len 0x1 y) := by
    unfold takePayload
    rw [hrx, ← hmsg]
    dsimp only
    split
    · exact ⟨_, rfl⟩
    · exact ⟨_, rfl⟩
  obtain ⟨m, hm⟩ := hgoes
  rw [hm] at hexec'
  have hcontrol : (setRx c m (refuseRx c id len 0x1 y)).plk.control = controlBlock 0x14 (id + 0x1 * 2 ^ 32) := rfl
  have hseq : (setRx c m (refuseRx c id len 0x1 y)).plk.rxSeq = y.plk.rxSeq ∧ (setRx c m (refuseRx c id len 0x1 y)).plk.ack = y.plk.ack := ⟨rfl, rfl⟩
  have hregs' : (setRx c m (refuseRx c id len 0x1 y)).regs = y.regs := (modPlk_regs ..).trans (refuseRx_stands ..).1
  have hmem' : (setRx c m (refuseRx c id len 0x1 y)).mem = y.mem := (modPlk_mem ..).trans (refuseRx_stands ..).2
  obtain ⟨t, ht⟩ : ∃ t, setRx c m (refuseRx c id len 0x1 y) = t := ⟨_, rfl⟩
  rw [ht] at hexec' hcontrol hseq hregs' hmem'
  rw [hplky] at hseq
  rw [Nat.one_mul] at hcontrol
  exact ⟨_, hexec'.trans (settle_eq ..), hseq.1, hseq.2, hcontrol, (rdB_congr (rd_of_regs hregs' ..) 17).trans hevt,
    hmem.trans (memStands_of_mem (hmem'.trans (hrep.field State.mem)))⟩

end

/-- Settles O54: the end of a SEND with its job, a frame by the link's record after it; a message that fits its posted buffer fills it and
completes (`completeRx_shows`). -/
theorem messagesArriveAndEnd : Obligations.MessagesArriveAndEnd :=
  ⟨fun _ _ _ _ _ hup hmsg hfind => ⟨sendEnds_shows hup hmsg hfind rfl rfl, sendEnds_shows hup hmsg hfind rfl rfl⟩,
    fun _ _ _ _ _ hup hc hrx hid hent huniq hgood => abandon_shows hup hc hrx hid hent huniq hgood,
    fun _ _ _ _ htail hmay => plkRxDoorbell_shows htail hmay,
    fun _ _ hup => ⟨badFrame_shows hup, strayFrame_shows hup, fun hwhole hcrc hseq hdata hc hidx hpos hmax =>
      ⟨fun hon hne hdepth hdepth' hslot hbad hfits hbuf hcpl happart =>
        firstFrame_received hup ⟨hwhole, hcrc, hseq, hdata, rfl, hidx, rfl, rfl⟩ hc hpos hmax rfl rfl hon hne hdepth hdepth' hslot rfl hbad hfits
          hbuf hcpl happart,
        fun hnone => firstFrame_refused hup ⟨hwhole, hcrc, hseq, hdata, rfl, hidx, rfl, rfl⟩ hc hnone⟩⟩⟩

end Sys2Proof.Machine
end

section
/-!
PROOFS. Reports of one page, by the registers of it that they may write.
-/
namespace Sys2Proof.Machine

/-- A report that writes the registers `offs` of one page at most. -/
structure PageReport (p : Nat) (offs : List Nat) (s t : State) : Prop where
  reports : ReportsOnly s t
  outbox : s.outbox <+: t.outbox
  regs : ∀ r off, off < 0x1000 → ¬(r = p ∧ off ∈ offs) → rd t r off = rd s r off

namespace PageReport

variable {p : Nat} {offs : List Nat} {s t u a b : State}

theorem refl (p : Nat) (offs : List Nat) (s : State) : PageReport p offs s s := ⟨.refl s, List.prefix_rfl, fun _ _ _ _ => rfl⟩

theorem trans (h : PageReport p offs s t) (g : PageReport p offs t u) : PageReport p offs s u :=
  ⟨h.reports.trans g.reports, h.outbox.trans g.outbox, fun r off ho hne => (g.regs r off ho hne).trans (h.regs r off ho hne)⟩

theorem ite {c : Prop} [Decidable c] (ha : PageReport p offs s a) (hb : PageReport p offs s b) : PageReport p offs s (if c then a else b) := by
  split
  · exact ha
  · exact hb

theorem wr {o : Nat} (ho : o < 0x1000) (hmem : o ∈ offs) (v : Word) (s : State) : PageReport p offs s (wr p o v s) :=
  ⟨wr_reports .., List.prefix_rfl, fun _ _ ho' hne => rd_wr_other ho ho' (fun h => hne ⟨h.1, h.2 ▸ hmem⟩) v s⟩

theorem wrN {o : Nat} (ho : o < 0x1000) (hmem : o ∈ offs) (v : Nat) (s : State) : PageReport p offs s (wrN p o v s) := wr ho hmem _ s

theorem wrF {o : Nat} (ho : o < 0x1000) (hmem : o ∈ offs) (hi lo v : Nat) (s : State) : PageReport p offs s (wrF p o hi lo v s) := wr ho hmem _ s

theorem wrB {o : Nat} (ho : o < 0x1000) (hmem : o ∈ offs) (i : Nat) (v : Bool) (s : State) : PageReport p offs s (wrB p o i v s) := wr ho hmem _ s

theorem raise (hmem : 0x00C ∈ offs ∧ 0x014 ∈ offs ∧ 0x020 ∈ offs ∧ 0x024 ∈ offs) (c v d : Nat) (s : State) :
    PageReport p offs s (raise p c v d s) := by
  obtain ⟨h00c, h014, h020, h024⟩ := hmem
  refine ⟨raise_reports .., raise_prefix .., fun r off ho hne => rd_raise ho (fun h => hne ⟨h.1, ?_⟩) ..⟩
  obtain ⟨-, rfl | rfl | rfl | rfl⟩ := h <;> assumption

/-- An event below DEGRADED writes `PG_EVT` alone. -/
theorem raiseLow {v : Nat} (hv : v < sevDEGRADED) (hmem : 0x014 ∈ offs) (c d : Nat) (s : State) : PageReport p offs s (Machine.raise p c v d s) :=
  ⟨raise_reports .., raise_prefix .., fun _ _ ho hne => rd_raise_low ho hv (fun h => hne ⟨h.1, h.2 ▸ hmem⟩) ..⟩

theorem incCnt {o : Nat} (ho : o < 0x1000) (hmem : o ∈ offs) (hevt : 0x014 ∈ offs) (n : Nat) (s : State) : PageReport p offs s (incCnt p o n s) :=
  ⟨incCnt_reports .., incCnt_prefix .., fun r off ho' hne => rd_incCnt_ne ho ho' (fun h => hne ⟨h.1, by
    rcases h.2 with rfl | rfl <;> assumption⟩) n s⟩

theorem regsStandBut (h : PageReport p offs s t) : RegsStandBut [p] s t :=
  fun _ _ ho hp => h.regs _ _ ho fun hx => hp (List.mem_singleton.mpr hx.1)

theorem data (h : PageReport p offs s t) (hp : p ≠ pgPWR ∧ ¬(0x010 ≤ p ∧ p ≤ pgRES)) : SameData s t := .of_report hp h.reports h.regsStandBut

theorem mem (h : PageReport p offs s t) : MemStands s t := memStands_of_mem (h.reports.field State.mem)

theorem pageOn (h : PageReport p offs s t) (hp : p ≠ pgPWR) (p' : Nat) : pageOn t p' = pageOn s p' :=
  pageOn_of_regsStandBut hp h.regsStandBut (h.reports.field State.pd0) p'

theorem owner (h : PageReport p offs s t) (hnot : 0x028 ∉ offs) (p' : Nat) : owner t p' = owner s p' := by
  unfold Machine.owner
  rw [rdF_congr (h.regs p' 0x028 (by decide) (fun hx => hnot hx.2)) 0 0]

end PageReport

end Sys2Proof.Machine
end

section
/-!
PROOFS. The bridge takes the compartment's blocks and passes requests to it (R528, R530, R531, R552, R556, R557).
-/
namespace Sys2Proof.Machine

theorem mbr_noMemory : pgMBR ≠ pgPWR ∧ ¬(0x010 ≤ pgMBR ∧ pgMBR ≤ pgRES) := by decide

theorem mbr_uncounted (off : Nat) : ¬counted pgMBR off := by unfold counted pgMBR pgRES pgMREG; omega

section
variable {s : State}

/-! ### Requests -/

/-- A frame waits at the compartment where MET_VIN is there. -/
theorem sendFrame_vin (h : s.met.vin = true) (code param : Nat) : sendFrame code param s =
    modMet (fun m => { m with mailbox := m.mailbox ++ [⟨mkFrame code s.mbr.txSeq param, m.ct⟩] })
      (modMbr (fun b => { b with txSeq := (b.txSeq + 1) % 256 }) s) := by
  unfold sendFrame
  dsimp only
  rw [h, if_neg (by decide)]

/-- The state a request leaves before its frame is sent. -/
def asking (s : State) : State := wrB pgMBR 0x0B4 0 true (modMbr (fun b => { b with readSeq := some b.txSeq }) s)

theorem asking_shows (s : State) : rdB (asking s) pgMBR 0x0B4 0 = true ∧ (asking s).mbr.txSeq = s.mbr.txSeq ∧ (asking s).met = s.met ∧
    (asking s).mem = s.mem ∧ RegsStandBut [pgMBR] s (asking s) := by
  have hregs : RegsStandBut [pgMBR] s (modMbr (fun b => { b with readSeq := some b.txSeq }) s) := regsStandBut_of_regs _ rfl
  have htx : (modMbr (fun b => { b with readSeq := some b.txSeq }) s).mbr.txSeq = s.mbr.txSeq := rfl
  have hmet : (modMbr (fun b => { b with readSeq := some b.txSeq }) s).met = s.met := rfl
  have hmem : (modMbr (fun b => { b with readSeq := some b.txSeq }) s).mem = s.mem := rfl
  unfold asking
  obtain ⟨x, hx⟩ : ∃ x, modMbr (fun b => { b with readSeq := some b.txSeq }) s = x := ⟨_, rfl⟩
  rw [hx] at hregs htx hmet hmem ⊢
  exact ⟨rdB_wrB _ _ _ _ _ (by decide), htx, hmet, hmem, hregs.trans (regsStandBut_wr (by decide) _ _ _)⟩

theorem mbrReq_taken {q : Port} {code : Nat} {o : Host.Outcome State Fault Refusal} (hmay : MayWrite s q pgMBR 0x0A0) (hvin : s.met.vin = true)
    (ho : o = settle s (gateWrite q pgMBR 0x0A0 (effMbrReq q code) s)) (hcode : 3 ≤ code ∧ code ≤ 5) (hfree : rdB s pgMBR 0x0B4 0 = false)
    (hfence : fenceBit s pgMBR = false) :
    ∃ t, o = .next t ∧ rdB t pgMBR 0x0B4 0 = true ∧ t.mbr.txSeq = (s.mbr.txSeq + 1) % 256 ∧ MemStands s t ∧ RegsStandBut [pgMBR] s t ∧
      t.met = { s.met with mailbox := s.met.mailbox ++ [⟨mkFrame code s.mbr.txSeq (rd64 s pgMBR 0x0A4), s.met.ct⟩] } := by
  obtain ⟨hlo, hhi⟩ := hcode
  have hno : ¬(code < 3 ∨ 5 < code ∨ rdB s pgMBR 0x0B4 0 = true ∨ fenceBit s pgMBR = true) := by
    rw [hfree, hfence]
    rintro (h | h | h | h)
    · omega
    · omega
    · cases h
    · cases h
  have hexec : o = settle s (sendFrame code (rd64 s pgMBR 0x0A4) (asking s)) := by
    rw [ho, gateWrite_mayWrite hmay]
    unfold effMbrReq
    rw [if_neg hno]
    rfl
  obtain ⟨hbusy, htx, hmet, hmem, hregs⟩ := asking_shows s
  obtain ⟨x, hx⟩ : ∃ x, asking s = x := ⟨_, rfl⟩
  rw [hx] at hexec hbusy htx hmet hmem hregs
  rw [sendFrame_vin (hmet ▸ hvin)] at hexec
  refine ⟨_, hexec.trans (settle_eq ..), hbusy, ?_, memStands_of_mem hmem, hregs, ?_⟩
  · exact congrArg (fun n => (n + 1) % 256) htx
  · rw [← htx, ← hmet]; rfl

theorem mbrReq_refused {q : Port} {code : Nat} {o : Host.Outcome State Fault Refusal} (hmay : MayWrite s q pgMBR 0x0A0)
    (ho : o = settle s (gateWrite q pgMBR 0x0A0 (effMbrReq q code) s)) (h : rdB s pgMBR 0x0B4 0 = true ∨ fenceBit s pgMBR = true) :
    ∃ t, o = .next t ∧ Told t q pgMBR cCMD_REJ (0x0A0 + q.num * 2 ^ 20) ∧ t.met = s.met ∧ t.mbr = s.mbr := by
  have hexec : o = settle s (Machine.refuse q pgMBR cCMD_REJ (0x0A0 + q.num * 2 ^ 20) s) := by
    rw [ho, gateWrite_mayWrite hmay]
    unfold effMbrReq
    rw [if_pos (.inr (.inr h))]
    rfl
  have hd : 0x0A0 + q.num * 2 ^ 20 < 2 ^ 32 := by
    have hq : q.num ≤ 1 := by cases q <;> decide
    omega
  have htold := told_refuse q pgMBR cCMD_REJ hd s
  have hrep := refuse_reports q pgMBR cCMD_REJ (0x0A0 + q.num * 2 ^ 20) s
  obtain ⟨t, ht⟩ : ∃ t, Machine.refuse q pgMBR cCMD_REJ (0x0A0 + q.num * 2 ^ 20) s = t := ⟨_, rfl⟩
  rw [ht] at hexec htold hrep
  exact ⟨_, hexec.trans (settle_eq ..), htold, hrep.field State.met, hrep.field State.mbr⟩

/-- The three read requests of a host. -/
theorem mbrRead_exec (q : Port) : ∀ x ∈ [((.mbrReadRecord q : Instr), 3), (.mbrReadAudit q, 4), (.mbrReadIdentity q, 5)],
    exec x.1 s = settle s (gateWrite q pgMBR 0x0A0 (effMbrReq q x.2) s) ∧ 3 ≤ x.2 ∧ x.2 ≤ 5 := by
  intro x hx
  simp only [List.mem_cons, List.not_mem_nil, or_false] at hx
  rcases hx with rfl | rfl | rfl
  · exact ⟨rfl, Nat.le_of_ble_eq_true rfl, Nat.le_of_ble_eq_true rfl⟩
  · exact ⟨rfl, Nat.le_of_ble_eq_true rfl, Nat.le_of_ble_eq_true rfl⟩
  · exact ⟨rfl, Nat.le_of_ble_eq_true rfl, Nat.le_of_ble_eq_true rfl⟩

theorem tbSyncSend_shows (hon : mbrOn s = true) (hen : enabled s pgMBR = true) (hsync : rdB s pgMBR 0x084 0 = true)
    (hdue : s.mbr.lastSync + 100000000 ≤ now s) (hvin : s.met.vin = true) :
    ∃ t, exec .tbSyncSend s = .next t ∧ t.mbr.lastSync = now s ∧ t.regs = s.regs ∧ MemStands s t ∧
      t.met = { s.met with mailbox := s.met.mailbox ++ [⟨mkFrame 6 s.mbr.txSeq (now s % 2 ^ 64), s.met.ct⟩] } := by
  have hexec : exec .tbSyncSend s = settle s (sendFrame 6 (now s % 2 ^ 64) (modMbr (fun b => { b with lastSync := now s }) s)) :=
    if_pos (by rw [hon, hen, hsync, decide_eq_true hdue]; rfl)
  have hvin' : (modMbr (fun b => { b with lastSync := now s }) s).met.vin = true := hvin
  rw [sendFrame_vin hvin'] at hexec
  exact ⟨_, hexec.trans (settle_eq ..), rfl, rfl, memStands_of_mem rfl, rfl⟩

/-! ### Wheel samples -/

/-- What a block leaves beyond its presence: what the block's sequence and time are, and that the bridge is present. -/
structure BlockKeeps (s t : State) : Prop where
  met : t.met = s.met
  lastSeq : t.mbr.lastSeq = s.mbr.lastSeq
  lastBlock : t.mbr.lastBlock = s.mbr.lastBlock
  lastAbsent : t.mbr.lastAbsent = s.mbr.lastAbsent
  count : rd t pgMBR 0x0B8 = rd s pgMBR 0x0B8
  present : rdB t pgMBR 0x080 0 = rdB s pgMBR 0x080 0
  outbox : s.outbox <+: t.outbox

namespace BlockKeeps

variable {s t u : State}

theorem refl (s : State) : BlockKeeps s s := ⟨rfl, rfl, rfl, rfl, rfl, rfl, List.prefix_rfl⟩

theorem trans (h : BlockKeeps s t) (g : BlockKeeps t u) : BlockKeeps s u :=
  ⟨g.met.trans h.met, g.lastSeq.trans h.lastSeq, g.lastBlock.trans h.lastBlock, g.lastAbsent.trans h.lastAbsent, g.count.trans h.count,
    g.present.trans h.present, h.outbox.trans g.outbox⟩

theorem ite {c : Prop} [Decidable c] {a b : State} (ha : BlockKeeps s a) (hb : BlockKeeps s b) : BlockKeeps s (if c then a else b) := by
  split
  · exact ha
  · exact hb

theorem report {offs : List Nat} (h : PageReport pgMBR offs s t) (hno : 0x080 ∉ offs ∧ 0x0B8 ∉ offs) : BlockKeeps s t := by
  have hmbr := h.reports.field State.mbr
  exact ⟨h.reports.field State.met, by rw [hmbr], by rw [hmbr], by rw [hmbr], h.regs _ _ (by decide) fun hx => hno.2 hx.2,
    rdB_congr (h.regs _ _ (by decide) fun hx => hno.1 hx.2) 0, h.outbox⟩

theorem accounted (h : Accounted s t) : BlockKeeps s t := by
  have hmbr := h.field State.mbr
  exact ⟨h.field State.met, by rw [hmbr], by rw [hmbr], by rw [hmbr], h.regs _ _ (by decide) (mbr_uncounted _),
    rdB_congr (h.regs _ _ (by decide) (mbr_uncounted _)) 0, h.outbox⟩

end BlockKeeps

/-- The registers of the wheel ring that a sample may write, and the event bits. -/
def wheelRegs : List Nat := [0x00C, 0x014, 0x020, 0x024, 0x098, 0x09C]

theorem wheelSample_keeps (payload : List Byte) (s : State) : BlockKeeps s (wheelSample payload s) := by
  unfold wheelSample
  dsimp only
  refine .ite (.report (.incCnt (offs := wheelRegs) (by decide) (by decide) (by decide) 1 s) (by decide)) ?_
  exact (BlockKeeps.accounted (storeAs_accounted .intake _ _ s)).trans
    (.report (.wrN (offs := wheelRegs) (by decide) (by decide) _ _) (by decide))

/-- A sample that finds room is one record of the ring, at TAIL. -/
theorem wheelSample_stored {payload : List Byte} {a tail depth : Nat} (htail : rdF s pgMBR 0x098 15 0 = tail)
    (hdepth : max 1 (inRing s pgMBR false).depth = depth) (ha : (inRing s pgMBR false).base + tail * 32 = a) (hlen : payload.length ≤ 24)
    (hon : ringOn s pgMBR wheelRing = true) (hen : enabled s pgMBR = true) (hfence : fenceBit s pgMBR = false)
    (hroom : (tail + 1) % depth ≠ rdF s pgMBR 0x094 15 0 % depth) (hgood : GoodRange s .intake a 32) :
    getBytes (wheelSample payload s) a 32 = leBytes 8 (now s) ++ payload ++ zeros (24 - payload.length) ∧
      rd (wheelSample payload s) pgMBR 0x098 = BitVec.ofNat 32 ((tail + 1) % depth) ∧ MemStandsBut a 32 s (wheelSample payload s) := by
  have heq : wheelSample payload s = wrN pgMBR 0x098 ((tail + 1) % depth)
      (storeAs .intake a (leBytes 8 (now s) ++ payload ++ zeros (24 - payload.length)) s) := by
    unfold wheelSample
    dsimp only
    rw [htail, hdepth, ha, hon, hen, hfence, decide_eq_false hroom, hgood.1, if_neg (by decide)]
  have hbytes : (leBytes 8 (now s) ++ payload ++ zeros (24 - payload.length)).length = 32 := by
    rw [List.length_append, List.length_append, show (zeros (24 - payload.length)).length = 24 - payload.length from List.length_replicate,
      show (leBytes 8 (now s)).length = 8 from rfl]
    omega
  obtain ⟨bs, hbs⟩ : ∃ bs, leBytes 8 (now s) ++ payload ++ zeros (24 - payload.length) = bs := ⟨_, rfl⟩
  rw [hbs] at heq hbytes ⊢
  have hwrote := storeAs_good (src := .intake) (bs := bs) (by rw [hbytes]; exact hgood)
  have hget := hwrote.getBytes
  have hbut := hwrote.standsBut
  rw [hbytes] at hget hbut
  rw [heq]
  exact ⟨hget, rd_wrN_same .., hbut⟩

/-! ### Presence -/

/-- A report of the bridge's page that may also change what the bridge remembers. -/
structure MbrReport (offs : List Nat) (s t : State) : Prop where
  eq : t = { s with regs := t.regs, outbox := t.outbox, mbr := t.mbr }
  outbox : s.outbox <+: t.outbox
  regs : ∀ r off, off < 0x1000 → ¬(r = pgMBR ∧ off ∈ offs) → rd t r off = rd s r off

namespace MbrReport

variable {offs : List Nat} {s t u : State}

theorem trans (h : MbrReport offs s t) (g : MbrReport offs t u) : MbrReport offs s u := by
  refine ⟨?_, h.outbox.trans g.outbox, fun r off ho hne => (g.regs r off ho hne).trans (h.regs r off ho hne)⟩
  have heq := g.eq
  rw [h.eq] at heq
  exact heq

theorem report (h : PageReport pgMBR offs s t) : MbrReport offs s t := by
  refine ⟨?_, h.outbox, h.regs⟩
  rw [h.reports.field State.mbr]
  exact h.reports.eq

theorem modMbr (offs : List Nat) (f : Bridge → Bridge) (s : State) : MbrReport offs s (modMbr f s) := ⟨rfl, List.prefix_rfl, fun _ _ _ _ => rfl⟩

theorem field {α : Type} (h : MbrReport offs s t) (f : State → α)
    (hf : ∀ x r o m, f { x with regs := r, outbox := o, mbr := m } = f x := by exact fun _ _ _ _ => rfl) : f t = f s :=
  (congrArg f h.eq).trans (hf ..)

theorem data (h : MbrReport offs s t) : SameData s t := by
  refine ⟨.of_regs (h.field State.pd0) (h.field State.tb) (congrArg _ (h.field State.dram)) (h.field State.regul) fun r off hr => ?_,
    DataStands.marksStand ⟨h.field State.mem, h.field State.marks⟩⟩
  obtain ⟨ho, hpage, -⟩ := hr
  refine h.regs r off ho fun hm => ?_
  obtain ⟨rfl, -⟩ := hm
  exact hpage.elim mbr_noMemory.1 mbr_noMemory.2

theorem mem (h : MbrReport offs s t) : MemStands s t := memStands_of_mem (h.field State.mem)

theorem owner (h : MbrReport offs s t) (hnot : 0x028 ∉ offs) (p' : Nat) : owner t p' = owner s p' := by
  unfold Machine.owner
  rw [rdF_congr (h.regs p' 0x028 (by decide) (fun hx => hnot hx.2)) 0 0]

end MbrReport

/-- The correct blocks in a row with this one. -/
def runWith (b : Bridge) (seq : Nat) : Nat := match b.lastSeq with | some l => if seq = (l + 1) % 256 then b.run + 1 else 1 | none => 1

/-- The bridge's record of a correct block. -/
def notedBlock (b : Bridge) (seq at_ : Nat) : Bridge := { b with lastSeq := some seq, run := runWith b seq, lastBlock := at_, absentTold := false }

/-- The registers that presence may write. -/
def presenceRegs : List Nat := [0x014, 0x080, 0x0B8, 0x0C0]

/-- The bridge is present again. -/
def presentAgain (s : State) : State := raise pgMBR 0x104 sevINFO 0 (wrB pgMBR 0x080 0 true (wrB pgMBR 0x080 1 false s))

theorem presentAgain_shows (s : State) : PageReport pgMBR presenceRegs s (presentAgain s) ∧ rdB (presentAgain s) pgMBR 0x080 0 = true ∧
    Told (presentAgain s) (owner s pgMBR) pgMBR 0x104 0 := by
  have habsent := PageReport.wrB (p := pgMBR) (offs := presenceRegs) (o := 0x080) (by decide) (by decide) 1 false s
  unfold presentAgain
  obtain ⟨x, hx⟩ : ∃ x, wrB pgMBR 0x080 1 false s = x := ⟨_, rfl⟩
  rw [hx] at habsent ⊢
  have hpresent := habsent.trans (PageReport.wrB (p := pgMBR) (offs := presenceRegs) (o := 0x080) (by decide) (by decide) 0 true x)
  have hbit := rdB_wrB pgMBR 0x080 0 true x (by decide)
  obtain ⟨y, hy⟩ : ∃ y, wrB pgMBR 0x080 0 true x = y := ⟨_, rfl⟩
  rw [hy] at hpresent hbit ⊢
  refine ⟨hpresent.trans (.raiseLow (by decide) (by decide) ..), (rdB_congr (rd_raise (by decide) (by decide) ..) 0).trans hbit, ?_⟩
  rw [← hpresent.owner (by decide) pgMBR]
  refine told_raise (d := 0) ?_
  have hdest : destOf y pgMBR 0x104 sevINFO (evtBit pgMBR 0x104 sevINFO) = (decide (owner y pgMBR = .a), decide (owner y pgMBR = .b)) := rfl
  rw [hdest]
  cases owner y pgMBR <;> rfl

/-- What a correct block's presence leaves. -/
structure PresenceTaken (seq : Nat) (s x : State) : Prop where
  report : MbrReport presenceRegs s x
  mbr : x.mbr = notedBlock s.mbr seq (now s)
  count : rd x pgMBR 0x0B8 = BitVec.ofNat 32 ((rd s pgMBR 0x0B8).toNat + 1)
  present : 3 ≤ runWith s.mbr seq → rdB x pgMBR 0x080 0 = true ∧ (rdB s pgMBR 0x080 0 = false → Told x (owner s pgMBR) pgMBR 0x104 0)

theorem takePresence_eq (seq : Nat) (s : State) : ∃ missing, takePresence seq s =
    (let t := modMbr (fun b => { b with lastSeq := some seq, run := runWith s.mbr seq, lastBlock := now s, absentTold := false }) (incCnt pgMBR 0x0B8 1 s)
     let u := if missing = 0 then t else incCnt pgMBR 0x0C0 missing t
     if 3 ≤ runWith s.mbr seq ∧ rdB u pgMBR 0x080 0 = false then presentAgain u else u) := ⟨_, rfl⟩

theorem takePresence_shows (seq : Nat) (s : State) : PresenceTaken seq s (takePresence seq s) := by
  obtain ⟨missing, heq⟩ := takePresence_eq seq s
  rw [heq]
  dsimp only
  have hcount := PageReport.incCnt (p := pgMBR) (offs := presenceRegs) (o := 0x0B8) (by decide) (by decide) (by decide) 1 s
  have hrd := rd_incCnt (p := pgMBR) (off := 0x0B8) (by decide) (by decide) 1 s
  have hstatus := rd_incCnt_ne (p := pgMBR) (off := 0x0B8) (p' := pgMBR) (off' := 0x080) (by decide) (by decide) (by decide) 1 s
  obtain ⟨x, hx⟩ : ∃ x, incCnt pgMBR 0x0B8 1 s = x := ⟨_, rfl⟩
  rw [hx] at hcount hrd hstatus ⊢
  have hnote := (MbrReport.report hcount).trans (.modMbr presenceRegs
    (fun b => { b with lastSeq := some seq, run := runWith s.mbr seq, lastBlock := now s, absentTold := false }) x)
  have hmbr : (modMbr (fun b => { b with lastSeq := some seq, run := runWith s.mbr seq, lastBlock := now s, absentTold := false }) x).mbr =
      notedBlock s.mbr seq (now s) := by
    change ({ x.mbr with lastSeq := some seq, run := runWith s.mbr seq, lastBlock := now s, absentTold := false } : Bridge) = _
    rw [hcount.reports.field State.mbr]
    rfl
  have hregs : (modMbr (fun b => { b with lastSeq := some seq, run := runWith s.mbr seq, lastBlock := now s, absentTold := false }) x).regs = x.regs := rfl
  obtain ⟨y, hy⟩ : ∃ y, modMbr (fun b => { b with lastSeq := some seq, run := runWith s.mbr seq, lastBlock := now s, absentTold := false }) x = y :=
    ⟨_, rfl⟩
  rw [hy] at hnote hmbr hregs ⊢
  have hmiss : PageReport pgMBR [0x014, 0x0C0] y (if missing = 0 then y else incCnt pgMBR 0x0C0 missing y) :=
    .ite (.refl ..) (.incCnt (by decide) (by decide) (by decide) missing y)
  obtain ⟨z, hz⟩ : ∃ z, (if missing = 0 then y else incCnt pgMBR 0x0C0 missing y) = z := ⟨_, rfl⟩
  rw [hz] at hmiss ⊢
  have hz80 : rd z pgMBR 0x080 = rd s pgMBR 0x080 :=
    (hmiss.regs _ _ (by decide) (by decide)).trans ((rd_of_regs hregs ..).trans hstatus)
  have hzb8 : rd z pgMBR 0x0B8 = BitVec.ofNat 32 ((rd s pgMBR 0x0B8).toNat + 1) :=
    (hmiss.regs _ _ (by decide) (by decide)).trans ((rd_of_regs hregs ..).trans hrd)
  have hzrep : MbrReport presenceRegs s z := by
    refine hnote.trans ⟨(MbrReport.report hmiss).eq, hmiss.outbox, fun r off ho hne => hmiss.regs r off ho fun h => hne ⟨h.1, ?_⟩⟩
    have hmem := h.2
    simp only [List.mem_cons, List.not_mem_nil, or_false] at hmem
    rcases hmem with rfl | rfl <;> decide
  have hzmbr := (hmiss.reports.field State.mbr).trans hmbr
  obtain ⟨hagain, hbit, htold⟩ := presentAgain_shows z
  rw [hzrep.owner (by decide) pgMBR] at htold
  by_cases hcond : 3 ≤ runWith s.mbr seq ∧ rdB z pgMBR 0x080 0 = false
  · rw [if_pos hcond]
    have hb8 := rd_raise_low (p := pgMBR) (p' := pgMBR) (off' := 0x0B8) (v := sevINFO) (by decide) (by decide) (by decide) 0x104 0
      (wrB pgMBR 0x080 0 true (wrB pgMBR 0x080 1 false z))
    have hw (i : Nat) (b : Bool) (v : State) : rd (wrB pgMBR 0x080 i b v) pgMBR 0x0B8 = rd v pgMBR 0x0B8 :=
      rd_wrB_other (by decide) (by decide) (by decide) i b v
    refine ⟨hzrep.trans (.report hagain), (hagain.reports.field State.mbr).trans hzmbr, ?_, fun _ => ⟨hbit, fun _ => htold⟩⟩
    refine Eq.trans ?_ hzb8
    refine hb8.trans ?_
    rw [hw, hw]
  · rw [if_neg hcond]
    refine ⟨hzrep, hzmbr, hzb8, fun hrun => ?_⟩
    have hup : rdB z pgMBR 0x080 0 = true := by
      cases h : rdB z pgMBR 0x080 0 with
      | true => rfl
      | false => exact absurd ⟨hrun, h⟩ hcond
    refine ⟨hup, fun hs => ?_⟩
    rw [← rdB_congr hz80 0, hup] at hs
    cases hs

end

end Sys2Proof.Machine
end

section
/-!
PROOFS. What each block says to the bridge, and the commands of its own (R528, R530, R531, R552, R556, R557).
-/
namespace Sys2Proof.Machine

section
variable {s : State}

theorem BlockKeeps.modMbr {f : Bridge → Bridge} (h : ∀ b, (f b).lastSeq = b.lastSeq ∧ (f b).lastBlock = b.lastBlock ∧ (f b).lastAbsent = b.lastAbsent)
    (s : State) : BlockKeeps s (modMbr f s) := by
  obtain ⟨hseq, hblock, habsent⟩ := h s.mbr
  exact ⟨rfl, hseq, hblock, habsent, rfl, rfl, List.prefix_rfl⟩

/-- The event registers. -/
def eventRegs : List Nat := [0x00C, 0x014, 0x020, 0x024]

theorem BlockKeeps.event (c v d : Nat) (s : State) : BlockKeeps s (raise pgMBR c v d s) :=
  .report (.raise (offs := eventRegs) (by decide) c v d s) (by decide)

/-! ### A STATUS block -/

/-- `MBR_STATUS` with what a STATUS block says. -/
def statusWord (w : Word) (st causes : Nat) : Word :=
  setFld (setFld (setFld (setFld w 2 2 (b2n (bitOf st 0))) 3 3 (b2n (bitOf st 1))) 4 4 (b2n (decide (causes ≠ 0)))) 15 8 causes

theorem statusWord_shows (w : Word) (st : Nat) {causes : Nat} (h : causes < 256) : flag (statusWord w st causes) 2 = bitOf st 0 ∧
    flag (statusWord w st causes) 0 = flag w 0 ∧ fld (statusWord w st causes) 15 8 = causes := by
  unfold statusWord
  refine ⟨?_, ?_, ?_⟩
  · rw [flag_setFld_ne _ _ _ _ _ (by decide) (by decide) (by decide), flag_setFld_ne _ _ _ _ _ (by decide) (by decide) (by decide),
      flag_setFld_ne _ _ _ _ _ (by decide) (by decide) (by decide), flag_setFld _ _ _ (by decide)]
  · rw [flag_setFld_ne _ _ _ _ _ (by decide) (by decide) (by decide), flag_setFld_ne _ _ _ _ _ (by decide) (by decide) (by decide),
      flag_setFld_ne _ _ _ _ _ (by decide) (by decide) (by decide), flag_setFld_ne _ _ _ _ _ (by decide) (by decide) (by decide)]
  · rw [fld_setFld _ _ _ _ (by decide) (by decide)]
    exact Nat.mod_eq_of_lt h

/-- The register a STATUS block writes. -/
def statusNoted (st causes : Nat) (s : State) : State :=
  wrF pgMBR 0x080 15 8 causes (wrB pgMBR 0x080 4 (decide (causes ≠ 0)) (wrB pgMBR 0x080 3 (bitOf st 1) (wrB pgMBR 0x080 2 (bitOf st 0) s)))

theorem rd_statusNoted (st causes : Nat) (s : State) : rd (statusNoted st causes s) pgMBR 0x080 = statusWord (rd s pgMBR 0x080) st causes := by
  unfold statusNoted wrF
  rw [rd_wr_same, rd_wrB_same, rd_wrB_same, rd_wrB_same]
  rfl

theorem statusNoted_report (st causes : Nat) (s : State) : PageReport pgMBR [0x080] s (statusNoted st causes s) := by
  have hb (i : Nat) (b : Bool) (x : State) : PageReport pgMBR [0x080] x (wrB pgMBR 0x080 i b x) := .wrB (by decide) (by decide) i b x
  have hf (x : State) : PageReport pgMBR [0x080] x (wrF pgMBR 0x080 15 8 causes x) := .wrF (by decide) (by decide) 15 8 causes x
  exact (hb 2 _ s).trans ((hb 3 _ _).trans ((hb 4 _ _).trans (hf _)))

theorem byteAt_lt (bs : List Byte) (o : Nat) : byteAt bs o < 256 := ((bs.drop o).headD 0).isLt

theorem takeStatus_report {x : State} {b : List Byte} : PageReport pgMBR eventRegs (statusNoted (leAt b 8 4) (byteAt b 20) x) (takeStatus b x) := by
  have hraise (c v d : Nat) (y : State) : PageReport pgMBR eventRegs y (raise pgMBR c v d y) := .raise (by decide) c v d y
  have hfirst : PageReport pgMBR eventRegs (statusNoted (leAt b 8 4) (byteAt b 20) x)
      (if flag (rd x pgMBR 0x080) 2 ≠ bitOf (leAt b 8 4) 0 then
        raise pgMBR 0x105 sevINFO (b2n (!bitOf (leAt b 8 4) 0)) (statusNoted (leAt b 8 4) (byteAt b 20) x)
       else statusNoted (leAt b 8 4) (byteAt b 20) x) := .ite (hraise ..) (.refl ..)
  exact hfirst.trans (.ite (hraise ..) (.refl ..))

theorem takeStatus_shows (b : List Byte) (s : State) : BlockKeeps s (takeStatus b s) ∧
    rdB (takeStatus b s) pgMBR 0x080 2 = bitOf (leAt b 8 4) 0 ∧ rdF (takeStatus b s) pgMBR 0x080 15 8 = byteAt b 20 ∧
    MemStands s (takeStatus b s) := by
  have hnote := statusNoted_report (leAt b 8 4) (byteAt b 20) s
  have hword := rd_statusNoted (leAt b 8 4) (byteAt b 20) s
  have htell := takeStatus_report (b := b) (x := s)
  obtain ⟨h2, h0, hcauses⟩ := statusWord_shows (rd s pgMBR 0x080) (leAt b 8 4) (byteAt_lt b 20)
  obtain ⟨x, hx⟩ : ∃ x, statusNoted (leAt b 8 4) (byteAt b 20) s = x := ⟨_, rfl⟩
  obtain ⟨t, ht⟩ : ∃ t, takeStatus b s = t := ⟨_, rfl⟩
  rw [hx] at hnote hword htell
  rw [ht] at htell ⊢
  have hword' := (htell.regs pgMBR 0x080 (by decide) (by decide)).trans hword
  rw [← hword'] at h2 h0 hcauses
  have hmbr := (htell.reports.field State.mbr).trans (hnote.reports.field State.mbr)
  refine ⟨⟨(htell.reports.field State.met).trans (hnote.reports.field State.met), by rw [hmbr], by rw [hmbr], by rw [hmbr],
    (htell.regs _ _ (by decide) (by decide)).trans (hnote.regs _ _ (by decide) (by decide)), h0, hnote.outbox.trans htell.outbox⟩, h2, hcauses,
    hnote.mem.trans htell.mem⟩

/-! ### A RESPONSE block -/

/-- The data of a RESPONSE block is copied. -/
def responseCopied (b : List Byte) (s : State) : State :=
  let a := (rd s pgMBR 0x0AC).toNat / 128 * 128 + rdF s pgMBR 0x0B0 7 0 * 2 ^ 32
  if isData s a 128 && canUse s .intake a 128 then storeAs .intake a b s else s

/-- The register of requests shows what was answered. -/
def responseNoted (seq result : Nat) (s : State) : State := wrF pgMBR 0x0B4 23 16 result (wrF pgMBR 0x0B4 15 8 seq s)

/-- The request outstanding is answered. -/
def requestAnswered (s : State) : State := wrB pgMBR 0x0B4 0 false (modMbr (fun x => { x with readSeq := none }) s)

/-- The joint order's request is answered (R557). -/
def journeyAnswered (code result detail : Nat) (s : State) : State :=
  let t := modMbr (fun x => { x with journeySeq := none }) s
  if result ≠ 0 then raise pgMBR 0x102 sevJOB (result + (code - 1) * 2 ^ 8) t
  else raise pgMBR (if code = 1 then 0x100 else 0x101) sevINFO detail t

theorem takeResponse_eq (b : List Byte) (s : State) : takeResponse b s =
    (let t := responseNoted (byteAt b 9) (byteAt b 10) (responseCopied b s)
     let t := if s.mbr.readSeq = some (byteAt b 9) ∧ 3 ≤ byteAt b 8 then requestAnswered t else t
     let t := raise pgMBR 0x107 sevINFO (byteAt b 9 + byteAt b 10 * 2 ^ 8) t
     if s.mbr.journeySeq = some (byteAt b 9) ∧ byteAt b 8 < 3 then journeyAnswered (byteAt b 8) (byteAt b 10) (leAt b 12 4) t else t) := rfl

theorem responseCopied_keeps (b : List Byte) (s : State) : BlockKeeps s (responseCopied b s) :=
  .ite (.accounted (storeAs_accounted ..)) (.refl s)

theorem responseNoted_keeps (seq result : Nat) (s : State) : BlockKeeps s (responseNoted seq result s) := by
  have h (hi lo v : Nat) (x : State) : PageReport pgMBR [0x0B4] x (wrF pgMBR 0x0B4 hi lo v x) := .wrF (by decide) (by decide) hi lo v x
  exact .report ((h 15 8 seq s).trans (h 23 16 result _)) (by decide)

theorem requestAnswered_keeps (s : State) : BlockKeeps s (requestAnswered s) :=
  (BlockKeeps.modMbr (f := fun x => { x with readSeq := none }) (fun _ => ⟨rfl, rfl, rfl⟩) s).trans (.report (PageReport.wrB (p := pgMBR) (offs := [0x0B4]) (o := 0x0B4) (by decide) (by decide) 0 false _) (by decide))

theorem journeyAnswered_keeps (code result detail : Nat) (s : State) : BlockKeeps s (journeyAnswered code result detail s) :=
  (BlockKeeps.modMbr (f := fun x => { x with journeySeq := none }) (fun _ => ⟨rfl, rfl, rfl⟩) s).trans (.ite (.event ..) (.event ..))

theorem takeResponse_keeps (b : List Byte) (s : State) : BlockKeeps s (takeResponse b s) := by
  rw [takeResponse_eq]
  dsimp only
  have hnote := (responseCopied_keeps b s).trans (responseNoted_keeps (byteAt b 9) (byteAt b 10) _)
  have hanswer : BlockKeeps s (if s.mbr.readSeq = some (byteAt b 9) ∧ 3 ≤ byteAt b 8 then
      requestAnswered (responseNoted (byteAt b 9) (byteAt b 10) (responseCopied b s))
      else responseNoted (byteAt b 9) (byteAt b 10) (responseCopied b s)) := .ite (hnote.trans (requestAnswered_keeps _)) hnote
  have htell := hanswer.trans (.event 0x107 sevINFO (byteAt b 9 + byteAt b 10 * 2 ^ 8) _)
  exact .ite (htell.trans (journeyAnswered_keeps ..)) htell

theorem requestAnswered_shows {x : State} {result : Nat} (h : rdF x pgMBR 0x0B4 23 16 = result) :
    rdB (requestAnswered x) pgMBR 0x0B4 0 = false ∧ rdF (requestAnswered x) pgMBR 0x0B4 23 16 = result := by
  have hregs : rdF (modMbr (fun x => { x with readSeq := none }) x) pgMBR 0x0B4 23 16 = rdF x pgMBR 0x0B4 23 16 := rfl
  unfold requestAnswered
  obtain ⟨y, hy⟩ : ∃ y, modMbr (fun x => { x with readSeq := none }) x = y := ⟨_, rfl⟩
  rw [hy] at hregs ⊢
  exact ⟨rdB_wrB _ _ _ _ _ (by decide), (rdF_wrF_ne _ _ _ _ _ _ _ _ (by decide) (by decide) (by decide)).trans (hregs.trans h)⟩

/-- The answer of the request that is outstanding frees it. -/
theorem takeResponse_answers {b : List Byte} (hcode : 3 ≤ byteAt b 8) (hseq : s.mbr.readSeq = some (byteAt b 9)) :
    rdB (takeResponse b s) pgMBR 0x0B4 0 = false ∧ rdF (takeResponse b s) pgMBR 0x0B4 23 16 = byteAt b 10 := by
  have hresult : rdF (responseNoted (byteAt b 9) (byteAt b 10) (responseCopied b s)) pgMBR 0x0B4 23 16 = byteAt b 10 :=
    (rdF_wrF _ _ _ _ _ _ (by decide) (by decide)).trans (Nat.mod_eq_of_lt (byteAt_lt b 10))
  rw [takeResponse_eq]
  dsimp only
  rw [if_neg (fun h => Nat.not_le.mpr h.2 hcode), if_pos ⟨hseq, hcode⟩]
  obtain ⟨x, hx⟩ : ∃ x, responseNoted (byteAt b 9) (byteAt b 10) (responseCopied b s) = x := ⟨_, rfl⟩
  rw [hx] at hresult ⊢
  obtain ⟨hfree, hres⟩ := requestAnswered_shows hresult
  obtain ⟨y, hy⟩ : ∃ y, requestAnswered x = y := ⟨_, rfl⟩
  rw [hy] at hfree hres ⊢
  have hrd := rd_raise (p := pgMBR) (p' := pgMBR) (off' := 0x0B4) (by decide) (by decide) 0x107 sevINFO (byteAt b 9 + byteAt b 10 * 2 ^ 8) y
  exact ⟨(rdB_congr hrd 0).trans hfree, (rdF_congr hrd 23 16).trans hres⟩

/-! ### A block arrives -/

/-- What a block of its type says. -/
def blockSays (b : List Byte) (t : State) : State :=
  if byteAt b 0 = 1 then wheelSample ((b.drop 8).take 17) t
  else if byteAt b 0 = 2 then takeStatus b t
  else if byteAt b 0 = 3 then takeResponse b t
  else t

theorem blockSays_keeps (b : List Byte) (t : State) : BlockKeeps t (blockSays b t) :=
  .ite (wheelSample_keeps ..) (.ite (takeStatus_shows b t).1 (.ite (takeResponse_keeps b t) (.refl t)))

/-- The block leaves the data path. -/
def blockGone (s : State) : State := modMet (fun m => { m with dataPath := m.dataPath.drop 1 }) s

variable {arrived : Option (List Byte)} {b : List Byte} {rest : List (List Byte)}

theorem exec_blockReceive (hpath : s.met.dataPath = b :: rest) : exec (.mbrBlockReceive arrived) s =
    settle s (if mbrOn s then takeBlock (arrived.getD b) (blockGone s) else blockGone s) := by
  change execMbrBlockReceive arrived s = _
  unfold execMbrBlockReceive
  rw [hpath]
  rfl

theorem blockGone_met (hpath : s.met.dataPath = b :: rest) : (blockGone s).met = { s.met with dataPath := rest } := by
  change { s.met with dataPath := s.met.dataPath.drop 1 } = _
  rw [hpath]
  rfl

theorem blockLost_shows (hpath : s.met.dataPath = b :: rest) (hoff : mbrOn s = false) :
    ∃ t, exec (.mbrBlockReceive arrived) s = .next t ∧ t.met = { s.met with dataPath := rest } ∧ t.regs = s.regs ∧ t.mbr = s.mbr := by
  have hexec := exec_blockReceive (arrived := arrived) hpath
  rw [hoff, if_neg (by decide)] at hexec
  exact ⟨_, hexec.trans (settle_eq ..), blockGone_met hpath, rfl, rfl⟩

theorem badBlock_shows {x : List Byte} (hx : arrived.getD b = x) (hpath : s.met.dataPath = b :: rest) (hon : mbrOn s = true)
    (hbad : x.length ≠ 128 ∨ leAt x 124 4 ≠ Crypto.crc32 (x.take 124)) :
    ∃ t, exec (.mbrBlockReceive arrived) s = .next t ∧ t.met = { s.met with dataPath := rest } ∧ t.mbr = { s.mbr with run := 0 } ∧
      rd t pgMBR 0x0BC = BitVec.ofNat 32 ((rd s pgMBR 0x0BC).toNat + 1) ∧ MemStands s t := by
  have hexec := exec_blockReceive (arrived := arrived) hpath
  have hmet := blockGone_met hpath
  have hrest : (blockGone s).mbr = s.mbr ∧ (blockGone s).mem = s.mem ∧ (blockGone s).regs = s.regs := ⟨rfl, rfl, rfl⟩
  rw [hon, if_pos rfl, hx] at hexec
  obtain ⟨y, hy⟩ : ∃ y, blockGone s = y := ⟨_, rfl⟩
  rw [hy] at hexec hmet hrest
  obtain ⟨hmbr, hmem, hregs⟩ := hrest
  unfold takeBlock at hexec
  rw [if_pos hbad] at hexec
  have hrep := incCnt_reports pgMBR 0x0BC 1 y
  have hcount := rd_incCnt (p := pgMBR) (off := 0x0BC) (by decide) (by decide) 1 y
  rw [rd_of_regs hregs] at hcount
  obtain ⟨z, hz⟩ : ∃ z, incCnt pgMBR 0x0BC 1 y = z := ⟨_, rfl⟩
  rw [hz] at hexec hrep hcount
  have hmbr' : (modMbr (fun x => { x with run := 0 }) z).mbr = { s.mbr with run := 0 } := by
    change ({ z.mbr with run := 0 } : Bridge) = _
    rw [hrep.field State.mbr, hmbr]
  exact ⟨_, hexec.trans (settle_eq ..), (hrep.field State.met).trans hmet, hmbr', hcount, memStands_of_mem ((hrep.field State.mem).trans hmem)⟩

/-- The state from which a correct block says what it says. -/
structure BlockTaken (s : State) (rest : List (List Byte)) (seq : Nat) (y : State) : Prop where
  met : y.met = { s.met with dataPath := rest }
  mbr : y.mbr = notedBlock s.mbr seq (now s)
  count : rd y pgMBR 0x0B8 = BitVec.ofNat 32 ((rd s pgMBR 0x0B8).toNat + 1)
  present : 3 ≤ runWith s.mbr seq → rdB y pgMBR 0x080 0 = true ∧ (rdB s pgMBR 0x080 0 = false → Told y (owner s pgMBR) pgMBR 0x104 0)
  data : SameData s y
  mem : MemStands s y
  regs : ∀ off, off < 0x1000 → off ∉ presenceRegs → rd y pgMBR off = rd s pgMBR off
  rings : y.rings = s.rings
  fences : y.fences = s.fences
  now : now y = now s

theorem blockTaken_shows (hpath : s.met.dataPath = b :: rest) (seq : Nat) : BlockTaken s rest seq (takePresence seq (blockGone s)) := by
  have hmet := blockGone_met hpath
  have hgone : (blockGone s).mbr = s.mbr ∧ (blockGone s).regs = s.regs ∧ (blockGone s).rings = s.rings ∧ (blockGone s).fences = s.fences ∧
    Machine.now (blockGone s) = Machine.now s := ⟨rfl, rfl, rfl, rfl, rfl⟩
  have hdata : SameData s (blockGone s) := .of_parts rfl rfl rfl rfl rfl rfl rfl
  have hmem : MemStands s (blockGone s) := memStands_of_mem rfl
  have howner : owner (blockGone s) pgMBR = owner s pgMBR := rfl
  obtain ⟨x, hx⟩ : ∃ x, blockGone s = x := ⟨_, rfl⟩
  rw [hx] at hmet hgone hdata hmem howner ⊢
  obtain ⟨hmbr, hregs, hrings, hfences, hnow⟩ := hgone
  obtain ⟨hrep, hmbr', hcount, hpresent⟩ := takePresence_shows seq x
  rw [hmbr] at hmbr' hpresent
  rw [hnow] at hmbr'
  rw [rd_of_regs hregs] at hcount
  rw [howner, rdB_congr (rd_of_regs hregs ..)] at hpresent
  exact ⟨(hrep.field State.met).trans hmet, hmbr', hcount, hpresent, hdata.trans hrep.data, hmem.trans hrep.mem,
    fun off ho hne => (hrep.regs _ off ho (fun h => hne h.2)).trans (rd_of_regs hregs ..), (hrep.field State.rings).trans hrings,
    (hrep.field State.fences).trans hfences, (hrep.field Machine.now).trans hnow⟩

theorem goodBlock_exec {x : List Byte} (hx : arrived.getD b = x) (hpath : s.met.dataPath = b :: rest) (hon : mbrOn s = true)
    (hlen : x.length = 128) (hcrc : leAt x 124 4 = Crypto.crc32 (x.take 124)) : exec (.mbrBlockReceive arrived) s =
    settle s (blockSays x (takePresence (byteAt x 1) (blockGone s))) := by
  have hexec := exec_blockReceive (arrived := arrived) hpath
  rw [hon, if_pos rfl, hx] at hexec
  rw [hexec]
  unfold takeBlock
  rw [if_neg (fun h => h.elim (fun h => h hlen) (fun h => h hcrc))]
  rfl

theorem runWith_next {m : Bridge} {l seq : Nat} (hl : m.lastSeq = some l) (hseq : seq = (l + 1) % 256) : runWith m seq = m.run + 1 := by
  unfold runWith
  rw [hl]
  exact if_pos hseq

/-- What a correct block of each type leaves, over the state its presence leaves. -/
structure BlockSaid (x : List Byte) (s y t : State) : Prop where
  keeps : BlockKeeps y t
  status : byteAt x 0 = 2 → rdB t pgMBR 0x080 2 = bitOf (leAt x 8 4) 0 ∧ rdF t pgMBR 0x080 15 8 = byteAt x 20 ∧ MemStands y t
  response : byteAt x 0 = 3 → 3 ≤ byteAt x 8 → y.mbr.readSeq = some (byteAt x 9) →
    rdB t pgMBR 0x0B4 0 = false ∧ rdF t pgMBR 0x0B4 23 16 = byteAt x 10
  wheel : byteAt x 0 = 1 → t = wheelSample ((x.drop 8).take 17) y

theorem blockSays_shows (x : List Byte) (y : State) : BlockSaid x s y (blockSays x y) := by
  refine ⟨blockSays_keeps x y, fun h => ?_, fun h hcode hseq => ?_, fun h => if_pos h⟩
  · have heq : blockSays x y = takeStatus x y := (if_neg (by omega)).trans (if_pos h)
    rw [heq]
    exact (takeStatus_shows x y).2
  · have heq : blockSays x y = takeResponse x y := (if_neg (by omega)).trans ((if_neg (by omega)).trans (if_pos h))
    rw [heq]
    exact takeResponse_answers hcode hseq

theorem goodBlock_shows {x : List Byte} (hx : arrived.getD b = x) (hpath : s.met.dataPath = b :: rest) (hon : mbrOn s = true)
    (hlen : x.length = 128) (hcrc : leAt x 124 4 = Crypto.crc32 (x.take 124)) :
    ∃ t, exec (.mbrBlockReceive arrived) s = .next t ∧ t.met = { s.met with dataPath := rest } ∧
      t.mbr.lastSeq = some (byteAt x 1) ∧ t.mbr.lastBlock = now s ∧
      rd t pgMBR 0x0B8 = BitVec.ofNat 32 ((rd s pgMBR 0x0B8).toNat + 1) ∧
      (∀ l, s.mbr.lastSeq = some l → byteAt x 1 = (l + 1) % 256 → 2 ≤ s.mbr.run →
        rdB t pgMBR 0x080 0 = true ∧ (rdB s pgMBR 0x080 0 = false → Told t (owner s pgMBR) pgMBR 0x104 0)) ∧
      (byteAt x 0 = 2 → rdB t pgMBR 0x080 2 = bitOf (leAt x 8 4) 0 ∧ rdF t pgMBR 0x080 15 8 = byteAt x 20 ∧ MemStands s t) ∧
      (byteAt x 0 = 3 → 3 ≤ byteAt x 8 → s.mbr.readSeq = some (byteAt x 9) →
        rdB t pgMBR 0x0B4 0 = false ∧ rdF t pgMBR 0x0B4 23 16 = byteAt x 10) ∧
      (let r := inRing s pgMBR false
       let tail := rdF s pgMBR 0x098 15 0
       byteAt x 0 = 1 → ringOn s pgMBR wheelRing = true → enabled s pgMBR = true → fenceBit s pgMBR = false →
        (tail + 1) % max 1 r.depth ≠ rdF s pgMBR 0x094 15 0 % max 1 r.depth → GoodRange s .intake (r.base + tail * 32) 32 →
        getBytes t (r.base + tail * 32) 32 = leBytes 8 (now s) ++ (x.drop 8).take 17 ++ zeros 7 ∧
          rd t pgMBR 0x098 = BitVec.ofNat 32 ((tail + 1) % max 1 r.depth) ∧ MemStandsBut (r.base + tail * 32) 32 s t) := by
  have hexec := goodBlock_exec hx hpath hon hlen hcrc
  obtain ⟨hmet, hmbr, hcount, hpresent, hdata, hmem, hregs, hrings, hfences, hnow⟩ := blockTaken_shows hpath (byteAt x 1)
  obtain ⟨y, hy⟩ : ∃ y, takePresence (byteAt x 1) (blockGone s) = y := ⟨_, rfl⟩
  rw [hy] at hexec hmet hmbr hcount hpresent hdata hmem hregs hrings hfences hnow
  obtain ⟨hkeeps, hstatus, hresponse, hwheel⟩ := blockSays_shows (s := s) x y
  obtain ⟨t, ht⟩ : ∃ t, blockSays x y = t := ⟨_, rfl⟩
  rw [ht] at hexec hkeeps hstatus hresponse hwheel
  have hring : inRing y pgMBR false = inRing s pgMBR false := by unfold inRing; rw [hrings]
  have hstored : byteAt x 0 = 1 → ringOn s pgMBR wheelRing = true → enabled s pgMBR = true → fenceBit s pgMBR = false →
      (rdF s pgMBR 0x098 15 0 + 1) % max 1 (inRing s pgMBR false).depth ≠ rdF s pgMBR 0x094 15 0 % max 1 (inRing s pgMBR false).depth →
      GoodRange s .intake ((inRing s pgMBR false).base + rdF s pgMBR 0x098 15 0 * 32) 32 →
      getBytes t ((inRing s pgMBR false).base + rdF s pgMBR 0x098 15 0 * 32) 32 = leBytes 8 (now s) ++ (x.drop 8).take 17 ++ zeros 7 ∧
        rd t pgMBR 0x098 = BitVec.ofNat 32 ((rdF s pgMBR 0x098 15 0 + 1) % max 1 (inRing s pgMBR false).depth) ∧
        MemStandsBut ((inRing s pgMBR false).base + rdF s pgMBR 0x098 15 0 * 32) 32 s t := by
    intro htype hringOn hen hfence hroom hgood
    have hpay : ((x.drop 8).take 17).length = 17 := by rw [List.length_take, List.length_drop, hlen]; rfl
    have htail : rdF y pgMBR 0x098 15 0 = rdF s pgMBR 0x098 15 0 := rdF_congr (hregs _ (by decide) (by decide)) 15 0
    obtain ⟨hbytes, htl, hbut⟩ := wheelSample_stored (s := y) (payload := (x.drop 8).take 17) htail (congrArg (max 1 ·.depth) hring)
      (congrArg (·.base + rdF s pgMBR 0x098 15 0 * 32) hring) (by omega)
      ((rdB_congr (hregs _ (by decide) (by decide)) 31).trans hringOn) ((rdB_congr (hregs _ (by decide) (by decide)) 0).trans hen)
      (by unfold fenceBit fenceOf at hfence ⊢; rw [hfences]; exact hfence)
      (by rw [rdF_congr (hregs 0x094 (by decide) (by decide)) 15 0]; exact hroom) ⟨(hdata.canUse rfl _ _).trans hgood.1, hdata.goodWords hgood.2⟩
    rw [← hwheel htype] at hbytes htl hbut
    rw [hpay, hnow] at hbytes
    exact ⟨hbytes, htl, fun a ha => (hbut a ha).trans (hmem a)⟩
  refine ⟨_, hexec.trans (settle_eq ..), hkeeps.met.trans hmet, ?_, ?_, hkeeps.count.trans hcount, fun l hl hseq hrun => ?_, fun h => ?_,
    fun h hcode hseq => hresponse h hcode (by rw [hmbr]; exact hseq), hstored⟩
  · exact hkeeps.lastSeq.trans (by rw [hmbr]; rfl)
  · exact hkeeps.lastBlock.trans (by rw [hmbr]; rfl)
  · obtain ⟨hbit, htold⟩ := hpresent (by rw [runWith_next hl hseq]; omega)
    exact ⟨hkeeps.present.trans hbit, fun h => (htold h).mono hkeeps.outbox⟩
  · obtain ⟨h2, hcauses, hmem'⟩ := hstatus h
    exact ⟨h2, hcauses, hmem.trans hmem'⟩

/-! ### Silence -/

theorem tileAbsent_shows (hon : mbrOn s = true) (hpresent : rdB s pgMBR 0x080 0 = true) (hsilent : s.mbr.lastBlock + 5000000 ≤ now s) :
    ∃ t, exec .tileAbsent s = .next t ∧ rdB t pgMBR 0x080 0 = false ∧ rdB t pgMBR 0x080 1 = true ∧ t.mbr.run = 0 ∧
      rdB t pgMBR 0x020 16 = true ∧ RegsStandBut [pgMBR] s t ∧ MemStands s t := by
  have hdue : tileSilent s = true := by
    unfold tileSilent
    rw [hpresent, if_pos rfl, decide_eq_true hsilent]
  have hexec : exec .tileAbsent s = settle s (raise pgMBR 0x103 sevDEGRADED 0 (modMbr (fun x => { x with run := 0, absentTold := true })
      (wrB pgMBR 0x080 0 false (wrB pgMBR 0x080 1 true s)))) := if_pos (by rw [hon, hdue]; rfl)
  have h1 := rdB_wrB pgMBR 0x080 1 true s (by decide)
  have hrep := PageReport.wrB (p := pgMBR) (offs := [0x080]) (o := 0x080) (by decide) (by decide) 1 true s
  obtain ⟨x, hx⟩ : ∃ x, wrB pgMBR 0x080 1 true s = x := ⟨_, rfl⟩
  rw [hx] at hexec h1 hrep
  have h0 := rdB_wrB pgMBR 0x080 0 false x (by decide)
  have h1' := (rdB_wrB_ne pgMBR 0x080 0 1 false x (by decide) (by decide)).trans h1
  have hrep' := hrep.trans (PageReport.wrB (p := pgMBR) (offs := [0x080]) (o := 0x080) (by decide) (by decide) 0 false x)
  obtain ⟨y, hy⟩ : ∃ y, wrB pgMBR 0x080 0 false x = y := ⟨_, rfl⟩
  rw [hy] at hexec h0 h1' hrep'
  have hrun : (modMbr (fun x => { x with run := 0, absentTold := true }) y).mbr.run = 0 := rfl
  have hregs : (modMbr (fun x => { x with run := 0, absentTold := true }) y).regs = y.regs := rfl
  have hmem : (modMbr (fun x => { x with run := 0, absentTold := true }) y).mem = y.mem := rfl
  obtain ⟨z, hz⟩ : ∃ z, modMbr (fun x => { x with run := 0, absentTold := true }) y = z := ⟨_, rfl⟩
  rw [hz] at hexec hrun hregs hmem
  have htell := PageReport.raise (p := pgMBR) (offs := eventRegs) (by decide) 0x103 sevDEGRADED 0 z
  have hvalid := rdB_raise_valid (p := pgMBR) (v := sevDEGRADED) (by decide) (by decide) (by decide) 0x103 0 z
  obtain ⟨t, ht⟩ : ∃ t, raise pgMBR 0x103 sevDEGRADED 0 z = t := ⟨_, rfl⟩
  rw [ht] at hexec htell hvalid
  have hword : rd t pgMBR 0x080 = rd y pgMBR 0x080 := (htell.regs _ _ (by decide) (by decide)).trans (rd_of_regs hregs ..)
  exact ⟨_, hexec.trans (settle_eq ..), (rdB_congr hword 0).trans h0, (rdB_congr hword 1).trans h1',
    (congrArg Bridge.run (htell.reports.field State.mbr)).trans hrun, hvalid,
    hrep'.regsStandBut.trans ((regsStandBut_of_regs _ hregs).trans htell.regsStandBut), hrep'.mem.trans ((memStands_of_mem hmem).trans htell.mem)⟩

theorem absentSample_shows (hon : mbrOn s = true) (habsent : rdB s pgMBR 0x080 1 = true) (hring : ringOn s pgMBR wheelRing = true)
    (hdue : s.mbr.lastAbsent + 1000000 ≤ now s) :
    let r := inRing s pgMBR false
    let tail := rdF s pgMBR 0x098 15 0
    ∃ t, exec .absentSample s = .next t ∧ t.mbr.lastAbsent = now s ∧ t.met = s.met ∧
      (enabled s pgMBR = true → fenceBit s pgMBR = false →
        (tail + 1) % max 1 r.depth ≠ rdF s pgMBR 0x094 15 0 % max 1 r.depth → GoodRange s .intake (r.base + tail * 32) 32 →
        getBytes t (r.base + tail * 32) 32 = leBytes 8 (now s) ++ zeros 16 ++ [0x20] ++ zeros 7) := by
  have hexec : exec .absentSample s = settle s (wheelSample (zeros 16 ++ [0x20]) (modMbr (fun x => { x with lastAbsent := now s }) s)) :=
    if_pos (by rw [hon, habsent, hring, decide_eq_true hdue]; rfl)
  have hlast : (modMbr (fun x => { x with lastAbsent := now s }) s).mbr.lastAbsent = now s := rfl
  have hmet : (modMbr (fun x => { x with lastAbsent := now s }) s).met = s.met := rfl
  have hregs : (modMbr (fun x => { x with lastAbsent := now s }) s).regs = s.regs := rfl
  have hnow : now (modMbr (fun x => { x with lastAbsent := now s }) s) = now s := rfl
  have hrings : inRing (modMbr (fun x => { x with lastAbsent := now s }) s) pgMBR false = inRing s pgMBR false := rfl
  have hfence : fenceBit (modMbr (fun x => { x with lastAbsent := now s }) s) pgMBR = fenceBit s pgMBR := rfl
  have hdata := (MbrReport.modMbr [] (fun x => { x with lastAbsent := now s }) s).data
  obtain ⟨x, hx⟩ : ∃ x, modMbr (fun x => { x with lastAbsent := now s }) s = x := ⟨_, rfl⟩
  rw [hx] at hexec hlast hmet hregs hnow hrings hfence hdata
  have hkeeps := wheelSample_keeps (zeros 16 ++ [0x20]) x
  have hrd (off : Nat) : rd x pgMBR off = rd s pgMBR off := rd_of_regs hregs ..
  have hstored : enabled s pgMBR = true → fenceBit s pgMBR = false →
      (rdF s pgMBR 0x098 15 0 + 1) % max 1 (inRing s pgMBR false).depth ≠ rdF s pgMBR 0x094 15 0 % max 1 (inRing s pgMBR false).depth →
      GoodRange s .intake ((inRing s pgMBR false).base + rdF s pgMBR 0x098 15 0 * 32) 32 →
      getBytes (wheelSample (zeros 16 ++ [0x20]) x) ((inRing s pgMBR false).base + rdF s pgMBR 0x098 15 0 * 32) 32 =
        leBytes 8 (now s) ++ zeros 16 ++ [0x20] ++ zeros 7 := by
    intro hen hf hroom hgood
    obtain ⟨hbytes, -, -⟩ := wheelSample_stored (s := x) (payload := zeros 16 ++ [0x20]) (rdF_congr (hrd 0x098) 15 0)
      (congrArg (max 1 ·.depth) hrings) (congrArg (·.base + rdF s pgMBR 0x098 15 0 * 32) hrings) (by decide)
      ((rdB_congr (hrd _) 31).trans hring) ((rdB_congr (hrd _) 0).trans hen) (hfence.trans hf)
      (by rw [rdF_congr (hrd 0x094) 15 0]; exact hroom) ⟨(hdata.canUse rfl _ _).trans hgood.1, hdata.goodWords hgood.2⟩
    rw [hbytes, hnow, ← List.append_assoc (leBytes 8 (now s))]
    rfl
  obtain ⟨t, ht⟩ : ∃ t, wheelSample (zeros 16 ++ [0x20]) x = t := ⟨_, rfl⟩
  rw [ht] at hexec hkeeps hstored
  exact ⟨_, hexec.trans (settle_eq ..), hkeeps.lastAbsent.trans hlast, hkeeps.met.trans hmet, hstored⟩

end

/-- Settles O51: a request by the frame it sends; a block by its presence (`takePresence_shows`) and then by what its type says. -/
theorem bridgeTakesBlocksAndAsks : Obligations.BridgeTakesBlocksAndAsks :=
  ⟨fun q _ hmay hvin x hx => by
      obtain ⟨hexec, hcode⟩ := mbrRead_exec q x hx
      exact ⟨fun hfree hfence => mbrReq_taken hmay hvin hexec hcode hfree hfence, fun h => mbrReq_refused hmay hexec h⟩,
    fun _ hon hen hsync hdue hvin => tbSyncSend_shows hon hen hsync hdue hvin,
    fun _ _ _ _ hpath => ⟨blockLost_shows hpath, fun hon => ⟨badBlock_shows rfl hpath hon, goodBlock_shows rfl hpath hon⟩⟩,
    fun _ hon hpresent hsilent => tileAbsent_shows hon hpresent hsilent,
    fun _ hon habsent hring hdue => absentSample_shows hon habsent hring hdue⟩

end Sys2Proof.Machine
end

section
/-!
PROOFS. The calendar's commands (R581, R583, R585, R587 to R591, R596), and what an audit record shows.
-/
namespace Sys2Proof.Machine

/-! ### Audit records -/

theorem leBytes_length : ∀ n v, (leBytes n v).length = n
  | 0, _ => rfl
  | n + 1, v => congrArg (· + 1) (leBytes_length n (v / 256))

theorem byteAt_append_left {a : List Byte} {o : Nat} (h : o < a.length) (b : List Byte) : byteAt (a ++ b) o = byteAt a o := by
  unfold byteAt
  rw [List.drop_append_of_le_length (Nat.le_of_lt h)]
  cases hd : a.drop o with
  | nil => exact absurd (List.drop_eq_nil_iff.mp hd) (Nat.not_le.mpr h)
  | cons x l => rfl

theorem byteAt_append_right (a b : List Byte) {o : Nat} (h : a.length = o) : byteAt (a ++ b) o = byteAt b 0 := by
  unfold byteAt
  rw [List.drop_left' h]
  rfl

/-- A record that finds room joins the trail, with its kind and offset. -/
theorem auditRecord_eq {s : State} (h : s.met.auditFull = false) (kind off : Nat) (cal old new : List Byte) :
    ∃ r, byteAt r 4 = kind % 256 ∧ byteAt r 5 = off % 256 ∧ auditRecord kind off cal old new s =
      nextFree (modMet (fun m => { m with eventCtr := satN 32 (s.met.eventCtr + 1), audit := m.audit ++ [r] }) s) := by
  refine ⟨signed (leBytes 4 (satN 32 (s.met.eventCtr + 1)) ++ leBytes 1 kind ++ leBytes 1 off ++ zeros 2 ++ cal ++ old ++ new ++
      leBytes 8 (tbStamp s s.met.ct) ++ zeros 8), ?_, ?_, ?_⟩
  · unfold signed
    simp only [List.append_assoc]
    rw [byteAt_append_right _ _ (leBytes_length ..)]
    exact BitVec.toNat_ofNat kind 8
  · unfold signed
    simp only [List.append_assoc]
    rw [← List.append_assoc (leBytes 4 _), byteAt_append_right _ _ (by rw [List.length_append, leBytes_length, leBytes_length])]
    exact BitVec.toNat_ofNat off 8
  · unfold auditRecord
    rw [h, if_neg (by decide)]

/-! ### Commands of the compartment -/

/-- A command that keeps to the compartment ends in what it made. -/
theorem settle_onlyMet {s t : State} (h : OnlyMet s t) : settle s t = .next t := by
  have hfuses : t.fuses = s.fuses := (congrArg State.fuses (OnlyMet.eq h)).trans rfl
  have hpending : t.pending = s.pending := (congrArg State.pending (OnlyMet.eq h)).trans rfl
  rw [settle_eq, ← hfuses, ← hpending]

theorem onlyMet_modMet (f : Met → Met) (s : State) : OnlyMet s (modMet f s) := rfl

/-- The port answers under MET_VIN. -/
theorem atPort_vin {s : State} (h : s.met.vin = true) (k : State → State) : atPort s k = settle s (k s) := if_pos h

/-- A command of the port that answers and changes nothing else. -/
theorem answers_shows {s : State} {a : VerAnswer} {o : Host.Outcome State Fault Refusal} (ho : o = settle s (answer a s)) :
    ∃ t, o = .next t ∧ OnlyMet s t ∧ t.met = { s.met with answer := a } :=
  ⟨answer a s, ho.trans (settle_onlyMet (onlyMet_modMet ..)), rfl, rfl⟩

section
variable {s : State}

/-! ### Staging and committing -/

theorem calStage_refused {e : VerError} (hvin : s.met.vin = true) (h : s.met.writeRefused = some e) (text : List Byte) :
    exec (.calStage text) s = settle s (answer (.err e) s) := by
  change execCalStage text s = _
  unfold execCalStage
  rw [atPort_vin hvin, h]

theorem calStage_parsed {v : CalTime} {text : List Byte} (hvin : s.met.vin = true) (h : s.met.writeRefused = none) (hv : parseStage text = some v) :
    exec (.calStage text) s = settle s (answer .ok (modCal (fun c => { c with staged := v }) s)) := by
  change execCalStage text s = _
  unfold execCalStage
  rw [atPort_vin hvin, h]
  dsimp only
  rw [hv]

theorem calStage_malformed {text : List Byte} (hvin : s.met.vin = true) (h : s.met.writeRefused = none) (hv : parseStage text = none) :
    exec (.calStage text) s = settle s (answer (.err .syn) s) := by
  change execCalStage text s = _
  unfold execCalStage
  rw [atPort_vin hvin, h]
  dsimp only
  rw [hv]

theorem calStage_shows (hvin : s.met.vin = true) (text : List Byte) :
    (∀ e, s.met.writeRefused = some e → ∃ t, exec (.calStage text) s = .next t ∧ t.met = { s.met with answer := .err e }) ∧
    (s.met.writeRefused = none →
      (∀ v, parseStage text = some v → ∃ t, exec (.calStage text) s = .next t ∧ OnlyMet s t ∧
        t.met = { s.met with cal := { s.met.cal with staged := v }, answer := .ok }) ∧
      (parseStage text = none → ∃ t, exec (.calStage text) s = .next t ∧ t.met = { s.met with answer := .err .syn })) := by
  refine ⟨fun e he => ?_, fun hfree => ⟨fun v hv => ?_, fun hv => ?_⟩⟩
  · obtain ⟨t, ht, -, hmet⟩ := answers_shows (calStage_refused hvin he text)
    exact ⟨t, ht, hmet⟩
  · exact ⟨_, (calStage_parsed hvin hfree hv).trans (settle_onlyMet rfl), rfl, rfl⟩
  · obtain ⟨t, ht, -, hmet⟩ := answers_shows (calStage_malformed hvin hfree hv)
    exact ⟨t, ht, hmet⟩

theorem calCommit_sealed (hvin : s.met.vin = true) (hseal : s.met.sealOpen = false) :
    ∃ t, exec .calCommit s = .next t ∧ t.met = { s.met with answer := .err .seal } := by
  have hexec : exec .calCommit s = settle s (answer (.err .seal) s) := by
    change execCalCommit s = _
    unfold execCalCommit
    rw [atPort_vin hvin, hseal, if_pos (by decide)]
  obtain ⟨t, ht, -, hmet⟩ := answers_shows hexec
  exact ⟨t, ht, hmet⟩

theorem calCommit_full (hvin : s.met.vin = true) (hseal : s.met.sealOpen = true) (hfull : s.met.auditFull = true) :
    ∃ t, exec .calCommit s = .next t ∧ t.met = { s.met with answer := .err .full } := by
  have hexec : exec .calCommit s = settle s (answer (.err .full) s) := by
    change execCalCommit s = _
    unfold execCalCommit
    rw [atPort_vin hvin, hseal, if_neg (by decide), hfull, if_pos rfl]
  obtain ⟨t, ht, -, hmet⟩ := answers_shows hexec
  exact ⟨t, ht, hmet⟩

theorem calCommit_bad (hvin : s.met.vin = true) (hseal : s.met.sealOpen = true) (hfull : s.met.auditFull = false)
    (hbad : s.met.cal.staged.failing ≠ 0) : ∃ t, exec .calCommit s = .next t ∧ OnlyMet s t ∧ t.met = { s.met with
      cal := { s.met.cal with invalid := true, rejField := s.met.cal.staged.failing }, answer := .err .range } := by
  have hexec : exec .calCommit s = settle s (answer (.err .range)
      (modCal (fun c => { c with invalid := true, rejField := s.met.cal.staged.failing }) s)) := by
    change execCalCommit s = _
    unfold execCalCommit
    rw [atPort_vin hvin, hseal, if_neg (by decide), hfull, if_neg (by decide)]
    exact congrArg (settle s) (if_pos hbad)
  exact ⟨_, hexec.trans (settle_onlyMet rfl), rfl, rfl⟩

theorem calCommit_good (hvin : s.met.vin = true) (hseal : s.met.sealOpen = true) (hfull : s.met.auditFull = false)
    (hgood : s.met.cal.staged.failing = 0) : ∃ t, exec .calCommit s = .next t ∧ OnlyMet s t ∧
      t.met = { s.met with cal := { s.met.cal with pending := some s.met.cal.staged, invalid := false }, answer := .ok } := by
  have hexec : exec .calCommit s = settle s (answer .ok (modCal (fun c => { c with pending := some c.staged, invalid := false }) s)) := by
    change execCalCommit s = _
    unfold execCalCommit
    rw [atPort_vin hvin, hseal, if_neg (by decide), hfull, if_neg (by decide)]
    exact congrArg (settle s) (if_neg (fun h => h hgood))
  exact ⟨_, hexec.trans (settle_onlyMet rfl), rfl, rfl⟩

theorem decDigits_length : ∀ n v, (decDigits n v).length = n
  | 0, _ => rfl
  | n + 1, v => by unfold decDigits; rw [List.length_append, decDigits_length]; rfl

theorem iso_length (t : CalTime) : t.iso.length = 19 := by
  unfold CalTime.iso
  simp only [List.length_append, decDigits_length, List.length_cons, List.length_nil]

theorem calRead_shows (hvin : s.met.vin = true) : ∃ (t : State) (x : List Byte), exec .calRead s = .next t ∧ OnlyMet s t ∧
    t.met = { s.met with answer := .calendar x } ∧ x.take 19 = s.met.cal.live.iso := by
  obtain ⟨t, ht, honly, hmet⟩ := answers_shows (atPort_vin hvin (fun s => answer (.calendar (s.met.cal.live.iso ++ [0x20,
    BitVec.ofNat 8 (0x30 + s.met.cal.live.dow), 0x20, hexAscii (s.met.cal.stateWord / 16 % 16), hexAscii (s.met.cal.stateWord % 16)])) s))
  exact ⟨t, _, ht, honly, hmet, List.take_left' (iso_length _)⟩

/-! ### The second boundary -/

/-- The clock of the compartment at a second boundary. -/
def secondPassed (s : State) : State := modMet (fun m => { m with secs := m.secs + 1, ms := max m.ms ((m.secs + 1) * 1000) }) s

theorem secondBoundary_exec (hdue : s.met.vin = true → s.met.secDue = true) : (s.met.vin && !s.met.secDue) = false := by
  cases hvin : s.met.vin with
  | false => rfl
  | true => rw [hdue hvin]; rfl

theorem secondBoundary_advances (hdue : s.met.vin = true → s.met.secDue = true) (hnone : s.met.cal.pending = none) :
    ∃ t, exec .calSecondBoundary s = .next t ∧ OnlyMet s t ∧ t.met.secs = s.met.secs + 1 ∧ t.met.audit = s.met.audit ∧
      (s.met.cal.live ≠ CalTime.top → t.met.cal = { s.met.cal with live := s.met.cal.live.next }) ∧
      (s.met.cal.live = CalTime.top → t.met.cal = { s.met.cal with ended := true, ovf := satN 32 (s.met.cal.ovf + 1) }) := by
  have hexec : exec .calSecondBoundary s = settle s (modCal advanceCal (secondPassed s)) := by
    change execCalSecondBoundary s = _
    unfold execCalSecondBoundary
    rw [secondBoundary_exec hdue, if_neg (by decide), hnone]
    rfl
  have hcal : (modCal advanceCal (secondPassed s)).met.cal = advanceCal s.met.cal := rfl
  refine ⟨_, hexec.trans (settle_onlyMet rfl), rfl, rfl, rfl, fun h => ?_, fun h => ?_⟩
  · exact hcal.trans (if_neg h)
  · exact hcal.trans (if_pos h)

/-- The calendar once its commit is applied. -/
def commitTaken (v : CalTime) (c : Calendar) : Calendar :=
  { c with live := v, pending := none, unset := false, ended := false, ovf := 0, commits := (c.commits + 1) % 2 ^ 32 }

theorem secondBoundary_commits {v : CalTime} (hdue : s.met.vin = true → s.met.secDue = true) (hpend : s.met.cal.pending = some v)
    (hroom : s.met.auditFull = false) :
    ∃ (t : State) (r : List Byte), exec .calSecondBoundary s = .next t ∧ OnlyMet s t ∧ t.met.secs = s.met.secs + 1 ∧
      t.met.cal.live = v ∧ t.met.cal.pending = none ∧ t.met.cal.unset = false ∧ t.met.cal.ended = false ∧ t.met.cal.ovf = 0 ∧
      t.met.audit = s.met.audit ++ [r] ∧ byteAt r 4 = 6 := by
  have hexec : exec .calSecondBoundary s = settle s (applyCommit v (secondPassed s)) := by
    change execCalSecondBoundary s = _
    unfold execCalSecondBoundary
    rw [secondBoundary_exec hdue, if_neg (by decide), hpend]
    dsimp only
    rw [hroom, if_neg (by decide)]
    rfl
  obtain ⟨old, hold⟩ : ∃ old, applyCommit v (secondPassed s) =
      auditRecord 6 0xD0 (v.stamp false) old (v.stamp false) (modCal (commitTaken v) (secondPassed s)) := ⟨_, rfl⟩
  have honly : OnlyMet s (modCal (commitTaken v) (secondPassed s)) := rfl
  have hfull : (modCal (commitTaken v) (secondPassed s)).met.auditFull = false := hroom
  have hsecs : (modCal (commitTaken v) (secondPassed s)).met.secs = s.met.secs + 1 := rfl
  have hcal : (modCal (commitTaken v) (secondPassed s)).met.cal = commitTaken v s.met.cal := rfl
  have haud : (modCal (commitTaken v) (secondPassed s)).met.audit = s.met.audit := rfl
  rw [hold] at hexec
  obtain ⟨x, hx⟩ : ∃ x, modCal (commitTaken v) (secondPassed s) = x := ⟨_, rfl⟩
  rw [hx] at hexec honly hfull hsecs hcal haud
  obtain ⟨r, hkind, -, haudit⟩ := auditRecord_eq hfull 6 0xD0 (v.stamp false) old (v.stamp false)
  have honly' : OnlyMet x (auditRecord 6 0xD0 (v.stamp false) old (v.stamp false) x) := (auditRecord_keeps ..).1
  have hall := OnlyMet.trans honly honly'
  rw [haudit] at hexec hall
  refine ⟨_, r, hexec.trans (settle_onlyMet hall), hall, hsecs, ?_, ?_, ?_, ?_, ?_, ?_, hkind⟩
  · exact congrArg Calendar.live hcal
  · exact congrArg Calendar.pending hcal
  · exact congrArg Calendar.unset hcal
  · exact congrArg Calendar.ended hcal
  · exact congrArg Calendar.ovf hcal
  · exact congrArg (· ++ [r]) haud

end

/-! ### The next second -/

theorem failing_eq_zero {v : CalTime} : v.failing = 0 ↔ (2000 ≤ v.year ∧ v.year ≤ 2399) ∧ (1 ≤ v.month ∧ v.month ≤ 12) ∧
    (1 ≤ v.day ∧ v.day ≤ monthDays v.year v.month) ∧ v.hour ≤ 23 ∧ v.minute ≤ 59 ∧ v.second ≤ 59 := by
  unfold CalTime.failing
  repeat' split
  all_goals omega

theorem one_le_monthDays (y m : Nat) : 1 ≤ monthDays y m := by
  unfold monthDays
  repeat' split
  all_goals omega

/-- The last day of December is its 31st. -/
theorem monthDays_december (y : Nat) : monthDays y 12 = 31 := rfl

theorem next_valid {v : CalTime} (hv : v.failing = 0) (htop : v ≠ CalTime.top) : v.next.failing = 0 := by
  obtain ⟨hyear, hmonth, hday, hhour, hminute, hsecond⟩ := failing_eq_zero.mp hv
  refine failing_eq_zero.mpr ?_
  unfold CalTime.next
  by_cases hs : v.second < 59
  · rw [if_pos hs]; exact ⟨hyear, hmonth, hday, hhour, hminute, hs⟩
  rw [if_neg hs]
  by_cases hmi : v.minute < 59
  · rw [if_pos hmi]; exact ⟨hyear, hmonth, hday, hhour, hmi, Nat.zero_le _⟩
  rw [if_neg hmi]
  by_cases hh : v.hour < 23
  · rw [if_pos hh]; exact ⟨hyear, hmonth, hday, hh, Nat.zero_le _, Nat.zero_le _⟩
  rw [if_neg hh]
  by_cases hd : v.day < monthDays v.year v.month
  · rw [if_pos hd]; exact ⟨hyear, hmonth, ⟨Nat.le_add_left _ _, hd⟩, Nat.zero_le _, Nat.zero_le _, Nat.zero_le _⟩
  rw [if_neg hd]
  by_cases hm : v.month < 12
  · rw [if_pos hm]
    exact ⟨hyear, ⟨Nat.le_add_left _ _, hm⟩, ⟨Nat.le_refl _, one_le_monthDays ..⟩, Nat.zero_le _, Nat.zero_le _, Nat.zero_le _⟩
  rw [if_neg hm]
  have hlast : v.year < 2399 := by
    refine Nat.lt_of_le_of_ne hyear.2 fun h => htop ?_
    have hmo : v.month = 12 := by omega
    have hda : v.day = 31 := by rw [hmo, monthDays_december] at hd hday; omega
    have hho : v.hour = 23 := by omega
    have hmin : v.minute = 59 := by omega
    have hse : v.second = 59 := by omega
    cases v
    simp only at h hmo hda hho hmin hse
    subst h hmo hda hho hmin hse
    rfl
  exact ⟨⟨Nat.le_succ_of_le hyear.1, hlast⟩, ⟨Nat.le_refl _, Nat.le_of_ble_eq_true rfl⟩, ⟨Nat.le_refl _, one_le_monthDays ..⟩, Nat.zero_le _, Nat.zero_le _, Nat.zero_le _⟩

/-- Settles O49: the port's calendar commands by their answers, a second boundary by the pending commit, and the next second by where it carries. -/
theorem calendarCommands : Obligations.CalendarCommands :=
  ⟨fun _ hvin => ⟨calStage_shows hvin, calCommit_sealed hvin, calCommit_full hvin, calCommit_bad hvin, calCommit_good hvin, calRead_shows hvin⟩,
    fun _ hdue => ⟨secondBoundary_advances hdue, fun _ hpend hroom => secondBoundary_commits hdue hpend hroom⟩,
    fun _ hv htop => next_valid hv htop⟩

end Sys2Proof.Machine
end

section
/-!
PROOFS. The verification port answers (R536, R538 to R540, R551, R553, R558).
-/
namespace Sys2Proof.Machine

/-! ### Tags -/

theorem beBytes_length : ∀ n v, (Crypto.beBytes n v).length = n
  | 0, _ => rfl
  | n + 1, v => by unfold Crypto.beBytes; rw [List.length_append, beBytes_length]; rfl

theorem sha256_length (m : List Byte) : (Crypto.sha256 m).length = 32 := by
  unfold Crypto.sha256
  dsimp only
  rw [List.flatMap_cons, List.flatMap_cons, List.flatMap_cons, List.flatMap_cons, List.flatMap_cons, List.flatMap_cons, List.flatMap_cons,
    List.flatMap_cons, List.flatMap_nil]
  simp only [List.length_append, beBytes_length, List.length_nil]

theorem tagOf_length (body : List Byte) : (tagOf body).length = 16 := by
  unfold tagOf Crypto.hmac
  dsimp only
  rw [List.length_take, sha256_length]
  rfl

section
variable {s : State}

/-- What VERIFY answers to a body and a tag. -/
theorem verify_exec (hvin : s.met.vin = true) (b x : List Byte) (hx : x.length = 16) : exec (.verify (b ++ x)) s =
    settle s (if (b.length = 48 ∨ b.length = 80) ∧ tagOf b = x then answer .ok s else answer (.err .tag) s) := by
  have hlen : (b ++ x).length = b.length + 16 := by rw [List.length_append, hx]
  have htake : (b ++ x).take (b.length + 16 - 16) = b := by rw [Nat.add_sub_cancel, List.take_left]
  have hdrop : (b ++ x).drop (b.length + 16 - 16) = x := by rw [Nat.add_sub_cancel, List.drop_left]
  have hsize : (b.length + 16 = 64 ∨ b.length + 16 = 96) = (b.length = 48 ∨ b.length = 80) := by
    refine propext ⟨fun h => ?_, fun h => ?_⟩ <;> omega
  change execVerify (b ++ x) s = _
  unfold execVerify
  rw [atPort_vin hvin]
  dsimp only
  rw [hlen, htake, hdrop]
  simp only [hsize]

theorem verify_ok (hvin : s.met.vin = true) {b : List Byte} (hb : b.length = 48 ∨ b.length = 80) :
    ∃ t, exec (.verify (signed b)) s = .next t ∧ OnlyMet s t ∧ t.met = { s.met with answer := .ok } :=
  answers_shows ((verify_exec hvin b (tagOf b) (tagOf_length b)).trans (congrArg (settle s) (if_pos ⟨hb, rfl⟩)))

theorem verify_wrong (hvin : s.met.vin = true) {b x : List Byte} (hx : x.length = 16) (hne : x ≠ tagOf b) :
    ∃ t, exec (.verify (b ++ x)) s = .next t ∧ OnlyMet s t ∧ t.met = { s.met with answer := .err .tag } :=
  answers_shows ((verify_exec hvin b x hx).trans (congrArg (settle s) (if_neg fun h => hne h.2.symm)))

/-! ### The identity -/

/-- What an audited event leaves of the compartment: its records and its counter apart, everything. -/
structure AuditedOnly (s t : State) : Prop where
  only : OnlyMet s t
  met : t.met = { s.met with eventCtr := t.met.eventCtr, audit := t.met.audit }

theorem AuditedOnly.refl (s : State) : AuditedOnly s s := ⟨rfl, rfl⟩

theorem auditedOnly_nextFree (s : State) : AuditedOnly s (nextFree s) := ⟨rfl, rfl⟩

theorem AuditedOnly.trans {s t u : State} (h : AuditedOnly s t) (g : AuditedOnly t u) : AuditedOnly s u := by
  refine ⟨OnlyMet.trans h.only g.only, ?_⟩
  have hmet := g.met
  rw [h.met] at hmet
  exact hmet

theorem auditRecord_only (kind off : Nat) (cal old new : List Byte) (s : State) : AuditedOnly s (auditRecord kind off cal old new s) := by
  unfold auditRecord
  split
  · exact .refl s
  · exact ⟨rfl, rfl⟩

theorem auditPlain_only (kind : Nat) (cal : List Byte) (s : State) : AuditedOnly s (auditPlain kind cal s) :=
  (auditRecord_only ..).trans ((auditedOnly_nextFree _).trans (auditedOnly_nextFree _))

/-- What a look at the firmware leaves. -/
theorem checkFw_shows (crc : Nat) (s : State) : OnlyMet s (checkFw crc false s) ∧ (checkFw crc false s).met.fwCrc = crc ∧
    (crc ≠ fwGood → (checkFw crc false s).met.fwFault = true) ∧ (crc = fwGood → (checkFw crc false s).met.fwFault = s.met.fwFault) ∧
    (checkFw crc false s).met.paramFault = s.met.paramFault ∧ (checkFw crc false s).met.framFault = s.met.framFault ∧
    (checkFw crc false s).met.sealOpen = s.met.sealOpen := by
  unfold checkFw
  dsimp only
  by_cases hgood : crc = fwGood
  · rw [if_pos hgood, if_neg (by decide)]
    exact ⟨rfl, rfl, fun h => absurd hgood h, fun _ => rfl, rfl, rfl, rfl⟩
  · rw [if_neg hgood]
    by_cases hfault : s.met.fwFault = true
    · rw [if_pos hfault]
      exact ⟨rfl, rfl, fun _ => hfault, fun h => absurd h hgood, rfl, rfl, rfl⟩
    · rw [if_neg hfault]
      have honly : OnlyMet s (modMet (fun m => { m with fwFault := true }) (modMet (fun m => { m with fwCrc := crc }) s)) := rfl
      have hmet : (modMet (fun m => { m with fwFault := true }) (modMet (fun m => { m with fwCrc := crc }) s)).met =
          { s.met with fwCrc := crc, fwFault := true } := rfl
      obtain ⟨x, hx⟩ : ∃ x, modMet (fun m => { m with fwFault := true }) (modMet (fun m => { m with fwCrc := crc }) s) = x := ⟨_, rfl⟩
      rw [hx] at honly hmet ⊢
      obtain ⟨honly', hmet'⟩ := auditPlain_only 5 (calStamp s) x
      rw [hmet] at hmet'
      refine ⟨OnlyMet.trans honly honly', ?_, fun _ => ?_, fun h => absurd h hgood, ?_, ?_, ?_⟩ <;> rw [hmet']

theorem idFlashes_eq (crc : Nat) : idFlashes crc = (List.range 8).map (fun i => bitsOf crc (31 - 4 * i) (28 - 4 * i) + 1) := by
  unfold idFlashes bitsOf
  refine List.map_congr_left fun i hi => ?_
  have hlt := List.mem_range.mp hi
  rw [Nat.shiftRight_eq_div_pow, show (16 : Nat) = 2 ^ 4 from rfl, ← Nat.pow_mul, show 4 * (7 - i) = 28 - 4 * i by omega,
    show 31 - 4 * i + 1 - (28 - 4 * i) = 4 by omega]

/-- The identity of the compartment, as the port answers. -/
def identityAnswer (crc : Nat) : VerAnswer :=
  .identity (ascii "GOI-MET 2.03") (crcText crc) (leBytes 8 Config.metSerial.toNat) Config.metIssue

theorem verId_shows (hvin : s.met.vin = true) (crc : Word) : ∃ t, exec (.verId crc) s = .next t ∧ OnlyMet s t ∧ t.met.fwCrc = crc.toNat ∧
    t.met.idShown = true ∧ (crc.toNat ≠ fwGood → t.met.fwFault = true) ∧ (crc.toNat = fwGood → t.met.fwFault = s.met.fwFault) ∧
    t.met.answer = identityAnswer crc.toNat ∧
    (t.met.fwFault = false → s.met.paramFault = false → s.met.framFault = false → s.met.sealOpen = false →
      t.met.led = .identity ((List.range 8).map (fun i => bitsOf crc.toNat (31 - 4 * i) (28 - 4 * i) + 1))) := by
  obtain ⟨a, ha⟩ : ∃ a, identityAnswer = a := ⟨_, rfl⟩
  have hexec : exec (.verId crc) s = settle s (answer (a (checkFw crc.toNat false s).met.fwCrc)
      (modMet (fun m => { m with idShown := true }) (checkFw crc.toNat false s))) := by
    change execVerId crc s = _
    unfold execVerId
    rw [atPort_vin hvin, ← ha]
    rfl
  rw [ha]
  obtain ⟨honly, hcrc, hbad, hgood, hparam, hfram, hseal⟩ := checkFw_shows crc.toNat s
  obtain ⟨x, hx⟩ : ∃ x, checkFw crc.toNat false s = x := ⟨_, rfl⟩
  rw [hx] at hexec honly hcrc hbad hgood hparam hfram hseal
  rw [hcrc] at hexec
  have honly' : OnlyMet s (answer (a crc.toNat) (modMet (fun m => { m with idShown := true }) x)) := OnlyMet.trans honly rfl
  refine ⟨_, hexec.trans (settle_onlyMet honly'), honly', hcrc, rfl, hbad, hgood, rfl, fun hfw hp hf hs => ?_⟩
  have hfw' : x.met.fwFault = false := hfw
  have hled : (answer (a crc.toNat) (modMet (fun m => { m with idShown := true }) x)).met.led = if x.met.fwFault || x.met.paramFault || x.met.framFault then
      .blink 4 else if x.met.sealOpen then .blink 1 else .identity (idFlashes x.met.fwCrc) := rfl
  rw [hled, hfw', hparam, hfram, hseal, hp, hf, hs, hcrc, idFlashes_eq]
  rfl

/-! ### Registers and records -/

theorem verRd_shows (hvin : s.met.vin = true) (off : Nat) : ∃ t, exec (.verRd off) s = .next t ∧ OnlyMet s t ∧ t.met = { s.met with
    answer := match metReg s off with | some v => if off = 0 then .crc (crcText v) else .value v | none => .err .range } := by
  refine answers_shows ?_
  change execVerRd off s = _
  unfold execVerRd
  rw [atPort_vin hvin]
  cases metReg s off <;> rfl

/-- The answer to a request of a record. -/
def recordAnswer (r : Option (List Byte)) : VerAnswer := match r with | some b => .record (hexGroups b) | none => .err .range

theorem answerRecord_shows {o : Host.Outcome State Fault Refusal} {r : Option (List Byte)} (ho : o = settle s (answerRecord r s)) :
    ∃ t, o = .next t ∧ OnlyMet s t ∧ t.met = { s.met with answer := recordAnswer r } := by
  refine answers_shows (ho.trans (congrArg (settle s) ?_))
  cases r <;> rfl

/-! ### Writes -/

theorem param_setParam (off : Nat) (v : Param) (m : Met) : (m.setParam off v).param off = v := SMap.get_put_same ..

theorem param_setParam_ne {off o : Nat} (h : o ≠ off) (v : Param) (m : Met) : (m.setParam off v).param o = m.param o :=
  SMap.get_put_ne _ _ h ..

theorem putParam_params (off v : Nat) (m : Met) : (putParam off v m).params = (m.setParam off (Param.of v)).params := by
  unfold putParam
  dsimp only
  split
  · rfl
  · split <;> rfl

theorem putParam_rest (off v : Nat) (m : Met) : (putParam off v m).cal = m.cal ∧ (putParam off v m).audit = m.audit := by
  unfold putParam
  dsimp only
  split
  · exact ⟨rfl, rfl⟩
  · split <;> exact ⟨rfl, rfl⟩

theorem paramOffs_lt {off : Nat} (h : off ∈ paramOffs) : off < 256 := (by decide : ∀ o ∈ paramOffs, o < 256) off h

theorem verWr_known {off : Nat} (v : Nat) (hvin : s.met.vin = true) (hoff : off ∈ paramOffs) (hfree : s.met.writeRefused = none)
    (hlo : (paramRange off).1 ≤ v) (hhi : v ≤ (paramRange off).2) : exec (.verWr off v) s =
    settle s (if !s.met.consistent off v then answer (.err .incons) s else answer .ok (modMet (putParam off v)
      (auditRecord 3 off (calStamp s) (leBytes 8 (s.met.param off).value) (leBytes 8 v) s))) := by
  change execVerWr off v s = _
  unfold execVerWr
  rw [atPort_vin hvin, List.contains_iff_mem.mpr hoff, if_neg (by decide), hfree]
  dsimp only
  rw [if_neg (by omega)]

theorem verWr_unknown {off : Nat} (v : Nat) (hvin : s.met.vin = true) (hoff : off ∉ paramOffs) :
    ∃ t, exec (.verWr off v) s = .next t ∧ OnlyMet s t ∧ t.met = { s.met with answer := .err .range } := by
  refine answers_shows ?_
  have hnot : paramOffs.contains off = false := Bool.eq_false_iff.mpr fun h => hoff (List.contains_iff_mem.mp h)
  change execVerWr off v s = _
  unfold execVerWr
  rw [atPort_vin hvin, hnot, if_pos (by decide)]

theorem verWr_refused {off : Nat} {e : VerError} (v : Nat) (hvin : s.met.vin = true) (hoff : off ∈ paramOffs) (he : s.met.writeRefused = some e) :
    ∃ t, exec (.verWr off v) s = .next t ∧ OnlyMet s t ∧ t.met = { s.met with answer := .err e } := by
  refine answers_shows ?_
  change execVerWr off v s = _
  unfold execVerWr
  rw [atPort_vin hvin, List.contains_iff_mem.mpr hoff, if_neg (by decide), he]

theorem verWr_range {off : Nat} (v : Nat) (hvin : s.met.vin = true) (hoff : off ∈ paramOffs) (hfree : s.met.writeRefused = none)
    (hout : v < (paramRange off).1 ∨ (paramRange off).2 < v) :
    ∃ t, exec (.verWr off v) s = .next t ∧ OnlyMet s t ∧ t.met = { s.met with answer := .err .range } := by
  refine answers_shows ?_
  change execVerWr off v s = _
  unfold execVerWr
  rw [atPort_vin hvin, List.contains_iff_mem.mpr hoff, if_neg (by decide), hfree]
  dsimp only
  rw [if_pos hout]

theorem verWr_inconsistent {off : Nat} (v : Nat) (hvin : s.met.vin = true) (hoff : off ∈ paramOffs) (hfree : s.met.writeRefused = none)
    (hlo : (paramRange off).1 ≤ v) (hhi : v ≤ (paramRange off).2) (hcons : s.met.consistent off v = false) :
    ∃ t, exec (.verWr off v) s = .next t ∧ OnlyMet s t ∧ t.met = { s.met with answer := .err .incons } := by
  refine answers_shows ((verWr_known v hvin hoff hfree hlo hhi).trans ?_)
  rw [hcons, if_pos (by decide)]

theorem verWr_taken {off : Nat} (v : Nat) (hvin : s.met.vin = true) (hoff : off ∈ paramOffs) (hfree : s.met.writeRefused = none)
    (hlo : (paramRange off).1 ≤ v) (hhi : v ≤ (paramRange off).2) (hcons : s.met.consistent off v = true) :
    ∃ (t : State) (r : List Byte), exec (.verWr off v) s = .next t ∧ OnlyMet s t ∧ t.met.answer = .ok ∧ t.met.param off = Param.of v ∧
      (∀ o ∈ paramOffs, o ≠ off → t.met.param o = s.met.param o) ∧ t.met.audit = s.met.audit ++ [r] ∧ byteAt r 4 = 3 ∧
      byteAt r 5 = off ∧ t.met.cal = s.met.cal := by
  have hroom : s.met.auditFull = false := by
    unfold Met.writeRefused at hfree
    split at hfree
    · cases hfree
    split at hfree
    · cases hfree
    split at hfree
    · cases hfree
    · rename_i hnot
      exact Bool.eq_false_iff.mpr hnot
  have hexec := verWr_known v hvin hoff hfree hlo hhi
  rw [hcons, if_neg (by decide)] at hexec
  obtain ⟨honly, hmet⟩ := auditRecord_only 3 off (calStamp s) (leBytes 8 (s.met.param off).value) (leBytes 8 v) s
  obtain ⟨r, hkind, hroff, haudit⟩ := auditRecord_eq hroom 3 off (calStamp s) (leBytes 8 (s.met.param off).value) (leBytes 8 v)
  have htrail : (auditRecord 3 off (calStamp s) (leBytes 8 (s.met.param off).value) (leBytes 8 v) s).met.audit = s.met.audit ++ [r] := by
    rw [haudit]; rfl
  obtain ⟨x, hx⟩ : ∃ x, auditRecord 3 off (calStamp s) (leBytes 8 (s.met.param off).value) (leBytes 8 v) s = x := ⟨_, rfl⟩
  rw [hx] at hexec honly hmet htrail
  have honly' : OnlyMet s (answer .ok (modMet (putParam off v) x)) := OnlyMet.trans honly rfl
  obtain ⟨hcal, haud⟩ := putParam_rest off v x.met
  have hparams := putParam_params off v x.met
  have hget (o : Nat) : (answer .ok (modMet (putParam off v) x)).met.param o = (x.met.setParam off (Param.of v)).param o := by
    change (putParam off v x.met).params.get _ o = (x.met.setParam off (Param.of v)).params.get _ o
    rw [hparams]
  have hparam (o : Nat) : x.met.param o = s.met.param o := by rw [hmet]; rfl
  refine ⟨_, r, hexec.trans (settle_onlyMet honly'), honly', rfl, (hget off).trans (param_setParam ..),
    fun o _ hne => (hget o).trans ((param_setParam_ne hne ..).trans (hparam o)), haud.trans htrail, hkind,
    hroff.trans (Nat.mod_eq_of_lt (paramOffs_lt hoff)), hcal.trans ?_⟩
  rw [hmet]

end

/-- Settles O48: each line of the port by its answer; VERIFY by the tag it recomputes, a write by its checks in their order. -/
theorem verificationPortAnswers : Obligations.VerificationPortAnswers :=
  fun _ hvin => ⟨verId_shows hvin, answers_shows (atPort_vin hvin _), verRd_shows hvin, fun _ => answerRecord_shows (atPort_vin hvin _),
    fun _ => answerRecord_shows (atPort_vin hvin _), fun _ => answerRecord_shows (atPort_vin hvin _), fun _ => answers_shows (atPort_vin hvin _),
    fun _ hb => verify_ok hvin hb, fun _ _ hx hne => verify_wrong hvin hx hne, fun _ v hoff => verWr_unknown v hvin hoff,
    fun _ v hoff => ⟨fun _ he => verWr_refused v hvin hoff he, fun hfree hout => verWr_range v hvin hoff hfree hout,
      fun hfree hlo hhi => ⟨verWr_inconsistent v hvin hoff hfree hlo hhi, verWr_taken v hvin hoff hfree hlo hhi⟩⟩⟩

end Sys2Proof.Machine
end

section
/-!
PROOFS. The mailbox (R527, R543, R544, R552): what closing a cycle changes, what serving a request does, and each request by its reply.
-/
namespace Sys2Proof.Machine

/-! ### Closing a cycle -/

/-- Only the blocks of the data path, and the replies that became blocks, differ. -/
def BlocksOnly (m n : Met) : Prop :=
  n = { m with wheelBlock := n.wheelBlock, replies := n.replies, dataPath := n.dataPath, blockSeq := n.blockSeq }

theorem BlocksOnly.eq {m n : Met} (h : BlocksOnly m n) :
    n = { m with wheelBlock := n.wheelBlock, replies := n.replies, dataPath := n.dataPath, blockSeq := n.blockSeq } := h

theorem BlocksOnly.trans {a b c : Met} (h : BlocksOnly a b) (g : BlocksOnly b c) : BlocksOnly a c :=
  (BlocksOnly.eq g).trans (congrArg (fun x : Met =>
    { x with wheelBlock := c.wheelBlock, replies := c.replies, dataPath := c.dataPath, blockSeq := c.blockSeq }) (BlocksOnly.eq h))

theorem sendBlock_only (type : Nat) (payload : List Byte) (m : Met) : BlocksOnly m (sendBlock type payload m) := by
  unfold sendBlock
  split <;> exact rfl

theorem sendBlocks_only (type : Nat) (l : List (List Byte)) (m : Met) :
    BlocksOnly m (l.foldl (fun (x : Met) (p : List Byte) => sendBlock type p x) m) :=
  foldl_keeps (fun x : Met => BlocksOnly m x) _ (fun _ _ h => BlocksOnly.trans h (sendBlock_only ..)) _ rfl

/-- The cycle's WHEEL block goes out. -/
def wheelOut (m : Met) : Met :=
  match m.wheelBlock with | some p => sendBlock 1 p { m with wheelBlock := none } | none => m

theorem wheelOut_only (m : Met) : BlocksOnly m (wheelOut m) := by
  unfold wheelOut
  cases m.wheelBlock with
  | none => exact rfl
  | some p => exact BlocksOnly.trans (b := { m with wheelBlock := none }) rfl (sendBlock_only ..)

theorem closeCycle_open {m : Met} (h : m.toServe ≠ 0) : closeCycle m = m := if_pos h

theorem closeCycle_last {m : Met} (h : m.toServe = 0) : closeCycle m =
    (wheelOut m).replies.foldl (fun (x : Met) (p : List Byte) => sendBlock 3 p x) { wheelOut m with replies := [] } :=
  if_neg fun hne => hne h

theorem closeCycle_only (m : Met) : BlocksOnly m (closeCycle m) := by
  by_cases h : m.toServe = 0
  · rw [closeCycle_last h]
    exact BlocksOnly.trans (wheelOut_only m) (BlocksOnly.trans (b := { wheelOut m with replies := [] }) rfl (sendBlocks_only ..))
  · rw [closeCycle_open h]
    exact rfl

/-! ### Serving a request -/

/-- What a command of the journeys leaves of the compartment: the journey, its records and its numbers apart, everything. -/
structure JourneyOnly (s t : State) : Prop where
  only : OnlyMet s t
  met : t.met = { s.met with
    journey := t.met.journey, journeys := t.met.journeys, journeyNo := t.met.journeyNo
    gapNext := t.met.gapNext, gapLog := t.met.gapLog, chans := t.met.chans }

theorem JourneyOnly.refl (s : State) : JourneyOnly s s := ⟨rfl, rfl⟩

theorem JourneyOnly.trans {s t u : State} (h : JourneyOnly s t) (g : JourneyOnly t u) : JourneyOnly s u := by
  refine ⟨OnlyMet.trans h.only g.only, ?_⟩
  have hmet := g.met
  rw [h.met] at hmet
  exact hmet

section
variable {s : State}

/-- The request at the front of the mailbox is gone, and what was closed is the cycle. -/
def requestGone (m : Met) : Met := { m with mailbox := m.mailbox.drop 1, toServe := m.toServe - 1 }

theorem served_eq (x : State) : (served x).met = closeCycle (requestGone x.met) := rfl

theorem served_only (x : State) : BlocksOnly (requestGone x.met) (served x).met := closeCycle_only _

/-- A request whose reply, if any, joins the replies is served. -/
theorem served_of {x : State} {reply : Option (List Byte)} (honly : OnlyMet s x) (hbox : x.met.mailbox = s.met.mailbox)
    (hserve : x.met.toServe = s.met.toServe) (hreplies : x.met.replies = s.met.replies ++ reply.toList) : Served s (served x) reply := by
  have hall : OnlyMet s (served x) := OnlyMet.trans honly rfl
  have hblocks := BlocksOnly.eq (served_only x)
  refine ⟨hall, ?_, ?_, fun hmore => ?_⟩
  · rw [hblocks, ← hbox]; rfl
  · rw [hblocks, ← hserve]; rfl
  · have hleft : (requestGone x.met).toServe ≠ 0 := by
      change x.met.toServe - 1 ≠ 0
      omega
    rw [served_eq, closeCycle_open hleft]
    exact hreplies

theorem recordsStand_served {x : State} (h : RecordsStand s x) : RecordsStand s (served x) := by
  have hblocks := BlocksOnly.eq (served_only x)
  unfold RecordsStand
  rw [hblocks]
  exact h

theorem serve_eq {code seq p at_ : Nat} {k : Nat → Nat → State → State} {x : State} (h : nextRequest s code = some (seq, p, at_))
    (hk : k seq p s = x) (honly : OnlyMet s x) : serve code k s = .next (served x) := by
  unfold serve
  rw [h]
  dsimp only
  rw [hk]
  exact settle_onlyMet (OnlyMet.trans honly rfl)

/-- The reply to a request. -/
theorem reply_replies (code seq result : Nat) (record : List Byte) (s : State) :
    (reply code seq result record s).met = { s.met with replies := s.met.replies ++ [responseOf code seq result record] } := rfl

/-- A request that only gets its reply. -/
theorem replied_shows {o : Host.Outcome State Fault Refusal} {code seq result : Nat} {record : List Byte}
    (ho : o = .next (served (reply code seq result record s))) :
    ∃ t, o = .next t ∧ RecordsStand s t ∧ Served s t (some (responseOf code seq result record)) :=
  ⟨_, ho, recordsStand_served ⟨rfl, rfl, rfl, rfl, rfl, rfl⟩, served_of rfl rfl rfl rfl⟩

/-- A stored record on its way to the host. -/
theorem replyRecord_eq (code seq : Nat) (r : Option (List Byte)) (s : State) :
    replyRecord code seq r s = reply code seq (if r.isSome then 0 else 4) (r.getD []) s := by
  cases r <;> rfl

/-! ### Journeys -/

theorem journeyAt_congr {x y : State} (h : x.met.journeys = y.met.journeys) (n : Nat) : journeyAt x n = journeyAt y n := by
  unfold journeyAt; rw [h]

theorem journeys_served (x : State) : (served x).met.journeys = x.met.journeys := by rw [BlocksOnly.eq (served_only x)]; rfl
theorem journey_served (x : State) : (served x).met.journey = x.met.journey := by rw [BlocksOnly.eq (served_only x)]; rfl
theorem journeyNo_served (x : State) : (served x).met.journeyNo = x.met.journeyNo := by rw [BlocksOnly.eq (served_only x)]; rfl
theorem journeyCount_served (x : State) : (served x).met.journeyCount = x.met.journeyCount := by
  rw [BlocksOnly.eq (served_only x)]; rfl

/-- The open journey once a stamp is taken. -/
def stamped (m : Met) (j : Journey) : Journey :=
  if m.cal.ended then (if m.tbStale then j.flag jfTB_STALE else j).flag jfCAL_END else if m.tbStale then j.flag jfTB_STALE else j

theorem stamped_shows (m : Met) (j : Journey) : (stamped m j).no = j.no ∧ (stamped m j).dist = j.dist ∧ (stamped m j).gapMs = j.gapMs ∧
    (stamped m j).hostRef = j.hostRef ∧ (bitOf j.flags jfOPEN = true → bitOf (stamped m j).flags jfOPEN = true) := by
  have hflag (i : Nat) (j : Journey) : bitOf j.flags jfOPEN = true → bitOf (j.flag i).flags jfOPEN = true := by
    intro h
    unfold Journey.flag bitOf at *
    rw [Nat.testBit_or, h, Bool.true_or]
  unfold stamped
  cases m.cal.ended <;> cases m.tbStale
  · exact ⟨rfl, rfl, rfl, rfl, id⟩
  · exact ⟨rfl, rfl, rfl, rfl, fun h => hflag _ j h⟩
  · exact ⟨rfl, rfl, rfl, rfl, fun h => hflag _ j h⟩
  · exact ⟨rfl, rfl, rfl, rfl, fun h => hflag _ _ (hflag _ j h)⟩

theorem journeyBytes_shows (s : State) (j : Journey) (stop : Stamp) : ∃ l, journeyBytes s j stop = leBytes 4 j.no ++ l := by
  unfold journeyBytes signed
  simp only [List.append_assoc]
  exact ⟨_, rfl⟩

theorem stampFlags_eq (s : State) : stampFlags s = modJourney (stamped s.met) s := rfl

theorem modJourney_open {j : Journey} (h : s.met.journey = some j) (f : Journey → Journey) :
    modJourney f s = modMet (fun m => { m with journey := some (f j) }) s := by
  unfold modJourney modMet
  dsimp only
  rw [h]
  rfl

theorem modJourney_none (h : s.met.journey = none) (f : Journey → Journey) : (modJourney f s).met.journey = none :=
  (congrArg (Option.map f) h).trans rfl

theorem modJourney_only (f : Journey → Journey) (s : State) : JourneyOnly s (modJourney f s) := ⟨rfl, rfl⟩

/-- A record of a journey takes its place. -/
def keepRecord (no : Nat) (r : List Byte) (m : Met) : Met := { m with journeys := m.journeys.put [] (no % 1024) r }

theorem keepRecord_only (no : Nat) (r : List Byte) (s : State) : JourneyOnly s (nextFree (modMet (keepRecord no r) s)) := ⟨rfl, rfl⟩

/-- The running record of an open journey is rewritten; nothing else changes. -/
theorem rewriteJourney_open {j : Journey} (h : s.met.journey = some j) : ∃ l, rewriteJourney s =
    nextFree (modMet (keepRecord j.no (leBytes 4 j.no ++ l)) (stampFlags s)) := by
  have hopen : (stampFlags s).met.journey = some (stamped s.met j) := congrArg (fun x : State => x.met.journey) (modJourney_open h (stamped s.met))
  obtain ⟨hno, -⟩ := stamped_shows s.met j
  obtain ⟨l, hl⟩ := journeyBytes_shows (stampFlags s) (stamped s.met j) (stampNow (stampFlags s))
  refine ⟨l, ?_⟩
  unfold rewriteJourney
  dsimp only
  rw [hopen]
  dsimp only
  rw [hl, hno]
  rfl

theorem rewriteJourney_none (h : s.met.journey = none) : rewriteJourney s = s := by
  unfold rewriteJourney
  dsimp only
  rw [stampFlags_eq, modJourney_none h]

theorem rewriteJourney_only (s : State) : JourneyOnly s (rewriteJourney s) := by
  cases hj : s.met.journey with
  | none => rw [rewriteJourney_none hj]; exact .refl s
  | some j =>
    obtain ⟨l, h⟩ := rewriteJourney_open hj
    rw [h]
    exact (modJourney_only ..).trans (keepRecord_only ..)

/-- The record of an open journey can be read after its rewriting. -/
theorem rewriteJourney_read {j : Journey} (h : s.met.journey = some j) (hno : j.no < 2 ^ 32) :
    (rewriteJourney s).met.journey = some (stamped s.met j) ∧ (journeyAt (rewriteJourney s) j.no).isSome = true := by
  obtain ⟨l, hl⟩ := rewriteJourney_open h
  have hopen : (stampFlags s).met.journey = some (stamped s.met j) := congrArg (fun x : State => x.met.journey) (modJourney_open h (stamped s.met))
  obtain ⟨x, hx⟩ : ∃ x, stampFlags s = x := ⟨_, rfl⟩
  rw [hl]
  rw [hx] at hopen ⊢
  refine ⟨hopen, ?_⟩
  have hget : (nextFree (modMet (keepRecord j.no (leBytes 4 j.no ++ l)) x)).met.journeys.get [] (j.no % 1024) = leBytes 4 j.no ++ l :=
    SMap.get_put_same [] (j.no % 1024) (leBytes 4 j.no ++ l) x.met.journeys
  have hshown : leAt (leBytes 4 j.no ++ l) 0 4 = j.no := by
    unfold leAt
    rw [List.drop_zero, List.take_left' (leBytes_length 4 j.no), leNat_leBytes 4 j.no hno]
  unfold journeyAt
  dsimp only
  rw [hget, hshown, if_neg]
  · rfl
  · have hfull : (leBytes 4 j.no ++ l).isEmpty = false := rfl
    rw [hfull, decide_eq_false (fun h => h rfl)]
    decide

/-- A new journey. -/
def freshJourney (hostRef : Nat) (s : State) : Journey :=
  { no := (s.met.journeyNo + 1) % 2 ^ 32, flags := 2 ^ jfOPEN, gapCount := 0, hostRef := hostRef, eventCtr := s.met.eventCtr
    start := stampNow s, startMs := s.met.ms, dist := 0, gapMs := 0, gapFirst := 0xFFFFFFFF, gaps := [] }

/-- The journey is open. -/
def journeyOpened (j : Journey) (m : Met) : Met := { m with journeyNo := j.no, journey := some j }

/-- The channels of the compartment at the start of a journey, and its number. -/
def journeyBegun (hostRef : Nat) (s : State) : State :=
  nextFree (modMet (journeyOpened (freshJourney hostRef s)) (modMet (Met.mapChans (fun _ w => { w with satJ := 0 })) s))

theorem openJourney_eq (hostRef : Nat) (s : State) : openJourney hostRef s = rewriteJourney (journeyBegun hostRef s) := by
  unfold openJourney journeyBegun modMet
  dsimp only
  generalize s.met.mapChans _ = m
  rfl

theorem mapChans_only (f : Nat → WheelCh → WheelCh) (m : Met) : m.mapChans f = { m with chans := (m.mapChans f).chans } :=
  foldl_keeps (fun a : Met => a = { m with chans := a.chans }) (fun a c => a.setChan c (f c (a.chan c)))
    (fun a c h => congrArg (Met.setChan c (f c (a.chan c))) h) _ rfl

theorem chansMapped_only (f : Nat → WheelCh → WheelCh) (s : State) : JourneyOnly s (modMet (Met.mapChans f) s) := by
  have hchans := mapChans_only f s.met
  have hmet : (modMet (Met.mapChans f) s).met = s.met.mapChans f := rfl
  obtain ⟨m, hm⟩ : ∃ m, s.met.mapChans f = m := ⟨_, rfl⟩
  refine ⟨onlyMet_modMet .., ?_⟩
  rw [hmet]
  rw [hm] at hchans ⊢
  rw [hchans]

theorem journeyOpened_only (j : Journey) (s : State) : JourneyOnly s (nextFree (modMet (journeyOpened j) s)) := ⟨rfl, rfl⟩

theorem journeyBegun_only (hostRef : Nat) (s : State) : JourneyOnly s (journeyBegun hostRef s) :=
  (chansMapped_only ..).trans (journeyOpened_only ..)

theorem freshJourney_open (hostRef : Nat) (s : State) : bitOf (freshJourney hostRef s).flags jfOPEN = true :=
  (by decide : bitOf (2 ^ jfOPEN) jfOPEN = true)

theorem openJourney_shows (hostRef : Nat) (s : State) : JourneyOnly s (openJourney hostRef s) ∧
    (openJourney hostRef s).met.journeyNo = (s.met.journeyNo + 1) % 2 ^ 32 ∧
    ∃ j, (openJourney hostRef s).met.journey = some j ∧ j.no = (s.met.journeyNo + 1) % 2 ^ 32 ∧ j.dist = 0 ∧ j.hostRef = hostRef ∧
      bitOf j.flags jfOPEN = true ∧ (journeyAt (openJourney hostRef s) j.no).isSome = true := by
  rw [openJourney_eq]
  have hfresh : (journeyBegun hostRef s).met.journey = some (freshJourney hostRef s) := rfl
  have hnumber : (journeyBegun hostRef s).met.journeyNo = (s.met.journeyNo + 1) % 2 ^ 32 := rfl
  have honly := journeyBegun_only hostRef s
  obtain ⟨x, hx⟩ : ∃ x, journeyBegun hostRef s = x := ⟨_, rfl⟩
  rw [hx] at hfresh hnumber honly ⊢
  have hlt : (freshJourney hostRef s).no < 2 ^ 32 := Nat.mod_lt _ (by decide)
  obtain ⟨hopen, hread⟩ := rewriteJourney_read hfresh hlt
  obtain ⟨hno, hdist, -, href, hflag⟩ := stamped_shows x.met (freshJourney hostRef s)
  obtain ⟨l, hl⟩ := rewriteJourney_open hfresh
  have hkept : (rewriteJourney x).met.journeyNo = x.met.journeyNo := by rw [hl]; rfl
  exact ⟨honly.trans (rewriteJourney_only x), hkept.trans hnumber, _, hopen, hno.trans rfl, hdist.trans rfl, href.trans rfl, hflag (freshJourney_open ..), by rw [hno]; exact hread⟩

/-! ### The end of a journey -/

theorem nextFree_only (s : State) : JourneyOnly s (nextFree s) := ⟨rfl, rfl⟩

theorem writeGap_only (ch cause : Nat) (start stop : Stamp) (s : State) : JourneyOnly s (writeGap ch cause start stop s) := by
  unfold writeGap
  split
  · exact .refl s
  · refine JourneyOnly.trans (t := modMet _ s) ?_ (modJourney_only _ _)
    exact ⟨rfl, rfl⟩

/-- The entry of the gap of a channel that runs at the end of the journey. -/
def endGap (stop : Stamp) (a : State) (c : Nat) : State :=
  match a.met.journey with
  | some j => (match j.gaps.get none c with | some st => writeGap c 1 st stop a | none => a)
  | none => a

theorem endGap_only (stop : Stamp) (a : State) (c : Nat) : JourneyOnly a (endGap stop a c) := by
  unfold endGap
  split
  · split
    · exact writeGap_only ..
    · exact .refl a
  · exact .refl a

/-- The open journey with its last running values. -/
def journeyDone (ctr : Nat) (j : Journey) : Journey := { j with flags := j.flags - j.flags % 2, eventCtr := max j.eventCtr ctr }

/-- The journey's record once it is closed. -/
def journeyRecorded (s : State) : State :=
  rewriteJourney (modJourney (journeyDone s.met.eventCtr) (nextFree ((List.range 4).foldl (endGap (stampNow s)) s)))

theorem journeyRecorded_only (s : State) : JourneyOnly s (journeyRecorded s) := by
  have hgaps : JourneyOnly s ((List.range 4).foldl (endGap (stampNow s)) s) :=
    foldl_keeps (JourneyOnly s) _ (fun _ _ h => h.trans (endGap_only ..)) _ (.refl s)
  unfold journeyRecorded
  exact ((hgaps.trans (nextFree_only _)).trans (modJourney_only ..)).trans (rewriteJourney_only _)

/-- No journey is open any more. -/
def journeyShut (m : Met) : Met := { m with journey := none, journeyCount := m.journeyCount + 1 }

theorem closeJourney_eq (s : State) : closeJourney s = modMet journeyShut (journeyRecorded s) := rfl

/-! ### The requests -/

theorem startJourney_shows {seq p at_ : Nat} (hnext : nextRequest s 1 = some (seq, p, at_)) (hfree : s.met.startRefused = 0) :
    ∃ (t : State) (j : Journey), exec .startJourney s = .next t ∧ t.met.journeyNo = (s.met.journeyNo + 1) % 2 ^ 32 ∧
      t.met.journey = some j ∧ j.no = t.met.journeyNo ∧ j.dist = 0 ∧ j.hostRef = bitsOf p 39 8 ∧ bitOf j.flags jfOPEN = true ∧
      (journeyAt t j.no).isSome = true ∧ Served s t (some (responseOf 1 seq 0 ((journeyAt t j.no).getD []))) := by
  obtain ⟨honly, hnumber, j, hj, hno, hdist, href, hflag, hread⟩ := openJourney_shows (bitsOf p 39 8) s
  obtain ⟨x, hx⟩ : ∃ x, openJourney (bitsOf p 39 8) s = x := ⟨_, rfl⟩
  rw [hx] at honly hnumber hj hread
  obtain ⟨r, hr⟩ : ∃ r, (journeyAt x j.no).getD [] = r := ⟨_, rfl⟩
  have hexec : exec .startJourney s = .next (served (reply 1 seq 0 r x)) := by
    change execStartJourney s = _
    unfold execStartJourney
    refine serve_eq hnext ?_ (OnlyMet.trans honly.only rfl)
    dsimp only
    rw [hfree, if_neg (by decide), hx, hnumber, ← hno, hr]
  have hserved : Served s (served (reply 1 seq 0 r x)) (some (responseOf 1 seq 0 r)) := by
    have hmet := honly.met
    refine served_of (OnlyMet.trans honly.only rfl) ?_ ?_ ?_
    · rw [reply_replies, hmet]
    · rw [reply_replies, hmet]
    · rw [reply_replies, hmet]; rfl
  have hsame : journeyAt (served (reply 1 seq 0 r x)) j.no = journeyAt x j.no := journeyAt_congr (journeys_served _) _
  have hcount : (served (reply 1 seq 0 r x)).met.journeyNo = (s.met.journeyNo + 1) % 2 ^ 32 := (journeyNo_served _).trans hnumber
  refine ⟨_, j, hexec, hcount, (journey_served _).trans hj, hno.trans hcount.symm, hdist, href, hflag, ?_, ?_⟩
  · rw [hsame]; exact hread
  · rw [hsame, hr]; exact hserved

theorem startJourney_refused {seq p at_ : Nat} (hnext : nextRequest s 1 = some (seq, p, at_)) (hbad : s.met.startRefused ≠ 0) :
    ∃ t, exec .startJourney s = .next t ∧ RecordsStand s t ∧ Served s t (some (responseOf 1 seq s.met.startRefused [])) := by
  refine replied_shows ?_
  change execStartJourney s = _
  unfold execStartJourney
  refine serve_eq hnext ?_ rfl
  dsimp only
  rw [if_pos hbad]

theorem stopJourney_shows {seq p at_ : Nat} {j : Journey} (hnext : nextRequest s 2 = some (seq, p, at_)) (hj : s.met.journey = some j)
    (hno : j.no = bitsOf p 39 8) : ∃ t, exec .stopJourney s = .next t ∧ t.met.journey = none ∧
      t.met.journeyCount = s.met.journeyCount + 1 ∧ Served s t (some (responseOf 2 seq 0 ((journeyAt t j.no).getD []))) := by
  have honly := journeyRecorded_only s
  have hclose := closeJourney_eq s
  obtain ⟨x, hx⟩ : ∃ x, journeyRecorded s = x := ⟨_, rfl⟩
  rw [hx] at honly hclose
  have hmet := honly.met
  have hcount : x.met.journeyCount = s.met.journeyCount := by rw [hmet]
  have hshut : OnlyMet s (modMet journeyShut x) := OnlyMet.trans honly.only (onlyMet_modMet ..)
  obtain ⟨r, hr⟩ : ∃ r, (journeyAt (modMet journeyShut x) j.no).getD [] = r := ⟨_, rfl⟩
  have hexec : exec .stopJourney s = .next (served (reply 2 seq 0 r (modMet journeyShut x))) := by
    change execStopJourney s = _
    unfold execStopJourney
    refine serve_eq hnext ?_ (OnlyMet.trans hshut rfl)
    dsimp only
    rw [hj]
    dsimp only
    rw [if_pos hno, hclose, hr]
  have hserved : Served s (served (reply 2 seq 0 r (modMet journeyShut x))) (some (responseOf 2 seq 0 r)) := by
    refine served_of (OnlyMet.trans hshut rfl) ?_ ?_ ?_
    · change x.met.mailbox = _; rw [hmet]
    · change x.met.toServe = _; rw [hmet]
    · change x.met.replies ++ [_] = _; rw [hmet]; rfl
  have hsame : journeyAt (served (reply 2 seq 0 r (modMet journeyShut x))) j.no = journeyAt (modMet journeyShut x) j.no :=
    journeyAt_congr (journeys_served _) _
  refine ⟨_, hexec, journey_served _, (journeyCount_served _).trans (congrArg (· + 1) hcount), ?_⟩
  rw [hsame, hr]
  exact hserved

theorem stopJourney_refused {seq p at_ : Nat} (hnext : nextRequest s 2 = some (seq, p, at_))
    (hother : ∀ j, s.met.journey = some j → j.no ≠ bitsOf p 39 8) :
    ∃ t, exec .stopJourney s = .next t ∧ RecordsStand s t ∧ Served s t (some (responseOf 2 seq 3 [])) := by
  refine replied_shows ?_
  change execStopJourney s = _
  unfold execStopJourney
  refine serve_eq hnext ?_ rfl
  dsimp only
  split
  case _ j hj => rw [if_neg (hother j hj)]
  case _ => rfl

theorem readRecord_shows {seq p at_ : Nat} (hnext : nextRequest s 3 = some (seq, p, at_)) {r : Option (List Byte)}
    (hr : (if p % 2 = 1 then gapAt s (bitsOf p 39 8) else journeyAt s (bitsOf p 39 8)) = r) :
    ∃ t, exec .readRecord s = .next t ∧ RecordsStand s t ∧ Served s t (some (responseOf 3 seq (if r.isSome then 0 else 4) (r.getD []))) := by
  refine replied_shows ?_
  change execReadRecord s = _
  unfold execReadRecord
  refine serve_eq hnext ?_ rfl
  rw [hr, replyRecord_eq]

theorem readAudit_shows {seq p at_ : Nat} (hnext : nextRequest s 4 = some (seq, p, at_)) {r : Option (List Byte)}
    (hr : auditAt s (bitsOf p 9 0) = r) :
    ∃ t, exec .readAudit s = .next t ∧ RecordsStand s t ∧ Served s t (some (responseOf 4 seq (if r.isSome then 0 else 4) (r.getD []))) := by
  refine replied_shows ?_
  change execReadAudit s = _
  unfold execReadAudit
  refine serve_eq hnext ?_ rfl
  rw [hr, replyRecord_eq]

theorem readIdentity_shows {seq p at_ : Nat} (hnext : nextRequest s 5 = some (seq, p, at_)) :
    ∃ t, exec .readIdentity s = .next t ∧ RecordsStand s t ∧ Served s t (some (responseOf 5 seq 0 (identityText s))) := by
  refine replied_shows ?_
  change execReadIdentity s = _
  unfold execReadIdentity
  exact serve_eq hnext rfl rfl

/-- The time of the frame is the time of its sending. -/
def synced (p at_ : Nat) (m : Met) : Met := { m with sync := some (p, at_) }

theorem tbSync_shows {seq p at_ : Nat} (hnext : nextRequest s 6 = some (seq, p, at_)) :
    ∃ t, exec .tbSync s = .next t ∧ RecordsStand s t ∧ Served s t none ∧ t.met.sync = some (p, at_) := by
  have hexec : exec .tbSync s = settle s (served (modMet (synced p at_) s)) := by
    change execTbSync s = _
    unfold execTbSync
    rw [hnext]
    rfl
  have hserved : Served s (served (modMet (synced p at_) s)) none := served_of rfl rfl rfl (List.append_nil _).symm
  have hsync : (served (modMet (synced p at_) s)).met.sync = some (p, at_) := by
    rw [BlocksOnly.eq (served_only (modMet (synced p at_) s))]; rfl
  exact ⟨_, hexec.trans (settle_onlyMet hserved.1), recordsStand_served ⟨rfl, rfl, rfl, rfl, rfl, rfl⟩, hserved, hsync⟩

/-- A bad frame is counted. -/
def rejected (m : Met) : Met := { m with mbxRej := (m.mbxRej + 1) % 2 ^ 32 }

theorem frameReject_shows {f : MboxFrame} {rest : List MboxFrame} {arrived : Option (List Byte)} (hvin : s.met.vin = true)
    (hserve : s.met.toServe ≠ 0) (hbox : s.met.mailbox = f :: rest) (hbad : frameOk (arrived.getD f.bytes) = false) :
    ∃ t, exec (.mailboxFrameReject arrived) s = .next t ∧ RecordsStand s t ∧ Served s t none ∧
      t.met.mbxRej = (s.met.mbxRej + 1) % 2 ^ 32 := by
  have hexec : exec (.mailboxFrameReject arrived) s = settle s (served (modMet rejected s)) := by
    change execMailboxFrameReject arrived s = _
    unfold execMailboxFrameReject
    rw [hvin, decide_eq_false hserve, if_neg (by decide), hbox]
    dsimp only
    rw [hbad, if_neg (by decide)]
    rfl
  have hserved : Served s (served (modMet rejected s)) none := served_of rfl rfl rfl (List.append_nil _).symm
  have hcount : (served (modMet rejected s)).met.mbxRej = (s.met.mbxRej + 1) % 2 ^ 32 := by
    rw [BlocksOnly.eq (served_only (modMet rejected s))]; rfl
  exact ⟨_, hexec.trans (settle_onlyMet hserved.1), recordsStand_served ⟨rfl, rfl, rfl, rfl, rfl, rfl⟩, hserved, hcount⟩

end

/-- Settles O47: each request of the cycle by what its reply copies, a sync and a bad frame by what they note. -/
theorem mailboxRequestsAreServed : Obligations.MailboxRequestsAreServed :=
  fun _ _ _ _ => ⟨fun h => ⟨startJourney_shows h, startJourney_refused h⟩, fun h => ⟨fun _ => stopJourney_shows h, stopJourney_refused h⟩,
    fun h => readRecord_shows h rfl, fun h => readAudit_shows h rfl, readIdentity_shows, tbSync_shows,
    fun _ _ _ => frameReject_shows⟩

end Sys2Proof.Machine
end

section
/-!
PROOFS. The samples of the wheel channels (R562, R565, R567, R568, R571, R574, R577), channel by channel.
-/
namespace Sys2Proof.Machine

/-! ### Channels -/

theorem chan_setChan (c : Nat) (w : WheelCh) (m : Met) : (m.setChan c w).chan c = w := SMap.get_put_same ..

theorem chan_setChan_ne {c d : Nat} (h : d ≠ c) (w : WheelCh) (m : Met) : (m.setChan c w).chan d = m.chan d := SMap.get_put_ne _ _ h ..

/-- A fold of single steps, each at its own channel. -/
theorem chan_foldl (f : Nat → WheelCh → WheelCh) : ∀ (l : List Nat) (m : Met) (c : Nat), l.Nodup →
    (l.foldl (fun (a : Met) (c : Nat) => a.setChan c (f c (a.chan c))) m).chan c = if c ∈ l then f c (m.chan c) else m.chan c
  | [], _, _, _ => rfl
  | d :: l, m, c, h => by
    obtain ⟨hd, hl⟩ := List.nodup_cons.mp h
    rw [List.foldl_cons, chan_foldl f l _ c hl]
    by_cases hc : c = d
    · subst hc
      rw [if_neg hd, chan_setChan, if_pos List.mem_cons_self]
    · rw [chan_setChan_ne hc]
      simp only [List.mem_cons, hc, false_or]

/-- Each of the four channels goes through the step. -/
theorem chan_mapChans {c : Nat} (h : c < 4) (f : Nat → WheelCh → WheelCh) (m : Met) : (m.mapChans f).chan c = f c (m.chan c) :=
  (chan_foldl f _ m c List.nodup_range).trans (if_pos (List.mem_range.mpr h))

/-- The channels after a step of each: nothing else of the compartment changed. -/
theorem mapChans_shows (f : Nat → WheelCh → WheelCh) (m : Met) :
    ∃ n : Met, m.mapChans f = { m with chans := n.chans } ∧ ∀ c < 4, n.chan c = f c (m.chan c) :=
  ⟨m.mapChans f, mapChans_only f m, fun _ h => chan_mapChans h f m⟩

/-- A saturated stage marks the open journey, and nothing else. -/
theorem noteSat_only (old : Met) (s : State) : OnlyMet s (noteSat old s) ∧
    (noteSat old s).met = { s.met with journey := (noteSat old s).met.journey } := by
  unfold noteSat
  split <;> exact ⟨rfl, rfl⟩

/-! ### Fast samples -/

theorem saturate_shows (k : Nat) (w : WheelCh) : (w.saturate k).bits = w.bits ∧ (w.saturate k).fast = w.fast ∧ (w.saturate k).fine = w.fine ∧
    (w.saturate k).hits = w.hits ∧ (w.saturate k).beyond = w.beyond ∧ (w.saturate k).isOpen = w.isOpen := ⟨rfl, rfl, rfl, rfl, rfl, rfl⟩

theorem markOpen_shows (n : Nat) (w : WheelCh) : (w.markOpen n).bits = w.bits ∧ (w.markOpen n).isOpen = true ∧
    (w.markOpen n).fast.map (fun x => (x.n, x.val)) = w.fast.map (fun x => (x.n, x.val)) := by
  refine ⟨rfl, rfl, ?_⟩
  unfold WheelCh.markOpen
  rw [List.map_map]
  refine List.map_congr_left fun x _ => ?_
  change ((if n < x.n + 16 then { x with invalid := true } else x).n, (if n < x.n + 16 then { x with invalid := true } else x).val) = _
  split <;> rfl

/-- A channel with its fast sample, before the open decision. -/
def withFast (type n : Nat) (b : BitVec 16) (w : WheelCh) : WheelCh :=
  let bits := newest 508 (w.bits ++ bitVals b)
  let raw := fastRaw bits
  let y := fastSat raw
  let settling := decide (n < w.switchAt + 3)
  let far := beyondOpen type y
  let w1 : WheelCh :=
    { w with
      bits := bits, fast := w.fast ++ [⟨n, y, w.isOpen, settling⟩], fastSettling := settling, beyond := if far then w.beyond + 1 else 0
      within := if far then 0 else w.within + 1, badMs := if settling || w.isOpen then w.badMs ++ [n / 256] else w.badMs }
  if y ≠ raw then w1.saturate 1 else w1

/-- The open decision on a fast sample. -/
def openDecision (n : Nat) (w : WheelCh) : WheelCh :=
  if w.isOpen then (if 256 ≤ w.within then { w with isOpen := false, switchAt := n } else w)
  else if 2 ≤ w.beyond then w.markOpen n else w

theorem fastStep_eq {type : Nat} (h : type ≠ 0) (n : Nat) (b : BitVec 16) (w : WheelCh) :
    w.fastStep type n b = openDecision n (withFast type n b w) := if_neg h

theorem withFast_shows (type n : Nat) (b : BitVec 16) (w : WheelCh) :
    (withFast type n b w).bits = newest 508 (w.bits ++ bitVals b) ∧
    (withFast type n b w).fast.map (fun x => (x.n, x.val)) =
      w.fast.map (fun x => (x.n, x.val)) ++ [(n, fastSat (fastRaw (newest 508 (w.bits ++ bitVals b))))] ∧
    (withFast type n b w).isOpen = w.isOpen ∧ (withFast type n b w).beyond =
      if beyondOpen type (fastSat (fastRaw (newest 508 (w.bits ++ bitVals b)))) then w.beyond + 1 else 0 := by
  unfold withFast
  dsimp only
  generalize newest 508 (w.bits ++ bitVals b) = bits
  generalize fastRaw bits = raw
  generalize fastSat raw = y
  split
  · exact ⟨rfl, List.map_append, rfl, rfl⟩
  · exact ⟨rfl, List.map_append, rfl, rfl⟩

theorem openDecision_shows (n : Nat) (w : WheelCh) : (openDecision n w).bits = w.bits ∧
    (openDecision n w).fast.map (fun x => (x.n, x.val)) = w.fast.map (fun x => (x.n, x.val)) ∧
    (w.isOpen = false → 2 ≤ w.beyond → (openDecision n w).isOpen = true) ∧
    (w.isOpen = false → w.beyond = 0 → (openDecision n w).isOpen = false) := by
  unfold openDecision
  by_cases hopen : w.isOpen = true
  · rw [if_pos hopen]
    refine ⟨?_, ?_, fun h => ?_, fun h => ?_⟩
    · split <;> rfl
    · split <;> rfl
    · rw [h] at hopen; cases hopen
    · rw [h] at hopen; cases hopen
  · rw [if_neg hopen]
    by_cases hfar : 2 ≤ w.beyond
    · rw [if_pos hfar]
      obtain ⟨hbits, hmark, hfast⟩ := markOpen_shows n w
      exact ⟨hbits, hfast, fun _ _ => hmark, fun _ h => by omega⟩
    · rw [if_neg hfar]
      exact ⟨rfl, rfl, fun _ h => absurd h hfar, fun h _ => h⟩

/-- What a fast period gives a channel with an input. -/
def FastFormed (type n : Nat) (b : BitVec 16) (w v : WheelCh) : Prop :=
  let bits := newest 508 (w.bits ++ bitVals b)
  let y := fastSat (fastRaw bits)
  v.bits = bits ∧ v.fast.length = w.fast.length + 1 ∧ (v.fast.getLast?.map (fun x => (x.n, x.val))) = some (n, y) ∧
    (w.isOpen = false → 1 ≤ w.beyond → beyondOpen type y = true → v.isOpen = true) ∧
    (w.isOpen = false → beyondOpen type y = false → v.isOpen = false)

theorem fastStep_shows {type : Nat} (h : type ≠ 0) (n : Nat) (b : BitVec 16) (w : WheelCh) : FastFormed type n b w (w.fastStep type n b) := by
  rw [fastStep_eq h]
  obtain ⟨hbits, hfast, hopen, hbeyond⟩ := withFast_shows type n b w
  obtain ⟨x, hx⟩ : ∃ x, withFast type n b w = x := ⟨_, rfl⟩
  rw [hx] at hbits hfast hopen hbeyond ⊢
  obtain ⟨hbits', hfast', hset, hclear⟩ := openDecision_shows n x
  unfold FastFormed
  generalize newest 508 (w.bits ++ bitVals b) = bits at *
  dsimp only
  generalize fastSat (fastRaw bits) = y at *
  have hall := hfast'.trans hfast
  refine ⟨hbits'.trans hbits, ?_, ?_, fun ho h1 hfar => ?_, fun ho hfar => ?_⟩
  · have hlen := congrArg List.length hall
    simpa only [List.length_map, List.length_append, List.length_cons, List.length_nil, Nat.zero_add] using hlen
  · rw [← List.getLast?_map, hall, List.getLast?_append]
    rfl
  · refine hset (hopen.trans ho) ?_
    rw [hbeyond, hfar, if_pos rfl]
    omega
  · refine hclear (hopen.trans ho) ?_
    rw [hbeyond, hfar, if_neg (by decide)]

section
variable {s : State}

/-- The bits of a channel in a fast period. -/
def bitsFor (b0 b1 b2 b3 : BitVec 16) (c : Nat) : BitVec 16 := if c = 0 then b0 else if c = 1 then b1 else if c = 2 then b2 else b3

/-- The clocks after a fast period. -/
def fastCounted (n ms : Nat) (m : Met) : Met := { m with fastN := n, ms := ms }

theorem fastSample_shows (b0 b1 b2 b3 : BitVec 16) (hdue : s.met.fastFormDue = true) :
    ∃ t, exec (.fastSample b0 b1 b2 b3) s = .next t ∧ OnlyMet s t ∧ t.met.fastN = s.met.fastN + 1 ∧
      t.met.ms = (if (s.met.fastN + 1) % 256 = 0 then s.met.ms + 1 else s.met.ms) ∧ t.met.odo = s.met.odo ∧
      RecordsStand { s with met := { s.met with journey := t.met.journey } } t ∧
      ∀ c < 4, t.met.chan c = (s.met.chan c).fastStep (s.met.input c) (s.met.fastN + 1) (bitsFor b0 b1 b2 b3 c) := by
  obtain ⟨n, hn⟩ : ∃ n, s.met.fastN + 1 = n := ⟨_, rfl⟩
  obtain ⟨k, hk⟩ : ∃ k, (if n % 256 = 0 then s.met.ms + 1 else s.met.ms) = k := ⟨_, rfl⟩
  obtain ⟨f, hf⟩ : ∃ f : Nat → WheelCh → WheelCh, (fun c w => w.fastStep (s.met.input c) n (bitsFor b0 b1 b2 b3 c)) = f := ⟨_, rfl⟩
  have hexec : exec (.fastSample b0 b1 b2 b3) s = settle s (noteSat s.met (modMet (fastCounted n k) (modMet (Met.mapChans f) s))) := by
    change execFastSample b0 b1 b2 b3 s = _
    unfold execFastSample
    rw [hdue, if_neg (by decide), ← hf, ← hk, hn]
    unfold modMet bitsFor
    dsimp only
    generalize s.met.mapChans _ = m
    rfl
  obtain ⟨m, hm, hchan⟩ := mapChans_shows f s.met
  have hformed : (modMet (fastCounted n k) (modMet (Met.mapChans f) s)).met = fastCounted n k { s.met with chans := m.chans } :=
    congrArg (fastCounted n k) hm
  have honly : OnlyMet s (modMet (fastCounted n k) (modMet (Met.mapChans f) s)) := OnlyMet.trans (onlyMet_modMet ..) (onlyMet_modMet ..)
  obtain ⟨x, hx⟩ : ∃ x, modMet (fastCounted n k) (modMet (Met.mapChans f) s) = x := ⟨_, rfl⟩
  rw [hx] at hexec honly hformed
  obtain ⟨honly', hnoted⟩ := noteSat_only s.met x
  obtain ⟨t, ht⟩ : ∃ t, noteSat s.met x = t := ⟨_, rfl⟩
  rw [ht] at hexec honly' hnoted
  rw [hformed] at hnoted
  have hall := OnlyMet.trans honly honly'
  rw [hn, hk]
  refine ⟨t, hexec.trans (settle_onlyMet hall), hall, ?_, ?_, ?_, ?_, fun c hc => ?_⟩
  · rw [hnoted]; rfl
  · rw [hnoted]; rfl
  · rw [hnoted]; rfl
  · unfold RecordsStand; rw [hnoted]; exact ⟨rfl, rfl, rfl, rfl, rfl, rfl⟩
  · have hstep : t.met.chan c = m.chan c := by rw [hnoted]; rfl
    rw [hstep, hchan c hc, ← hf]

/-! ### Fine samples -/

theorem fineStep_shows {type : Nat} (h : type ≠ 0) (j : Nat) (w : WheelCh) :
    (w.fineStep type j).fine.map (fun x => (x.n, x.val)) = w.fine.map (fun x => (x.n, x.val)) ++ [(j, (finePath w.bits w.cic w.half).2.2.1)] ∧
    (w.fineStep type j).fast = w.fast ∧ (w.fineStep type j).hits = w.hits := by
  unfold WheelCh.fineStep
  generalize finePath w.bits w.cic w.half = r
  dsimp only
  rw [if_neg h]
  exact ⟨List.map_append, rfl, rfl⟩

/-- The clock of the fine samples. -/
def fineCounted (n : Nat) (m : Met) : Met := { m with fineN := n }

theorem fineSample_shows (hvin : s.met.vin = true) (hdue : s.met.fineFormDue = true) :
    ∃ t, exec .fineSample s = .next t ∧ OnlyMet s t ∧ t.met.fineN = s.met.fineN + 1 ∧
      ∀ c < 4, t.met.chan c = (s.met.chan c).fineStep (s.met.input c) (s.met.fineN + 1) := by
  obtain ⟨n, hn⟩ : ∃ n, s.met.fineN + 1 = n := ⟨_, rfl⟩
  obtain ⟨f, hf⟩ : ∃ f : Nat → WheelCh → WheelCh, (fun c w => w.fineStep (s.met.input c) n) = f := ⟨_, rfl⟩
  have hexec : exec .fineSample s = settle s (noteSat s.met (modMet (fineCounted n) (modMet (Met.mapChans f) s))) := by
    change execFineSample s = _
    unfold execFineSample
    rw [hvin, hdue, if_neg (by decide), ← hf, ← hn]
    unfold modMet
    dsimp only
    generalize s.met.mapChans _ = m
    rfl
  obtain ⟨m, hm, hchan⟩ := mapChans_shows f s.met
  have hformed : (modMet (fineCounted n) (modMet (Met.mapChans f) s)).met = fineCounted n { s.met with chans := m.chans } :=
    congrArg (fineCounted n) hm
  have honly : OnlyMet s (modMet (fineCounted n) (modMet (Met.mapChans f) s)) := OnlyMet.trans (onlyMet_modMet ..) (onlyMet_modMet ..)
  obtain ⟨x, hx⟩ : ∃ x, modMet (fineCounted n) (modMet (Met.mapChans f) s) = x := ⟨_, rfl⟩
  rw [hx] at hexec honly hformed
  obtain ⟨honly', hnoted⟩ := noteSat_only s.met x
  obtain ⟨t, ht⟩ : ∃ t, noteSat s.met x = t := ⟨_, rfl⟩
  rw [ht] at hexec honly' hnoted
  rw [hformed] at hnoted
  have hall := OnlyMet.trans honly honly'
  rw [hn]
  refine ⟨t, hexec.trans (settle_onlyMet hall), hall, ?_, fun c hc => ?_⟩
  · rw [hnoted]; rfl
  · have hstep : t.met.chan c = m.chan c := by rw [hnoted]; rfl
    rw [hstep, hchan c hc, ← hf]

/-! ### Releases -/

/-- A command that steps the channels and nothing else. -/
theorem released_shows {i : Instr} {f : Nat → WheelCh → WheelCh} (hexec : exec i s = settle s (modMet (Met.mapChans f) s)) :
    ∃ t, exec i s = .next t ∧ OnlyMet s t ∧ ∀ c < 4, t.met.chan c = f c (s.met.chan c) :=
  ⟨_, hexec.trans (settle_onlyMet (onlyMet_modMet ..)), onlyMet_modMet .., fun _ hc => chan_mapChans hc f s.met⟩

/-- The release of a channel's oldest fast sample, once it is due. -/
def releaseFast (type n : Nat) (w : WheelCh) : WheelCh :=
  if w.fastDue n then (match w.fast with | x :: t => { w with fast := t }.detect type x | [] => w) else w

theorem releaseFast_body (type n : Nat) (w : WheelCh) :
    (if w.fastDue n then (match w.fast with | x :: t => { w with fast := t }.detect type x | [] => w) else w) = releaseFast type n w := rfl

theorem detect_shows (type : Nat) (x : Sample) (w : WheelCh) : (w.detect type x).fast = w.fast ∧
    (x.invalid = false → x.settling = false → w.below = some true → (w.detect type x).hits =
      if pulseUpper type w.hyst ≤ x.val then w.hits ++ [x.n / 256] else w.hits) := by
  unfold WheelCh.detect
  split
  case isTrue h => exact ⟨rfl, fun hi hs _ => by rw [hi, hs] at h; cases h⟩
  case isFalse h =>
    split
    case _ hb => exact ⟨rfl, fun _ _ hbelow => by rw [hbelow] at hb; cases hb⟩
    case _ hb =>
      split
      · exact ⟨rfl, fun _ _ _ => rfl⟩
      · exact ⟨rfl, fun _ _ _ => rfl⟩
    case _ hb => exact ⟨by split <;> rfl, fun _ _ hbelow => by rw [hbelow] at hb; cases hb⟩

theorem fastRelease_shows (hvin : s.met.vin = true) (hdue : s.met.fastRelDue = true) :
    ∃ t, exec .fastSampleRelease s = .next t ∧ OnlyMet s t ∧ ∀ c < 4, t.met.chan c = releaseFast (s.met.input c) s.met.fastN (s.met.chan c) := by
  refine released_shows ?_
  change execFastSampleRelease s = _
  unfold execFastSampleRelease
  rw [hvin, hdue, if_neg (by decide)]
  exact congrArg (fun g => settle s { s with met := s.met.mapChans g }) (funext fun c => funext fun w => releaseFast_body (s.met.input c) s.met.fastN w)

theorem releaseFast_shows (type n : Nat) (w : WheelCh) : (w.fastDue n = false → releaseFast type n w = w) ∧
    ∀ x rest, w.fast = x :: rest → w.fastDue n = true → (releaseFast type n w).fast = rest ∧
      (x.invalid = false → x.settling = false → w.below = some true → (releaseFast type n w).hits =
        if pulseUpper type w.hyst ≤ x.val then w.hits ++ [x.n / 256] else w.hits) := by
  unfold releaseFast
  refine ⟨fun h => ?_, fun x rest hw h => ?_⟩
  · rw [h, if_neg (by decide)]
  · rw [h, if_pos rfl, hw]
    exact detect_shows type x { w with fast := rest }

/-- The release of a channel's oldest fine sample, once it is due. -/
def releaseFine (type n : Nat) (w : WheelCh) : WheelCh :=
  if w.fineDue n then (match w.fine with | x :: t => { w with fine := t }.takeFine type x | [] => w) else w

theorem releaseFine_body (type n : Nat) (w : WheelCh) :
    (if w.fineDue n then (match w.fine with | x :: t => { w with fine := t }.takeFine type x | [] => w) else w) = releaseFine type n w := rfl

theorem takeFine_shows (type : Nat) (x : Sample) (w : WheelCh) : (w.takeFine type x).fine = w.fine ∧
    (type = 1 → (w.takeFine type x).level = max w.level (if x.val < 0 then -x.val else x.val)) ∧
    (type ≠ 1 → (w.takeFine type x).level = x.val) := by
  unfold WheelCh.takeFine
  by_cases h : type = 1
  · rw [if_pos h]; exact ⟨rfl, fun _ => rfl, fun hne => absurd h hne⟩
  · rw [if_neg h]; exact ⟨rfl, fun he => absurd he h, fun _ => rfl⟩

theorem fineRelease_shows (hvin : s.met.vin = true) (hdue : s.met.fineRelDue = true) :
    ∃ t, exec .fineSampleRelease s = .next t ∧ OnlyMet s t ∧ ∀ c < 4, t.met.chan c = releaseFine (s.met.input c) s.met.fastN (s.met.chan c) := by
  refine released_shows ?_
  change execFineSampleRelease s = _
  unfold execFineSampleRelease
  rw [hvin, hdue, if_neg (by decide)]
  exact congrArg (fun g => settle s { s with met := s.met.mapChans g }) (funext fun c => funext fun w => releaseFine_body (s.met.input c) s.met.fastN w)

theorem releaseFine_shows (type n : Nat) (w : WheelCh) : (w.fineDue n = false → releaseFine type n w = w) ∧
    ∀ x rest, w.fine = x :: rest → w.fineDue n = true → (releaseFine type n w).fine = rest ∧
      (type = 1 → (releaseFine type n w).level = max w.level (if x.val < 0 then -x.val else x.val)) ∧
      (type ≠ 1 → (releaseFine type n w).level = x.val) := by
  unfold releaseFine
  refine ⟨fun h => ?_, fun x rest hw h => ?_⟩
  · rw [h, if_neg (by decide)]
  · rw [h, if_pos rfl, hw]
    exact takeFine_shows type x { w with fine := rest }

end

theorem bitsFor_mem {b0 b1 b2 b3 b : BitVec 16} {c : Nat} (h : [(0, b0), (1, b1), (2, b2), (3, b3)].contains (c, b) = true) :
    c < 4 ∧ bitsFor b0 b1 b2 b3 c = b := by
  have hmem := List.contains_iff_mem.mp h
  simp only [List.mem_cons, List.not_mem_nil, or_false, Prod.mk.injEq] at hmem
  obtain ⟨rfl, rfl⟩ | ⟨rfl, rfl⟩ | ⟨rfl, rfl⟩ | ⟨rfl, rfl⟩ := hmem
  · exact ⟨by decide, rfl⟩
  · exact ⟨by decide, rfl⟩
  · exact ⟨by decide, rfl⟩
  · exact ⟨by decide, rfl⟩

/-- Settles O50: each of the four commands by the step it takes on every channel, and each step by its own lemma. -/
theorem wheelSamplesFormAndRelease : Obligations.WheelSamplesFormAndRelease := by
  refine ⟨fun b0 b1 b2 b3 s hdue => ?_, fun s hvin hdue => ?_, fun s hvin hdue => ?_, fun s hvin hdue => ?_⟩
  · obtain ⟨t, ht, honly, hn, hms, hodo, hstand, hchan⟩ := fastSample_shows b0 b1 b2 b3 hdue
    refine ⟨t, ht, honly, hn, hms, hodo, hstand, fun c b hb hin => ?_⟩
    obtain ⟨hc, rfl⟩ := bitsFor_mem hb
    have hformed := fastStep_shows hin (s.met.fastN + 1) (bitsFor b0 b1 b2 b3 c) (s.met.chan c)
    rw [← hchan c hc] at hformed
    exact hformed
  · obtain ⟨t, ht, honly, hn, hchan⟩ := fineSample_shows hvin hdue
    refine ⟨t, ht, honly, hn, fun c hc hin => ?_⟩
    have hformed := fineStep_shows hin (s.met.fineN + 1) (s.met.chan c)
    rw [← hchan c hc] at hformed
    exact hformed
  · obtain ⟨t, ht, honly, hchan⟩ := fastRelease_shows hvin hdue
    refine ⟨t, ht, honly, fun c hc => ?_⟩
    have hrel := releaseFast_shows (s.met.input c) s.met.fastN (s.met.chan c)
    rw [← hchan c hc] at hrel
    exact hrel
  · obtain ⟨t, ht, honly, hchan⟩ := fineRelease_shows hvin hdue
    refine ⟨t, ht, honly, fun c hc => ?_⟩
    have hrel := releaseFine_shows (s.met.input c) s.met.fastN (s.met.chan c)
    rw [← hchan c hc] at hrel
    exact hrel

end Sys2Proof.Machine
end
